-- ==== Sys2Proof/Word.lean ====
section
/-! DEFINITION. The word types of the TZ6418 (00_scope R10, R14; 06_time_base R204; 05_schedule_contract R168). -/

namespace Sys2Proof

/-- An octet, 8 bits (R10). -/
abbrev Octet := BitVec 8
/-- A Cesyn word, 24 bits (R10). -/
abbrev W24 := BitVec 24
/-- A double word, 48 bits (R10). -/
abbrev W48 := BitVec 48
/-- A frame number FN, 32 bits, passing from FFFFFFFFh to 0 (R168). -/
abbrev Fn := BitVec 32
/-- A value of the time base TB, 48 bits, in ticks of 20 ns (R204). -/
abbrev Tb := BitVec 48
/-- A record or a payload as octets, least significant octet of every field first (R11). -/
abbrev Rec := List Octet

end Sys2Proof
end

