-- ==== Sys2Proof/Syntax.lean ====
section
/-! DEFINITION. The commands of the block: one constructor of Instr per row of the opcode table, with its operands. -/

namespace Sys2Proof

/-- The header fields of a host packet that its sender chooses (R58). VERSION, LENGTH and CRC follow from the packet. -/
structure Hdr where
  ctx : Nat
  seq : BitVec 16
  batch : Bool
  wantReply : Bool
  notifyOnly : Bool
  creditRet : Nat
  targetFn : Fn
deriving DecidableEq, Repr

/-- The SecTAG of a received frame and whether its ICV holds (R489). -/
structure SecTag where
  sci : Nat
  an : Nat
  pn : Nat
  icvOk : Bool
deriving DecidableEq, Repr

/-- A received Ethernet frame: addresses with the first octet most significant, VLAN 0 for an untagged frame (R488). -/
structure EthFrame where
  dst : Nat
  src : Nat
  vlan : Nat
  etype : Nat
  sec : Option SecTag
  payload : Rec
deriving DecidableEq, Repr

/-- The core that executes an instruction, and what ECC found in its fetch and data reads: 0 nothing, 1 a corrected error, 2 an uncorrectable one (R399). -/
structure CoreOp where
  core : Nat
  ecc : Nat
deriving DecidableEq, Repr

/-- The line states of a BUS flit as the far die reproduces them (R34): level (dominant true) of CAN0-CAN7 and LIN0-LIN11, and
the edges of each CAN line in the interval (count 0 to 2 and positions). -/
structure BusLines where
  can : List Bool
  lin : List Bool
  edges : List (List Nat)
deriving DecidableEq, Repr

/-- A copy of a flit as a lane received it, its CRC wrong (R30): the 256 bits, and the TYPE and SEQ of the flit where no other copy arrived. -/
structure BadFlit where
  raw : BitVec 256
  lost : Option (Nat × BitVec 8)
deriving DecidableEq, Repr

/-- All lines recessive (R35). -/
def BusLines.recessive : BusLines :=
  { can := List.replicate 8 false, lin := List.replicate 12 false, edges := List.replicate 8 [] }

/-- Readings of a channel (R255): I_ON in mA, V_DS in 0.5 mV, VOUT in 10 mV, TJ in 0.125 degrees, I_STALE, I_SAT, the frame's mean of
the squared current in (10 mA)^2 from the integrating converter (R281). -/
structure ChMeas where
  iOn : Nat
  vds : Nat
  vout : Nat
  tj : Int
  stale : Bool
  sat : Bool
  iSq : Nat
deriving DecidableEq, Repr

def ChMeas.initial : ChMeas := { iOn := 0, vds := 0, vout := 0, tj := 0, stale := false, sat := false, iSq := 0 }

/-- What Anvil measured over the frame that ends at a boundary. `ch` the channels read, with their readings (R255, R281); a channel that is not listed keeps its
readings, which are stale, and took no current. `sinks` sink, current in 10 microamperes, pin voltage in mV, whether the frame qualifies (R384); `coils` channel, sum
of the cycles' voltages in 5 mV, sum of their currents in mA, their number, whether one was saturated (R320, R327); `bridges` bridge and mean motor current in mA;
`vbats`, `vbat`, `rails`, `ain` as converted in the order of MON_READ group 0 with `vBad` the mask of those left with no conversion (R643, R644); `areas` area sensor,
reading in 0.125 degrees, no conversion; `tjBad` junction sensors with none; `convBad` converters with a faulted conversion; `vout0` channel and VOUT in 10 mV at
tick 0 of the new frame (R258 step A); `refs` the references of 1.200 V and 2.500 V in mV (R644); `adc` the conversions of the frame by the ADC entry of the mode Anvil ran (R162, R187). -/
structure FrameMeas where
  ch : List (Nat × ChMeas)
  sinks : List (Nat × Nat × Nat × Bool)
  coils : List (Nat × Nat × Nat × Nat × Bool)
  bridges : List (Nat × Nat)
  vbats : Int
  vbat : List Int
  rails : List Nat
  ain : List Nat
  vBad : Nat
  areas : List (Nat × Int × Bool)
  tjBad : List Nat
  convBad : List Nat
  vout0 : List (Nat × Nat)
  adc : List (Nat × List Nat)
  missed : List Nat
  refs : Nat × Nat := (1200, 2500)
deriving DecidableEq, Repr

/-- The commands: one constructor per row of the opcode table. A host packet carries its header `h` and its payload `b`; a Cesyn instruction
names its core in `op`; an event carries what the block measures or receives. -/
inductive Instr where
  /-- PING (R67). -/
  | ping (h : Hdr) (b : Rec)
  /-- GET_INFO (R5). -/
  | getInfo (h : Hdr) (b : Rec)
  /-- MEM_READ (R103). -/
  | memRead (h : Hdr) (b : Rec)
  /-- MEM_WRITE (R103). -/
  | memWrite (h : Hdr) (b : Rec)
  /-- CTX_RESET (R104). -/
  | ctxReset (h : Hdr) (b : Rec)
  /-- CTX_RESET_DONE (R104). -/
  | ctxResetDone (c : Nat)
  /-- UNIT_CLAIM (R105). -/
  | unitClaim (h : Hdr) (b : Rec)
  /-- CTX_CONFIG (R106). -/
  | ctxConfig (h : Hdr) (b : Rec)
  /-- MODE_SELECT (R194). -/
  | modeSelect (h : Hdr) (b : Rec)
  /-- Q_CONFIG (R119). -/
  | qConfig (h : Hdr) (b : Rec)
  /-- Q_PUSH (R141). -/
  | qPush (h : Hdr) (b : Rec)
  /-- Q_READ (R128). -/
  | qRead (h : Hdr) (b : Rec)
  /-- Q_MARK_SET (R131). -/
  | qMarkSet (h : Hdr) (b : Rec)
  /-- Q_MARK_CLEAR (R131). -/
  | qMarkClear (h : Hdr) (b : Rec)
  /-- Q_REWIND (R131). -/
  | qRewind (h : Hdr) (b : Rec)
  /-- Q_RELEASE (R132). -/
  | qRelease (h : Hdr) (b : Rec)
  /-- Q_RELEASE_TO_LIMIT (R132). -/
  | qReleaseToLimit (h : Hdr) (b : Rec)
  /-- Q_STATUS (R140). -/
  | qStatus (h : Hdr) (b : Rec)
  /-- Q_AUDIT (R137). -/
  | qAudit (h : Hdr) (b : Rec)
  /-- CH_CONFIG (R237). -/
  | chConfig (h : Hdr) (b : Rec)
  /-- CH_SET (R189). -/
  | chSet (h : Hdr) (b : Rec)
  /-- CH_STATUS (R251). -/
  | chStatus (h : Hdr) (b : Rec)
  /-- CH_CLEAR_DIAG (R256). -/
  | chClearDiag (h : Hdr) (b : Rec)
  /-- LH_CONFIG (R260). -/
  | lhConfig (h : Hdr) (b : Rec)
  /-- LH_STATUS (R262). -/
  | lhStatus (h : Hdr) (b : Rec)
  /-- CH_PROT_CONFIG (R274). -/
  | chProtConfig (h : Hdr) (b : Rec)
  /-- CH_CLEAR_PROT (R282). -/
  | chClearProt (h : Hdr) (b : Rec)
  /-- CH_PROT_STATUS (R302). -/
  | chProtStatus (h : Hdr) (b : Rec)
  /-- SUPPLY_STATUS (R300). -/
  | supplyStatus (h : Hdr) (b : Rec)
  /-- IND_CONFIG (R311). -/
  | indConfig (h : Hdr) (b : Rec)
  /-- IND_SET (R312). -/
  | indSet (h : Hdr) (b : Rec)
  /-- IND_STATUS (R337). -/
  | indStatus (h : Hdr) (b : Rec)
  /-- IND_CLEAR (R332). -/
  | indClear (h : Hdr) (b : Rec)
  /-- BR_CONFIG (R349). -/
  | brConfig (h : Hdr) (b : Rec)
  /-- BR_SET (R345). -/
  | brSet (h : Hdr) (b : Rec)
  /-- BR_STATUS (R374). -/
  | brStatus (h : Hdr) (b : Rec)
  /-- BR_CLEAR (R370). -/
  | brClear (h : Hdr) (b : Rec)
  /-- BR_POS_SET (R375). -/
  | brPosSet (h : Hdr) (b : Rec)
  /-- LS_CONFIG (R380). -/
  | lsConfig (h : Hdr) (b : Rec)
  /-- LS_SET (R383). -/
  | lsSet (h : Hdr) (b : Rec)
  /-- LS_STATUS (R384). -/
  | lsStatus (h : Hdr) (b : Rec)
  /-- LS_CLEAR (R386). -/
  | lsClear (h : Hdr) (b : Rec)
  /-- LIGHT_CONFIG (R396). -/
  | lightConfig (h : Hdr) (b : Rec)
  /-- LIGHT_STAGE (R389). -/
  | lightStage (h : Hdr) (b : Rec)
  /-- LIGHT_COMMIT (R391). -/
  | lightCommit (h : Hdr) (b : Rec)
  /-- LIGHT_DISCARD (R397). -/
  | lightDiscard (h : Hdr) (b : Rec)
  /-- LIGHT_STATUS (R397). -/
  | lightStatus (h : Hdr) (b : Rec)
  /-- LIGHT_SYNC (R391). -/
  | lightSync
  /-- TASK_CONTROL (R425). -/
  | taskControl (h : Hdr) (b : Rec)
  /-- TASK_STATUS (R433). -/
  | taskStatus (h : Hdr) (b : Rec)
  /-- TASK_PARAM (R425). -/
  | taskParam (h : Hdr) (b : Rec)
  /-- CORE_STATUS (R433). -/
  | coreStatus (h : Hdr) (b : Rec)
  /-- CAN_CONFIG (R438). -/
  | canConfig (h : Hdr) (b : Rec)
  /-- CAN_WAKE_CONFIG (R460). -/
  | canWakeConfig (h : Hdr) (b : Rec)
  /-- CAN_CONTROL_START (R470). -/
  | canControlStart (h : Hdr) (b : Rec)
  /-- CAN_CONTROL_LISTEN (R470). -/
  | canControlListen (h : Hdr) (b : Rec)
  /-- CAN_CONTROL_STOP (R470). -/
  | canControlStop (h : Hdr) (b : Rec)
  /-- CAN_CONTROL_SLEEP (R459). -/
  | canControlSleep (h : Hdr) (b : Rec)
  /-- CAN_CONTROL_WAKE (R470). -/
  | canControlWake (h : Hdr) (b : Rec)
  /-- CAN_CONTROL_RECOVER (R457). -/
  | canControlRecover (h : Hdr) (b : Rec)
  /-- CAN_CONTROL_FLUSH (R470). -/
  | canControlFlush (h : Hdr) (b : Rec)
  /-- CAN_STATUS (R469). -/
  | canStatus (h : Hdr) (b : Rec)
  /-- CAN_FILT_WRITE (R447). -/
  | canFiltWrite (h : Hdr) (b : Rec)
  /-- CAN_FILT_APPLY (R447). -/
  | canFiltApply (h : Hdr) (b : Rec)
  /-- LIN_CONFIG (R475). -/
  | linConfig (h : Hdr) (b : Rec)
  /-- LIN_SET (R479). -/
  | linSet (h : Hdr) (b : Rec)
  /-- LIN_CONTROL_START (R472). -/
  | linControlStart (h : Hdr) (b : Rec)
  /-- LIN_CONTROL_STOP (R472). -/
  | linControlStop (h : Hdr) (b : Rec)
  /-- LIN_CONTROL_SLEEP (R483). -/
  | linControlSleep (h : Hdr) (b : Rec)
  /-- LIN_CONTROL_WAKE (R484). -/
  | linControlWake (h : Hdr) (b : Rec)
  /-- LIN_STATUS (R498). -/
  | linStatus (h : Hdr) (b : Rec)
  /-- GW_BIND (R494). -/
  | gwBind (h : Hdr) (b : Rec)
  /-- ETH_CONFIG (R492). -/
  | ethConfig (h : Hdr) (b : Rec)
  /-- ETH_STATUS (R498). -/
  | ethStatus (h : Hdr) (b : Rec)
  /-- GW_STATUS (R498). -/
  | gwStatus (h : Hdr) (b : Rec)
  /-- ACC_CONFIG (R499). -/
  | accConfig (h : Hdr) (b : Rec)
  /-- ACC_START (R512). -/
  | accStart (h : Hdr) (b : Rec)
  /-- ACC_CALIBRATE (R510). -/
  | accCalibrate (h : Hdr) (b : Rec)
  /-- ACC_PH_HELLO (R520). -/
  | accPhHello (h : Hdr) (b : Rec)
  /-- ACC_PH_RESPONSE (R521). -/
  | accPhResponse (h : Hdr) (b : Rec)
  /-- ACC_PH_PRESENCE (R529). -/
  | accPhPresence (h : Hdr) (b : Rec)
  /-- IMMO_START (R526). -/
  | immoStart (h : Hdr) (b : Rec)
  /-- IMMO_REVOKE (R530). -/
  | immoRevoke (h : Hdr) (b : Rec)
  /-- ACC_STATUS (R533). -/
  | accStatus (h : Hdr) (b : Rec)
  /-- ACC_CLEAR (R506). -/
  | accClear (h : Hdr) (b : Rec)
  /-- ACC_LOCK_CLEAR (R525). -/
  | accLockClear (h : Hdr) (b : Rec)
  /-- ACC_LOCK_STATUS (R533). -/
  | accLockStatus (h : Hdr) (b : Rec)
  /-- KEY_WRITE (R541). -/
  | keyWrite (h : Hdr) (b : Rec)
  /-- KEY_INFO (R555). -/
  | keyInfo (h : Hdr) (b : Rec)
  /-- KEY_MAC_GEN (R556). -/
  | keyMacGen (h : Hdr) (b : Rec)
  /-- KEY_MAC_VER (R556). -/
  | keyMacVer (h : Hdr) (b : Rec)
  /-- KEY_CIPHER_ENC (R556). -/
  | keyCipherEnc (h : Hdr) (b : Rec)
  /-- KEY_CIPHER_DEC (R556). -/
  | keyCipherDec (h : Hdr) (b : Rec)
  /-- KEY_SIGN (R556). -/
  | keySign (h : Hdr) (b : Rec)
  /-- KEY_SIGN_VERIFY (R556). -/
  | keySignVerify (h : Hdr) (b : Rec)
  /-- KEY_ECDH (R556). -/
  | keyEcdh (h : Hdr) (b : Rec)
  /-- KEY_GENKEY (R556). -/
  | keyGenkey (h : Hdr) (b : Rec)
  /-- KEY_ATTEST (R552). -/
  | keyAttest (h : Hdr) (b : Rec)
  /-- FLT_CONFIG (R564). -/
  | fltConfig (h : Hdr) (b : Rec)
  /-- FLT_STATUS (R575). -/
  | fltStatus (h : Hdr) (b : Rec)
  /-- FLT_HISTORY (R571). -/
  | fltHistory (h : Hdr) (b : Rec)
  /-- FLT_CLEAR (R572). -/
  | fltClear (h : Hdr) (b : Rec)
  /-- FLT_STICKY (R571). -/
  | fltSticky (h : Hdr) (b : Rec)
  /-- FLT_GLOBAL (R571). -/
  | fltGlobal (h : Hdr) (b : Rec)
  /-- PWR_CONFIG (R580). -/
  | pwrConfig (h : Hdr) (b : Rec)
  /-- PWR_SET_RUN (R581). -/
  | pwrSetRun (h : Hdr) (b : Rec)
  /-- PWR_SET_IDLE (R582). -/
  | pwrSetIdle (h : Hdr) (b : Rec)
  /-- PWR_SET_PARK (R586). -/
  | pwrSetPark (h : Hdr) (b : Rec) (deep : Bool)
  /-- PWR_STATUS (R607). -/
  | pwrStatus (h : Hdr) (b : Rec)
  /-- PAD_RELEASE (R598). -/
  | padRelease (h : Hdr) (b : Rec)
  /-- PWR_WAKE_LIST (R596). -/
  | pwrWakeList (h : Hdr) (b : Rec)
  /-- HEARTH_RESTART (R600). -/
  | hearthRestart (h : Hdr) (b : Rec)
  /-- UPD_BEGIN (R618). -/
  | updBegin (h : Hdr) (b : Rec)
  /-- UPD_WRITE (R619). -/
  | updWrite (h : Hdr) (b : Rec)
  /-- UPD_FINISH (R621). -/
  | updFinish (h : Hdr) (b : Rec)
  /-- UPD_VERIFY (R625). -/
  | updVerify (h : Hdr) (b : Rec)
  /-- UPD_ACTIVATE_AT (R622). -/
  | updActivateAt (h : Hdr) (b : Rec)
  /-- UPD_ACTIVATE_NOW (R622). -/
  | updActivateNow (h : Hdr) (b : Rec)
  /-- UPD_CANCEL (R633). -/
  | updCancel (h : Hdr) (b : Rec)
  /-- UPD_CONFIRM (R628). -/
  | updConfirm (h : Hdr) (b : Rec)
  /-- UPD_ROLLBACK (R629). -/
  | updRollback (h : Hdr) (b : Rec)
  /-- UPD_STATUS (R633). -/
  | updStatus (h : Hdr) (b : Rec)
  /-- UPD_SERVICE (R633). -/
  | updService (h : Hdr) (b : Rec)
  /-- IN_CONFIG (R637). -/
  | inConfig (h : Hdr) (b : Rec)
  /-- IN_STATUS (R650). -/
  | inStatus (h : Hdr) (b : Rec)
  /-- IN_GLOBAL (R650). -/
  | inGlobal (h : Hdr) (b : Rec)
  /-- MON_READ (R650). -/
  | monRead (h : Hdr) (b : Rec)
  /-- IN_CFG_READ (R650). -/
  | inCfgRead (h : Hdr) (b : Rec)
  /-- SCHED_STATUS (R203). -/
  | schedStatus (h : Hdr) (b : Rec)
  /-- SCHED_UNIT (R203). -/
  | schedUnit (h : Hdr) (b : Rec)
  /-- SCHED_CHECK (R188). -/
  | schedCheck (h : Hdr) (b : Rec)
  /-- TB_READ (R228). -/
  | tbRead (h : Hdr) (b : Rec)
  /-- TIME_ANCHOR_SET (R210). -/
  | timeAnchorSet (h : Hdr) (b : Rec)
  /-- TIME_ANCHOR_CLEAR (R212). -/
  | timeAnchorClear (h : Hdr) (b : Rec)
  /-- CMP_SET_KEEP (R213). -/
  | cmpSetKeep (h : Hdr) (b : Rec)
  /-- CMP_SET_ARM (R214). -/
  | cmpSetArm (h : Hdr) (b : Rec)
  /-- CMP_SET_DISARM (R213). -/
  | cmpSetDisarm (h : Hdr) (b : Rec)
  /-- CMP_STATUS (R228). -/
  | cmpStatus (h : Hdr) (b : Rec)
  /-- TMR_CONFIG (R223). -/
  | tmrConfig (h : Hdr) (b : Rec)
  /-- TMR_STATUS (R228). -/
  | tmrStatus (h : Hdr) (b : Rec)
  /-- NOP (R414). -/
  | nop (op : CoreOp)
  /-- TEND (R425). -/
  | tend (op : CoreOp)
  /-- RET (R411). -/
  | ret (op : CoreOp)
  /-- RETT (R421). -/
  | rett (op : CoreOp)
  /-- BR (R414). -/
  | br (op : CoreOp) (cond : Nat) (off : Int)
  /-- JMP (R414). -/
  | jmp (op : CoreOp) (target : BitVec 16)
  /-- CALL (R411). -/
  | call (op : CoreOp) (target : BitVec 16)
  /-- DO (R412). -/
  | loopDo (op : CoreOp) (reg : Bool) (dn count : Nat) (lend : BitVec 16)
  /-- REP (R413). -/
  | rep (op : CoreOp) (reg : Bool) (dn count : Nat)
  /-- BMOV (R416). -/
  | bmov (op : CoreOp) (two : Bool) (ps pd dn : Nat) (cut : Option Nat)
  /-- BFLY (R417). -/
  | bfly (op : CoreOp) (dn : Nat) (scale : Bool) (cut : Option Nat)
  /-- LD (R406). -/
  | ld (op : CoreOp) (code ea : Nat) (ext : W24)
  /-- ST (R406). -/
  | st (op : CoreOp) (code ea : Nat) (ext : W24)
  /-- MOV (R403). -/
  | mov (op : CoreOp) (dst src : Nat)
  /-- ADD (R405). -/
  | add (op : CoreOp) (dd da db : Nat)
  /-- SUB (R405). -/
  | sub (op : CoreOp) (dd da db : Nat)
  /-- AND (R405). -/
  | andC (op : CoreOp) (dd da db : Nat)
  /-- OR (R405). -/
  | orC (op : CoreOp) (dd da db : Nat)
  /-- XOR (R405). -/
  | xor (op : CoreOp) (dd da db : Nat)
  /-- CMP (R405). -/
  | cmp (op : CoreOp) (da db : Nat)
  /-- ADC (R405). -/
  | adc (op : CoreOp) (dd da db : Nat)
  /-- SBC (R405). -/
  | sbc (op : CoreOp) (dd da db : Nat)
  /-- PADD (R405). -/
  | padd (op : CoreOp) (dd da db : Nat)
  /-- PSUB (R405). -/
  | psub (op : CoreOp) (dd da db : Nat)
  /-- SHL (R414). -/
  | shl (op : CoreOp) (dd da n : Nat)
  /-- SHR (R414). -/
  | shr (op : CoreOp) (dd da n : Nat)
  /-- ASR (R414). -/
  | asr (op : CoreOp) (dd da n : Nat)
  /-- ROL (R414). -/
  | rol (op : CoreOp) (dd da n : Nat)
  /-- MPY (R405). -/
  | mpy (op : CoreOp) (aa da db : Nat)
  /-- MAC (R405). -/
  | mac (op : CoreOp) (aa da db : Nat)
  /-- MSU (R405). -/
  | msu (op : CoreOp) (aa da db : Nat)
  /-- MPYF (R405). -/
  | mpyf (op : CoreOp) (aa da db : Nat)
  /-- MACF (R405). -/
  | macf (op : CoreOp) (aa da db : Nat)
  /-- MSUF (R405). -/
  | msuf (op : CoreOp) (aa da db : Nat)
  /-- PMACU (R405). -/
  | pmacu (op : CoreOp) (aa da db : Nat)
  /-- PMACS (R405). -/
  | pmacs (op : CoreOp) (aa da db : Nat)
  /-- CLR (R414). -/
  | clr (op : CoreOp) (aa : Nat)
  /-- NEG (R414). -/
  | neg (op : CoreOp) (aa : Nat)
  /-- ABS (R414). -/
  | abs (op : CoreOp) (aa : Nat)
  /-- RND (R405). -/
  | rnd (op : CoreOp) (aa : Nat)
  /-- ADDA (R414). -/
  | adda (op : CoreOp) (aa am : Nat)
  /-- SUBA (R414). -/
  | suba (op : CoreOp) (aa am : Nat)
  /-- ASHA (R414). -/
  | asha (op : CoreOp) (aa am : Nat) (n : Int)
  /-- TFRA (R414). -/
  | tfra (op : CoreOp) (aa am : Nat)
  /-- MACX (R414). -/
  | macx (op : CoreOp) (mcode aa mx px my py : Nat)
  /-- TBL_READ (R208). -/
  | tblRead (op : CoreOp) (dn : Nat)
  /-- QUEUE_PORT_READ (R431). -/
  | queuePortRead (op : CoreOp) (p : Nat)
  /-- QUEUE_PORT_PUSH (R431). -/
  | queuePortPush (op : CoreOp) (p : Nat)
  /-- QUEUE_PORT_MARK (R431). -/
  | queuePortMark (op : CoreOp) (p : Nat)
  /-- QUEUE_PORT_CLEAR_MARK (R431). -/
  | queuePortClearMark (op : CoreOp) (p : Nat)
  /-- QUEUE_PORT_REWIND (R431). -/
  | queuePortRewind (op : CoreOp) (p : Nat)
  /-- QUEUE_PORT_RELEASE (R431). -/
  | queuePortRelease (op : CoreOp) (p : Nat)
  /-- QUEUE_PORT_WORD_WRITE (R430). -/
  | queuePortWordWrite (op : CoreOp) (p w : Nat) (v : W24)
  /-- SAFE_TRAP (R421). -/
  | safeTrap (c : Nat)
  /-- TASK_ACTIVATION (R425). -/
  | taskActivation (t : Nat) (adc : List (Bool × Bool × List Nat))
  /-- BUDGET_TRAP (R193). -/
  | budgetTrap (c : Nat)
  /-- TASK_END_GUARD (R193). -/
  | taskEndGuard (c : Nat)
  /-- HSPI_WRITE (R82). -/
  | hspiWrite (n len : Nat) (b : Rec)
  /-- HSPI_READ (R83). -/
  | hspiRead (n len clocked : Nat)
  /-- HSPI_STATUS (R83). -/
  | hspiStatus (n : Nat)
  /-- HSPI_CS_RISE (R86). -/
  | hspiCsRise (n : Nat)
  /-- ETH_FRAME_RECEIVED (R488). -/
  | ethFrameReceived (p : Nat) (f : EthFrame)
  /-- PACKET_ACCEPT (R197). -/
  | packetAccept (c : Nat)
  /-- ETH_LINK_UP (R493). -/
  | ethLinkUp (p : Nat)
  /-- ETH_LINK_DOWN (R493). -/
  | ethLinkDown (p : Nat)
  /-- BLOCK_FLIT (R42). -/
  | blockFlit (seq : BitVec 8) (seg total : Nat) (crcOk : Bool)
  /-- REPORT_FLIT (R45). -/
  | reportFlit (seq : BitVec 8)
  /-- SAMPLE_FLIT (R159). -/
  | sampleFlit (seq : BitVec 8)
  /-- EVENT_FLIT (R159). -/
  | eventFlit (seq : BitVec 8)
  /-- MSG_FLIT (R36). -/
  | msgFlit (toAnvil : Bool) (seq : BitVec 8)
  /-- BUS_FLIT (R34). -/
  | busFlit (toAnvil : Bool) (lines : BusLines)
  /-- BUS_FLIT_TIMEOUT (R35). -/
  | busFlitTimeout
  /-- REJOIN_FLIT (R55). -/
  | rejoinFlit (seq : BitVec 8) (ep : BitVec 16) (f : Fn) (dig : BitVec 64)
  /-- EPOCH_REJECT_FLIT (R54). -/
  | epochRejectFlit (seq : BitVec 8)
  /-- DUMP_REQ_FLIT (R680). -/
  | dumpReqFlit (seq : BitVec 8) (full : Bool)
  /-- DUMP_FLIT (R54). -/
  | dumpFlit (seq : BitVec 8) (last : Bool)
  /-- NAK_FLIT (R32). -/
  | nakFlit (toAnvil : Bool) (seq want : BitVec 8)
  /-- TRAIN_FLIT (R38). -/
  | trainFlit (toAnvil : Bool) (lane : Nat)
  /-- QUENCH_REQ_FLIT (R567). -/
  | quenchReqFlit
  /-- FLIT_CRC_ERROR (R30). -/
  | flitCrcError (toAnvil : Bool) (lane : Nat) (bad : BadFlit)
  /-- LANE_RETRAIN (R38). -/
  | laneRetrain (toAnvil : Bool) (lane : Nat)
  /-- REPORT_TIMEOUT (R45). -/
  | reportTimeout
  /-- FRAME_BOUNDARY (R43). -/
  | frameBoundary (m : FrameMeas)
  /-- ORPHAN_HOLD_EXPIRY (R47). -/
  | orphanHoldExpiry (n : Nat)
  /-- SINK_HOLD_EXPIRY (R48). -/
  | sinkHoldExpiry (n : Nat)
  /-- ACT_HOLD_LAPSE (R623). -/
  | actHoldLapse
  /-- HEARTH_FRAME_START (R159). -/
  | hearthFrameStart (temps : List Int) (proc : List Nat) (procBad : Nat)
  /-- COMMIT_POINT (R157). -/
  | commitPoint
  /-- BATCH_TIMEOUT (R152). -/
  | batchTimeout (c : Nat)
  /-- CHANNEL_START_EDGE (R189). -/
  | channelStartEdge (n : Nat) (vz : Option Nat)
  /-- LAMP_PERIOD_START (R245). -/
  | lampPeriodStart (n : Nat) (vz : Option Nat)
  /-- OFF_DIAG_STEP_B (R258). -/
  | offDiagStepB (n vout : Nat)
  /-- DIR_EDGE (R241). -/
  | dirEdge (i : Nat) (level : Bool)
  /-- PIN_EDGE_DEFERRED (R242). -/
  | pinEdgeDeferred (n : Nat)
  /-- LH_N_CHANGE (R265). -/
  | lhNChange (high : Bool)
  /-- LHIN_CHANGE (R263). -/
  | lhinChange (i : Nat) (high : Bool)
  /-- FLASH_TOGGLE (R263). -/
  | flashToggle
  /-- OC_TRIP (R275). -/
  | ocTrip (n i vout : Nat)
  /-- VDS_TRIP (R277). -/
  | vdsTrip (n vds i vout : Nat)
  /-- COOL_DOWN_EXPIRY (R278). -/
  | coolDownExpiry (n : Nat)
  /-- RETRY_RESTORE (R279). -/
  | retryRestore (n : Nat)
  /-- TSD_TRIP (R285). -/
  | tsdTrip (n : Nat) (tj : Int)
  /-- TSD_CLEAR (R285). -/
  | tsdClear (n : Nat) (tj : Int)
  /-- DTJ_EVALUATION (R288). -/
  | dtjEvaluation (n : Nat) (tj : Int) (areas : List Int)
  /-- VBATS_LOW (R294). -/
  | vbatsLow (v : Int)
  /-- VBATS_RECOVER (R294). -/
  | vbatsRecover (v : Int)
  /-- CRANK_TIMEOUT (R294). -/
  | crankTimeout
  /-- CRANK_RELEASE (R295). -/
  | crankRelease (v : Int)
  /-- VBATS_OV (R296). -/
  | vbatsOv (v : Int)
  /-- VBATS_OV_END (R296). -/
  | vbatsOvEnd (v : Int)
  /-- REVERSE_BATTERY (R297). -/
  | reverseBattery (v : Int)
  /-- IND_IP_REACHED (R313). -/
  | indIpReached (n : Nat)
  /-- PULL_IN_END (R314). -/
  | pullInEnd (n : Nat)
  /-- CLOSING_DETECTION_WINDOW (R320). -/
  | closingDetectionWindow (n : Nat) (us is : List Nat) (sat : Bool)
  /-- COIL_OPEN_CHECK (R331). -/
  | coilOpenCheck (n i : Nat)
  /-- ONE_SHOT_END (R315). -/
  | oneShotEnd (n : Nat)
  /-- IND_RELEASE_END (R313). -/
  | indReleaseEnd (n : Nat)
  /-- ENCODER_STEP (R359). -/
  | encoderStep (b : Nat) (a e : Bool)
  /-- BRIDGE_STANDSTILL (R351). -/
  | bridgeStandstill (b : Nat)
  /-- DWELL_END (R352). -/
  | dwellEnd (b : Nat)
  /-- BRIDGE_STALL (R369). -/
  | bridgeStall (b : Nat)
  /-- BRIDGE_OPEN_PHASE (R370). -/
  | bridgeOpenPhase (b : Nat)
  /-- COMPARE_FIRE (R214). -/
  | compareFire (n : Nat)
  /-- TIMER_OVERFLOW (R221). -/
  | timerOverflow (n : Nat)
  /-- TIMER_MATCH (R221). -/
  | timerMatch (n : Nat)
  /-- TIMER_MASTER_EVENT (R220). -/
  | timerMasterEvent (n : Nat)
  /-- DEBOUNCED_EDGE (R635). -/
  | debouncedEdge (n : Nat) (v : Bool)
  /-- CAN_FRAME_RECEIVED (R446). -/
  | canFrameReceived (p w d : Nat) (data : Rec)
  /-- CAN_TX_ATTEMPT_END (R454). -/
  | canTxAttemptEnd (p i err : Nat) (loop : Option Nat)
  /-- CAN_BUS_ERROR (R456). -/
  | canBusError (p : Nat) (tx big : Bool)
  /-- CAN_INTEGRATION_DONE (R436). -/
  | canIntegrationDone (p : Nat)
  /-- CAN_BUSOFF_RECOVERY (R457). -/
  | canBusoffRecovery (p : Nat)
  /-- CAN_TXD_DOM (R458). -/
  | canTxdDom (p : Nat)
  /-- CAN_BUS_DOM (R458). -/
  | canBusDom (p : Nat)
  /-- CAN_WAKE_PATTERN (R461). -/
  | canWakePattern (p : Nat)
  /-- CAN_WAKE_FRAME (R462). -/
  | canWakeFrame (p w dlc : Nat) (data : Rec) (bad : Bool)
  /-- LIN_HEADER_START (R476). -/
  | linHeaderStart (n f : Nat)
  /-- LIN_FRAME_END (R481). -/
  | linFrameEnd (n res : Nat) (data : Rec)
  /-- LIN_BUS_DOM (R482). -/
  | linBusDom (n : Nat)
  /-- LIN_BUS_WAKE (R484). -/
  | linBusWake (n : Nat)
  /-- LF_PLAN_START (R512). -/
  | lfPlanStart
  /-- LF_STEP_START (R503). -/
  | lfStepStart
  /-- LF_AERIAL_FAULT (R506). -/
  | lfAerialFault (n : Nat) (short : Bool)
  /-- UHF_REPLY (R513). -/
  | uhfReply (t : Tb) (p : Option Rec)
  /-- ACCESS_DECISION (R517). -/
  | accessDecision
  /-- RESWEEP_START (R516). -/
  | resweepStart
  /-- PHONE_EXCHANGE_TIMEOUT (R522). -/
  | phoneExchangeTimeout (e : Nat)
  /-- CAL_REPEAT (R511). -/
  | calRepeat
  /-- LOCK_EXPIRY (R523). -/
  | lockExpiry (kind id : Nat)
  /-- LOCK_REPEAT_RESET (R523). -/
  | lockRepeatReset (kind id : Nat)
  /-- IMMO_REQ_RETRY (R528). -/
  | immoReqRetry
  /-- IMMO_RELEASE_PERIOD (R528). -/
  | immoReleasePeriod
  /-- PRESENCE_POLL (R529). -/
  | presencePoll
  /-- IMMO_ABSENT_TIMEOUT (R529). -/
  | immoAbsentTimeout
  /-- PARK_ENTRY_BEGIN (R587). -/
  | parkEntryBegin
  /-- PARK_AP1 (R587). -/
  | parkAp1
  /-- PARK_AP2 (R587). -/
  | parkAp2 (pt : Nat)
  /-- PARK_AP3 (R597). -/
  | parkAp3
  /-- PARK_ENTRY_TIMEOUT (R587). -/
  | parkEntryTimeout
  /-- PARK_DEEPEN (R592). -/
  | parkDeepen
  /-- PARK_TIMER_EXPIRY (R593). -/
  | parkTimerExpiry
  /-- PARK_MODEL_UPDATE (R284). -/
  | parkModelUpdate
  /-- WAKE_EVENT (R593). -/
  | wakeEvent (code ix pt : Nat)
  /-- HEARTH_RESET_RELEASE (R600). -/
  | hearthResetRelease (pt enc : Nat) (bad : List Nat)
  /-- MGMT_WATCHDOG (R601). -/
  | mgmtWatchdog
  /-- BELLOWS_WATCHDOG (R601). -/
  | bellowsWatchdog
  /-- SEQUENCER_WATCHDOG (R601). -/
  | sequencerWatchdog
  /-- RAIL_FAULT (R578). -/
  | railFault (r mv : Nat)
  /-- SNS_FAULT (R579). -/
  | snsFault (k : Nat)
  /-- SNS_RETRY (R579). -/
  | snsRetry (k : Nat)
  /-- ANVIL_POR_ASSERT (R602). -/
  | anvilPorAssert (v : Int)
  /-- ANVIL_POR_RELEASE (R602). -/
  | anvilPorRelease (v : Int) (test : Bool)
  /-- XTAL25_STOP (R603). -/
  | xtal25Stop
  /-- XTAL25_RESTORED (R603). -/
  | xtal25Restored
  /-- XTAL32_STOP (R603). -/
  | xtal32Stop
  /-- RESET_N_ASSERT (R604). -/
  | resetNAssert
  /-- RESET_N_RELEASE (R604). -/
  | resetNRelease
  /-- RESET_STUCK (R604). -/
  | resetStuck
  /-- UPD_ACTIVATION_TICK (R624). -/
  | updActivationTick
  /-- UPD_DEFER_TIMEOUT (R624). -/
  | updDeferTimeout
  /-- UPD_BOOT_VERIFY_DONE (R625). -/
  | updBootVerifyDone (bad : List Nat)
  /-- FAILED_BOOT_TIMEOUT (R629). -/
  | failedBootTimeout
  /-- INRUSH_WINDOW_END (R276). -/
  | inrushWindowEnd (n : Nat)
  /-- LED_PULSE_PERIOD_START (R383). -/
  | ledPulsePeriodStart (n : Nat)
  /-- CAN_TXD_REENABLE (R458). -/
  | canTxdReenable (p : Nat)
  /-- DROOP_DETECTOR_TRIP (R24). -/
  | droopDetectorTrip (i : Nat)
  /-- DROOP_CLEAR (R24). -/
  | droopClear (i : Nat)
  /-- LOOPBACK_MEASUREMENT (R510). -/
  | loopbackMeasurement (d : Int)
deriving DecidableEq, Repr

end Sys2Proof
end

