-- ==== Sys2Proof/Decode.lean ====
section
/-! DEFINITION. The words of the Cesyn instructions (R414). The opcode table gives its rows no bits, so no table word spells a command. -/

namespace Sys2Proof

/-- Bits [lo+n-1 : lo] of an instruction word. -/
def wordField (w lo n : Nat) : Nat := w / 2 ^ lo % 2 ^ n

/-- The signed value of a field of `n` bits. -/
def wordSigned (v n : Nat) : Int := if 2 * v < 2 ^ n then (v : Int) else (v : Int) - (2 ^ n : Nat)

/-- Whether an effective-address field takes an extension word: modes 6 and 7 (R414). -/
def eaTakesExt (ea : Nat) : Bool := decide (48 ≤ ea)

/-! ### Decoding -/

/-- Group SYS. -/
def decodeSys (op : CoreOp) (w : Nat) : Option Instr :=
  if wordField w 0 12 ≠ 0 then none
  else match wordField w 12 6 with
    | 0 => some (.nop op) | 1 => some (.tend op) | 2 => some (.ret op) | 3 => some (.rett op)
    | _ => none

/-- Group BR; a reserved condition is kept, for the core traps on it. -/
def decodeBr (op : CoreOp) (w : Nat) : Option Instr := some (.br op (wordField w 14 4) (wordSigned (wordField w 0 14) 14))

/-- Groups JMP and CALL, with their extension word. -/
def decodeJmp (op : CoreOp) (w : Nat) (ext : W24) : Option Instr :=
  if wordField w 0 17 ≠ 0 then none
  else if wordField w 17 1 = 0 then some (.jmp op (ext.truncate 16)) else some (.call op (ext.truncate 16))

/-- Groups DO and REP. -/
def decodeDo (op : CoreOp) (w : Nat) (ext : W24) : Option Instr :=
  let reg := wordField w 17 1 = 1
  if reg ∧ wordField w 0 14 ≠ 0 then none else some (.loopDo op (decide reg) (wordField w 14 3) (wordField w 0 14) (ext.truncate 16))

def decodeRep (op : CoreOp) (w : Nat) : Option Instr :=
  let reg := wordField w 17 1 = 1
  if wordField w 12 2 ≠ 0 ∨ (reg ∧ wordField w 0 12 ≠ 0) then none else some (.rep op (decide reg) (wordField w 14 3) (wordField w 0 12))

/-- Groups BMOV and BFLY; `cut` is where a SAFE request stops the instruction, no part of its word. -/
def decodeBmov (op : CoreOp) (cut : Option Nat) (w : Nat) : Option Instr :=
  if wordField w 0 8 ≠ 0 then none
  else some (.bmov op (decide (wordField w 17 1 = 1)) (wordField w 14 3) (wordField w 11 3) (wordField w 8 3) cut)

def decodeBfly (op : CoreOp) (cut : Option Nat) (w : Nat) : Option Instr :=
  if wordField w 0 14 ≠ 0 then none else some (.bfly op (wordField w 15 3) (decide (wordField w 14 1 = 1)) cut)

/-- Groups LD, ST and MOV. -/
def decodeMem (op : CoreOp) (store : Bool) (w : Nat) (ext : W24) : Option Instr :=
  let ea := wordField w 6 6
  let x := if eaTakesExt ea then ext else 0
  if wordField w 0 6 ≠ 0 then none
  else if store then some (.st op (wordField w 12 6) ea x) else some (.ld op (wordField w 12 6) ea x)

def decodeMov (op : CoreOp) (w : Nat) : Option Instr :=
  if wordField w 0 6 ≠ 0 then none else some (.mov op (wordField w 12 6) (wordField w 6 6))

/-- Group ALU. -/
def decodeAlu (op : CoreOp) (w : Nat) : Option Instr :=
  if wordField w 0 5 ≠ 0 then none
  else match wordField w 14 4 with
    | 0 => some (.add op (wordField w 11 3) (wordField w 8 3) (wordField w 5 3))
    | 1 => some (.sub op (wordField w 11 3) (wordField w 8 3) (wordField w 5 3))
    | 2 => some (.andC op (wordField w 11 3) (wordField w 8 3) (wordField w 5 3))
    | 3 => some (.orC op (wordField w 11 3) (wordField w 8 3) (wordField w 5 3))
    | 4 => some (.xor op (wordField w 11 3) (wordField w 8 3) (wordField w 5 3))
    | 5 => some (.cmp op (wordField w 8 3) (wordField w 5 3))
    | 6 => some (.adc op (wordField w 11 3) (wordField w 8 3) (wordField w 5 3))
    | 7 => some (.sbc op (wordField w 11 3) (wordField w 8 3) (wordField w 5 3))
    | 8 => some (.padd op (wordField w 11 3) (wordField w 8 3) (wordField w 5 3))
    | 9 => some (.psub op (wordField w 11 3) (wordField w 8 3) (wordField w 5 3))
    | _ => none

/-- Group SHIFT; a count above 23 is kept, for the core traps on it. -/
def decodeShift (op : CoreOp) (w : Nat) : Option Instr :=
  if wordField w 0 4 ≠ 0 then none
  else match wordField w 15 3 with
    | 0 => some (.shl op (wordField w 12 3) (wordField w 9 3) (wordField w 4 5))
    | 1 => some (.shr op (wordField w 12 3) (wordField w 9 3) (wordField w 4 5))
    | 2 => some (.asr op (wordField w 12 3) (wordField w 9 3) (wordField w 4 5))
    | 3 => some (.rol op (wordField w 12 3) (wordField w 9 3) (wordField w 4 5))
    | _ => none

/-- Group MUL. -/
def decodeMul (op : CoreOp) (w : Nat) : Option Instr :=
  if wordField w 0 6 ≠ 0 then none
  else match wordField w 14 4 with
    | 0 => some (.mpy op (wordField w 12 2) (wordField w 9 3) (wordField w 6 3))
    | 1 => some (.mac op (wordField w 12 2) (wordField w 9 3) (wordField w 6 3))
    | 2 => some (.msu op (wordField w 12 2) (wordField w 9 3) (wordField w 6 3))
    | 3 => some (.mpyf op (wordField w 12 2) (wordField w 9 3) (wordField w 6 3))
    | 4 => some (.macf op (wordField w 12 2) (wordField w 9 3) (wordField w 6 3))
    | 5 => some (.msuf op (wordField w 12 2) (wordField w 9 3) (wordField w 6 3))
    | 6 => some (.pmacu op (wordField w 12 2) (wordField w 9 3) (wordField w 6 3))
    | 7 => some (.pmacs op (wordField w 12 2) (wordField w 9 3) (wordField w 6 3))
    | _ => none

/-- Group ACC; fields an operation does not use are not looked at. -/
def decodeAcc (op : CoreOp) (w : Nat) : Option Instr :=
  if wordField w 0 4 ≠ 0 then none
  else match wordField w 14 4 with
    | 0 => some (.clr op (wordField w 12 2))
    | 1 => some (.neg op (wordField w 12 2))
    | 2 => some (.abs op (wordField w 12 2))
    | 3 => some (.rnd op (wordField w 12 2))
    | 4 => some (.adda op (wordField w 12 2) (wordField w 10 2))
    | 5 => some (.suba op (wordField w 12 2) (wordField w 10 2))
    | 6 => some (.asha op (wordField w 12 2) (wordField w 10 2) (wordSigned (wordField w 4 6) 6))
    | 7 => some (.tfra op (wordField w 12 2) (wordField w 10 2))
    | _ => none

/-- Group MACX: Px is P0 to P3, Py is P4 to P7. A reserved mode is kept, for the core traps on it. -/
def decodeMacx (op : CoreOp) (w : Nat) : Option Instr :=
  if wordField w 0 3 ≠ 0 then none
  else some (.macx op (wordField w 15 3) (wordField w 13 2) (wordField w 10 3) (wordField w 8 2) (wordField w 5 3) (4 + wordField w 3 2))

/-- The instruction that a word and its extension word spell, executed by `op` (R414); none where the encoding is not listed. -/
def decodeCesyn (op : CoreOp) (cut : Option Nat) (w : Nat) (ext : W24) : Option Instr :=
  match wordField w 18 6 with
  | 0 => decodeSys op w
  | 1 => decodeBr op w
  | 2 => decodeJmp op w ext
  | 3 => decodeDo op w ext
  | 4 => decodeRep op w
  | 5 => decodeBmov op cut w
  | 6 => decodeBfly op cut w
  | 8 => decodeMem op false w ext
  | 9 => decodeMem op true w ext
  | 10 => decodeMov op w
  | 16 => decodeAlu op w
  | 17 => decodeShift op w
  | 18 => decodeMul op w
  | 19 => decodeAcc op w
  | 20 => decodeMacx op w
  | _ => none

/-! ### Encoding -/

/-- Group `g` and its fields, each at its lowest bit. -/
def encWord (g : Nat) (fs : List (Nat × Nat)) : Nat := g * 2 ^ 18 + (fs.map (fun f => f.1 * 2 ^ f.2)).sum

/-- The low `n` bits of a signed field. -/
def encSigned (v : Int) (n : Nat) : Nat := (v % (2 ^ n : Nat)).toNat

/-- A flag as a field. -/
def encBool (b : Bool) : Nat := if b then 1 else 0

/-- Operations of group ALU with three registers, of groups SHIFT, MUL and ACC. -/
def encAlu (code dd da db : Nat) : Option (Nat × W24) := some (encWord 16 [(code, 14), (dd, 11), (da, 8), (db, 5)], 0)
def encShift (code dd da n : Nat) : Option (Nat × W24) := some (encWord 17 [(code, 15), (dd, 12), (da, 9), (n, 4)], 0)
def encMul (code aa da db : Nat) : Option (Nat × W24) := some (encWord 18 [(code, 14), (aa, 12), (da, 9), (db, 6)], 0)
def encAcc (code aa am n : Nat) : Option (Nat × W24) := some (encWord 19 [(code, 14), (aa, 12), (am, 10), (n, 4)], 0)

/-- The word and the extension word (0 where it has none) of an instruction that a core executes; none for every command that is no
instruction of its own. -/
def encodeCesyn : Instr → Option (Nat × W24)
  | .nop _ => some (encWord 0 [(0, 12)], 0)
  | .tend _ => some (encWord 0 [(1, 12)], 0)
  | .ret _ => some (encWord 0 [(2, 12)], 0)
  | .rett _ => some (encWord 0 [(3, 12)], 0)
  | .br _ cond off => some (encWord 1 [(cond, 14), (encSigned off 14, 0)], 0)
  | .jmp _ target => some (encWord 2 [(0, 17)], target.zeroExtend 24)
  | .call _ target => some (encWord 2 [(1, 17)], target.zeroExtend 24)
  | .loopDo _ reg dn count lend => some (encWord 3 [(encBool reg, 17), (dn, 14), (count, 0)], lend.zeroExtend 24)
  | .rep _ reg dn count => some (encWord 4 [(encBool reg, 17), (dn, 14), (count, 0)], 0)
  | .bmov _ two ps pd dn _ => some (encWord 5 [(encBool two, 17), (ps, 14), (pd, 11), (dn, 8)], 0)
  | .bfly _ dn scale _ => some (encWord 6 [(dn, 15), (encBool scale, 14)], 0)
  | .ld _ code ea ext => some (encWord 8 [(code, 12), (ea, 6)], ext)
  | .st _ code ea ext => some (encWord 9 [(code, 12), (ea, 6)], ext)
  | .mov _ dst src => some (encWord 10 [(dst, 12), (src, 6)], 0)
  | .add _ dd da db => encAlu 0 dd da db
  | .sub _ dd da db => encAlu 1 dd da db
  | .andC _ dd da db => encAlu 2 dd da db
  | .orC _ dd da db => encAlu 3 dd da db
  | .xor _ dd da db => encAlu 4 dd da db
  | .cmp _ da db => encAlu 5 0 da db
  | .adc _ dd da db => encAlu 6 dd da db
  | .sbc _ dd da db => encAlu 7 dd da db
  | .padd _ dd da db => encAlu 8 dd da db
  | .psub _ dd da db => encAlu 9 dd da db
  | .shl _ dd da n => encShift 0 dd da n
  | .shr _ dd da n => encShift 1 dd da n
  | .asr _ dd da n => encShift 2 dd da n
  | .rol _ dd da n => encShift 3 dd da n
  | .mpy _ aa da db => encMul 0 aa da db
  | .mac _ aa da db => encMul 1 aa da db
  | .msu _ aa da db => encMul 2 aa da db
  | .mpyf _ aa da db => encMul 3 aa da db
  | .macf _ aa da db => encMul 4 aa da db
  | .msuf _ aa da db => encMul 5 aa da db
  | .pmacu _ aa da db => encMul 6 aa da db
  | .pmacs _ aa da db => encMul 7 aa da db
  | .clr _ aa => encAcc 0 aa 0 0
  | .neg _ aa => encAcc 1 aa 0 0
  | .abs _ aa => encAcc 2 aa 0 0
  | .rnd _ aa => encAcc 3 aa 0 0
  | .adda _ aa am => encAcc 4 aa am 0
  | .suba _ aa am => encAcc 5 aa am 0
  | .asha _ aa am n => encAcc 6 aa am (encSigned n 6)
  | .tfra _ aa am => encAcc 7 aa am 0
  | .macx _ mcode aa mx px my py => some (encWord 20 [(mcode, 15), (aa, 13), (mx, 10), (px, 8), (my, 5), (py - 4, 3)], 0)
  | _ => none

/-- The opcode table gives its rows no bits: no word of it spells a command. -/
def decodeTableWord (_nbits _w : Nat) : Option Instr := none

end Sys2Proof
end

