-- ==== Sys2Proof/Config.lean ====
section
/-! DEFINITION. What a part fixes and the free values: constants without a body, so that no proof can see them. -/

namespace Sys2Proof.Config

/-- The variant letter of the part, true for K, false for S (R1). Assumption log 3. -/
opaque variantK : Bool
/-- Silicon revision of Hearth and of Anvil as GET_INFO reports them (R5). Assumption log 3. -/
opaque hearthRev : Octet
opaque anvilRev : Octet
/-- The 64-bit device identity UID (R5). Assumption log 3. -/
opaque uid : BitVec 64
/-- The management firmware version of bank A (0) and bank B (1) where no manifest has been written. Assumption log 3. -/
opaque factoryFw : Nat → BitVec 32
/-- A free value: what the spec does not state, at the `n`-th use of the counter that State holds. Assumption log 4. -/
opaque freeValue : Nat → Nat
/-- A free octet of a region whose contents the spec does not lay out, by line and octet, at a use. Assumption log 6. -/
opaque freeOctet : Nat → Nat → Nat → Octet
/-- The number, modulo 65,536, of the cell that an entry cell is admitted into (R108): queue, position. Assumption log 6. -/
opaque cellNo : Nat → Nat → Nat
/-- A record of the settings store as the boot reads it after MEM_WRITE has written octets into the store, whose layout the spec does not give (R103): the octets written with
their addresses, kind and index of the record, the record held. Assumption log 31. -/
opaque settingsRec : List (Nat × Option Octet) → Nat → Nat → List Octet → List Octet
/-- The octets of the canonical state image (R53), whose layout the spec does not give: free octets for a list of the image's values. Assumption log 7. -/
opaque imageOctets : List Nat → List Octet
/-- What is on the bus of a CAN port at tick 0 of a frame: 0 nothing, 1 a frame of another node, 2 a transmission of the port, modulo 3: port, FN. Assumption log 38. -/
opaque canBusy : Nat → Nat → Nat
/-- Octets of the random source, at a use: `n` octets. Assumption log 8. -/
opaque random : Nat → Nat → List Octet

/-- RDS25 of a channel in micro-ohms, trimmed at the factory (R289). Assumption log 3. -/
opaque rds25 : Nat → Nat
/-- The rounding of one update of the wire state, whose last place the spec does not round: operands theta, I squared, I_WIRE, TAU.
Assumption log 9. -/
opaque wireRound : Nat → Nat → Nat → Nat → Bool
/-- The rounding of one step of the coil model to 0.125 degrees (R325): the last place, by channel and value in finer units. Assumption log 9. -/
opaque coilRound : Nat → Int → Bool

/-- Whether a quotient whose rounding the spec does not state is rounded up: numerator, denominator. Assumption log 9. -/
opaque roundUp : Nat → Nat → Bool

/-- What a field shows of a value that lies outside its range, where the spec states neither a limit nor a marking: octets of the field, value. Assumption log 47. -/
opaque outside : Nat → Int → Nat

/-- Whether the boot engine supports a format version of HEARTH_FW (R625 step 4). Assumption log 10. -/
opaque fwFormat : Nat → Bool
/-- Whether a record of the settings store can be converted by a SETTINGS_SCHEMA (R627): schema hash, kind and index of the record. Assumption log 11. -/
opaque converts : List Octet → Nat → Nat → Bool
/-- The carry convention of subtraction in the Cesyn ALU (R405): whether C is a borrow. Assumption log 12. -/
opaque carryIsBorrow : Bool
/-- The body bias of a clocked island from its process reading (R27, R585), in units of 10 mV above -50 mV: island, reading. Assumption log 13. -/
opaque bodyBias : Nat → Nat → Nat
/-- The status code of the COMPLETION of a PWR_SET whose park entry was abandoned (R589, R607). Assumption log 14. -/
opaque parkAbandoned : Nat → Nat

end Sys2Proof.Config
end

