-- ==== Sys2Proof/Machine/Octets.lean ====
section
/-! DEFINITION. Octet strings: little-endian fields, bit fields, sign extension, reserved-bit checks, CRC-32C. -/

namespace Sys2Proof.Machine

/-- The little-endian value of `n` octets from offset `off` (R11); octets past the end read 0. -/
def rd (b : Rec) (off n : Nat) : Nat :=
  ((b.drop off).take n).foldr (fun o acc => o.toNat + 256 * acc) 0

/-- `n` octets holding `v`, least significant first (R11). -/
def le : Nat → Nat → Rec
  | 0, _ => []
  | n + 1, v => BitVec.ofNat 8 v :: le n (v / 256)

/-- Bits [lo+n-1 : lo] of `v` (R9). -/
def bits (v lo n : Nat) : Nat := (v / 2 ^ lo) % 2 ^ n

/-- Bit `i` of `v` (R9). -/
def bit (v i : Nat) : Bool := v.testBit i

/-- A flag as a bit value. -/
def b2n (b : Bool) : Nat := if b then 1 else 0

/-- Two's-complement value of the low `n` bits of `v`. -/
def sx (n v : Nat) : Int :=
  let u := v % 2 ^ n
  if 2 * u < 2 ^ n then (u : Int) else (u : Int) - (2 ^ n : Nat)

/-- The low `n` bits of an integer. -/
def wrapI (n : Nat) (i : Int) : Nat := (i % (2 ^ n : Nat)).toNat

/-- `n` octets holding the signed value `i`. -/
def leI (n : Nat) (i : Int) : Rec := le n (wrapI (8 * n) i)

/-- A field of `n` octets that shows `v`; a value outside its range shows as a free value (log 47). -/
def fitN (n v : Nat) : Rec := le n (if v < 256 ^ n then v else Config.outside n v)

/-- The same for a signed field. -/
def fitI (n : Nat) (i : Int) : Rec := if -(2 ^ (8 * n - 1) : Int) ≤ i ∧ i < 2 ^ (8 * n - 1) then leI n i else le n (Config.outside n i)

/-- `b` with the octets from `off` on replaced by `v`, padded with 00h where `b` is too short. -/
def putAt (b : Rec) (off : Nat) (v : Rec) : Rec :=
  let b' := b ++ List.replicate (off - b.length) 0
  b'.take off ++ v ++ b'.drop (off + v.length)

/-- `n` octets from offset `off`, padded with 00h. -/
def sub (b : Rec) (off n : Nat) : Rec :=
  let x := (b.drop off).take n
  x ++ List.replicate (n - x.length) 0

/-- `n` octets of 00h. -/
def zeros (n : Nat) : Rec := List.replicate n 0

/-- Round-up division. -/
def cdiv (a b : Nat) : Nat := (a + b - 1) / b

/-- A value held at a ceiling. -/
def satN (n v : Nat) : Nat := if v > n then n else v

/-- Cells that `n` octets occupy (R61, R108: 48 octets a cell). -/
def cellsOf (n : Nat) : Nat := cdiv n 48

/-- The offset of the first reserved field that is not 0 (R12), among (offset, octets, mask of the reserved bits). -/
def resvFault (b : Rec) : List (Nat × Nat × Nat) → Option Nat
  | [] => none
  | (off, n, m) :: t => if (rd b off n) &&& m = 0 then resvFault b t else some off

/-- The offset of the first failing field check among (offset, holds). -/
def firstBad : List (Nat × Bool) → Option Nat
  | [] => none
  | (off, ok) :: t => if ok then firstBad t else some off

/-- One bit step of the reflected CRC-32C, polynomial 1EDC6F41h reflected 82F63B78h (R59). -/
def crcBit (c : Nat) : Nat := if c % 2 = 1 then (c / 2) ^^^ 0x82F63B78 else c / 2

def crcOctet (c : Nat) (o : Octet) : Nat :=
  crcBit (crcBit (crcBit (crcBit (crcBit (crcBit (crcBit (crcBit (c ^^^ o.toNat))))))))

/-- CRC-32C (R59): start FFFFFFFFh, final exclusive-OR FFFFFFFFh. -/
def crc32c (b : Rec) : Nat := (b.foldl crcOctet 0xFFFFFFFF) ^^^ 0xFFFFFFFF

/-- The octets of an ASCII string. -/
def ascii (s : String) : Rec := s.toList.map (fun c => BitVec.ofNat 8 c.toNat)

end Sys2Proof.Machine
end

