-- ==== Sys2Proof/Machine/Table.lean ====
section
/-! DEFINITION. Sparse tables in one canonical form: keys strictly rising, no entry equal to what an unlisted key
reads as. Every indexed collection of the device's state (channels, queues, roles, memories) is such a table. -/

namespace Sys2Proof.Machine

/-- A table from Nat keys; a key not listed reads as the table's default function says. -/
abbrev Tab (α : Type) := List (Nat × α)

/-- What key `i` holds, `d` being what an unlisted key reads as. -/
def tget {α : Type} (d : Nat → α) (t : Tab α) (i : Nat) : α :=
  match t with
  | [] => d i
  | (j, v) :: r => if i = j then v else tget d r i

/-- Insert at key `i` keeping the keys rising; an entry at `i` is replaced. -/
def tins {α : Type} (i : Nat) (v : α) : Tab α → Tab α
  | [] => [(i, v)]
  | (j, w) :: r =>
    if i < j then (i, v) :: (j, w) :: r
    else if i = j then (i, v) :: r
    else (j, w) :: tins i v r

/-- Remove every entry at key `i`. -/
def tdel {α : Type} (i : Nat) : Tab α → Tab α
  | [] => []
  | (j, w) :: r => if i = j then tdel i r else (j, w) :: tdel i r

/-- Write `v` at key `i`, keeping the canonical form: writing the default removes the entry. -/
def tput {α : Type} [DecidableEq α] (d : Nat → α) (t : Tab α) (i : Nat) (v : α) : Tab α :=
  if v = d i then tdel i t else tins i v t

/-- Keys strictly rising from a bound on. -/
def tsorted {α : Type} : Nat → Tab α → Bool
  | _, [] => true
  | lo, (j, _) :: r => decide (lo ≤ j) && tsorted (j + 1) r

/-- The canonical form: keys rising, no entry equal to its default. -/
def twf {α : Type} [DecidableEq α] (d : Nat → α) (t : Tab α) : Bool :=
  tsorted 0 t && t.all (fun e => decide (e.2 ≠ d e.1))

/-- Change the entry at key `i`. -/
def tmod {α : Type} [DecidableEq α] (d : Nat → α) (t : Tab α) (i : Nat) (f : α → α) : Tab α :=
  tput d t i (f (tget d t i))

end Sys2Proof.Machine
end

