-- ==== Sys2Proof/Machine/State.lean ====
section
/-! DEFINITION. The state of the TZ6418 as plain data, and its value right after reset. -/

namespace Sys2Proof.Machine

/-- Reasons the block stops with a fault. No command of this block stops with one: every row has an effect. -/
inductive Fault where
  /-- Raised by nothing: every command of the table has an effect the spec gives. Safe. -/
  | none_
deriving DecidableEq, Repr

/-- Reasons the model refuses a command. -/
inductive Refusal where
  /-- Raised by an arm of exec whose command has no meaning yet. Safe: nothing is claimed of it. -/
  | notModelled (mnemonic : String)
deriving DecidableEq, Repr

/-! ### Packets and host contexts (02_command_protocol) -/

/-- A host packet: header, opcode and payload (R58). -/
structure Pkt where
  h : Hdr
  op : Nat
  body : Rec
deriving DecidableEq, Repr

/-- A device packet: a reply, or a notification packet (R58, R72, R99). `cells` of credit travel in CREDIT_RET. -/
structure DevPkt where
  seq : BitVec 16
  op : Nat
  creditRet : Nat
  payload : Rec
  reply : Bool
deriving DecidableEq, Repr

/-- The stored last reply of a context (R63, R64): the SEQ and CRC of the last accepted packet, and its reply if any. -/
structure LastPkt where
  seq : BitVec 16
  crc : Nat
  reply : Option DevPkt
deriving DecidableEq, Repr

/-- A failure of a batch: the failing member's SEQ, its status code and DETAIL (R149, R150). -/
structure BatchFail where
  seq : BitVec 16
  status : Nat
  detail : Nat
deriving DecidableEq, Repr

/-- An open batch: frame of its first member, its members in order, its failure if it has failed (R146, R151, R152). -/
structure Batch where
  first : Fn
  members : List Pkt
  failed : Option BatchFail
deriving DecidableEq, Repr

/-- A closed batch that waits for its commit point: its effect frame, whether it is pending by R156 (TARGET_FN not 0). -/
structure ClosedBatch where
  ctx : Nat
  eff : Fn
  targeted : Bool
  members : List Pkt
deriving DecidableEq, Repr

/-- A context reset (R104): its requester, the SEQ of the request, whether its commit point has passed, cells returned so far,
and the CTX_CFG record that CTX_CONFIG applies when it is done (R106); further requests accepted before its commit point. -/
structure CtxReset where
  requester : Nat
  reqSeq : BitVec 16
  op : Nat
  started : Bool
  returned : Nat
  cfg : Option Rec
  more : List (Nat × BitVec 16)
deriving DecidableEq, Repr

/-- A host context (R89). -/
structure Ctx where
  /-- CTX_CFG in force (R90). -/
  cfg : Rec
  /-- SEQ the next packet to be accepted carries, and SEQ the next packet to arrive carries (R62, R63, R688). -/
  accSeq : BitVec 16
  arrSeq : BitVec 16
  /-- SEQ of the next device packet (R62). -/
  devSeq : BitVec 16
  /-- Packets that passed steps 1 to 4 and wait for acceptance (R197). -/
  waiting : List Pkt
  /-- Cells taken by, and freed from, the input queue since it was enabled (R61, R65). -/
  inPut : Nat
  inRel : Nat
  /-- Freed cells not yet returned in CREDIT_RET (R66). -/
  creditRet : Nat
  /-- Notification credit (R67). -/
  ntfCredit : Nat
  last : Option LastPkt
  /-- Device packets waiting for the transport, in generation order (R79, R83). -/
  out : List DevPkt
  /-- Cells of the reply queue: admitted, freed, reserved for open batches (R115). -/
  rpPut : Nat
  rpRel : Nat
  resv : Nat
  batch : Option Batch
  reset : Option CtxReset
  /-- A LINK_RESTART entry that waits for the Ethernet link (R87, R493). -/
  restart : Option Rec
  /-- Cells that came to the limbo list last, and when: the next QF cycle frees them (R136, R139). -/
  limbo : Nat
  limboTb : Tb
  /-- Share used in this frame: packets, octets; octets owed by an overlong packet; packets deferred (R197, R203). -/
  sharePkts : Nat
  shareOct : Nat
  shareDebt : Nat
  deferred : Nat
deriving DecidableEq, Repr

def Ctx.initial : Ctx :=
  { cfg := zeros 16, accSeq := 0, arrSeq := 0, devSeq := 0, waiting := [], inPut := 0, inRel := 0, creditRet := 0,
    ntfCredit := 0, last := none, out := [], rpPut := 0, rpRel := 0, resv := 0, batch := none, reset := none, restart := none, limbo := 0, limboTb := 0,
    sharePkts := 0, shareOct := 0, shareDebt := 0, deferred := 0 }

/-- A host SPI port (R80 to R86): the data width of its port record (`quad`: four lines, else one), a WRITE has stopped inside a packet with HSPIn_CS_N still low, the
octets last driven in a READ or STATUS, packets discarded for their binding (R84). -/
structure Hspi where
  quad : Bool
  inPacket : Bool
  out : Rec
  bindCount : BitVec 32
deriving DecidableEq, Repr

/-- Owner context and role generation of a unit (R93, R164). -/
structure Role where
  owner : Nat
  gen : BitVec 16
deriving DecidableEq, Repr

/-! ### Queue fabric (03_queue_fabric) -/

/-- A cell: its tag (R109) and its data octets. KIND 0 DATA, 1 GAP, 2 ABORTED. -/
structure Cell where
  kind : Nat
  first : Bool
  last : Bool
  fill : Nat
  admFn : BitVec 16
  data : Rec
deriving DecidableEq, Repr

/-- A queue (R111, R112, R116): Q_CFG, positions, the cells from REL to PUT in order, the open gap marker, the entry
being admitted (octets stored so far), the rest of an item being discarded (its entry was closed with an ABORTED cell, or the item was dropped), the
watermark mark, cells in flight charged to it, the two totals. -/
structure Queue where
  cfg : Rec
  put : BitVec 32
  read : BitVec 32
  mark : BitVec 32
  markSet : Bool
  rel : BitVec 32
  cells : List Cell
  gapOpen : Bool
  partialOct : Option Nat
  skip : Bool
  wm : Bool
  inFlight : Nat
  dropTotal : BitVec 48
  abortTotal : BitVec 32
deriving DecidableEq, Repr

/-- A queue at reset (R116): every Q_CFG is all 0. -/
def Queue.initial : Queue :=
  { cfg := zeros 16, put := 0, read := 0, mark := 0, markSet := false, rel := 0, cells := [],
    gapOpen := false, partialOct := none, skip := false, wm := false, inFlight := 0, dropTotal := 0, abortTotal := 0 }

/-- The queue fabric: the queues, cells in engines charged to no queue, the audit sample and its results (R136, R137). -/
structure Qf where
  queues : Tab Queue
  corrupt : Nat
  auditFn : Fn
  auditFree : Nat
  auditQueued : Nat
  auditFlight : Nat
  auditLimbo : Nat
  mismatches : BitVec 32
  walkNext : Nat
  walkFn : Fn
deriving DecidableEq, Repr

def Qf.initial : Qf :=
  { queues := [], corrupt := 0, auditFn := 0, auditFree := 65536, auditQueued := 0, auditFlight := 0, auditLimbo := 0,
    mismatches := 0, walkNext := 0, walkFn := 0 }

/-! ### The dies and the Tongs link (01_two_dies) -/

/-- One direction of Tongs (R28 to R38). Lanes are 0 and 1: failed flags, CRC failures of the frame, TRAIN flits in a row, frame of the
last retraining, being retrained, restored at the next boundary; next SEQ to send, SEQ expected, the last 128 sequenced flits sent (SEQ and TYPE,
oldest first), SEQs being replayed, the receiver is discarding until a replay, the SEQ its NAK, not yet sent, names. -/
structure Dir where
  failed0 : Bool
  failed1 : Bool
  fails0 : Nat
  fails1 : Nat
  train0 : Nat
  train1 : Nat
  retrain0 : Option Fn
  retrain1 : Option Fn
  training0 : Bool
  training1 : Bool
  restore0 : Bool
  restore1 : Bool
  tx : BitVec 8
  rx : BitVec 8
  buf : List (BitVec 8 × Nat)
  replay : List (BitVec 8 × Nat)
  gap : Bool
  nak : Option (BitVec 8)
deriving DecidableEq, Repr

def Dir.initial : Dir :=
  { failed0 := false, failed1 := false, fails0 := 0, fails1 := 0, train0 := 0, train1 := 0, retrain0 := none, retrain1 := none,
    training0 := false, training1 := false,
    restore0 := false, restore1 := false, tx := 0, rx := 0, buf := [], replay := [], gap := false, nak := none }

/-- Hearth's progress through a rejoin (R54): none needed, report awaited, dump of the full state or of changed units requested,
digest ready, REJOIN sent. -/
inductive RejoinStep where
  | idle | wantReport | dumpFull | dumpChanged | ready | sent
deriving DecidableEq, Repr

/-- A flit that a die is to send (R36): none, waiting for its position, or sent and not yet accepted. -/
inductive Due where
  | no | waiting | sent
deriving DecidableEq, Repr

/-- Link state of both dies. Hearth: epoch, rejoin step, last REPORT's epoch, FN, orphan flag, the digest of the adopted state, REJOIN's F,
frames without a REPORT, link loss; `dump` the dump Anvil is asked for (true: the full state); droop stretching of the seven islands (R24): stretched and count.
`h2a` and `a2h` are the two directions; `toAnvil`, `toHearth` the reproduced line states; `txRecessive` marks the transmit inputs Anvil holds recessive (R35);
`lostA`, `lostH` the dies that have detected link loss (R39); `report`, `reject`, `rejoin`, `dumpReq` and `block` the REPORT, EPOCH_REJECT, REJOIN, DUMP_REQ and BLOCK flits
to be sent, with the BLOCK flits of the block sent so far (R36, R45, R52, R55). -/
structure Link where
  h2a : Dir
  a2h : Dir
  toAnvil : BusLines
  toHearth : BusLines
  txRecessive : Bool
  lost : Bool
  lostA : Bool
  lostH : Bool
  report : Due
  reject : Due
  rejoin : Due
  dumpReq : Due
  block : Due
  blockSent : Nat
  anvilLocalClk : Bool
  epoch : BitVec 16
  step : RejoinStep
  dump : Option Bool
  repEpoch : BitVec 16
  repL : Fn
  repOrphan : Bool
  repSeen : Bool
  repMiss : Nat
  adopted : BitVec 64
  rejoinF : Fn
  stretched : List Bool
  stretchCount : List (BitVec 32)
deriving DecidableEq, Repr

def Link.initial : Link :=
  { h2a := .initial, a2h := .initial, toAnvil := .recessive, toHearth := .recessive, txRecessive := false, lost := false, lostA := false, lostH := false, report := .no, reject := .no, rejoin := .no,
    dumpReq := .no, block := .no, blockSent := 0,
    anvilLocalClk := false, epoch := 0, step := .wantReport, dump := none, repEpoch := 0, repL := 0xFFFFFFFF, repOrphan := false, repSeen := false,
    repMiss := 0, adopted := 0, rejoinF := 0, stretched := List.replicate 7 false, stretchCount := List.replicate 7 0 }

/-! ### Schedule and time base (05_schedule_contract, 06_time_base) -/

/-- The schedule in force: the image's octets (none: the built-in schedule of R201), the new image that the rejoin of a
start puts in force (R199), the committed active mode (R194), the mode
Anvil runs (R196) and the frame in which it took it up, that Anvil is still to take up the boot mode of a new image (R199), a committed switch and its frame (R203), the stored mode (R200), the counters of R203, the last frame whose commit
point has passed, a running SCHED_CHECK (requester, SEQ, bank bit). -/
structure Sched where
  img : Option (Tab Octet)
  pend : Option (Option (Tab Octet))
  anvilMode : Nat
  anvilModeFn : Option Fn
  imgNew : Bool
  storedMode : Nat
  switchTo : Option (Nat × Fn)
  budgetTraps : BitVec 32
  misses : BitVec 32
  dropped : BitVec 32
  check : Option (Nat × BitVec 16 × Nat)
deriving DecidableEq, Repr

def Sched.initial : Sched :=
  { img := none, pend := none, anvilMode := 0, anvilModeFn := none, imgNew := false, storedMode := 0, switchTo := none, budgetTraps := 0, misses := 0, dropped := 0,
    check := none }

/-- A UTC anchor (R210): UTC in nanoseconds, TB, signed rate in parts per 10^9. -/
structure Anchor where
  utc : Nat
  tb : Tb
  rate : Int
deriving DecidableEq, Repr

/-- The committed configuration of a compare channel (R213) and the arming the version under construction holds:
none keep, some none disarm, some (value, period) arm. -/
structure CmpCfg where
  action : Nat
  queue : Nat
  timer : Nat
  arm : Option (Option (Tb × Nat))
deriving DecidableEq, Repr

def CmpCfg.initial : CmpCfg := { action := 0, queue := 0, timer := 0, arm := none }

/-- A compare channel as it runs (R214, R215, R228): armed, armed value, period, found past when its version began, totals. -/
structure CmpRun where
  armed : Bool
  value : Tb
  period : Nat
  late : Bool
  fires : BitVec 32
  missedTotal : BitVec 32
deriving DecidableEq, Repr

def CmpRun.initial : CmpRun := { armed := false, value := 0, period := 0, late := false, fires := 0, missedTotal := 0 }

/-- A timer (R219 to R223): TMR_CFG in force, count, running (counting, or waiting for its clock), output, edge gap, capture, total, prescale phase, the context
that configured it, the instants at which edges of its input are to be counted, oldest first. -/
structure Timer where
  cfg : Rec
  count : Nat
  running : Bool
  out : Bool
  edgeGap : Bool
  capt : Nat
  captTb : Tb
  ovfTotal : BitVec 32
  phase : Nat
  by_ : Nat
  edges : List Tb
deriving DecidableEq, Repr

/-- The reset TMR_CFG of timer `n` (R219). -/
def tmrCfgReset (n : Nat) : Rec :=
  [BitVec.ofNat 8 n, 0, 0, 0, 0x1F, 0, 0, 0, 0xFF, 0xFF, 0xFF, 0, 0, 0, 0, 0]

def Timer.initial (n : Nat) : Timer :=
  { cfg := tmrCfgReset n, count := 0, running := false, out := false, edgeGap := false, capt := 0, captTb := 0, ovfTotal := 0, phase := 0, by_ := 0, edges := [] }

/-- The frame in progress: its FN, TB at its tick 0, and the last frame whose commit point has passed. -/
structure Clk where
  fn : Fn
  frameTb : Tb
  commitFn : Option Fn
deriving DecidableEq, Repr

def Clk.initial : Clk := { fn := 0, frameTb := 0, commitFn := none }

/-- The time base (R204 to R228): TB, TB at the last frame boundary of Anvil, restore state and error bound,
the park counter (time in park ticks: 32 bits and 16-bit wraps, R224) with the part of a park tick that has passed in units of 20 ns / 32,768 and the last reading an event
gave, the pair recorded at park entry (R225), compares and timers, the timers a master event reaches at the next tick (R220), and that compares act on nothing until a frame
starts at Hearth again (R218). -/
structure Time where
  tb : Tb
  anvilTb : Tb
  restored : Bool
  errBound : Nat
  park : Nat
  parkFrac : Nat
  parkSeen : Nat
  ptS : Nat
  tbS : Tb
  cmp : Tab CmpRun
  tmr : Tab Timer
  mev : List Nat
  cmpHold : Bool
deriving DecidableEq, Repr

def Time.initial : Time :=
  { tb := 0, anvilTb := 0, restored := false, errBound := 0, park := 0, parkFrac := 0, parkSeen := 0, ptS := 0, tbS := 0, cmp := [], tmr := [], mev := [],
    cmpHold := false }

/-! ### Output channels and protection (07_output_channels, 08_channel_protection) -/

/-- The class of a channel (R229): 0 H, 1 M, 2 L, 3 B. -/
def chClass (n : Nat) : Nat := if n < 8 then 0 else if n < 32 then 1 else if n < 48 then 2 else 3

/-- The reset CH_CFG of channel `n` (R232): MODE UNUSED, OL_FILTER 0Ah. -/
def chCfgReset (n : Nat) : Rec :=
  [BitVec.ofNat 8 n, 7, 0, 0, 0, 0, 0, 0, 0x0A, 0, 0, 0, 0, 0, 0, 0]

/-- The reset PROT_CFG of channel `n` (R270), ILIM and I_WIRE by class. -/
def protCfgReset (n : Nat) : Rec :=
  let c := chClass n
  let ilim := if c = 0 then 0x28 else if c = 1 then 0x0F else if c = 2 then 0x05 else 0x12
  let iw := if c = 0 then 0x09C4 else if c = 1 then 0x03E8 else if c = 2 then 0x012C else 0x04B0
  [BitVec.ofNat 8 n, BitVec.ofNat 8 ilim, 0, 0, 0x0A, 0x3C] ++ le 2 iw ++ [0x64, 0, 0x50, 0, 0, 0, 0, 0]

/-- Committed ON (or ENABLE) and DSET of a channel (R238); `held` while an adopted state stands that its owner has not commanded (R56, R265). -/
structure ChVal where
  on : Bool
  dset : Nat
  held : Bool
deriving DecidableEq, Repr

def ChVal.initial : ChVal := { on := false, dset := 0, held := false }

/-- What a channel does at its pins and what its protection and diagnostics hold (R239 to R305). `drive` is on in the control mode,
`level` the output's level while driven, `lampOff` the tick a LAMP pulse ends, `limp` it follows its limp-home entry, `adopted` a level
held after limp-home until the owner commands, `safe` a Quench reaction holds it, `orphan` the phase of R53 (0 not, 1 holding, 2 limp-home,
3 off), `fol` a PIN channel follows its direct input (R240), `wasOn` it has been on for 10 us without a break in the frame in progress (R255), `lampNow` LAMP_SAT and LAMP_UNCOMP
of the frame in progress, `lampFlags` and `daLast` those flags and the applied duty of the frame before (R247, R268), `retries` the retries that remain while a count is in progress
(R274, R279), `prot` the flags of R302, `theta` in units of 2^-23, times as TB values, `before` the drive before protection turned it off, `resuming` protection has released it and no edge
has come yet, `tref` and `tjEval` of the last 100 us evaluation (R286, R288), `limpEnd` the ON that
Hearth is to adopt after limp-home (R265), `edgeFn` the frame of the last start-slot edge taken or missed (R193). -/
structure Chan where
  drive : Bool
  level : Bool
  appOn : Bool
  appDset : Nat
  da : Nat
  lampOff : Option Tb
  lastEdge : Tb
  offSince : Tb
  onFrame : Fn
  dirShort : BitVec 32
  edgeAt : Option Tb
  limp : Bool
  adopted : Bool
  fol : Bool
  wasOn : Bool
  safe : Bool
  orphan : Nat
  holdEnd : Option Tb
  diag : Nat
  olCount : Nat
  offOpen : Nat
  offBat : Nat
  testing : Bool
  diagTb : Tb
  prot : Nat
  retries : Option Nat
  retryDue : Bool
  coolEnd : Option Tb
  inrushEnd : Option Tb
  contSince : Option Tb
  theta : Nat
  senseCount : Nat
  ocTotal : BitVec 32
  wireTotal : BitVec 32
  thermTotal : BitVec 32
  lastTb : Tb
  lastCause : Nat
  lampFlags : Nat
  lampNow : Nat
  daLast : Nat
  before : Bool
  resuming : Bool
  tref : Option Int
  tjEval : Int
  limpEnd : Option Bool
  edgeFn : Option Fn
deriving DecidableEq, Repr

def Chan.initial : Chan :=
  { drive := false, level := false, appOn := false, appDset := 0, da := 0, lampOff := none, lastEdge := 0, offSince := 0, onFrame := 0,
    dirShort := 0, edgeAt := none, limp := false, adopted := false, fol := false, wasOn := false, safe := false, orphan := 0, holdEnd := none, diag := 0, olCount := 0,
    offOpen := 0, offBat := 0, testing := false, diagTb := 0, prot := 0, retries := none, retryDue := false, coolEnd := none,
    inrushEnd := none, contSince := none, theta := 4194304, senseCount := 0, ocTotal := 0, wireTotal := 0, thermTotal := 0,
    lastTb := 0, lastCause := 0, lampFlags := 0, lampNow := 0, daLast := 0, before := false, resuming := false, tref := some 0, tjEval := 0, limpEnd := none, edgeFn := none }

/-- Limp-home inputs and clock (R262, R263): stable LH_N and LHIN levels, RESET_N declared stuck, flash clock running and its half. -/
structure Limp where
  lhN : Bool
  lhin : Nat
  stuck : Bool
  flashRun : Bool
  flashOn : Bool
  flashNext : Tb
  dir : Nat
  lastOn : Tab Tb
deriving DecidableEq, Repr

def Limp.initial : Limp :=
  { lhN := true, lhin := 0, stuck := false, flashRun := false, flashOn := false, flashNext := 0, dir := 0, lastOn := [] }

/-- Supply events (R294 to R300): VBATS and VBAT0-3 in mV, crank timer end, CRANK_OFF, the deferral of R296 since a rise above 30 V, VBATS above 30 V,
zone sums in 10 mA, frames above
110 %, conditions present, totals, the reverse latch of Bellows and REVERSE_SEEN. -/
structure Supply where
  vbats : Int
  vbat : List Int
  crankEnd : Option Tb
  crankOff : Bool
  ov : Bool
  ovAbove : Bool
  zoneI : List Nat
  zoneRun : List Nat
  zoneOver : List Bool
  crankTotal : BitVec 32
  ovTotal : BitVec 32
  revLatch : Bool
  revOn : Bool
  revSeen : Bool
deriving DecidableEq, Repr

def Supply.initial : Supply :=
  { vbats := 12000, vbat := List.replicate 4 12000, crankEnd := none, crankOff := false, ov := false, ovAbove := false, zoneI := List.replicate 4 0,
    zoneRun := List.replicate 4 0, zoneOver := List.replicate 4 false, crankTotal := 0, ovTotal := 0, revLatch := false, revOn := false, revSeen := false }

/-! ### Inductive drive (09_inductive_drive) -/

/-- Committed ENGAGE and ACT_COUNT (R312). -/
structure IndVal where
  engage : Bool
  count : BitVec 8
deriving DecidableEq, Repr

def IndVal.initial : IndVal := { engage := false, count := 0 }

/-- An INDUCTIVE channel on Anvil (R312 to R337). phase 0 IDLE, 1 RISE, 2 PULL, 3 HOLD, 4 RELEASE; outcome 0 none, 1 CLOSED, 2 NO_MOTION,
3 UNKNOWN, 4 CUT; temperatures in 0.125 degrees; `prof` the COIL_CFG of the actuation in progress; `report` an end that Hearth is to adopt (R315). -/
structure Coil where
  phase : Nat
  outcome : Nat
  flags : Nat
  appEngage : Bool
  appCount : BitVec 8
  startTb : Tb
  holdTb : Tb
  prof : Rec
  reached : Bool
  pullTb : Option Tb
  satWin : Bool
  anyD : Bool
  wins : Nat
  u1 : Option Int
  u2 : Option Int
  closeTb : Option Tb
  kinkSeen : Option Tb
  tClose : Nat
  kinkMv : Nat
  hist : List Nat
  closedN : Nat
  tc : Int
  ts : Int
  rm : Nat
  iSet : Nat
  actuations : BitVec 32
  noMotion : BitVec 32
  interrupted : Bool
  report : Bool
deriving DecidableEq, Repr

def Coil.initial : Coil :=
  { phase := 0, outcome := 0, flags := 0, appEngage := false, appCount := 0, startTb := 0, holdTb := 0, prof := zeros 32, reached := false, pullTb := none,
    satWin := false, anyD := false, wins := 0, u1 := none, u2 := none, closeTb := none, kinkSeen := none, tClose := 0, kinkMv := 0, hist := [],
    closedN := 0, tc := 0, ts := 0, rm := 0, iSet := 0, actuations := 0, noMotion := 0, interrupted := false,
    report := false }

/-! ### Motor bridges (10_motor_bridges) -/

/-- The reset BR_CFG of bridge `b` (R348). -/
def brCfgReset (b : Nat) : Rec :=
  [BitVec.ofNat 8 b, 0, 0, 0x1E, 0x64, 0, 0xC8, 0, 0, 4, 0, 8, 0, 0, 0x80, 0xFF, 0xFF, 0x7F, 0x64, 0, 5, 8, 0x32, 0x32,
   0xC8, 0, 0, 0, 0, 0, 0, 0, 0, 0, 3, 0x64, 0, 0, 0, 0, 0, 0, 0x90, 1, 0, 0, 0x10, 0]

/-- Committed DRIVE, DUTY and TARGET of a bridge (R345). -/
structure BrVal where
  drive : Nat
  duty : Nat
  target : Int
deriving DecidableEq, Repr

def BrVal.initial : BrVal := { drive := 0, duty := 0, target := 0 }

/-- A bridge on Anvil (R346 to R376). `st` the drive state 0 COAST, 1 BRAKE, 2 FORWARD, 3 REVERSE; `app` the applied values; `frac` the
fraction of D_A carried in 1/20; `want` the direction the motion in progress takes (0 none, 2 forward, 3 reverse) and its `goal`
(0 none, 1 soft limit, 2 target, 3 home, 4 pinch reversal) with the position it runs to; `ready` a start that waits for a start-slot
edge; `dwell` the end of a dwell; `flags` by R374; histories newest first;
`mdir` the direction of the motion in progress, `cut` a motion that something other than its values ended, `rampTb` the instant D_A is
calculated up to, `stopEv` the BR_EVENT due at standstill. -/
structure Bridge where
  st : Nat
  app : BrVal
  da : Nat
  frac : Nat
  want : Nat
  goal : Nat
  goalPos : Int
  ready : Bool
  dwell : Option Tb
  zeroSince : Tb
  motionStart : Tb
  lastMove : Tb
  pos : Int
  skips : Nat
  err : Nat
  flags : Nat
  encA : Bool
  encB : Bool
  parkEnc : Bool × Bool
  rippleCount : Nat
  rippleErr : Nat
  iHist : List Nat
  posHist : List Int
  cruise : Nat
  critA : Nat
  critB : Nat
  pinchPi : Int
  pDet : Int
  iK : Nat
  sK : Int
  stallSince : Option Tb
  openSince : Option Tb
  eventTb : Tb
  adopt : Option Nat
  mdir : Nat
  cut : Bool
  rampTb : Tb
  stopEv : Nat
  lost : Bool
deriving DecidableEq, Repr

def Bridge.initial : Bridge :=
  { st := 0, app := .initial, da := 0, frac := 0, want := 0, goal := 0, goalPos := 0, ready := false, dwell := none, zeroSince := 0,
    motionStart := 0, lastMove := 0, pos := 0, skips := 0, err := 0, flags := 0x80, encA := false, encB := false, parkEnc := (false, false),
    rippleCount := 0, rippleErr := 0, iHist := [], posHist := [], cruise := 0, critA := 0, critB := 0, pinchPi := 0, pDet := 0, iK := 0,
    sK := 0, stallSince := none, openSince := none, eventTb := 0, adopt := none, mdir := 0,
    cut := false, rampTb := 0, stopEv := 0, lost := false }
/-! ### LED sinks and lighting (11_lighting) -/

/-- The reset LS_CFG of sink `n` (R380): XOVER 3. -/
def lsCfgReset (n : Nat) : Rec := [BitVec.ofNat 8 n, 6, 0, 0, 0, 0, 0, 0]

/-- The reset LIGHT_CFG (R396). -/
def lightCfgReset : Rec := [0, 100, 4, 0, 20, 0, 0, 0, 0, 0, 0, 0, 0, 0, 0, 0]

/-- A sink at its pin (R382 to R388): the brightness in effect and the one that waits for a pulse period, the flags of R385 with their counts, what
turns it off besides its value, the end of its hold, the readings in 10 microamperes and mV, a turn-off Hearth is to adopt,
`app` the executed committed value it took last, the end of the pulse in progress and the start of the period in progress. -/
structure Sink where
  b : Nat
  next : Option Nat
  flags : Nat
  cHead : Nat
  cOpen : Nat
  cShort : Nat
  headRaised : Bool
  shortOff : Bool
  safe : Bool
  holdEnd : Option Tb
  orphan : Nat
  i : Nat
  v : Nat
  stale : Bool
  report : Bool
  app : Nat
  pulseEnd : Option Tb
  pulseTb : Option Tb
deriving DecidableEq, Repr

def Sink.initial : Sink :=
  { b := 0, next := none, flags := 0, cHead := 0, cOpen := 0, cShort := 0, headRaised := false, shortOff := false, safe := false, holdEnd := none,
    orphan := 0, i := 0, v := 0, stale := true, report := false, app := 0, pulseEnd := none, pulseTb := none }

/-- A lighting commit that waits for its frame (R391, R394): its entries, for each external message 0 waiting, 1 sent, 2 failed, 3 unsent (9 for
an entry that is none), the effect frame, the lighting frame once it is known, the counts of the COMPLETION. -/
structure LightCommit where
  seq : BitVec 16
  entries : List Rec
  ext : List Nat
  eff : Fn
  target : Option Fn
  frame : Option Fn
  applied : Nat
  stale : Nat
  dropped : Nat
deriving DecidableEq, Repr

/-- The lighting engine: stage sets and pending commits by context, SYNC_SEQ, the sync frame sent last with its frame (R389, R391, R393). -/
structure Light where
  stages : Tab (List Rec)
  commits : Tab (Option LightCommit)
  syncSeq : BitVec 8
  sync : Option (Fn × Rec)
deriving DecidableEq, Repr

def Light.initial : Light := { stages := [], commits := [], syncSeq := 0, sync := none }

/-! ### Cesyn cores and tasks (12_cesyn_cores) -/

/-- A queue port of the running task (R430, R431): CELL, TAG, LAST_OK, the queue it is bound to and its side; a consumer's view as it stood at activation, its
read and mark offsets from REL and the offset it has released to; a producer's pushed cells and FULL. -/
structure Port where
  cell : Tab W24
  tag : W24
  lastOk : Bool
  q : Option Nat
  producer : Bool
  view : List Cell
  read : Nat
  mark : Option Nat
  freed : Nat
  pushes : List Cell
  full : Bool
deriving DecidableEq, Repr

def Port.initial : Port :=
  { cell := [], tag := 0, lastOk := false, q := none, producer := false, view := [], read := 0, mark := none, freed := 0, pushes := [], full := false }

/-- A Cesyn core (R399 to R422): memories, the input window, the staging window with the words written in this activation, the registers of R402, the TBH latch,
the task that runs, STACK_TOP, the activation frame, ACT_INFO, cycles since ENTRY, `rep` the address of a REP whose next instruction is being repeated, `cut` a
block instruction stopped at an element boundary, `nest` whether the DO of each active loop pushed (innermost first) with the copy a SAFE trap keeps, the state of
a SAFE request (0 none, 1 pending, 2 taken), cycles of this frame and of the frame before, ECC counts, and the port views. -/
structure Core where
  prog : Tab W24
  data : Tab W24
  snap : Tab W24
  stag : Tab W24
  marks : List Nat
  a : Tab (BitVec 56)
  d : Tab W24
  p : Tab (BitVec 17)
  n : Tab W24
  m : Tab W24
  amc : W24
  sp : BitVec 17
  sb : BitVec 17
  st : W24
  lc : BitVec 16
  ls : BitVec 16
  le_ : BitVec 16
  rc : W24
  pc : BitVec 16
  tbh : W24
  run : Option Nat
  stackTop : BitVec 17
  actFn : Fn
  info : W24
  cycles : Nat
  rep : Option (BitVec 16)
  cut : Bool
  nest : List Bool
  nestKept : List Bool
  safe : Nat
  busy : Nat
  busyPrev : Nat
  eccCorr : BitVec 32
  eccUncorr : BitVec 32
  ports : Tab Port
deriving DecidableEq, Repr

def Core.initial : Core :=
  { prog := [], data := [], snap := [], stag := [], marks := [], a := [], d := [], p := [], n := [], m := [], amc := 0, sp := 0, sb := 0, st := 0, lc := 0, ls := 0,
    le_ := 0, rc := 0, pc := 0, tbh := 0, run := none, stackTop := 0, actFn := 0, info := 0, cycles := 0, rep := none, cut := false, nest := [], nestKept := [],
    safe := 0, busy := 0, busyPrev := 0, eccCorr := 0, eccUncorr := 0, ports := [] }

/-- A task (R420 to R433): the stored ENABLE, the generations of its output units recorded when it was enabled, the counters and the trap record of TASK_STATUS, a
SAFE request between activations, whether its next activation is the first since a load, the mode of its last activation. -/
structure Task where
  stored : Option Bool
  gens : Tab (BitVec 16)
  recorded : Bool
  last : Nat
  max : Nat
  acts : BitVec 32
  traps : BitVec 32
  safeTraps : BitVec 32
  refused : BitVec 32
  cause : Nat
  trapPc : BitVec 16
  trapRc : W24
  trapSt : W24
  trapTb : Tb
  safeReq : Bool
  fresh : Bool
  mode : Option Nat
deriving DecidableEq, Repr

def Task.initial : Task :=
  { stored := none, gens := [], recorded := false, last := 0, max := 0, acts := 0, traps := 0, safeTraps := 0, refused := 0, cause := 0, trapPc := 0, trapRc := 0,
    trapSt := 0, trapTb := 0, safeReq := false, fresh := true, mode := none }

/-- What an activation hands to the commit (R425, R429): the task, the words it wrote with their offsets, the pushes by queue. -/
structure Staged where
  task : Nat
  words : Tab W24
  pushes : List (Nat × List Cell)
deriving DecidableEq, Repr

/-- The cores, the tasks, and the outputs that wait for the commit point. -/
structure Cesyn where
  cores : Tab Core
  tasks : Tab Task
  staged : List Staged
deriving DecidableEq, Repr

def Cesyn.initial : Cesyn := { cores := [], tasks := [], staged := [] }

/-! ### CAN, LIN and Ethernet ports (13_can_ports, 14_lin_and_ethernet) -/

/-- The reset CAN_PORT_CFG (R437): 0 but for RETRY 8 everywhere. -/
def canCfgReset (p : Nat) : Rec := BitVec.ofNat 8 p :: zeros 31 ++ List.replicate 32 0x88

/-- A CAN port (R436 to R470). `st` the state code, `cmd` the commanded state (0 OFF, 2 ACTIVE, 3 LISTEN), `ctl` the actions that act at tick 0 of
the next frame, `tries` for each local transmit queue the attempts and last error of its head entry, `recover` the count of R457 runs, `txd` the transmit input
released by R458, `dom` an episode of R458 reported, `woken` a wake in park whose CAN_WAKE is still to be sent. -/
structure CanPort where
  cfg : Rec
  stored : Bool
  wake : Rec
  st : Nat
  cmd : Nat
  ctl : List Nat
  tec : Nat
  rec_ : Nat
  fdCnt : Nat
  tdc : Nat
  tries : Tab (Nat × Nat)
  recover : Bool
  txd : Bool
  dom : Bool
  rxFrames : BitVec 32
  txFrames : BitVec 32
  filtMiss : BitVec 32
  rxqOff : BitVec 32
  txFailed : BitVec 32
  busoffs : BitVec 32
  wakeType : Nat
  wakePt : Nat
  wakeId : Nat
  silent : Bool
  suspended : Bool
  woken : Bool
  after : Option Nat
deriving DecidableEq, Repr

def CanPort.initial (p : Nat) : CanPort :=
  { cfg := canCfgReset p, stored := false, wake := BitVec.ofNat 8 p :: zeros 23, st := 0, cmd := 0, ctl := [], tec := 0, rec_ := 0, fdCnt := 0,
    tdc := 0, tries := [], recover := false, txd := false, dom := false, rxFrames := 0, txFrames := 0, filtMiss := 0, rxqOff := 0, txFailed := 0,
    busoffs := 0, wakeType := 0, wakePt := 0, wakeId := 0, silent := false, suspended := false, woken := false, after := none }

/-- A LIN frame in progress (R476 to R481): identifier, frame of the break edge, frames reserved, data sent (none to be received), what its end
reports to: (context, stage entry) of an EXT_LIN value, the go-to-sleep command, an entry of the transmit queue, whose cell is in flight; the context whose reset has taken it
(R104 step 2). -/
structure LinFrame where
  id : Nat
  fn : Fn
  frames : Nat
  data : Option Rec
  ext : Option (Nat × Nat)
  goSleep : Bool
  queued : Bool
  limbo : Option Nat
deriving DecidableEq, Repr

/-- A LIN port (R472 to R485): `st` 0 OFF, 1 ACTIVE, 2 SLEEP, 3 SUSPENDED; `vals` the values of LIN_SET committed, each with the frame from which it
holds, `ext` pending EXT_LIN values (identifier, context, entry, data), `goSleep` a go-to-sleep command waits, `mute` the end of the 100 ms after a wake. -/
structure LinPort where
  cfg : Rec
  table : Rec
  st : Nat
  cmd : Nat
  ctl : List Nat
  vals : Tab Rec
  valsNext : Tab Rec
  ext : List (Nat × Nat × Nat × Rec)
  goSleep : Bool
  busy : Option LinFrame
  mute : Option Tb
  results : List (BitVec 32)
  txReject : BitVec 32
  dom : Bool
  wakeType : Nat
  wakePt : Nat
  suspended : Bool
  held : Bool
  woken : Bool
deriving DecidableEq, Repr

def LinPort.initial (p : Nat) : LinPort :=
  { cfg := BitVec.ofNat 8 p :: zeros 15, table := zeros 248, st := 0, cmd := 0, ctl := [], vals := [], valsNext := [], ext := [], goSleep := false,
    busy := none, mute := none, results := List.replicate 6 0, txReject := 0, dom := false, wakeType := 0, wakePt := 0, suspended := false, held := false, woken := false }

/-- The reset ETH_PORT_CFG (R487): AN 1, ETHERTYPE 88B5h. -/
def ethCfgReset (p : Nat) : Rec := [BitVec.ofNat 8 p, 8, 0xB5, 0x88] ++ zeros 36

/-- A frame sent on an Ethernet port (R79, R487, R489): destination and station address, the tag (PCP and VLAN identifier) where there is one, EtherType, the SecTAG (AN, SCI,
PN) where MACsec protects it, and the context and packet it carries. -/
structure EthOut where
  dst : Nat
  src : Nat
  tag : Option Nat
  etype : Nat
  sec : Option (Nat × Nat × Nat)
  ctx : Nat
  pkt : DevPkt
deriving DecidableEq, Repr

/-- An Ethernet port (R486 to R493): link, the counters, the transmit PN with its two warnings given, the highest PN accepted of
each receive SA; `sent` the frames sent last. -/
structure EthPort where
  cfg : Rec
  link : Bool
  rxFrames : BitVec 32
  rxOther : BitVec 32
  rxDrop : BitVec 32
  txFrames : BitVec 32
  txPnDrop : BitVec 32
  txPn : Nat
  lowSent : Bool
  rxPn0 : Nat
  rxPn1 : Nat
  bindCount : BitVec 32
  sent : List EthOut
deriving DecidableEq, Repr

def EthPort.initial (p : Nat) : EthPort :=
  { cfg := ethCfgReset p, link := false, rxFrames := 0, rxOther := 0, rxDrop := 0, txFrames := 0, txPnDrop := 0, txPn := 1, lowSent := false, rxPn0 := 0,
    rxPn1 := 0, bindCount := 0, sent := [] }

/-- A gateway binding of a CAN receive queue (R494, R498). -/
structure Gw where
  enable : Bool
  maxCells : Nat
  forwarded : BitVec 32
deriving DecidableEq, Repr

def Gw.initial : Gw := { enable := false, maxCells := 0, forwarded := 0 }

/-- The ports, the gateway and the CAN filter table: in force, the one that takes over at the next frame start, the staging buffer and its writer (R447). -/
structure Bus where
  can : Tab CanPort
  lin : Tab LinPort
  eth : Tab EthPort
  gw : Tab Gw
  filt : Tab Octet
  filtNext : Option (Tab Octet)
  filtStage : Tab Octet
  filtWriter : Nat
deriving DecidableEq, Repr

def Bus.initial : Bus :=
  { can := [], lin := [], eth := [], gw := [], filt := [], filtNext := none, filtStage := [], filtWriter := 0 }

/-! ### Keyless access and immobiliser (15_access_immobiliser) -/

/-- The reset ACC_CFG (R499): REPLY_DELAY 1,000, POLL_S 2, ABSENT_S 10, IMMO_PERIOD 100. -/
def accCfgReset : Rec := zeros 8 ++ [0xE8, 3] ++ zeros 10 ++ [2, 10, 0x64, 0] ++ zeros 16

/-- A valid token of an attempt (R513, R515): index, IMMO, zone, driver score, slot, the sweep it answered in, and the nonces its Ks follows from. -/
structure ValidToken where
  index : Nat
  immo : Bool
  zone : Nat
  score : Nat
  slot : Nat
  sweep : Nat
  ks : Rec
  nt : Rec
  nv : Rec
deriving DecidableEq, Repr

/-- An LF attempt (R512 to R517). `kind` 0 an attempt, 1 a presence poll, 2 a calibration run. `first` the first frame it may start in, `planFn` the start frame of
the plan in progress, `step` the last step begun (255 none) with its end, `target` of its CHALLENGE, `nv` its nonce, `tEnd` the end of the last burst, `void`
aerials faulted in it, `garbled` slots, `tried` indices of re-sweeps, `sweep` re-sweeps run, `locked` a lock met, `decided` the decision made while its CONFIRM is still to come, `abort` the
cause that ends it at the end of the step in progress, `start` it serves a start request, `keyBad` a token's slot was unusable in it. -/
structure Attempt where
  kind : Nat
  mask : Nat
  reqId : BitVec 32
  reqCtx : Nat
  reqSeq : BitVec 16
  start : Bool
  first : Fn
  plan : Nat
  planFn : Option Fn
  step : Nat
  stepEnd : Tb
  target : Nat
  nv : Rec
  tEnd : Tb
  void : Nat
  valid : List ValidToken
  garbled : List Nat
  tried : List Nat
  sweep : Nat
  locked : Bool
  decided : Option Nat
  abort : Nat
  keyBad : Bool
deriving DecidableEq, Repr

def Attempt.initial : Attempt :=
  { kind := 0, mask := 0, reqId := 0, reqCtx := 0, reqSeq := 0, start := false, first := 0, plan := 0, planFn := none, step := 255, stepEnd := 0, target := 255, nv := zeros 8,
    tEnd := 0, void := 0, valid := [], garbled := [], tried := [], sweep := 0, locked := false, decided := none, abort := 0, keyBad := false }

/-- A phone exchange (R520 to R522). -/
structure Exch where
  cred : Nat
  action : Nat
  mask : Nat
  reqSeq : BitVec 16
  h : Rec
  nD : Rec
  kPh : Rec
  chalTb : Tb
deriving DecidableEq, Repr

/-- Failures and locks of an identity or a path (R523 to R525): TBs of the latest failures newest first, the end and the length of a lock in force in s, the
repeats, the TB of the last failure. -/
structure LockRec where
  fails : List Tb
  lockEnd : Option Tb
  dur : Nat
  repeats : Nat
  lastFail : Option Tb
deriving DecidableEq, Repr

def LockRec.initial : LockRec := { fails := [], lockEnd := none, dur := 0, repeats := 0, lastFail := none }

/-- A calibration in progress (R510, R511): the requester and its SEQ (context 0 for a repeat), REF_ERR for REFERENCE, the measurements in units of 10 ns. -/
structure CalRun where
  ctx : Nat
  seq : BitVec 16
  reference : Option Int
  meas : List Int
  runs : Nat
deriving DecidableEq, Repr

/-- The immobiliser (R526 to R530). `st` 0 no authorisation, 1 IMMO_REQ sent, 2 paired; the start request; the authorised and profile index in the frames; the path
refreshes; `phone` the N_D and zone mask of the authorising exchange; the session. -/
structure Immo where
  st : Nat
  start : Bool
  lf : Option Tb
  phone : Option (Tb × Rec)
  index : Nat
  profile : Nat
  lfIndex : Nat
  tries : Nat
  reqNext : Tb
  nd : Rec
  ki : Rec
  cnt : Nat
  next : Tb
  pollNext : Tb
deriving DecidableEq, Repr

def Immo.initial : Immo :=
  { st := 0, start := false, lf := none, phone := none, index := 255, profile := 255, lfIndex := 255, tries := 0, reqNext := 0, nd := [], ki := [], cnt := 0,
    next := 0, pollNext := 0 }

/-- Newt (R499 to R533): ACC_CFG, the latched AERIAL_FAULT, CAL_OFFSET in units of 10 ns, a calibration run and the next repeat, the attempt that runs, one that
waits, the exchanges, the locks by kind (0, 1 the paths, 2 token TID, 3 credential slot) * 2^32 + identity, the immobiliser, the counters, the UHF pins, the aerials
driven and the telegram in progress, the decision of a restart to be reported. -/
structure Acc where
  cfg : Rec
  fault : Nat
  cal : Option Nat
  calRun : Option CalRun
  calNext : Tb
  att : Option Attempt
  wait : Option Attempt
  exch : Tab (Option Exch)
  locks : Tab LockRec
  immo : Immo
  trigIgnored : BitVec 32
  decisions : BitVec 32
  failures : BitVec 32
  uhfEn : Bool
  uhfCal : Bool
  uhfSel : Bool
  lfOn : Nat
  lfTele : Rec
  lfHeld : Nat
  late : Option Rec
  immoLate : Bool
  trigWait : Bool
deriving DecidableEq, Repr

def Acc.initial : Acc :=
  { cfg := accCfgReset, fault := 0, cal := none, calRun := none, calNext := 0, att := none, wait := none, exch := [], locks := [], immo := .initial, trigIgnored := 0, decisions := 0,
    failures := 0, uhfEn := false, uhfCal := false, uhfSel := false, lfOn := 0, lfTele := [], lfHeld := 0, late := none, immoLate := false, trigWait := false }

/-! ### Key store (16_key_store) -/

/-- A key slot (R535 to R545): its KEY_SLOT record, lost at a Hearth start, failed in its integrity check (reported), uses since the last write. -/
structure KeySlot where
  rec_ : Rec
  lost : Bool
  bad : Bool
  badTold : Bool
  uses : BitVec 32
deriving DecidableEq, Repr

/-- A slot never written (R535): every field 0, so EMPTY. -/
def KeySlot.initial (n : Nat) : KeySlot := { rec_ := BitVec.ofNat 8 n :: zeros 47, lost := false, bad := false, badTold := false, uses := 0 }


/-! ### Fault collection (17_fault_collection) -/

/-- A fault instance (R561, R569): COUNT, WIN_START, SEVERE with its TB, the class, group and ERRPIN in force when it became
severe, whether its reaction has reached Anvil, and the tick of its last event with the events of that tick (R574). -/
structure FltInst where
  count : Nat
  winStart : Tb
  severe : Bool
  severeTb : Tb
  cls : Nat
  group : Nat
  errpin : Bool
  acted : Bool
  atTb : Tb
  atN : Nat
  events : BitVec 32
deriving DecidableEq, Repr

def FltInst.initial : FltInst :=
  { count := 0, winStart := 0, severe := false, severeTb := 0, cls := 0, group := 0, errpin := false, acted := false, atTb := 0, atN := 0, events := 0 }

/-- Quench and the recorder (R561 to R572): instances by source * 65536 + instance, the history ring oldest first, records displaced, sticky
bits, capture mode in force and next (0 HISTORY, 1 STICKY), the records in the intake and the tick they were counted, the records dropped in the open intake gap with the TB of the first,
requests held back during link loss (R568) and those on their way to Anvil, and the FLT_ALERT entries of the frame, by context with FN and TB, that join the notification queues at
the next frame start (R567). -/
structure Flt where
  inst : Tab FltInst
  ring : List Rec
  overwritten : Nat
  sticky : Nat
  capture : Nat
  captureNext : Nat
  intake : Nat
  intakeTb : Tb
  gap : Nat
  gapTb : Tb
  heldReq : List (Nat × Nat)
  reqFlight : List (Nat × Nat)
  alerts : List (Nat × Fn × Tb × Rec)
deriving DecidableEq, Repr

def Flt.initial : Flt :=
  { inst := [], ring := [], overwritten := 0, sticky := 0, capture := 0, captureNext := 0, intake := 0, intakeTb := 0, gap := 0, gapTb := 0, heldReq := [], reqFlight := [], alerts := [] }

/-- The fault sources (R560, R606, R632, R648): first and last number, scope, on Anvil, CLASS, N, W, GROUP, ERRPIN, fixed by R564.
Scopes: 0 device, 1 lane, 2 channel, 3 zone, 4 sink, 5 task, 6 slot, 7 bridge, 8 CAN, 9 LIN, 10 Ethernet, 11 aerial, 12 path, 13 SCHED_MISS,
14 sensor supply, 15 area sensor, 16 Hearth sensor, 17 sensor, 18 converter, 19 island. -/
def fltTable : List (Nat × Nat × Nat × Bool × Nat × Nat × Nat × Nat × Bool × Bool) :=
  [(0x000, 0x000, 1, true, 1, 1, 1, 0, false, false), (0x001, 0x001, 0, true, 1, 1, 1, 0, true, false),
   (0x002, 0x002, 0, true, 1, 10, 1000, 0, false, false), (0x003, 0x003, 0, false, 1, 1, 1, 0, true, false),
   (0x004, 0x004, 0, true, 1, 1, 1, 0, true, false), (0x005, 0x005, 0, false, 0, 1, 1, 0, false, false),
   (0x020, 0x020, 0, false, 3, 1, 1, 2, true, true), (0x040, 0x040, 13, true, 3, 1, 1, 1, true, true),
   (0x060, 0x063, 2, true, 1, 1, 1, 0, false, false), (0x064, 0x064, 2, true, 1, 4, 1000, 0, false, false),
   (0x065, 0x065, 2, true, 1, 1, 1, 0, true, false), (0x066, 0x066, 2, true, 1, 1, 1, 0, false, false),
   (0x067, 0x067, 2, true, 1, 1, 1, 0, true, false), (0x068, 0x068, 2, true, 2, 5, 60000, 0, true, false),
   (0x069, 0x069, 2, true, 2, 10, 60000, 0, false, false), (0x06A, 0x06A, 2, true, 2, 3, 65000, 0, true, false),
   (0x06B, 0x06B, 2, false, 1, 1, 1, 0, false, false), (0x06C, 0x06C, 0, true, 0, 1, 1, 0, false, false),
   (0x06D, 0x06D, 0, true, 1, 1, 1, 0, false, false), (0x06E, 0x06E, 0, true, 1, 1, 1, 0, true, false),
   (0x06F, 0x06F, 3, true, 1, 1, 1, 0, false, false)]
  ++ [(0x080, 0x080, 2, true, 1, 1, 1, 0, false, false), (0x081, 0x081, 2, true, 0, 1, 1, 0, false, false),
   (0x082, 0x084, 2, true, 1, 1, 1, 0, true, false), (0x085, 0x085, 2, true, 0, 1, 1, 0, false, false),
   (0x086, 0x086, 2, true, 1, 1, 1, 0, false, false), (0x0A0, 0x0A0, 7, true, 1, 1, 1, 0, false, false),
   (0x0A1, 0x0A1, 7, true, 1, 5, 60000, 0, false, false), (0x0A2, 0x0A2, 7, true, 1, 1, 1, 0, true, false),
   (0x0A3, 0x0A3, 7, true, 1, 1, 1, 0, false, false), (0x0C0, 0x0C0, 4, true, 0, 1, 1, 0, false, false),
   (0x0C1, 0x0C1, 4, true, 1, 1, 1, 0, false, false), (0x0C2, 0x0C2, 4, true, 2, 1, 1, 0, true, false),
   (0x0E0, 0x0E0, 5, false, 3, 1, 1, 3, true, true), (0x0E1, 0x0E4, 5, false, 2, 1, 1, 0, true, false),
   (0x0E5, 0x0E6, 5, false, 1, 1, 1, 0, false, false), (0x100, 0x100, 8, false, 0, 1, 1, 0, false, false),
   (0x101, 0x101, 8, false, 1, 1, 1, 0, false, false), (0x102, 0x102, 8, true, 2, 1, 1, 0, true, false),
   (0x103, 0x104, 8, true, 1, 1, 1, 0, false, false), (0x120, 0x122, 9, false, 1, 10, 1000, 0, false, false),
   (0x123, 0x123, 9, true, 2, 1, 1, 0, true, false)]
  ++ [(0x130, 0x130, 10, false, 1, 1, 1, 0, false, false), (0x131, 0x131, 10, false, 1, 16, 1000, 0, false, false),
   (0x132, 0x132, 10, false, 1, 1, 1, 0, true, false), (0x133, 0x133, 10, false, 1, 1, 1, 0, false, false),
   (0x134, 0x134, 10, false, 1, 1, 1, 0, true, false), (0x140, 0x141, 11, true, 1, 1, 1, 0, false, false),
   (0x142, 0x142, 12, false, 0, 1, 1, 0, false, false), (0x143, 0x144, 12, false, 1, 1, 1, 0, false, false),
   (0x145, 0x146, 0, false, 1, 1, 1, 0, false, false), (0x160, 0x160, 6, false, 1, 1, 1, 0, true, false),
   (0x180, 0x180, 0, true, 1, 1, 1, 0, false, false), (0x181, 0x182, 0, true, 1, 1, 1, 0, true, false),
   (0x183, 0x183, 14, true, 1, 1, 1, 0, true, false), (0x184, 0x184, 0, false, 0, 1, 1, 0, false, false),
   (0x185, 0x185, 0, true, 1, 1, 1, 0, true, false), (0x186, 0x186, 0, true, 1, 1, 1, 0, false, false),
   (0x1A0, 0x1A0, 0, false, 1, 1, 1, 0, false, false), (0x1A1, 0x1A2, 0, false, 1, 1, 1, 0, true, false),
   (0x1C0, 0x1C0, 15, true, 1, 1, 1, 0, true, false), (0x1C1, 0x1C1, 16, false, 1, 1, 1, 0, true, false),
   (0x1C2, 0x1C2, 17, true, 1, 1, 1, 0, false, false), (0x1C3, 0x1C3, 2, true, 2, 1, 1, 0, true, false),
   (0x1C4, 0x1C4, 18, true, 1, 10, 1000, 0, true, false), (0x1C5, 0x1C5, 19, false, 1, 1, 1, 0, false, false)]

/-- The reset FLT_CFG of a source (R560, R575). -/
def fltCfgReset (src : Nat) : Rec :=
  match fltTable.find? (fun e => decide (e.1 ≤ src) && decide (src ≤ e.2.1)) with
  | none => zeros 8
  | some (_, _, _, _, cls, n, w, grp, err, _) => le 2 src ++ [BitVec.ofNat 8 (cls + 4 * grp + 16 * b2n err), BitVec.ofNat 8 n] ++ le 2 w ++ [0, 0]
/-! ### Inputs and health monitors (20_inputs_monitors) -/

/-- The reset IN_CFG of input `n` (R634). -/
def inCfgReset (n : Nat) : Rec := [BitVec.ofNat 8 n, 0, 0x19, 0x2D, 0, 0x23, 0, 0]

/-- The watch on a temperature sensor (R645): its reading in 0.125 degrees, faulted, frames in a row with only faulted conversions, since when no criterion has held. -/
structure TSensor where
  v : Int
  bad : Bool
  conv : Nat
  okSince : Tb
deriving DecidableEq, Repr

def TSensor.initial : TSensor := { v := 200, bad := false, conv := 0, okSince := 0 }

/-- The inputs and monitors of Anvil (R634 to R646): debounced states with the TB of their confirming samples, levels of RESET_N and
WAKE0-3; the rails VPRE to VSNS1 and AIN0-15 as converted, the mask of faulted conversions in the order of MON_READ group 0; the area sensors; the junction sensors
faulted by their watch; the TB at which a channel conducted last; the conversions of the frame that ended last by ADC entry, with that frame and the mode it ran in (R162). -/
structure Mon where
  deb : Nat
  debTb : Tab Tb
  debFrom : Tab Fn
  resetN : Bool
  wake : Nat
  rails : List Nat
  ain : List Nat
  vBad : Nat
  area : Tab TSensor
  tj : Tab TSensor
  lastCond : Tab Tb
  adc : List (Nat × List Nat)
  adcAt : Option (Fn × Nat)
deriving DecidableEq, Repr

def Mon.initial : Mon :=
  { deb := 0, debTb := [], debFrom := [], resetN := true, wake := 0, rails := [5000, 3300, 1800, 1000, 800, 0, 0], ain := List.replicate 16 0, vBad := 0, area := [], tj := [],
    lastCond := [], adc := [], adcAt := none }

/-- The sensors of Hearth (R645, R647): eight temperature sensors, and the process readings of the seven islands in 0.1 MHz with those outside their range. -/
structure HMon where
  temp : Tab TSensor
  proc : List Nat
  procBad : Nat
  skew : Bool
deriving DecidableEq, Repr

def HMon.initial : HMon := { temp := [], proc := List.replicate 7 0, procBad := 0, skew := false }


/-! ### The whole -/

/-- The committed state (R144): every control value and configuration record of the version built last. `chCfgNow` lists the channels
whose CH_CONFIG was applied at the commit point in progress (R269), `allow` the octets of records of Anvil's table store that take
effect with the version under construction (R684); `tmrNew` the timers that this version configures (R223); `inGen` how many IN_CONFIGs each input has had, by which Anvil sees that one takes effect (R637); `lsStaged` the sinks whose value in
this version waits for the sync slot (R391), `ripple` the RIPPLE_COUNT and RIPPLE_ERR tasks staged for a bridge (R363), `rippleNew`
the bridges with new ones in this version; `actHold` ACT_HOLD of the version's block (R623); `clrProt` the CH_CLEAR_PROT of a channel that the
block carries to Anvil: the frame of its effect, counted from 1, and the flags it clears; `relFn` the frame from which the FLT_CLEAR committed last lets units go, counted from 1 (R21). -/
structure Com where
  mode : Nat
  anchor : Option Anchor
  ctxCfg : Tab Rec
  chCfg : Tab Rec
  ch : Tab ChVal
  chCfgNow : List Nat
  degrade : List (Nat × Nat)
  allow : Nat
  prot : Tab Rec
  coilCfg : Tab Rec
  ind : Tab IndVal
  brCfg : Tab Rec
  br : Tab BrVal
  lhCfg : Rec
  tmrCfg : Tab Rec
  fltCfg : Tab Rec
  tmrBy : Tab Nat
  tmrNew : List Nat
  inGen : Tab Nat
  ls : Tab Nat
  lsCfg : Tab Rec
  lsStaged : List Nat
  lightCfg : Rec
  ripple : Tab (Nat × Nat)
  rippleNew : List Nat
  cmp : Tab CmpCfg
  actHold : Bool
  clrProt : Tab (Nat × Nat)
  relFn : Nat
  inCfg : Tab Rec
  inGlob : Rec
deriving DecidableEq, Repr

/-! ### Power, wake and reset (18_power_states) -/

/-- The reset PWR_CFG (R580): WAKE_LH 1, AUTO_PAD 1, XTAL32_PPM 100. -/
def pwrCfgReset : Rec := [0, 0, 0, 0xC0, 0x64, 0] ++ zeros 18

/-- The save image of AP2 (R588): committed state, epoch and last FN, contexts with their notifications not forwarded, the time base with timers and
compares. The fault states and the lock-out records have stores of their own (R571, R525). -/
structure Save where
  com : Com
  epoch : BitVec 16
  fn : Fn
  ctxs : Tab Ctx
  ntf : Tab Queue
  time : Time
deriving DecidableEq, Repr

/-- Power state (R580 to R605). `state` 0 RUN, 1 IDLE, 2 PARK-S, 3 PARK-D, 4 OFF; `entry` 0 none, 1 entering, 2 AP1 passed, 3 AP2 passed, with its target,
effect frame, its requester, QUEUED of its notice and the contexts the notice has been forwarded to, the ports AP1 put to sleep (CAN p, LIN 8 + n);
`next` a PWR_SET that takes effect at the start of its frame; `abandon` the source that ends the entry at the next commit point; `up` Hearth runs;
`waking` a wake from park is in progress, with the record that caused it; `padsHeld` pads other than the transports' are held; `resetLow` the TB since which RESET_N is
low; `restart` a HEARTH_RESTART opcode (its context and SEQ) waits for its commit point or, once that has passed, its COMPLETION for the start; `snsOff` the sensor supplies off for a fault; `parkPt` the park time of the last AP3, `timerNext` of
the next park timer expiry, `modelAt` the second of park time at which the models in park last took a step (R284); `vpor` Anvil's power-on reset is asserted. -/
structure Power where
  cfg : Rec
  state : Nat
  entry : Nat
  target : Nat
  entryFn : Fn
  by_ : Nat
  bySeq : BitVec 16
  queued : Nat
  noticed : List Nat
  slept : List Nat
  next : Option (Nat × Fn × Nat × BitVec 16)
  abandon : Option (Nat × Nat)
  up : Bool
  lastRestart : Nat
  restarts : BitVec 32
  restart : Option (Nat × BitVec 16)
  waking : Bool
  wakeRec : Rec
  wakes : List Rec
  padsHeld : Bool
  save : Option Save
  resetLow : Option Tb
  xtal25 : Bool
  xtal32 : Bool
  snsOff : List Bool
  parkPt : Nat
  timerNext : Nat
  modelAt : Nat
  vpor : Bool
deriving DecidableEq, Repr

def Power.initial : Power :=
  { cfg := pwrCfgReset, state := 0, entry := 0, target := 0, entryFn := 0, by_ := 0, bySeq := 0, queued := 0, noticed := [], slept := [], next := none,
    abandon := none, up := true, lastRestart := 0, restarts := 0, restart := none, waking := false, wakeRec := zeros 16, wakes := [],
    padsHeld := false, save := none, resetLow := none, xtal25 := true, xtal32 := true, snsOff := [false, false], parkPt := 0, timerNext := 0, modelAt := 0, vpor := false }

/-! ### Firmware, schedule and settings update (19_update) -/

/-- The records of a settings area (R627): what a fall-back brings back. -/
structure Settings where
  schema : Rec
  roles : Tab Role
  com : Com
  qcfg : Tab Rec
  bus : Bus
  pwr : Rec
  acc : Rec
  cal : Option Nat
  tasks : Tab (Option Bool)
deriving DecidableEq, Repr

/-- The update service (R608 to R633). `service` 0 NORMAL, 1 FACTORY, 2 RECOVERY, 3 TEST; `st` 0 IDLE, 1 RECEIVING, 2 STAGED, 3 ARMED, 4 CONFIRM_PENDING; the session
owner, BUNDLE_ID and MANIFEST_LEN of UPD_BEGIN; `prog` the octets of each block written, by component * 65536 + block; the bank pointer (`ptr` it has been written)
and the contents and marks of banks A and B (0 EMPTY, 1 PARTIAL, 2 STAGED, 3 REJECTED, 4 RETIRED, 5 PREVIOUS); failed boots, SV; the activation tick v, LATE, the
first frame of its deferral; a boot verification in progress with the frame tick of its start, or an UPD_VERIFY that runs (context, SEQ); `newBank` a bank that
flipped and has not started yet; the result that waits for the rejoin; the PREVIOUS settings area; MIGRATE_FAILS; a rollback committed; TESTMODE at the last
power-on reset, and that TEST ends at the next start; `rejoined` the rejoin of this start has been accepted, or its 2 s have been counted; `recover` RECOVERY entered by the
fall-back rules; the release of the last start; the octets MEM_WRITE wrote into the settings store, by octet address, and that it wrote some since the last boot. -/
structure Upd where
  service : Nat
  st : Nat
  owner : Nat
  bundle : Nat
  mlen : Nat
  prog : Tab Nat
  active : Nat
  ptr : Bool
  bankA : Tab Octet
  bankB : Tab Octet
  markA : Nat
  markB : Nat
  failed : Nat
  sv : Nat
  v : Tb
  late : Bool
  defer : Option Fn
  verifying : Bool
  check : Option (Nat × BitVec 16)
  newBank : Bool
  result : Option Rec
  prev : Option Settings
  migrate : Nat
  rollback : Bool
  testMode : Bool
  testEnd : Bool
  rejoined : Bool
  recover : Bool
  released : Tb
  store : Tab (Option Octet)
  storeNew : Bool
deriving DecidableEq, Repr

/-- The service at reset (R616): the bank pointer has never been written. -/
def Upd.initial : Upd :=
  { service := 1, st := 0, owner := 0, bundle := 0, mlen := 0, prog := [], active := 0, ptr := false, bankA := [], bankB := [], markA := 0, markB := 0, failed := 0,
    sv := 0, v := 0, late := false, defer := none, verifying := false, check := none, newBank := false, result := none, prev := none, migrate := 0,
    rollback := false, testMode := false, testEnd := false, rejoined := false, recover := false, released := 0, store := [], storeNew := false }

/-- Anvil as it is (R20): the epoch, the last executed FN, held and orphan state, frames in a row without a valid block (to 3), and without a block or
a REJOIN (R601), the block being received and the one validated, the
REJOIN it accepted, the values it executes, and every unit at its pins;
`areaFault` the mask of faulted area sensors (R286), `mon` inputs and monitors, ACT_HOLD as kept with the instant it lapses (R623), `clrDone` and `relDone` the requests of
`clrProt` and `relFn` it has executed. -/
structure Anvil where
  epoch : BitVec 16
  lastFn : Fn
  held : Bool
  missed : Nat
  quiet : Nat
  orphan : Bool
  orphanTb : Tb
  rejoinF : Option Fn
  segs : List Nat
  valid : Option (Fn × Com)
  vals : Com
  ch : Tab Chan
  limp : Limp
  sup : Supply
  coil : Tab Coil
  br : Tab Bridge
  sink : Tab Sink
  areaFault : Nat
  mon : Mon
  actHold : Bool
  actHoldEnd : Option Tb
  clrDone : Tab Nat
  relDone : Nat
deriving DecidableEq, Repr

/-- A snapshot S(k) (R159). -/
structure Snap where
  fn : Fn
  frameTb : Tb
  roles : Tab Role
  com : Com
  anvil : Anvil
  chM : Tab ChMeas
  time : Time
  bus : Bus
  ces : Cesyn
  acc : Acc
  hmon : HMon
  pwr : Power
  flt : Flt
  sched : Sched
  light : Light
  upd : Upd
  qf : Qf
  ctxs : Tab Ctx
  closed : List ClosedBatch
  keys : Tab KeySlot
  epoch : BitVec 16
deriving DecidableEq, Repr

/-- The state of the block. `com` is Hearth's committed state, `blk` the frame block on its way (epoch, FN, TB, values), `anvil` what the
pins do, `rep` Anvil as Hearth has it from its flits, `bound` Anvil at its last frame boundary (R54), `chM` the readings at Anvil and `repM` at Hearth, `snaps` S(k) to S(k-3) newest first,
`closed` the closed batches in order of acceptance, `free` the uses of the free value source (the model's own counter). -/
structure State where
  pending : List Instr
  roles : Tab Role
  com : Com
  blk : Option (BitVec 16 × Fn × Tb × Com)
  anvil : Anvil
  rep : Anvil
  bound : Anvil
  chM : Tab ChMeas
  repM : Tab ChMeas
  clk : Clk
  time : Time
  sched : Sched
  ctxs : Tab Ctx
  hspi0 : Hspi
  hspi1 : Hspi
  qf : Qf
  link : Link
  closed : List ClosedBatch
  snaps : List Snap
  flt : Flt
  light : Light
  bus : Bus
  pwr : Power
  ces : Cesyn
  acc : Acc
  keys : Tab KeySlot
  upd : Upd
  hmon : HMon
  free : Nat
deriving DecidableEq, Repr

def Role.initial : Role := { owner := 0, gen := 1 }

/-- Committed state at reset: every control value off or 0, every record at its reset value. -/
def Com.initial : Com :=
  { mode := 0, anchor := none, ctxCfg := [], chCfg := [], ch := [], chCfgNow := [], degrade := [], allow := 0, prot := [], coilCfg := [], ind := [],
    brCfg := [], br := [], lhCfg := zeros 64, tmrCfg := [], fltCfg := [], tmrBy := [], tmrNew := [], inGen := [], ls := [], lsCfg := [],
    lsStaged := [], lightCfg := lightCfgReset, ripple := [], rippleNew := [], cmp := [],
    actHold := false, clrProt := [], relFn := 0, inCfg := [], inGlob := zeros 8 }

/-- Anvil at its power-on reset (R51): epoch 0000h, last executed FN FFFFFFFFh, every output off. -/
def Anvil.initial : Anvil :=
  { epoch := 0, lastFn := 0xFFFFFFFF, held := false, missed := 0, quiet := 0, orphan := false, orphanTb := 0, rejoinF := none, segs := [], valid := none,
    vals := .initial, ch := [], limp := .initial, sup := .initial, coil := [], br := [], sink := [], areaFault := 0, mon := .initial, actHold := false, actHoldEnd := none, clrDone := [], relDone := 0 }

def Hspi.initial : Hspi := { quad := false, inPacket := false, out := [], bindCount := 0 }

/-- CTX_CFG of context 1 in FACTORY and RECOVERY while no enabled context holds PRIV (R617): HSPI1, PRIV, limits of 64 cells. -/
def serviceCtx : Rec := [1, 0x24, 0, 0, 0, 0, 0, 0, 0, 0, 0, 0, 64, 0, 64, 0]

/-- The machine right after power-on reset: a part whose bank pointer has never been written, so in service state FACTORY (R616, R617). -/
def State.reset : State :=
  { pending := [], roles := [], com := .initial, blk := none, anvil := .initial, rep := .initial, bound := .initial, chM := [], repM := [], clk := .initial, time := .initial,
    sched := .initial, ctxs := [(1, { Ctx.initial with cfg := serviceCtx })], hspi0 := .initial, hspi1 := .initial, qf := .initial, link := .initial, closed := [], snaps := [], flt := .initial,
    light := .initial, bus := .initial, pwr := .initial, ces := .initial, acc := .initial, keys := [],
    upd := .initial, hmon := .initial, free := 0 }

end Sys2Proof.Machine
end

