-- ==== Sys2Proof/Machine/Ops.lean ====
section
/-! DEFINITION. Named operations over the state: units and their roles, contexts, time, the queue fabric, notifications. -/

namespace Sys2Proof.Machine

/-! ### Status codes (R73) -/

inductive Status where
  | ok | pending | late | format | crc | sequence | credit | denied | range | roleStale | schedule | staleTime | locked
  | busy | key | verify | state | unsupported
deriving DecidableEq, Repr

/-- The 16-bit code of a status (R73). -/
def statusCode : Status → Nat
  | .ok => 0 | .pending => 1 | .late => 2 | .format => 0x8001 | .crc => 0x8002 | .sequence => 0x8003 | .credit => 0x8004
  | .denied => 0x8005 | .range => 0x8006 | .roleStale => 0x8007 | .schedule => 0x8008 | .staleTime => 0x8009
  | .locked => 0x800A | .busy => 0x800B | .key => 0x800C | .verify => 0x800D | .state => 0x800E | .unsupported => 0x800F

/-! ### Units (R93, R98, R164) -/

/-- The key of a unit: TYPE and INDEX of its UNIT_REF. -/
def ukey (t i : Nat) : Nat := t * 65536 + i

def roleDef : Nat → Role := fun _ => Role.initial

def State.role (s : State) (k : Nat) : Role := tget roleDef s.roles k
def State.owner (s : State) (t i : Nat) : Nat := (s.role (ukey t i)).owner
def State.gen (s : State) (t i : Nat) : BitVec 16 := (s.role (ukey t i)).gen

/-- The next role generation: it passes from FFFFh to 0001h (R164). -/
def nextGen (g : BitVec 16) : BitVec 16 := if g = 0xFFFF then 1 else g + 1

/-- A reassignment (R165): the generation increases by 1. -/
def reassign (t i : Nat) (s : State) : State :=
  let k := ukey t i
  let r := s.role k
  { s with roles := tput roleDef s.roles k { r with gen := nextGen r.gen } }

/-- A change of owner, with its reassignment (R96). -/
def giveUnit (t i o : Nat) (s : State) : State :=
  let k := ukey t i
  let r := s.role k
  { s with roles := tput roleDef s.roles k { owner := o, gen := nextGen r.gen } }

/-- Number of units of a TYPE (R17, R98, R2). -/
def unitCount : Nat → Nat
  | 1 => 64 | 2 => 36 | 3 => 8192 | 4 => 22 | 5 => 64 | 6 => if Config.variantK then 256 else 64 | 7 => 256 | _ => 0

/-! ### Lifts: changes of one part of the state, which leave every other part as it is -/

def onCom (f : Com → Com) (s : State) : State := { s with com := f s.com }
def onAnvil (f : Anvil → Anvil) (s : State) : State := { s with anvil := f s.anvil }
def onClk (f : Clk → Clk) (s : State) : State := { s with clk := f s.clk }
def onTime (f : Time → Time) (s : State) : State := { s with time := f s.time }
def onSched (f : Sched → Sched) (s : State) : State := { s with sched := f s.sched }
def onQf (f : Qf → Qf) (s : State) : State := { s with qf := f s.qf }
def onLink (f : Link → Link) (s : State) : State := { s with link := f s.link }

def ctxDef : Nat → Ctx := fun _ => Ctx.initial
def State.cx (s : State) (c : Nat) : Ctx := tget ctxDef s.ctxs c
def onCtx (c : Nat) (f : Ctx → Ctx) (s : State) : State := { s with ctxs := tmod ctxDef s.ctxs c f }

def chanDef : Nat → Chan := fun _ => Chan.initial
def State.chan (s : State) (n : Nat) : Chan := tget chanDef s.anvil.ch n
def onChan (n : Nat) (f : Chan → Chan) (s : State) : State := onAnvil (fun a => { a with ch := tmod chanDef a.ch n f }) s

def coilDef : Nat → Coil := fun _ => Coil.initial
def State.coil (s : State) (n : Nat) : Coil := tget coilDef s.anvil.coil n
def onCoil (n : Nat) (f : Coil → Coil) (s : State) : State := onAnvil (fun a => { a with coil := tmod coilDef a.coil n f }) s

def bridgeDef : Nat → Bridge := fun _ => Bridge.initial
def State.bridge (s : State) (n : Nat) : Bridge := tget bridgeDef s.anvil.br n
def onBridge (n : Nat) (f : Bridge → Bridge) (s : State) : State := onAnvil (fun a => { a with br := tmod bridgeDef a.br n f }) s

def chMeasDef : Nat → ChMeas := fun _ => ChMeas.initial
/-- Readings of a channel at Anvil, and as Hearth holds them. -/
def State.chMeas (s : State) (n : Nat) : ChMeas := tget chMeasDef s.chM n
def State.chMeasH (s : State) (n : Nat) : ChMeas := tget chMeasDef s.repM n

def queueDef : Nat → Queue := fun _ => Queue.initial
def State.queue (s : State) (q : Nat) : Queue := tget queueDef s.qf.queues q
def onQueue (q : Nat) (f : Queue → Queue) (s : State) : State := onQf (fun x => { x with queues := tmod queueDef x.queues q f }) s

def sinkDef : Nat → Sink := fun _ => Sink.initial
def State.sink (s : State) (n : Nat) : Sink := tget sinkDef s.anvil.sink n
def onSink (n : Nat) (f : Sink → Sink) (s : State) : State := onAnvil (fun a => { a with sink := tmod sinkDef a.sink n f }) s
def onLight (f : Light → Light) (s : State) : State := { s with light := f s.light }
def onBus (f : Bus → Bus) (s : State) : State := { s with bus := f s.bus }
def State.can (s : State) (p : Nat) : CanPort := tget CanPort.initial s.bus.can p
def onCan (p : Nat) (f : CanPort → CanPort) (s : State) : State := onBus (fun x => { x with can := tmod CanPort.initial x.can p f }) s
def State.lin (s : State) (p : Nat) : LinPort := tget LinPort.initial s.bus.lin p
def onLin (p : Nat) (f : LinPort → LinPort) (s : State) : State := onBus (fun x => { x with lin := tmod LinPort.initial x.lin p f }) s
def State.eth (s : State) (p : Nat) : EthPort := tget EthPort.initial s.bus.eth p
def onEth (p : Nat) (f : EthPort → EthPort) (s : State) : State := onBus (fun x => { x with eth := tmod EthPort.initial x.eth p f }) s

/-- A direct command of context `c` for a unit of its pending lighting commit, accepted after that commit, wins: the entry is dropped and
counted (R395). `kind` is 1 for a sink, 2 for a lamp channel. -/
def lightDirect (kind n c : Nat) (seq : BitVec 16) (s : State) : State :=
  match tget (fun _ => none) s.light.commits c with
  | none => s
  | some k =>
    let hit (e : Rec) : Bool := rd e 0 1 = kind && rd e 2 2 = n
    if k.frame.isNone && decide ((seq - k.seq).toNat < 32768) && k.entries.any hit then
      let k' := { k with entries := k.entries.map (fun e => if hit e then zeros 16 else e), dropped := k.dropped + 1 }
      onLight (fun x => { x with commits := tput (fun _ => none) x.commits c (some k') }) s
    else s

/-! ### Committed records -/

def Com.chCfgOf (c : Com) (n : Nat) : Rec := tget chCfgReset c.chCfg n
def chValDef : Nat → ChVal := fun _ => ChVal.initial
def Com.chOf (c : Com) (n : Nat) : ChVal := tget chValDef c.ch n
def Com.protOf (c : Com) (n : Nat) : Rec := tget protCfgReset c.prot n
def coilCfgDef : Nat → Rec := fun _ => zeros 32
def Com.coilCfgOf (c : Com) (n : Nat) : Rec := tget coilCfgDef c.coilCfg n
def indDef : Nat → IndVal := fun _ => IndVal.initial
def Com.indOf (c : Com) (n : Nat) : IndVal := tget indDef c.ind n
def Com.brCfgOf (c : Com) (b : Nat) : Rec := tget brCfgReset c.brCfg b
def brDef : Nat → BrVal := fun _ => BrVal.initial
def Com.brOf (c : Com) (b : Nat) : BrVal := tget brDef c.br b
def lsDef : Nat → Nat := fun _ => 0
def Com.lsOf (c : Com) (n : Nat) : Nat := tget lsDef c.ls n
def Com.lsCfgOf (c : Com) (n : Nat) : Rec := tget lsCfgReset c.lsCfg n
def Com.tmrCfgOf (c : Com) (n : Nat) : Rec := tget tmrCfgReset c.tmrCfg n
def cmpDef : Nat → CmpCfg := fun _ => CmpCfg.initial
def Com.cmpOf (c : Com) (n : Nat) : CmpCfg := tget cmpDef c.cmp n

/-! ### Contexts (R89, R90) -/

def ctxTransport (c : Ctx) : Nat := bits (rd c.cfg 1 1) 0 4
def ctxPriv (c : Ctx) : Nat := bits (rd c.cfg 1 1) 4 2
def ctxSupervisor (c : Ctx) : Bool := bit (rd c.cfg 2 1) 0
def ctxAccess (c : Ctx) : Bool := bit (rd c.cfg 2 1) 1
def ctxMode (c : Ctx) : Bool := bit (rd c.cfg 2 1) 2
def ctxInLimit (c : Ctx) : Nat := rd c.cfg 12 2
def ctxNtfLimit (c : Ctx) : Nat := rd c.cfg 14 2
def ctxEnabled (c : Ctx) : Bool := decide (ctxTransport c ≠ 0)
def ctxUsed (c : Ctx) : Nat := c.inPut - c.inRel
def ctxFree (c : Ctx) : Nat := ctxInLimit c - ctxUsed c
def ctxReplyUsed (c : Ctx) : Nat := c.rpPut - c.rpRel
/-- A context reset is in progress (R685): its commit point has passed. -/
def ctxResetting (c : Ctx) : Bool := match c.reset with | some r => r.started | none => false

/-! ### Time (R168, R204, R206) -/

/-- The tick of the frame in progress. -/
def State.tick (s : State) : Nat := (s.time.tb - s.clk.frameTb).toNat
def State.fn (s : State) : Fn := s.clk.fn
def State.tbNow (s : State) : Tb := s.time.tb

/-- `v` is past at `t` (R214): (t - v) mod 2^48 is below 2^47. -/
def isPast (t v : Tb) : Bool := decide ((t - v).toNat < 2 ^ 47)

/-- The tick of Anvil's frame in progress. -/
def State.tickA (s : State) : Nat := (s.time.tb - s.time.anvilTb).toNat

/-- The TB value of a tick of the frame in progress (R206). -/
def State.tickTb (s : State) (n : Nat) : Tb := s.clk.frameTb + BitVec.ofNat 48 n


/-- Hearth runs: powered, not in reset and booted (R600). -/
def State.hearthUp (s : State) : Bool := s.pwr.up
def onPwr (f : Power → Power) (s : State) : State := { s with pwr := f s.pwr }

/-- Parked: PARK-S or PARK-D (R581). -/
def State.parked (s : State) : Bool := s.pwr.state = 2 || s.pwr.state = 3

/-- Park time (R224): the park counter with its wraps, 48 bits. -/
def State.parkTime (s : State) : Nat := s.time.park % 2 ^ 48

/-- A wake record takes its place among the records, newest first: those of one park tick stand in ascending SOURCE order (R596). -/
def putWake (r : Rec) : List Rec → List Rec
  | [] => [r]
  | h :: t => if rd h 4 6 = rd r 4 6 && decide (rd r 0 1 < rd h 0 1) then h :: putWake r t else r :: h :: t

/-- A wake source is detected (R593, R596): recorded; where it is enabled it wakes a parked device, or ends a park entry at the next commit point
(R589). Of the sources of one park tick the first enabled one, in SOURCE order, is the cause. `typ` is the TYPE of a port wake, `id` the identifier word of a wake frame. -/
def deviceWake (code ix typ id : Nat) (en : Bool) (s : State) : State :=
  let p := s.pwr
  let parked := s.parked
  let first := rd p.wakeRec 4 6 = s.parkTime && bit (rd p.wakeRec 3 1) 3 && decide (code < rd p.wakeRec 0 1)
  let woke := en && ((parked && (!p.waking || first)) || (p.entry ≠ 0 && (p.abandon.isNone || first)))
  let before := if woke && first then p.wakes.map (fun w => if w = p.wakeRec then putAt w 3 [BitVec.ofNat 8 (rd w 3 1 - 8)] else w) else p.wakes
  let r : Rec := [BitVec.ofNat 8 code, BitVec.ofNat 8 ix, BitVec.ofNat 8 typ, BitVec.ofNat 8 ((if p.entry ≠ 0 then 4 else p.state) + 8 * b2n woke)]
    ++ le 6 s.parkTime ++ le 4 id ++ [0, 0]
  onPwr (fun p =>
    { p with wakes := (putWake r before).take 16, wakeRec := if woke then r else p.wakeRec, waking := p.waking || (woke && parked),
             abandon := if woke && p.entry ≠ 0 && !parked then some (code, ix) else p.abandon }) s

/-- A quotient whose rounding the spec does not state: one of the two neighbouring whole numbers, a free choice. -/
def quo (a b : Nat) : Nat := a / b + b2n (decide (a % b ≠ 0) && Config.roundUp a b)

/-- The mode of the frame in progress: that of the version its snapshot holds. -/
def State.modeNow (s : State) : Nat := match s.snaps with | n :: _ => n.com.mode | [] => s.com.mode

/-- Milliseconds as ticks. -/
def msTicks (n : Nat) : Tb := BitVec.ofNat 48 (n * 50000)

/-- The free value of the next use, and the state with the use counted. -/
def State.freeNat (s : State) : Nat := Config.freeValue s.free
def useFree (s : State) : State := { s with free := s.free + 1 }

/-! ### Queue fabric (03_queue_fabric) -/

/-- A Q_CFG in PACKET mode; all 0 where its LIMIT is 0, as a queue that nothing enables has it (R116). -/
def packetCfg (q prod cons lim maxc : Nat) : Rec :=
  if lim = 0 then zeros 16 else le 2 q ++ [2, 0] ++ le 2 prod ++ le 2 cons ++ le 2 lim ++ [0, 0, 0, BitVec.ofNat 8 maxc, 0, 0]

/-- Q_CFG in force: the fixed queues of R113 take theirs from CTX_CFG (R114) while their context is enabled. -/
def State.qcfg (s : State) (q : Nat) : Rec :=
  if q < 16 then packetCfg q (4096 + q) 0 (ctxInLimit (s.cx q)) 86
  else if q < 32 then packetCfg q 0 (4096 + q - 16) (if ctxEnabled (s.cx (q - 16)) then 256 else 0) 86
  else if q < 48 then packetCfg q 0 (4096 + q - 32) (ctxNtfLimit (s.cx (q - 32))) 255
  else (s.queue q).cfg

def qMode (c : Rec) : Nat := bits (rd c 2 1) 0 2
def qProducer (c : Rec) : Nat := rd c 4 2
def qConsumer (c : Rec) : Nat := rd c 6 2
def qLimit (c : Rec) : Nat := rd c 8 2
def qWatermark (c : Rec) : Nat := rd c 10 2
def qCut (c : Rec) : Nat := rd c 12 1
def qMaxCells (c : Rec) : Nat := rd c 13 1
/-- Endpoint KIND and INDEX (R116). -/
def epKind (e : Nat) : Nat := bits e 12 4
def epIndex (e : Nat) : Nat := bits e 0 12
/-- The host context that is an endpoint of a queue, if one is (R117). -/
def qHost (c : Rec) : Option Nat :=
  if epKind (qProducer c) = 1 then some (epIndex (qProducer c))
  else if epKind (qConsumer c) = 1 then some (epIndex (qConsumer c)) else none

/-- Occupancy (R112), and the cells charged against the limit, those in flight included (R133). -/
def qOcc (q : Queue) : Nat := q.cells.length
def qCharged (q : Queue) : Nat := q.cells.length + q.inFlight

/-- Admission of an entry cell (R121). -/
def canAdmit (lim charged : Nat) (last : Bool) : Bool :=
  if last then decide (charged + 2 ≤ lim) else decide (charged + 3 ≤ lim)

/-- The data octets of a GAP cell (R124). -/
def gapData (count : Nat) (ovf : Bool) (tb1 tb2 : Tb) (fn1 : Fn) : Rec :=
  le 2 count ++ [if ovf then 1 else 0, 0] ++ le 6 tb1.toNat ++ le 6 tb2.toNat ++ le 4 fn1.toNat

/-- An item is dropped (R122, R123): the open marker counts it, or a new GAP entry opens. -/
def qDrop (q : Queue) (tb : Tb) (fn : Fn) : Queue :=
  let q := { q with dropTotal := q.dropTotal + 1 }
  if q.gapOpen then
    let bump (c : Cell) : Cell :=
      let n := rd c.data 0 2
      { c with data := putAt (if n = 65535 then putAt c.data 2 [1] else putAt c.data 0 (le 2 (n + 1))) 10 (le 6 tb.toNat) }
    { q with cells := q.cells.dropLast ++ (q.cells.getLast?.map bump).toList }
  else
    { q with cells := q.cells ++ [{ kind := 1, first := true, last := true, fill := 20, admFn := fn.truncate 16, data := gapData 1 false tb tb fn }],
             put := q.put + 1, gapOpen := true }

/-- An ABORTED cell closes the entry in progress (R129). -/
def qAbort (q : Queue) (reason lost stored : Nat) (alone : Bool) (fn : Fn) : Queue :=
  { q with
    cells := q.cells ++ [{ kind := 2, first := alone, last := true, fill := 8, admFn := fn.truncate 16,
                           data := [BitVec.ofNat 8 reason, 0] ++ le 2 (satN 65535 lost) ++ le 4 stored }]
    put := q.put + 1, gapOpen := false, partialOct := none, abortTotal := q.abortTotal + 1 }

/-- The producer closes the entry it is admitting with an ABORTED cell (R129); the rest of the item is discarded. -/
def qClose (reason : Nat) (fn : Fn) (q : Queue) : Queue :=
  match q.partialOct with
  | none => q
  | some n => { qAbort q reason 65535 n false fn with skip := true }

/-- Admission of the cells of one entry in order; a further cell that fails R121 closes it with REASON 2 (R129). -/
def qCells (lim : Nat) (fn : Fn) : List Rec → Bool → Nat → Queue → Queue
  | [], _, _, q => q
  | d :: rest, first, stored, q =>
    let last := rest.isEmpty
    if canAdmit lim (qCharged q) last then
      let q := { q with
        cells := q.cells ++ [{ kind := 0, first := first, last := last, fill := d.length, admFn := fn.truncate 16, data := d }]
        put := q.put + 1, gapOpen := false }
      qCells lim fn rest false (stored + d.length) q
    else qAbort q 2 (rest.length + 1) stored false fn

/-- Cut octets into cells of at most 48. -/
def chunk48 : Nat → Rec → List Rec
  | 0, _ => []
  | n + 1, b => b.take 48 :: chunk48 n (b.drop 48)

/-- One item arrives at a queue (R121, R122): admitted, or dropped and counted. The answer says whether it was dropped. -/
def qPush (lim maxc : Nat) (tb : Tb) (fn : Fn) (chunks : List Rec) (q : Queue) : Queue × Bool :=
  if chunks.length > maxc || !canAdmit lim (qCharged q) (decide (chunks.length ≤ 1)) then (qDrop q tb fn, true)
  else (qCells lim fn chunks true 0 q, false)

/-- Cells visible to the consumer from REL on (R127). -/
def qVisible (q : Queue) (cut : Nat) : Nat :=
  match q.partialOct with
  | none => q.cells.length
  | some _ =>
    let part := ((q.cells.reverse).takeWhile (fun c => !c.last)).length
    if cut ≠ 0 ∧ cut ≤ part then q.cells.length else q.cells.length - part

/-- The watermark mark follows the occupancy down (R135). -/
def qRearm (wmark : Nat) (q : Queue) : Queue := if qOcc q < wmark then { q with wm := false } else q

/-- Release of `n` cells from REL on (R132). -/
def qRelease (n wmark : Nat) (q : Queue) : Queue :=
  let q := { q with cells := q.cells.drop n, rel := q.rel + BitVec.ofNat 32 n, gapOpen := q.gapOpen && decide (n < q.cells.length) }
  qRearm wmark q

/-- The greatest entry boundary within `n` cells from REL (R132). -/
def qBoundary (q : Queue) (n : Nat) : Nat :=
  let c := (q.cells.take n).reverse
  (c.dropWhile (fun x => !x.last)).length

/-- Whether position REL + n is an entry boundary (R111). -/
def qIsBoundary (q : Queue) (n : Nat) : Bool := n = 0 || ((q.cells[n - 1]?).map (·.last)).getD false

/-- Drain of a queue at a context reset (R139), an entry in admission closed with REASON 5. -/
def qDrain (fn : Fn) (q : Queue) : Queue :=
  let q' := { q with cells := [], rel := q.put, read := q.put, markSet := false, gapOpen := false, wm := false }
  match q.partialOct with
  | none => q'
  | some n => { qAbort q' 5 65535 n true fn with skip := true }

/-- The frame of a TB value (R206). -/
def State.fnOf (s : State) (t : Tb) : Fn :=
  if isPast t s.clk.frameTb then s.fn + BitVec.ofNat 32 ((t - s.clk.frameTb).toNat / 50000)
  else s.fn - BitVec.ofNat 32 (((s.clk.frameTb - t).toNat + 49999) / 50000)

/-- A notification entry (R99) enters the notification queue of a context, stamped (fn, tb). -/
def notifyAt (c kind : Nat) (fn : Fn) (tb : Tb) (data : Rec) (s : State) : State :=
  if c = 0 ∨ ctxEnabled (s.cx c) = false then s
  else
    let data := data ++ zeros ((4 - data.length % 4) % 4)
    let e := le 2 kind ++ le 2 (16 + data.length) ++ le 4 fn.toNat ++ le 6 tb.toNat ++ zeros 2 ++ data
    onQueue (32 + c) (fun q => (qPush (ctxNtfLimit (s.cx c)) 255 s.tbNow (s.fnOf s.tbNow) (chunk48 (cellsOf e.length) e) q).1) s

/-- A notification entry stamped with the present instant. -/
def notify (c kind : Nat) (data : Rec) (s : State) : State := notifyAt c kind (s.fnOf s.tbNow) s.tbNow data s

/-- QUEUE_WATERMARK and QUEUE_GAP for the host endpoint after an admission (R135). -/
def qNotices (q : Nat) (gapBefore : Bool) (s : State) : State :=
  let c := s.qcfg q
  let x := s.queue q
  match qHost c with
  | none => s
  | some h =>
    let s := if x.gapOpen && !gapBefore then notify h 0x1002 (le 2 q ++ zeros 2) s else s
    if qWatermark c ≠ 0 ∧ qWatermark c ≤ qOcc x ∧ x.wm = false then
      notify h 0x1001 (le 2 q ++ le 2 (qOcc x)) (onQueue q (fun x => { x with wm := true }) s)
    else s

/-- The producer of a queue closes the entry it is admitting (R129); the ABORTED cell counts for the watermark. -/
def closeQueue (q reason : Nat) (s : State) : State := qNotices q (s.queue q).gapOpen (onQueue q (qClose reason s.fn) s)

/-- Every queue whose producer satisfies a test has its incomplete entry closed. -/
def closeProducer (p : Nat → Bool) (reason : Nat) (s : State) : State :=
  ((s.qf.queues.filter (fun e => decide (48 ≤ e.1) && e.2.partialOct.isSome && p (qProducer e.2.cfg))).map (·.1)).foldl (fun s q => closeQueue q reason s) s

/-- An endpoint is a port of task `t` (R430). -/
def taskPort (t e : Nat) : Bool := epKind e = 2 && epIndex e % 64 = t

/-- An item arrives at a queue from any producer: the state after, the position of its first cell (of the gap marker where dropped), and
whether it was dropped. A disabled queue takes nothing. -/
def admitCells (q : Nat) (data : Rec) (s : State) : State × Nat × Bool :=
  let c := s.qcfg q
  if qMode c = 0 then (s, 0, true)
  else
    let x := s.queue q
    let maxc := if qMode c = 1 then 1 else qMaxCells c
    let (x', d) := qPush (qLimit c) maxc s.tbNow (s.fnOf s.tbNow) (chunk48 (max 1 (cellsOf data.length)) data) x
    let pos := if d then (x'.put - 1).toNat else x.put.toNat
    (qNotices q x.gapOpen (onQueue q (fun _ => x') s), pos, d)

def admitEntry (q : Nat) (data : Rec) (s : State) : State := (admitCells q data s).1

/-- Cells of the four places (R136): queues, engines in flight, limbo; the free pool is the rest. -/
def State.cellsQueued (s : State) : Nat :=
  (s.qf.queues.map (fun e => e.2.cells.length)).sum + (s.ctxs.map (fun e => ctxUsed e.2 + ctxReplyUsed e.2)).sum
def State.cellsFlight (s : State) : Nat := (s.qf.queues.map (fun e => e.2.inFlight)).sum
/-- Cells on a context's limbo list: those that came at this instant (R139). -/
def ctxLimbo (s : State) (x : Ctx) : Nat := if x.limboTb = s.tbNow then x.limbo else 0
def State.cellsLimbo (s : State) : Nat := (s.ctxs.map (fun e => ctxLimbo s e.2)).sum
def State.cellsFree (s : State) : Nat := 65536 - (s.cellsQueued + s.cellsFlight + s.cellsLimbo)

end Sys2Proof.Machine
end

