-- ==== Sys2Proof/Machine/Operands.lean ====
section
/-! DEFINITION. Operand forms: the named fields of the configuration records. -/

namespace Sys2Proof.Machine

/-! ### CH_CFG (R232) -/
def cfMode (c : Rec) : Nat := bits (rd c 1 1) 0 3
def cfSafe (c : Rec) : Nat := bits (rd c 1 1) 3 2
def cfHold (c : Rec) : Nat := rd c 2 1
def cfDirSel (c : Rec) : Nat := bits (rd c 3 1) 0 4
def cfDirInv (c : Rec) : Bool := bit (rd c 3 1) 4
def cfVref (c : Rec) : Nat := rd c 4 2
def cfOlOn (c : Rec) : Nat := rd c 6 2
def cfOlFilter (c : Rec) : Nat := rd c 8 1
def cfOffDiag (c : Rec) : Nat := bits (rd c 9 1) 0 3
def cfNotifyDiag (c : Rec) : Bool := bit (rd c 10 1) 0

/-! ### PROT_CFG (R270) -/
def pfIlim (c : Rec) : Nat := rd c 1 1
def pfInrush (c : Rec) : Nat := rd c 2 1
def pfRetries (c : Rec) : Nat := bits (rd c 3 1) 0 4
def pfNotify (c : Rec) : Bool := bit (rd c 3 1) 4
def pfCool (c : Rec) : Nat := rd c 4 1
def pfDtj (c : Rec) : Nat := rd c 5 1
def pfIwire (c : Rec) : Nat := rd c 6 2
def pfTau (c : Rec) : Nat := rd c 8 2
def pfWarn (c : Rec) : Nat := rd c 10 1
/-- Top of the fast current-limit range, its bottom, and the rated current of a class, in A (R229). -/
def classTop (k : Nat) : Nat := if k = 0 then 180 else if k = 1 then 70 else if k = 2 then 20 else 60
def classLow (k : Nat) : Nat := if k = 0 then 40 else if k = 1 then 15 else if k = 2 then 5 else 18
def classRated (k : Nat) : Nat := if k = 0 then 25 else if k = 1 then 10 else if k = 2 then 3 else 12
/-- Zone of a channel (R231). -/
def chZone (n : Nat) : Nat := n / 16

/-! ### COIL_CFG (R309) -/
def kfKinkEnd (c : Rec) : Bool := bit (rd c 1 1) 0
def kfNmRelease (c : Rec) : Bool := bit (rd c 1 1) 1
def kfAmbSrc (c : Rec) : Bool := bit (rd c 1 1) 2
def kfNotify (c : Rec) : Bool := bit (rd c 1 1) 3
def kfIp (c : Rec) : Nat := rd c 2 2
def kfIh (c : Rec) : Nat := rd c 4 2
def kfIhMin (c : Rec) : Nat := rd c 6 2
def kfTpMax (c : Rec) : Nat := rd c 8 1
def kfBlank (c : Rec) : Nat := rd c 9 1
def kfMargin (c : Rec) : Nat := rd c 10 1
def kfThr (c : Rec) : Nat := rd c 11 1
def kfHoldMs (c : Rec) : Nat := rd c 12 2
def kfRcoil (c : Rec) : Nat := rd c 14 2
def kfRharn (c : Rec) : Nat := rd c 16 2
def kfTLimit (c : Rec) : Nat := rd c 19 1
def kfTReduce (c : Rec) : Nat := rd c 20 1
def kfAmb (c : Rec) : Int := sx 8 (rd c 21 1)
def kfRthCs (c : Rec) : Nat := rd c 22 2
def kfTauC (c : Rec) : Nat := rd c 24 2
def kfRthSa (c : Rec) : Nat := rd c 26 2
def kfTauS (c : Rec) : Nat := rd c 28 2
/-- An actuation of this record is a one-shot (R315). -/
def kfOneShot (c : Rec) : Bool := kfIh c = 0 || kfHoldMs c ≠ 0

/-! ### BR_CFG (R348) -/
def bfPosSrc (c : Rec) : Nat := bits (rd c 1 1) 0 2
def bfEncInv (c : Rec) : Bool := bit (rd c 1 1) 2
def bfAutoHome (c : Rec) : Bool := bit (rd c 1 1) 3
def bfHomeDir (c : Rec) : Bool := bit (rd c 1 1) 4
def bfNotify (c : Rec) : Bool := bit (rd c 1 1) 5
def bfRippleTask (c : Rec) : Nat := bits (rd c 2 1) 0 6
def bfDwell (c : Rec) : Nat := rd c 3 1
def bfAccel (c : Rec) : Nat := rd c 4 2
def bfDecel (c : Rec) : Nat := rd c 6 2
def bfMinDuty (c : Rec) : Nat := rd c 8 2
def bfHomeDuty (c : Rec) : Nat := rd c 10 2
def bfPosMin (c : Rec) : Int := sx 24 (rd c 12 3)
def bfPosMax (c : Rec) : Int := sx 24 (rd c 15 3)
def bfApproach (c : Rec) : Nat := rd c 18 2
def bfTol (c : Rec) : Nat := rd c 20 1
def bfSkipLimit (c : Rec) : Nat := rd c 21 1
def bfStallMs (c : Rec) : Nat := rd c 22 1
def bfOpenMs (c : Rec) : Nat := rd c 23 1
def bfOpenI (c : Rec) : Nat := rd c 24 2
def bfHomePos (c : Rec) : Int := sx 24 (rd c 26 3)
def bfPinchDir (c : Rec) : Nat := bits (rd c 29 1) 0 2
def bfPinchThr (c : Rec) : Nat := rd c 30 2
def bfKw (c : Rec) : Nat := rd c 32 2
def bfPinchN (c : Rec) : Nat := rd c 34 1
def bfPinchBlank (c : Rec) : Nat := rd c 35 1
def bfPzLo (c : Rec) : Int := sx 24 (rd c 36 3)
def bfPzHi (c : Rec) : Int := sx 24 (rd c 39 3)
def bfRevDist (c : Rec) : Nat := rd c 42 2
def bfPinchIabs (c : Rec) : Nat := rd c 44 2
def bfErrLimit (c : Rec) : Nat := rd c 46 1

/-! ### LS_CFG and LIGHT_CFG (R380, R396) -/
def sfHybrid (c : Rec) : Bool := bit (rd c 1 1) 0
def sfXover (c : Rec) : Nat := bits (rd c 1 1) 1 3
def sfSafe (c : Rec) : Nat := bits (rd c 1 1) 4 2
def sfNotify (c : Rec) : Bool := bit (rd c 1 1) 6
def sfFrac (c : Rec) : Nat := rd c 2 1
def sfShortV (c : Rec) : Nat := rd c 3 1
def sfShortOff (c : Rec) : Bool := bit (rd c 4 1) 0
def gfGref (c : Rec) : Nat := rd c 0 1 % 64
def gfSlot (c : Rec) : Nat := rd c 1 1
def gfCycle (c : Rec) : Nat := rd c 2 1
def gfOffset (c : Rec) : Nat := rd c 3 1
def gfWaitMax (c : Rec) : Nat := rd c 4 1
def gfLinPid (c : Rec) : Nat := rd c 5 1 % 64
def gfLinPorts (c : Rec) : Nat := rd c 6 2 % 4096
def gfCanPorts (c : Rec) : Nat := rd c 8 1
def gfCanFmt (c : Rec) : Bool := bit (rd c 9 1) 0
def gfCanFd (c : Rec) : Bool := bit (rd c 9 1) 1
def gfCanId (c : Rec) : Nat := rd c 10 4 % 2 ^ 29

/-! ### CAN_PORT_CFG and CAN_WAKE_CFG (R437, R460) -/
def nfFdEn (c : Rec) : Bool := bit (rd c 1 1) 0
def nfPex (c : Rec) : Bool := bit (rd c 1 1) 1
def nfSic (c : Rec) : Bool := bit (rd c 1 1) 2
def nfTriple (c : Rec) : Bool := bit (rd c 1 1) 3
def nfRecovery (c : Rec) : Bool := bit (rd c 1 1) 4
def nfTdcEn (c : Rec) : Bool := bit (rd c 1 1) 5
def nfNbrp (c : Rec) : Nat := rd c 2 1 % 64
def nfDbrp (c : Rec) : Nat := rd c 3 1 % 64
def nfNtseg1 (c : Rec) : Nat := rd c 4 2 % 512
def nfNtseg2 (c : Rec) : Nat := rd c 6 1
def nfNsjw (c : Rec) : Nat := rd c 7 1
def nfDtseg1 (c : Rec) : Nat := rd c 8 1
def nfDtseg2 (c : Rec) : Nat := rd c 9 1
def nfDsjw (c : Rec) : Nat := rd c 10 1
def nfSsp (c : Rec) : Nat := rd c 11 1
def nfBusDelay (c : Rec) : Nat := rd c 12 2
def nfDoneMode (c : Rec) : Nat := rd c 14 1 % 4
def nfDoneQueue (c : Rec) : Nat := rd c 16 2 % 8192
/-- RETRY of local transmit queue `i`. -/
def nfRetry (c : Rec) (i : Nat) : Nat := bits (rd c (32 + i / 2) 1) (4 * (i % 2)) 4
def wfMode (c : Rec) : Nat := rd c 1 1 % 4
def wfFdPassive (c : Rec) : Bool := bit (rd c 1 1) 2
def wfFiltT (c : Rec) : Nat := rd c 2 1 % 64
def wfWupTo (c : Rec) : Nat := rd c 3 1 % 16
def wfSwRate (c : Rec) : Nat := rd c 4 1 % 4
def wfDlc (c : Rec) : Nat := rd c 5 1 % 16
def wfId (c : Rec) : Nat := rd c 8 4 % 2 ^ 29
def wfIde (c : Rec) : Bool := bit (rd c 8 4) 29
def wfMask (c : Rec) : Nat := rd c 12 4 % 2 ^ 29
def wfData (c : Rec) : Rec := sub c 16 8

/-! ### LIN_PORT_CFG, frame table, ETH_PORT_CFG (R473, R474, R487) -/
def mfBitrate (c : Rec) : Nat := rd c 1 2
def mfBreak (c : Rec) : Nat := rd c 3 1 % 32
def mfWakeEn (c : Rec) : Bool := bit (rd c 4 1) 1
def mfNotify (c : Rec) : Bool := bit (rd c 4 1) 2
def mtDir (t : Rec) (f : Nat) : Nat := bits (rd t (4 * f) 1) 0 2
def mtChk (t : Rec) (f : Nat) : Bool := bit (rd t (4 * f) 1) 2
def mtReport (t : Rec) (f : Nat) : Bool := bit (rd t (4 * f) 1) 3
def mtLen (t : Rec) (f : Nat) : Nat := bits (rd t (4 * f + 1) 1) 0 4
def mtSource (t : Rec) (f : Nat) : Nat := bits (rd t (4 * f + 1) 1) 4 2
def mtRxq (t : Rec) (f : Nat) : Nat := bits (rd t (4 * f + 2) 1) 0 3
def mtTxq (t : Rec) (f : Nat) : Nat := bits (rd t (4 * f + 2) 1) 3 3
def efRate (c : Rec) : Nat := rd c 1 1 % 4
def efMacsec (c : Rec) : Bool := bit (rd c 1 1) 4
def efType (c : Rec) : Nat := rd c 2 2
def efMac (c : Rec) : Nat := rd c 4 6
def efPcp (c : Rec) : Nat := rd c 10 1 % 8
def efTxAn (c : Rec) : Nat := rd c 11 1 % 4
def efRxValid (c : Rec) (r : Nat) : Bool := bit (rd c 11 1) (2 + r)
def efTxSlot (c : Rec) : Nat := rd c 12 1
def efRxSlot (c : Rec) (r : Nat) : Nat := rd c (13 + r) 1
def efRxAn (c : Rec) (r : Nat) : Nat := bits (rd c 15 1) (2 * r) 2
def efReplay (c : Rec) : Nat := rd c 16 2
def efTxSci (c : Rec) : Nat := rd c 20 8
def efRxSci (c : Rec) : Nat := rd c 28 8

/-! ### PWR_CFG (R580) -/
def pwPin (c : Rec) (n : Nat) : Bool := bit (rd c 0 1) n
def pwPol (c : Rec) (n : Nat) : Bool := bit (rd c 0 1) (4 + n)
def pwCan (c : Rec) (p : Nat) : Bool := bit (rd c 1 1) p
def pwLin (c : Rec) (n : Nat) : Bool := bit (rd c 2 2) n && decide (n < 12)
def pwHspi (c : Rec) (n : Nat) : Bool := bit (rd c 2 2) (12 + n) && decide (n < 2)
def pwLh (c : Rec) : Bool := bit (rd c 2 2) 14
def pwAutoPad (c : Rec) : Bool := bit (rd c 2 2) 15
def pwPpm (c : Rec) : Nat := rd c 4 2
def pwTimer (c : Rec) : Nat := rd c 6 2
def pwDeepen (c : Rec) : Nat := rd c 8 2
def pwSns (c : Rec) (k : Nat) : Bool := bit (rd c 10 1) k && decide (k < 2)
def pwSnsPark (c : Rec) (k : Nat) : Bool := bit (rd c 10 1) (2 + k) && decide (k < 2)
def pwKeep (c : Rec) (n : Nat) : Bool := bit (rd c 12 8) n

/-! ### LH_CFG entries (R261) -/
def lhValid (c : Rec) (e : Nat) : Bool := bit (rd c (4 * e) 1) 7
def lhChannel (c : Rec) (e : Nat) : Nat := bits (rd c (4 * e) 1) 0 6
def lhInput (c : Rec) (e : Nat) : Nat := bits (rd c (4 * e + 1) 1) 0 3
def lhInvert (c : Rec) (e : Nat) : Bool := bit (rd c (4 * e + 1) 1) 3
def lhFlash (c : Rec) (e : Nat) : Bool := bit (rd c (4 * e + 1) 1) 4
def lhDset (c : Rec) (e : Nat) : Nat := bits (rd c (4 * e + 2) 2) 0 13
/-- The valid entry of a channel, if it has one (R260). -/
def lhEntry (c : Rec) (n : Nat) : Option Nat := (List.range 16).find? (fun e => lhValid c e && lhChannel c e = n)

end Sys2Proof.Machine
end

