-- ==== Sys2Proof/Machine/Image.lean ====
section
/-! DEFINITION. Reading a schedule image: header, directory and sections (R177 to R183), and start frames (R171, R189). -/

namespace Sys2Proof.Machine

def octDef : Nat → Octet := fun _ => 0

/-- The little-endian value of `n` octets of an image from `off`. -/
def ird (img : Tab Octet) (off : Nat) : Nat → Nat
  | 0 => 0
  | n + 1 => (tget octDef img off).toNat + 256 * ird img (off + 1) n

/-- `n` octets of an image from `off`. -/
def isub (img : Tab Octet) (off n : Nat) : Rec := (List.range n).map (fun i => tget octDef img (off + i))

def imgModes (img : Tab Octet) : Nat := ird img 24 1 % 16
def imgBootMode (img : Tab Octet) : Nat := ird img 25 1 % 8
def imgSchedId (img : Tab Octet) : Nat := ird img 12 4

/-- A section of the image: COUNT and OFFSET of the directory entry of a TYPE and MODE (R178); none where the directory has no such entry. -/
def secFrom (img : Tab Octet) (t m : Nat) : Nat → Nat → Option (Nat × Nat)
  | _, 0 => none
  | off, k + 1 =>
    if ird img off 1 = t ∧ ird img (off + 1) 1 = m then some (ird img (off + 2) 2, ird img (off + 4) 4) else secFrom img t m (off + 12) k

def section_ (img : Tab Octet) (t m : Nat) : Option (Nat × Nat) := secFrom img t m 64 (ird img 6 2)

/-- Entries of a section as the offsets they begin at. -/
def entries (img : Tab Octet) (t m size : Nat) : List Nat :=
  match section_ img t m with
  | none => []
  | some (n, off) => (List.range n).map (fun i => off + i * size)

/-- A CHANNEL entry (R179): DISP 0 FROZEN, 1 ACTIVE, 2 OFF_ONLY, 3 FORCE_OFF. -/
structure ChanEnt where
  disp : Nat
  slot : Nat
  period : Nat
  phase : Nat
  group : Nat
deriving DecidableEq, Repr

/-- The CHANNEL entry of a channel in a mode; under the built-in schedule every channel is FROZEN (R201). -/
def chanEnt (img : Option (Tab Octet)) (m n : Nat) : ChanEnt :=
  match img.bind (fun i => (section_ i 5 m).map (fun p => (i, p.2 + 8 * n))) with
  | none => { disp := 0, slot := 0, period := 1, phase := 0, group := 255 }
  | some (i, o) => { disp := ird i o 1 % 4, slot := ird i (o + 1) 1, period := ird i (o + 2) 1, phase := ird i (o + 3) 1, group := ird i (o + 6) 1 }

/-- Whether frame `f` is a start frame of an entry of period `p` and phase `h` (R172). -/
def startFrame (p h : Nat) (f : Fn) : Bool := decide (f.toNat % max p 1 = h)

/-- The first frame at or after `f` that is a start frame; periods are at most 1,024 frames. -/
def nextStart (p h : Nat) (f : Fn) : Fn := f + BitVec.ofNat 32 ((h + max p 1 - f.toNat % max p 1) % max p 1)

/-- Rank j of a channel among those of its START_SLOT in a mode (R171). -/
def slotRank (img : Option (Tab Octet)) (m n : Nat) : Nat :=
  let s := (chanEnt img m n).slot
  ((List.range n).filter (fun i => let e := chanEnt img m i; e.disp ≠ 0 && e.slot = s)).length

/-- The tick of a channel's start-slot edge (R171). -/
def startTick (img : Option (Tab Octet)) (m n : Nat) : Nat := 200 * (chanEnt img m n).slot + 10 * slotRank img m n

/-- A LOAD entry (R178): CTRL_MODE, I_PEAK in 0.1 A, T_PEAK in 10 us, I_NOM in 10 mA. -/
def loadEnt (img : Option (Tab Octet)) (n : Nat) : Option (Nat × Nat × Nat × Nat) :=
  img.bind (fun i => (section_ i 2 255).map (fun p =>
    let o := p.2 + 8 * n
    (ird i o 1 % 8, ird i (o + 2) 2, ird i (o + 4) 2, ird i (o + 6) 2)))

/-- The PWM entry of a kind and unit: LAMP_N and PHASE_TICK. -/
def pwmEnt (img : Option (Tab Octet)) (kind unit : Nat) : Option (Nat × Nat) :=
  img.bind (fun i => ((entries i 6 255 8).find? (fun o => ird i o 1 % 8 = kind && ird i (o + 1) 1 = unit)).map (fun o =>
    (ird i (o + 2) 1 % 16, ird i (o + 4) 3)))

/-- LAMP period N and phase of a channel; the built-in schedule gives LAMP_N 5 and phase 200 n (R201). -/
def lampEnt (img : Option (Tab Octet)) (n : Nat) : Nat × Nat :=
  match pwmEnt img 1 n with
  | some e => e
  | none => (5, 200 * n)

/-- The TASK entry of a task in a mode: offset in the image. -/
def taskEnt (img : Option (Tab Octet)) (m t : Nat) : Option (Tab Octet × Nat) :=
  img.bind (fun i => ((entries i 8 m 16).find? (fun o => ird i o 1 % 64 = t)).map (fun o => (i, o)))

/-- A LIN entry (R178): PORT, PID, SLOT, FRAMES, CYCLE, OFFSET. -/
structure LinEnt where
  port : Nat
  pid : Nat
  slot : Nat
  frames : Nat
  cycle : Nat
  offset : Nat
deriving DecidableEq, Repr

/-- The LIN entries of a mode. -/
def linEnts (img : Option (Tab Octet)) (m : Nat) : List LinEnt :=
  match img with
  | none => []
  | some i => (entries i 9 m 8).map (fun o =>
      { port := ird i o 1 % 16, pid := ird i (o + 1) 1 % 64, slot := ird i (o + 2) 1, frames := ird i (o + 3) 1, cycle := ird i (o + 4) 2, offset := ird i (o + 6) 2 })

/-- The LIN entry of a frame identifier on a port. -/
def linEnt (img : Option (Tab Octet)) (m port pid : Nat) : Option LinEnt := (linEnts img m).find? (fun e => e.port = port && e.pid = pid)

/-- SIMUL entry of a group in a mode: MEMBERS and MAX_ON (R181). -/
def simulEnt (img : Option (Tab Octet)) (m g : Nat) : Option (Nat × Nat) :=
  img.bind (fun i => ((entries i 0x0B m 12)[g]?).map (fun o => (ird i o 8, ird i (o + 8) 1)))

/-- Host share of a context in a mode: PKTS and OCT (R178, R201). -/
def hostShare (img : Option (Tab Octet)) (m c : Nat) : Nat × Nat :=
  match img.bind (fun i => (section_ i 3 m).map (fun p => (i, p.2))) with
  | none => (16, 16)
  | some (i, o) => (ird i (o + 20 + 2 * (c - 1)) 1, ird i (o + 21 + 2 * (c - 1)) 1)

/-- STEP_LIMIT and ZONE_LIMIT of a zone in amperes; 80 A under the built-in schedule (R300). -/
def zoneLimit (img : Option (Tab Octet)) (z : Nat) : Nat :=
  match img.bind (fun i => (section_ i 1 255).map (fun p => ird i (p.2 + 8 + z) 1)) with
  | none => 80
  | some v => v

end Sys2Proof.Machine
end

