-- ==== Sys2Proof/Machine/Bank.lean ====
section
/-! DEFINITION. Code banks, the manifest and the CORE_PROG container as laid out in a bank (R608 to R615), task descriptors and declarations (R423 to R428). -/

namespace Sys2Proof.Machine

def onUpd (f : Upd → Upd) (s : State) : State := { s with upd := f s.upd }

/-- The contents of a bank: 0 is A, 1 is B. -/
def State.bank (s : State) (b : Nat) : Tab Octet := if b = 0 then s.upd.bankA else s.upd.bankB
def State.activeImg (s : State) : Tab Octet := s.bank s.upd.active
/-- Octets of a bank (R608). -/
def bankSize : Nat := 10485760
def up4k (n : Nat) : Nat := (n + 4095) / 4096 * 4096

/-! ### Manifest (R610) -/

def mfLen (i : Tab Octet) : Nat := ird i 8 4
def mfBundle (i : Tab Octet) : Nat := ird i 12 4
def mfSecVer (i : Tab Octet) : Nat := ird i 16 4
def mfCert (i : Tab Octet) : Nat := ird i 20 4
/-- Whether a manifest stands in a bank. -/
def mfHere (i : Tab Octet) : Bool := ird i 0 4 = 0x464D5A54
/-- Fields of the entry of component `c`, 1 to 6. -/
def ceOff (c : Nat) : Nat := 64 + 48 * (c - 1)
def ceCarry (i : Tab Octet) (c : Nat) : Bool := bit (ird i (ceOff c + 1) 1) 0
def ceFmt (i : Tab Octet) (c : Nat) : Nat := ird i (ceOff c + 2) 2
def ceLen (i : Tab Octet) (c : Nat) : Nat := ird i (ceOff c + 4) 4
def ceHash (i : Tab Octet) (c : Nat) : Nat := ird i (ceOff c + 8) 4
def ceId (i : Tab Octet) (c : Nat) : Nat := ird i (ceOff c + 12) 4
def ceSha (i : Tab Octet) (c : Nat) : Rec := isub i (ceOff c + 16) 32
/-- Blocks of a component. -/
def ceBlocks (i : Tab Octet) (c : Nat) : Nat := cdiv (ceLen i c) 4096

/-- Bank offset of component `c` (R609). -/
def compOff (i : Tab Octet) (c : Nat) : Nat := up4k (mfLen i) + (((List.range 7).filter (fun k => decide (1 ≤ k ∧ k < c))).map (fun k => up4k (ceLen i k))).sum
/-- The image of component `c`. -/
def compImg (i : Tab Octet) (c : Nat) : Rec := isub i (compOff i c) (ceLen i c)

/-- Active management firmware version: COMP_ID of HEARTH_FW (R610), the factory's where no manifest stands. -/
def State.fwVer (s : State) : Nat := if mfHere s.activeImg then ceId s.activeImg 1 else (Config.factoryFw s.upd.active).toNat
/-- The measurement of a component of the active bank (R553). -/
def State.measure (s : State) (c : Nat) : Rec := if mfHere s.activeImg then ceSha s.activeImg c else zeros 32

/-! ### CORE_PROG (R615) -/

/-- Bank offset of the CORE_PROG container of the active bank; none where no manifest holds one. -/
def progOff (i : Tab Octet) : Option Nat := if mfHere i ∧ ceLen i 3 ≠ 0 then some (compOff i 3) else none
/-- The 32 octets of the descriptor of a task. -/
def taskDescIn (i : Tab Octet) (o t : Nat) : Option Nat :=
  ((List.range (ird i (o + 6) 1)).map (fun k => o + 64 + 32 * k)).find? (fun d => ird i d 1 % 64 = t)
def State.taskDesc (s : State) (t : Nat) : Option Rec :=
  let i := s.activeImg
  (progOff i).bind (fun o => (taskDescIn i o t).map (fun d => isub i d 32))
def State.progId (s : State) : Nat := match progOff s.activeImg with | some o => ird s.activeImg (o + 8) 4 | none => 0

/-- Fields of a task descriptor (R423). -/
def tdCore (d : Rec) : Nat := rd d 1 1 % 4
def tdAuto (d : Rec) : Bool := bit (rd d 1 1) 2
def tdEntry (d : Rec) : Nat := rd d 2 2
def tdWcet (d : Rec) : Nat := rd d 4 3
def tdSafe (d : Rec) : Nat := rd d 8 2
def tdTop (d : Rec) : Nat := rd d 10 3 % 131072
def tdBound (d : Rec) : Nat := rd d 13 3 % 131072
def tdPBase (d : Rec) : Nat := rd d 16 3 % 131072
def tdPWords (d : Rec) : Nat := rd d 19 1
def tdInFirst (d : Rec) : Nat := rd d 20 2
def tdInCount (d : Rec) : Nat := rd d 22 1
def tdOutCount (d : Rec) : Nat := rd d 23 1
def tdOutFirst (d : Rec) : Nat := rd d 24 2
def tdInWords (d : Rec) : Nat := rd d 26 2
def tdOutWords (d : Rec) : Nat := rd d 28 2

/-- The declarations of a task: `n` records of 12 octets from index `first`, `base` the offset of the table. -/
def declsAt (i : Tab Octet) (base first n : Nat) : List Rec := (List.range n).map (fun k => isub i (base + 12 * (first + k)) 12)
def inBase (i : Tab Octet) (o : Nat) : Nat := o + 64 + 32 * ird i (o + 6) 1
def outBase (i : Tab Octet) (o : Nat) : Nat := inBase i o + 12 * ird i (o + 12) 2
def State.inDecls (s : State) (t : Nat) : List Rec :=
  match s.taskDesc t, progOff s.activeImg with
  | some d, some o => declsAt s.activeImg (inBase s.activeImg o) (tdInFirst d) (tdInCount d)
  | _, _ => []
def State.outDecls (s : State) (t : Nat) : List Rec :=
  match s.taskDesc t, progOff s.activeImg with
  | some d, some o => declsAt s.activeImg (outBase s.activeImg o) (tdOutFirst d) (tdOutCount d)
  | _, _ => []

/-- Octets of the images of cores below `n`, and the whole container. -/
def coreImgOff (i : Tab Octet) (o n : Nat) : Nat :=
  outBase i o + 12 * ird i (o + 14) 2 + ((List.range n).map (fun k => 3 * (ird i (o + 32 + 8 * k) 4 + ird i (o + 36 + 8 * k) 4))).sum
def progSize (i : Tab Octet) (o : Nat) : Nat := coreImgOff i o 4 - o

def wordDef : Nat → W24 := fun _ => 0
/-- `n` words of 3 octets from an offset, as a table from address 0. -/
def wordsAt (i : Tab Octet) (off n : Nat) : Tab W24 :=
  (List.range n).foldl (fun t k => tput wordDef t k (BitVec.ofNat 24 (ird i (off + 3 * k) 3))) []
/-- The program and data memory of core `n` as R401 loads them. -/
def coreImage (i : Tab Octet) (n : Nat) : Tab W24 × Tab W24 :=
  match progOff i with
  | none => ([], [])
  | some o =>
    let p := coreImgOff i o n
    let np := ird i (o + 32 + 8 * n) 4
    (wordsAt i p np, wordsAt i (p + 3 * np) (ird i (o + 36 + 8 * n) 4))

/-- The schedule image of a bank (R611, R177); none where the component is absent. -/
def bankSched (i : Tab Octet) : Option (Tab Octet) :=
  if mfHere i ∧ ceLen i 4 ≠ 0 then
    some ((List.range (ceLen i 4)).foldl (fun t k => tput octDef t k (tget octDef i (compOff i 4 + k))) [])
  else none

end Sys2Proof.Machine
end

