-- ==== Sys2Proof/Machine/Flags.lean ====
section
/-! DEFINITION. Flag computations: the STATE_WORD of replies (R72). -/

namespace Sys2Proof.Machine

/-- ERR_N is driven low (R569). -/
def State.errActive (s : State) : Bool := s.flt.inst.any (fun e => e.2.severe && e.2.errpin)
/-- An activated update awaits CONFIRM (R616). -/
def State.confirmPending (s : State) : Bool := decide (s.upd.st = 4)

/-- Any channel follows the limp-home table. -/
def Anvil.anyLimp (a : Anvil) : Bool := a.ch.any (fun e => e.2.limp)

/-- Hearth has not yet had a rejoin accepted (R56). -/
def State.rejoining (s : State) : Bool := decide (s.link.step ≠ .idle)

/-- STATE_WORD of a reply to context `c` (R72). -/
def State.stateWord (s : State) (c : Nat) : Nat :=
  b2n s.link.lost + 2 * b2n s.rejoining + 4 * b2n s.time.restored + 8 * b2n s.errActive + 16 * b2n s.rep.anyLimp
    + 32 * b2n (!(s.queue (32 + c)).cells.isEmpty) + 64 * b2n s.confirmPending + 256 * (s.modeNow % 8)

end Sys2Proof.Machine
end

