-- ==== Sys2Proof/Machine/Packets.lean ====
section
/-! DEFINITION. Host packets: replies, the acceptance order of R68 and R681, batches (R146 to R158), and the record of one opcode. -/

namespace Sys2Proof.Machine

/-! ### Packets as octets -/

/-- FLAGS of a host packet (R58). -/
def hdrFlags (h : Hdr) : Nat := b2n h.batch + 2 * b2n h.wantReply + 4 * b2n h.notifyOnly

/-- The octets of a host packet before its CRC (R58). -/
def pktOctets (p : Pkt) : Rec :=
  [1, BitVec.ofNat 8 p.h.ctx] ++ le 2 p.h.seq.toNat ++ le 2 p.op ++ le 2 (hdrFlags p.h) ++ le 2 p.body.length ++ le 2 p.h.creditRet
    ++ le 4 p.h.targetFn.toNat ++ p.body

def pktCrc (p : Pkt) : Nat := crc32c (pktOctets p)
/-- Cells of a packet (R61). -/
def pktCells (p : Pkt) : Nat := cellsOf (20 + p.body.length)

/-- A device packet as octets, CRC included (R58): FLAGS and TARGET_FN 0. -/
def devOctets (c : Nat) (d : DevPkt) : Rec :=
  let b := [1, BitVec.ofNat 8 c] ++ le 2 d.seq.toNat ++ le 2 d.op ++ zeros 2 ++ le 2 d.payload.length ++ le 2 d.creditRet ++ zeros 4 ++ d.payload
  b ++ le 4 (crc32c b)

def devLen (d : DevPkt) : Nat := 20 + d.payload.length

/-! ### Opcodes -/

/-- When an opcode acts: a read of a snapshot (R160), a read of the state at execution (R686), an operation executed at acceptance, a change
of the committed state at a commit point (R144). -/
inductive OpKind where
  | read | live | now | commit
deriving DecidableEq, Repr

/-- A UNIT_REF in a payload: its offset, the TYPEs its opcode takes, whether the opcode acts on it (ownership by R93). -/
structure URef where
  off : Nat
  types : List Nat
  own : Bool
deriving DecidableEq, Repr

/-- A request as an opcode sees it: header, payload, the frame its effect applies in. -/
structure Req where
  h : Hdr
  b : Rec
  eff : Fn
deriving DecidableEq, Repr

/-- What executing a request gives: the state, the status with its DETAIL, the reply fields after the prefix. -/
structure Res where
  st : State
  status : Status
  detail : Nat
  data : Rec

/-- An opcode: what its chapter states of it, in the order the acceptance steps of R68 and R681 use it. `access` are the privilege and
ownership rules of its own (step 7), `okLen` and `resv` the layout (step 8), `range` step 9, `check` step 10 after the role generations,
`anvil` that it acts on an Anvil unit (R39, R56), `recs` octets of records for Anvil's table store (R684), `maxData` the largest reply, `fin` the
reply fields as they stand once the whole batch has committed (R150). -/
structure OpSpec where
  code : Nat
  kind : OpKind
  solo : Bool
  data : Bool
  units : Rec → List URef
  priv : Nat
  access : Req → State → Option (Status × Nat)
  okLen : Rec → Bool
  resv : Rec → List (Nat × Nat × Nat)
  range : Req → State → Option Nat
  check : Req → State → Option (Status × Nat)
  anvil : Req → State → Bool
  recs : Req → State → Nat
  maxData : Rec → Nat
  run : Req → State → Res
  fin : Req → State → Rec → Rec := fun _ _ d => d

/-! ### Replies (R70 to R72) -/

/-- A reply payload: the prefix of R72, then the opcode's fields. -/
def replyPayload (s : State) (c : Nat) (seq : BitVec 16) (st : Status) (detail : Nat) (fn : Fn) (data : Rec) : Rec :=
  le 2 seq.toNat ++ le 2 (statusCode st) ++ le 2 detail ++ le 2 (s.stateWord c) ++ le 4 fn.toNat ++ data

/-- The Ethernet port of a context is down (R88): whether its replies are kept back. -/
def State.portDown (s : State) (c : Nat) : Bool :=
  let t := ctxTransport (s.cx c)
  (t = 1 || t = 2) && !((s.eth (t - 1)).link)

/-- A device packet enters a context's output, numbered and carrying the credit not yet returned (R62, R66). -/
def sendDev (c op : Nat) (payload : Rec) (s : State) : State :=
  onCtx c (fun x =>
    { x with devSeq := x.devSeq + 1, creditRet := 0, rpPut := x.rpPut + cellsOf (20 + payload.length),
             out := x.out ++ [{ seq := x.devSeq, op := op, creditRet := x.creditRet, payload := payload, reply := true }] }) s

/-- A notification packet of one entry (R99) enters a context's output; it occupies no reply cells. -/
def sendNtf (c : Nat) (payload : Rec) (s : State) : State :=
  onCtx c (fun x =>
    { x with devSeq := x.devSeq + 1, creditRet := 0, out := x.out ++ [{ seq := x.devSeq, op := 3, creditRet := x.creditRet, payload := payload, reply := false }] }) s

/-- The head of a notification entry and its data (R99). -/
def ntfEntry (kind : Nat) (fn : Fn) (tb : Tb) (data : Rec) : Rec := le 2 kind ++ le 2 (16 + data.length) ++ le 4 fn.toNat ++ le 6 tb.toNat ++ zeros 2 ++ data

/-- LINK_RESTART (R87): a packet of its own ahead of every waiting entry, without credit; none is left until the host grants more. While the
context's Ethernet port is down it waits. -/
def linkRestart (c cause : Nat) (s : State) : State :=
  let e := ntfEntry 1 s.fn s.tbNow (le 2 ((s.cx c).arrSeq - 1).toNat ++ [BitVec.ofNat 8 cause, 0])
  if s.portDown c then onCtx c (fun x => { x with restart := some e }) s
  else onCtx c (fun x => { x with ntfCredit := 0 }) (sendNtf c e s)

/-- A reply is kept while its packet is the last the context accepted (R63, R64); the reply of an earlier packet, answered later at its commit point, is not. -/
def keepReply (p : Pkt) (d : DevPkt) (s : State) : State :=
  onCtx p.h.ctx (fun y =>
    match y.last with
    | some l => if l.seq = p.h.seq ∧ l.crc = pktCrc p then { y with last := some { l with reply := some d } } else y
    | none => y) s

/-- The reply of an accepted packet, kept as the context's last reply (R64); while the bound Ethernet port is down it is kept and not sent (R88). -/
def sendReply (p : Pkt) (st : Status) (detail : Nat) (fn : Fn) (data : Rec) (s : State) : State :=
  let c := p.h.ctx
  let pay := replyPayload s c p.h.seq st detail fn data
  let x := s.cx c
  let d : DevPkt := { seq := x.devSeq, op := p.op, creditRet := 0, payload := pay, reply := true }
  keepReply p d (if s.portDown c then s else sendDev c p.op pay s)

/-- A refusal at steps 1 to 5 (R68, R70, R115): always a reply, not kept, sent only where the reply queue has a cell for it. -/
def refuseEarly (p : Pkt) (st : Status) (detail : Nat) (s : State) : State :=
  let x := s.cx p.h.ctx
  if ctxReplyUsed x + x.resv + 1 ≤ 256 ∧ s.portDown p.h.ctx = false then
    sendDev p.h.ctx p.op (replyPayload s p.h.ctx p.h.seq st detail s.fn []) s
  else s

/-- The cells of a packet executed or refused are freed, to be returned (R61, R66). -/
def freeCells (p : Pkt) (s : State) : State :=
  onCtx p.h.ctx (fun x => { x with inRel := x.inRel + pktCells p, creditRet := x.creditRet + pktCells p }) s

/-- A COMPLETION entry (R99). -/
def completion (c : Nat) (seq : BitVec 16) (op : Nat) (st : Status) (detail : Nat) (data : Rec) (s : State) : State :=
  notify c 2 (le 2 seq.toNat ++ le 2 op ++ le 2 (statusCode st) ++ le 2 detail ++ data) s

/-- The outcome of an accepted packet reaches its sender (R70): a COMPLETION entry with NOTIFY_ONLY, else a reply where one is due. -/
def respond (p : Pkt) (returnsData : Bool) (st : Status) (detail : Nat) (fn : Fn) (data : Rec) (s : State) : State :=
  let s := freeCells p s
  if p.h.notifyOnly then completion p.h.ctx p.h.seq p.op st detail data s
  else if p.h.wantReply || returnsData || (st ≠ .ok && st ≠ .pending) then sendReply p st detail fn data s
  else s

/-! ### Checks (R68 steps 7 to 10, R681) -/

def urefType (b : Rec) (u : URef) : Nat := rd b u.off 1
def urefIndex (b : Rec) (u : URef) : Nat := rd b (u.off + 2) 2
def urefGen (b : Rec) (u : URef) : Nat := rd b (u.off + 4) 2

/-- The first UNIT_REF that names no unit that exists on the part: its TYPE is none of R98's seven, or its INDEX lies outside the type's range (R2). The packet offset of the
field (R681, R682). -/
def unitFault (b : Rec) : List URef → Option Nat
  | [] => none
  | u :: t =>
    if b.length < u.off + 6 then unitFault b t
    else if !(decide (1 ≤ urefType b u ∧ urefType b u ≤ 7)) then some (16 + u.off)
    else if urefIndex b u ≥ unitCount (urefType b u) then some (16 + u.off + 2)
    else unitFault b t

/-- The first UNIT_REF that names a unit of a TYPE its opcode does not take: the packet offset of TYPE (step 9). -/
def typeFault (b : Rec) : List URef → Option Nat
  | [] => none
  | u :: t => if b.length < u.off + 6 || u.types.contains (urefType b u) then typeFault b t else some (16 + u.off)

/-- The first unit the requester must own and does not: its owner (R93). -/
def ownFault (s : State) (c : Nat) (b : Rec) : List URef → Option Nat
  | [] => none
  | u :: t =>
    let o := s.owner (urefType b u) (urefIndex b u)
    if u.own && b.length ≥ u.off + 6 && o ≠ c then some o else ownFault s c b t

/-- The first role generation that does not match: the current one (R166). GEN 0000h passes in a read of an OBS context (R167). -/
def genFault (s : State) (obsRead : Bool) (b : Rec) : List URef → Option Nat
  | [] => none
  | u :: t =>
    let g := (s.gen (urefType b u) (urefIndex b u)).toNat
    if (urefGen b u = g) || (obsRead && urefGen b u = 0) then genFault s obsRead b t else some g

/-- Step 7: privilege and ownership, a unit that does not exist ahead of both (R681). The rules an opcode has of its own speak of the TYPEs it takes. -/
def step7 (o : OpSpec) (r : Req) (s : State) : Option (Status × Nat) :=
  match unitFault r.b (o.units r.b) with
  | some d => some (.range, d)
  | none =>
    if ctxPriv (s.cx r.h.ctx) < o.priv then some (.denied, 0xFFFF)
    else match ownFault s r.h.ctx r.b (o.units r.b) with
      | some w => some (.denied, w)
      | none => if (typeFault r.b (o.units r.b)).isSome then none else o.access r s

/-- Step 8: payload layout, NOTIFY_ONLY on an opcode that returns data first (R681). The second octet of a UNIT_REF is reserved (R98). -/
def step8 (o : OpSpec) (r : Req) : Option (Status × Nat) :=
  if r.h.notifyOnly && o.data then some (.format, 6)
  else if !(o.okLen r.b) then some (.format, 8)
  else match resvFault r.b ((o.units r.b).map (fun u => (u.off + 1, 1, 255)) ++ o.resv r.b) with
    | some d => some (.format, 16 + d)
    | none => none

/-- R155 for a closing packet or a batch of one accepted at this instant: refusal, or the effect frame. -/
def effectFrame (s : State) (t : Fn) : Status × Fn :=
  let e : Fn := if s.tick < 40000 then s.fn + 1 else s.fn + 2
  if t = 0 then (.ok, e)
  else
    let d := (t - s.fn).toNat
    if d = 0 ∨ d < (e - s.fn).toNat ∨ d ≥ 2 ^ 31 then (.staleTime, e)
    else if d ≤ 60000 then (.ok, t) else (.range, e)

/-- R160 for a read accepted in this frame: the snapshot frame, or the refusal. -/
def readFrame (s : State) (t : Fn) : Status × Fn :=
  if t = 0 then (.ok, s.fn)
  else if (s.fn - t).toNat ≤ 3 then (.ok, t)
  else if 1 ≤ (t - s.fn).toNat ∧ (t - s.fn).toNat ≤ 2 ^ 31 - 1 then (.range, s.fn) else (.staleTime, s.fn)

/-- Step 9: the TARGET_FN outcome, then the TYPEs the opcode takes and its ranges. DESIGN CHOICE: R155 and R160 speak of the commands that commit and of reads; the TARGET_FN of an
opcode executed at acceptance (PING, CTX_RESET, a Q_PUSH alone, KEY_MAC) is ignored (log 24). -/
def step9 (o : OpSpec) (closing : Bool) (r : Req) (s : State) : Option (Status × Nat) :=
  let early : Option (Status × Nat) :=
    match o.kind with
    | .read => let x := (readFrame s r.h.targetFn).1; if x = .ok then none else some (x, if x = .range then 12 else 0)
    | .live => if r.h.targetFn = 0 then none else some (.range, 12)
    | _ =>
      if closing then
        let x := (effectFrame s r.h.targetFn).1
        if x ≠ .ok then some (x, if x = .range then 12 else 0)
        else if r.h.targetFn ≠ 0 ∧ 16 ≤ (s.closed.filter (fun q => q.ctx = r.h.ctx && q.targeted)).length then some (.state, 0x10)
        else none
      else none
  match early with
  | some e => some e
  | none => (match typeFault r.b (o.units r.b) with | some d => some d | none => o.range r s).map (fun d => (.range, d))

/-- Step 10: the role generations, the service states that refuse (R617), link loss and rejoin for commands that act on Anvil units (R39, R56),
then the opcode's own checks. -/
def step10 (o : OpSpec) (r : Req) (s : State) : Option (Status × Nat) :=
  let isRead := o.kind = .read || o.kind = .live
  let obs := isRead && ctxPriv (s.cx r.h.ctx) = 0
  match genFault s obs r.b (o.units r.b) with
  | some g => some (.roleStale, g)
  | none =>
    if (s.upd.service = 1 || s.upd.service = 2) && !isRead && !([0, 9, 12].contains (o.code / 4096)) then some (.state, 0x21)
    else if o.anvil r s && (s.link.lost || s.rejoining) then some (.state, 0) else o.check r s

def orElse (a : Option (Status × Nat)) (b : Option (Status × Nat)) : Option (Status × Nat) :=
  match a with
  | some x => some x
  | none => b

/-- The switch of mode that is committed or waits in a closed batch: mode and frame (R194, R203). -/
def pendingSwitch (s : State) : Option (Nat × Fn) :=
  match s.sched.switchTo with
  | some x => some x
  | none =>
    match s.closed.find? (fun q => q.members.any (fun p => p.op = 0x0040)) with
    | none => none
    | some q => (q.members.find? (fun p => p.op = 0x0040)).map (fun p => (rd p.body 0 1 % 8, q.eff))

/-- The mode in which a frame is executed, as far as it is known. -/
def modeAt (s : State) (f : Fn) : Nat :=
  match pendingSwitch s with
  | some (m, t) => if (f - t).toNat < 2 ^ 31 then m else s.com.mode
  | none => s.com.mode

/-- The version that the check of a request sees (R149): the newest, in the mode of frame `e`; a MODE_SELECT itself is judged against the mode that is active. -/
def arrivalView (o : OpSpec) (e : Fn) (s : State) : State :=
  if o.code = 0x0040 || o.kind = .read || o.kind = .live then s else onCom (fun c => { c with mode := modeAt s e }) s

/-- Steps 7 to 10 in order. Checks of step 10 that depend on the mode use that of the effect frame which the packet's acceptance gives with TARGET_FN 0 (R149, R154). -/
def checks (o : OpSpec) (closing : Bool) (r : Req) (s : State) : Option (Status × Nat) :=
  orElse (step7 o r s) (orElse (step8 o r) (orElse (step9 o closing r s)
    (step10 o { r with eff := (effectFrame s 0).2 } (arrivalView o (effectFrame s 0).2 s))))

/-- The recheck at the commit point (R157): generation, privilege and ownership, then mode, transition and the allowance of R684. -/
def recheck (o : OpSpec) (r : Req) (s : State) : Option (Status × Nat) :=
  match genFault s false r.b (o.units r.b) with
  | some g => some (.roleStale, g)
  | none => orElse (step7 o r s) (orElse (o.check r s) (if s.com.allow + o.recs r s > 4096 then some (.busy, 0) else none))

/-! ### Snapshots (R159) -/

/-- The state as snapshot `n` shows it. -/
def State.withSnap (s : State) (n : Snap) : State :=
  { s with roles := n.roles, com := n.com, rep := n.anvil, repM := n.chM, bus := n.bus, ces := n.ces, acc := n.acc, hmon := n.hmon, pwr := n.pwr,
           flt := n.flt, sched := { n.sched with img := s.sched.img }, light := n.light, upd := n.upd, qf := n.qf, ctxs := n.ctxs, closed := n.closed, keys := n.keys,
           link := { s.link with epoch := n.epoch }, time := { n.time with tb := s.time.tb }, clk := { s.clk with fn := n.fn, frameTb := n.frameTb } }

/-- The state a read of frame `t` is drawn from (R160): the snapshot of that frame. DESIGN CHOICE: where no snapshot of that frame is kept (a restart has been since), the
newest one answers, and before the first frame start the state itself, under FN `t` (log 28). -/
def State.readView (s : State) (t : Fn) : State :=
  match s.snaps.find? (fun n => n.fn = t) with
  | some n => s.withSnap n
  | none => match s.snaps.head? with
    | some n => s.withSnap n
    | none => s

/-! ### Acceptance from step 5 on -/

/-- An accepted packet other than PING or a read ends a park entry (R589, R593). -/
def hostWake (o : OpSpec) (c : Nat) (s : State) : State :=
  if s.pwr.entry ≠ 0 && (o.kind = .now || o.kind = .commit) && o.code ≠ 1 then deviceWake 10 c 0 0 true s else s

/-- Execution of a packet that is no member of a batch of two or more. -/
def acceptOne (o : OpSpec) (p : Pkt) (s : State) : State :=
  let e := (effectFrame s p.h.targetFn).2
  let r : Req := { h := p.h, b := p.body, eff := e }
  let rs := if o.kind = .read then s.readView (readFrame s p.h.targetFn).2 else s
  match checks o (decide (o.kind = .commit)) r s with
  | some (st, d) => respond p o.data st d s.fn [] s
  | none =>
    match o.kind with
    | .read =>
      let x := o.run r rs
      respond p o.data x.status x.detail (if x.status = .ok then (readFrame s p.h.targetFn).2 else s.fn) x.data s
    | .live => let x := o.run r s; respond p o.data x.status x.detail s.fn x.data s
    | .now => let x := o.run r (hostWake o p.h.ctx s); respond p o.data x.status x.detail s.fn x.data x.st
    | .commit =>
      let s := hostWake o p.h.ctx s
      { s with closed := s.closed ++ [{ ctx := p.h.ctx, eff := e, targeted := decide (p.h.targetFn ≠ 0), members := [p] }] }

/-- The state with the earlier members of an open batch applied (R149). -/
def applyMembers (tab : Nat → Option OpSpec) (e : Fn) : List Pkt → State → State
  | [], s => s
  | p :: t, s =>
    match tab p.op with
    | none => applyMembers tab e t s
    | some o => applyMembers tab e t (o.run { h := p.h, b := p.body, eff := e } s).st

/-- Replies of a failed batch (R150): the failing member its own status, every other member STATE with the failing SEQ. -/
def failReplies (f : BatchFail) (st : Nat → Status) : List Pkt → State → State
  | [], s => s
  | p :: t, s =>
    let s := if p.h.seq = f.seq then respond p true (st f.status) f.detail s.fn [] s
      else respond { p with h := { p.h with notifyOnly := false } } true .state f.seq.toNat s.fn [] s
    failReplies f st t s

/-- The status of a code, for statuses kept as codes. -/
def statusOf (n : Nat) : Status :=
  ([Status.ok, .pending, .late, .format, .crc, .sequence, .credit, .denied, .range, .roleStale, .schedule, .staleTime, .locked, .busy, .key,
    .verify, .state, .unsupported].find? (fun x => statusCode x = n)).getD .state

/-- Members refused between steps 6 and 7 (R147, R148, R155, R681). -/
def memberFault (o : OpSpec) (n : Nat) (h : Hdr) : Option (Status × Nat) :=
  if n ≥ 255 then some (.format, 6)
  else if o.solo then some (.format, 4)
  else if h.batch && h.targetFn ≠ 0 then some (.format, 12)
  else none

/-- Cells of the largest reply a packet can produce (R115). -/
def replyRoom (tab : Nat → Option OpSpec) (p : Pkt) : Nat :=
  match tab p.op with
  | none => 1
  | some o => cellsOf (32 + o.maxData p.body)

/-- The room reserved for the members of a batch of two or more is given up once the batch is resolved (R115). -/
def releaseRoom (tab : Nat → Option OpSpec) (c : Nat) (ms : List Pkt) (s : State) : State :=
  onCtx c (fun y => { y with resv := y.resv - (ms.map (replyRoom tab)).sum }) s

/-- A packet that is a member of a batch of two or more (R146 to R156). -/
def acceptMember (tab : Nat → Option OpSpec) (p : Pkt) (s : State) : State :=
  let x := s.cx p.h.ctx
  let b : Batch := x.batch.getD { first := s.fn, members := [], failed := none }
  let e := (effectFrame s p.h.targetFn).2
  let verdict : Option (Status × Nat) :=
    match b.failed with
    | some _ => none
    | none =>
      match tab p.op with
      | none => some (.unsupported, 0)
      | some o => orElse (memberFault o b.members.length p.h)
          (checks o (!p.h.batch) { h := p.h, b := p.body, eff := e } (onCom (fun c => { c with chCfgNow := [] }) (applyMembers tab (effectFrame s 0).2 b.members s)))
  let failed : Option BatchFail :=
    match b.failed, verdict with
    | some f, _ => some f
    | none, some (st, d) => some { seq := p.h.seq, status := statusCode st, detail := d }
    | none, none => none
  let members := b.members ++ [p]
  let s := match failed, tab p.op with | none, some o => hostWake o p.h.ctx s | _, _ => s
  if p.h.batch then onCtx p.h.ctx (fun y => { y with batch := some { first := b.first, members := members, failed := failed } }) s
  else
    let s := onCtx p.h.ctx (fun y => { y with batch := none }) s
    match failed with
    | some f => failReplies f statusOf members (releaseRoom tab p.h.ctx members s)
    | none => { s with closed := s.closed ++ [{ ctx := p.h.ctx, eff := e, targeted := decide (p.h.targetFn ≠ 0), members := members }] }

/-- Acceptance of a packet from step 5 on (R68, R67, R688). Its cells stay taken until it is executed or refused. -/
def acceptPkt (tab : Nat → Option OpSpec) (p : Pkt) (s : State) : State :=
  let c := p.h.ctx
  let x := s.cx c
  if ctxResetting x then
    let later := x.waiting
    let s := refuseEarly p .busy 0 s
    let s := onCtx c (fun y => { y with arrSeq := p.h.seq, inRel := y.inRel + pktCells p, creditRet := y.creditRet + pktCells p }) s
    let n := (later.map pktCells).sum
    onCtx c (fun y => { y with waiting := [], inRel := y.inRel + n, creditRet := y.creditRet + n }) (later.foldl (fun s q => refuseEarly q .busy 0 s) s)
  else
    let s := onCtx c (fun y => { y with ntfCredit := y.ntfCredit + p.h.creditRet, accSeq := p.h.seq + 1, last := some { seq := p.h.seq, crc := pktCrc p, reply := none } }) s
    if p.h.batch || x.batch.isSome then acceptMember tab p (onCtx c (fun y => { y with resv := y.resv + replyRoom tab p }) s)
    else match tab p.op with
      | none => respond p false .unsupported 0 s.fn [] s
      | some o => acceptOne o p s

/-- A context's share of the frame admits a packet of `n` octets (R197). -/
def shareAdmits (c n : Nat) (s : State) : Bool :=
  let x := s.cx c
  let sh := hostShare s.sched.img s.modeNow c
  decide (x.sharePkts < sh.1) && x.shareDebt = 0 && (decide (x.shareOct + n ≤ 256 * sh.2) || (decide (256 * sh.2 < n) && x.sharePkts = 0))

/-- The share charged with an admitted packet: what exceeds it falls on the following frames. -/
def chargeShare (c n : Nat) (s : State) : State :=
  let l := 256 * (hostShare s.sched.img s.modeNow c).2
  onCtx c (fun x => { x with sharePkts := x.sharePkts + 1, shareOct := x.shareOct + n, shareDebt := if l < n then x.shareOct + n - l else 0 }) s

/-- Shares at tick 0 of a frame (R197). -/
def resetShare (c : Nat) (s : State) : State :=
  let l := 256 * (hostShare s.sched.img s.modeNow c).2
  onCtx c (fun x => { x with sharePkts := 0, shareOct := min x.shareDebt l, shareDebt := x.shareDebt - l }) s

/-- The first waiting packet of a context is accepted where its share admits it and its reply has room (R115, R197). One that a context reset refuses leaves the share as
it was (R68). -/
def tryAccept (tab : Nat → Option OpSpec) (c : Nat) (s : State) : State :=
  let x := s.cx c
  match x.waiting with
  | [] => s
  | p :: t =>
    let n := 20 + p.body.length
    if ctxResetting x then acceptPkt tab p (onCtx c (fun y => { y with waiting := t }) s)
    else if shareAdmits c n s && decide (ctxReplyUsed x + x.resv + replyRoom tab p ≤ 256) then
      acceptPkt tab p (chargeShare c n (onCtx c (fun y => { y with waiting := t }) s))
    else s

/-! ### Arrival: steps 1 to 4 (R63, R65, R68) -/

/-- Steps 3 and 4 of a packet that arrives for an enabled context. The answer says whether it passed; a packet that passed occupies its cells. -/
def arrive (p : Pkt) (s : State) : State × Bool :=
  let c := p.h.ctx
  let x := s.cx c
  if p.h.seq ≠ x.arrSeq then
    match x.last with
    | some l =>
      if p.h.seq = l.seq ∧ l.crc = pktCrc p ∧ p.h.seq + 1 = x.arrSeq then
        match l.reply with
        | some d =>
          (onCtx c (fun y => { y with devSeq := y.devSeq + 1, rpPut := y.rpPut + cellsOf (devLen d),
                                      out := y.out ++ [{ d with seq := y.devSeq, creditRet := 0 }] }) s, false)
        | none => (s, false)
      else (refuseEarly p .sequence x.arrSeq.toNat s, false)
    | none => (refuseEarly p .sequence x.arrSeq.toNat s, false)
  else if ctxFree x < pktCells p then (refuseEarly p .credit (ctxFree x) s, false)
  else (onCtx c (fun y => { y with arrSeq := y.arrSeq + 1, inPut := y.inPut + pktCells p }) s, true)

/-- Steps 2 to 4 of a packet that names an enabled context (R58, R60, R63, R65), and its acceptance at once where the share and the reply queue allow
it; else it waits. -/
def deliver (tab : Nat → Option OpSpec) (p : Pkt) (s : State) : State :=
  let c := p.h.ctx
  if p.h.wantReply && p.h.notifyOnly then refuseEarly p .format 6 s
  else if p.body.length > 4076 then refuseEarly p .format 8 s
  else
    match arrive p s with
    | (s, false) => s
    | (s, true) =>
      let s := onCtx c (fun x => { x with waiting := x.waiting ++ [p] }) s
      if (s.cx c).waiting.length = 1 then
        let s := if shareAdmits c (20 + p.body.length) s || ctxResetting (s.cx c) then s else onCtx c (fun x => { x with deferred := x.deferred + 1 }) s
        tryAccept tab c s
      else onCtx c (fun x => { x with deferred := x.deferred + 1 }) s

/-! ### The commit point (R157) -/

/-- The mode a batch selects, if a member of it is a MODE_SELECT (R157). -/
def batchMode (ms : List Pkt) : Option Nat := ((ms.filter (fun p => p.op = 0x0040)).getLast?).map (fun p => rd p.body 0 1)

/-- The version under construction as the recheck of a member sees it: the mode of the effect frame, with the MODE_SELECT of its own batch (R157),
and the channels configured by earlier batches of the commit point (R269). -/
def recheckView (mode : Option Nat) (cfgd : List Nat) (p : Pkt) (s : State) : State :=
  onCom (fun c => { c with chCfgNow := cfgd, mode := if p.op = 0x0040 then c.mode else mode.getD c.mode }) s

/-- A member as a request at its commit point: the TARGET_FN of the closing packet is that of the batch (R155, R190). -/
def memberReq (e : Fn) (tgt : Bool) (p : Pkt) : Req := { h := if tgt then { p.h with targetFn := e } else p.h, b := p.body, eff := e }

/-- The members of a batch, in SEQ order, rechecked and applied on a state under construction: the state and the results, or the failure. -/
def commitMembers (tab : Nat → Option OpSpec) (e : Fn) (mode : Option Nat) (cfgd : List Nat) (tgt : Bool) : List Pkt → State → List (Pkt × Status × Nat × Rec) → Except BatchFail (State × List (Pkt × Status × Nat × Rec))
  | [], s, acc => .ok (s, acc)
  | p :: t, s, acc =>
    match tab p.op with
    | none => .error { seq := p.h.seq, status := statusCode .unsupported, detail := 0 }
    | some o =>
      let r := memberReq e tgt p
      match recheck o r (recheckView mode cfgd p s) with
      | some (st, d) => .error { seq := p.h.seq, status := statusCode st, detail := d }
      | none =>
        let x := o.run r s
        commitMembers tab e mode cfgd tgt t (onCom (fun c => { c with allow := c.allow + o.recs r s }) x.st) (acc ++ [(p, x.status, x.detail, x.data)])

/-- Replies of a committed batch (R150): their fields as they stand in `v`, the state after the commit. -/
def commitReplies (tab : Nat → Option OpSpec) (e : Fn) (v : State) : List (Pkt × Status × Nat × Rec) → State → State
  | [], s => s
  | (p, st, d, data) :: t, s =>
    let x := match tab p.op with
      | some o => (o.data, o.fin { h := p.h, b := p.body, eff := e } v data)
      | none => (false, data)
    commitReplies tab e v t (respond p x.1 st d e x.2 s)

/-- One closed batch at its commit point: applied whole, or failed with no effect (R150, R157). -/
def commitBatch (tab : Nat → Option OpSpec) (b : ClosedBatch) (s : State) : State :=
  let room (s : State) : State := if 2 ≤ b.members.length then releaseRoom tab b.ctx b.members s else s
  match commitMembers tab b.eff (batchMode b.members) s.com.chCfgNow b.targeted b.members s [] with
  | .ok (s', rs) => commitReplies tab b.eff s' rs (room s')
  | .error f => failReplies f statusOf b.members (room s)

/-! ### Parts of opcode records that many opcodes share -/

/-- The role generation at the head of the reply fields as it stands after the commit. -/
def finGen (t : Nat) : Req → State → Rec → Rec := fun r s d => le 2 (s.gen t (rd r.b 2 2)).toNat ++ d.drop 2

/-- A UNIT_REF at offset 0 of a type the opcode acts on. -/
def actsOn (t : Nat) : Rec → List URef := fun _ => [{ off := 0, types := [t], own := true }]
/-- A UNIT_REF at offset 0 of a type the opcode reads. -/
def readsUnit (t : Nat) : Rec → List URef := fun _ => [{ off := 0, types := [t], own := false }]
def noUnits : Rec → List URef := fun _ => []
def noAccess : Req → State → Option (Status × Nat) := fun _ _ => none
def noRange : Req → State → Option Nat := fun _ _ => none
def noResv : Rec → List (Nat × Nat × Nat) := fun _ => []
def noCheck : Req → State → Option (Status × Nat) := fun _ _ => none
/-- The opcode acts on an Anvil unit, or on none. -/
def toAnvil : Req → State → Bool := fun _ _ => true
def notAnvil : Req → State → Bool := fun _ _ => false
def lenIs (n : Nat) : Rec → Bool := fun b => b.length = n

/-- Execution that only answers. -/
def answer (f : Req → State → Rec) : Req → State → Res := fun r s => { st := s, status := .ok, detail := 0, data := f r s }

/-- INDEX of the UNIT_REF at offset 0. -/
def unitIx (b : Rec) : Nat := rd b 2 2

/-- The bus port that the UNIT_REF at offset 0 names lies in a range of INDEX, at the offset of INDEX (step 9): a port of another kind exists but is not the opcode's. -/
def portIn (lo hi : Nat) (b : Rec) : Nat × Bool := (18, decide (lo ≤ unitIx b) && decide (unitIx b < hi))

/-- The role generation of a unit as two octets. -/
def genOct (s : State) (t i : Nat) : Rec := le 2 (s.gen t i).toNat

/-- A read of one unit: no privilege, drawn from a snapshot (R160). -/
def readSpec (code t : Nat) (len : Nat) (resv : List (Nat × Nat × Nat)) (check : Req → State → Option (Status × Nat)) (maxData : Nat)
    (f : Req → State → Rec) : OpSpec :=
  { code := code, kind := .read, solo := true, data := true, units := if t = 0 then noUnits else readsUnit t, priv := 0, access := noAccess,
    okLen := lenIs len, resv := fun _ => resv, range := noRange, check := check, anvil := notAnvil, recs := fun _ _ => 0, maxData := fun _ => maxData, run := answer f }

end Sys2Proof.Machine
end

