-- ==== Sys2Proof/Machine/TimeBase.lean ====
section
/-! DEFINITION. Time base, compare channels and timers (06_time_base). -/

namespace Sys2Proof.Machine

/-! ### UTC (R209 to R211) -/

/-- UTC of a TB value under an anchor (R210). -/
def utcOf (a : Anchor) (b : Tb) : Int :=
  let d := sx 48 (b - a.tb).toNat
  (a.utc : Int) + (d * 20 * (1000000000 + a.rate)) / 1000000000

/-- TB of a UTC value under an anchor; none where the offset leaves 47 bits (R210). -/
def tbOfUtc (a : Anchor) (u : Nat) : Option Tb :=
  let off := (((u : Int) - a.utc) * 1000000000) / (20 * (1000000000 + a.rate))
  if off ≤ -(2 ^ 47 : Int) ∨ off ≥ (2 ^ 47 : Int) then none else some (a.tb + BitVec.ofInt 48 off)

/-- A TIME_REF (R209) at offset `off` converted under the anchor of the version under construction (R211): TB, or the refusal. -/
def timeRef (s : State) (b : Rec) (off : Nat) : Except (Status × Nat) Tb :=
  if rd b off 1 = 0 then .ok (BitVec.ofNat 48 (rd b (off + 4) 8))
  else match s.com.anchor with
    | none => .error (.state, 0)
    | some a => match tbOfUtc a (rd b (off + 4) 8) with
      | none => .error (.range, 16 + off + 4)
      | some t => .ok t

/-- Range of a TIME_REF: KIND, and bits [63:48] of a TB value. -/
def timeRefRange (b : Rec) (off : Nat) : List (Nat × Bool) :=
  [(16 + off, decide (rd b off 1 ≤ 1)), (16 + off + 4, decide (rd b off 1 ≠ 0 ∨ rd b (off + 10) 2 = 0))]

def tbReadSpec : OpSpec := { readSpec 0xE100 0 0 [] noCheck 28 (fun _ s =>
    le 6 s.tbNow.toNat ++ zeros 2 ++ le 6 s.clk.frameTb.toNat
      ++ [BitVec.ofNat 8 (b2n s.time.restored + 2 * b2n s.com.anchor.isSome), 0]
      ++ le 4 (if s.time.restored then s.time.errBound else 0)
      ++ (match s.com.anchor with | none => zeros 8 | some a => leI 8 (utcOf a s.tbNow))) with }

/-- TIME_ANCHOR (R210, R212, R227): SET puts the anchor in force and clears TB_RESTORED, CLEAR removes it. -/
def timeAnchorSpec : OpSpec :=
  { code := 0xE101, kind := .commit, solo := false, data := false, units := noUnits, priv := 2, access := noAccess, okLen := lenIs 24,
    resv := fun _ => [(1, 3, 0xFFFFFF), (18, 2, 0xFFFF)],
    range := fun r _ => firstBad [(16, decide (rd r.b 0 1 ≤ 1)),
      (36, decide (-300000 ≤ sx 32 (rd r.b 20 4) ∧ sx 32 (rd r.b 20 4) ≤ 300000))],
    check := noCheck, anvil := notAnvil, recs := fun _ _ => 0, maxData := fun _ => 0,
    run := fun r s =>
      let s' := if rd r.b 0 1 = 0 then
          onTime (fun t => { t with restored := false })
            (onCom (fun c => { c with anchor := some { utc := rd r.b 4 8, tb := BitVec.ofNat 48 (rd r.b 12 6), rate := sx 32 (rd r.b 20 4) } }) s)
        else onCom (fun c => { c with anchor := none }) s
      { st := s', status := .ok, detail := 0, data := [] } }

/-! ### Timers (R219 to R223) -/

def tmrDef : Nat → Timer := Timer.initial
def State.tmr (s : State) (n : Nat) : Timer := tget tmrDef s.time.tmr n
def onTmr (n : Nat) (f : Timer → Timer) (s : State) : State := onTime (fun t => { t with tmr := tmod tmrDef t.tmr n f }) s

def tmrClk (c : Rec) : Nat := bits (rd c 1 1) 0 3
def tmrPre (c : Rec) : Nat := rd c 2 1
def tmrInput (c : Rec) : Nat := bits (rd c 3 1) 0 4
def tmrEdge (c : Rec) : Nat := bits (rd c 3 1) 4 2
def tmrMaster (c : Rec) : Nat := bits (rd c 4 1) 0 5
def tmrMasterEv (c : Rec) : Nat := bits (rd c 5 1) 0 2
def tmrSlave (c : Rec) : Nat := bits (rd c 6 1) 0 3
def tmrOneShot (c : Rec) : Bool := bit (rd c 7 1) 0
def tmrTop (c : Rec) : Nat := rd c 8 3
def tmrMatch (c : Rec) : Nat := rd c 11 3

/-- Timers coupled to master `n` by an event (1 OVF, 2 MATCH). -/
def coupled (s : State) (n ev : Nat) : List Nat :=
  (List.range 16).filter (fun k => let c := (s.tmr k).cfg; tmrMaster c = n && bit (tmrMasterEv c) (ev - 1))

/-- An event of timer `n`: its notification and the master events of the next tick (R220). -/
def tmrEvent (n ev : Nat) (s : State) : State :=
  let t := s.tmr n
  let s := onTime (fun x => { x with mev := x.mev ++ coupled s n ev }) s
  if bit (rd t.cfg 7 1) ev then notify t.by_ 0xE102 ([BitVec.ofNat 8 n, BitVec.ofNat 8 ev] ++ le 3 t.count ++ [0]) s else s

/-- A count passes from TOP to 0 (R221 step 2). -/
def tmrOverflow (n : Nat) (s : State) : State :=
  tmrEvent n 1 (onTmr n (fun t => { t with count := 0, out := false, ovfTotal := t.ovfTotal + 1, running := !(tmrOneShot t.cfg) }) s)

/-- A count that reached MATCH (R221 step 3). -/
def tmrMatched (n : Nat) (s : State) : State := tmrEvent n 2 (onTmr n (fun t => { t with out := true }) s)

/-- GATE permits counting only while the master's OUT is 1 (R221). -/
def gateOpen (s : State) (c : Rec) : Bool := !(tmrSlave c = 1) || (s.tmr (tmrMaster c)).out

/-- A count of timer `n`: steps 2 and 3 of R221. -/
def tmrCount (n : Nat) (s : State) : State :=
  let t := s.tmr n
  let s := if t.count = tmrTop t.cfg then tmrOverflow n s else onTmr n (fun t => { t with count := (t.count + 1) % 2 ^ 24 }) s
  if (s.tmr n).count = tmrMatch t.cfg then tmrMatched n s else s

/-- Step 1 of R221: a RESET event sets the count to 0, a START event starts a timer that has a clock. -/
def tmrMasterAct (n : Nat) (s : State) : State :=
  let c := (s.tmr n).cfg
  if tmrSlave c = 2 then onTmr n (fun t => { t with count := 0, out := false }) s
  else if tmrSlave c = 3 then onTmr n (fun t => { t with running := decide (tmrClk c ≠ 0) }) s
  else s

/-- The clock source of a timer gives a count at TB value `tb`: a TB-clocked one every PRESCALE + 1 ticks, an input's edge when it is due (R222), a master event when it acts. -/
def tmrGives (t : Timer) (tb : Tb) (d : Bool) : Bool :=
  if tmrClk t.cfg = 1 then decide (tmrPre t.cfg ≤ t.phase) else if tmrClk t.cfg = 2 then t.edges.contains tb else tmrClk t.cfg = 3 && d

/-- The prescaler and the edges of a timer after the tick `tb`. -/
def tmrClocked (tb : Tb) (t : Timer) : Timer :=
  { t with phase := if tmrClk t.cfg = 1 && t.running then (if tmrPre t.cfg ≤ t.phase then 0 else t.phase + 1) else t.phase,
           edges := t.edges.filter (fun e => !(isPast tb e)) }

/-- Timer `n` at one tick, `due` being the timers a master event reaches (R221). DEDUCED: GATE sees the master's OUT as the tick `s0` begins, as every other link between timers acts
one tick later (R220). -/
def tmrStep (s0 : State) (due : List Nat) (s : State) (n : Nat) : State :=
  let d := due.contains n
  let c := (s.tmr n).cfg
  let s := if d then tmrMasterAct n s else s
  let t := s.tmr n
  let s := onTmr n (tmrClocked s.tbNow) s
  let s := if t.running && tmrGives t s.tbNow d && gateOpen s0 c && !(d && tmrSlave c = 2) then tmrCount n s else s
  if d && tmrSlave c = 4 then onTmr n (fun t => { t with capt := t.count, captTb := s.tbNow }) s else s

/-- The TB island is powered: its timers run through a Hearth restart, and stand still in park (R205, R223). -/
def State.islandOn (s : State) : Bool := s.hearthUp || decide (s.pwr.state < 2)

/-- TB is `t`, ahead of where it was; the park counter runs on at its 32,768 Hz (R224). DESIGN CHOICE: between the readings that events give, at its nominal rate (log 46). -/
def tbTo (t : Tb) (x : Time) : Time :=
  let n := x.parkFrac + 32768 * (t - x.tb).toNat
  { x with tb := t, park := x.park + n / 50000000, parkFrac := n % 50000000 }

/-- One tick of the TB island: TB advances, the master events due act, the timers count (R204, R220, R221). -/
def tickOnce (s : State) : State :=
  if s.islandOn then
    let due := s.time.mev
    let s := onTime (fun t => { tbTo (t.tb + 1) t with mev := [] }) s
    (List.range 16).foldl (tmrStep s due) s
  else onTime (fun t => tbTo (t.tb + 1) t) s

/-- No timer counts ticks, no edge is to be counted and no master event is due. -/
def timersIdle (s : State) : Bool :=
  !(s.islandOn) || (s.time.mev.isEmpty && s.time.tmr.all (fun e => !(tmrClk e.2.cfg = 1 && e.2.running) && e.2.edges.isEmpty))

/-- `n` ticks, in one where no timer has anything to do. -/
def tickN : Nat → State → State
  | 0, s => s
  | n + 1, s => if timersIdle s then onTime (fun t => tbTo (t.tb + BitVec.ofNat 48 (n + 1)) t) s else tickN n (tickOnce s)

/-- Time moves forward to `t`, the timers counting its ticks; an instant already past leaves it. -/
def advTo (t : Tb) (s : State) : State := if isPast s.time.tb t then s else tickN (t - s.time.tb).toNat s

/-- Time moves forward to a tick of the frame in progress. -/
def atTick (n : Nat) (s : State) : State := advTo (s.tickTb n) s

/-- Time moves forward to a tick of Anvil's frame in progress. -/
def atTickA (n : Nat) (s : State) : State := advTo (s.time.anvilTb + BitVec.ofNat 48 n) s

/-! ### Compare channels (R213 to R218) -/

def cmpRunDef : Nat → CmpRun := fun _ => CmpRun.initial
def State.cmpRun (s : State) (n : Nat) : CmpRun := tget cmpRunDef s.time.cmp n
def onCmpRun (n : Nat) (f : CmpRun → CmpRun) (s : State) : State := onTime (fun t => { t with cmp := tmod cmpRunDef t.cmp n f }) s

/-- The endpoint of the compare engine (R216). -/
def cmpEngine : Nat := 3 * 4096 + 0x0E1

def cmpArm (b : Rec) : Nat := bits (rd b 6 1) 0 2
def cmpAction (b : Rec) : Nat := bits (rd b 7 1) 0 3

/-- Whether a PERIOD is within R215 for an ACTION. -/
def periodOk (action p : Nat) : Bool :=
  p = 0 || (decide (p ≤ 2 ^ 47 - 1) && decide ((if action % 4 = 0 then 2 else 200) ≤ p))

def cmpSetRange (b : Rec) : Option Nat :=
  let armed := cmpArm b = 1
  firstBad ([(22, decide (cmpArm b ≠ 3)), (23, !(armed && cmpAction b = 0)),
     (24, bit (cmpAction b) 1 || rd b 8 2 = 0), (26, bit (cmpAction b) 2 || rd b 10 1 = 0)]
    ++ (if armed then timeRefRange b 12 else []) ++ [(40, periodOk (cmpAction b) (rd b 24 8))])

/-- The arming a channel has, or is to have with the version under construction: value and period. -/
def cmpArmed (s : State) (n : Nat) : Option (Tb × Nat) :=
  match (s.com.cmpOf n).arm with
  | some a => a
  | none => let x := s.cmpRun n; if x.armed then some (x.value, x.period) else none

/-- GEN and VALUE of a CMP_SET reply. -/
def cmpReply (s : State) (n : Nat) : Rec := genOct s 7 n ++ le 6 (((cmpArmed s n).map (·.1.toNat)).getD 0)

/-- CMP_SET (R213, R214): the binding, whose change is a reassignment, and the arming of the version it commits into. DEDUCED: an arming that is kept has a PERIOD within R215 for
the new ACTION too, else the request is refused with RANGE for its PERIOD (log 46). -/
def cmpSetSpec : OpSpec :=
  { code := 0xE102, kind := .commit, solo := false, data := true, units := actsOn 7, priv := 1, access := noAccess, okLen := lenIs 32,
    resv := fun b => [(6, 1, 0xFC), (7, 1, 0xF8), (8, 2, 0xE000), (10, 1, 0xF0), (11, 1, 0xFF)] ++ (if cmpArm b = 1 then [(13, 3, 0xFFFFFF)] else []),
    range := fun r _ => cmpSetRange r.b,
    check := fun r s =>
      if cmpArm r.b = 0 && !(periodOk (cmpAction r.b) (((cmpArmed s (unitIx r.b)).map (·.2)).getD 0)) then some (.range, 40)
      else if bit (cmpAction r.b) 1 && qProducer (s.qcfg (rd r.b 8 2)) ≠ cmpEngine then some (.state, 0)
      else if cmpArm r.b = 1 then match timeRef s r.b 12 with | .error e => some e | .ok _ => none
      else none,
    anvil := notAnvil, recs := fun _ _ => 0, maxData := fun _ => 8,
    run := fun r s =>
      let n := unitIx r.b
      let c := s.com.cmpOf n
      let a := cmpAction r.b
      let arm : Option (Option (Tb × Nat)) :=
        if cmpArm r.b = 0 then c.arm else if cmpArm r.b = 2 then some none
        else match timeRef s r.b 12 with | .ok t => some (some (t, rd r.b 24 8)) | .error _ => c.arm
      let changed := c.action ≠ a || c.queue ≠ rd r.b 8 2 || c.timer ≠ rd r.b 10 1
      let s := onCom (fun m => { m with cmp := tput cmpDef m.cmp n { action := a, queue := rd r.b 8 2, timer := rd r.b 10 1, arm := arm } }) s
      let s := if changed then reassign 7 n s else s
      { st := s, status := .ok, detail := 0, data := cmpReply s n },
    fin := fun r s _ => cmpReply s (unitIx r.b) }

def cmpStatusSpec : OpSpec := readSpec 0xE103 7 6 [] noCheck 28 (fun r s =>
    let n := unitIx r.b
    let x := s.cmpRun n
    genOct s 7 n ++ [BitVec.ofNat 8 (s.owner 7 n), BitVec.ofNat 8 ((s.com.cmpOf n).action + 8 * b2n x.armed)] ++ le 6 (if x.armed then x.value.toNat else 0)
      ++ zeros 2 ++ le 8 (if x.armed then x.period else 0) ++ le 4 x.fires.toNat ++ le 4 x.missedTotal.toNat)

/-- The committed values and roles of the version that governs the frame in progress (R214): those its snapshot holds. -/
def State.inForce (s : State) : State := match s.snaps with | n :: _ => { s with com := n.com, roles := n.roles } | [] => s

/-- A compare channel fires at `t` under the version of the frame in progress (R214 to R216): re-armed or disarmed, its event notified, queued and given to its timer. -/
def cmpFireAt (t : Tb) (s : State) (n : Nat) : State :=
  let x := s.cmpRun n
  let v := s.inForce
  let c := v.com.cmpOf n
  let e := (t - x.value).toNat
  let m := if x.period = 0 then 1 else e / x.period + 1
  let missed := m - 1
  let x' : CmpRun :=
    { x with fires := x.fires + 1, missedTotal := x.missedTotal + BitVec.ofNat 32 missed, late := false,
             armed := decide (x.period ≠ 0), value := if x.period = 0 then x.value else x.value + BitVec.ofNat 48 (m * x.period) }
  let s := onCmpRun n (fun _ => x') s
  let data := [BitVec.ofNat 8 n, BitVec.ofNat 8 (b2n x.late)] ++ genOct v 7 n ++ le 6 x.value.toNat ++ le 6 t.toNat ++ le 4 missed
  let s := if bit c.action 0 then notifyAt (v.owner 7 n) 0xE101 (s.fnOf t) t data s else s
  let s := if bit c.action 1 then admitEntry c.queue data s else s
  if bit c.action 2 then onTime (fun y => { y with mev := y.mev ++ [c.timer] }) s else s

/-- The instant at which an armed channel fires: its value, or tick 200 where that was past when its version began. -/
def cmpDue (s : State) (n : Nat) : Tb := if (s.cmpRun n).late then s.tickTb 200 else (s.cmpRun n).value

/-- Armed channels before `n` that fire in the same tick. -/
def cmpBefore (s : State) (n : Nat) : List Nat := (List.range n).filter (fun m => (s.cmpRun m).armed && cmpDue s m = cmpDue s n)

/-- COMPARE_FIRE: channel `n`, armed, fires, after the lower channels of the same tick (R217): at its value, or where that is past when its version began at tick 200 with LATE.
Not before a frame has started since Hearth's start (R218). -/
def execCompareFire (n : Nat) (s : State) : Host.Outcome State Fault Refusal :=
  if (s.cmpRun n).armed && s.hearthUp && !s.time.cmpHold then
    let t := cmpDue s n
    .next ((cmpBefore s n ++ [n]).foldl (cmpFireAt t) (advTo t s))
  else .next s

/-- In the first frame after a Hearth start a channel whose value has passed meanwhile is late (R218). -/
def cmpResume (s : State) : State :=
  if s.time.cmpHold then
    onTime (fun t => { t with cmpHold := false, cmp := t.cmp.map (fun e => (e.1, { e.2 with late := e.2.late || (e.2.armed && isPast s.tbNow e.2.value) })) }) s
  else s

/-- The armings of the version whose frame begins (R214): armed at tick 0, the past test made there. -/
def cmpFrameStart (s : State) : State :=
  let s := cmpResume s
  let go (s : State) (e : Nat × CmpCfg) : State :=
    match e.2.arm with
    | none => s
    | some a =>
      let s := onCmpRun e.1 (fun x => match a with
        | none => { x with armed := false, late := false }
        | some (v, p) => { x with armed := true, value := v, period := p, late := isPast s.tbNow v }) s
      onCom (fun c => { c with cmp := tmod cmpDef c.cmp e.1 (fun y => { y with arm := none }) }) s
  s.com.cmp.foldl go s

/-! ### Edges, configuration and events of the timers (R222, R223) -/

/-- Edges of the direct inputs do not reach Hearth: the Tongs link is down. -/
def edgesLost (s : State) : Bool := s.link.lost || !s.hearthUp

/-- A filtered edge of a direct input as the timers count it (R222): 500 ns after it occurs, and not while the link is down. -/
def tmrDirEdge (i : Nat) (rising : Bool) (s : State) : State :=
  (List.range 16).foldl (fun s n =>
    let c := (s.tmr n).cfg
    if tmrClk c = 2 && tmrInput c = i && bit (tmrEdge c) (if rising then 0 else 1) && !(edgesLost s) then onTmr n (fun t => { t with edges := t.edges ++ [s.tbNow + 25] }) s
    else s) s

/-- While the link is down every timer that counts edges has a gap (R222). -/
def edgeGaps (s : State) : State :=
  (List.range 16).foldl (fun s n => if tmrClk (s.tmr n).cfg = 2 then onTmr n (fun t => { t with edgeGap := true }) s else s) s

/-- A committed TMR_CFG at tick 0 of its frame (R223): the count restarts when CLK_SRC, TOP or SLAVE changes. A count that is kept keeps whether it runs. -/
def tmrApply (n : Nat) (s : State) : State :=
  let new := s.com.tmrCfgOf n
  let t := s.tmr n
  if t.cfg = new && !(s.com.tmrNew.contains n) then s
  else
    let restart := tmrClk t.cfg ≠ tmrClk new || tmrTop t.cfg ≠ tmrTop new || tmrSlave t.cfg ≠ tmrSlave new
    onTmr n (fun t =>
      { t with cfg := new, count := if restart then 0 else t.count, phase := if restart then 0 else t.phase, edgeGap := tmrClk new = 2 && edgesLost s,
               edges := if restart then [] else t.edges, ovfTotal := 0, by_ := tget (fun _ => 0) s.com.tmrBy n,
               running := tmrClk new ≠ 0 && (if restart then decide (tmrSlave new ≠ 3) else t.running) }) s

def tmrFrameStart (s : State) : State := onCom (fun c => { c with tmrNew := [] }) ((List.range 16).foldl (fun s n => tmrApply n s) s)

def tmrConfigSpec : OpSpec :=
  { code := 0xE104, kind := .commit, solo := false, data := false, units := noUnits, priv := 2, access := noAccess, okLen := lenIs 16,
    resv := fun _ => [(0, 1, 0xF0), (1, 1, 0xF8), (3, 1, 0xC0), (4, 1, 0xE0), (5, 1, 0xFC), (6, 1, 0xF8), (7, 1, 0xF8), (14, 2, 0xFFFF)],
    range := fun r _ => firstBad [(17, decide (tmrClk r.b ≤ 3)), (19, !(tmrClk r.b = 2 && tmrEdge r.b = 0)),
      (20, decide (tmrMaster r.b < 16 ∨ tmrMaster r.b = 31)), (22, decide (tmrSlave r.b ≤ 4))],
    check := noCheck, anvil := notAnvil, recs := fun _ _ => 0, maxData := fun _ => 0,
    run := fun r s =>
      { st := onCom (fun c => { c with tmrCfg := tput tmrCfgReset c.tmrCfg (rd r.b 0 1 % 16) r.b,
                                       tmrBy := tput (fun _ => 0) c.tmrBy (rd r.b 0 1 % 16) r.h.ctx, tmrNew := (rd r.b 0 1 % 16) :: c.tmrNew }) s, status := .ok, detail := 0, data := [] } }

def tmrStatusSpec : OpSpec := readSpec 0xE105 0 4 [(0, 1, 0xF0), (1, 3, 0xFFFFFF)] noCheck 36 (fun r s =>
    let t := s.tmr (rd r.b 0 1 % 16)
    t.cfg ++ le 3 t.count ++ [BitVec.ofNat 8 (b2n t.running + 2 * b2n t.out + 4 * b2n t.edgeGap)] ++ le 3 t.capt ++ [0] ++ le 6 t.captTb.toNat
      ++ zeros 2 ++ le 4 t.ovfTotal.toNat)

/-- Counts of timer `n` from its count to `v`, through TOP where `v` does not lie above it. -/
def tmrCountsTo (t : Timer) (v : Nat) : Nat := if t.count < v then v - t.count else tmrTop t.cfg + 1 - t.count + v

/-- Timer `n` runs on to its count `v`: a TB-clocked timer counts its ticks, one that counts edges takes those of its input that are due, one that counts master events the next. -/
def tmrRunTo (n v : Nat) (s : State) : State :=
  let t := s.tmr n
  let k := tmrCountsTo t v
  if !(t.running && gateOpen s t.cfg) then s
  else if tmrClk t.cfg = 1 then advTo (s.tbNow + BitVec.ofNat 48 (k * (tmrPre t.cfg + 1) - t.phase)) s
  else if tmrClk t.cfg = 2 then (match t.edges[k - 1]? with | some e => advTo e s | none => s)
  else if tmrClk t.cfg = 3 && k = 1 && s.time.mev.contains n then tickOnce s
  else s

/-- TIMER_OVERFLOW: the count of timer `n`, at TOP, passes to 0 and raises OVF. A timer that is not counting takes none. -/
def execTimerOverflow (n : Nat) (s : State) : Host.Outcome State Fault Refusal := .next (if n < 16 then tmrRunTo n 0 s else s)

/-- TIMER_MATCH: the count of timer `n` reaches MATCH. -/
def execTimerMatch (n : Nat) (s : State) : Host.Outcome State Fault Refusal := .next (if n < 16 then tmrRunTo n (tmrMatch (s.tmr n).cfg) s else s)

/-- TIMER_MASTER_EVENT: a master event due for timer `n` acts, at the tick after its cause. -/
def execTimerMasterEvent (n : Nat) (s : State) : Host.Outcome State Fault Refusal := .next (if s.time.mev.contains n then tickOnce s else s)

end Sys2Proof.Machine
end

