-- ==== Sys2Proof/Machine/SchedCmds.lean ====
section
/-! DEFINITION. Schedule modes at run time (R179 to R196) and the schedule opcodes but for the checker (R203). -/

namespace Sys2Proof.Machine

/-! ### Dispositions (R179, R191) -/

/-- The DETAIL of a SCHEDULE refusal for want of an entry in the mode. DEDUCED: while the built-in schedule runs a command that needs an entry needs an image, so the reason is
NO_IMAGE (log 27). -/
def noEntry (s : State) (reason : Nat) : Nat := if s.sched.img.isNone then 7 else reason

/-- Why a change of a channel is not permitted in the mode of the version under construction: SCHEDULE reason NO_START (R179, R191). -/
def dispRefuses (img : Option (Tab Octet)) (m n : Nat) (turnOff : Bool) : Bool :=
  let d := (chanEnt img m n).disp
  if d = 1 then false else if d = 2 then !turnOff else true

/-- The members of a channel's simultaneity group that are committed on (R181), a bridge pair counting once. -/
def chanOn (c : Com) (n : Nat) : Bool :=
  let m := bits (rd (c.chCfgOf n) 1 1) 0 3
  if m = 3 then (c.indOf n).engage
  else if m = 4 then decide (2 ≤ (c.brOf ((n - 48) / 2)).drive)
  else (c.chOf n).on

def memberOnce (c : Com) (n : Nat) : Bool := chanOn c n && !(bits (rd (c.chCfgOf n) 1 1) 0 3 = 4 && n % 2 = 1)

/-- Whether the group of channel `n` has more than MAX_ON members on in a version (R181). -/
def simulOver (img : Option (Tab Octet)) (c : Com) (n : Nat) : Bool :=
  match simulEnt img c.mode (chanEnt img c.mode n).group with
  | none => false
  | some (members, maxOn) => decide (maxOn < ((List.range 64).filter (fun i => members.testBit i && memberOnce c i)).length)

/-- APPLY_FN (R189): the first start frame at or after the effect frame in the mode of the version. -/
def applyFn (s : State) (n : Nat) (e : Fn) : Fn :=
  let x := chanEnt s.sched.img s.com.mode n
  nextStart x.period x.phase e

/-- OK, or LATE with the frames late where a TARGET_FN named no start frame (R190). -/
def lateStatus (r : Req) (f : Fn) : Status × Nat :=
  if r.h.targetFn ≠ 0 ∧ f ≠ r.eff then (.late, satN 65535 (f - r.eff).toNat) else (.ok, 0)

/-! ### Mode switch (R194, R195) -/

/-- Hearth's committed values at a switch into version T (R195): FORCE_OFF channels are committed off; a change not yet applied that the new
disposition forbids gives way to the applied value, and the owner receives SCHED_DROPPED. FORCE_OFF forbids no turn-off: the switch itself makes it. -/
def switchChannel (m : Nat) (t : Fn) (s : State) (n : Nat) : State :=
  let disp := (chanEnt s.sched.img m n).disp
  let mode := bits (rd (s.com.chCfgOf n) 1 1) 0 3
  let bad (off : Bool) : Bool := if disp = 3 then !off else dispRefuses s.sched.img m n off
  let drop (s : State) : State :=
    notify (s.owner 1 n) 0xE001 ([1, 0] ++ le 2 n ++ le 4 t.toNat) (onSched (fun x => { x with dropped := x.dropped + 1 }) s)
  if mode ≤ 2 then
    let a := tget chanDef s.rep.ch n
    let v := s.com.chOf n
    let s := if (v.on ≠ a.appOn || v.dset ≠ a.appDset) && bad (a.appOn && !v.on) then
        drop (onCom (fun c => { c with ch := tput chValDef c.ch n { c.chOf n with on := a.appOn, dset := a.appDset } }) s)
      else s
    if disp = 3 then onCom (fun c => { c with ch := tmod chValDef c.ch n (fun v => { v with on := false }) }) s else s
  else if mode = 3 then
    let k := tget coilDef s.rep.coil n
    let i := s.com.indOf n
    let s := if (i.engage ≠ k.appEngage || i.count ≠ k.appCount) && bad (k.appEngage && !i.engage) then
        drop (onCom (fun c => { c with ind := tput indDef c.ind n { engage := k.appEngage, count := k.appCount } }) s)
      else s
    if disp = 3 then onCom (fun c => { c with ind := tmod indDef c.ind n (fun v => { v with engage := false }) }) s else s
  else if mode = 4 ∧ n % 2 = 0 then
    let b := (n - 48) / 2
    let k := tget bridgeDef s.rep.br b
    let w := s.com.brOf b
    let s := if w ≠ k.app && bad (decide (w.drive ≤ 1)) then drop (onCom (fun c => { c with br := tput brDef c.br b k.app }) s) else s
    if disp = 3 then onCom (fun c => { c with br := tmod brDef c.br b (fun v => { v with drive := 1 }) }) s else s
  else s

/-- A switch to mode `m` in version `t`: committed and stored (R194). -/
def switchMode (m : Nat) (t : Fn) (s : State) : State :=
  let s := onSched (fun x => { x with switchTo := some (m, t), storedMode := m }) (onCom (fun c => { c with mode := m }) s)
  (List.range 64).foldl (switchChannel m t) s

/-- MODE_SELECT (R194). -/
def modeSelectSpec : OpSpec :=
  { code := 0x0040, kind := .commit, solo := false, data := true, units := noUnits, priv := 0,
    access := fun r s => let x := s.cx r.h.ctx; if ctxPriv x = 2 || ctxMode x then none else some (.denied, 0xFFFF)
    okLen := lenIs 4, resv := fun _ => [(0, 1, 0xF8), (1, 1, 0xF8), (2, 2, 0xFFFF)],
    range := fun r s => match s.sched.img with
      | none => none
      | some i => if rd r.b 0 1 < imgModes i then none else some 16
    check := fun r s =>
      if s.sched.img.isNone || rd r.b 1 1 ≠ s.com.mode then some (.state, 0)
      else if (pendingSwitch s).isSome then some (.busy, 0) else none,
    anvil := notAnvil, recs := fun _ _ => 0, maxData := fun _ => 4,
    run := fun r s => { st := switchMode (rd r.b 0 1) r.eff s, status := .ok, detail := 0, data := [BitVec.ofNat 8 (rd r.b 0 1), 0, 0, 0] } }

/-! ### Status opcodes -/

def schedStatusSpec : OpSpec := readSpec 0xE000 0 0 [] noCheck 32 (fun r s =>
    let i := s.sched.img
    let p := pendingSwitch s
    le 4 ((i.map imgSchedId).getD 0) ++ [BitVec.ofNat 8 s.com.mode, BitVec.ofNat 8 ((p.map (·.1)).getD 255), 0, 0]
      ++ le 4 ((p.map (·.2.toNat)).getD 0) ++ [BitVec.ofNat 8 ((i.map imgModes).getD 1), BitVec.ofNat 8 ((i.map imgBootMode).getD 0), 0, 0]
      ++ le 4 s.sched.budgetTraps.toNat ++ le 4 s.sched.misses.toNat ++ le 4 (s.cx r.h.ctx).deferred ++ le 4 s.sched.dropped.toNat)

def schedUnitSpec : OpSpec :=
  { readSpec 0xE001 1 8 [(6, 1, 0xF8), (7, 1, 0xFF)]
      (fun _ s => if s.sched.img.isNone then some (.state, 0) else none) 12 (fun r s =>
      let m := rd r.b 6 1
      let n := unitIx r.b
      if rd r.b 0 1 = 1 then
        let e := chanEnt s.sched.img m n
        [BitVec.ofNat 8 e.disp, BitVec.ofNat 8 e.slot, BitVec.ofNat 8 e.period, BitVec.ofNat 8 e.phase, BitVec.ofNat 8 e.group, 0, 0, 0]
          ++ le 4 (if e.disp = 0 then 0 else (nextStart e.period e.phase s.fn).toNat)
      else match taskEnt s.sched.img m n with
        | none => zeros 12
        | some (i, o) =>
          [1, BitVec.ofNat 8 (ird i (o + 2) 1), BitVec.ofNat 8 (ird i (o + 3) 1), BitVec.ofNat 8 (ird i (o + 4) 1), BitVec.ofNat 8 (ird i (o + 1) 1 % 4)]
            ++ le 3 (ird i (o + 6) 3) ++ le 4 (nextStart (ird i (o + 3) 1) (ird i (o + 4) 1) s.fn).toNat) with
    units := fun _ => [{ off := 0, types := [1, 5], own := false }]
    range := fun r s => match s.sched.img with
      | none => none
      | some i => if rd r.b 6 1 < imgModes i then none else some 22 }

end Sys2Proof.Machine
end

