-- ==== Sys2Proof/Machine/Pins.lean ====
section
/-! DEFINITION. What the pins of channels, coils and bridges do: turning on and off, interruptions, limp-home drive (R238 to R252, R333). -/

namespace Sys2Proof.Machine

/-! ### Records as Anvil executes them -/
def State.cfA (s : State) (n : Nat) : Rec := s.anvil.vals.chCfgOf n
def State.pfA (s : State) (n : Nat) : Rec := s.anvil.vals.protOf n
def State.kfA (s : State) (n : Nat) : Rec := s.anvil.vals.coilCfgOf n
def State.bfA (s : State) (b : Nat) : Rec := s.anvil.vals.brCfgOf b
/-- Control mode of a channel at Anvil. -/
def State.modeA (s : State) (n : Nat) : Nat := cfMode (s.cfA n)
/-- The bridge of a B-class channel (R230), and its even channel (R341). -/
def brOfCh (n : Nat) : Nat := (n - 48) / 2
def brCh (b : Nat) : Nat := 48 + 2 * b

/-- Protection flags that hold a channel off (R251 rank 2, R302): OC_TRIP, OC_LATCH, WIRE_TRIP, TSD, DTJ, CRANK_OFF. -/
def protHolds (p : Nat) : Bool := bit p 0 || bit p 1 || bit p 3 || bit p 4 || bit p 5 || bit p 7
def setBit (p i : Nat) : Nat := if bit p i then p else p + 2 ^ i
def clrBit (p i : Nat) : Nat := if bit p i then p - 2 ^ i else p
/-- `p` without the bits of `m`. -/
def clrMask (p m : Nat) : Nat := (List.range 16).foldl (fun p i => if bit m i then clrBit p i else p) p

/-- Whether a channel conducts now: a coil in RISE, PULL and HOLD but from IP on to the chop boundary where PULL begins (R313); reverse battery turns on the H and M classes by itself (R297). -/
def Anvil.conducting (a : Anvil) (tb : Tb) (n : Nat) : Bool :=
  let c := tget chanDef a.ch n
  let m := cfMode (a.vals.chCfgOf n)
  if a.sup.revOn then decide (n < 32)
  else if m = 3 then let k := tget coilDef a.coil n; decide (1 ≤ k.phase ∧ k.phase ≤ 3) && !(k.phase = 1 && k.pullTb.any (fun t => !(isPast tb t)))
  else if m = 4 then let b := tget bridgeDef a.br (brOfCh n); decide (2 ≤ b.st) && decide (10 ≤ b.da * 2500 / 4096)
  else c.level && (match c.lampOff with | none => true | some t => !(isPast tb t))

def State.conducting (s : State) (n : Nat) : Bool := s.anvil.conducting s.tbNow n

/-! ### Events -/

/-- IND_EVENT (R340): to the owner while NOTIFY_IND is set, and always for DONE, INTERRUPTED and HOT_REFUSED. -/
def indEvent (n ev : Nat) (tb : Tb) (s : State) : State :=
  let k := s.coil n
  if kfNotify (s.kfA n) || ev = 4 || ev = 6 || ev = 7 then
    notifyAt (s.owner 1 n) 0x3001 (s.fnOf tb) tb
      ([BitVec.ofNat 8 n, BitVec.ofNat 8 ev] ++ genOct s 1 n ++ le 4 (if bit k.flags 0 then k.tClose else 0) ++ fitN 2 k.kinkMv ++ fitI 2 k.tc) s
  else s

/-- BR_EVENT (R376): while NOTIFY_BR is set, and always for HOMED, STALL, PINCH, PINCH_DONE, LIMIT and OPEN_PHASE. -/
def brEvent (b ev : Nat) (s : State) : State :=
  let s := onBridge b (fun k => { k with eventTb := s.tbNow }) s
  let k := s.bridge b
  if bfNotify (s.bfA b) || (2 ≤ ev && ev ≤ 7) then
    notify (s.owner 1 (brCh b)) 0x4001
      ([BitVec.ofNat 8 b, BitVec.ofNat 8 ev] ++ genOct s 1 (brCh b) ++ leI 3 k.pos ++ [0] ++ fitN 2 k.iK ++ fitI 2 k.pinchPi) s
  else s

/-- CH_PROT (R305): to the owner while NOTIFY_PROT is set. -/
def protEvent (n ev i : Nat) (tb : Tb) (s : State) : State :=
  if pfNotify (s.pfA n) then
    notifyAt (s.owner 1 n) 0x2040 (s.fnOf tb) tb ([BitVec.ofNat 8 n, BitVec.ofNat 8 ev] ++ genOct s 1 n ++ le 2 i ++ zeros 2) s
  else s

/-- CH_PROT of an event at which no conversion gives the current: it is a free value. -/
def protEventFree (n ev : Nat) (s : State) : State :=
  if pfNotify (s.pfA n) then protEvent n ev (s.freeNat % 65536) s.tbNow (useFree s) else s

/-! ### Turning off -/

/-- An output that is on at `t` has been so for 10 us without a break in the frame that began at `fs` (R255). -/
def onFor (t fs : Tb) (c : Chan) : Bool :=
  let a := if isPast c.lastEdge fs then c.lastEdge else fs
  isPast t a && decide (500 ≤ (t - a).toNat)

/-- The level of an output falls at `t`. -/
def chanFall (t fs : Tb) (c : Chan) : Chan :=
  if c.level then { c with level := false, offSince := t, lastEdge := t, wasOn := c.wasOn || onFor t fs c } else c

/-- The end of a LAMP pulse that has passed at `now` is taken into the output's level. -/
def lampFell (now fs : Tb) (c : Chan) : Chan :=
  match c.lampOff with
  | some t => if isPast now t then { chanFall t fs c with lampOff := none } else c
  | none => c
def lampSettle (n : Nat) (s : State) : State := onChan n (lampFell s.tbNow s.time.anvilTb) s

/-- The output of a SCHED, PIN or LAMP channel turns off; `keep` leaves its drive, as a direct input's or a pulse's low level does. -/
def pinOff (n : Nat) (keep : Bool) (s : State) : State :=
  onChan n (fun c =>
    { chanFall s.tbNow s.time.anvilTb (lampFell s.tbNow s.time.anvilTb c) with
      drive := c.drive && keep, fol := c.fol && keep, lampOff := none, contSince := if keep then c.contSince else none, edgeAt := if keep then c.edgeAt else none }) s

/-! ### Chop and PWM periods (R180, R313, R343) -/

/-- Ticks since the last chop boundary of a channel, at an instant. -/
def chopPos (s : State) (n : Nat) (t : Tb) : Nat :=
  let ph := ((pwmEnt s.sched.img 2 n).map (·.2)).getD 0
  ((t - s.time.anvilTb - BitVec.ofNat 48 ph).toNat + (2500 - 2 ^ 48 % 2500) * b2n (!(isPast t (s.time.anvilTb + BitVec.ofNat 48 ph)))) % 2500

/-- The first chop boundary at or after an instant. -/
def chopAtOrAfter (s : State) (n : Nat) (t : Tb) : Tb := t + BitVec.ofNat 48 ((2500 - chopPos s n t) % 2500)

/-! ### The duty of a bridge (R350 to R355) -/

/-- Distance left to a goal position in a direction; none where it is reached or passed. -/
def distLeft (dir : Nat) (pos goal : Int) : Option Nat :=
  let d := if dir = 2 then goal - pos else pos - goal
  if d < 0 then none else some d.toNat

/-- The run duty of a bridge (R350, R354, R355). -/
def runDuty (c : Rec) (k : Bridge) : Nat :=
  if k.want = 0 || k.st ≠ k.want then 0
  else
    let near (g : Int) (d : Nat) : Nat := match distLeft k.want k.pos g with
      | none => bfMinDuty c
      | some x => if x ≤ bfApproach c then bfMinDuty c else d
    if k.goal = 3 then bfHomeDuty c
    else if k.goal = 2 || k.goal = 4 then near k.goalPos k.app.duty
    else if bfPosSrc c ≠ 0 && !(bit k.flags 0) then near (if k.want = 2 then bfPosMax c else bfPosMin c) k.app.duty
    else k.app.duty

/-- D_A after `m` PWM periods toward run duty `d`, fractions of 1/20 carried exactly (R350). -/
def rampSteps (c : Rec) (d m : Nat) (k : Bridge) : Bridge :=
  let x := 20 * k.da + k.frac
  let y := if x ≤ 20 * d then min (20 * d) (x + m * bfAccel c) else max (20 * d) (x - m * bfDecel c)
  { k with da := y / 20, frac := y % 20 }

/-- D_A of a bridge calculated up to `t` (R350): where the run duty is 0, the instant it reached 0 is kept, and a direction change then brakes (R352). -/
def rampTo (b : Nat) (t : Tb) (s : State) : State :=
  let c := s.bfA b
  onBridge b (fun k =>
    if !(isPast t k.rampTb) then k
    else
      let r := chopPos s (brCh b) k.rampTb
      let m := (r + (t - k.rampTb).toNat) / 2500
      let d := runDuty c k
      let x := 20 * k.da + k.frac
      let k' := { rampSteps c d m k with rampTb := t, cruise := if x = 20 * d then k.cruise else 0 }
      if d = 0 && x ≠ 0 && k'.da = 0 && k'.frac = 0 then
        let z := cdiv x (max 1 (bfDecel c))
        { k' with zeroSince := k.rampTb + BitVec.ofNat 48 (2500 * z - r), st := if k.want ≠ 0 && k.st ≠ k.want then 1 else k.st }
      else k') s

/-- A coil enters RELEASE (R313, R319). -/
def coilRelease (n : Nat) (s : State) : State :=
  onChan n (fun c => { c with contSince := none })
    (onCoil n (fun k => if k.phase = 0 then k else { k with phase := 4, iSet := 0, pullTb := none }) s)

/-- A one-shot ends (R315): Anvil reports, Hearth adopts ENGAGE 0. -/
def coilOneShotEnd (n ev : Nat) (s : State) : State :=
  indEvent n ev s.tbNow (onCoil n (fun k => { k with appEngage := false, report := true }) (coilRelease n s))

/-- An actuation is interrupted (R333). -/
def coilInterrupt (n : Nat) (s : State) : State :=
  let k := s.coil n
  if 1 ≤ k.phase ∧ k.phase ≤ 3 then
    let s := onCoil n (fun k => { k with outcome := if k.outcome = 0 then 4 else k.outcome }) s
    if kfOneShot k.prof then coilOneShotEnd n 6 s
    else onCoil n (fun k => { k with interrupted := true }) (coilRelease n s)
  else s

/-- The pair of a bridge drives no more: its continuous conduction ends (R279). -/
def bridgeIdle (b : Nat) (s : State) : State :=
  onChan (brCh b + 1) (fun c => { c with contSince := none }) (onChan (brCh b) (fun c => { c with contSince := none }) s)

/-- A bridge coasts at once; a ripple-counted one that is not at standstill becomes UNCERTAIN (R364), which `lost` keeps until its source is raised. A pinch reversal keeps its goal (R368). -/
def bridgeCoast (b : Nat) (s : State) : State :=
  let s := bridgeIdle b (rampTo b s.tbNow s)
  onBridge b (fun k =>
    let rev := bit k.flags 1
    { k with st := 0, da := 0, frac := 0, want := if rev then k.want else 0, goal := if rev then k.goal else 0, ready := false, cruise := 0,
             cut := true, zeroSince := if k.da = 0 && k.frac = 0 then k.zeroSince else s.tbNow,
             lost := k.lost || (bfPosSrc (s.bfA b) = 2 && !(bit k.flags 7) && !(bit k.flags 0)),
             flags := if bfPosSrc (s.bfA b) = 2 && !(bit k.flags 7) then setBit k.flags 0 else k.flags }) s

/-- A bridge brakes at once with no ramp: both low sides on. -/
def bridgeBrake (b : Nat) (s : State) : State :=
  let s := bridgeIdle b (rampTo b s.tbNow s)
  onBridge b (fun k => { k with st := 1, da := 0, frac := 0, cruise := 0, want := 0, goal := 0, ready := false,
                                zeroSince := if k.da = 0 && k.frac = 0 then k.zeroSince else s.tbNow }) s

/-- A bridge in motion decelerates on its ramp and then brakes; one at standstill keeps its drive state (R48, R372). -/
def bridgeRampDown (b : Nat) (s : State) : State :=
  let s := rampTo b s.tbNow s
  onBridge b (fun k => if bit k.flags 7 then { k with want := 0, goal := 0, ready := false, dwell := none, cut := true }
    else { k with want := 0, goal := 0, ready := false, dwell := none, stopEv := 0, flags := clrBit k.flags 1, cut := true, app := { k.app with drive := 1 } }) s

/-- A channel is turned off by something other than its committed values (R251 ranks 2 and 3, R333, R280). -/
def cutChannel (n : Nat) (s : State) : State :=
  let m := s.modeA n
  if m = 3 then coilInterrupt n s
  else if m = 4 then bridgeCoast (brOfCh n) s
  else pinOff n false s

/-! ### Turning on -/

/-- The inrush limit (R276), and the limit in force (R275), in A. -/
def inrushLimit (n : Nat) (p : Rec) : Nat := min (3 * pfIlim p) (classTop (chClass n))
def limitInForce (s : State) (n : Nat) : Nat := if bit (s.chan n).prot 9 then inrushLimit n (s.pfA n) else pfIlim (s.pfA n)

/-- An inrush window opens at a turn-on (R276). -/
def openInrush (n : Nat) (s : State) : State :=
  let w := pfInrush (s.pfA n)
  if w = 0 then s else onChan n (fun c => { c with inrushEnd := some (s.tbNow + msTicks w), prot := setBit c.prot 9 }) s

/-- A turn-on that falls due while VBATS exceeds 30 V is deferred, one already deferred until VBATS is at 29 V or below (R296). -/
def ovDefers (s : State) (n : Nat) : Bool := s.anvil.sup.ov && (decide (30000 < s.anvil.sup.vbats) || bit (s.chan n).prot 8)

/-- The retries that remain (R279): those of RETRIES, or of the count in progress, which a change of RETRIES leaves (R274). -/
def retriesLeft (s : State) (n : Nat) : Nat := (s.chan n).retries.getD (pfRetries (s.pfA n))

/-- A turn-on after protection has released a channel: a retry is counted (R278), the owner is told it has resumed (R305). -/
def resumeAt (n : Nat) (s : State) : State :=
  let c := s.chan n
  let s := onChan n (fun c => { c with retries := if c.retryDue then some (retriesLeft s n - 1) else c.retries, retryDue := false, resuming := false,
                                       prot := clrBit c.prot 8 }) s
  if c.resuming then protEventFree n 9 s else s

/-- The output of a SCHED, PIN or LAMP channel turns on in its control mode; `lv` is the level it takes, `win` that the turn-on opens an inrush window whatever the time
off: a start-slot turn-on, an enabling edge, a limp-home turn-on (R276). A retry always does, any other only after 10 ms off. -/
def pinTurn (win : Bool) (n : Nat) (lv : Bool) (s : State) : State :=
  let s := lampSettle n s
  let c := s.chan n
  let long := lv && !c.level && decide (500000 ≤ (s.tbNow - c.offSince).toNat)
  let s := if c.drive then s else resumeAt n s
  let s := onChan n (fun c =>
    { (if lv then c else chanFall s.tbNow s.time.anvilTb c) with
      level := lv, drive := true, lastEdge := if c.level = lv then c.lastEdge else s.tbNow, onFrame := if c.drive then c.onFrame else s.anvil.lastFn,
      contSince := if c.contSince.isSome then c.contSince else some s.tbNow, testing := false }) s
  if win || (c.retryDue && !c.drive) || long then openInrush n s else s

/-- A turn-on or a level at the start slot. -/
def pinOn (n : Nat) (lv : Bool) (s : State) : State := pinTurn (!(s.chan n).drive) n lv s

/-! ### LAMP pulses (R244 to R248) -/

/-- The applied duty from a DSET (R245), and whether it was clamped. VREF and VZ in mV. -/
def lampDuty (dset vref vz : Nat) : Nat × Bool :=
  let x := if vz = 0 then 4097 else dset * vref * vref / (vz * vz)
  if x > 4096 then (4096, true) else (x, false)

/-- On-time of a period of `t` ticks at an applied duty (R246): 0 below 500 ticks, the period above t - 500. -/
def lampOnTime (da t : Nat) : Nat :=
  let x := da * t / 4096
  if x < 500 then 0 else if x > t - 500 then t else x

/-- The LAMP period of a channel in ticks, and the ticks from now to the next period start. -/
def lampPeriod (s : State) (n : Nat) : Nat := 50000 * max 1 (lampEnt s.sched.img n).1
def lampPos (s : State) (n : Nat) : Nat := ((s.anvil.lastFn.toNat % max 1 (lampEnt s.sched.img n).1) * 50000 + s.tickA) % lampPeriod s n
def lampToNext (s : State) (n : Nat) : Nat := ((lampEnt s.sched.img n).2 + lampPeriod s n - lampPos s n) % lampPeriod s n

/-- DSET in force for a LAMP channel: LIMP_DSET where it follows its limp-home entry (R263), the committed one in its safe state ON (R565), else the applied one. -/
def lampDset (s : State) (n : Nat) : Nat :=
  let c := s.chan n
  if c.safe && cfSafe (s.cfA n) = 1 then (s.anvil.vals.chOf n).dset
  else if c.limp then (match lhEntry s.anvil.vals.lhCfg n with | some e => lhDset s.anvil.vals.lhCfg e | none => c.appDset)
  else c.appDset

/-- A duty is applied: the flags of the frame (R247) with it. -/
def lampTake (n : Nat) (da : Nat × Bool) (vz : Option Nat) (s : State) : State :=
  onChan n (fun c => { c with da := da.1, lampNow := (4 * b2n da.2 + 8 * b2n vz.isNone) ||| c.lampNow }) s

/-- A LAMP channel turns on at its start-slot edge: it conducts for the on-time of the duty of the period in progress, whose zone voltage is
`vz`, or until the next period (R248). -/
def lampTurn (win : Bool) (n : Nat) (vz : Option Nat) (s : State) : State :=
  let dset := lampDset s n
  let da := match vz with | none => (dset, false) | some v => lampDuty dset (cfVref (s.cfA n)) v
  let t := lampPeriod s n
  let on := lampOnTime da.1 t
  let s := lampTake n da vz (pinTurn win n (decide (on ≠ 0)) s)
  let next := if lampToNext s n = 0 then t else lampToNext s n
  if on = 0 then s else onChan n (fun c => { c with lampOff := if on = t then none else some (s.tbNow + BitVec.ofNat 48 (min on next)) }) s

def lampTurnOn (n : Nat) (vz : Option Nat) (s : State) : State := lampTurn (!(s.chan n).drive) n vz s

/-- The voltage of a channel's zone in mV as the state last holds it, none where converter 11 marked it faulted. DEDUCED: a turn-on that no start slot gives (limp-home, a safe state)
takes this reading for the VZ of the period in progress (log 29). -/
def zoneRead (s : State) (n : Nat) : Option Nat :=
  if bit s.anvil.mon.vBad (1 + chZone n) then none else some ((s.anvil.sup.vbat[chZone n]?).getD 0).toNat

/-! ### Limp-home drive (R262 to R264) -/

/-- Whether an entry is active: its input high, or low with INVERT (R263). -/
def lhActive (l : Limp) (c : Rec) (e : Nat) : Bool := (bit l.lhin (lhInput c e)) != lhInvert c e

/-- Whether entry `e` drives its channel on now, the flash clock included. -/
def lhDrives (l : Limp) (c : Rec) (e : Nat) : Bool := lhActive l c e && (!(lhFlash c e) || !l.flashRun || l.flashOn)

/-- Entry `e` rules its channel: one in SCHED, PIN or LAMP mode under limp-home that no rank above 4 holds (R250, R251, R264). -/
def limpRules (s : State) (e : Nat) : Bool :=
  let c := s.anvil.vals.lhCfg
  let n := lhChannel c e
  lhValid c e && decide (s.modeA n ≤ 2) && (s.chan n).limp && !(protHolds (s.chan n).prot) && !((s.chan n).safe && cfSafe (s.cfA n) ≠ 3)

/-- The flash clock: it starts with the first flashing entry that becomes active and stops when none flashes (R263). -/
def flashClock (s : State) : State :=
  let c := s.anvil.vals.lhCfg
  let flashing := (List.range 16).any (fun e => lhValid c e && lhFlash c e && lhActive s.anvil.limp c e && (s.chan (lhChannel c e)).limp)
  onAnvil (fun a =>
    { a with limp := if flashing then (if a.limp.flashRun then a.limp else { a.limp with flashRun := true, flashOn := true, flashNext := s.tbNow + msTicks 330 })
                     else { a.limp with flashRun := false, flashOn := false } }) s

/-- The channel of entry `e` is on already, or pulses. -/
def limpIsOn (s : State) (e : Nat) : Bool :=
  let n := lhChannel s.anvil.vals.lhCfg e
  if s.modeA n = 2 then (s.chan n).drive else (s.chan n).level

/-- Limp-home turns the channel of entry `e` on. -/
def limpTurnOn (e : Nat) (s : State) : State :=
  let n := lhChannel s.anvil.vals.lhCfg e
  let s := onAnvil (fun a => { a with limp := { a.limp with lastOn := tput (fun _ => (0 : Tb)) a.limp.lastOn (chZone n) s.tbNow } }) s
  if s.modeA n = 2 then lampTurn true n (zoneRead s n) s else pinTurn true n true s

/-- The ticks from now at which entries turn their channels on, in entry order and 100 us apart within a zone (R264). -/
def limpTimes (s : State) (es : List Nat) : List (Nat × Nat) :=
  let zone (e : Nat) : Nat := chZone (lhChannel s.anvil.vals.lhCfg e)
  es.map (fun e =>
    let last := tget (fun _ => (0 : Tb)) s.anvil.limp.lastOn (zone e)
    let base := if last = 0 || isPast s.tbNow (last + 5000) then 0 else (last + 5000 - s.tbNow).toNat
    (base + 5000 * ((es.takeWhile (fun f => f ≠ e)).filter (fun f => zone f = zone e)).length, e))

/-- A due instant takes its place in a list in ascending order, after its equals. -/
def putDue (x : Nat × Nat) : List (Nat × Nat) → List (Nat × Nat)
  | [] => [x]
  | y :: t => if x.1 < y.1 then x :: y :: t else y :: putDue x t

/-- Entries whose channels are under limp-home follow their inputs (R263): what goes off does so at once, what goes on in entry order, spaced (R264), but above 30 V not at all (R296). -/
def limpAll (s : State) : State :=
  let s := flashClock s
  let c := s.anvil.vals.lhCfg
  let want (s : State) (e : Nat) : Bool := lhDrives s.anvil.limp c e
  let s := (List.range 16).foldl (fun s e => if limpRules s e && !(want s e) then pinOff (lhChannel c e) false s else s) s
  let on := (List.range 16).filter (fun e => limpRules s e && want s e && !(limpIsOn s e))
  let s := (on.filter (fun e => ovDefers s (lhChannel c e))).foldl (fun s e => onChan (lhChannel c e) (fun y => { y with prot := setBit y.prot 8 }) s) s
  let due := (limpTimes s (on.filter (fun e => !(ovDefers s (lhChannel c e))))).foldl (fun l x => putDue x l) []
  let t := s.tbNow
  due.foldl (fun s x => limpTurnOn x.2 (advTo (t + BitVec.ofNat 48 x.1) s)) s

/-- A channel comes under limp-home (R251 rank 4): a PIN channel leaves its direct input (R263). -/
def enterLimp (n : Nat) (s : State) : State := onChan n (fun c => { c with limp := true, adopted := false, fol := false, edgeAt := none }) s

/-! ### Orphan policy (R47, R48) -/

/-- The hold clock of a channel starts (R46, R47, R104): a hold time of 0 acts at once. -/
def holdStart (n : Nat) (s : State) : State :=
  onChan n (fun c => { c with orphan := 1, holdEnd := some (s.tbNow + msTicks (100 * cfHold (s.cfA n))) }) s

/-- A Quench reaction holds a channel at rank 3, above limp-home and the orphan policy (R251). -/
def safeAbove (s : State) (n : Nat) : Bool := (s.chan n).safe && cfSafe (s.cfA n) ≠ 3

/-- The hold time of a channel has passed (R47): it follows its limp-home entry, or turns off; a coil's pull-in completes first (R48). One that a Quench reaction holds
keeps its safe state (R251). -/
def holdExpire (n : Nat) (s : State) : State :=
  let s := onChan n (fun c => { c with holdEnd := none }) s
  match lhEntry s.anvil.vals.lhCfg n with
  | some _ => limpAll (enterLimp n (onChan n (fun c => { c with orphan := 2 }) s))
  | none =>
    let s := onChan n (fun c => { c with orphan := 3 }) s
    if safeAbove s n then s
    else if s.modeA n = 3 then
      if (s.coil n).phase = 1 || (s.coil n).phase = 2 then s else onCoil n (fun k => { k with appEngage := false }) (coilRelease n s)
    else if s.modeA n = 4 then s
    else pinOff n false s

/-! ### Actuations (R312, R313, R329, R334) -/

/-- Rc(T) = RCOIL times this over 8e7, in ohms, at a temperature in 0.125 degrees (R325). -/
def rcScaled (c : Rec) (t : Int) : Int := kfRcoil c * (800000 + 393 * (t - 160))

/-- An actuation is permitted (R329): TC plus the adiabatic rise of a full pull-in stays below T_LIMIT. -/
def coilCool (c : Rec) (tc : Int) : Bool :=
  decide (tc * 100000000000000 * kfTauC c + (kfIp c * kfIp c : Nat) * rcScaled c tc * kfTpMax c * kfRthCs c < kfTLimit c * 800000000000000 * kfTauC c)

/-- COIL_HOT follows the permission of R329. -/
def coilHot (n : Nat) (s : State) : State :=
  onCoil n (fun k => { k with flags := if coilCool (s.kfA n) k.tc then clrBit k.flags 6 else setBit k.flags 6 }) s

/-- An actuation with profile `c` begins with ACT_COUNT `cnt` (R312, R313, R316), or is refused for heat (R329), which interrupts one that runs (R333). A turn-on from off is deferred above 30 V (R296). -/
def coilStart (c : Rec) (n : Nat) (cnt : BitVec 8) (s : State) : State :=
  let k := s.coil n
  if (k.phase = 0 || k.phase = 4) && ovDefers s n then onChan n (fun c => { c with prot := setBit c.prot 8 }) s
  else if !(coilCool c k.tc) then
    onCoil n (fun k => { k with appEngage := false, appCount := cnt, report := true, interrupted := false })
      (coilRelease n (coilInterrupt n (indEvent n 7 s.tbNow (coilHot n s))))
  else
    let off := k.phase = 0 || k.phase = 4
    let long := off && decide (500000 ≤ (s.tbNow - (s.chan n).offSince).toNat)
    let retry := (s.chan n).retryDue
    let s := if off then resumeAt n s else s
    let s := onCoil n (fun k =>
      { k with phase := 1, outcome := 0, flags := clrMask k.flags 0x1F, appEngage := true, appCount := cnt, startTb := s.tbNow, prof := c, reached := false,
               pullTb := none, satWin := false, anyD := false, wins := 0, u1 := none, u2 := none, closeTb := none, kinkSeen := none, iSet := 0,
               actuations := k.actuations + 1, interrupted := false, report := false }) s
    let s := onChan n (fun c => { c with contSince := if c.contSince.isSome then c.contSince else some s.tbNow }) s
    if long || retry then openInrush n s else s

/-- An actuation of the coil's own profile begins. -/
def coilBegin (n : Nat) (cnt : BitVec 8) (s : State) : State := coilStart (s.kfA n) n cnt s

/-- The Quench safe state ON engages an idle coil, which then holds with no one-shot end (R334); rank 2 stands above it (R251). -/
def coilSafeOn (n : Nat) (s : State) : State :=
  if (s.coil n).phase = 0 && kfIp (s.kfA n) ≠ 0 && !(protHolds (s.chan n).prot) then coilStart (putAt (s.kfA n) 12 [0, 0]) n (s.coil n).appCount s else s

end Sys2Proof.Machine
end

