-- ==== Sys2Proof/Machine/Safe.lean ====
section
/-! DEFINITION. Safe states of sinks, ports, LF drivers and tasks (R388, R466, R485, R565), and their release (R573). -/

namespace Sys2Proof.Machine

/-- LS_CFG of a sink as Anvil executes it. -/
def State.sfA (s : State) (n : Nat) : Rec := s.anvil.vals.lsCfgOf n

/-- A sink takes its Quench safe state (R388). -/
def safeSink (n : Nat) (s : State) : State :=
  let c := s.sfA n
  onSink n (fun k => if sfSafe c = 0 then { k with safe := true, pulseEnd := none } else { k with safe := true }) s

/-- A sink leaves its Quench safe state: its committed value follows at the next frame (R573, R383). -/
def freeSink (n : Nat) (s : State) : State :=
  let c := s.sfA n
  onSink n (fun k => if !k.safe then k else if sfSafe c = 0 then { k with safe := false, b := 0, next := none, app := 0 } else { k with safe := false }) s

/-- The state a running port takes: its commanded state through INTEGRATING, SUSPENDED while the link is lost, SILENT under a Quench reaction. DEDUCED: a port whose TEC exceeds 255
stays bus-off until its recovery count ends, which nothing shortens (R456, R457, log 38). -/
def canEnter (k : CanPort) : CanPort :=
  { k with st := if k.cmd = 0 then 0 else if k.suspended then 5 else if k.silent then 7 else if 255 < k.tec then 4 else 1, after := none }

/-- A port leaves a suspension or a reaction. A port that is OFF or asleep stays so. -/
def canLeave (k : CanPort) : CanPort := if k.st = 0 || k.st = 6 then k else canEnter k

/-- A Quench reaction names a port, and its end (R466). -/
def safeCan (p : Nat) (s : State) : State :=
  onCan p (fun k => { k with silent := true, st := if k.st = 0 || k.st = 5 || k.st = 6 then k.st else 7 }) s

def freeCan (p : Nat) (s : State) : State := onCan p (fun k => if k.silent then canLeave { k with silent := false } else k) s

/-- The pending lighting commit of a context. -/
def commitDef : Nat → Option LightCommit := fun _ => none
def State.lightCommit (s : State) (c : Nat) : Option LightCommit := tget commitDef s.light.commits c

def onLightCommit (c : Nat) (f : LightCommit → LightCommit) (s : State) : State :=
  onLight (fun x => { x with commits := tmod commitDef x.commits c (fun k => k.map f) }) s

/-- An external message of a commit completes: 1 sent, 2 failed after its retries, 3 not sent. -/
def extDone (c i v : Nat) (s : State) : State :=
  onLightCommit c (fun k => if k.ext[i]? = some 0 then { k with ext := k.ext.set i v } else k) s

/-- A port changes state; LIN_STATE goes to the owner while NOTIFY_LIN is set. -/
def linState (n st : Nat) (s : State) : State :=
  let k := s.lin n
  if k.st = st then s
  else
    let s := onLin n (fun k => { k with st := st }) s
    if mfNotify k.cfg then notify (s.owner 4 (8 + n)) 0x7801 [BitVec.ofNat 8 n, BitVec.ofNat 8 st, 0, 0] s else s

/-- The state a port goes to when nothing holds it: its commanded state (R472), SUSPENDED while the link is lost or a reaction stands; a port whose go-to-sleep command is still to
be sent stays ACTIVE for it (R483). -/
def linEnter (n : Nat) (s : State) : State :=
  let k := s.lin n
  linState n (if k.cmd = 0 then 0 else if k.suspended || k.held then 3 else if k.cmd = 2 && !k.goSleep then 2 else 1) s

/-- The cell of the transmit entry that a frame on port `n` sends leaves the engine (R133): freed, or to the limbo list with `extra` result cells where a context reset has taken
the frame (R139). -/
def linCellDone (n : Nat) (f : LinFrame) (extra : Nat) (s : State) : State :=
  let s := if f.queued then onQueue (1288 + 16 * n + mtTxq (s.lin n).table f.id) (fun q => { q with inFlight := q.inFlight - 1 }) s else s
  match f.limbo with
  | none => s
  | some c => onCtx c (fun x => { x with limbo := ctxLimbo s x + b2n f.queued + extra, limboTb := s.tbNow }) s

/-- A frame in progress is abandoned with no result entry (R485). -/
def linAbandon (n : Nat) (s : State) : State :=
  match (s.lin n).busy with
  | none => s
  | some f =>
    let s := linCellDone n f 0 (onLin n (fun k => { k with busy := none }) s)
    match f.ext with
    | some (c, i) => extDone c i 3 s
    | none => s

def safeLin (n : Nat) (s : State) : State :=
  let s := onLin n (fun k => { k with held := true }) s
  if (s.lin n).st = 1 then linState n 3 (linAbandon n s) else s

def freeLin (n : Nat) (s : State) : State :=
  if (s.lin n).held then
    let s := onLin n (fun k => { k with held := false }) s
    if (s.lin n).st = 3 then linEnter n s else s
  else s

/-! ### Tasks (R421, R565) -/

def coreDef : Nat → Core := fun _ => Core.initial
def State.core (s : State) (c : Nat) : Core := tget coreDef s.ces.cores c
def onCes (f : Cesyn → Cesyn) (s : State) : State := { s with ces := f s.ces }
def onCore (c : Nat) (f : Core → Core) (s : State) : State := onCes (fun x => { x with cores := tmod coreDef x.cores c f }) s
def taskDef : Nat → Task := fun _ => Task.initial
def State.task (s : State) (t : Nat) : Task := tget taskDef s.ces.tasks t
def onTask (t : Nat) (f : Task → Task) (s : State) : State := onCes (fun x => { x with tasks := tmod taskDef x.tasks t f }) s

/-- A safe-state request reaches a task: while it runs, SAFE_REQ is set and a SAFE trap waits unless one was taken; between activations it is kept (R421). -/
def safeTask (t : Nat) (s : State) : State :=
  match (List.range 4).find? (fun c => (s.core c).run = some t) with
  | some c => onCore c (fun k => { k with info := k.info ||| 512, safe := if k.safe = 0 then 1 else k.safe }) s
  | none => onTask t (fun k => { k with safeReq := true }) s

/-- An LF driver stops at once; no step drives it while it is held (R565). -/
def safeLf (n : Nat) (s : State) : State :=
  { s with acc := { s.acc with lfHeld := setBit s.acc.lfHeld n, lfOn := clrBit s.acc.lfOn n } }
def freeLf (n : Nat) (s : State) : State := { s with acc := { s.acc with lfHeld := clrBit s.acc.lfHeld n } }

end Sys2Proof.Machine
end

