-- ==== Sys2Proof/Machine/Faults.lean ====
section
/-! DEFINITION. Fault collection and Quench reactions (17_fault_collection): events, severity, safe states, records, opcodes. -/

namespace Sys2Proof.Machine

/-! ### Sources -/

def fltEntry (src : Nat) : Option (Nat × Nat × Nat × Bool × Nat × Nat × Nat × Nat × Bool × Bool) :=
  fltTable.find? (fun e => decide (e.1 ≤ src) && decide (src ≤ e.2.1))
def fltScope (src : Nat) : Nat := match fltEntry src with | some (_, _, sc, _) => sc | none => 255
def fltOnAnvil (src : Nat) : Bool := match fltEntry src with | some (_, _, _, a, _) => a | none => false
def fltFixed (src : Nat) : Bool := match fltEntry src with | some (_, _, _, _, _, _, _, _, _, f) => f | none => false

/-- Instances of a scope (R558). -/
def scopeCount : Nat → Nat
  | 0 => 1 | 1 => 4 | 2 => 64 | 3 => 4 | 4 => 36 | 5 => 64 | 6 => unitCount 6 | 7 => 8 | 8 => 8 | 9 => 12 | 10 => 2 | 11 => 8 | 12 => 2
  | 13 => 131 | 14 => 2 | 15 => 12 | 16 => 20 | 17 => 20 | 18 => 12 | 19 => 7 | _ => 0

/-- Whether an instance number lies within its scope; SCHED_MISS has the gaps of R558, Hearth sensors are 12 to 19. -/
def instOk (src i : Nat) : Bool :=
  let sc := fltScope src
  decide (i < scopeCount sc) && !(sc = 16 && i < 12)

/-! ### FLT_CFG (R575) -/
def State.fltCfgOf (s : State) (src : Nat) : Rec := tget fltCfgReset s.com.fltCfg src
def ffClass (c : Rec) : Nat := bits (rd c 2 1) 0 2
def ffGroup (c : Rec) : Nat := bits (rd c 2 1) 2 2
def ffErr (c : Rec) : Bool := bit (rd c 2 1) 4
def ffAll (c : Rec) : Bool := bit (rd c 2 1) 5
def ffN (c : Rec) : Nat := rd c 3 1
def ffW (c : Rec) : Nat := rd c 4 2

def fltInstDef : Nat → FltInst := fun _ => FltInst.initial
def fkey (src i : Nat) : Nat := src * 65536 + i
def State.fltInst (s : State) (src i : Nat) : FltInst := tget fltInstDef s.flt.inst (fkey src i)
def onFlt (f : Flt → Flt) (s : State) : State := { s with flt := f s.flt }
def onFltInst (src i : Nat) (f : FltInst → FltInst) (s : State) : State := onFlt (fun x => { x with inst := tmod fltInstDef x.inst (fkey src i) f }) s

/-! ### Units a severe instance reaches (R563, R565) -/

/-- A kind of unit with a safe state. -/
inductive SafeKind where
  | channel | bridge | sink | lf | can | lin | task
deriving DecidableEq, Repr

/-- The unit of an instance: its kind and number (R558). -/
def instUnit (src i : Nat) : Option (SafeKind × Nat) :=
  match fltScope src with
  | 2 => some (.channel, i)
  | 4 => some (.sink, i)
  | 5 => some (.task, i)
  | 7 => some (.bridge, i)
  | 8 => some (.can, i)
  | 9 => some (.lin, i)
  | 11 => some (.lf, i)
  | 13 => if i < 64 then some (.channel, i) else if i < 100 then some (.sink, i - 64) else if i < 108 then some (.lf, i - 100)
          else if i < 120 then some (.lin, i - 108) else none
  | _ => none

/-- The zone of an instance, for GROUP zone. -/
def instZone (src i : Nat) : Option Nat :=
  if fltScope src = 3 then some i
  else match instUnit src i with
    | some (.channel, n) => some (chZone n)
    | some (.bridge, _) => some 3
    | some (.sink, _) => some 2
    | _ => none

/-- The units the output declarations of a task name, for GROUP task. -/
def State.taskGroup (s : State) (t : Nat) : List (SafeKind × Nat) :=
  (s.outDecls t).map (fun d =>
    let i := rd d 4 2
    if rd d 0 1 = 2 then (.bridge, i)
    else if rd d 2 2 = 0x4001 then (.bridge, brOfCh i)
    else if rd d 2 2 = 0x5001 then (.sink, i)
    else (.channel, i))

/-- The even channel's bridge counts as the unit of a channel in BRIDGE mode. -/
def sameUnit (s : State) (a b : SafeKind × Nat) : Bool :=
  a = b || (match a, b with
    | (.channel, n), (.bridge, k) => s.modeA n = 4 && brOfCh n = k && decide (48 ≤ n)
    | (.bridge, k), (.channel, n) => s.modeA n = 4 && brOfCh n = k && decide (48 ≤ n)
    | _, _ => false)

/-- Whether the reaction of instance (src, i), of a class and group, reaches a unit (R563): QUENCH includes the action of DEGRADE on the instance's own unit. -/
def reaches (s : State) (src i cls group : Nat) (u : SafeKind × Nat) : Bool :=
  let own := match instUnit src i with | some v => sameUnit s v u | none => false
  if cls < 2 then false
  else if own || cls = 2 || group = 0 then own
  else if group = 1 then
    match instZone src i with
    | none => own
    | some z => match u with
      | (.channel, n) => chZone n = z
      | (.bridge, _) => z = 3
      | (.sink, _) => z = 2
      | _ => false
  else if group = 2 then (match u with | (.channel, _) | (.bridge, _) | (.sink, _) | (.lf, _) => true | _ => false)
  else (s.taskGroup i).any (fun v => sameUnit s v u) || u = (.task, i)

/-- Whether a severe instance holds a unit in its safe state (R573). -/
def heldSafe (s : State) (u : SafeKind × Nat) : Bool :=
  s.flt.inst.any (fun e => e.2.severe && e.2.acted && reaches s (e.1 / 65536) (e.1 % 65536) e.2.cls e.2.group u)

/-! ### Safe states (R565) -/

/-- The safe state ON of a SCHED, PIN or LAMP channel (R565): it conducts, a LAMP channel at its committed DSET; above 30 V it waits for a start slot (R296). DEDUCED: a PIN channel
conducts at once and follows the edges its direct input makes from then on (R252, log 29). -/
def safePinOn (n : Nat) (s : State) : State :=
  if (s.chan n).drive then s
  else if ovDefers s n then onChan n (fun c => { c with prot := setBit c.prot 8 }) s
  else if s.modeA n = 2 then lampTurn false n (zoneRead s n) s
  else onChan n (fun c => { c with fol := true }) (pinTurn false n true s)

/-- A channel takes its safe state (R251 rank 3, R334, R372). -/
def safeChannel (n : Nat) (s : State) : State :=
  let c := s.chan n
  let cfg := s.cfA n
  let m := cfMode cfg
  let sv := cfSafe cfg
  let s := onChan n (fun c => { c with safe := true }) s
  if m = 7 then s
  else if m = 3 then
    if sv = 0 then coilInterrupt n s
    else if sv = 1 then coilSafeOn n s
    else s
  else if m = 4 then (if n % 2 = 0 then (if sv = 0 then bridgeCoast (brOfCh n) s else bridgeRampDown (brOfCh n) s) else s)
  else if protHolds c.prot then s
  else if sv = 0 then pinOff n false s
  else if sv = 1 then safePinOn n s
  else if sv = 2 then s
  else limpAll (enterLimp n s)

/-- A unit takes its safe state at Anvil. -/
def safeUnit (s : State) (u : SafeKind × Nat) : State :=
  match u with
  | (.channel, n) => safeChannel n s
  | (.bridge, b) => safeChannel (brCh b + 1) (safeChannel (brCh b) s)
  | (.sink, n) => safeSink n s
  | (.lf, n) => safeLf n s
  | (.can, p) => safeCan p s
  | (.lin, n) => safeLin n s
  | (.task, _) => s

/-- Every unit with pins, in ascending order (R566). -/
def allUnits : List (SafeKind × Nat) :=
  (List.range 64).map (fun n => (.channel, n)) ++ (List.range 36).map (fun n => (.sink, n)) ++ (List.range 8).map (fun n => (.lf, n))
  ++ (List.range 8).map (fun n => (.can, n)) ++ (List.range 12).map (fun n => (.lin, n))

/-- A channel that its safe state turns on, in whichever control mode. -/
def safeTurnsOn (s : State) (u : SafeKind × Nat) : Bool :=
  match u with
  | (.channel, n) =>
    cfSafe (s.cfA n) = 1 && !(protHolds (s.chan n).prot)
      && ((decide (s.modeA n ≤ 2) && !(s.chan n).drive) || (decide (s.modeA n = 3) && decide ((s.coil n).phase = 0)))
  | _ => false

/-- Units take their safe states: turn-ons in ascending channel order, 1 us apart within one supply zone (R566), all else at once. -/
def safeUnits (us : List (SafeKind × Nat)) (s : State) : State :=
  let t := s.tbNow
  let on := us.filter (safeTurnsOn s)
  let s := (us.filter (fun u => !(safeTurnsOn s u))).foldl safeUnit s
  let zone (z : Nat) : List (SafeKind × Nat) := on.filter (fun u => chZone u.2 = z)
  ((List.range 16).flatMap (fun j => (List.range 4).filterMap (fun z => ((zone z)[j]?).map (fun u => (j, u))))).foldl
    (fun s e => safeUnit (advTo (t + BitVec.ofNat 48 (50 * e.1)) s) e.2) s

/-- The reaction of a severe instance at Anvil (R565): the units it reaches that were not yet held take their safe states. -/
def reactAt (src i : Nat) (s : State) : State :=
  let x := s.fltInst src i
  let all := allUnits.filter (reaches s src i x.cls x.group)
  let us := all.filter (fun u => !(heldSafe s u))
  let s := onFltInst src i (fun y => { y with acted := true }) s
  let s := safeUnits us s
  let s := match instUnit src i with | some (.task, t) => if x.cls = 2 then closeProducer (taskPort t) 4 s else s | _ => s
  if x.cls = 3 then
    (List.range 64).foldl (fun s t =>
      if (s.taskGroup t).any (fun v => all.any (fun u => sameUnit s u v)) || instUnit src i = some (.task, t) then safeTask t s else s) s
  else s

/-- A task that a reaction of class DEGRADE names is no longer activated (R565). -/
def State.taskHeld (s : State) (t : Nat) : Bool :=
  s.flt.inst.any (fun e => e.2.severe && e.2.acted && e.2.cls = 2 && instUnit (e.1 / 65536) (e.1 % 65536) = some (.task, t))

/-! ### Records (R570, R571) -/

/-- A record enters the history and the stream queue. -/
def putRecord (r : Rec) (s : State) : State :=
  let s := if s.flt.capture = 0 then
      onFlt (fun x => if x.ring.length ≥ 64 then { x with ring := x.ring.drop 1 ++ [r], overwritten := x.overwritten + 1 } else { x with ring := x.ring ++ [r] }) s
    else s
  admitEntry 1472 r s

/-- A record reaches the recorder (R570): one every 100 ns through an intake of 32; one that finds it full is dropped into the open gap. `intakeTb` is when the intake last took
one, or when it began to fill. -/
def record (r : Rec) (s : State) : State :=
  let took := (s.tbNow - s.flt.intakeTb).toNat / 5
  let waited := s.flt.intake - took
  let since := if s.flt.intake ≤ took then s.tbNow else s.flt.intakeTb + BitVec.ofNat 48 (5 * took)
  if waited ≥ 32 then
    onFlt (fun x => { x with intake := waited, intakeTb := since, gap := x.gap + 1, gapTb := if x.gap = 0 then s.tbNow else x.gapTb }) s
  else
    let s := if s.flt.gap = 0 then s else
      let g := s.flt.gap
      onFlt (fun x => { x with gap := 0 }) (putRecord ([2, if g > 65535 then 16 else 0] ++ zeros 4 ++ le 6 s.flt.gapTb.toNat ++ le 4 (s.fnOf s.flt.gapTb).toNat
        ++ le 2 (satN 65535 g) ++ zeros 6) s)
    putRecord r (onFlt (fun x => { x with intake := waited + 1, intakeTb := since }) s)

/-! ### Events (R561, R563) -/

/-- The owner of the unit of an instance, where it has one. -/
def instOwner (s : State) (src i : Nat) : Option Nat :=
  match fltScope src with
  | 2 => some (s.owner 1 i)
  | 4 => some (s.owner 2 i)
  | 5 => some (s.owner 5 i)
  | 6 => some (s.owner 6 i)
  | 7 => some (s.owner 1 (brCh i))
  | 8 => some (s.owner 4 i)
  | 9 => some (s.owner 4 (8 + i))
  | 10 => some (s.owner 4 (20 + i))
  | 13 => if i < 64 then some (s.owner 1 i) else if i < 100 then some (s.owner 2 (i - 64)) else if 108 ≤ i ∧ i < 120 then some (s.owner 4 (8 + (i - 108))) else none
  | _ => none

/-- FLT_ALERT to the owner of the unit and to every SUPERVISOR context, once each (R563). It waits for the frame after the record (R567). -/
def fltAlert (src i cls : Nat) (sev : Bool) (count detail : Nat) (s : State) : State :=
  let data := le 2 src ++ le 2 i ++ [BitVec.ofNat 8 cls, BitVec.ofNat 8 (b2n sev)] ++ le 2 count ++ le 4 detail
  let o := (instOwner s src i).getD 0
  let dst := (List.range 16).filter (fun c => c ≠ 0 && (c = o || ctxSupervisor (s.cx c)))
  onFlt (fun f => { f with alerts := f.alerts ++ dst.map (fun c => (c, s.fnOf s.tbNow, s.tbNow, data)) }) s

/-- The FLT_ALERT entries of the frames before join the notification queues (R567). -/
def sendAlerts (s : State) : State :=
  let due (e : Nat × Fn × Tb × Rec) : Bool := decide (e.2.1 ≠ s.fn)
  (s.flt.alerts.filter due).foldl (fun s e => notifyAt e.1 0xA001 e.2.1 e.2.2.1 e.2.2.2 s)
    (onFlt (fun f => { f with alerts := f.alerts.filter (fun e => !(due e)) }) s)

/-- The reaction to a source that has become severe (R563, R567): at once on Anvil; a QUENCH decided on Hearth waits for its QUENCH_REQ flit, a DEGRADE decided
on Hearth for the frame boundary after the next commit point. -/
def react (src i cls : Nat) (s : State) : State :=
  if cls < 2 then s
  else if fltOnAnvil src then reactAt src i s
  else if cls = 3 then onFlt (fun f => { f with heldReq := f.heldReq ++ [(src, i)] }) s
  else s

/-- Severe instances of class DEGRADE decided on Hearth whose units are not yet in their safe states. -/
def degradeDue (s : State) : List (Nat × Nat) :=
  (s.flt.inst.filter (fun e => e.2.severe && e.2.cls = 2 && !e.2.acted && !(fltOnAnvil (e.1 / 65536)))).map (fun e => (e.1 / 65536, e.1 % 65536))

/-- The DEGRADE reactions of a version act at a frame boundary (R567): those of Hearth's tasks at Hearth, all others at Anvil. -/
def degradeAct (atHearth : Bool) (l : List (Nat × Nat)) (s : State) : State :=
  l.foldl (fun s e =>
    let x := s.fltInst e.1 e.2
    let task := match instUnit e.1 e.2 with | some (.task, _) => true | _ => false
    if x.severe && x.cls = 2 && !x.acted && task == atHearth then reactAt e.1 e.2 s else s) s

/-- An event of an instance, detected on Anvil or on Hearth (R561): counted, recorded, and where COUNT reaches N severe with the reaction of its class. -/
def raiseDie (onA : Bool) (src i detail : Nat) (s : State) : State :=
  let cfg := s.fltCfgOf src
  let x := s.fltInst src i
  let tb := s.tbNow
  let fresh := x.count = 0 || decide ((tb - x.winStart).toNat > 50000 * ffW cfg)
  let count := if x.severe then x.count else if fresh then 1 else x.count + 1
  let sev := !x.severe && decide (ffN cfg ≤ count)
  let s := onFltInst src i (fun y =>
    let y := { y with events := y.events + 1, atTb := tb, atN := if y.atTb = tb then y.atN + 1 else 1 }
    if y.severe then y
    else
      let y := { y with count := count, winStart := if fresh then tb else y.winStart }
      if sev then { y with severe := true, severeTb := tb, cls := ffClass cfg, group := ffGroup cfg, errpin := ffErr cfg, acted := false } else y) s
  let s := if s.flt.capture = 1 then onFlt (fun f => { f with sticky := setBit f.sticky src }) s else s
  let s := record ([1, BitVec.ofNat 8 (ffClass cfg + 4 * b2n sev + 8 * b2n onA)] ++ le 2 src ++ le 2 i ++ le 6 tb.toNat ++ le 4 (s.fnOf tb).toNat
    ++ le 2 count ++ zeros 2 ++ le 4 detail) s
  let s := if (sev && ffClass cfg ≥ 1) || ffAll cfg then fltAlert src i (ffClass cfg) sev count detail s else s
  let s := if sev && decide (ffClass cfg ≥ 1) && onA && (s.pwr.entry ≠ 0 || s.pwr.state = 2 || s.pwr.state = 3) then deviceWake 8 (src % 256) 0 0 true s else s
  if sev then react src i (ffClass cfg) s else s

/-- An event of a source that one die detects. -/
def raiseD (src i detail : Nat) (s : State) : State := raiseDie (fltOnAnvil src) src i detail s
def raise (src i : Nat) (s : State) : State := raiseD src i 0 s

/-- An event that Anvil could not begin in its slot is skipped, raised and counted (R193); `i` is its instance by R558. -/
def missEvent (i : Nat) (s : State) : State := raise 0x040 i (onSched (fun x => { x with misses := x.misses + 1 }) s)

/-! ### Release (R572, R573) -/

/-- A unit no severe instance holds any more leaves its safe state: a channel follows R252, one whose hold time has passed meanwhile is off (R47), one under limp-home
follows its entry. -/
def releaseChannel (n : Nat) (s : State) : State :=
  let c := s.chan n
  if c.safe && !(heldSafe s (.channel, n)) then
    let byLimp := cfSafe (s.cfA n) = 3 && c.limp && c.orphan ≠ 2 && s.anvil.limp.lhN && !s.anvil.limp.stuck
    let s := onChan n (fun c => { c with safe := false, limp := c.limp && !byLimp, appOn := c.drive, fol := false }) s
    let s := if s.modeA n = 4 ∧ n % 2 = 0 then onBridge (brOfCh n) (fun k => { k with cut := true }) s else s
    if c.orphan = 3 && (s.anvil.orphan || (s.anvil.vals.chOf n).held) then
      (if s.modeA n = 3 then onCoil n (fun k => { k with appEngage := false }) (coilRelease n s) else if s.modeA n = 4 then s else pinOff n false s)
    else if (s.chan n).limp then limpAll s
    else flashClock s
  else s

/-- Units that no severe instance holds any more leave their safe states: those with pins as Anvil executes the version of the clear (R21), the ports of Hearth at its commit point. -/
def releaseAnvil (s : State) : State :=
  let s := (List.range 64).foldl (fun s n => releaseChannel n s) s
  let s := (List.range 36).foldl (fun s n => if heldSafe s (.sink, n) then s else freeSink n s) s
  (List.range 8).foldl (fun s n => if heldSafe s (.lf, n) then s else freeLf n s) s
def releasePorts (s : State) : State :=
  let s := (List.range 8).foldl (fun s n => if heldSafe s (.can, n) then s else freeCan n s) s
  (List.range 12).foldl (fun s n => if heldSafe s (.lin, n) then s else freeLin n s) s

/-- FLT_CLEAR of one instance at its commit point (R572). The frame block tells Anvil to release what is no longer held (R21). Events stamped with the tick of the commit point count in a new window after it (R574). -/
def clearInst (src i : Nat) (sev : Bool) (s : State) : State :=
  if !sev then s
  else
    let x := s.fltInst src i
    let n := if x.count ≠ 0 && x.atTb = s.tbNow then x.atN else 0
    let s := onFltInst src i (fun x => { x with severe := false, count := n, acted := false, winStart := if n = 0 then x.winStart else s.tbNow }) s
    let s := onFlt (fun f => { f with heldReq := f.heldReq.filter (fun r => r ≠ (src, i)) }) s
    let cfg := s.fltCfgOf src
    let s := if n ≠ 0 && decide (ffN cfg ≤ n) then
        react src i (ffClass cfg) (onFltInst src i (fun y => { y with severe := true, severeTb := s.tbNow, cls := ffClass cfg, group := ffGroup cfg, errpin := ffErr cfg }) s)
      else s
    releasePorts (onCom (fun c => { c with relFn := c.relFn + 1 }) s)

/-! ### Opcodes (R575) -/

def fltConfigRange (b : Rec) : Option Nat :=
  let src := rd b 0 2 % 512
  let sc := fltScope src
  let fixedOk (k : Nat) : Bool := !(fltFixed src) || sub b k 1 = sub (fltCfgReset src) k 1
  firstBad [(16, sc ≠ 255),
    (18, !(ffGroup b = 3 && sc ≠ 5) && !(ffGroup b = 1 && !([2, 3, 4, 7, 13].contains sc))
      && (!(fltFixed src) || (ffClass b = 3 && ffGroup b = ffGroup (fltCfgReset src)))),
    (19, decide (1 ≤ ffN b) && fixedOk 3), (20, decide (1 ≤ ffW b ∧ ffW b ≤ 65000) && fixedOk 4)]

def fltConfigSpec : OpSpec :=
  { code := 0xA000, kind := .commit, solo := true, data := false, units := noUnits, priv := 2, access := noAccess, okLen := lenIs 8,
    resv := fun _ => [(0, 2, 0xFE00), (2, 1, 0xC0), (6, 2, 0xFFFF)], range := fun r _ => fltConfigRange r.b, check := noCheck, anvil := notAnvil,
    recs := fun _ _ => 8, maxData := fun _ => 0,
    run := fun r s => { st := onCom (fun c => { c with fltCfg := tput fltCfgReset c.fltCfg (rd r.b 0 2) r.b }) s, status := .ok, detail := 0, data := [] } }

def fltSrcRange (b : Rec) (all : Bool) : Option Nat :=
  let src := rd b 0 2
  let i := rd b 2 2
  firstBad [(16, decide (src < 512) && fltScope src ≠ 255), (18, (all && i = 0xFFFF) || instOk src i)]

def fltStatusSpec : OpSpec :=
  { readSpec 0xA001 0 4 [] noCheck 28 (fun r s =>
      let src := rd r.b 0 2
      let x := s.fltInst src (rd r.b 2 2)
      s.fltCfgOf src ++ [BitVec.ofNat 8 x.count, BitVec.ofNat 8 (b2n x.severe + 2 * b2n (bit s.flt.sticky src)), 0, 0]
        ++ le 6 x.winStart.toNat ++ le 6 x.severeTb.toNat ++ le 4 x.events.toNat) with
    kind := .live, range := fun r _ => fltSrcRange r.b false }

def fltHistorySpec : OpSpec :=
  { readSpec 0xA002 0 4 [(2, 2, 0xFFFF)] (fun _ s => if s.flt.capture = 1 then some (.state, 0) else none) 1544 (fun r s =>
      let l := (s.flt.ring.drop (rd r.b 0 1)).take (rd r.b 1 1)
      [BitVec.ofNat 8 s.flt.capture, BitVec.ofNat 8 s.flt.ring.length, 0, 0] ++ le 4 s.flt.overwritten ++ l.flatten) with
    kind := .live, range := fun r _ => firstBad [(16, decide (rd r.b 0 1 ≤ 63)), (17, decide (1 ≤ rd r.b 1 1 ∧ rd r.b 1 1 ≤ 64))] }

def fltStickySpec : OpSpec :=
  { readSpec 0xA004 0 0 [] (fun _ s => if s.flt.capture = 0 then some (.state, 0) else none) 64 (fun _ s => le 64 s.flt.sticky) with kind := .live }

/-- FLT_CLEAR (R572): who may clear what. -/
def fltClearAccess (r : Req) (s : State) : Option (Status × Nat) :=
  let x := s.cx r.h.ctx
  let src := rd r.b 0 2
  let i := rd r.b 2 2
  if ctxPriv x = 2 || ctxSupervisor x then none
  else if i ≠ 0xFFFF && instOwner s src i = some r.h.ctx && ffClass (s.fltCfgOf src) ≠ 3 then none
  else some (.denied, if i = 0xFFFF || ffClass (s.fltCfgOf src) = 3 then 0xFFFF else (instOwner s src i).getD 0xFFFF)

def fltClearSpec : OpSpec :=
  { code := 0xA003, kind := .commit, solo := false, data := false, units := noUnits, priv := 0, access := fltClearAccess, okLen := lenIs 8,
    resv := fun _ => [(4, 1, 0xFC), (5, 3, 0xFFFFFF)], range := fun r _ => fltSrcRange r.b true, check := noCheck, anvil := notAnvil, recs := fun _ _ => 0,
    maxData := fun _ => 0,
    run := fun r s =>
      let src := rd r.b 0 2
      let i := rd r.b 2 2
      let sev := bit (rd r.b 4 1) 0
      let keys := if i = 0xFFFF then (s.flt.inst.filter (fun e => e.1 / 65536 = src)).map (fun e => e.1 % 65536) else [i]
      let s := keys.foldl (fun s k => clearInst src k sev s) s
      let s := if bit (rd r.b 4 1) 1 then onFlt (fun f => { f with sticky := clrBit f.sticky src }) s else s
      let s := record ([3, BitVec.ofNat 8 (ffClass (s.fltCfgOf src) + 8 * b2n (fltOnAnvil src))] ++ le 2 src ++ le 2 i ++ le 6 s.tbNow.toNat
        ++ le 4 s.fn.toNat ++ zeros 8) s
      { st := s, status := .ok, detail := 0, data := [] } }

def severeTotal (s : State) : Nat := (s.flt.inst.filter (fun e => e.2.severe)).length

def fltGlobalSpec : OpSpec :=
  { code := 0xA005, kind := .commit, solo := true, data := true, units := noUnits, priv := 2, access := noAccess, okLen := lenIs 4,
    resv := fun _ => [(1, 1, 0xFE), (2, 2, 0xFFFF)], range := fun r _ => firstBad [(16, decide (rd r.b 0 1 ≤ 1))], check := noCheck, anvil := notAnvil,
    recs := fun _ _ => 0, maxData := fun _ => 4,
    run := fun r s =>
      let s := onFlt (fun f => { f with captureNext := rd r.b 0 1, ring := if bit (rd r.b 1 1) 0 then [] else f.ring,
                                        overwritten := if bit (rd r.b 1 1) 0 then 0 else f.overwritten }) s
      { st := s, status := .ok, detail := 0, data := [BitVec.ofNat 8 s.flt.capture, BitVec.ofNat 8 s.flt.captureNext] ++ le 2 (severeTotal s) } }

end Sys2Proof.Machine
end

