-- ==== Sys2Proof/Machine/Channels.lean ====
section
/-! DEFINITION. Output channels (07_output_channels): the opcodes of the group, start-slot edges, pulses, direct inputs, limp-home. -/

namespace Sys2Proof.Machine

/-! ### Readings and ranks -/

/-- I_EST in mA from V_DS (0.5 mV) and TJ (0.125 degrees) with RON_EST (R289). -/
def iEst (n : Nat) (m : ChMeas) : Nat :=
  let den := (Config.rds25 n : Int) * (80000 + 45 * (m.tj - 200))
  if den ≤ 0 then 0 else ((m.vds * 500000 * 80000 : Nat) / den.toNat)

/-- I_ON as reported: I_EST while SENSE_FAULT is set (R291). -/
def iOnOf (n : Nat) (c : Chan) (m : ChMeas) : Nat := if bit c.prot 6 then iEst n m else m.iOn

/-- The rank of R251 in force for a channel. -/
def rankOf (a : Anvil) (n : Nat) : Nat :=
  let c := tget chanDef a.ch n
  if cfMode (a.vals.chCfgOf n) = 7 then 1 else if protHolds c.prot || a.sup.revOn then 2 else if c.safe then 3 else if c.limp then 4
  else if a.orphan && c.orphan = 1 then 5 else if a.held then 6 else 7

/-- A channel's latched flags change on Anvil, and Hearth knows the change it commanded. -/
def onChanBoth (n : Nat) (f : Chan → Chan) (s : State) : State :=
  onChan n f { s with rep := { s.rep with ch := tmod chanDef s.rep.ch n f } }

/-! ### CH_CONFIG (R233 to R237) -/

/-- MODEs a class permits (R229); UNUSED always. -/
def modeOk (n m : Nat) : Bool :=
  let k := chClass n
  m ≤ 2 || m = 7 || (m = 3 && (k = 1 || k = 3)) || (m = 4 && k = 3)

def olOnMax (n : Nat) : Nat := let k := chClass n; if k = 0 then 5000 else if k = 1 then 2000 else if k = 2 then 600 else 2400

/-- Other PIN channels configured to follow a direct input (R241). -/
def dirFollowers (c : Com) (d n : Nat) : Nat :=
  ((List.range 64).filter (fun i => i ≠ n && cfMode (c.chCfgOf i) = 1 && cfDirSel (c.chCfgOf i) = d)).length

/-- The partner of a B-class channel (R230). -/
def partner (n : Nat) : Nat := if n % 2 = 0 then n + 1 else n - 1

/-- RANGE of a CH_CONFIG (R232, R233, R241, R253, R267): a limp-home entry of the channel, or of the partner that BRIDGE takes with it (R236), forbids BRIDGE. -/
def chConfigRange (s : State) (b : Rec) : Option Nat :=
  let n := unitIx b
  let c := sub b 8 16
  let m := cfMode c
  let lh := (lhEntry s.com.lhCfg n).isSome
  let lhPair := m = 4 && (lhEntry s.com.lhCfg (partner n)).isSome
  firstBad [(24, rd c 0 1 = n),
    (25, modeOk n m && !(cfSafe c = 3 && !lh) && !(lh && (m = 3 || m = 4)) && !lhPair),
    (26, decide (cfHold c ≤ 100)),
    (27, if m = 1 then decide (dirFollowers s.com (cfDirSel c) n < 4) else rd c 3 1 = 0),
    (28, if m = 2 then decide (12000 ≤ cfVref c ∧ cfVref c ≤ 13500) else cfVref c = 0),
    (30, decide (cfOlOn c ≤ olOnMax n) && (m ≤ 2 || cfOlOn c = 0)),
    (32, decide (1 ≤ cfOlFilter c)), (33, m ≤ 2 || cfOffDiag c = 0)]

/-- Whether a CH_CONFIG moves a pair into or out of BRIDGE (R236). -/
def pairMoves (s : State) (n m : Nat) : Bool := chClass n = 3 && ((m = 4) != (cfMode (s.com.chCfgOf n) = 4))

/-- While LH_N holds a channel in limp-home a command that acts on it is refused with STATE, LIMP (R265). -/
def lhHolds (s : State) (n : Nat) : Bool := !s.rep.limp.lhN && (tget chanDef s.rep.ch n).limp

/-- The record of a CH_CONFIG changes SAFE_STATE or HOLD_TIME, of the channel or of the partner that joins it in BRIDGE: PRIV (R234, R236). A pair takes the owner of both. -/
def chConfigAccess (r : Req) (s : State) : Option (Status × Nat) :=
  let n := unitIx r.b
  let c := sub r.b 8 16
  let old := s.com.chCfgOf n
  let pc := s.com.chCfgOf (partner n)
  let joins := pairMoves s n (cfMode c) && cfMode c = 4 && (cfSafe c ≠ cfSafe pc || cfHold c ≠ cfHold pc)
  if (cfSafe c ≠ cfSafe old || cfHold c ≠ cfHold old || joins) && ctxPriv (s.cx r.h.ctx) < 2 then some (.denied, 0xFFFF)
  else if pairMoves s n (cfMode c) && s.owner 1 (partner n) ≠ r.h.ctx then some (.denied, s.owner 1 (partner n))
  else none

/-- Anvil reports a channel conducting in the current snapshot (R235), at tick 0 of its frame. -/
def conductsNow (s : State) (n : Nat) : Bool :=
  match s.snaps with
  | k :: _ => k.anvil.conducting k.frameTb n
  | [] => s.rep.conducting s.clk.frameTb n

/-- CH_CONFIG at step 10 and at the commit point. DEDUCED: the checks of step 10 keep the order R157 gives, what the mode permits (SCHEDULE) ahead of the state of the unit; and NOT_OFF
judges each channel whose MODE the request changes, the partner that joins a bridge too (R235, R236, log 24). -/
def chConfigCheck (r : Req) (s : State) : Option (Status × Nat) :=
  let n := unitIx r.b
  let m := cfMode (sub r.b 8 16)
  let fixed := match loadEnt s.sched.img n with | some (k, _) => decide (k ≠ m) | none => false
  let off (k : Nat) : Bool := !(chanOn s.com k || conductsNow s k)
  let joins := pairMoves s n m && m = 4
  if fixed then some (.schedule, 6)
  else if lhHolds s n then some (.state, 1)
  else if m ≠ cfMode (s.com.chCfgOf n) && !(off n && (!joins || off (partner n))) then some (.state, 3)
  else if s.com.chCfgNow.contains n then some (.busy, 0)
  else none

def putChCfg (n : Nat) (c : Rec) (s : State) : State :=
  onCom (fun m => { m with chCfg := tput chCfgReset m.chCfg n c, chCfgNow := n :: m.chCfgNow }) s

/-- CH_CONFIG applied: the record, the partner's record where the pair joins or leaves a bridge, and the reassignments (R236, R237). -/
def chConfigRun (r : Req) (s : State) : Res :=
  let n := unitIx r.b
  let c := sub r.b 8 16
  let old := s.com.chCfgOf n
  let pair := pairMoves s n (cfMode c)
  let p := partner n
  let clear (k : Nat) (s : State) : State := onCom (fun m => { m with ch := tput chValDef m.ch k ChVal.initial, ind := tmod indDef m.ind k (fun v => { v with engage := false }) }) s
  let s := if cfMode c ≠ cfMode old then reassign 1 n (clear n s) else s
  let s := putChCfg n c s
  let s := if pair then
      let pc := s.com.chCfgOf p
      let pm := if cfMode c = 4 then 4 else 7
      let low := bits (rd pc 1 1) 5 3 * 32
      let pc' := if cfMode c = 4 then putAt pc 1 [BitVec.ofNat 8 (pm + 8 * cfSafe c + low), BitVec.ofNat 8 (cfHold c)]
        else putAt pc 1 [BitVec.ofNat 8 (pm + 8 * cfSafe pc + low)]
      reassign 1 p (putChCfg p pc' (clear p s))
    else s
  { st := s, status := .ok, detail := 0, data := genOct s 1 n ++ (if pair then genOct s 1 p else [0, 0]) }

def chConfigSpec : OpSpec :=
  { code := 0x2000, kind := .commit, solo := false, data := true, units := actsOn 1, priv := 1, access := chConfigAccess, okLen := lenIs 24,
    resv := fun _ => [(6, 2, 0xFFFF), (8, 1, 0xC0), (9, 1, 0xE0), (10, 1, 0x80), (11, 1, 0xE0), (17, 1, 0xF8), (18, 1, 0xFE), (19, 5, 0xFFFFFFFFFF)],
    range := fun r s => chConfigRange s r.b, check := chConfigCheck, anvil := toAnvil, recs := fun r s => if pairMoves s (unitIx r.b) (cfMode (sub r.b 8 16)) then 32 else 16, maxData := fun _ => 4, run := chConfigRun,
    fin := fun r s d => genOct s 1 (unitIx r.b) ++ (if rd d 2 2 = 0 then [0, 0] else genOct s 1 (partner (unitIx r.b))) }

/-! ### CH_SET (R189 to R191, R238) -/

def chSetVal (s : State) (b : Rec) : ChVal :=
  let old := s.com.chOf (unitIx b)
  { on := bit (rd b 6 1) 0, dset := if bit (rd b 6 1) 1 then old.dset else rd b 8 2, held := false }

/-- CH_SET at step 10 and at the commit point: the mode of the channel, the disposition of a change (R179, R191), SIMUL, then the state of the channel. A request that repeats the
committed values changes nothing. -/
def chSetCheck (r : Req) (s : State) : Option (Status × Nat) :=
  let n := unitIx r.b
  let v := chSetVal s r.b
  let c' := { s.com with ch := tput chValDef s.com.ch n v }
  let old := s.com.chOf n
  if cfMode (s.com.chCfgOf n) > 2 then some (.state, 2)
  else if (v.on ≠ old.on || v.dset ≠ old.dset) && dispRefuses s.sched.img s.com.mode n (old.on && !v.on) then some (.schedule, 1)
  else if v.on && !old.on && simulOver s.sched.img c' n then some (.schedule, 2)
  else if lhHolds s n then some (.state, 1)
  else if s.com.chCfgNow.contains n then some (.busy, 0)
  else none

def chSetSpec : OpSpec :=
  { code := 0x2001, kind := .commit, solo := false, data := true, units := actsOn 1, priv := 1, access := noAccess, okLen := lenIs 12,
    resv := fun _ => [(6, 1, 0xFC), (7, 1, 0xFF), (8, 2, 0xE000), (10, 2, 0xFFFF)],
    range := fun r s =>
      let lamp := cfMode (s.com.chCfgOf (unitIx r.b)) = 2
      firstBad [(22, lamp || !(bit (rd r.b 6 1) 1)), (24, (lamp && (bit (rd r.b 6 1) 1 || decide (rd r.b 8 2 ≤ 4096))) || rd r.b 8 2 = 0)]
    check := chSetCheck, anvil := toAnvil, recs := fun _ _ => 0, maxData := fun _ => 12,
    run := fun r s =>
      let n := unitIx r.b
      let v := chSetVal s r.b
      let s := lightDirect 2 n r.h.ctx r.h.seq (onCom (fun c => { c with ch := tput chValDef c.ch n v }) s)
      let f := applyFn s n r.eff
      let l := lateStatus r f
      { st := s, status := l.1, detail := l.2,
        data := genOct s 1 n ++ [BitVec.ofNat 8 (b2n v.on), 0] ++ le 2 (if cfMode (s.com.chCfgOf n) = 2 then v.dset else 0) ++ [0, 0] ++ le 4 f.toNat },
    fin := fun r s d =>
      let n := unitIx r.b
      let v := s.com.chOf n
      genOct s 1 n ++ [BitVec.ofNat 8 (b2n v.on), 0] ++ le 2 (if cfMode (s.com.chCfgOf n) = 2 then v.dset else 0) ++ d.drop 6 }

def chStatusSpec : OpSpec := readSpec 0x2002 1 6 [] noCheck 52 (fun r s =>
    let n := unitIx r.b
    let c := tget chanDef s.rep.ch n
    let m := s.chMeasH n
    let v := s.com.chOf n
    let meas := b2n m.stale + 2 * b2n m.sat + c.lampFlags + 16 * b2n (bit c.prot 6)
    genOct s 1 n ++ [BitVec.ofNat 8 (s.owner 1 n), 0] ++ s.com.chCfgOf n
      ++ [BitVec.ofNat 8 (b2n v.on), BitVec.ofNat 8 (rankOf s.rep n + 8 * b2n (s.rep.conducting s.clk.frameTb n))] ++ le 2 v.dset ++ le 2 c.daLast
      ++ fitN 2 (iOnOf n c m) ++ le 2 m.vds ++ le 2 m.vout ++ leI 2 m.tj ++ [BitVec.ofNat 8 meas, 0] ++ le 2 c.diag ++ le 2 c.prot
      ++ le 6 c.diagTb.toNat ++ zeros 2 ++ le 4 c.dirShort.toNat)

/-- CH_CLEAR_DIAG (R256): the flags of MASK clear and their counts restart. -/
def chClearDiagSpec : OpSpec :=
  { code := 0x2003, kind := .commit, solo := false, data := false, units := actsOn 1, priv := 1, access := noAccess, okLen := lenIs 8,
    resv := fun _ => [(6, 2, 0xFFF0)], range := noRange,
    check := fun r s => if s.com.chCfgNow.contains (unitIx r.b) then some (.busy, 0) else none, anvil := toAnvil, recs := fun _ _ => 0, maxData := fun _ => 0,
    run := fun r s =>
      let m := rd r.b 6 2
      { st := onChanBoth (unitIx r.b) (fun c =>
          { c with diag := clrMask c.diag m, olCount := if bit m 0 then 0 else c.olCount, offOpen := if bit m 1 then 0 else c.offOpen,
                   offBat := if bit m 2 then 0 else c.offBat }) s, status := .ok, detail := 0, data := [] } }

/-! ### Limp-home table (R260, R261, R267) -/

def lhConfigRange (s : State) (b : Rec) : Option Nat :=
  let entry (e : Nat) : List (Nat × Bool) :=
    if !(lhValid b e) then []
    else
      let n := lhChannel b e
      let m := cfMode (s.com.chCfgOf n)
      [(16 + 4 * e, decide (m ≤ 2) && !((List.range e).any (fun f => lhValid b f && lhChannel b f = n))),
       (18 + 4 * e, if m = 2 then decide (1 ≤ lhDset b e ∧ lhDset b e ≤ 4096) else lhDset b e = 0)]
  let safe := (List.range 64).all (fun n => !(cfSafe (s.com.chCfgOf n) = 3) || (lhEntry b n).isSome)
  firstBad ((List.range 16).flatMap entry ++ [(0xFFFF, safe)])

def lhConfigSpec : OpSpec :=
  { code := 0x2004, kind := .commit, solo := true, data := false, units := noUnits, priv := 2, access := noAccess, okLen := lenIs 64,
    resv := fun _ => (List.range 16).flatMap (fun e => [(4 * e, 1, 0x40), (4 * e + 1, 1, 0xE0), (4 * e + 2, 2, 0xE000)]),
    range := fun r s => lhConfigRange s r.b,
    check := fun _ s => if s.rep.anyLimp then some (.state, 4) else none, anvil := toAnvil, recs := fun _ _ => 64, maxData := fun _ => 0,
    run := fun r s => { st := onCom (fun c => { c with lhCfg := r.b }) s, status := .ok, detail := 0, data := [] } }

def lhBits (f : Nat → Bool) : Nat := (List.range 16).foldl (fun a e => if f e then a + 2 ^ e else a) 0

def lhStatusSpec : OpSpec := readSpec 0x2005 0 0 [] noCheck 72 (fun _ s =>
    let c := s.com.lhCfg
    let l := s.rep.limp
    [BitVec.ofNat 8 (b2n (!l.lhN) + 2 * b2n l.stuck + 4 * b2n s.rep.orphan), BitVec.ofNat 8 l.lhin]
      ++ le 2 (lhBits (fun e => lhValid c e && (tget chanDef s.rep.ch (lhChannel c e)).limp))
      ++ le 2 (lhBits (fun e => lhValid c e && s.rep.conducting s.clk.frameTb (lhChannel c e))) ++ zeros 2 ++ c)

/-! ### LAMP periods (R244 to R248) -/

/-- LAMP_PERIOD_START: a period of LAMP channel `n` begins; `vz` is the zone voltage in mV, none where it is older than 5,000 ticks or faulted
(R245, R247). A start that lies beyond this frame, or a channel that is not driven, gives nothing. -/
def execLampPeriodStart (n : Nat) (vz : Option Nat) (s : State) : Host.Outcome State Fault Refusal :=
  let d := lampToNext s n
  if s.modeA n = 2 && (s.chan n).drive && !(protHolds (s.chan n).prot) && decide (s.tickA + d < 50000) then
    let s := lampSettle n (atTickA (s.tickA + d) s)
    let dset := lampDset s n
    let da := match vz with | none => (dset, false) | some v => lampDuty dset (cfVref (s.cfA n)) v
    let t := lampPeriod s n
    let on := lampOnTime da.1 t
    let s := lampTake n da vz s
    if on = 0 then .next (pinOff n true s)
    else
      let s := if (s.chan n).level && s.conducting n then s else pinOn n true s
      .next (onChan n (fun c => { c with lampOff := if on = t then none else some (s.tbNow + BitVec.ofNat 48 on) }) s)
  else .next s

/-! ### Direct inputs (R240 to R242) -/

/-- The level a PIN channel takes from its direct input. -/
def dirLevel (s : State) (n : Nat) : Bool := (bit s.anvil.limp.dir (cfDirSel (s.cfA n))) != cfDirInv (s.cfA n)

/-- A level is applied to an enabled PIN channel. -/
def pinApply (n : Nat) (lv : Bool) (s : State) : State :=
  if lv then pinOn n true s else pinOff n true s

/-- A follower takes an input edge (R242): at once, or when 10 us have passed since its last edge. -/
def pinFollow (n : Nat) (s : State) : State :=
  let c := s.chan n
  let due : Tb := c.lastEdge + 500
  if dirLevel s n = c.level && c.edgeAt.isNone then s
  else if c.edgeAt.isSome || !(isPast s.tbNow due) then onChan n (fun c => { c with edgeAt := some due }) s
  else pinApply n (dirLevel s n) s

/-- Channels that follow direct input `i` now (R241, R252): PIN, enabled and following, not held off, not under limp-home (R263), not adopted. -/
def followsDir (s : State) (i n : Nat) : Bool :=
  let c := s.chan n
  s.modeA n = 1 && cfDirSel (s.cfA n) = i && c.drive && c.fol && !(protHolds c.prot) && !c.limp && !c.adopted

/-- DIR_EDGE: a filtered edge of DIR`i` reaches its followers in ascending channel number, 150 ns apart, and the timers that count it. -/
def execDirEdge (i : Nat) (level : Bool) (s : State) : Host.Outcome State Fault Refusal :=
  let s := onAnvil (fun a => { a with limp := { a.limp with dir := if level then setBit a.limp.dir i else clrBit a.limp.dir i } }) s
  let fs := (List.range 64).filter (followsDir s i)
  let s := fs.foldl (fun (p : State × Nat) n => (pinFollow n (advTo (s.tbNow + BitVec.ofNat 48 (15 * p.2 / 2)) p.1), p.2 + 1)) (s, 0) |>.1
  .next (tmrDirEdge i level s)

/-- PIN_EDGE_DEFERRED: the edge deferred by the 10 us floor is applied, or absorbed where the input has returned (R242). -/
def execPinEdgeDeferred (n : Nat) (s : State) : Host.Outcome State Fault Refusal :=
  match (s.chan n).edgeAt with
  | none => .next s
  | some t =>
    let s := onChan n (fun c => { c with edgeAt := none }) (advTo t s)
    if dirLevel s n = (s.chan n).level then .next (onChan n (fun c => { c with dirShort := c.dirShort + 1 }) s)
    else if followsDir s (cfDirSel (s.cfA n)) n then .next (pinApply n (dirLevel s n) s)
    else .next s

/-! ### Diagnostics (R256 to R259) -/

/-- A diagnostic flag latches (R256): stamped, its source raised, CH_DIAG sent while NOTIFY_DIAG is set. -/
def latchDiag (n i : Nat) (s : State) : State :=
  if bit (s.chan n).diag i then s
  else
    let s := onChan n (fun c => { c with diag := setBit c.diag i, diagTb := s.tbNow }) s
    let s := raise (0x060 + i) n s
    if cfNotifyDiag (s.cfA n) then
      notify (s.owner 1 n) 0x2001 ([BitVec.ofNat 8 n, 0] ++ le 2 (2 ^ i) ++ genOct s 1 n ++ zeros 2) s
    else s

/-- Whether the off-state check of a channel runs in the frame in progress (R258): committed off in the version `was` of the frame before, not conducting in it. -/
def offDiagDue (was : Com) (s : State) (n : Nat) : Bool :=
  let k := cfOffDiag (s.cfA n)
  s.modeA n ≤ 2 && k ≠ 0 && s.anvil.lastFn.toNat % 2 ^ (k - 1) = n % 2 ^ (k - 1) && !(was.chOf n).on && !(s.conducting n)
    && decide (50000 ≤ (s.tbNow - (s.chan n).offSince).toNat)
    && decide (8000 ≤ (s.anvil.sup.vbat[chZone n]?).getD 0)

/-- Step A of the off-state check at tick 0 (R258): VOUT in 10 mV with no test current. -/
def offDiagA (was : Com) (n vout : Nat) (s : State) : State :=
  if !(offDiagDue was s n) then s
  else if vout ≥ 400 then
    let k := (s.chan n).offBat + 1
    let s := onChan n (fun c => { c with offBat := k, offOpen := 0, testing := false }) s
    if k ≥ 2 then latchDiag n 2 s else s
  else onChan n (fun c => { c with testing := true }) s

/-- OFF_DIAG_STEP_B: the output sampled at tick 10,000 under the test current (R258). -/
def execOffDiagStepB (n vout : Nat) (s : State) : Host.Outcome State Fault Refusal :=
  if (s.chan n).testing then
    let s := onChan n (fun c => { c with testing := false, offBat := 0 }) (atTickA 10000 s)
    if vout ≥ 400 then
      let k := (s.chan n).offOpen + 1
      let s := onChan n (fun c => { c with offOpen := k }) s
      .next (if k ≥ 2 then latchDiag n 1 s else s)
    else .next (onChan n (fun c => { c with offOpen := 0 }) s)
  else .next s

/-- The on-state check at the end of a frame (R257). -/
def openOnCheck (n : Nat) (s : State) : State :=
  let c := s.chan n
  let cfg := s.cfA n
  let m := s.chMeas n
  if cfOlOn cfg ≠ 0 && cfMode cfg ≤ 2 && !m.stale && c.onFrame ≠ s.anvil.lastFn then
    if iOnOf n c m < cfOlOn cfg then
      let k := c.olCount + 1
      let s := onChan n (fun c => { c with olCount := k }) s
      if k ≥ cfOlFilter cfg then latchDiag n 0 s else s
    else onChan n (fun c => { c with olCount := 0 }) s
  else s

/-! ### Limp-home causes (R262 to R266) -/

/-- Every channel of a valid entry comes under limp-home at once. -/
def limpInForce (s : State) : State :=
  let c := s.anvil.vals.lhCfg
  limpAll ((List.range 16).foldl (fun s e => if lhValid c e then enterLimp (lhChannel c e) s else s) s)

/-- LH_N high again with no other cause: each channel keeps its pin state and reports what Hearth is to adopt (R265). -/
def limpRelease (s : State) : State :=
  let cfg := s.anvil.vals.lhCfg
  (List.range 16).foldl (fun s e =>
    let n := lhChannel cfg e
    if lhValid cfg e && (s.chan n).limp && (s.chan n).orphan ≠ 2 && !((s.chan n).safe && cfSafe (s.cfA n) = 3) then
      let on := lhDrives s.anvil.limp cfg e && limpRules s e
      onChan n (fun c => { c with limp := false, adopted := true, drive := if safeAbove s n then c.drive else on, appOn := on,
                                  appDset := if s.modeA n = 2 then lhDset cfg e else c.appDset, limpEnd := some on }) s
    else s) s |> flashClock

/-- LH_N_CHANGE: a level of LH_N stable for 10 ms (R263, R265). -/
def execLhNChange (high : Bool) (s : State) : Host.Outcome State Fault Refusal :=
  if s.anvil.limp.lhN = high then .next s
  else
    let s' := onAnvil (fun a => { a with limp := { a.limp with lhN := high } }) s
    if high then (if s.anvil.limp.stuck then .next s' else .next (limpRelease s')) else .next (limpInForce s')

/-- LHIN_CHANGE: a stable level of LHIN`i` (R263). -/
def execLhinChange (i : Nat) (high : Bool) (s : State) : Host.Outcome State Fault Refusal :=
  .next (limpAll (onAnvil (fun a => { a with limp := { a.limp with lhin := if high then setBit a.limp.lhin i else clrBit a.limp.lhin i } }) s))

/-- FLASH_TOGGLE: the flash clock changes half every 330 ms (R263). -/
def execFlashToggle (s : State) : Host.Outcome State Fault Refusal :=
  if s.anvil.limp.flashRun then
    .next (limpAll (onAnvil (fun a => { a with limp := { a.limp with flashOn := !a.limp.flashOn, flashNext := a.limp.flashNext + msTicks 330 } })
      (advTo s.anvil.limp.flashNext s)))
  else .next s

/-- A channel that its owner's reset left to R47 and whose hold time ended with it off stays off (R104): its committed value follows, at a commit point. -/
def adoptHeld (s : State) : State :=
  (List.range 64).foldl (fun s n =>
    if (s.com.chOf n).held && (tget chanDef s.rep.ch n).orphan = 3 && chanOn s.com n then
      onCom (fun c => { c with ch := tmod chValDef c.ch n (fun v => { v with on := false }), ind := tmod indDef c.ind n (fun v => { v with engage := false }) }) s
    else s) s

/-- Hearth adopts what channels released from limp-home report (R265), at a commit point. -/
def adoptLimp (s : State) : State :=
  (List.range 64).foldl (fun s n =>
    match (tget chanDef s.rep.ch n).limpEnd with
    | none => s
    | some on =>
      let dset := match lhEntry s.com.lhCfg n with
        | some e => if cfMode (s.com.chCfgOf n) = 2 then lhDset s.com.lhCfg e else (s.com.chOf n).dset
        | none => (s.com.chOf n).dset
      let s := onCom (fun c => { c with ch := tput chValDef c.ch n { on := on, dset := dset, held := true } }) s
      let s := onChanBoth n (fun c => { c with limpEnd := none }) s
      notify (s.owner 1 n) 0x2002 ([BitVec.ofNat 8 n, BitVec.ofNat 8 (b2n on)] ++ le 2 dset ++ le 4 (s.fn + 1).toNat) s) s

end Sys2Proof.Machine
end

