-- ==== Sys2Proof/Machine/Protection.lean ====
section
/-! DEFINITION. Channel and supply protection (08_channel_protection): opcodes, trips, thermal limits, wire model, supply events. -/

namespace Sys2Proof.Machine

/-! ### What turns a channel off (R251 rank 2) -/

/-- Whether a channel is on in its control mode (R279). -/
def isOn (s : State) (n : Nat) : Bool :=
  let m := s.modeA n
  if m = 3 then (let k := s.coil n; decide (1 ≤ k.phase ∧ k.phase ≤ 3))
  else if m = 4 then decide ((s.bridge (brOfCh n)).st ≠ 0)
  else (s.chan n).drive

/-- The channels a protection of channel `n` turns off: both of a bridge pair (R280). -/
def protGroup (s : State) (n : Nat) : List Nat := if s.modeA n = 4 then [n - n % 2, n - n % 2 + 1] else [n]

/-- A coasting bridge has lost its ripple-counted position: the source and the event of UNCERTAIN (R364, R374). -/
def bridgeLost (b : Nat) (s : State) : State :=
  if (s.bridge b).lost then brEvent b 8 (raise 0x0A3 b (onBridge b (fun k => { k with lost := false }) s)) else s

/-- A protection function sets flag `i` of channels that turn off together and turns them off; the drive it had is kept for R301, totals and times are counted where it
was on (R304). `cause` is LAST_CAUSE. -/
def protOffAll (ns : List Nat) (i cause : Nat) (s : State) : State :=
  let on := ns.any (isOn s)
  let s := ns.foldl (fun s n => onChan n (fun c =>
    { c with before := if protHolds c.prot then c.before else c.drive, prot := clrBit (setBit c.prot i) 9, resuming := true,
             inrushEnd := none, lastTb := if on then s.tbNow else c.lastTb, lastCause := if on then cause else c.lastCause }) s) s
  ns.foldl (fun s n => if s.modeA n = 4 then bridgeLost (brOfCh n) (cutChannel n s) else cutChannel n s) s
def protOff (n i cause : Nat) (s : State) : State := protOffAll [n] i cause s

/-! ### Fast overcurrent (R275 to R280) -/

/-- A fast turn-off of a channel: `i` the current in 10 mA, `vout` the output in 10 mV. -/
def fastTrip (n i vout : Nat) (s : State) : State :=
  let p := s.pfA n
  let latch := decide (retriesLeft s n = 0)
  let low := decide (vout * 10 * 100 < 30 * ((s.anvil.sup.vbat[chZone n]?).getD 0).toNat)
  let cool := s.tbNow + msTicks (10 * pfCool p)
  let g := protGroup s n
  let s := g.foldl (fun s k => onChan k (fun c => { c with coolEnd := some cool, retryDue := false, contSince := none }) s) (protOffAll g 0 1 s)
  let s := onChan n (fun c => { c with ocTotal := c.ocTotal + 1 }) s
  let s := if low then latchDiag n 3 s else s
  let s := protEvent n 1 i s.tbNow (raise 0x064 n s)
  if latch then
    protEvent n 6 i s.tbNow (raise 0x065 n (onChan n (fun c => { c with prot := setBit c.prot 1 }) s))
  else s

/-- Whether the switches of a channel carry current that its comparators can act on: one that its committed value turned off in this very tick still does (R301). -/
def switchesOn (s : State) (n : Nat) : Bool :=
  let m := s.modeA n
  if m = 3 then decide ((s.coil n).phase ≠ 0)
  else if m = 4 then decide ((s.bridge (brOfCh n)).st ≠ 0)
  else s.conducting n || ((s.chan n).offSince = s.tbNow && (s.chan n).edgeFn = some s.anvil.lastFn && !(s.chan n).drive && !(protHolds (s.chan n).prot))

/-- Anvil is without supply: no logic, sense or protection function acts (R297, R602). -/
def State.dead (s : State) : Bool := s.pwr.state = 4

/-- OC_TRIP: the current `i` (10 mA) of channel `n` crosses the limit in force (R275); ignored while SENSE_FAULT is set (R291). -/
def execOcTrip (n i vout : Nat) (s : State) : Host.Outcome State Fault Refusal :=
  if n < 64 && !s.dead && switchesOn s n && !(bit (s.chan n).prot 6) && decide (100 * limitInForce s n < i) then .next (fastTrip n i vout s) else .next s

/-- RON_EST in micro-ohms times 80,000 at a junction temperature (R289). -/
def ronScaled (n : Nat) (tj : Int) : Nat := ((Config.rds25 n : Int) * (80000 + 45 * (tj - 200))).toNat

/-- Ticks since the last rising edge of a switch of channel `n` (R277): the start of an actuation in RISE and each chop boundary after it, each PWM period of a bridge that has
edges, the instant a brake began; else the output's own edge. -/
def sinceEdge (s : State) (n : Nat) : Nat :=
  let m := s.modeA n
  if m = 3 then (let k := s.coil n; if k.phase = 2 || k.phase = 3 then chopPos s n s.tbNow else (s.tbNow - k.startTb).toNat)
  else if m = 4 then
    let k := s.bridge (brOfCh n)
    if k.st < 2 || k.da = 0 then (s.tbNow - k.zeroSince).toNat
    else if 2490 < k.da * 2500 / 4096 then (s.tbNow - k.motionStart).toNat
    else chopPos s (n - n % 2) s.tbNow
  else (s.tbNow - (s.chan n).lastEdge).toNat

/-- VDS_TRIP: V_DS (0.5 mV) exceeds 1.3 times the limit in force times RON_EST at the junction temperature of the last 100 us evaluation, from 5 us
after the rising edge on (R277). -/
def execVdsTrip (n vds i vout : Nat) (s : State) : Host.Outcome State Fault Refusal :=
  let c := s.chan n
  if n < 64 && !s.dead && decide (250 ≤ sinceEdge s n) && switchesOn s n && decide (limitInForce s n * ronScaled n c.tjEval * 13 < vds * 500 * 800000) then .next (fastTrip n i vout s)
  else .next s

/-- The retry of a channel whose cool-down ended is due where retries remain and nothing latched. -/
def coolDone (n : Nat) (s : State) : State :=
  onChan n (fun c => { c with coolEnd := none, prot := clrBit c.prot 0, retryDue := decide (retriesLeft s n ≠ 0) && !(bit c.prot 1) }) s

/-- COOL_DOWN_EXPIRY: the cool-down of channel `n` ends (R278); a channel under limp-home retries at its next limp-home turn-on. -/
def execCoolDownExpiry (n : Nat) (s : State) : Host.Outcome State Fault Refusal :=
  match (s.chan n).coolEnd with
  | none => .next s
  | some t =>
    let s := advTo t s
    let s := (protGroup s n).foldl (fun s k => coolDone k s) s
    .next (if (s.chan n).limp then limpAll s else s)

/-- RETRY_RESTORE: 1,000 ms of continuous conduction have passed (R279). -/
def execRetryRestore (n : Nat) (s : State) : Host.Outcome State Fault Refusal :=
  match (s.chan n).contSince with
  | none => .next s
  | some t =>
    let s := advTo (t + msTicks 1000) s
    .next ((protGroup s n).foldl (fun s k => onChan k (fun c => { c with retries := none }) s) s)

/-- INRUSH_WINDOW_END (R276). -/
def execInrushWindowEnd (n : Nat) (s : State) : Host.Outcome State Fault Refusal :=
  match (s.chan n).inrushEnd with
  | none => .next s
  | some t => .next (onChan n (fun c => { c with inrushEnd := none, prot := clrBit c.prot 9 }) (advTo t s))

/-! ### Thermal limits (R285 to R288) -/

def tempOff (n flag cause ev src : Nat) (s : State) : State :=
  let on := isOn s n
  let s := (protGroup s n).foldl (fun s k => if k = n then protOff n flag cause s else onChan k (fun c => { c with resuming := true }) s) s
  let s := if on then onChan n (fun c => { c with thermTotal := c.thermTotal + 1 }) s else s
  protEventFree n ev (raise src n s)

/-- TSD_TRIP: the junction of channel `n` reaches 175 degrees; `tj` in 0.125 degrees (R285). -/
def execTsdTrip (n : Nat) (tj : Int) (s : State) : Host.Outcome State Fault Refusal :=
  if n < 64 && !s.dead && decide (1400 ≤ tj) && !(bit (s.chan n).prot 4) then .next (tempOff n 4 3 3 0x068 s) else .next s

/-- A channel under limp-home resumes at its next limp-home turn-on, any other at a start-slot edge. -/
def protFree (n : Nat) (s : State) : State := if (s.chan n).limp then limpAll s else s

/-- TSD_CLEAR: the junction has fallen to 160 degrees (R285). -/
def execTsdClear (n : Nat) (tj : Int) (s : State) : Host.Outcome State Fault Refusal :=
  if !s.dead && bit (s.chan n).prot 4 && decide (tj ≤ 1280) then .next (protFree n (onChan n (fun c => { c with prot := clrBit c.prot 4 }) s)) else .next s

/-- TREF of channel `n` from the area readings (0.125 degrees) and the mask of faulted sensors (R286). -/
def trefOf (areas : List Int) (faulted n : Nat) : Option Int :=
  let a := 3 * n / 16
  if !(bit faulted a) then areas[a]?
  else (((List.range 12).filter (fun i => !(bit faulted i))).filterMap (fun i => areas[i]?)).min?

/-- DTJ_EVALUATION: the 100 us evaluation of channel `n` with the conversions of its junction and of the twelve area sensors (R287, R288). -/
def execDtjEvaluation (n : Nat) (tj : Int) (areas : List Int) (s : State) : Host.Outcome State Fault Refusal :=
  if n < 64 && !s.dead then
    let tref := trefOf areas s.anvil.areaFault n
    let s := onChan n (fun c => { c with tref := tref, tjEval := tj }) s
    let lim : Int := pfDtj (s.pfA n)
    match tref with
    | none => .next (if bit (s.chan n).prot 5 then protFree n (onChan n (fun c => { c with prot := clrBit c.prot 5 }) s) else s)
    | some t =>
      if bit (s.chan n).prot 5 then
        .next (if tj - t ≤ 8 * (lim - 15) then protFree n (onChan n (fun c => { c with prot := clrBit c.prot 5 }) s) else s)
      else .next (if 8 * lim < tj - t then tempOff n 5 4 4 0x069 s else s)
  else .next s

/-! ### The wire model (R281 to R284) -/

/-- One frame of the wire model: theta in units of 2^-23, `isq` the mean squared current in (10 mA)^2. The exponential of 1 ms is taken to its third
term, exact to the last place kept. The rounding of that place is not stated: it is free but where R283 settles it, since a steady current of I_WIRE or less never trips and a
greater one does in finite time. -/
def wireStep (c : Rec) (theta isq : Nat) : Nat :=
  let d : Int := pfTau c * 100
  let w : Int := pfIwire c * pfIwire c
  let num : Int := ((isq : Int) * 8388608 - theta * w) * (6 * d * d - 3 * d + 1)
  let den := w * 6 * d * d * d
  let down := (theta + num / den).toNat
  let up := if num % den = 0 then down else down + 1
  let free := if Config.wireRound theta isq (pfIwire c) (pfTau c) then up else down
  satN 16777215 (if 8388608 ≤ theta then free else if pfIwire c * pfIwire c < isq then up else min free 8388607)

/-- e to the power 10 / `tau`, times 2^64, by its series: the wire's cooling in 1 s at a time constant of `tau` tenths of a second (R284). -/
def expTen (tau : Nat) : Nat := ((List.range 64).foldl (fun a k => (a.1 + a.2, a.2 * 10 / (tau * (k + 1)))) (0, 2 ^ 64)).1

/-- One second of cooling in park (R284): theta times e^(-1 s / tau), the last place rounded as the free value has it. -/
def wireCool (tau theta : Nat) : Nat :=
  let num := theta * 2 ^ 64
  let den := max (2 ^ 64) (expTen tau)
  num / den + (if num % den ≠ 0 && Config.roundUp num den then 1 else 0)

/-- The end of a frame for the wire of channel `n` (R281, R282). -/
def wireFrame (n isq : Nat) (s : State) : State :=
  let p := s.pfA n
  let c := s.chan n
  let th := wireStep p c.theta isq
  let s := onChan n (fun c => { c with theta := th }) s
  let warn := pfWarn p
  let s :=
    if warn ≠ 0 ∧ bit c.prot 2 = false ∧ warn * 8388608 ≤ 100 * th then
      protEvent n 7 (iOnOf n (s.chan n) (s.chMeas n) / 10) s.tbNow (raise 0x066 n (onChan n (fun c => { c with prot := setBit c.prot 2 }) s))
    else if bit c.prot 2 ∧ (warn = 0 ∨ 100 * th < (warn - 10) * 8388608) then onChan n (fun c => { c with prot := clrBit c.prot 2 }) s
    else s
  if bit c.prot 3 = false ∧ 8388608 ≤ th then
    let s := (protGroup s n).foldl (fun s k => if k = n then protOff n 3 2 s else onChan k (fun c => { c with resuming := true }) s) s
    protEvent n 2 (iOnOf n (s.chan n) (s.chMeas n) / 10) s.tbNow (raise 0x067 n (onChan n (fun c => { c with wireTotal := c.wireTotal + 1 }) s))
  else s

/-- The sense check at the end of a frame (R290). -/
def senseCheck (n : Nat) (s : State) : State :=
  let m := s.chMeas n
  let e := iEst n m
  if !m.stale && decide (500 * classRated (chClass n) < e) then
    if decide (10 * m.iOn < e) then
      let k := (s.chan n).senseCount + 1
      let s := onChan n (fun c => { c with senseCount := k }) s
      if k ≥ 2 && !(bit (s.chan n).prot 6) then protEvent n 8 (e / 10) s.tbNow (raise 0x06A n (onChan n (fun c => { c with prot := setBit c.prot 6 }) s))
      else s
    else onChan n (fun c => { c with senseCount := 0 }) s
  else s

/-- The squared current the models of a channel take for a frame (R281, R291): (1.3 I_EST)^2 under SENSE_FAULT, in (10 mA)^2. -/
def modelSq (s : State) (n : Nat) : Nat :=
  let m := s.chMeas n
  if bit (s.chan n).prot 6 then (let e := iEst n m; 169 * e * e / 10000) else m.iSq

/-! ### Zone overload (R300) -/

/-- The sums of the zones at the end of a frame in 10 microamperes (`sinks` the LED sinks' part of VBAT2), the runs above 110 % and the source. -/
def zoneFrame (sinks : Nat) (s : State) : State :=
  let sum (z : Nat) : Nat :=
    100 * (((List.range 64).filter (fun n => chZone n = z)).map (fun n => let m := s.chMeas n; if m.stale then 0 else iOnOf n (s.chan n) m)).sum
      + (if z = 2 then sinks else 0)
  (List.range 4).foldl (fun s z =>
    let i := sum z
    let above := decide (110000 * zoneLimit s.sched.img z < i)
    let run := if above then (s.anvil.sup.zoneRun[z]?).getD 0 + 1 else 0
    let was := (s.anvil.sup.zoneOver[z]?).getD false
    let now := above && (was || decide (100 ≤ run))
    let s := onAnvil (fun a => { a with sup := { a.sup with zoneI := a.sup.zoneI.set z (i / 1000), zoneRun := a.sup.zoneRun.set z (min run 100), zoneOver := a.sup.zoneOver.set z now } }) s
    if now && !was then raise 0x06F z s else s) s

/-! ### Supply events (R293 to R299) -/

def onSup (f : Supply → Supply) (s : State) : State := onAnvil (fun a => { a with sup := f a.sup }) s

/-- VBATS is read: the reverse-ON circuit lets go above -2.0 V (R297), and VBATS is above 30 V no more at 30 V (R296). -/
def vbatsRead (v : Int) (s : State) : State := onSup (fun x => { x with vbats := v, revOn := x.revOn && decide (v < -2000), ovAbove := x.ovAbove && decide (30000 < v) }) s

/-- VBATS_LOW: VBATS falls to `v` mV, below 3.0 V: the crank timer starts (R294). -/
def execVbatsLow (v : Int) (s : State) : Host.Outcome State Fault Refusal :=
  let s := vbatsRead v s
  if v < 3000 ∧ s.dead = false ∧ s.anvil.sup.crankEnd.isNone ∧ s.anvil.sup.crankOff = false then
    .next (onSup (fun x => { x with crankEnd := some (s.tbNow + msTicks 50) }) s)
  else .next s

/-- VBATS_RECOVER: VBATS rises to 3.2 V before 50 ms have passed (R294). -/
def execVbatsRecover (v : Int) (s : State) : Host.Outcome State Fault Refusal :=
  let s := vbatsRead v s
  match s.anvil.sup.crankEnd with
  | none => .next s
  | some t => if 3200 ≤ v ∧ (s.tbNow = t ∨ isPast s.tbNow t = false) ∧ s.tbNow ≠ t then .next (onSup (fun x => { x with crankEnd := none }) s) else .next s

/-- CRANK_TIMEOUT: 50 ms below 3.0 V: every channel turns off (R294). -/
def execCrankTimeout (s : State) : Host.Outcome State Fault Refusal :=
  match s.anvil.sup.crankEnd with
  | none => .next s
  | some t =>
    let s := onSup (fun x => { x with crankEnd := none, crankOff := true, crankTotal := x.crankTotal + 1 }) (advTo t s)
    let s := (List.range 64).foldl (fun s n => let on := isOn s n; let s := protOff n 7 5 s; if on then protEventFree n 5 s else s) s
    .next (raise 0x06C 0 s)

/-- CRANK_RELEASE: VBATS at `v` mV has stayed at or above 3.5 V for 1 ms (R295). -/
def execCrankRelease (v : Int) (s : State) : Host.Outcome State Fault Refusal :=
  let s := vbatsRead v s
  if s.anvil.sup.crankOff && decide (3500 ≤ v) then
    let s := onSup (fun x => { x with crankOff := false }) s
    .next (limpAll ((List.range 64).foldl (fun s n => onChan n (fun c => { c with prot := clrBit c.prot 7 }) s) s))
  else .next s

/-- VBATS_OV: VBATS rises above 30 V (R296): each rise raises SUPPLY_OV, one from between 29 V and 30 V too. -/
def execVbatsOv (v : Int) (s : State) : Host.Outcome State Fault Refusal :=
  let s := vbatsRead v s
  if 30000 < v ∧ s.dead = false ∧ s.anvil.sup.ovAbove = false then .next (raise 0x06D 0 (onSup (fun x => { x with ov := true, ovAbove := true, ovTotal := x.ovTotal + 1 }) s))
  else .next s

/-- VBATS_OV_END: VBATS at or below 29 V (R296): limp-home turn-ons that were deferred follow. -/
def execVbatsOvEnd (v : Int) (s : State) : Host.Outcome State Fault Refusal :=
  let s := vbatsRead v s
  if v ≤ 29000 ∧ s.anvil.sup.ov then .next (limpAll (onSup (fun x => { x with ov := false }) s)) else .next s

/-! ### Opcodes (R304) -/

/-- The fields of a PROT_CFG a LOAD entry fails by R272: bit 0 ILIM, bit 1 INRUSH, bit 2 I_WIRE. -/
def loadFails (img : Option (Tab Octet)) (n : Nat) (p : Rec) : Nat :=
  match loadEnt img n with
  | none => 0
  | some (_, peak, tp, nom) =>
    let ilim := 10 * pfIlim p
    4 * b2n (decide (pfIwire p < nom))
      + 1 * b2n (if pfInrush p = 0 then decide (ilim < peak) else decide (10 * inrushLimit n p < peak))
      + 2 * b2n (decide (ilim < peak) && decide (100 * pfInrush p < tp))

def lowestBit (v : Nat) : Option Nat := (List.range 16).find? (fun i => bit v i)

def protConfigRange (s : State) (b : Rec) : Option Nat :=
  let n := unitIx b
  let p := sub b 8 16
  let k := chClass n
  let coil := s.com.coilCfgOf n
  match firstBad [(24, rd p 0 1 = n),
    (25, decide (classLow k ≤ pfIlim p ∧ pfIlim p ≤ classTop k) && !(cfMode (s.com.chCfgOf n) = 3 && decide (90 * pfIlim p < kfIp coil))),
    (26, decide (pfInrush p ≤ 20)), (28, decide (1 ≤ pfCool p)), (29, decide (40 ≤ pfDtj p ∧ pfDtj p ≤ 90)),
    (30, decide (10 ≤ pfIwire p ∧ pfIwire p ≤ 200 * classRated k)), (32, decide (1 ≤ pfTau p ∧ pfTau p ≤ 6000)),
    (34, pfWarn p = 0 || decide (50 ≤ pfWarn p ∧ pfWarn p ≤ 99))] with
  | some d => some d
  | none => lowestBit (loadFails s.sched.img n p)

def chProtConfigSpec : OpSpec :=
  { code := 0x2040, kind := .commit, solo := false, data := true, units := actsOn 1, priv := 2, access := noAccess, okLen := lenIs 24,
    resv := fun _ => [(6, 2, 0xFFFF), (8, 1, 0xC0), (10, 1, 0xE0), (11, 1, 0xE0), (18, 1, 0x80), (19, 5, 0xFFFFFFFFFF)],
    range := fun r s => protConfigRange s r.b, check := noCheck, anvil := toAnvil, recs := fun _ _ => 16, maxData := fun _ => 2,
    run := fun r s =>
      let n := unitIx r.b
      { st := onCom (fun c => { c with prot := tput protCfgReset c.prot n (sub r.b 8 16) }) s, status := .ok, detail := 0, data := genOct s 1 n },
    fin := finGen 1 }

/-- What CH_CLEAR_PROT does to a channel (R279, R282, R292). -/
def clearFlags (m : Nat) (c : Chan) : Chan :=
  { c with prot := clrMask c.prot (m &&& 0x4A), senseCount := if bit m 6 then 0 else c.senseCount }

/-- CH_CLEAR_PROT at Anvil: latched flags clear; with OC_LATCH the retry count is restored, a bridge pair's for both channels (R280). -/
def clearProt (n m : Nat) (s : State) : State :=
  let restore := bit m 1 && bit (s.chan n).prot 1
  let s := onChan n (clearFlags m) s
  protFree n (if restore then (protGroup s n).foldl (fun s k => onChan k (fun c => { c with retries := none }) s) s else s)

/-- The clear of a channel that versions carry to Anvil (R21): its number and mask. -/
def clrDef : Nat → Nat × Nat := fun _ => (0, 0)

/-- CH_CLEAR_PROT at its commit point: Hearth takes the flags as cleared, and the frame block carries the clear to Anvil, with one that Anvil has not executed yet. -/
def commitClear (n m : Nat) (s : State) : State :=
  let k := tget clrDef s.com.clrProt n
  let m' := if k.1 = tget (fun _ => 0) s.rep.clrDone n then m else k.2 ||| m
  onCom (fun c => { c with clrProt := tput clrDef c.clrProt n (k.1 + 1, m') }) { s with rep := { s.rep with ch := tmod chanDef s.rep.ch n (clearFlags m) } }

/-- Anvil executes the clears of its version that it has not executed yet. -/
def runClears (s : State) : State :=
  s.anvil.vals.clrProt.foldl (fun s e =>
    if tget (fun _ => 0) s.anvil.clrDone e.1 = e.2.1 then s
    else clearProt e.1 e.2.2 (onAnvil (fun a => { a with clrDone := tput (fun _ => 0) a.clrDone e.1 e.2.1 }) s)) s

def chClearProtSpec : OpSpec :=
  { code := 0x2041, kind := .commit, solo := false, data := false, units := actsOn 1, priv := 1, access := noAccess, okLen := lenIs 8,
    resv := noResv, range := fun r _ => if rd r.b 6 2 &&& 0xFFB5 = 0 then none else some 22,
    check := fun r s =>
      if cfMode (s.com.chCfgOf (unitIx r.b)) = 7 then some (.state, 6)
      else if lhHolds s (unitIx r.b) then some (.state, 1)
      else if bit (rd r.b 6 2) 3 && decide (4194304 < (tget chanDef s.rep.ch (unitIx r.b)).theta) then some (.state, 5) else none
    anvil := toAnvil, recs := fun _ _ => 0, maxData := fun _ => 0,
    run := fun r s => { st := commitClear (unitIx r.b) (rd r.b 6 2) s, status := .ok, detail := 0, data := [] } }

def chProtStatusSpec : OpSpec := readSpec 0x2042 1 6 []
    (fun r s => if cfMode (s.com.chCfgOf (unitIx r.b)) = 7 then some (.state, 6) else none) 52 (fun r s =>
    let n := unitIx r.b
    let c := tget chanDef s.rep.ch n
    let p := s.com.protOf n
    let m := s.chMeasH n
    genOct s 1 n ++ le 2 c.prot ++ [BitVec.ofNat 8 (if bit c.prot 9 then inrushLimit n p else pfIlim p), BitVec.ofNat 8 (c.retries.getD (pfRetries p))]
      ++ le 2 (satN 65535 (c.theta / 256)) ++ fitN 2 (iEst n m) ++ (match c.tref with | none => le 2 0x8000 | some t => leI 2 t)
      ++ leI 2 m.tj ++ zeros 2 ++ le 4 c.ocTotal.toNat ++ le 4 c.wireTotal.toNat ++ le 4 c.thermTotal.toNat ++ le 6 c.lastTb.toNat
      ++ [BitVec.ofNat 8 c.lastCause, 0] ++ p)

def supplyStatusSpec : OpSpec := readSpec 0x2043 0 0 [] noCheck 32 (fun _ s =>
    let u := s.rep.sup
    leI 2 u.vbats ++ (u.vbat.map (leI 2)).flatten ++ [BitVec.ofNat 8 ((if u.crankOff then 2 else if u.crankEnd.isSome then 1 else 0) + 4 * b2n u.ovAbove),
        BitVec.ofNat 8 (((List.range 4).map (fun z => 2 ^ z * b2n ((u.zoneOver[z]?).getD false))).sum)]
      ++ (u.zoneI.map (fun i => fitN 2 i)).flatten ++ le 4 u.crankTotal.toNat ++ le 4 u.ovTotal.toNat ++ [BitVec.ofNat 8 (b2n u.revSeen)] ++ zeros 3)

end Sys2Proof.Machine
end

