-- ==== Sys2Proof/Machine/Inductive.lean ====
section
/-! DEFINITION. Solenoid, latch and valve drive (09_inductive_drive): actuations, closing detection, the coil model, opcodes. -/

namespace Sys2Proof.Machine

/-! ### The coil model (R325 to R329) -/

/-- TA of the coil of channel `n` in 0.125 degrees (R325): AMB_C, or TREF plus AMB_C. For a channel without a TREF (R286) the spec states no TA: it is a free value (log 4). -/
def coilTa (n : Nat) (s : State) : Int :=
  let c := s.kfA n
  if kfAmbSrc c then (s.chan n).tref.getD ((s.freeNat % 4096 : Nat) - 2048 : Int) + 8 * kfAmb c else 8 * kfAmb c

/-- The state after TA of a coil has been taken: the free value is used where it gave it. -/
def taTaken (n : Nat) (s : State) : State := if kfAmbSrc (s.kfA n) && (s.chan n).tref.isNone then useFree s else s

/-- A quotient in the last place kept, rounded down or up: the spec does not round it. -/
def roundQ (n : Nat) (num den : Int) : Int :=
  if den = 0 then 0 else num / den + (if num % den ≠ 0 && Config.coilRound n (num / den) then 1 else 0)

/-- One frame of the model, both temperatures from those before it (R325). `isq` in (10 mA)^2. -/
def coilModel (n : Nat) (c : Rec) (ta : Int) (isq : Nat) (k : Coil) : Coil :=
  { k with
    tc := k.tc + roundQ n (kfRthCs c * isq * rcScaled c k.tc - 1000000000000 * (k.tc - k.ts)) (100000000000000 * kfTauC c)
    ts := k.ts + roundQ n ((k.tc - k.ts) * kfRthSa c - (k.ts - ta) * kfRthCs c) (1000 * kfTauS c * kfRthCs c) }

/-- The hold setpoint (R328) in 10 mA: IH of the actuation's profile `p`, the reduction by the record `c` in force (R311). -/
def holdSet (n : Nat) (p c : Rec) (tc : Int) : Nat :=
  let x := tc - 8 * ((kfTLimit c : Int) - kfTReduce c)
  let w : Int := 8 * kfTReduce c
  if x ≤ 0 then kfIh p
  else if w ≤ x then kfIhMin c
  else ((kfIh p : Int) - roundQ n (((kfIh p : Int) - kfIhMin c) * x) w).toNat

/-- The model temperatures at an Anvil power-on reset (R326). -/
def coilResetTemp (c : Rec) (ta : Int) : Int := ta + (8 * (kfTLimit c : Int) - ta) / 2

/-! ### Actuations (R312 to R316) -/

/-- PULL is entered at its chop boundary once that has passed (R313). -/
def coilSync (n : Nat) (s : State) : State :=
  onCoil n (fun k => match k.pullTb with
    | some t => if k.phase = 1 && isPast s.tbNow t then { k with phase := 2, pullTb := none, iSet := kfIp k.prof } else k
    | none => k) s

/-- The start-slot edge of an INDUCTIVE channel for a restart it has not begun falls in this tick: the restart goes ahead of a one-shot end (R336). -/
def restartNow (n : Nat) (s : State) : Bool :=
  let e := chanEnt s.sched.img s.sched.anvilMode n
  let v := s.anvil.vals.indOf n
  v.engage && v.count ≠ (s.coil n).appCount && e.disp ≠ 0 && startFrame e.period e.phase s.anvil.lastFn && s.tickA = startTick s.sched.img s.sched.anvilMode n

/-- A one-shot comes to its end (R315): DONE, unless a restart begins in the same tick. -/
def coilDone (n : Nat) (s : State) : State := if restartNow n s then s else coilOneShotEnd n 4 s

/-- The chop boundary at which the HOLD of a one-shot ends (R315). -/
def holdEndTb (n : Nat) (s : State) : Tb := let k := s.coil n; chopAtOrAfter s n (k.holdTb + msTicks (10 * kfHoldMs k.prof))

/-- The start-slot edge of an INDUCTIVE channel by its committed values (R312, R333); `only` permits a release alone (R179). A one-shot end that
Hearth has not adopted yet starts nothing again (R315). A release committed for the edge at which a one-shot ends is that end, and DONE is reported (R336). -/
def coilEdge (n : Nat) (only : Bool) (s : State) : State :=
  let k := s.coil n
  let v := s.anvil.vals.indOf n
  let again := decide (v.count ≠ k.appCount)
  if v.engage then
    if only then s
    else if again || (!k.appEngage && !k.report) then coilBegin n v.count s
    else if k.interrupted && k.appEngage && k.flags / 256 % 8 = 0 then coilBegin n v.count s
    else s
  else
    let s := onChan n (fun c => { c with prot := clrBit c.prot 8 }) s
    let s := if k.phase = 3 && kfHoldMs k.prof ≠ 0 && s.tbNow = holdEndTb n s then coilOneShotEnd n 4 s
      else if k.appEngage && (1 ≤ k.phase && k.phase ≤ 3) then
        coilRelease n (onCoil n (fun k => { k with outcome := if k.phase ≤ 2 then 4 else k.outcome }) s) else s
    onChan n (fun c => { c with contSince := none }) (onCoil n (fun k => { k with appEngage := false, appCount := v.count, interrupted := false, report := false }) s)

/-- IND_IP_REACHED: the current first reaches IP in RISE: the gate is off until the next chop boundary, where PULL begins (R313). -/
def execIndIpReached (n : Nat) (s : State) : Host.Outcome State Fault Refusal :=
  let k := s.coil n
  if k.phase = 1 && !k.reached then .next (onCoil n (fun k => { k with reached := true, pullTb := some (chopAtOrAfter s n (s.tbNow + 1)) }) s) else .next s

/-- The instant the pull-in ends (R314) and whether the kink rule ends it. -/
def pullEnd (s : State) (n : Nat) : Tb × Bool :=
  let k := s.coil n
  let tp := k.startTb + msTicks (kfTpMax k.prof)
  match k.closeTb, k.kinkSeen with
  | some c, some d =>
    let m := c + msTicks (kfMargin k.prof)
    let e := if isPast d m then d else m
    if kfKinkEnd k.prof && !(isPast e tp) then (chopAtOrAfter s n e, true) else (chopAtOrAfter s n tp, false)
  | _, _ => (chopAtOrAfter s n tp, false)

/-- PULL_SAT is set once in an actuation (R331). -/
def pullSat (n : Nat) (s : State) : State :=
  if bit (s.coil n).flags 2 then s else raise 0x081 n (onCoil n (fun k => { k with flags := setBit k.flags 2 }) s)

/-- HOLD begins. -/
def coilHold (n : Nat) (s : State) : State :=
  onCoil n (fun k => { k with phase := 3, pullTb := none, holdTb := s.tbNow, iSet := holdSet n k.prof (s.kfA n) k.tc }) s

/-- The end of a pull-in whose hold time of R47 has passed meanwhile: the channel releases (R48, R334). -/
def pullHeld (n : Nat) (s : State) : State :=
  if (s.chan n).orphan = 3 then onCoil n (fun k => { k with appEngage := false }) (coilRelease n s) else s

/-- PULL_IN_END: the pull-in ends (R314); without a kink the outcome is set (R322). An actuation with IH 0 ends with it, one without motion where NM_RELEASE
is set, but not in the Quench safe state ON, which has no one-shot end (R334). -/
def execPullInEnd (n : Nat) (s : State) : Host.Outcome State Fault Refusal :=
  let k := s.coil n
  if k.phase = 1 || k.phase = 2 then
    let e := pullEnd s n
    let s := coilSync n (advTo e.1 s)
    let s := onCoil n (fun k => { k with flags := if e.2 then setBit k.flags 3 else k.flags, pullTb := none }) s
    let s := if k.reached then s else pullSat n s
    let safeOn := (s.chan n).safe && cfSafe (s.cfA n) = 1
    let noHold := kfIh k.prof = 0 && !safeOn
    if k.closeTb.isSome then .next (if noHold then coilDone n s else pullHeld n (coilHold n s))
    else if k.reached && !k.satWin && k.anyD then
      let s := raise 0x080 n (onCoil n (fun k => { k with outcome := 2, flags := setBit k.flags 1, noMotion := k.noMotion + 1 }) s)
      let s := indEvent n 2 s.tbNow s
      .next (if noHold || (kfNmRelease k.prof && !safeOn) then coilDone n s else pullHeld n (coilHold n s))
    else
      let s := indEvent n 3 s.tbNow (onCoil n (fun k => { k with outcome := 3 }) s)
      .next (if noHold then coilDone n s else pullHeld n (coilHold n s))
  else .next s

/-- ONE_SHOT_END: HOLD_MS after HOLD began (R315). A restart committed for this very start edge goes ahead of it (R336). -/
def execOneShotEnd (n : Nat) (s : State) : Host.Outcome State Fault Refusal :=
  let k := s.coil n
  if k.phase = 3 && kfHoldMs k.prof ≠ 0 then .next (coilDone n (advTo (holdEndTb n s) s)) else .next s

/-- IND_RELEASE_END: the decaying current falls below max(2 % of IP, 20 mA): IDLE (R313). -/
def execIndReleaseEnd (n : Nat) (s : State) : Host.Outcome State Fault Refusal :=
  if (s.coil n).phase = 4 then
    .next (indEvent n 5 s.tbNow (onChan n (fun c => { c with offSince := s.tbNow, lastEdge := s.tbNow }) (onCoil n (fun k => { k with phase := 0 }) s)))
  else .next s

/-- A coil fault latches and releases the coil at once (R331): flag, source, event. DEDUCED: it is an interruption by the first sentence of R333, whose list of causes does not
name it (log 29). -/
def coilFault (n flag src ev : Nat) (s : State) : State :=
  let s := indEvent n ev s.tbNow (raise src n (onCoil n (fun k => { k with flags := setBit k.flags flag }) s))
  coilInterrupt n s

/-- COIL_OPEN_CHECK: at 2 ms after the start edge, in RISE, the current `i` in 10 mA (R331). -/
def execCoilOpenCheck (n i : Nat) (s : State) : Host.Outcome State Fault Refusal :=
  let k := s.coil n
  if k.phase = 1 && !k.reached then
    let s := advTo (k.startTb + msTicks 2) s
    .next (if 100 * i < 5 * kfIp k.prof then coilFault n 9 0x082 9 s else s)
  else .next s

/-- RM below half of RCOIL (R331): sums of U in 5 mV and of I in mA. -/
def coilShorted (c : Rec) (u i : Nat) : Bool := i ≠ 0 && decide ((5000 * u : Int) - kfRharn c * i < 5 * kfRcoil c * i)

/-- T_CLOSE against the mean of the last 16 (R324). -/
def closeTrend (n t : Nat) (s : State) : State :=
  let k := s.coil n
  let slow := k.closedN ≥ 16 && decide (3 * k.hist.sum < 32 * t)
  let s := onCoil n (fun k => { k with hist := (t :: k.hist).take 16, closedN := min 16 (k.closedN + 1), flags := if slow then setBit k.flags 4 else k.flags }) s
  if slow then indEvent n 11 s.tbNow (raise 0x086 n s) else s

/-- CLOSING_DETECTION_WINDOW: a window of four cycles completes: `us` their mean voltages in 5 mV, `is` their mean currents in mA, `sat` one of them
was saturated (R320, R321, R331). -/
def execClosingDetectionWindow (n : Nat) (us is : List Nat) (sat : Bool) (s : State) : Host.Outcome State Fault Refusal :=
  let s := coilSync n s
  let k := s.coil n
  if k.phase = 2 then
    let c := k.prof
    let short := k.wins = 0 && coilShorted (s.kfA n) us.sum is.sum
    let u : Int := us.sum
    let s := if sat then pullSat n s else s
    let s := onCoil n (fun k => { k with wins := k.wins + 1, satWin := k.satWin || sat, u2 := if sat then none else k.u1, u1 := if sat then none else some u }) s
    if short then .next (coilFault n 10 0x083 10 s)
    else
      match sat, k.u1, k.u2 with
      | false, some a, some b =>
        if kfThr c ≠ 0 && decide (kfBlank c * 50000 ≤ (s.tbNow - k.startTb).toNat) then
          let d := u - 2 * a + b
          let s := onCoil n (fun k => { k with anyD := true }) s
          if d * 5 ≤ -(40 * (kfThr c : Int)) && decide (u < a) && k.closeTb.isNone then
            let close := s.tbNow - 10000
            let t := (close - k.startTb).toNat / 50
            let s := onCoil n (fun k => { k with closeTb := some close, kinkSeen := some s.tbNow, tClose := t, kinkMv := (-d).toNat * 5 / 4, outcome := 1,
                                                 flags := setBit k.flags 0 }) s
            .next (closeTrend n t (indEvent n 1 close s))
          else .next s
        else .next s
      | _, _, _ => .next s
  else .next s

/-- The end of a frame for a coil (R325 to R331): `u`, `i` the sums of the frame's cycles (5 mV, mA), `cyc` their number, `sat` a saturated cycle. -/
def coilFrame (n : Nat) (u i cyc : Nat) (sat : Bool) (s : State) : State :=
  if s.modeA n ≠ 3 then s
  else
    let s := coilSync n s
    let c := s.kfA n
    if kfRcoil c = 0 then s
    else
      let ta := coilTa n s
      let s := onCoil n (coilModel n c ta (modelSq s n)) (taTaken n s)
      let whole := (s.coil n).phase = 3 && isPast (s.time.anvilTb - 50000) ((s.coil n).holdTb + msTicks 5)
      let s :=
        if whole && !sat && decide (100 * cyc < i) then
          let rmN : Int := 5000 * u - kfRharn c * i
          let s := onCoil n (fun k => { k with rm := (rmN / i).toNat }) s
          let num : Int := 80000 * (rmN - 10 * kfRcoil c * i)
          let den : Int := 393 * kfRcoil c * i
          let s :=
            if (ta - 160 - 160) * den ≤ num && num ≤ (8 * (kfTLimit c : Int) + 320 - 160) * den then
              onCoil n (fun k => { k with tc := k.tc + roundQ n (num + (160 - k.tc) * den) (16 * den), flags := clrBit k.flags 7 }) s
            else raise 0x085 n (onCoil n (fun k => { k with flags := setBit k.flags 7 }) s)
          if coilShorted c u i then coilFault n 10 0x083 10 s else s
        else s
      let s :=
        if 8 * ((kfTLimit c : Int) + 15) ≤ (s.coil n).tc && !(bit (s.coil n).flags 8) then
          let s := indEvent n 8 s.tbNow (raise 0x084 n (onCoil n (fun k => { k with flags := setBit k.flags 8 }) s))
          onCoil n (fun k => { k with appEngage := false, report := true, interrupted := false }) (coilInterrupt n s)
        else s
      let s := coilHot n s
      onCoil n (fun k =>
        if k.phase = 3 then
          let h := holdSet n k.prof c k.tc
          { k with iSet := h, flags := if h < kfIh k.prof then setBit k.flags 5 else clrBit k.flags 5 }
        else { k with flags := clrBit k.flags 5 }) s

/-- The coil model of one second in park with no current (R326). -/
def coilPark (n : Nat) (s : State) : State :=
  let c := s.kfA n
  if s.modeA n ≠ 3 || kfRcoil c = 0 then s
  else
    let ta := coilTa n s
    onCoil n (fun k =>
      { k with tc := k.tc + roundQ n (-(1000 * 1000000000000 * (k.tc - k.ts))) (100000000000000 * kfTauC c)
               ts := k.ts + roundQ n (1000 * ((k.tc - k.ts) * kfRthSa c - (k.ts - ta) * kfRthCs c)) (1000 * kfTauS c * kfRthCs c) }) (taTaken n s)

/-! ### Opcodes (R339) -/

/-- The channel is in INDUCTIVE mode. -/
def indMode (r : Req) (s : State) : Option (Status × Nat) := if cfMode (s.com.chCfgOf (unitIx r.b)) ≠ 3 then some (.state, 2) else none

def indConfigRange (s : State) (b : Rec) : Option Nat :=
  let n := unitIx b
  let c := sub b 8 32
  let mCls := chClass n = 1
  let load := loadEnt s.sched.img n
  let between (lo x hi : Nat) : Bool := decide (lo ≤ x ∧ x ≤ hi)
  let amb := kfAmb c
  firstBad [(24, rd c 0 1 = n && (chClass n = 1 || chClass n = 3)),
    (26, between 10 (kfIp c) (if mCls then 1500 else 1800) && decide (kfIp c ≤ 90 * pfIlim (s.com.protOf n))
      && (match load with | some (_, pk, _, _) => decide (kfIp c ≤ 10 * pk) | none => true)),
    (28, decide (kfIh c ≤ kfIp c) && decide (kfIh c ≤ (if mCls then 1000 else 1200))
      && (match load with | some (_, _, _, nom) => decide (kfIh c ≤ nom) | none => true)),
    (30, decide (kfIhMin c ≤ kfIh c) && !(kfIhMin c = 0 && kfIh c ≠ 0)),
    (32, decide (2 ≤ kfTpMax c)), (33, decide (kfBlank c < kfTpMax c)), (34, decide (kfMargin c ≤ 50)), (36, decide (kfHoldMs c ≤ 6000)),
    (38, between 50 (kfRcoil c) 10000), (40, decide (kfRharn c ≤ 2000)),
    (42, if mCls then between 30 (rd c 18 1) 150 else rd c 18 1 = 0), (43, between 60 (kfTLimit c) 200), (44, between 1 (kfTReduce c) 50),
    (45, if kfAmbSrc c then decide (-20 ≤ amb ∧ amb ≤ 40) else decide (-40 ≤ amb ∧ amb ≤ 125)),
    (46, between 1 (kfRthCs c) 10000), (48, between 1 (kfTauC c) 6000), (50, between 1 (kfRthSa c) 10000),
    (52, between 1 (kfTauS c) 36000 && decide (kfRthSa c ≤ 10 * kfTauS c * kfRthCs c))]

/-- A change of IP or of a KINK field (R311). -/
def kinkChange (a b : Rec) : Bool := kfIp a ≠ kfIp b || kfKinkEnd a ≠ kfKinkEnd b || kfBlank a ≠ kfBlank b || kfMargin a ≠ kfMargin b || kfThr a ≠ kfThr b

def onCoilBoth (n : Nat) (f : Coil → Coil) (s : State) : State := onCoil n f { s with rep := { s.rep with coil := tmod coilDef s.rep.coil n f } }

def indConfigSpec : OpSpec :=
  { code := 0x3000, kind := .commit, solo := false, data := true, units := actsOn 1, priv := 2, access := noAccess, okLen := lenIs 40,
    resv := fun _ => [(6, 2, 0xFFFF), (8, 1, 0xC0), (9, 1, 0xF0), (38, 2, 0xFFFF)], range := fun r s => indConfigRange s r.b, check := indMode,
    anvil := toAnvil, recs := fun _ _ => 32, maxData := fun _ => 2,
    run := fun r s =>
      let n := unitIx r.b
      let c := sub r.b 8 32
      let s := if kinkChange (s.com.coilCfgOf n) c then onCoilBoth n (fun k => { k with hist := [], closedN := 0 }) s else s
      { st := onCom (fun m => { m with coilCfg := tput coilCfgDef m.coilCfg n c }) s, status := .ok, detail := 0, data := genOct s 1 n },
    fin := finGen 1 }

/-- IND_SET: ENGAGE and ACT_COUNT after it (R312). -/
def indSetVal (old : IndVal) (b : Rec) : IndVal :=
  let e := bit (rd b 6 1) 0
  { engage := e, count := if (e && !old.engage) || bit (rd b 6 1) 1 then old.count + 1 else old.count }

/-- IND_SET at step 10 and at the commit point: the mode and record of the channel, what the schedule permits of a change (R179, R191, R329), then the state of the coil. -/
def indSetCheck (r : Req) (s : State) : Option (Status × Nat) :=
  let n := unitIx r.b
  let old := s.com.indOf n
  let v := indSetVal old r.b
  let k := tget coilDef s.rep.coil n
  let c := s.com.coilCfgOf n
  if cfMode (s.com.chCfgOf n) ≠ 3 then some (.state, 2)
  else if v.engage && kfIp c = 0 then some (.state, 8)
  else if v ≠ old && dispRefuses s.sched.img s.com.mode n (old.engage && !v.engage) then some (.schedule, 1)
  else if v.engage && !old.engage && simulOver s.sched.img { s.com with ind := tput indDef s.com.ind n v } n then some (.schedule, 2)
  else if v.count ≠ old.count && !(coilCool c k.tc) then some (.schedule, 0x301)
  else if v.engage && k.flags / 256 % 8 ≠ 0 then some (.state, 7)
  else if s.com.chCfgNow.contains n then some (.busy, 0)
  else none

def indSetSpec : OpSpec :=
  { code := 0x3001, kind := .commit, solo := false, data := true, units := actsOn 1, priv := 1, access := noAccess, okLen := lenIs 8,
    resv := fun _ => [(6, 1, 0xFC), (7, 1, 0xFF)], range := fun r _ => if rd r.b 6 1 % 4 = 2 then some 22 else none, check := indSetCheck, anvil := toAnvil,
    recs := fun _ _ => 0, maxData := fun _ => 12,
    run := fun r s =>
      let n := unitIx r.b
      let v := indSetVal (s.com.indOf n) r.b
      let s := onCom (fun c => { c with ind := tput indDef c.ind n v, ch := tmod chValDef c.ch n (fun x => { x with held := false }) }) s
      let f := applyFn s n r.eff
      let l := lateStatus r f
      { st := s, status := l.1, detail := l.2,
        data := genOct s 1 n ++ [BitVec.ofNat 8 (b2n v.engage), v.count] ++ le 4 f.toNat ++ fitI 2 (tget coilDef s.rep.coil n).tc ++ [0, 0] },
    fin := fun r s d => let v := s.com.indOf (unitIx r.b); genOct s 1 (unitIx r.b) ++ [BitVec.ofNat 8 (b2n v.engage), v.count] ++ d.drop 4 }

def indStatusSpec : OpSpec := readSpec 0x3002 1 6 [] indMode 76 (fun r s =>
    let n := unitIx r.b
    let k := tget coilDef s.rep.coil n
    let v := s.com.indOf n
    let avg := if k.hist.length < 16 then 0 else k.hist.sum / 16
    genOct s 1 n ++ [BitVec.ofNat 8 (s.owner 1 n), BitVec.ofNat 8 (k.phase + 8 * k.outcome), BitVec.ofNat 8 (b2n v.engage), v.count] ++ le 2 k.flags ++ le 2 k.iSet
      ++ fitN 2 (iOnOf n (tget chanDef s.rep.ch n) (s.chMeasH n)) ++ fitI 2 k.tc ++ fitI 2 k.ts ++ fitN 2 k.rm ++ fitN 2 k.kinkMv
      ++ le 4 k.tClose ++ le 4 avg ++ le 6 k.startTb.toNat ++ zeros 2 ++ le 4 k.actuations.toNat ++ le 4 k.noMotion.toNat ++ s.com.coilCfgOf n)

def indClearSpec : OpSpec :=
  { code := 0x3003, kind := .commit, solo := false, data := false, units := actsOn 1, priv := 1, access := noAccess, okLen := lenIs 8,
    resv := noResv, range := fun r _ => if rd r.b 6 2 &&& 0xF8FF = 0 then none else some 22,
    check := fun r s =>
      let n := unitIx r.b
      let c := s.com.coilCfgOf n
      if cfMode (s.com.chCfgOf n) ≠ 3 then some (.state, 2)
      else if bit (rd r.b 6 2) 8 && decide (8 * ((kfTLimit c : Int) - kfTReduce c) < (tget coilDef s.rep.coil n).tc) then some (.state, 9) else none
    anvil := toAnvil, recs := fun _ _ => 0, maxData := fun _ => 0,
    run := fun r s => { st := onCoilBoth (unitIx r.b) (fun k => { k with flags := clrMask k.flags (rd r.b 6 2) }) s, status := .ok, detail := 0, data := [] } }

/-- Hearth adopts ENGAGE 0 for the actuations Anvil reports ended (R315, R329, R330, R333), ahead of the batches of a commit point. -/
def adoptCoils (s : State) : State :=
  (List.range 64).foldl (fun s n =>
    let k := tget coilDef s.rep.coil n
    let v := s.com.indOf n
    if k.report && v.engage && v.count = k.appCount then onCom (fun c => { c with ind := tput indDef c.ind n { v with engage := false } }) s else s) s

end Sys2Proof.Machine
end

