-- ==== Sys2Proof/Machine/Bridges.lean ====
section
/-! DEFINITION. Motor bridges (10_motor_bridges): motion, position, pinch, stall, open phase, opcodes. -/

namespace Sys2Proof.Machine

def bCfg (s : State) (b : Nat) : Rec := s.bfA b
def still (k : Bridge) : Bool := bit k.flags 7
def uncertain (k : Bridge) : Bool := bit k.flags 0
def pinching (k : Bridge) : Bool := bit k.flags 1
def otherDir (d : Nat) : Nat := if d = 2 then 3 else 2

/-! ### Motion (R346, R347, R352, R353) -/

/-- The pair is driven again: a retry is counted once for both channels (R278, R280), windows open at a retry or after 10 ms off (R276), continuous conduction begins (R279). -/
def drivePair (b : Nat) (s : State) : State :=
  let n := brCh b
  let win := (s.chan n).retryDue || decide (500000 ≤ (s.tbNow - (s.bridge b).zeroSince).toNat)
  let s := resumeAt n s
  let s := onChan (n + 1) (fun c => { c with retries := (s.chan n).retries, retryDue := false, resuming := false, prot := clrBit c.prot 8 }) s
  let begin_ (s : State) (m : Nat) : State :=
    let s := onChan m (fun c => { c with contSince := if c.contSince.isSome then c.contSince else some s.tbNow }) s
    if win then openInrush m s else s
  begin_ (begin_ s n) (n + 1)

/-- A bridge at standstill, or coasting in the same direction, begins to move in direction `dir` from D_A = 0 at a start-slot edge (R347). -/
def startMotion (b dir : Nat) (s : State) : State :=
  let n := brCh b
  if ovDefers s n then onBridge b (fun k => { k with ready := true, cut := false }) (onChan n (fun c => { c with prot := setBit c.prot 8 }) s)
  else
    let s := drivePair b s
    onBridge b (fun k =>
      { k with st := dir, da := 0, frac := 0, rampTb := s.tbNow, motionStart := s.tbNow, mdir := dir, flags := clrMask k.flags 0xB8, ready := false,
               cut := false, critA := 0, critB := 0, cruise := 0, stallSince := none, openSince := none, want := dir }) s

/-- A report that Hearth adopts a DRIVE (R357). -/
def brReport (b d : Nat) (s : State) : State := onBridge b (fun k => { k with adopt := some d }) s

/-- The report a stop makes at standstill: 1 ARRIVED, 4 STALL for a GOTO whose position became uncertain, 6 PINCH_DONE (R354, R367, R373). A
committed COAST or BRAKE that waited for the end of a reversal is then applied, and nothing is adopted (R368). -/
def finishStop (b : Nat) (s : State) : State :=
  let k := s.bridge b
  let ev := k.stopEv
  let s := onBridge b (fun k => { k with stopEv := 0 }) s
  if ev = 1 then brEvent b 1 (onBridge b (fun k => { k with flags := setBit k.flags 3 }) s)
  else if ev = 4 then brReport b 1 (brEvent b 4 (onBridge b (fun k => { k with flags := setBit k.flags 4 }) s))
  else if ev = 6 then
    let s := brEvent b 6 (onBridge b (fun k => { k with flags := clrBit k.flags 1 }) s)
    let w := s.anvil.vals.brOf b
    if w.drive ≤ 1 then onBridge b (fun k => { k with app := w, st := w.drive }) s else brReport b 1 s
  else s

/-- A bridge brakes with no ramp; the report `ev` is due at standstill. -/
def brakeFor (b ev : Nat) (s : State) : State :=
  let s := onBridge b (fun k => { k with stopEv := ev }) (bridgeBrake b s)
  if still (s.bridge b) then finishStop b s else s

/-! ### Position (R354, R355, R358 to R364) -/

/-- UNCERTAIN is set: its source and event once. -/
def setUncertain (b : Nat) (s : State) : State :=
  if uncertain (s.bridge b) then s
  else
    let s := brEvent b 8 (raise 0x0A3 b (onBridge b (fun k => { k with flags := setBit k.flags 0 }) s))
    if (s.bridge b).goal = 2 then
      onBridge b (fun k => { k with want := 0, goal := 0, stopEv := 4 }) (rampTo b s.tbNow s)
    else s

/-- What the position reached ends: a GOTO, a reversal, a run at its soft limit, also one that begins there (R354, R355, R367, R373). -/
def posCheck (b : Nat) (s : State) : State :=
  let k := s.bridge b
  let c := bCfg s b
  let within (g : Int) : Bool := match distLeft k.want k.pos g with | none => true | some x => decide (x ≤ bfTol c)
  let limit := if k.want = 2 then bfPosMax c else bfPosMin c
  let soft := !(uncertain k) && bfPosSrc c ≠ 0 && within limit
  if k.want = 0 || k.st ≠ k.want then s
  else if k.goal = 2 then (if within k.goalPos then brakeFor b 1 s else s)
  else if k.goal = 4 then (if within k.goalPos || soft then brakeFor b 6 s else s)
  else if k.goal = 1 && soft then
    brReport b 1 (brEvent b 2 (onBridge b (fun k => { k with flags := setBit k.flags 5 }) (bridgeBrake b s)))
  else s

/-- New committed values, or those in force after an interruption, are taken up at a start-slot edge (R346, R352, R353, R354, R371). -/
def planMotion (b : Nat) (w : BrVal) (s : State) : State :=
  let c := bCfg s b
  let s := rampTo b s.tbNow s
  let s := onBridge b (fun k => { k with app := w, cut := false, stopEv := 0 }) s
  let k := s.bridge b
  if w.drive ≤ 1 then
    onBridge b (fun k => { k with want := 0, goal := 0, ready := false, dwell := none, st := if still k then w.drive else k.st }) s
  else if w.drive = 4 && uncertain k then
    if still k then finishStop b (onBridge b (fun k => { k with stopEv := 4 }) s)
    else onBridge b (fun k => { k with want := 0, goal := 0, ready := false, dwell := none, stopEv := 4 }) s
  else if w.drive = 4 && decide ((w.target - k.pos).natAbs ≤ bfTol c) then brakeFor b 1 s
  else
    let dir := if w.drive = 4 then (if k.pos < w.target then 2 else 3) else if w.drive = 5 then (if bfHomeDir c then 2 else 3) else w.drive
    let goal := if w.drive = 4 then 2 else if w.drive = 5 then 3 else 1
    let s := onBridge b (fun k => { k with want := dir, goal := goal, goalPos := w.target }) s
    if k.dwell.isSome then s
    else if still k then posCheck b (startMotion b dir s)
    else if k.mdir = dir then posCheck b (if k.st = dir then s else onBridge b (fun k => { k with st := dir, rampTb := s.tbNow }) (drivePair b s))
    else onBridge b (fun k => { k with st := if k.da = 0 && k.frac = 0 then 1 else k.st }) s

/-- The start-slot edge of a bridge, at its even channel; `only` permits a stop alone (R179). -/
def bridgeEdge (b : Nat) (only : Bool) (s : State) : State :=
  let k := s.bridge b
  let w := s.anvil.vals.brOf b
  if pinching k then
    if k.goal = 4 && k.dwell.isNone && (k.ready || k.cut) then
      if still k || k.mdir = k.want then posCheck b (startMotion b k.want s)
      else onBridge b (fun k => { k with st := 1, cut := false }) s
    else s
  else if w.drive ≥ 2 && only then s
  else if w ≠ k.app then planMotion b w s
  else if k.ready && k.want ≠ 0 then posCheck b (startMotion b k.want s)
  else if k.cut && k.dwell.isNone && w.drive ≥ 2 && k.adopt.isNone then planMotion b w s
  else s

/-- POS changes by `d`, saturating with UNCERTAIN (R358). -/
def movePos (b : Nat) (d : Int) (s : State) : State :=
  if d = 0 then s
  else
    let s := rampTo b s.tbNow s
    let p := (s.bridge b).pos + d
    let sat : Int := if p > 8388607 then 8388607 else if p < -8388608 then -8388608 else p
    let s := onBridge b (fun k => { k with pos := sat, lastMove := s.tbNow, stallSince := none, openSince := none, flags := clrBit k.flags 7 }) s
    let s := if sat ≠ p then setUncertain b s else s
    posCheck b s

/-- Place of an encoder pair in the sequence 00, 10, 11, 01 (R359). -/
def encPlace (a b : Bool) : Nat := match a, b with | false, false => 0 | true, false => 1 | true, true => 2 | false, true => 3

/-- ENCODER_STEP: the filtered pair of bridge `b` becomes (a, e) (R359, R360), which is sampled in RUN and IDLE only (R359, R362). -/
def execEncoderStep (b : Nat) (a e : Bool) (s : State) : Host.Outcome State Fault Refusal :=
  if 2 ≤ s.pwr.state then .next s else
  let k := s.bridge b
  let c := bCfg s b
  let d := (encPlace a e + 4 - encPlace k.encA k.encB) % 4
  let s := onBridge b (fun k => { k with encA := a, encB := e }) s
  if b ≥ 8 || d = 0 || bfPosSrc c ≠ 1 || s.modeA (brCh b) ≠ 4 then .next s
  else if d = 2 then
    let s := onBridge b (fun k => { k with skips := min 255 (k.skips + 1) }) s
    .next (if bfSkipLimit c ≤ (s.bridge b).skips then setUncertain b s else s)
  else
    let step : Int := if d = 1 then 1 else -1
    .next (movePos b (if bfEncInv c then -step else step) s)

/-- Ripple counting at an executed frame (R363, R364): the growth of the task's cumulative values. -/
def rippleApply (b : Nat) (s : State) : State :=
  let c := bCfg s b
  if bfPosSrc c ≠ 2 || s.modeA (brCh b) ≠ 4 then s
  else
    let s := rampTo b s.tbNow s
    let k := s.bridge b
    let fresh := s.anvil.vals.rippleNew.contains b
    let v := tget (fun _ => (0, 0)) s.anvil.vals.ripple b
    let d : Int := sx 24 (v.1 + 2 ^ 24 - k.rippleCount % 2 ^ 24)
    let e := k.err + (v.2 + 2 ^ 24 - k.rippleErr % 2 ^ 24) % 2 ^ 24
    let s := onBridge b (fun k => { k with rippleCount := v.1, rippleErr := v.2, err := e }) s
    let s := movePos b d s
    if 16 * bfErrLimit c ≤ e || (k.da ≠ 0 && !fresh) then setUncertain b s else s

/-! ### Standstill and dwell (R351, R352) -/

/-- The instant a bridge reaches standstill, D_A being 0. -/
def stillAt (s : State) (b : Nat) : Tb :=
  let k := s.bridge b
  if bfPosSrc (bCfg s b) = 0 then k.zeroSince + 2500000
  else (if isPast k.zeroSince k.lastMove then k.zeroSince else k.lastMove) + 500000

/-- BRIDGE_STANDSTILL (R351): the bridge enters the state due: the dwell of a direction change, the report of its stop, COAST or BRAKE. -/
def execBridgeStandstill (b : Nat) (s : State) : Host.Outcome State Fault Refusal :=
  let s := rampTo b s.tbNow s
  let k := s.bridge b
  if b ≥ 8 || still k || k.da ≠ 0 || k.frac ≠ 0 || (k.want ≠ 0 && k.st = k.want) then .next s
  else
    let s := advTo (stillAt s b) s
    let s := onBridge b (fun k => { k with flags := setBit k.flags 7, mdir := 0, rampTb := s.tbNow }) s
    let s := [brCh b, brCh b + 1].foldl (fun s n => onChan n (fun c => { c with contSince := none }) s) s
    if k.want ≠ 0 && !k.cut then
      .next (if k.dwell.isSome || k.ready then s
        else onBridge b (fun k => { k with st := 1, dwell := some (s.tbNow + msTicks (bfDwell (bCfg s b))) }) s)
    else if k.stopEv ≠ 0 then .next (finishStop b (onBridge b (fun k => { k with st := 1 }) s))
    else .next (onBridge b (fun k => { k with st := if k.cut then k.st else if k.app.drive = 0 then 0 else 1 }) s)

/-- DWELL_END (R352): the motion in the new direction waits for a start-slot edge. -/
def execDwellEnd (b : Nat) (s : State) : Host.Outcome State Fault Refusal :=
  match (s.bridge b).dwell with
  | none => .next s
  | some t => .next (onBridge b (fun k => { k with dwell := none, ready := true }) (advTo t s))

/-! ### Stall and open phase (R369, R370) -/

/-- BRIDGE_STALL: STALL_MS of drive without motion (R369, R356). -/
def execBridgeStall (b : Nat) (s : State) : Host.Outcome State Fault Refusal :=
  let c := bCfg s b
  let k := s.bridge b
  match k.stallSince with
  | none => .next s
  | some t =>
    let s := advTo (t + msTicks (bfStallMs c)) s
    let homing := k.goal = 3 || (bfAutoHome c && k.goal ≠ 4 && k.mdir = (if bfHomeDir c then 2 else 3))
    let s := onBridge b (fun k => { k with stallSince := none }) s
    if homing then
      let s := onBridge b (fun k => { k with pos := bfHomePos c, skips := 0, err := 0, flags := setBit (clrBit k.flags 0) 6 }) (bridgeBrake b s)
      .next (brReport b 1 (brEvent b 3 s))
    else
      let s := bridgeBrake b s
      let s := onBridge b (fun k => { k with flags := setBit k.flags 4, stopEv := if k.goal = 4 || pinching k then 6 else 0 }) s
      .next (brReport b 1 (brEvent b 4 (raise 0x0A1 b s)))

/-- BRIDGE_OPEN_PHASE: OPEN_MS of duty without current or motion (R370); during a reversal PINCH_DONE is not reported (R373). -/
def execBridgeOpenPhase (b : Nat) (s : State) : Host.Outcome State Fault Refusal :=
  let c := bCfg s b
  match (s.bridge b).openSince with
  | none => .next s
  | some t =>
    let s := advTo (t + msTicks (bfOpenMs c)) s
    let s := onBridge b (fun k => { k with flags := clrBit k.flags 1, openSince := none }) s
    let s := onBridge b (fun k => { k with cut := false, flags := setBit k.flags 2, stopEv := 0, dwell := none }) (bridgeLost b (bridgeCoast b s))
    .next (brReport b 0 (brEvent b 7 (raise 0x0A2 b s)))

/-! ### The end of a frame (R350, R365 to R370) -/

/-- S_k: 125 times the change of POS over 8 frames, in the direction of motion; `j` frames back. -/
def speedAt (k : Bridge) (j : Nat) : Int :=
  let d := 125 * (k.posHist.getD j 0 - k.posHist.getD (j + 8) 0)
  if k.mdir = 3 then -d else d

/-- 6,400 times PI_k (R365): the means are of the 64 frames that end 16 frames before. -/
def pinchIndex (c : Rec) (k : Bridge) : Int :=
  let js := (List.range 64).map (· + 16)
  let si : Int := ((js.map (fun j => k.iHist.getD j 0)).sum : Nat)
  let ss : Int := (js.map (speedAt k)).sum
  100 * (64 * (k.iHist.getD 0 0 : Nat) - si) + bfKw c * (ss - 64 * speedAt k 0)

/-- A pinch is confirmed (R367). -/
def pinchConfirmed (b : Nat) (s : State) : State :=
  let c := bCfg s b
  let k := s.bridge b
  if pinching k then brakeFor b 6 s
  else
    let s := bridgeBrake b s
    let fwd := k.mdir = 2
    let s := onBridge b (fun x =>
      { x with flags := setBit x.flags 1, pDet := k.pos, goal := 4, want := otherDir k.mdir, cut := false, dwell := none, ready := false, stopEv := 0,
               goalPos := if fwd then k.pos - bfRevDist c else k.pos + bfRevDist c, critA := 0, critB := 0, stallSince := none, openSince := none }) s
    brEvent b 5 (raise 0x0A0 b s)

/-- The end of a frame for a bridge, `i` its mean motor current in mA. -/
def bridgeFrame (b i : Nat) (s : State) : State :=
  if s.modeA (brCh b) ≠ 4 then s
  else
    let c := bCfg s b
    let s := bridgeLost b (rampTo b s.tbNow s)
    let s := onBridge b (fun k =>
      let k := { k with iHist := (i :: k.iHist).take 80, posHist := (k.pos :: k.posHist).take 88, iK := i, cruise := k.cruise + 1 }
      let moved := k.posHist.getD 0 0 ≠ k.posHist.getD 1 0
      let k := { k with sK := speedAt k 0, pinchPi := pinchIndex c k / 6400 }
      let stall := bfPosSrc c ≠ 0 && decide (410 ≤ k.da) && decide (bfOpenI c ≤ i) && !moved
      let open_ := decide (1024 ≤ k.da) && decide (i < bfOpenI c) && (bfPosSrc c = 0 || !moved)
      { k with stallSince := if stall then (if k.stallSince.isSome then k.stallSince else some (s.tbNow - 50000)) else none,
               openSince := if open_ then (if k.openSince.isSome then k.openSince else some (s.tbNow - 50000)) else none }) s
    let k := s.bridge b
    let dirOk := k.mdir ≠ 0 && bit (bfPinchDir c) (k.mdir - 2)
    let zone := uncertain k || decide (bfPzLo c ≤ k.pos ∧ k.pos ≤ bfPzHi c)
    let late := decide (50000 * bfPinchBlank c ≤ (s.tbNow - k.motionStart).toNat)
    let running := !(pinching k) || (k.goal = 4 && k.st = k.want)
    if dirOk && zone && late && running then
      let a := bfPinchThr c ≠ 0 && decide (81 ≤ k.cruise) && decide ((6400 * bfPinchThr c : Nat) ≤ pinchIndex c k)
      let d := bfPinchIabs c ≠ 0 && decide (bfPinchIabs c ≤ i)
      let s := onBridge b (fun k => { k with critA := if a then k.critA + 1 else 0, critB := if d then k.critB + 1 else 0 }) s
      let k := s.bridge b
      if bfPinchN c ≤ k.critA || bfPinchN c ≤ k.critB then pinchConfirmed b s else s
    else s

/-! ### Opcodes (R375) -/

/-- A UNIT_REF names a bridge by its even channel (R341). -/
def brUnitOk (b : Rec) : Bool := decide (48 ≤ unitIx b) && unitIx b % 2 = 0
def brIx (b : Rec) : Nat := brOfCh (unitIx b)
def brMode (r : Req) (s : State) : Option (Status × Nat) := if cfMode (s.com.chCfgOf (unitIx r.b)) ≠ 4 then some (.state, 2) else none
def brRep (s : State) (b : Nat) : Bridge := tget bridgeDef s.rep.br b
def onBridgeBoth (n : Nat) (f : Bridge → Bridge) (s : State) : State := onBridge n f { s with rep := { s.rep with br := tmod bridgeDef s.rep.br n f } }

def brConfigRange (b : Rec) : Option Nat :=
  let c := sub b 8 48
  let src := bfPosSrc c
  firstBad [(18, brUnitOk b), (24, rd c 0 1 = brIx b), (25, src ≠ 3), (26, src = 2 || bfRippleTask c = 0), (27, decide (30 ≤ bfDwell c)),
    (28, decide (1 ≤ bfAccel c ∧ bfAccel c ≤ 4096)), (30, decide (1 ≤ bfDecel c ∧ bfDecel c ≤ 4096)), (32, decide (bfMinDuty c ≤ 4096)),
    (34, decide (1 ≤ bfHomeDuty c ∧ bfHomeDuty c ≤ 4096)), (39, decide (bfPosMin c < bfPosMax c)), (44, decide (bfTol c ≤ bfApproach c)),
    (45, decide (1 ≤ bfSkipLimit c)), (46, decide (5 ≤ bfStallMs c)), (47, decide (5 ≤ bfOpenMs c)), (48, decide (10 ≤ bfOpenI c ∧ bfOpenI c ≤ 2000)),
    (50, decide (bfPosMin c ≤ bfHomePos c ∧ bfHomePos c ≤ bfPosMax c)), (53, !(bfPinchDir c ≠ 0 && bfPinchThr c = 0 && bfPinchIabs c = 0)),
    (54, decide (bfPinchThr c ≤ 24000) && !(src = 0 && bfPinchThr c ≠ 0)), (56, decide (bfKw c ≤ 10000)), (58, decide (1 ≤ bfPinchN c ∧ bfPinchN c ≤ 20)),
    (63, decide (bfPzLo c ≤ bfPzHi c)), (66, decide (1 ≤ bfRevDist c)), (68, decide (bfPinchIabs c ≤ 24000) && !(src = 0 && bfPinchIabs c ≠ 0)),
    (70, decide (1 ≤ bfErrLimit c))]

def brConfigSpec : OpSpec :=
  { code := 0x4000, kind := .commit, solo := false, data := true, units := actsOn 1, priv := 2, access := noAccess, okLen := lenIs 56,
    resv := fun _ => [(6, 2, 0xFFFF), (8, 1, 0xF8), (9, 1, 0xC0), (10, 1, 0xC0), (37, 1, 0xFC), (55, 1, 0xFF)], range := fun r _ => brConfigRange r.b,
    check := fun r s => orElse (brMode r s) (if still (brRep s (brIx r.b)) then none else some (.state, 11)), anvil := toAnvil, recs := fun _ _ => 48, maxData := fun _ => 2,
    run := fun r s =>
      let b := brIx r.b
      let c := sub r.b 8 48
      let s := if bfPosSrc c ≠ bfPosSrc (s.com.brCfgOf b) then onBridgeBoth b (fun k => { k with flags := setBit k.flags 0 }) s else s
      { st := onCom (fun m => { m with brCfg := tput brCfgReset m.brCfg b c }) s, status := .ok, detail := 0, data := genOct s 1 (unitIx r.b) },
    fin := finGen 1 }

def brSetVal (b : Rec) : BrVal := { drive := rd b 6 1, duty := rd b 8 2, target := sx 24 (rd b 10 3) }

/-- BR_SET at step 10 and at the commit point: the mode and record of the bridge, what the schedule permits of a change (R179, R191, R345, R364), then the state of the bridge. -/
def brSetCheck (r : Req) (s : State) : Option (Status × Nat) :=
  let n := unitIx r.b
  let b := brIx r.b
  let v := brSetVal r.b
  let old := s.com.brOf b
  let c := s.com.brCfgOf b
  let k := brRep s b
  let move := decide (2 ≤ v.drive)
  if cfMode (s.com.chCfgOf n) ≠ 4 then some (.state, 2)
  else if (v.drive = 4 || v.drive = 5) && bfPosSrc c = 0 then some (.state, 13)
  else if v ≠ old && dispRefuses s.sched.img s.com.mode n (v.drive ≠ old.drive && !move) then some (.schedule, 1)
  else if move && old.drive < 2 && simulOver s.sched.img { s.com with br := tput brDef s.com.br b v } n then some (.schedule, 2)
  else if (v.drive = 4 || v.drive = 5) && bfPosSrc c = 2 && (taskEnt s.sched.img s.com.mode (bfRippleTask c)).isNone then some (.schedule, noEntry s 3)
  else if move && bit k.flags 2 then some (.state, 12)
  else if v.drive = 4 && uncertain k then some (.state, 10)
  else if (move && pinching k) || s.com.chCfgNow.contains n then some (.busy, 0)
  else none

def brSetSpec : OpSpec :=
  { code := 0x4001, kind := .commit, solo := false, data := true, units := actsOn 1, priv := 1, access := noAccess, okLen := lenIs 16,
    resv := fun _ => [(6, 1, 0xF8), (7, 1, 0xFF), (8, 2, 0xE000), (13, 3, 0xFFFFFF)],
    range := fun r s =>
      let v := brSetVal r.b
      let c := s.com.brCfgOf (brIx r.b)
      firstBad [(18, brUnitOk r.b), (22, decide (v.drive ≤ 5)), (24, decide (v.duty ≤ 4096)),
        (26, if v.drive = 4 then decide (bfPosMin c ≤ v.target ∧ v.target ≤ bfPosMax c) else v.target = 0)]
    check := brSetCheck, anvil := toAnvil, recs := fun _ _ => 0, maxData := fun _ => 14,
    run := fun r s =>
      let n := unitIx r.b
      let b := brIx r.b
      let v := brSetVal r.b
      let s := onCom (fun c => { c with br := tput brDef c.br b v }) s
      let f := applyFn s n r.eff
      let l := lateStatus r f
      { st := s, status := l.1, detail := l.2,
        data := genOct s 1 n ++ [BitVec.ofNat 8 v.drive, 0] ++ le 2 v.duty ++ leI 3 v.target ++ [0] ++ le 4 f.toNat },
    fin := fun r s d =>
      let v := s.com.brOf (brIx r.b)
      genOct s 1 (unitIx r.b) ++ [BitVec.ofNat 8 v.drive, 0] ++ le 2 v.duty ++ leI 3 v.target ++ d.drop 9 }

def brStatusSpec : OpSpec :=
  { readSpec 0x4002 1 6 [] noCheck 88 (fun r s =>
      let n := unitIx r.b
      let b := brIx r.b
      let k := brRep s b
      let v := s.com.brOf b
      genOct s 1 n ++ [BitVec.ofNat 8 (s.owner 1 n), BitVec.ofNat 8 k.st, BitVec.ofNat 8 v.drive, 0] ++ le 2 k.flags ++ le 2 v.duty ++ le 2 k.da ++ leI 3 v.target
        ++ leI 3 k.pos ++ fitI 2 k.sK ++ fitN 2 k.iK ++ [BitVec.ofNat 8 k.skips, 0] ++ fitN 2 k.err ++ fitI 2 k.pinchPi ++ leI 3 k.pDet ++ [0] ++ le 6 k.eventTb.toNat
        ++ zeros 2 ++ s.com.brCfgOf b) with
    range := fun r _ => if brUnitOk r.b then none else some 18 }

def brClearSpec : OpSpec :=
  { code := 0x4003, kind := .commit, solo := false, data := false, units := actsOn 1, priv := 1, access := noAccess, okLen := lenIs 8,
    resv := noResv,
    range := fun r _ => firstBad [(18, brUnitOk r.b), (22, rd r.b 6 2 &&& 0xFFFB = 0)], check := brMode, anvil := toAnvil, recs := fun _ _ => 0, maxData := fun _ => 0,
    run := fun r s =>
      { st := onBridgeBoth (brIx r.b) (fun k => { k with flags := clrMask k.flags (rd r.b 6 2 &&& 4) }) s, status := .ok, detail := 0, data := [] } }

def brPosSetSpec : OpSpec :=
  { code := 0x4004, kind := .commit, solo := false, data := false, units := actsOn 1, priv := 1, access := noAccess, okLen := lenIs 10,
    resv := fun _ => [(9, 1, 0xFF)], range := fun r _ => if brUnitOk r.b then none else some 18,
    check := fun r s => orElse (brMode r s) (if still (brRep s (brIx r.b)) then none else some (.state, 11)), anvil := toAnvil, recs := fun _ _ => 0, maxData := fun _ => 0,
    run := fun r s =>
      { st := onBridgeBoth (brIx r.b) (fun k => { k with pos := sx 24 (rd r.b 6 3), skips := 0, err := 0, flags := clrBit k.flags 0 }) s,
        status := .ok, detail := 0, data := [] } }

/-- Hearth adopts the DRIVE a bridge reported (R357), ahead of the batches of a commit point. -/
def adoptBridges (s : State) : State :=
  (List.range 8).foldl (fun s b =>
    match (brRep s b).adopt with
    | none => s
    | some d => onBridgeBoth b (fun k => { k with adopt := none }) (onCom (fun c => { c with br := tmod brDef c.br b (fun v => { v with drive := d }) }) s)) s

/-! ### The start-slot edge (R171, R189, R239 to R252) -/

/-- Why limp-home is in force for a channel under it (R262, R266). -/
def limpStands (s : State) (n : Nat) : Bool :=
  !s.anvil.limp.lhN || s.anvil.limp.stuck || s.anvil.orphan || (s.anvil.vals.chOf n).held

/-- A PIN channel begins to follow its direct input with the level of this moment (R240). -/
def dirFollow (n : Nat) (s : State) : State := onChan n (fun c => { c with fol := true, edgeAt := none }) (pinOn n (dirLevel s n) s)

/-- The committed ON of a SCHED, PIN or LAMP channel taken up at its edge (R239, R240, R248); above 30 V a turn-on from off waits (R296). -/
def applyOn (n : Nat) (v : ChVal) (vz : Option Nat) (only : Bool) (s : State) : State :=
  let c := s.chan n
  let m := s.modeA n
  let done (s : State) : State := flashClock (onChan n (fun c => { c with appOn := v.on, appDset := v.dset, adopted := false, limp := false, orphan := 0, holdEnd := none }) s)
  if v.on then
    if only then s
    else if !c.drive && ovDefers s n then onChan n (fun c => { c with prot := setBit c.prot 8 }) s
    else if m = 1 then (let s := done s; if c.drive && c.fol then s else dirFollow n s)
    else if m = 2 then (let s := done s; if c.drive then s else lampTurnOn n vz s)
    else if c.drive then done s
    else pinOn n true (done s)
  else done (onChan n (fun c => { c with prot := clrBit c.prot 8, resuming := false }) (pinOff n false s))

/-- A SCHED, PIN or LAMP channel at its edge, by the ranks of R251. A Quench safe state that protection kept off is taken up here (R301). -/
def onEdge (n : Nat) (vz : Option Nat) (only : Bool) (s : State) : State :=
  let c := s.chan n
  let v := s.anvil.vals.chOf n
  let turn (s : State) : State :=
    if c.drive then s
    else if ovDefers s n then onChan n (fun c => { c with prot := setBit c.prot 8 }) s
    else if s.modeA n = 2 then lampTurnOn n vz s
    else if s.modeA n = 1 then dirFollow n s
    else pinOn n true s
  if protHolds c.prot then (if v.on then s else onChan n (fun c => { c with appOn := false, appDset := v.dset, prot := clrBit c.prot 8 }) s)
  else if c.safe then
    let sv := cfSafe (s.cfA n)
    if sv = 1 then (if c.drive || ovDefers s n || s.modeA n ≠ 1 then turn s else onChan n (fun c => { c with fol := true }) (pinOn n true s)) else if sv = 2 then (if c.resuming && c.before then turn s else s) else s
  else if c.limp && limpStands s n then s
  else if c.orphan = 1 && (s.anvil.orphan || v.held) then (if c.appOn then turn s else s)
  else if c.orphan ≠ 0 && (s.anvil.orphan || v.held) then s
  else if v.held then (if c.appOn && c.resuming then turn s else s)
  else applyOn n v vz only s

/-- CHANNEL_START_EDGE: the start-slot edge of channel `n` in the frame Anvil executes; `vz` is the zone voltage sampled for the LAMP period in
progress. Under FORCE_OFF the edge only turns off, in the switch frame whatever its PERIOD (R195). A FROZEN channel has none. One that Anvil has not begun by the end of its slot
is skipped, with SCHED_MISS (R193). -/
def execChannelStartEdge (n : Nat) (vz : Option Nat) (s : State) : Host.Outcome State Fault Refusal :=
  let md := s.sched.anvilMode
  let e := chanEnt s.sched.img md n
  let t := startTick s.sched.img md n
  let switchFrame := e.disp = 3 && s.sched.anvilModeFn = some s.anvil.lastFn
  if n ≥ 64 || e.disp = 0 || !(startFrame e.period e.phase s.anvil.lastFn || switchFrame) || (s.chan n).edgeFn = some s.anvil.lastFn then .next s
  else if 200 * (e.slot + 1) ≤ s.tickA then .next (missEvent n (onChan n (fun c => { c with edgeFn := some s.anvil.lastFn }) s))
  else
    let only := e.disp = 3
    let s := lampSettle n (onChan n (fun c => { c with edgeFn := some s.anvil.lastFn }) (atTickA t s))
    let m := s.modeA n
    if m = 7 then .next s
    else if m = 3 then
      if protHolds (s.chan n).prot then .next s
      else if (s.chan n).safe then .next (if cfSafe (s.cfA n) = 1 then coilSafeOn n s else s)
      else if s.anvil.orphan || (s.chan n).orphan = 3 && (s.anvil.vals.chOf n).held then .next s
      else .next (coilEdge n only (if (s.anvil.vals.chOf n).held then s else onChan n (fun c => { c with orphan := 0, holdEnd := none }) s))
    else if m = 4 then
      if n % 2 = 1 || protHolds (s.chan n).prot || protHolds (s.chan (n + 1)).prot || (s.chan n).safe || s.anvil.orphan then .next s
      else .next (bridgeEdge (brOfCh n) only s)
    else .next (onEdge n vz only s)

end Sys2Proof.Machine
end

