-- ==== Sys2Proof/Machine/Lighting.lean ====
section
/-! DEFINITION. LED sinks, hybrid dimming and synchronised lighting (11_lighting). -/

namespace Sys2Proof.Machine

/-! ### What a sink does (R377 to R388) -/

/-- The crossover of a sink (R380). -/
def sinkCross (c : Rec) : Nat := 65536 / 2 ^ sfXover c
/-- A brightness lies in the pulsed branch (R382). -/
def sinkPulsed (c : Rec) (b : Nat) : Bool := sfHybrid c && decide (0 < b) && decide (b < sinkCross c)

/-- What holds a sink off besides its value (R377, R385, R388). -/
def sinkDark (c : Rec) (k : Sink) : Bool := k.shortOff || k.orphan = 3 || (k.safe && sfSafe c = 0) || sfFrac c = 0

/-- The branch a sink is in: 0 off, 1 analog, 2 pulsed. -/
def sinkBranch (c : Rec) (k : Sink) : Nat := if sinkDark c k || k.b = 0 then 0 else if sinkPulsed c k.b then 2 else 1

/-- The set current in units of 10 microamperes as a fraction over 16,065 (R377). -/
def isetNum (g c : Rec) : Nat := (12600 + 9800 * gfGref g) * sfFrac c

/-- The current a sink is set to while it conducts, in units of 10 microamperes, as a fraction (R382). -/
def sinkSetting (g c : Rec) (k : Sink) : Nat × Nat :=
  if sinkPulsed c k.b then (isetNum g c, 16065 * 2 ^ sfXover c) else (isetNum g c * k.b, 16065 * 65535)

/-- A new value reaches a sink (R383): at once between two analog values, else at the next pulse period. -/
def sinkTake (n v : Nat) (s : State) : State :=
  let c := s.sfA n
  onSink n (fun k =>
    if sinkPulsed c k.b || sinkPulsed c v then { k with app := v, next := some v, orphan := 0, holdEnd := none }
    else { k with app := v, b := v, next := none, orphan := 0, holdEnd := none }) s

/-- The executed value of a sink at tick 0 of a frame: taken up unless it is staged, or something holds the sink (R383, R388, R391). -/
def sinkFrameStart (n : Nat) (s : State) : State :=
  let k := s.sink n
  let v := s.anvil.vals.lsOf n
  let s := if k.shortOff && !(bit k.flags 2) then onSink n (fun k => { k with shortOff := false, b := 0, next := none, app := 0 }) s else s
  if k.safe || (s.sink n).app = v || s.anvil.vals.lsStaged.contains n then s else sinkTake n v s

/-- The start of a pulse period of a sink at or after an instant (R180), in Anvil's count of frames: its TB value and the length of the period. In the last frame before FN
wraps, what would begin after it begins at its phase in frame 0. -/
def pulseStart (s : State) (n : Nat) (t : Tb) : Tb × Nat :=
  let ph := ((pwmEnt s.sched.img 3 n).map (·.2)).getD 0
  let next := s.time.anvilTb + 50000
  let pos := ((t - s.time.anvilTb).toNat + 50000 * (s.anvil.lastFn.toNat % 5) + 250000 * (ph / 250000 + 1) - ph) % 250000
  let st : List (Nat × Nat) := [(0, 41667), (41667, 41667), (83334, 41666), (125000, 41667), (166667, 41667), (208334, 41666), (250000, 41667)]
  match st.find? (fun x => decide (pos ≤ x.1)) with
  | some x =>
    let b := t + BitVec.ofNat 48 (x.1 - pos)
    if s.anvil.lastFn = 0xFFFFFFFF && isPast b next then (next + BitVec.ofNat 48 ph, 41667) else (b, x.2)
  | none => (t, 41667)

/-- The on-time of a pulse (R382). -/
def pulseTicks (c : Rec) (b t : Nat) : Nat := let x := b * 2 ^ sfXover c * t / 65536; if x < 5 then 0 else x

/-- LED_PULSE_PERIOD_START: the next pulse period of sink `n` begins: a change that waits for it takes effect, a pulsed sink begins its pulse (R383). -/
def execLedPulsePeriodStart (n : Nat) (s : State) : Host.Outcome State Fault Refusal :=
  let k := s.sink n
  if n ≥ 36 || !(sfHybrid (s.sfA n)) then .next s
  else
    let from_ := if k.pulseTb = some s.tbNow then s.tbNow + 1 else s.tbNow
    let p := pulseStart s n from_
    let s := advTo p.1 s
    .next (onSink n (fun k =>
      let k := { k with b := k.next.getD k.b, next := none, pulseTb := some p.1 }
      let on := pulseTicks (s.sfA n) k.b p.2
      { k with pulseEnd := if sinkBranch (s.sfA n) k = 2 && on ≠ 0 then some (p.1 + BitVec.ofNat 48 on) else none }) s)

/-- A sink goes into orphan mode: it holds its value for 10 s (R48). -/
def sinkOrphan (n : Nat) (s : State) : State := onSink n (fun k => { k with orphan := 1, holdEnd := some (s.tbNow + msTicks 10000) }) s

/-- SINK_HOLD_EXPIRY: the 10 s hold of sink `n` ends: it turns off and reports it (R48, R388). -/
def execSinkHoldExpiry (n : Nat) (s : State) : Host.Outcome State Fault Refusal :=
  match (s.sink n).holdEnd with
  | none => .next s
  | some t => .next (onSink n (fun k => { k with orphan := 3, holdEnd := none, b := 0, next := none, pulseEnd := none, report := true }) (advTo t s))

/-- A flag of a sink latches: its event and its source (R385, R398). -/
def sinkLatch (n i src : Nat) (s : State) : State :=
  let k := s.sink n
  if bit k.flags i then s
  else
    let s := raise src n (onSink n (fun k => { k with flags := setBit k.flags i, shortOff := k.shortOff || (i = 2 && sfShortOff (s.sfA n)) }) s)
    if sfNotify (s.sfA n) then
      notify (s.owner 2 n) 0x5001 ([BitVec.ofNat 8 n, BitVec.ofNat 8 (2 ^ i)] ++ genOct s 2 n ++ le 2 k.v ++ zeros 2) s
    else s

/-- The monitor of a sink at the end of a frame (R384, R385): `i` the current in 10 microamperes, `v` the pin voltage in mV, `q` that it was sampled: a pulsed sink is so
only in a frame that holds a pulse of at least 100 ticks. -/
def sinkMonitor (n i v : Nat) (q : Bool) (s : State) : State :=
  let c := s.sfA n
  let k := s.sink n
  if sinkBranch c k = 0 || !q || (sinkBranch c k = 2 && decide (pulseTicks c k.b 41667 < 100)) then onSink n (fun k => { k with stale := true }) s
  else
    let set := sinkSetting s.anvil.vals.lightCfg c k
    let head := decide (v * 1000 * set.2 < 250000 * set.2 + 45 * set.1)
    let open_ := decide (v < 150) && decide (2 * i * set.2 < set.1)
    let short := sfShortV c ≠ 0 && decide (100 * sfShortV c ≤ v)
    let bump (b : Bool) (x : Nat) : Nat := if b then satN 8 (x + 1) else 0
    let k' := { k with i := i, v := v, stale := false, cHead := bump head k.cHead, cOpen := bump open_ k.cOpen, cShort := bump short k.cShort }
    let rise := decide (8 ≤ k'.cHead) && !(bit k.flags 0)
    let s := onSink n (fun _ => { k' with flags := if 8 ≤ k'.cHead then setBit k.flags 0 else if head then k.flags else clrBit k.flags 0 }) s
    let s := if rise then raise 0x0C0 n s else s
    let s := if 8 ≤ k'.cOpen then sinkLatch n 1 0x0C1 s else s
    if 8 ≤ k'.cShort then sinkLatch n 2 0x0C2 s else s

/-- Hearth adopts B = 0 for the sinks whose hold ended, before the batches of a commit point (R388). -/
def adoptSinks (s : State) : State :=
  (List.range 36).foldl (fun s n =>
    if (tget sinkDef s.rep.sink n).report then
      let f (k : Sink) : Sink := { k with report := false }
      onCom (fun c => { c with ls := tput lsDef c.ls n 0 }) (onSink n f { s with rep := { s.rep with sink := tmod sinkDef s.rep.sink n f } })
    else s) s

/-! ### LS opcodes (R380, R381, R386, R397) -/

def lsConfigSpec : OpSpec :=
  { code := 0x5000, kind := .commit, solo := false, data := true, units := actsOn 2, priv := 1, access := noAccess, okLen := lenIs 16,
    resv := fun _ => [(6, 2, 0xFFFF), (8, 1, 0xC0), (9, 1, 0x80), (12, 1, 0xFE), (13, 3, 0xFFFFFF)],
    range := fun r _ =>
      let c := sub r.b 8 8
      firstBad [(24, rd c 0 1 = unitIx r.b), (25, decide (1 ≤ sfXover c ∧ sfXover c ≤ 4) && decide (sfSafe c ≤ 1)),
        (27, sfShortV c = 0 || decide (10 ≤ sfShortV c ∧ sfShortV c ≤ 200))],
    check := fun r s =>
      if s.sched.img.isSome && (sfHybrid (sub r.b 8 8) != (pwmEnt s.sched.img 3 (unitIx r.b)).isSome) then some (.schedule, 6) else none
    anvil := toAnvil, recs := fun _ _ => 8, maxData := fun _ => 2,
    run := fun r s =>
      let n := unitIx r.b
      let c := sub r.b 8 8
      let s := if s.com.lsCfgOf n = c then s else reassign 2 n s
      let s := onCom (fun m => { m with lsCfg := tput lsCfgReset m.lsCfg n c }) s
      { st := s, status := .ok, detail := 0, data := genOct s 2 n },
    fin := finGen 2 }

/-- A sink held after its owner's reset is commanded again. -/
def sinkCommanded (n : Nat) (s : State) : State :=
  if s.anvil.orphan then s else onSink n (fun k => if k.orphan = 1 then { k with orphan := 0, holdEnd := none } else k) s

def lsSetSpec : OpSpec :=
  { code := 0x5001, kind := .commit, solo := false, data := true, units := actsOn 2, priv := 1, access := noAccess, okLen := lenIs 10,
    resv := fun _ => [(8, 2, 0xFFFF)], range := noRange, check := noCheck, anvil := toAnvil, recs := fun _ _ => 0, maxData := fun _ => 8,
    run := fun r s =>
      let n := unitIx r.b
      let s := lightDirect 1 n r.h.ctx r.h.seq (onCom (fun c => { c with ls := tput lsDef c.ls n (rd r.b 6 2), lsStaged := c.lsStaged.erase n }) s)
      { st := sinkCommanded n s, status := .ok, detail := 0, data := genOct s 2 n ++ le 2 (rd r.b 6 2) ++ le 4 r.eff.toNat },
    fin := fun r s d => genOct s 2 (unitIx r.b) ++ le 2 (s.com.lsOf (unitIx r.b)) ++ d.drop 4 }

/-- The current of a sink is below 90 percent of its setting while HEADROOM is set (R387). -/
def dropout (g c : Rec) (k : Sink) : Bool :=
  let x := sinkSetting g c k
  bit k.flags 0 && decide (k.i * x.2 * 10 < 9 * x.1)

def lsStatusSpec : OpSpec := readSpec 0x5002 2 6 [] noCheck 22 (fun r s =>
    let n := unitIx r.b
    let k := tget sinkDef s.rep.sink n
    let c := s.rep.vals.lsCfgOf n
    let g := s.rep.vals.lightCfg
    genOct s 2 n ++ [BitVec.ofNat 8 (s.owner 2 n), BitVec.ofNat 8 k.flags] ++ le 2 (s.com.lsOf n)
      ++ [BitVec.ofNat 8 (sinkBranch c k + 4 * b2n (dropout g c k) + 8 * b2n k.stale), 0] ++ le 2 k.i ++ le 2 k.v
      ++ le 2 (quo (isetNum s.com.lightCfg (s.com.lsCfgOf n)) 16065) ++ s.com.lsCfgOf n)

def lsClearSpec : OpSpec :=
  { code := 0x5003, kind := .commit, solo := false, data := false, units := actsOn 2, priv := 1, access := noAccess, okLen := lenIs 8,
    resv := noResv, range := fun r _ => if rd r.b 6 2 &&& 0xFFF9 = 0 then none else some 22, check := noCheck, anvil := toAnvil, recs := fun _ _ => 0, maxData := fun _ => 0,
    run := fun r s =>
      let m := rd r.b 6 2
      let f (k : Sink) : Sink :=
        { k with flags := clrMask k.flags m, cOpen := if bit m 1 then 0 else k.cOpen, cShort := if bit m 2 then 0 else k.cShort }
      { st := onSink (unitIx r.b) f { s with rep := { s.rep with sink := tmod sinkDef s.rep.sink (unitIx r.b) f } }, status := .ok, detail := 0, data := [] } }

/-! ### LIGHT_CFG (R396) -/

def stageDef : Nat → List Rec := fun _ => []
def State.stage (s : State) (c : Nat) : List Rec := tget stageDef s.light.stages c

/-- A LIGHT_COMMIT of a context is accepted and waits for its commit point. -/
def commitAccepted (s : State) (c : Nat) : Bool := s.closed.any (fun q => q.ctx = c && q.members.any (fun p => p.op = 0x5006))
/-- A lighting commit of a context is pending (R395). -/
def commitPending (s : State) (c : Nat) : Bool := (s.lightCommit c).isSome || commitAccepted s c

def lightConfigRange (b : Rec) : Option Nat :=
  firstBad [(17, decide (gfSlot b ≤ 248)), (18, [1, 2, 4, 8, 16, 32, 64].contains (gfCycle b)), (19, decide (gfOffset b < gfCycle b)),
    (20, decide (1 ≤ gfWaitMax b)), (26, gfCanFmt b || decide (gfCanId b ≤ 0x7FF))]

def lightConfigSpec : OpSpec :=
  { code := 0x5004, kind := .commit, solo := true, data := false, units := noUnits, priv := 2, access := noAccess, okLen := lenIs 16,
    resv := fun _ => [(0, 1, 0xC0), (5, 1, 0xC0), (6, 2, 0xF000), (9, 1, 0xFC), (10, 4, 0xE0000000), (14, 2, 0xFFFF)],
    range := fun r _ => lightConfigRange r.b,
    check := fun _ s => if (List.range 16).any (fun c => commitPending s c) then some (.state, 0x22) else none
    anvil := notAnvil, recs := fun _ _ => 0, maxData := fun _ => 0,
    run := fun r s => { st := onCom (fun c => { c with lightCfg := r.b }) s, status := .ok, detail := 0, data := [] } }

/-! ### LIGHT_STAGE (R389) -/

def leKind (e : Rec) : Nat := rd e 0 1
def lePort (e : Rec) : Nat := rd e 1 1
def leIndex (e : Rec) : Nat := rd e 2 2
def leLen (e : Rec) : Nat := rd e 2 1
def leGen (e : Rec) : Nat := rd e 4 4
def leVal (e : Rec) : Nat := rd e 8 2

/-- The entries of a LIGHT_STAGE. -/
def stageEntries (b : Rec) : List Rec := (List.range (rd b 0 1)).map (fun i => sub b (4 + 16 * i) 16)

/-- Two entries stage the same unit or message (R389). -/
def sameTarget (a b : Rec) : Bool :=
  leKind a = leKind b && (match leKind a with
    | 1 | 2 => leIndex a = leIndex b
    | 3 => lePort a = lePort b && leGen a = leGen b && bit (rd a 3 1) 0 = bit (rd b 3 1) 0
    | _ => lePort a = lePort b && rd a 3 1 = rd b 3 1)

/-- A stage set with one entry added or replaced. -/
def stageAdd (l : List Rec) (e : Rec) : List Rec := if l.any (sameTarget e) then l.map (fun x => if sameTarget e x then e else x) else l ++ [e]

/-- Ranges of a stage entry at payload offset `o` (R389, R397). -/
def stageRange (s : State) (o : Nat) (e : Rec) : List (Nat × Bool) :=
  let g := s.com.lightCfg
  let p := 16 + o
  match leKind e with
  | 1 => [(p + 1, lePort e = 0), (p + 2, decide (leIndex e < 36)), (p + 4, decide (leGen e < 65536)), (p + 10, rd e 10 6 = 0)]
  | 2 => [(p + 1, lePort e = 0), (p + 2, decide (leIndex e < 64)), (p + 4, decide (leGen e < 65536)), (p + 8, decide (leVal e ≤ 4096)), (p + 10, rd e 10 6 = 0)]
  | 3 => [(p + 1, decide (lePort e < 8) && bit (gfCanPorts g) (lePort e)), (p + 2, decide (leLen e ≤ 8)), (p + 3, decide (rd e 3 1 ≤ 1)),
          (p + 4, decide (leGen e < (if rd e 3 1 = 1 then 2 ^ 29 else 0x800))), (p + 8, decide (rd e (8 + leLen e) (8 - leLen e) = 0))]
  | 4 => [(p + 1, decide (lePort e < 12) && bit (gfLinPorts g) (lePort e)), (p + 2, decide (1 ≤ leLen e ∧ leLen e ≤ 8)), (p + 3, decide (rd e 3 1 < 64)),
          (p + 4, leGen e = 0), (p + 8, decide (rd e (8 + leLen e) (8 - leLen e) = 0))]
  | _ => [(p, false)]

/-- The unit TYPE of a stage entry, if it names a unit. -/
def stageType (e : Rec) : Option Nat := if leKind e = 1 then some 2 else if leKind e = 2 then some 1 else none

/-- Ownership of the units staged (R93, R389): the first not owned, by its owner. -/
def stageOwner (s : State) (c : Nat) (l : List Rec) : Option (Status × Nat) :=
  l.findSome? (fun e => match stageType e with
    | some t => if s.owner t (leIndex e) = c then none else some (.denied, s.owner t (leIndex e))
    | none => none)

/-- The checks of R389 on one entry. -/
def stageCheck (s : State) (e : Rec) : Option (Status × Nat) :=
  let g := s.com.lightCfg
  match leKind e with
  | 2 =>
    let n := leIndex e
    let x := chanEnt s.sched.img s.com.mode n
    if cfMode (s.com.chCfgOf n) ≠ 2 then some (.state, 2)
    else if x.disp = 1 && decide (0 < x.period) && gfCycle g % x.period = 0 && x.phase = gfOffset g % x.period then none
    else some (.schedule, 0x501)
  | 4 => if (linEnt s.sched.img s.com.mode (lePort e) (rd e 3 1)).isSome then none else some (.schedule, noEntry s 4)
  | _ => none

/-- A unit staged that does not exist, ahead of ownership (R681). -/
def stageUnknown (b : Rec) : Option (Status × Nat) :=
  ((List.range (rd b 0 1)).find? (fun i => let e := sub b (4 + 16 * i) 16
    (leKind e = 1 && decide (36 ≤ leIndex e)) || (leKind e = 2 && decide (64 ≤ leIndex e)))).map (fun i => (.range, 16 + 4 + 16 * i + 2))

def lightStageSpec : OpSpec :=
  { code := 0x5005, kind := .commit, solo := false, data := true, units := noUnits, priv := 1,
    access := fun r s => orElse (stageUnknown r.b) (stageOwner s r.h.ctx (stageEntries r.b))
    okLen := fun b => decide (4 ≤ b.length) && b.length = 4 + 16 * rd b 0 1
    resv := fun _ => [(1, 3, 0xFFFFFF)],
    range := fun r s => firstBad ((16, decide (1 ≤ rd r.b 0 1 ∧ rd r.b 0 1 ≤ 32)) ::
      (List.range (rd r.b 0 1)).flatMap (fun i => stageRange s (4 + 16 * i) (sub r.b (4 + 16 * i) 16)))
    check := fun r s =>
      let l := stageEntries r.b
      match l.findSome? (fun e => match stageType e with
        | some t => let x := (s.gen t (leIndex e)).toNat; if leGen e = x then none else some ((Status.roleStale, x) : Status × Nat)
        | none => none) with
      | some x => some x
      | none => match l.findSome? (stageCheck s) with
        | some x => some x
        | none => if (l.foldl stageAdd (s.stage r.h.ctx)).length > 64 then some (.state, 0xF) else none
    anvil := notAnvil, recs := fun _ _ => 0, maxData := fun _ => 4,
    run := fun r s =>
      let l := (stageEntries r.b).foldl stageAdd (s.stage r.h.ctx)
      { st := onLight (fun x => { x with stages := tput stageDef x.stages r.h.ctx l }) s, status := .ok, detail := 0,
        data := [BitVec.ofNat 8 l.length, 0, 0, 0] },
    fin := fun r s _ => [BitVec.ofNat 8 (s.stage r.h.ctx).length, 0, 0, 0] }

def lightDiscardSpec : OpSpec :=
  { code := 0x5007, kind := .commit, solo := false, data := false, units := noUnits, priv := 0, access := noAccess, okLen := lenIs 4,
    resv := fun _ => [(0, 4, 0xFFFFFFFF)], range := noRange, check := noCheck, anvil := notAnvil, recs := fun _ _ => 0, maxData := fun _ => 0,
    run := fun r s => { st := onLight (fun x => { x with stages := tput stageDef x.stages r.h.ctx [] }) s, status := .ok, detail := 0, data := [] } }

/-! ### LIGHT_COMMIT (R390 to R395) -/

/-- Whether a frame is a sync frame (R390). -/
def isSync (g : Rec) (f : Fn) : Bool := f.toNat % max 1 (gfCycle g) = gfOffset g

/-- Every LIN port that takes part carries the sync entry in a mode (R390). -/
def syncEntries (s : State) (m : Nat) : Bool :=
  let g := s.com.lightCfg
  (List.range 12).all (fun p => !(bit (gfLinPorts g) p) ||
    (match linEnt s.sched.img m p (gfLinPid g) with
     | some e => e.slot = gfSlot g && e.cycle = gfCycle g && e.offset = gfOffset g
     | none => false))

/-- The entry of an EXT_CAN message, or of a sync frame, in a transmit queue (R452): identifier word, DLC, BRS none. -/
def canEntry (ide fd : Bool) (id tag : Nat) (data : Rec) : Rec :=
  le 4 (id + 2 ^ 29 * b2n ide + 2 ^ 31 * b2n fd) ++ [BitVec.ofNat 8 data.length, BitVec.ofNat 8 data.length, 0, 0] ++ le 4 tag ++ data

/-- The lighting transmit queue of a CAN port (R392). -/
def lightQ (p : Nat) : Nat := 383 + 128 * p
/-- The TAG of the message of stage entry `i` of context `c`, and of a sync frame. -/
def lightTag (c i : Nat) : Nat := c * 256 + i
def syncTag : Nat := 0xFFFF

/-- The external messages of a commit are sent on their way (R391 step 1). A message its queue cannot take has failed. -/
def sendExt (c : Nat) (l : List Rec) (s : State) : State × List Nat :=
  (l.zipIdx).foldl (fun a e =>
    match leKind e.1 with
    | 3 =>
      let r := admitCells (lightQ (lePort e.1)) (canEntry (bit (rd e.1 3 1) 0) false (leGen e.1) (lightTag c e.2) (sub e.1 8 (leLen e.1))) a.1
      (r.1, a.2 ++ [if r.2.2 then 2 else 0])
    | 4 =>
      (onLin (lePort e.1) (fun p => { p with ext := p.ext.filter (fun x => x.1 ≠ rd e.1 3 1) ++ [(rd e.1 3 1, c, e.2, sub e.1 8 (leLen e.1))] }) a.1, a.2 ++ [0])
    | _ => (a.1, a.2 ++ [9])) (s, [])

/-- LIGHT_COMMIT (R391, R394). It acts on Anvil units where its stage set names a sink or a lamp channel. -/
def lightCommitSpec : OpSpec :=
  { code := 0x5006, kind := .commit, solo := true, data := false, units := noUnits, priv := 0, access := noAccess, okLen := lenIs 4,
    resv := fun _ => [(0, 4, 0xFFFFFFFF)], range := noRange,
    check := fun r s =>
      if commitPending s r.h.ctx then some (.busy, 0)
      else if (s.stage r.h.ctx).isEmpty then some (.state, 0xE)
      else if !(syncEntries s s.com.mode) then some (.schedule, noEntry s 4)
      else if r.h.targetFn ≠ 0 && !(isSync s.com.lightCfg r.h.targetFn) then some (.schedule, 0x502) else none
    anvil := fun r s => (s.stage r.h.ctx).any (fun e => leKind e = 1 || leKind e = 2), recs := fun _ _ => 0, maxData := fun _ => 0,
    run := fun r s =>
      let c := r.h.ctx
      let l := s.stage c
      let x := sendExt c l s
      { st := onLight (fun y =>
          { y with stages := tput stageDef y.stages c [],
                   commits := tput commitDef y.commits c (some
                     { seq := r.h.seq, entries := l, ext := x.2, eff := r.eff, target := if r.h.targetFn = 0 then none else some r.h.targetFn, frame := none,
                       applied := 0, stale := 0, dropped := 0 }) }) x.1,
        status := .pending, detail := 0, data := [] } }

def lightStatusSpec : OpSpec := { readSpec 0x5008 0 0 [] noCheck 24 (fun r s =>
    s.com.lightCfg ++ [BitVec.ofNat 8 (s.stage r.h.ctx).length] ++ le 4 (((s.lightCommit r.h.ctx).bind (·.frame)).map (·.toNat) |>.getD 0)
      ++ [s.light.syncSeq, 0, 0]) with }

/-- The first frame from the commit point of this frame on in which a LIN entry begins, as slots since the start of this frame, and its end. -/
def linEnds (s : State) (e : LinEnt) : Nat :=
  let f0 := if 200 < e.slot then s.fn else s.fn + 1
  let k := (nextStart e.cycle e.offset f0 - s.fn).toNat
  250 * k + e.slot + 250 * e.frames

/-- Whether the external messages of a commit let it land in the next frame (R391 step 2). -/
def extReady (s : State) (c : Nat) (k : LightCommit) : Bool :=
  ((k.entries.zip k.ext).zipIdx).all (fun x =>
    let e := x.1.1
    x.1.2 ≠ 0 ||
    (leKind e = 4 &&
      (match (s.lin (lePort e)).busy with
       | some b => if b.ext = some (c, x.2) then decide (250 * b.frames ≤ 250 * (s.fn + 1 - b.fn).toNat + gfSlot s.com.lightCfg)
                   else (match linEnt s.sched.img s.com.mode (lePort e) (rd e 3 1) with
                     | some l => decide (linEnds s l ≤ 250 + gfSlot s.com.lightCfg) | none => false)
       | none => match linEnt s.sched.img s.com.mode (lePort e) (rd e 3 1) with
         | some l => decide (linEnds s l ≤ 250 + gfSlot s.com.lightCfg) | none => false)))

/-- A commit lands in the frame whose version is under construction (R391 step 2, R394). -/
def landsNow (s : State) (c : Nat) (k : LightCommit) : Bool :=
  let v := s.fn + 1
  match k.target with
  | some t => v = t
  | none =>
    isSync s.com.lightCfg v && decide ((v - k.eff).toNat < 2 ^ 31)
      && (extReady s c k || decide (gfWaitMax s.com.lightCfg ≤ (v - k.eff).toNat))

/-- The message of the lighting queue of port `p` with a TAG has reached the start of arbitration (R391 step 3). -/
def extStarted (p tag : Nat) (s : State) : Bool :=
  match (s.queue (lightQ p)).cells with
  | c :: _ => rd c.data 8 4 = tag && (tget (fun _ => (0, 0)) (s.can p).tries 63).1 ≠ 0
  | [] => false

/-- The entry of a queue with a TAG is withdrawn and its cells are freed, unless it has started arbitration (R391 step 3): `p` the port, `tag` the TAG. The
lighting queue holds entries of one cell. -/
def withdrawExt (p tag : Nat) (s : State) : State :=
  let q := lightQ p
  if extStarted p tag s then s
  else onQueue q (fun x =>
    let keep := x.cells.filter (fun c => !(c.kind = 0 && rd c.data 8 4 = tag))
    { x with cells := keep, rel := x.rel + BitVec.ofNat 32 (x.cells.length - keep.length), read := x.rel + BitVec.ofNat 32 (x.cells.length - keep.length) }) s

/-- One entry of a commit at the commit point of F - 1 (R391 step 3): sinks and lamps are checked by R157 and applied to the version, CAN messages that
did not complete are withdrawn; one under way still may, but with a TARGET_FN it counts as UNSENT (R394). A LIN message that completes before SYNC_SLOT goes on. -/
def landEntry (c : Nat) (a : State × LightCommit) (x : (Rec × Nat) × Nat) : State × LightCommit :=
  let s := a.1
  let k := a.2
  let e := x.1.1
  let n := leIndex e
  match leKind e with
  | 1 =>
    if s.owner 2 n ≠ c || (s.gen 2 n).toNat ≠ leGen e then (s, { k with stale := k.stale + 1 })
    else (sinkCommanded n (onCom (fun m => { m with ls := tput lsDef m.ls n (leVal e), lsStaged := n :: m.lsStaged }) s), { k with applied := k.applied + 1 })
  | 2 =>
    let v := s.com.chOf n
    let r : Req := { h := { ctx := c, seq := k.seq, batch := false, wantReply := false, notifyOnly := false, creditRet := 0, targetFn := 0 },
                     b := [1, 0] ++ le 2 n ++ le 2 (leGen e) ++ [BitVec.ofNat 8 (b2n v.on), 0] ++ le 2 (leVal e) ++ [0, 0], eff := s.fn + 1 }
    if s.owner 1 n ≠ c || (s.gen 1 n).toNat ≠ leGen e || (chSetCheck r s).isSome then (s, { k with stale := k.stale + 1 })
    else (onCom (fun m => { m with ch := tput chValDef m.ch n { v with dset := leVal e, held := false } }) s, { k with applied := k.applied + 1 })
  | 3 =>
    if x.1.2 = 0 then
      (withdrawExt (lePort e) (lightTag c x.2) s, if extStarted (lePort e) (lightTag c x.2) s && k.target.isNone then k else { k with ext := k.ext.set x.2 3 })
    else (s, k)
  | _ => (s, k)

/-- The lighting commits at a commit point: those that land in the next frame are applied to its version (R391, R394). DESIGN CHOICE: where those of several contexts land together they
do so in order of context, after the batches and before the task outputs, whose values win as R158 has it of a batch (log 27). -/
def lightLand (s : State) : State :=
  (List.range 16).foldl (fun s c =>
    match s.lightCommit c with
    | none => s
    | some k =>
      if k.frame.isNone && landsNow s c k then
        let r := ((k.entries.zip k.ext).zipIdx).foldl (landEntry c) (s, k)
        onLight (fun y => { y with commits := tput commitDef y.commits c (some { r.2 with frame := some (s.fn + 1) }) }) r.1
      else s) s

/-- The data of the sync frame of the frame in progress, if commits land in it (R393). -/
def syncData (s : State) : Option Rec :=
  match s.light.sync with
  | some (f, d) => if f = s.fn then some d else
      if s.light.commits.any (fun e => (e.2.bind (·.frame)) = some s.fn) then some ((s.light.syncSeq + 1) :: le 3 s.fn.toNat) else none
  | none => if s.light.commits.any (fun e => (e.2.bind (·.frame)) = some s.fn) then some ((s.light.syncSeq + 1) :: le 3 s.fn.toNat) else none

/-- LIGHT_SYNC: tick 200 x SYNC_SLOT of a frame in which lighting commits land (R391 step 4): staged sink values take effect, the sync frame is admitted to the
lighting queue of each CAN port that takes part, and the owners have their COMPLETION. The LIN sync frames start with their entries. -/
def execLightSync (s : State) : Host.Outcome State Fault Refusal :=
  let g := s.com.lightCfg
  let done := (List.range 16).filter (fun c => ((s.lightCommit c).bind (·.frame)) = some s.fn)
  match done, syncData s with
  | _ :: _, some d =>
    let s := atTick (200 * gfSlot g) s
    let s := s.anvil.vals.lsStaged.foldl (fun s n =>
      let k := s.sink n
      if k.safe || k.shortOff || k.app = s.anvil.vals.lsOf n then s else sinkTake n (s.anvil.vals.lsOf n) s) s
    let s := onAnvil (fun a => { a with vals := { a.vals with lsStaged := [] } }) s
    let s := onLight (fun x => { x with syncSeq := x.syncSeq + 1, sync := some (s.fn, d) }) s
    let s := (List.range 8).foldl (fun s p =>
      if bit (gfCanPorts g) p then admitEntry (lightQ p) (canEntry (gfCanFmt g) (gfCanFd g) (gfCanId g) syncTag d) s else s) s
    .next (done.foldl (fun s c =>
      match s.lightCommit c with
      | none => s
      | some k =>
        let cnt (v : Nat) : Octet := BitVec.ofNat 8 (k.ext.filter (· = v)).length
        let s := onLight (fun x => { x with commits := tput commitDef x.commits c none }) s
        completion c k.seq 0x5006 .ok 0 (le 4 s.fn.toNat ++ [BitVec.ofNat 8 k.applied, BitVec.ofNat 8 k.stale, BitVec.ofNat 8 k.dropped, cnt 1, cnt 2, cnt 3 + cnt 0,
          s.light.syncSeq, 0]) s) s)
  | _, _ => .next s

/-- A context's stage set and pending commit are discarded, messages not yet started withdrawn (R395). -/
def lightDiscard (c : Nat) (s : State) : State :=
  let s := match s.lightCommit c with
    | none => s
    | some k => ((k.entries.zip k.ext).zipIdx).foldl (fun s x =>
        if leKind x.1.1 = 3 && x.1.2 = 0 then withdrawExt (lePort x.1.1) (lightTag c x.2) s
        else if leKind x.1.1 = 4 && x.1.2 = 0 then onLin (lePort x.1.1) (fun p => { p with ext := p.ext.filter (fun y => !(y.2.1 = c && y.2.2.1 = x.2)) }) s
        else s) s
  onLight (fun x => { x with commits := tput commitDef x.commits c none, stages := tput stageDef x.stages c [] }) s

end Sys2Proof.Machine
end

