-- ==== Sys2Proof/Machine/Can.lean ====
section
/-! DEFINITION. CAN ports (13_can_ports): states, filtering, transmission, error confinement, sleep and wake. -/

namespace Sys2Proof.Machine

/-! ### States (R436, R466) -/

/-- The error state of a port (R456): 0 error-active, 1 error-passive, 2 bus-off. -/
def canErr (k : CanPort) : Nat := if k.st = 4 || 255 < k.tec then 2 else if 128 ≤ k.tec || 128 ≤ k.rec_ then 1 else 0

/-- CAN_CONTROL STOP and SLEEP once no frame is in progress (R459, R470). -/
def canStop (p : Nat) (s : State) : State := onCan p (fun k => { k with cmd := 0, st := 0, tec := 0, rec_ := 0, recover := false, after := none }) s
def canSleep (p : Nat) (s : State) : State := onCan p (fun k => { k with st := 6, fdCnt := 0, after := none }) s

/-- A frame has ended on the bus of a port: a STOP or SLEEP that waited for it acts (R459, R467). -/
def canAfter (p : Nat) (s : State) : State :=
  match (s.can p).after with
  | none => s
  | some a => if a = 2 then canStop p s else canSleep p s

/-- Tongs link loss and return (R466). -/
def canSuspend (lost : Bool) (s : State) : State :=
  (List.range 8).foldl (fun s p => onCan p (fun k =>
    let k := { k with suspended := lost }
    if lost then (if k.st = 0 || k.st = 6 then k else { k with st := 5 }) else canLeave k) (canAfter p s)) s

/-- CAN_STATE to the owner of a port at a change of its error state (R456). -/
def canStateNote (p : Nat) (s : State) : State :=
  let k := s.can p
  notify (s.owner 4 p) 0x7001 ([BitVec.ofNat 8 p, BitVec.ofNat 8 k.st, BitVec.ofNat 8 (canErr k)] ++ fitN 1 k.tec ++ fitN 1 k.rec_ ++ zeros 3) s

/-- A change of the counters of an ACTIVE port, with what R456 attaches to a change of the error state. -/
def canCount (p : Nat) (f : CanPort → CanPort) (s : State) : State :=
  let a := canErr (s.can p)
  let s := onCan p f s
  let b := canErr (s.can p)
  if a = b then s
  else if b = 2 then
    canStateNote p (raise 0x101 p (onCan p (fun k => { k with st := 4, busoffs := k.busoffs + 1, recover := false }) s))
  else canStateNote p (if b = 1 then raise 0x100 p s else s)

/-! ### CAN_PORT_CFG (R437 to R443) -/

/-- Clock periods of 6.25 ns in a nominal and in a data bit (R439). -/
def canNbit (c : Rec) : Nat := nfNbrp c * (1 + nfNtseg1 c + nfNtseg2 c)
def canDbit (c : Rec) : Nat := nfDbrp c * (1 + nfDtseg1 c + nfDtseg2 c)

/-- Ranges of a CAN_PORT_CFG at payload offset 8 (R437 to R443). A rule over several fields is reported at the first of them. -/
def canConfigRange (s : State) (b : Rec) : Option Nat :=
  let p := unitIx b
  let c := sub b 8 64
  let fd := nfFdEn c
  let n := canNbit c
  let d := canDbit c
  let dq := rd c 16 2
  firstBad [portIn 0 8 b, (24, rd c 0 1 = p),
    (25, !(nfTriple c && decide (n < 640)) && !(fd && decide (d < 160) && !(nfTdcEn c)) && !(fd && decide (d < 32) && !(nfSic c))),
    (26, decide (1 ≤ nfNbrp c ∧ nfNbrp c ≤ 32) && decide (160 ≤ n ∧ n ≤ 3200)),
    (27, if fd then decide (1 ≤ nfDbrp c ∧ nfDbrp c ≤ 32) && decide (20 ≤ d ∧ d ≤ n) else nfDbrp c = 0),
    (28, decide (2 ≤ nfNtseg1 c ∧ nfNtseg1 c ≤ 256) && decide (58000 + 200 * nfBusDelay c ≤ (1 + nfNtseg1 c) * nfNbrp c * 625)),
    (30, decide (2 ≤ nfNtseg2 c ∧ nfNtseg2 c ≤ 128)), (31, decide (1 ≤ nfNsjw c ∧ nfNsjw c ≤ nfNtseg2 c)),
    (32, if fd then decide (1 ≤ nfDtseg1 c ∧ nfDtseg1 c ≤ 128) else nfDtseg1 c = 0),
    (33, if fd then decide (1 ≤ nfDtseg2 c ∧ nfDtseg2 c ≤ 64) else nfDtseg2 c = 0),
    (34, if fd then decide (1 ≤ nfDsjw c ∧ nfDsjw c ≤ nfDtseg2 c) else nfDsjw c = 0),
    (35, if nfTdcEn c then decide (nfSsp c ≤ 162) else nfSsp c = 0), (36, decide (nfBusDelay c ≤ 2000)),
    (38, decide (nfDoneMode c ≤ 2)),
    (40, if nfDoneMode c = 0 then dq = 0
         else decide (2048 ≤ dq) && qMode (s.qcfg dq) ≠ 0 && qProducer (s.qcfg dq) = 0x30C8 + p)]

def canPriv (r : Req) (s : State) : Option (Status × Nat) := if ctxPriv (s.cx r.h.ctx) < 2 then some (.denied, 0xFFFF) else none

def canConfigSpec : OpSpec :=
  { code := 0x7000, kind := .commit, solo := false, data := true, units := actsOn 4, priv := 1,
    access := canPriv, okLen := lenIs 72,
    resv := fun _ => [(6, 2, 0xFFFF), (8, 1, 0xF8), (9, 1, 0xC0), (10, 1, 0xC0), (11, 1, 0xC0), (12, 2, 0xFE00), (22, 1, 0xFC), (23, 1, 0xFF), (24, 2, 0xE000),
      (26, 14, 2 ^ 112 - 1)],
    range := fun r s => canConfigRange s r.b,
    check := fun r s => if (s.can (unitIx r.b)).st ≠ 0 then some (.state, 0x12) else none
    anvil := toAnvil, recs := fun _ _ => 0, maxData := fun _ => 2,
    run := fun r s =>
      let p := unitIx r.b
      let s := if (s.can p).cfg = sub r.b 8 64 then s else reassign 4 p s
      let s := onCan p (fun k => { k with cfg := sub r.b 8 64, stored := true }) s
      { st := s, status := .ok, detail := 0, data := genOct s 4 p },
    fin := finGen 4 }

/-- The nominal rate of SW_RATE in clock periods a bit (R460). -/
def swBit (c : Rec) : Nat := 1280 / 2 ^ wfSwRate c

def canWakeConfigSpec : OpSpec :=
  { code := 0x7001, kind := .commit, solo := false, data := true, units := actsOn 4, priv := 1, access := noAccess, okLen := lenIs 32,
    resv := fun _ => [(6, 2, 0xFFFF), (8, 1, 0xF8), (9, 1, 0xF8), (10, 1, 0xC0), (11, 1, 0xF0), (12, 1, 0xFC), (13, 1, 0xF0), (14, 2, 0xFFFF), (16, 4, 0xC0000000),
      (20, 4, 0xE0000000)],
    range := fun r s =>
      let c := sub r.b 8 24
      firstBad [portIn 0 8 r.b, (24, rd c 0 1 = unitIx r.b), (25, decide (wfMode c ≤ 2)), (26, decide (5 ≤ wfFiltT c ∧ wfFiltT c ≤ 50)),
        (27, decide (1 ≤ wfWupTo c ∧ wfWupTo c ≤ 10)), (28, canNbit (s.can (unitIx r.b)).cfg = swBit c), (29, decide (wfDlc c ≤ 8))]
    check := fun r s => if (s.can (unitIx r.b)).st = 6 then some (.state, 0x16) else none
    anvil := toAnvil, recs := fun _ _ => 24, maxData := fun _ => 2,
    run := fun r s =>
      let p := unitIx r.b
      { st := onCan p (fun k => { k with wake := sub r.b 8 24 }) s, status := .ok, detail := 0, data := genOct s 4 p },
    fin := finGen 4 }

/-! ### Transmit queues (R451 to R455) -/

def canTxq (p i : Nat) : Nat := 320 + 128 * p + i
/-- Octets that a DLC encodes (ISO 11898-1): classical frames stop at 8. -/
def dlcLen (fd : Bool) (d : Nat) : Nat :=
  if d ≤ 8 then d else if fd then ([12, 16, 20, 24, 32, 48, 64][d - 9]?).getD 64 else 8

/-- The head entry of a queue: the cells it takes, and its octets if it is a data entry; gap and abort markers take one cell. -/
def qHead (q : Queue) (cut : Nat) : Option (Nat × Option Rec) :=
  let v := q.cells.take (qVisible q cut)
  match v with
  | [] => none
  | c :: _ =>
    if c.kind ≠ 0 then some (1, none)
    else
      let body := v.takeWhile (fun x => !x.last)
      match v[body.length]? with
      | some l => if l.kind = 0 then some (body.length + 1, some ((body ++ [l]).flatMap (·.data))) else some (body.length + 1, none)
      | none => none

/-- The transmit engine refuses an entry (R452). -/
def canBadEntry (cfg e : Rec) : Bool :=
  let w := rd e 0 4
  let fdf := bit w 31
  let rtr := bit w 30
  let dlc := rd e 4 1 % 16
  let len := rd e 5 1
  !(if rtr then len = 0 else decide (len = dlcLen fdf dlc)) || (fdf && !(nfFdEn cfg)) || (bit (rd e 4 1) 4 && !fdf) || (rtr && fdf)
    || (!(bit w 29) && decide (0x7FF < w % 2 ^ 29))

/-- The head entry of local queue `i` completes (R455): its cells are released, its completion entry goes where DONE_MODE sends it, or to the lighting engine. -/
def canComplete (p i status : Nat) (n : Nat) (e : Rec) (s : State) : State :=
  let k := s.can p
  let t := tget (fun _ => (0, 0)) k.tries i
  let q := canTxq p i
  let s := onQueue q (fun x => { qRelease n (qWatermark (s.qcfg q)) x with read := x.rel + BitVec.ofNat 32 n }) s
  let s := onCan p (fun k =>
    { k with tries := tput (fun _ => (0, 0)) k.tries i (0, 0), txFrames := if status = 0 then k.txFrames + 1 else k.txFrames,
             txFailed := if status = 1 || status = 2 then k.txFailed + 1 else k.txFailed }) s
  let tag := rd e 8 4
  if i = 63 && bit (gfCanPorts s.com.lightCfg) p then
    (if tag = syncTag then s else extDone (tag / 256) (tag % 256) (if status = 0 then 1 else if status = 3 then 3 else 2) s)
  else if nfDoneMode k.cfg = 2 || (nfDoneMode k.cfg = 1 && status ≠ 0) then
    admitEntry (nfDoneQueue k.cfg)
      (sub e 0 4 ++ [BitVec.ofNat 8 status, BitVec.ofNat 8 t.2, BitVec.ofNat 8 t.1, BitVec.ofNat 8 i] ++ le 4 tag ++ le 4 s.fn.toNat) s
  else s

/-- Markers and refused entries leave the head of a queue, at most `fuel` of them (R452, R467). -/
def canClean (p i : Nat) : Nat → State → State
  | 0, s => s
  | f + 1, s =>
    let q := canTxq p i
    match qHead (s.queue q) 0 with
    | some (n, none) => canClean p i f (onQueue q (fun x => { qRelease n (qWatermark (s.qcfg q)) x with read := x.rel + BitVec.ofNat 32 n }) s)
    | some (n, some e) => if canBadEntry (s.can p).cfg e then canClean p i f (canComplete p i 2 n e s) else s
    | none => s

/-- Refused heads leave every transmit queue of a port that may transmit. -/
def canCleanAll (p : Nat) (s : State) : State :=
  (List.range 64).foldl (fun s i => let n := (s.queue (canTxq p i)).cells.length; if n = 0 then s else canClean p i n s) s

/-- CAN_TX_ATTEMPT_END: the attempt of the head entry of local queue `i` of port `p` ends (R454): `err` 0 sent, 1 arbitration lost, 2 bit, 3 stuff, 4 form,
5 acknowledgement error, 6 cut off by bus-off; `loop` the loop delay measured in clock periods, if one was (R442). The port is ACTIVE, or has gone bus-off through
the error. A STOP or SLEEP that waited for the frame then acts (R467). -/
def execCanTxAttemptEnd (p i err : Nat) (loop : Option Nat) (s : State) : Host.Outcome State Fault Refusal :=
  if p ≥ 8 || i ≥ 64 || !((s.can p).st = 2 || ((s.can p).st = 4 && decide (2 ≤ err))) || decide (6 < err) then .next s
  else
    let s := canClean p i (s.queue (canTxq p i)).cells.length s
    match qHead (s.queue (canTxq p i)) 0 with
    | some (n, some e) =>
      let cfg := (s.can p).cfg
      let brs := bit (rd e 4 1) 4 && bit (rd e 0 4) 31 && nfTdcEn cfg
      let s := onCan p (fun k =>
        let t := tget (fun _ => (0, 0)) k.tries i
        { k with tdc := (match loop with | some x => if brs then min x 93 else k.tdc | none => k.tdc),
                 tries := tput (fun _ => (0, 0)) k.tries i (t.1 + 1, if err = 0 then t.2 else err), dom := false }) s
      let t := tget (fun _ => (0, 0)) (s.can p).tries i
      if err = 0 then .next (canAfter p <| canComplete p i 0 n e (canCount p (fun k => { k with tec := k.tec - 1 }) s))
      else if nfRetry cfg i < t.1 then .next (canAfter p (canComplete p i 1 n e s))
      else .next (canAfter p s)
    | _ => .next s

/-- CAN_BUS_ERROR: the counters of an ACTIVE port after an error by ISO 11898-1 (R456): as transmitter TEC rises by 8; as receiver REC by 1, or by 8 where
`big` marks a dominant bit after its own error flag. The error of a frame received ends it. -/
def execCanBusError (p : Nat) (tx big : Bool) (s : State) : Host.Outcome State Fault Refusal :=
  let fin (s : State) : State := if tx then s else canAfter p s
  if p < 8 && ((s.can p).st = 3 || (s.can p).st = 7) then .next (fin s)
  else if p < 8 && (s.can p).st = 2 then
    .next (fin <| canCount p (fun k => if tx then { k with tec := k.tec + 8 } else { k with rec_ := satN 255 (k.rec_ + (if big then 8 else 1)) }) s)
  else .next s

/-- CAN_INTEGRATION_DONE: 11 recessive bits bring an integrating port to its commanded state (R436). -/
def execCanIntegrationDone (p : Nat) (s : State) : Host.Outcome State Fault Refusal :=
  if p < 8 && (s.can p).st = 1 then .next (onCan p (fun k => { k with st := k.cmd, dom := false }) s) else .next s

/-- CAN_BUSOFF_RECOVERY: the 128th sequence of 11 recessive bits since the count began (R457). -/
def execCanBusoffRecovery (p : Nat) (s : State) : Host.Outcome State Fault Refusal :=
  let k := s.can p
  if p < 8 && k.st = 4 && (!(nfRecovery k.cfg) || k.recover) then
    .next (canStateNote p (onCan p (fun k => { k with st := if k.cmd = 3 then 3 else 2, tec := 0, rec_ := 0, recover := false }) s))
  else .next s

/-- CAN_TXD_DOM: the transmit input has been dominant for 1.0 ms (R458). -/
def execCanTxdDom (p : Nat) (s : State) : Host.Outcome State Fault Refusal :=
  if p < 8 && !(s.can p).txd && (s.can p).st ≠ 0 then .next (raise 0x102 p (onCan p (fun k => { k with txd := true }) s)) else .next s

/-- CAN_TXD_REENABLE: the input has been recessive for 11 nominal bits (R458). -/
def execCanTxdReenable (p : Nat) (s : State) : Host.Outcome State Fault Refusal :=
  if p < 8 then .next (onCan p (fun k => { k with txd := false }) s) else .next s

/-- CAN_BUS_DOM: the bus has been dominant for 1.0 ms while the port sends recessive, once for each episode (R458). -/
def execCanBusDom (p : Nat) (s : State) : Host.Outcome State Fault Refusal :=
  if p < 8 && (s.can p).st ≠ 0 && !(s.can p).dom then .next (raise 0x103 p (onCan p (fun k => { k with dom := true }) s)) else .next s

/-! ### Receive filtering (R444 to R450) -/

/-- The bucket of a frame (R445). -/
def canBucket (id : Nat) (ide : Bool) (port : Nat) : Nat :=
  let k := id + 2 ^ 29 * b2n ide + 2 ^ 30 * port
  bits k 0 9 ^^^ bits k 9 9 ^^^ bits k 18 9 ^^^ bits k 27 6

/-- The hash entry of a bucket that a frame matches (R446 step 1): its number. -/
def hashHit (t : Tab Octet) (id : Nat) (ide : Bool) (port : Nat) : Option Nat :=
  ((List.range 4).map (fun w => 4 * canBucket id ide port + w)).find? (fun e =>
    let o := 16 + 8 * e
    let w := ird t o 4
    bit w 31 && w % 2 ^ 29 = id && bit w 29 = ide && ird t (o + 4) 1 % 8 = port)

/-- The lowest valid mask filter that a frame matches (R446 step 2): its number. -/
def maskHit (t : Tab Octet) (id : Nat) (ide : Bool) (port : Nat) : Option Nat :=
  (List.range 64).find? (fun m =>
    let o := 16400 + 16 * m
    let w := ird t o 4
    bit (ird t (o + 9) 1) 7 && bit (ird t (o + 8) 1) port && bit w 29 = ide && ((w % 2 ^ 29) ^^^ id) &&& (ird t (o + 4) 4 % 2 ^ 29) = 0)

/-- Where a frame goes (R446): FILTER number, RXQ with RTR_OK; none where nothing matches. -/
def canFilter (t : Tab Octet) (id : Nat) (ide : Bool) (port : Nat) : Option (Nat × Nat) :=
  match hashHit t id ide port with
  | some e => some (e, ird t (16 + 8 * e + 5) 1)
  | none => (maskHit t id ide port).map (fun m => (0x800 + m, ird t (16400 + 16 * m + 9) 1))

/-- A frame received without error is counted and placed: `w` the identifier word (ID, IDE, RTR, FDF), `d` the DLC octet with BRS and ESI (R446, R449, R450). -/
def canPlace (p w d : Nat) (data : Rec) (s : State) : State :=
  let k := s.can p
  if p < 8 && (k.st = 2 || k.st = 3 || k.st = 7) then
    let s := useFree (if k.st = 2 then
      canCount p (fun k => { k with rec_ := if 127 < k.rec_ then 119 + s.freeNat % 9 else k.rec_ - 1 }) s else s)
    let s := onCan p (fun k => { k with dom := false }) s
    let miss (s : State) : State := onCan p (fun k => { k with filtMiss := k.filtMiss + 1 }) s
    match canFilter s.bus.filt (w % 2 ^ 29) (bit w 29) p with
    | none => miss s
    | some (f, x) =>
      if bit w 30 && !(bit x 6) then miss s
      else
        let q := 256 + 128 * p + x % 64
        if qMode (s.qcfg q) = 0 then onCan p (fun k => { k with rxqOff := k.rxqOff + 1 }) s
        else
          let len := if bit w 30 then 0 else min 64 (dlcLen (bit w 31) (d % 16))
          let e := le 4 w ++ [BitVec.ofNat 8 (d % 64), BitVec.ofNat 8 len] ++ le 2 f ++ le 4 s.fn.toNat ++ sub data 0 len
          let r := admitCells q e s
          if r.2.2 then r.1 else onCan p (fun k => { k with rxFrames := k.rxFrames + 1 }) r.1
  else s

/-- A frame received without error ends on the bus of port `p`. -/
def canReceive (p w d : Nat) (data : Rec) (s : State) : State := canAfter p (canPlace p w d data s)

/-- The staged filter table (R447). -/
def filtOctets (t : Tab Octet) : Rec := isub t 0 17424

/-- A reserved field of a filter table that is not 0 (R444). -/
def filtReserved (t : Tab Octet) : Bool :=
  ird t 4 12 ≠ 0
    || (List.range 2048).any (fun e => let o := 16 + 8 * e
        bit (ird t o 4) 30 || decide (7 < ird t (o + 4) 1) || bit (ird t (o + 5) 1) 7 || ird t (o + 6) 2 ≠ 0)
    || (List.range 64).any (fun m => let o := 16400 + 16 * m
        decide (2 ^ 30 ≤ ird t o 4) || decide (2 ^ 29 ≤ ird t (o + 4) 4) || ird t (o + 10) 6 ≠ 0)

/-- The key of a valid hash entry: identifier word with IDE, and port (R445). -/
def hashKey (t : Tab Octet) (e : Nat) : Option (Nat × Nat) :=
  let o := 16 + 8 * e
  let w := ird t o 4
  if bit w 31 then some (w % 2 ^ 30, ird t (o + 4) 1 % 8) else none

/-- The first hash entry outside its bucket, and the first whose key an earlier one has (R447 steps 3 and 4). -/
def filtMisplaced (t : Tab Octet) : Option Nat :=
  (List.range 2048).find? (fun e => match hashKey t e with
    | some (w, p) => canBucket (w % 2 ^ 29) (bit w 29) p ≠ e / 4
    | none => false)
def filtTwice (t : Tab Octet) : Option Nat :=
  (List.range 2048).find? (fun e => match hashKey t e with
    | some k => (List.range e).any (fun f => hashKey t f = some k)
    | none => false)

def filtBusy (r : Req) (s : State) : Option (Status × Nat) :=
  if s.bus.filtWriter ≠ 0 && s.bus.filtWriter ≠ r.h.ctx then some (.busy, 0) else none

/-- CAN_FILT_WRITE (R447): a segment of the staging buffer; the first write makes its context the writer. -/
def canFiltWriteSpec : OpSpec :=
  { code := 0x7004, kind := .now, solo := true, data := false, units := noUnits, priv := 2, access := noAccess,
    okLen := fun b => decide (4 ≤ b.length) && b.length = 4 + rd b 2 2, resv := noResv,
    range := fun r _ => firstBad [(16, decide (rd r.b 0 2 ≤ 17423)), (18, decide (1 ≤ rd r.b 2 2 ∧ rd r.b 2 2 ≤ 4000) && decide (rd r.b 0 2 + rd r.b 2 2 ≤ 17424))]
    check := filtBusy, anvil := notAnvil, recs := fun _ _ => 0, maxData := fun _ => 0,
    run := fun r s =>
      let o := rd r.b 0 2
      { st := onBus (fun x => { x with filtStage := ((r.b.drop 4).zipIdx).foldl (fun t e => tput octDef t (o + e.2) e.1) x.filtStage, filtWriter := r.h.ctx }) s,
        status := .ok, detail := 0, data := [] } }

/-- CAN_FILT_APPLY (R447): the staged table is checked in order, and takes force at tick 0 of the effect frame. -/
def canFiltApplySpec : OpSpec :=
  { code := 0x7005, kind := .commit, solo := true, data := false, units := noUnits, priv := 2, access := noAccess, okLen := lenIs 4, resv := noResv,
    range := noRange,
    check := fun r s =>
      let t := s.bus.filtStage
      match filtBusy r s with
      | some x => some x
      | none =>
        if crc32c (filtOctets t) ≠ rd r.b 0 4 then some (.verify, 0)
        else if filtReserved t then some (.format, 0)
        else match filtMisplaced t with
          | some e => some (.range, e)
          | none => (filtTwice t).map (fun e => (.range, e))
    anvil := notAnvil, recs := fun _ _ => 0, maxData := fun _ => 0,
    run := fun _ s => { st := onBus (fun x => { x with filtNext := some x.filtStage, filtWriter := 0 }) s, status := .ok, detail := 0, data := [] } }

/-! ### CAN_CONTROL (R459, R470) -/

/-- Every transmit entry of a port is withdrawn (R470 FLUSH). -/
def canFlushQ (p i : Nat) : Nat → State → State
  | 0, s => s
  | f + 1, s =>
    let q := canTxq p i
    match qHead (s.queue q) 0 with
    | some (n, none) => canFlushQ p i f (onQueue q (fun x => { qRelease n (qWatermark (s.qcfg q)) x with read := x.rel + BitVec.ofNat 32 n }) s)
    | some (n, some e) => canFlushQ p i f (canComplete p i 3 n e s)
    | none => s

/-- The local queue whose head the engine offers at an arbitration opportunity (R453). -/
def canOffered (p : Nat) (s : State) : Option Nat :=
  ((List.range 64).reverse).find? (fun i => match qHead (s.queue (canTxq p i)) 0 with | some (_, some _) => true | _ => false)

/-- What is in progress on the bus of a port at tick 0 of the frame: 0 nothing, 1 a frame of another node, 2 a transmission of the port. The state does not hold it: a free value,
within what the state of the port allows (log 38). -/
def canOnBus (p : Nat) (s : State) : Nat :=
  let x := Config.canBusy p s.fn.toNat % 3
  let st := (s.can p).st
  if st = 2 then (if x = 2 && (canOffered p s).isNone then 0 else x) else if st = 3 || st = 7 then min 1 x else 0

/-- FLUSH (R467, R470): every entry is withdrawn but the one in transmission, the head of the queue offered. -/
def canFlush (p : Nat) (s : State) : State :=
  let kept := if canOnBus p s = 2 then canOffered p s else none
  (List.range 64).foldl (fun s i =>
    let x := s.queue (canTxq p i)
    let keep := if kept = some i then x.cells.take (((qHead x 0).map (·.1)).getD 0) else []
    let s := onQueue (canTxq p i) (fun q => { q with cells := q.cells.drop keep.length }) s
    let s := canFlushQ p i x.cells.length s
    onQueue (canTxq p i) (fun q => { q with cells := keep ++ q.cells }) s) s

/-- A wake of a port is recorded and its owner told (R464); in RUN and IDLE the port returns to its commanded state. While Hearth is off the notification waits
for it. -/
def canWake (p typ id : Nat) (s : State) : State :=
  let s := onCan p (fun k => { k with wakeType := typ, wakePt := s.parkTime, wakeId := if typ = 2 then id else 0 }) s
  let s := if typ = 4 then s else deviceWake 1 p typ (if typ = 2 then id else 0) (pwCan s.pwr.cfg p) s
  if s.hearthUp then
    let k := s.can p
    notify (s.owner 4 p) 0x7002 ([BitVec.ofNat 8 p, BitVec.ofNat 8 typ] ++ le 6 k.wakePt ++ le 4 k.wakeId)
      (onCan p (fun k => canEnter { k with fdCnt := 0 }) s)
  else onCan p (fun k => { k with woken := true }) s

/-- An action at tick 0 of its effect frame. STOP waits for the end of a transmission of the port, SLEEP for that of any frame in progress (R459, R467). -/
def canAct (p a : Nat) (s : State) : State :=
  match a with
  | 0 => onCan p (fun k => canEnter { k with cmd := 2 }) s
  | 1 => onCan p (fun k => canEnter { k with cmd := 3 }) s
  | 2 => if canOnBus p s = 2 then onCan p (fun k => { k with cmd := 0, after := some 2 }) s else canStop p s
  | 3 => if canOnBus p s ≠ 0 then onCan p (fun k => { k with after := some 3 }) s else canSleep p s
  | 4 => if (s.can p).st = 6 then canWake p 4 0 s else s
  | 5 => onCan p (fun k => if k.st = 4 then { k with recover := true } else k) s
  | _ => canFlush p s

/-- The state a port will have at tick 0 of the next frame, its waiting actions done. -/
def canNext (s : State) (p : Nat) : Nat := ((s.can p).ctl.foldl (fun s a => canAct p a s) (onClk (fun x => { x with fn := x.fn + 1 }) s) |>.can p).st

def canControlSpec : OpSpec :=
  { code := 0x7002, kind := .commit, solo := false, data := true, units := actsOn 4, priv := 1, access := noAccess, okLen := lenIs 8,
    resv := fun _ => [(7, 1, 0xFF)], range := fun r _ => firstBad [portIn 0 8 r.b, (22, decide (rd r.b 6 1 ≤ 6))],
    check := fun r s =>
      let k := s.can (unitIx r.b)
      let a := rd r.b 6 1
      if (a = 0 || a = 1 || a = 3) && !k.stored then some (.state, 0x13)
      else if a = 3 && wfMode k.wake = 0 then some (.state, 0x14)
      else if a = 5 && k.st ≠ 4 then some (.state, 0x15) else none
    anvil := toAnvil, recs := fun _ _ => 0, maxData := fun _ => 4,
    run := fun r s =>
      let p := unitIx r.b
      let s := onCan p (fun k => { k with ctl := k.ctl ++ [rd r.b 6 1] }) s
      { st := s, status := .ok, detail := 0, data := genOct s 4 p ++ [BitVec.ofNat 8 (canNext s p), 0] },
    fin := fun r s _ => genOct s 4 (unitIx r.b) ++ [BitVec.ofNat 8 (canNext s (unitIx r.b)), 0] }

/-- Tick 0 of a frame: the filter table and the actions of the version take force; refused entries leave the heads of the queues. -/
def canFrameStart (s : State) : State :=
  let s := match s.bus.filtNext with
    | some t => onBus (fun x => { x with filt := t, filtNext := none }) s
    | none => s
  (List.range 8).foldl (fun s p =>
    let s := (s.can p).ctl.foldl (fun s a => canAct p a s) s
    let s := onCan p (fun k => { k with ctl := [] }) s
    if (s.can p).st = 2 then canCleanAll p s else s) s

def canStatusSpec : OpSpec :=
  { readSpec 0x7003 4 6 [] noCheck 112 (fun r s =>
      let p := unitIx r.b
      let k := s.can p
      genOct s 4 p ++ [BitVec.ofNat 8 (s.owner 4 p), BitVec.ofNat 8 (k.st + 8 * canErr k)] ++ fitN 1 k.tec ++ fitN 1 k.rec_ ++ [
        BitVec.ofNat 8 k.fdCnt, BitVec.ofNat 8 k.tdc] ++ le 4 (ird s.bus.filt 0 4) ++ le 4 k.rxFrames.toNat ++ le 4 k.txFrames.toNat ++ le 4 k.filtMiss.toNat
        ++ le 4 k.rxqOff.toNat ++ le 4 k.txFailed.toNat ++ le 4 k.busoffs.toNat ++ [BitVec.ofNat 8 k.wakeType, 0] ++ le 6 k.wakePt ++ le 4 k.wakeId ++ k.cfg) with
    range := fun r _ => firstBad [portIn 0 8 r.b] }

/-! ### Sleep and wake (R461 to R465) -/

/-- CAN_WAKE_PATTERN: a wake-up pattern of R461 on a sleeping port. In PARK-D a WAKE_FRAME port detects it too (R465). -/
def execCanWakePattern (p : Nat) (s : State) : Host.Outcome State Fault Refusal :=
  let k := s.can p
  if p < 8 && k.st = 6 && (wfMode k.wake = 1 || (wfMode k.wake = 2 && s.pwr.state = 3)) then .next (canWake p 1 0 s) else .next s

/-- A frame is the wake frame of a record (R462). -/
def isWakeFrame (c : Rec) (w dlc : Nat) (data : Rec) : Bool :=
  bit w 30 = false && bit w 31 = false && bit w 29 = wfIde c && ((w % 2 ^ 29) ^^^ wfId c) &&& wfMask c = 0 && dlc = wfDlc c
    && (wfDlc c = 0 || rd (wfData c) 0 8 = 0 || rd (wfData c) 0 8 &&& rd data 0 8 ≠ 0)

/-- CAN_WAKE_FRAME: a frame decoded on a port asleep with WAKE_FRAME (R462, R463): `w` the identifier word, `bad` that it ended with a stuff, CRC or form
error. The passing of 32 counts once. -/
def execCanWakeFrame (p w dlc : Nat) (data : Rec) (bad : Bool) (s : State) : Host.Outcome State Fault Refusal :=
  let k := s.can p
  if p < 8 && k.st = 6 && wfMode k.wake = 2 && s.pwr.state ≠ 3 && !k.woken then
    if bit w 31 && wfFdPassive k.wake then .next s
    else if bad || bit w 31 then
      if k.fdCnt ≥ 32 then .next (canWake p 3 0 (raise 0x104 p (onCan p (fun k => { k with fdCnt := 33 }) s)))
      else .next (onCan p (fun k => { k with fdCnt := k.fdCnt + 1 }) s)
    else
      let s := onCan p (fun k => { k with fdCnt := k.fdCnt - 1 }) s
      if isWakeFrame k.wake w dlc data then .next (canWake p 2 w s) else .next s
  else .next s

/-- Park entry (R465): a port not asleep goes to sleep under its record, or OFF. -/
def canPark (s : State) : State :=
  (List.range 8).foldl (fun s p => onCan p (fun k =>
    if k.st = 6 then k else { k with st := if wfMode k.wake = 0 then 0 else 6, fdCnt := 0, after := none }) s) s

/-- A Hearth start (R466): the counters and the queues' progress are gone, the port enters its commanded state; wakes in park are told. -/
def canStart (s : State) : State :=
  (List.range 8).foldl (fun s p =>
    let k := s.can p
    let s := onCan p (fun k => canEnter { k with tec := 0, rec_ := 0, recover := false, tries := [], ctl := [], rxFrames := 0, txFrames := 0, filtMiss := 0, rxqOff := 0,
                                                 txFailed := 0, busoffs := 0, fdCnt := 0, woken := false, dom := false }) s
    if k.woken then notify (s.owner 4 p) 0x7002 ([BitVec.ofNat 8 p, BitVec.ofNat 8 k.wakeType] ++ le 6 k.wakePt ++ le 4 k.wakeId) s else s) s

end Sys2Proof.Machine
end

