-- ==== Sys2Proof/Machine/Inputs.lean ====
section
/-! DEFINITION. Inputs and health monitors (20_inputs_monitors). -/

namespace Sys2Proof.Machine

/-! ### IN_CFG (R634) -/
def Com.inCfgOf (c : Com) (n : Nat) : Rec := tget inCfgReset c.inCfg n
def qfNotify (c : Rec) : Bool := bit (rd c 1 1) 4
def qfWake (c : Rec) : Nat := bits (rd c 1 1) 5 2
def qfPeriod (c : Rec) : Nat := 2 ^ (rd c 4 1 % 8)
def qfDeb (c : Rec) : Nat := rd c 5 1 % 16
def qfParkPer (c : Rec) : Nat := rd c 6 1

def onMon (f : Mon → Mon) (s : State) : State := onAnvil (fun a => { a with mon := f a.mon }) s

/-- IN_CHANGE to every context of NTF_CTX, stamped with the confirming sample (R636, R650). -/
def inChange (n : Nat) (v : Bool) (s : State) : State :=
  if qfNotify (s.anvil.vals.inCfgOf n) then
    (List.range 16).foldl (fun s c => if bit (rd s.com.inGlob 2 2) c then notify c 0xD001 [BitVec.ofNat 8 n, BitVec.ofNat 8 (b2n v), 0, 0] s else s) s
  else s

/-- The frames from `a` to `f` in which input `n`, of sampling period `p`, has been sampled (R635); a history that begins with the next frame has none. -/
def samplesFrom (n p : Nat) (a f : Fn) : Nat :=
  let d := (f - a).toNat
  if d = 2 ^ 32 - 1 then 0 else (d + (a.toNat + p - n % p) % p) / p + b2n (decide ((a.toNat + p - n % p) % p = 0))

/-- The first frame whose sample counts towards the next change of an input. -/
def debFromDef : Nat → Fn := fun _ => 0

/-- An edge of input `n` to `v` is one that its WAKE selects (R634). -/
def wakeEdge (c : Rec) (v : Bool) : Bool := qfWake c = 3 || qfWake c = (if v then 1 else 2)

/-- A confirming sample of an input (R635, R637, R638): in RUN and IDLE at tick 47,900 of a frame it is sampled in, the last of DEB since its history began; in park at a sensed
instant. The answer says whether the debounced state changed. During park entry the edge is a wake source too (R649). -/
def inputEdge (n : Nat) (v : Bool) (s : State) : State × Bool :=
  let c := s.anvil.vals.inCfgOf n
  let parked := s.parked
  let f := s.anvil.lastFn
  let sampled := if parked then decide (qfParkPer c ≠ 0)
    else f.toNat % qfPeriod c = n % qfPeriod c && decide (qfDeb c ≤ samplesFrom n (qfPeriod c) (tget debFromDef s.anvil.mon.debFrom n) f)
  if 96 ≤ n ∨ bit s.anvil.mon.deb n = v ∨ s.pwr.state = 4 ∨ sampled = false then (s, false)
  else
    let s := if parked then s else atTickA 47900 s
    let s := onMon (fun m =>
      { m with deb := if v then m.deb + 2 ^ n else m.deb - 2 ^ n, debTb := tput (fun _ => 0) m.debTb n s.tbNow, debFrom := tput debFromDef m.debFrom n (f + 1) }) s
    let s := if parked || s.pwr.entry ≠ 0 then deviceWake 4 n 0 0 (wakeEdge c v) s else s
    (if parked then s else inChange n v s, true)

/-- The sample history of the inputs whose IN_CFG takes effect in frame `f` restarts (R637): those an IN_CONFIG named since Anvil executed `was`. -/
def inputsRestart (was : Com) (f : Fn) (s : State) : State :=
  let c := s.anvil.vals
  if was.inGen = c.inGen && was.inCfg = c.inCfg then s
  else
    onMon (fun m => { m with debFrom := (List.range 96).foldl (fun t n =>
      if tget (fun _ => 0) was.inGen n = tget (fun _ => 0) c.inGen n && was.inCfgOf n = c.inCfgOf n then t else tput debFromDef t n f) m.debFrom }) s

/-- After a wake the RUN sample history of every input starts from the debounced state (R639). -/
def inputsWake (s : State) : State :=
  onMon (fun m => { m with debFrom := (List.range 96).foldl (fun t n => tput debFromDef t n (s.anvil.lastFn + 1)) [] }) s

/-! ### Opcodes (R650) -/

def inConfigSpec : OpSpec :=
  { code := 0xD000, kind := .commit, solo := false, data := false, units := noUnits, priv := 2, access := noAccess, okLen := lenIs 8,
    resv := fun _ => [(0, 1, 0x80), (1, 1, 0x80), (4, 1, 0xF8), (7, 1, 0xFF)],
    range := fun r _ => firstBad [(16, decide (rd r.b 0 1 ≤ 95)), (18, decide (5 ≤ rd r.b 2 1 ∧ rd r.b 2 1 ≤ 200)),
      (19, decide (rd r.b 2 1 + 2 ≤ rd r.b 3 1 ∧ rd r.b 3 1 ≤ 220)), (20, decide (rd r.b 4 1 ≤ 6)), (21, decide (1 ≤ rd r.b 5 1 % 16 ∧ 1 ≤ rd r.b 5 1 / 16)),
      (22, decide (rd r.b 6 1 ≤ 100))],
    check := noCheck, anvil := notAnvil, recs := fun _ _ => 8, maxData := fun _ => 0,
    run := fun r s => { st := onCom (fun c => { c with inCfg := tput inCfgReset c.inCfg (rd r.b 0 1) r.b, inGen := tmod (fun _ => 0) c.inGen (rd r.b 0 1) (· + 1) }) s, status := .ok, detail := 0, data := [] } }

def inGlobalSpec : OpSpec :=
  { code := 0xD002, kind := .commit, solo := false, data := false, units := noUnits, priv := 2, access := noAccess, okLen := lenIs 8,
    resv := fun _ => [(2, 2, 1), (4, 4, 0xFFFFFFFF)], range := noRange, check := noCheck, anvil := notAnvil, recs := fun _ _ => 0, maxData := fun _ => 0,
    run := fun r s => { st := onCom (fun c => { c with inGlob := r.b }) s, status := .ok, detail := 0, data := [] } }

/-- Encoder levels: bit 2b ENCbA, bit 2b + 1 ENCbB. -/
def encLevels (a : Anvil) : Nat :=
  ((List.range 8).map (fun b => let k := tget bridgeDef a.br b; 4 ^ b * (b2n k.encA + 2 * b2n k.encB))).sum

def inStatusSpec : OpSpec := readSpec 0xD001 0 0 [] noCheck 18 (fun _ s =>
  let a := s.rep
  le 12 a.mon.deb ++ le 2 a.limp.dir ++ [BitVec.ofNat 8 a.limp.lhin, BitVec.ofNat 8 (b2n a.limp.lhN + 2 * b2n a.mon.resetN + 4 * (a.mon.wake % 16))]
    ++ le 2 (encLevels a))

def inCfgReadSpec : OpSpec :=
  { readSpec 0xD004 0 4 [(1, 3, 0xFFFFFF)] noCheck 8 (fun r s => s.com.inCfgOf (rd r.b 0 1)) with
    range := fun r _ => firstBad [(16, decide (rd r.b 0 1 ≤ 95))] }

/-- Temperature sensors of Anvil; 25 degrees where none has been read. -/
def tsDef : Nat → TSensor := fun _ => TSensor.initial

/-- A mask of those below `n` that satisfy a test. -/
def maskOf (n : Nat) (f : Nat → Bool) : Nat := ((List.range n).map (fun i => if f i then 2 ^ i else 0)).sum

def monReadSpec : OpSpec :=
  { readSpec 0xD003 0 4 [(1, 3, 0xFFFFFF)] noCheck 162 (fun r s =>
      let m := s.rep.mon
      if rd r.b 0 1 = 0 then
        leI 2 s.rep.sup.vbats ++ (s.rep.sup.vbat.flatMap (leI 2)) ++ m.rails.flatMap (le 2) ++ m.ain.flatMap (le 2) ++ le 4 m.vBad
      else if rd r.b 0 1 = 1 then
        (List.range 12).flatMap (fun a => leI 2 (tget tsDef m.area a).v) ++ (List.range 64).flatMap (fun n => leI 2 (s.chMeasH n).tj)
          ++ le 10 (maskOf 12 (fun a => (tget tsDef m.area a).bad) + 4096 * maskOf 64 (fun n => (tget tsDef m.tj n).bad))
      else
        (List.range 8).flatMap (fun k => leI 2 (tget tsDef s.hmon.temp k).v) ++ s.hmon.proc.flatMap (le 2)
          ++ le 2 (maskOf 8 (fun k => (tget tsDef s.hmon.temp k).bad) + 256 * s.hmon.procBad)) with
    range := fun r _ => firstBad [(16, decide (rd r.b 0 1 ≤ 2))] }

/-! ### Sensors in a frame (R644, R645, R647) -/

/-- The TB at which a channel conducted last; whether it has conducted in the last 60 s. -/
def State.coolFor60 (s : State) (n : Nat) : Bool :=
  !(s.conducting n) && decide (60 * 50000000 ≤ (s.tbNow - tget (fun _ => 0) s.anvil.mon.lastCond n).toNat)

/-- One frame of a sensor: `v` its reading, `bad` that its conversions were faulted, `crit` the criteria of its kind. -/
def sensorStep (tb : Tb) (v : Int) (bad : Bool) (crit : Int → Bool) (k : TSensor) : TSensor :=
  let v' := if bad then k.v else v
  let n := if bad then k.conv + 1 else 0
  let holds := v' < -400 || 1600 < v' || decide (4 ≤ n) || crit v'
  { v := v', conv := min n 4, okSince := if holds then tb else k.okSince,
    bad := holds || (k.bad && decide ((tb - k.okSince).toNat < 10 * 50000000)) }

/-- The area of a channel (R286, R645). -/
def areaOf (n : Nat) : Nat := 3 * n / 16

/-- An area sensor differs by more than 40 K from the mean of the other valid ones. -/
def areaStray (m : Mon) (a : Nat) (v : Int) : Bool :=
  let o := ((List.range 12).filter (fun b => b ≠ a && !(tget tsDef m.area b).bad)).map (fun b => (tget tsDef m.area b).v)
  decide (o ≠ []) && decide (320 * (o.length : Int) < (v * o.length - o.sum).natAbs)

def areaStep (a : Nat) (v : Int) (bad : Bool) (s : State) : State :=
  let k := tget tsDef s.anvil.mon.area a
  let cool := ((List.range 64).filter (fun n => areaOf n = a)).all s.coolFor60
  let k' := sensorStep s.tbNow v bad (fun v => cool && areaStray s.anvil.mon a v) k
  let s := onMon (fun m => { m with area := tput tsDef m.area a k' }) s
  let s := onAnvil (fun x => { x with areaFault := if k'.bad then setBit x.areaFault a else clrBit x.areaFault a }) s
  let s := if k'.bad && !k.bad then raise 0x1C2 a s else s
  if 1200 ≤ k'.v ∧ k.v < 1200 then raise 0x1C0 a s else s

def tjStep (n : Nat) (bad : Bool) (s : State) : State :=
  let k := tget tsDef s.anvil.mon.tj n
  let area := (tget tsDef s.anvil.mon.area (areaOf n)).v
  let k' := sensorStep s.tbNow (s.chMeas n).tj bad (fun v => s.coolFor60 n && decide (160 < (v - area).natAbs)) k
  let s := onMon (fun m => { m with tj := tput tsDef m.tj n k' }) s
  if k'.bad && !k.bad then raise 0x1C3 n s else s

/-- The conduction stamps of a frame: `on` the channels that had an on-time in it. -/
def condStep (on : Nat → Bool) (s : State) : State :=
  onMon (fun m => { m with lastCond := (List.range 64).foldl (fun t n => if on n then tput (fun _ => 0) t n s.tbNow else t) m.lastCond }) s

/-- Sensors and process readings of Hearth in a frame: temperatures, ring-oscillator readings in 0.1 MHz, islands outside their range. -/
def hearthSensors (temps : List Int) (proc : List Nat) (procBad : Nat) (s : State) : State :=
  let one (s : State) (i : Nat) : State :=
    let k := tget tsDef s.hmon.temp i
    let k' := sensorStep s.tbNow (temps.getD i k.v) false (fun _ => false) k
    let s := { s with hmon := { s.hmon with temp := tput tsDef s.hmon.temp i k' } }
    let s := if k'.bad && !k.bad then raise 0x1C2 (12 + i) s else s
    if 1120 ≤ k'.v ∧ k.v < 1120 then raise 0x1C1 (12 + i) s else s
  let s := (List.range 8).foldl one s
  let ok := ((List.range 8).filter (fun i => !(tget tsDef s.hmon.temp i).bad)).map (fun i => (tget tsDef s.hmon.temp i).v)
  let wide := ok.any (fun a => ok.any (fun b => decide (440 < a - b)))
  let s := if wide && !s.hmon.skew then raise 3 0 s else s
  let s := { s with hmon := { s.hmon with skew := wide } }
  let old := s.hmon.procBad
  let s := { s with hmon := { s.hmon with proc := (List.range 7).map (fun i => proc.getD i 0), procBad := procBad % 128 } }
  (List.range 7).foldl (fun s i => if bit procBad i && !(bit old i) then raise 0x1C5 i s else s) s

/-! ### Droop (R24) -/

/-- Islands whose clock may be stretched: MGMT, CORE, SEC, QF of the order of R23. -/
def stretchable (i : Nat) : Bool := [0, 1, 3, 4].contains i

/-- DROOP_DETECTOR_TRIP: the clock of an island is stretched, and counted, until the droop clears; NET, BUS and TB are never stretched (R24). DESIGN CHOICE: a trip of an island that is
stretched already is no further stretch event; the spec does not say (log 35). -/
def execDroopDetectorTrip (i : Nat) (s : State) : Host.Outcome State Fault Refusal :=
  if stretchable i && !(s.link.stretched.getD i false) then
    .next (onLink (fun l => { l with stretched := l.stretched.set i true, stretchCount := l.stretchCount.set i (l.stretchCount.getD i 0 + 1) }) s)
  else .next s

/-- DROOP_CLEAR: the clock of the island runs at its own rate again (R24). -/
def execDroopClear (i : Nat) (s : State) : Host.Outcome State Fault Refusal :=
  .next (onLink (fun l => { l with stretched := l.stretched.set i false }) s)

end Sys2Proof.Machine
end

