-- ==== Sys2Proof/Machine/Crypto.lean ====
section
/-! DEFINITION. The algorithms chapters 15, 16 and 19 name: AES, AES-CMAC, counter mode, SHA-256, ECDSA and ECDH over P-256. Octet strings are in
the order the algorithms take them, first octet first. -/

namespace Sys2Proof.Machine

/-- Big-endian value of an octet string (R537). -/
def beNat (b : Rec) : Nat := b.foldl (fun a o => a * 256 + o.toNat) 0
/-- `n` octets, most significant first. -/
def be (n v : Nat) : Rec := (le n v).reverse
def xorRec (a b : Rec) : Rec := List.zipWith (· ^^^ ·) a b

/-! ### AES (FIPS 197), encryption of one block -/

/-- Multiplication by x in GF(2^8). -/
def gfX (a : Nat) : Nat := if a < 128 then 2 * a else (2 * a - 256) ^^^ 0x1B
/-- Product in GF(2^8), over the bits of `b`. -/
def gfMul : Nat → Nat → Nat → Nat
  | 0, _, _ => 0
  | k + 1, a, b => (if b % 2 = 1 then a else 0) ^^^ gfMul k (gfX a) (b / 2)
/-- a^254, the inverse in GF(2^8), 0 for 0. -/
def gfInv (a : Nat) : Nat :=
  let m := gfMul 8
  let a2 := m a a
  let a3 := m a2 a
  let a6 := m a3 a3
  let a12 := m a6 a6
  let a15 := m a12 a3
  let a30 := m a15 a15
  let a60 := m a30 a30
  let a120 := m a60 a60
  let a126 := m a120 a6
  let a127 := m a126 a
  m a127 a127
def rot8 (a k : Nat) : Nat := (a * 2 ^ k) % 256 + a / 2 ^ (8 - k)
def aesSbox (a : Nat) : Nat :=
  let b := gfInv a
  b ^^^ rot8 b 1 ^^^ rot8 b 2 ^^^ rot8 b 3 ^^^ rot8 b 4 ^^^ 0x63
def aesSub (o : Octet) : Octet := BitVec.ofNat 8 (aesSbox o.toNat)

/-- Key expansion: words newest first, `nk` words of key; `i` is the index of the word to be made. -/
def aesExpand (nk : Nat) : Nat → Nat → Nat → List Rec → List Rec
  | 0, _, _, w => w
  | k + 1, i, rcon, w =>
    let t := w.headD []
    let t := if i % nk = 0 then xorRec ((t.drop 1 ++ t.take 1).map aesSub) [BitVec.ofNat 8 rcon, 0, 0, 0]
      else if nk > 6 && i % nk = 4 then t.map aesSub else t
    aesExpand nk k (i + 1) (if i % nk = 0 then gfX rcon else rcon) (xorRec (w.getD (nk - 1) []) t :: w)

/-- The round keys of a key of 16 or 32 octets, 16 octets each. -/
def aesKeys (key : Rec) : List Rec :=
  let nk := key.length / 4
  let nr := nk + 6
  let w0 := ((List.range nk).map (fun i => (key.drop (4 * i)).take 4)).reverse
  let w := (aesExpand nk (4 * (nr + 1) - nk) nk 1 w0).reverse
  (List.range (nr + 1)).map (fun r => ((w.drop (4 * r)).take 4).flatten)

def aesShiftRows (s : Rec) : Rec := (List.range 16).map (fun i => s.getD ((i + 4 * (i % 4)) % 16) 0)
def aesMixCol (c : List Nat) : Rec :=
  (List.range 4).map (fun i =>
    let g (k : Nat) : Nat := c.getD ((i + k) % 4) 0
    BitVec.ofNat 8 (gfX (g 0) ^^^ gfX (g 1) ^^^ g 1 ^^^ g 2 ^^^ g 3))
def aesMix (s : Rec) : Rec := (List.range 4).flatMap (fun c => aesMixCol (((s.drop (4 * c)).take 4).map (·.toNat)))
def aesRounds : List Rec → Rec → Rec
  | [], s => s
  | [k], s => xorRec (aesShiftRows (s.map aesSub)) k
  | k :: t, s => aesRounds t (xorRec (aesMix (aesShiftRows (s.map aesSub))) k)

/-- AES-128 or AES-256 of one block, by the length of the key. -/
def aes (key block : Rec) : Rec :=
  match aesKeys key with
  | [] => block
  | k :: t => aesRounds t (xorRec block k)

/-! ### AES-CMAC (NIST SP 800-38B) and counter mode (R556) -/

def cmacDouble (b : Rec) : Rec :=
  let v := beNat b
  let d := 2 * v % 2 ^ 128
  be 16 (if v < 2 ^ 127 then d else d ^^^ 0x87)

def cmacChain (key : Rec) : Nat → Rec → Rec → Rec
  | 0, x, _ => x
  | n + 1, x, m => cmacChain key n (aes key (xorRec x (m.take 16))) (m.drop 16)

def cmac (key msg : Rec) : Rec :=
  let k1 := cmacDouble (aes key (zeros 16))
  let n := max 1 (cdiv msg.length 16)
  let last := msg.drop (16 * (n - 1))
  let m := if last.length = 16 then xorRec last k1 else xorRec (last ++ [0x80] ++ zeros (15 - last.length)) (cmacDouble k1)
  aes key (xorRec (cmacChain key (n - 1) (zeros 16) msg) m)

def ctrGo (key : Rec) : Nat → Nat → Rec → Rec
  | 0, _, _ => []
  | n + 1, c, d => xorRec (d.take 16) (aes key (be 16 c)) ++ ctrGo key n ((c + 1) % 2 ^ 128) (d.drop 16)
/-- AES in counter mode from an initial counter block. -/
def aesCtr (key iv data : Rec) : Rec := ctrGo key (cdiv data.length 16) (beNat iv) data

/-! ### SHA-256 (FIPS 180-4) -/

/-- The 32-bit words of a number of eight words, most significant first. -/
def wordsOf (v : Nat) : List Nat := (List.range 8).map (fun i => v >>> (32 * (7 - i)) % 2 ^ 32)
/-- The 64 round constants, eight to a number. -/
def shaK : List Nat :=
  ([0x428a2f9871374491b5c0fbcfe9b5dba53956c25b59f111f1923f82a4ab1c5ed5,
    0xd807aa9812835b01243185be550c7dc372be5d7480deb1fe9bdc06a7c19bf174]
   ++ [0xe49b69c1efbe47860fc19dc6240ca1cc2de92c6f4a7484aa5cb0a9dc76f988da,
    0x983e5152a831c66db00327c8bf597fc7c6e00bf3d5a7914706ca635114292967]
   ++ [0x27b70a852e1b21384d2c6dfc53380d13650a7354766a0abb81c2c92e92722c85,
    0xa2bfe8a1a81a664bc24b8b70c76c51a3d192e819d6990624f40e3585106aa070]
   ++ [0x19a4c1161e376c082748774c34b0bcb5391c0cb34ed8aa4a5b9cca4f682e6ff3,
    0x748f82ee78a5636f84c878148cc7020890befffaa4506cebbef9a3f7c67178f2]).flatMap wordsOf

/-- The exclusive or of a word turned right by each of some amounts. -/
def turns (ns : List Nat) (x : BitVec 32) : BitVec 32 := (ns.map x.rotateRight).foldl (· ^^^ ·) 0

/-- Message schedule, newest first. -/
def shaExpand : Nat → List (BitVec 32) → List (BitVec 32)
  | 0, w => w
  | n + 1, w =>
    let old (k : Nat) : BitVec 32 := w.getD (k - 1) 0
    shaExpand n (((turns [17, 19] (old 2) ^^^ (old 2 >>> 10)) + old 7 + (turns [7, 18] (old 15) ^^^ (old 15 >>> 3)) + old 16) :: w)

/-- The eight working variables as two rows that shift: a to d and e to h. -/
structure ShaSt where
  upper : List (BitVec 32)
  lower : List (BitVec 32)
deriving DecidableEq, Repr

/-- A bit of the first word chooses between those of the other two; the majority of three bits. -/
def choose (l : List (BitVec 32)) : BitVec 32 := let x (k : Nat) := l.getD k 0; x 2 ^^^ (x 0 &&& (x 1 ^^^ x 2))
def majority (l : List (BitVec 32)) : BitVec 32 := let x (k : Nat) := l.getD k 0; (x 0 &&& x 1) ||| (x 2 &&& (x 0 ||| x 1))

/-- One round, `wk` the schedule's word plus the round's constant: both rows shift by a word. -/
def shaRound (s : ShaSt) (wk : BitVec 32) : ShaSt :=
  let t := s.lower.getD 3 0 + turns [6, 11, 25] (s.lower.getD 0 0) + choose s.lower + wk
  { upper := (t + turns [2, 13, 22] (s.upper.getD 0 0) + majority s.upper) :: s.upper.take 3, lower := (s.upper.getD 3 0 + t) :: s.lower.take 3 }

def shaBlock (s : ShaSt) (blk : Rec) : ShaSt :=
  let m := ((List.range 16).map (fun i => BitVec.ofNat 32 (beNat ((blk.drop (4 * i)).take 4)))).reverse
  let t := (List.zipWith (fun w k => w + BitVec.ofNat 32 k) (shaExpand 48 m).reverse shaK).foldl shaRound s
  { upper := List.zipWith (· + ·) s.upper t.upper, lower := List.zipWith (· + ·) s.lower t.lower }

def shaGo : Nat → Rec → ShaSt → ShaSt
  | 0, _, s => s
  | n + 1, m, s => shaGo n (m.drop 64) (shaBlock s (m.take 64))

def sha256 (msg : Rec) : Rec :=
  let p := msg ++ [0x80] ++ zeros ((119 - msg.length % 64) % 64) ++ be 8 (8 * msg.length)
  let h := (wordsOf 0x6a09e667bb67ae853c6ef372a54ff53a510e527f9b05688c1f83d9ab5be0cd19).map (BitVec.ofNat 32)
  let s := shaGo (p.length / 64) p { upper := h.take 4, lower := h.drop 4 }
  (s.upper ++ s.lower).flatMap (fun w => be 4 w.toNat)

/-! ### The curve P-256 (FIPS 186) -/

def p256P : Nat := 2 ^ 256 - 2 ^ 224 + 2 ^ 192 + 2 ^ 96 - 1
def p256N : Nat := 0xffffffff00000000ffffffffffffffffbce6faada7179e84f3b9cac2fc632551
def p256B : Nat := 0x5ac635d8aa3a93e7b3ebbd55769886bc651d06b0cc53b0f63bce3c3e27d2604b
def p256G : Nat × Nat :=
  (0x6b17d1f2e12c4247f8bce6e563a440f277037d812deb33a0f4a13945d898c296, 0x4fe342e2fe1a7f9b8ee7eb4a7c0f9e162bce33576b315ececbb6406837bf51f5)

/-- b^e mod m over the low `k` bits of e. -/
def powMod (m : Nat) : Nat → Nat → Nat → Nat
  | 0, _, _ => 1 % m
  | k + 1, b, e => let r := powMod m k (b * b % m) (e / 2); if e % 2 = 1 then b * r % m else r
/-- Inverse modulo a prime. -/
def invMod (m a : Nat) : Nat := powMod m 256 (a % m) (m - 2)

def onCurve (q : Nat × Nat) : Bool :=
  decide (q.1 < p256P) && decide (q.2 < p256P) && decide ((q.2 * q.2) % p256P = (q.1 * q.1 * q.1 + (p256P - 3) * q.1 + p256B) % p256P)

/-- Point addition, none the point at infinity. -/
def ecAdd (a b : Option (Nat × Nat)) : Option (Nat × Nat) :=
  match a, b with
  | none, b => b
  | a, none => a
  | some (x1, y1), some (x2, y2) =>
    let go (l : Nat) : Option (Nat × Nat) :=
      let x3 := (l * l + 2 * p256P - x1 - x2) % p256P
      some (x3, (l * (x1 + p256P - x3) + p256P - y1) % p256P)
    if x1 = x2 then
      if (y1 + y2) % p256P = 0 then none
      else go ((3 * x1 * x1 + p256P - 3) * invMod p256P (2 * y1) % p256P)
    else go ((y2 + p256P - y1) * invMod p256P (x2 + p256P - x1) % p256P)

/-- k times a point, over the low `n` bits of k. -/
def ecMul : Nat → Nat → Option (Nat × Nat) → Option (Nat × Nat)
  | 0, _, _ => none
  | n + 1, k, q => let r := ecMul n (k / 2) (ecAdd q q); if k % 2 = 1 then ecAdd q r else r

/-- The point of an x-coordinate with y odd or even; none where x has no point (R537). -/
def ecDecompress (x : Nat) (odd : Bool) : Option (Nat × Nat) :=
  if x ≥ p256P then none
  else
    let y := powMod p256P 256 ((x * x * x + (p256P - 3) * x + p256B) % p256P) ((p256P + 1) / 4)
    let y := if decide (y % 2 = 1) = odd then y else (p256P - y) % p256P
    if onCurve (x, y) && decide (decide (y % 2 = 1) = odd) then some (x, y) else none

def pointOctets (q : Option (Nat × Nat)) : Rec := match q with | none => zeros 64 | some (x, y) => be 32 x ++ be 32 y
def publicKey (d : Nat) : Rec := pointOctets (ecMul 256 d (some p256G))

/-- ECDSA under private key `d` with the per-signature value `k` (R556). -/
def ecdsaSign (d k : Nat) (digest : Rec) : Rec :=
  let r := match ecMul 256 k (some p256G) with | none => 0 | some (x, _) => x % p256N
  be 32 r ++ be 32 (invMod p256N k * (beNat digest + r * d) % p256N)

def ecdsaVerify (q : Nat × Nat) (digest sig : Rec) : Bool :=
  let r := beNat (sig.take 32)
  let s := beNat (sig.drop 32)
  if r = 0 || s = 0 || decide (p256N ≤ r) || decide (p256N ≤ s) then false
  else
    let w := invMod p256N s
    match ecAdd (ecMul 256 (beNat digest * w % p256N) (some p256G)) (ecMul 256 (r * w % p256N) (some q)) with
    | none => false
    | some (x, _) => x % p256N = r

end Sys2Proof.Machine
end

