-- ==== Sys2Proof/Machine/Keys.lean ====
section
/-! DEFINITION. The key store (16_key_store): slots, uses, derivation, attestation and the key opcodes. -/

namespace Sys2Proof.Machine

def keyDef : Nat → KeySlot := KeySlot.initial
def State.key (s : State) (n : Nat) : KeySlot := tget keyDef s.keys n
def onKey (n : Nat) (f : KeySlot → KeySlot) (s : State) : State := { s with keys := tmod keyDef s.keys n f }

/-! ### KEY_SLOT (R535) -/
def kyType (c : Rec) : Nat := rd c 1 1
def kyUsage (c : Rec) : Nat := rd c 2 1
def kyLife (c : Rec) : Nat := bits (rd c 3 1) 0 2
def kyOnce (c : Rec) : Bool := bit (rd c 3 1) 2
def kyOdd (c : Rec) : Bool := bit (rd c 3 1) 3
def kyCount (c : Rec) : Nat := rd c 4 2
def kyNotBefore (c : Rec) : Nat := rd c 8 4
def kyNotAfter (c : Rec) : Nat := rd c 12 4
/-- Octets of MATERIAL by type (R536). -/
def kyLen (ty : Nat) : Nat := if ty = 1 then 16 else if 2 ≤ ty ∧ ty ≤ 4 then 32 else 0
def kyMat (c : Rec) : Rec := sub c 16 (kyLen (kyType c))
/-- The x, y of the point of a P256_PUB record. -/
def kyPoint (c : Rec) : Option (Nat × Nat) := if kyType c = 4 then ecDecompress (beNat (kyMat c)) (kyOdd c) else none

/-- UTC in whole seconds while an anchor is in force (R210, R539). -/
def State.utcSec (s : State) : Option Int := s.com.anchor.map (fun a => utcOf a s.tbNow / 1000000000)

/-- STATE of a slot as KEY_INFO gives it (R538 to R540, R555): 0 USABLE, 1 EMPTY, 2 EXHAUSTED, 3 NOT_YET, 4 EXPIRED, 5 INTEGRITY, 6 LOST, 7 NO_ANCHOR. -/
def keyState (s : State) (n : Nat) : Nat :=
  let k := s.key n
  let c := k.rec_
  if k.lost then 6
  else if kyType c = 0 then 1
  else if k.bad then 5
  else if kyLife c = 1 && kyCount c = 0 then 2
  else if kyNotBefore c = 0 && kyNotAfter c = 0 then 0
  else match s.utcSec with
    | none => 7
    | some u => if u < kyNotBefore c then 3 else if kyNotAfter c ≠ 0 && decide ((kyNotAfter c : Int) < u) then 4 else 0

/-- A slot may serve a use of one of the types with a usage bit (R540). -/
def keyOk (s : State) (n : Nat) (types : List Nat) (usage : Nat) : Bool :=
  decide (n < unitCount 6) && keyState s n = 0 && types.contains (kyType (s.key n).rec_) && bit (kyUsage (s.key n).rec_) usage

/-- A slot checked at the start of an exchange may still serve it (R554): as `keyOk`, with no further look at the validity window. -/
def keyServes (s : State) (n : Nat) (types : List Nat) (usage : Nat) : Bool :=
  decide (n < unitCount 6) && [0, 3, 4, 7].contains (keyState s n) && types.contains (kyType (s.key n).rec_) && bit (kyUsage (s.key n).rec_) usage

/-- A use takes its count (R545, R557): at 0 the owner has KEY_EXHAUSTED once. -/
def takeUse (n : Nat) (s : State) : State :=
  let k := s.key n
  let counted := kyLife k.rec_ = 1
  let left := kyCount k.rec_ - 1
  let s := onKey n (fun k => { k with uses := k.uses + 1, rec_ := if counted then putAt k.rec_ 4 (le 2 left) else k.rec_ }) s
  if counted && left = 0 then notify (s.owner 6 n) 0x9001 ([BitVec.ofNat 8 n, 0] ++ genOct s 6 n ++ le 4 (k.uses + 1).toNat) s else s

/-! ### Derivation (R547 to R550) -/

def krDepth (b : Rec) : Nat := rd b 6 1 % 8
def krType (b : Rec) : Nat := rd b 7 1
def krOff (b : Rec) : Nat := 8 + 16 * krDepth b

/-- One level of the counter-mode KDF with AES-CMAC (R549): `l` octets. -/
def kdfLevel (k label ctx : Rec) (l : Nat) : Rec :=
  let x := label ++ [0] ++ ctx ++ be 4 (8 * l)
  (cmac k (be 4 1 ++ x) ++ (if l = 32 then cmac k (be 4 2 ++ x) else [])).take l

def deriveGo (root : Nat) (slot depth dlen : Nat) (b : Rec) : Nat → Nat → Rec → Rec
  | 0, _, k => k
  | m + 1, j, k =>
    deriveGo root slot depth dlen b m (j + 1)
      (kdfLevel k (sub b (8 + 16 * (j - 1)) 16) (le 8 Config.uid.toNat ++ [BitVec.ofNat 8 slot, BitVec.ofNat 8 j]) (if j < depth then root else dlen))

/-- The key a KEY_REF names, from the record of its root slot. -/
def derivedKey (c b : Rec) : Rec :=
  deriveGo (kyLen (kyType c)) (unitIx b) (krDepth b) (kyLen (krType b)) b (krDepth b) 1 (kyMat c)

/-! ### Opcodes (R541 to R543, R555, R556) -/

/-- A request came over an Ethernet port without MACsec (R541). -/
def insecurePath (s : State) (c : Nat) : Bool :=
  let t := ctxTransport (s.cx c)
  (t = 1 || t = 2) && !(efMacsec (s.eth (t - 1)).cfg)
/-- A slot is named by an installed MACsec SA (R490, R543). -/
def saNames (s : State) (n : Nat) : Bool :=
  [0, 1].any (fun p => let c := (s.eth p).cfg; efMacsec c && (efTxSlot c = n || [0, 1].any (fun r => efRxValid c r && efRxSlot c r = n)))

/-- USAGE bits of a type (R536). -/
def usageOf (ty : Nat) : Nat := if ty = 1 then 0x9F else if ty = 2 then 0x1F else if ty = 3 then 0x60 else if ty = 4 then 0x20 else 0

/-- Ranges of a KEY_SLOT record at payload offset 8 (R535 to R537), MATERIAL apart. -/
def keySlotRange (b : Rec) : List (Nat × Bool) :=
  let c := sub b 8 48
  let u := kyUsage c
  [(24, rd c 0 1 = unitIx b), (25, decide (kyType c ≤ 4)), (26, u &&& usageOf (kyType c) = u && (!(bit u 7) || u = 128)),
   (27, decide (kyLife c ≤ 2) && (kyType c = 4 || !(kyOdd c))), (28, if kyLife c = 1 then decide (1 ≤ kyCount c) else kyCount c = 0),
   (36, kyNotBefore c = 0 || kyNotAfter c = 0 || decide (kyNotBefore c < kyNotAfter c))]

def keyWriteCheck (r : Req) (s : State) : Option (Status × Nat) :=
  let n := unitIx r.b
  let k := s.key n
  if insecurePath s r.h.ctx then some (.state, 0x19)
  else if kyOnce k.rec_ && !k.bad then some (.state, 0x1A)
  else if saNames s n then some (.state, 0x1B) else none

/-- A slot takes a record (R541): a reassignment; its count of uses starts again. -/
def storeKey (n : Nat) (c : Rec) (s : State) : State :=
  reassign 6 n (onKey n (fun _ => { rec_ := c, lost := false, bad := false, badTold := false, uses := 0 }) s)

def keyWriteSpec : OpSpec :=
  { code := 0x9000, kind := .commit, solo := true, data := true, units := actsOn 6, priv := 2, access := noAccess, okLen := lenIs 56,
    resv := fun _ => [(6, 2, 0xFFFF), (11, 1, 0xF0), (14, 2, 0xFFFF)],
    range := fun r _ =>
      let c := sub r.b 8 48
      let d := beNat (kyMat c)
      firstBad (keySlotRange r.b ++ [(40, (c.drop (16 + kyLen (kyType c))).all (· = 0) && (kyType c ≠ 3 || (decide (1 ≤ d) && decide (d < p256N)))
        && (kyType c ≠ 4 || (kyPoint c).isSome))]),
    check := keyWriteCheck, anvil := notAnvil, recs := fun _ _ => 0, maxData := fun _ => 2,
    run := fun r s =>
      let s := storeKey (unitIx r.b) (sub r.b 8 48) s
      { st := s, status := .ok, detail := 0, data := genOct s 6 (unitIx r.b) } }

/-- A scalar from 1 to n - 1 from the random source. -/
def State.randScalar (s : State) : Nat := beNat (sub (Config.random s.free 32) 0 32) % (p256N - 1) + 1

/-- KEY_GENKEY: d is generated in the island, its public key returned (R556). -/
def keyGenkeySpec : OpSpec :=
  { keyWriteSpec with
    code := 0x9006, maxData := fun _ => 66
    range := fun r _ =>
      let c := sub r.b 8 48
      firstBad ((keySlotRange r.b).map (fun e => if e.1 = 25 then (25, decide (kyType c = 3)) else e) ++ [(40, (c.drop 16).all (· = 0))])
    run := fun r s =>
      let d := s.randScalar
      let s := storeKey (unitIx r.b) (putAt (sub r.b 8 48) 16 (be 32 d)) (useFree s)
      { st := s, status := .ok, detail := 0, data := genOct s 6 (unitIx r.b) ++ publicKey d } }

/-- PUBLIC and KCV of a record. -/
def keyPublic (c : Rec) : Rec := if kyType c = 3 then publicKey (beNat (kyMat c)) else if kyType c = 4 then pointOctets (kyPoint c) else zeros 64
def keyKcv (c : Rec) : Rec := if kyType c = 1 || kyType c = 2 then (aes (kyMat c) (zeros 16)).take 3 else zeros 3

/-- KEY_INFO, drawn from the moment of its execution as R555 states. DESIGN CHOICE: R555 and R686 do not say what a TARGET_FN other than 0 does to it; it is refused as in the live
reads of R686, with RANGE 12 (log 40). -/
def keyInfoSpec : OpSpec :=
  { readSpec 0x9001 6 6 [] noCheck 92 (fun r s =>
      let n := unitIx r.b
      let k := s.key n
      genOct s 6 n ++ [BitVec.ofNat 8 (s.owner 6 n), BitVec.ofNat 8 (keyState s n)] ++ le 4 k.uses.toNat ++ sub k.rec_ 0 16 ++ keyPublic k.rec_
        ++ keyKcv k.rec_ ++ [0]) with kind := .live }

/-- The shape of an operation on a KEY_REF. -/
def keyUseSpec (code : Nat) : OpSpec :=
  { code := code, kind := .now, solo := true, data := true, units := actsOn 6, priv := 1, access := noAccess, okLen := fun _ => true,
    resv := noResv, range := noRange, check := noCheck, anvil := notAnvil, recs := fun _ _ => 0, maxData := fun b => b.length, run := answer (fun _ _ => []) }

/-- R548 and R540 for an AES operation that needs a usage bit. -/
def aesUse (usage : Nat) (b : Rec) (s : State) : Option (Status × Nat) :=
  let n := unitIx b
  if keyOk s n [1, 2] usage && (krDepth b = 0 || keyOk s n [1, 2] 4) then none else some (.key, n)

/-- Ranges of a KEY_REF (R547). -/
def keyRefRange (b : Rec) : List (Nat × Bool) :=
  [(22, decide (krDepth b ≤ 6)), (23, if krDepth b = 0 then krType b = 0 else krType b = 1 || krType b = 2)]

/-- KEY_MAC (R556): GEN returns the code, VER compares it; the count is taken either way (R545). -/
def keyMacSpec : OpSpec :=
  { keyUseSpec 0x9002 with
    okLen := fun b => decide (8 ≤ b.length) && b.length = krOff b + 20 + rd b (krOff b + 2) 2
    resv := fun b => [(6, 1, 0xF8), (krOff b + 1, 1, 0xFF)]
    range := fun r _ =>
      let o := krOff r.b
      firstBad (keyRefRange r.b ++ [(16 + o, decide (rd r.b o 1 ≤ 1)), (18 + o, decide (1 ≤ rd r.b (o + 2) 2 ∧ rd r.b (o + 2) 2 ≤ 3900)),
        (20 + o, rd r.b o 1 ≠ 0 || rd r.b (o + 4) 16 = 0)])
    check := fun r s => aesUse (if rd r.b (krOff r.b) 1 = 0 then 2 else 3) r.b s
    run := fun r s =>
      let o := krOff r.b
      let m := cmac (derivedKey (s.key (unitIx r.b)).rec_ r.b) (r.b.drop (o + 20))
      let ver := rd r.b o 1 = 1
      { st := takeUse (unitIx r.b) s, status := if ver && sub r.b (o + 4) 16 ≠ m then .verify else .ok, detail := 0, data := if ver then [] else m } }

/-- KEY_CIPHER (R556): AES in counter mode; ENC and DEC differ in the usage they need. -/
def keyCipherSpec : OpSpec :=
  { keyMacSpec with
    code := 0x9003
    range := fun r _ =>
      let o := krOff r.b
      firstBad (keyRefRange r.b ++ [(16 + o, decide (rd r.b o 1 ≤ 1)), (18 + o, decide (1 ≤ rd r.b (o + 2) 2 ∧ rd r.b (o + 2) 2 ≤ 3900))])
    check := fun r s => aesUse (if rd r.b (krOff r.b) 1 = 0 then 0 else 1) r.b s
    run := fun r s =>
      let o := krOff r.b
      { st := takeUse (unitIx r.b) s, status := .ok, detail := 0,
        data := aesCtr (derivedKey (s.key (unitIx r.b)).rec_ r.b) (sub r.b (o + 4) 16) (r.b.drop (o + 20)) } }

/-- KEY_SIGN (R556): SIGN by a private key with a fresh per-signature value, VERIFY by a public key. -/
def keySignSpec : OpSpec :=
  { keyUseSpec 0x9004 with
    okLen := lenIs 108, resv := fun _ => [(6, 1, 0xF8), (9, 3, 0xFFFFFF)]
    range := fun r _ => firstBad [(22, krDepth r.b = 0), (23, krType r.b = 0), (24, decide (rd r.b 8 1 ≤ 1)), (60, rd r.b 8 1 ≠ 0 || rd r.b 44 64 = 0)]
    check := fun r s => if keyOk s (unitIx r.b) [if rd r.b 8 1 = 0 then 3 else 4] 5 then none else some (.key, unitIx r.b)
    run := fun r s =>
      let c := (s.key (unitIx r.b)).rec_
      let s' := takeUse (unitIx r.b) s
      if rd r.b 8 1 = 0 then
        { st := useFree s', status := .ok, detail := 0, data := ecdsaSign (beNat (kyMat c)) s.randScalar (sub r.b 12 32) }
      else
        let ok := match kyPoint c with | none => false | some q => ecdsaVerify q (sub r.b 12 32) (sub r.b 44 64)
        { st := s', status := if ok then .ok else .verify, detail := 0, data := [] } }

/-- KEY_ECDH (R556): the x-coordinate of d times PEER. -/
def keyEcdhSpec : OpSpec :=
  { keyUseSpec 0x9005 with
    okLen := lenIs 72, resv := fun _ => [(6, 1, 0xF8)]
    range := fun r _ => firstBad [(22, krDepth r.b = 0), (23, krType r.b = 0), (24, onCurve (beNat (sub r.b 8 32), beNat (sub r.b 40 32)))]
    check := fun r s => if keyOk s (unitIx r.b) [3] 6 then none else some (.key, unitIx r.b)
    run := fun r s =>
      let z := ecMul 256 (beNat (kyMat (s.key (unitIx r.b)).rec_)) (some (beNat (sub r.b 8 32), beNat (sub r.b 40 32)))
      { st := takeUse (unitIx r.b) s, status := .ok, detail := 0, data := (pointOctets z).take 32 } }

/-- The attestation message (R552). -/
def attestMessage (s : State) (slot : Nat) (challenge : Rec) : Rec :=
  ascii "ATST" ++ challenge ++ le 8 Config.uid.toNat ++ [if Config.variantK then 0x4B else 0x53, BitVec.ofNat 8 s.upd.active, BitVec.ofNat 8 slot, 0]
    ++ le 4 s.fwVer ++ le 4 ((s.sched.img.map imgSchedId).getD 0) ++ [1, 2, 3, 4, 5, 6].flatMap s.measure ++ le 4 s.fn.toNat

def keyAttestSpec : OpSpec :=
  { readSpec 0x9007 6 22 []
      (fun r s => if keyOk s (unitIx r.b) [1] 7 then none else some (.key, unitIx r.b)) 252 (fun r s =>
      let m := attestMessage s (unitIx r.b) (sub r.b 6 16)
      m ++ cmac (kyMat (s.key (unitIx r.b)).rec_) m) with kind := .live }

/-- A Hearth start (R538, R544): slots held only until a reset are lost; `bad` are the slots whose check value fails on a TZ6418-S. -/
def keysStart (s : State) : State :=
  { s with keys := s.keys.foldl (fun t e => if kyLife e.2.rec_ = 2 then tput keyDef t e.1 { KeySlot.initial e.1 with lost := true } else t) s.keys }

end Sys2Proof.Machine
end

