-- ==== Sys2Proof/Machine/QueueCmds.lean ====
section
/-! DEFINITION. The queue opcodes (03_queue_fabric R108 to R143) and the audit. -/

namespace Sys2Proof.Machine

/-- The fixed assignment of a queue by its chapter (R117, R448, R451, R480, R518, R570): MODE, MAX_CELLS, engine producer, engine consumer. -/
def fixedQueue (q : Nat) : Option (Nat × Nat × Option Nat × Option Nat) :=
  if q < 256 then none
  else if q < 1280 then
    let p := (q - 256) / 128
    if (q - 256) % 128 < 64 then some (2, 2, some (0x30C0 + p), none) else some (2, 2, none, some (0x30C8 + p))
  else if q < 1472 then
    let n := (q - 1280) / 16
    if (q - 1280) % 16 < 8 then some (1, 1, some (0x30D0 + n), none) else some (1, 1, none, some (0x30D0 + n))
  else if q = 1472 then some (1, 1, some 0x30F0, none)
  else if q = 1536 then some (1, 1, some 0x30E8, none)
  else none

/-- Queues that are always owned by context 0 (R114). -/
def reservedQueue (q : Nat) : Bool := q < 256 || (1473 ≤ q && q ≤ 1535) || (1537 ≤ q && q ≤ 2047)

/-- The greatest value a field takes in the CTX_CFG in force and in the one that takes force when a reset of the context is done (R106, R118). -/
def ctxMost (f : Ctx → Nat) (x : Ctx) : Nat :=
  match x.reset with
  | some { cfg := some b, .. } => max (f x) (f { x with cfg := b })
  | _ => f x

/-- The sum of LIMIT over enabled queues with one record put in (R118). -/
def limitSum (s : State) (q : Nat) (lim : Nat) : Nat :=
  let others := (s.qf.queues.filter (fun e => decide (48 ≤ e.1) && decide (e.1 ≠ q))).map (fun e => qLimit e.2.cfg)
  let fixed := s.ctxs.map (fun e => ctxMost ctxInLimit e.2 + ctxMost ctxNtfLimit e.2 + ctxMost (fun x => if ctxEnabled x then 256 else 0) e.2)
  others.sum + fixed.sum + lim

/-- An endpoint is well formed for a queue whose owner is `o`: KIND, a host context that is the owner, a task port bound nowhere else (R117, R430). Which engines an
endpoint may name is the owning chapter's (R117). -/
def endpointOk (s : State) (q o e : Nat) : Bool :=
  match epKind e with
  | 0 => epIndex e = 0
  | 1 => epIndex e = o && o ≠ 0
  | 2 => decide (epIndex e < 512) && !(s.qf.queues.any (fun x => x.1 ≠ q && (qProducer x.2.cfg = e || qConsumer x.2.cfg = e)))
  | 3 => true
  | _ => false

/-- The lighting transmit queue of a CAN port that takes part (R392). -/
def lightQueue (s : State) (q : Nat) : Bool :=
  (List.range 8).any (fun p => q = 383 + 128 * p && bit (rd s.com.lightCfg 8 1) p)

/-- Ranges of a Q_CFG at payload offset 8 (R116, R117, R118, R683). -/
def qConfigRange (s : State) (b : Rec) : Option Nat :=
  let q := unitIx b
  let c := sub b 8 16
  let m := qMode c
  let o := s.owner 3 q
  if rd c 0 2 ≠ q then some 24
  else if m = 3 then some 26
  else if m = 0 then
    firstBad [(28, qProducer c = 0), (30, qConsumer c = 0), (32, qLimit c = 0), (34, qWatermark c = 0), (36, qCut c = 0), (37, qMaxCells c = 0)]
  else
    let fx := fixedQueue q
    let fixMode := match fx with | some (fm, _, _, _) => fm = m | none => true
    let fixMax := match fx with | some (_, fc, _, _) => fc = qMaxCells c | none => true
    let fixP := match fx with
      | some (_, _, some e, _) => qProducer c = e
      | some (_, _, none, _) => epKind (qProducer c) ≠ 3 || (lightQueue s q && qProducer c = 0x30E5)
      | none => true
    let fixC := match fx with
      | some (_, _, _, some e) => qConsumer c = e
      | some (_, _, _, none) => epKind (qConsumer c) ≠ 3
      | none => true
    firstBad [(26, fixMode), (28, endpointOk s q o (qProducer c) && fixP),
      (28, !(lightQueue s q) || qProducer c = 0x30E5),
      (30, endpointOk s q o (qConsumer c) && fixC && !(epKind (qProducer c) = 1 && epKind (qConsumer c) = 1)),
      (32, decide ((if m = 1 then 2 else 3) ≤ qLimit c) && decide (qLimit c ≤ 4096) && decide (limitSum s q (qLimit c) ≤ 65536)),
      (34, decide (qWatermark c ≤ qLimit c)),
      (37, (if m = 1 then qMaxCells c = 1 else decide (1 ≤ qMaxCells c)) && fixMax)]

/-- Whether a Q_CFG changes more than WATERMARK or CUT (R119). -/
def qStructural (a b : Rec) : Bool :=
  qMode a ≠ qMode b || qLimit a ≠ qLimit b || qProducer a ≠ qProducer b || qConsumer a ≠ qConsumer b || qMaxCells a ≠ qMaxCells b

/-- Q_CONFIG (R119): refused with STATE while a structural change would meet cells; a change of MODE or an endpoint reassigns. DESIGN CHOICE: a WATERMARK set at or
below the occupancy of the moment counts as the occupancy rising to it (R135 speaks of a rise only), so QUEUE_WATERMARK is sent at once (log 26). -/
def qConfigSpec : OpSpec :=
  { code := 0x1000, kind := .commit, solo := true, data := true, units := actsOn 3, priv := 1, access := noAccess, okLen := lenIs 24,
    resv := fun _ => [(6, 2, 0xFFFF), (8, 2, 0xE000), (10, 1, 0xFC), (11, 1, 0xFF), (22, 2, 0xFFFF)],
    range := fun r s => qConfigRange s r.b,
    check := fun r s =>
      let x := s.queue (unitIx r.b)
      if qStructural x.cfg (sub r.b 8 16) && (qOcc x ≠ 0 || x.inFlight ≠ 0 || x.partialOct.isSome) then some (.state, 0)
      else if 65536 < limitSum s (unitIx r.b) (qLimit (sub r.b 8 16)) then some (.range, 32) else none,
    anvil := notAnvil, recs := fun _ _ => 0, maxData := fun _ => 2,
    run := fun r s =>
      let q := unitIx r.b
      let new := sub r.b 8 16
      let old := (s.queue q).cfg
      let enabling := qMode old = 0 && qMode new ≠ 0
      let s := onQueue q (fun x =>
        if enabling then { Queue.initial with cfg := new } else { x with cfg := new, wm := x.wm && decide (qWatermark new ≤ qOcc x) }) s
      let s := if qMode old ≠ qMode new || qProducer old ≠ qProducer new || qConsumer old ≠ qConsumer new then reassign 3 q s else s
      { st := qNotices q (s.queue q).gapOpen s, status := .ok, detail := 0, data := genOct s 3 q } }

/-- R142 and R143 for an opcode that needs one host endpoint. The owner is checked first by R93. -/
def queueAccess (producer : Bool) (r : Req) (s : State) : Option (Status × Nat) :=
  let q := unitIx r.b
  let c := s.qcfg q
  if qMode c = 0 then some (.state, 0)
  else if (if producer then qProducer c else qConsumer c) ≠ 4096 + r.h.ctx then some (.denied, s.owner 3 q)
  else none

def queueSpec (code len : Nat) (producer solo : Bool) : OpSpec :=
  { code := code, kind := .now, solo := solo, data := true, units := actsOn 3, priv := 1, access := queueAccess producer, okLen := lenIs len,
    resv := noResv, range := noRange, check := noCheck, anvil := notAnvil, recs := fun _ _ => 0, maxData := fun _ => 8,
    run := answer (fun _ _ => []) }

/-- Q_PUSH (R121, R122, R141): one entry admitted, or dropped and counted. -/
def qPushSpec : OpSpec :=
  { queueSpec 0x1001 0 true false with
    okLen := fun b => decide (8 ≤ b.length) && b.length = 8 + rd b 6 2
    range := fun r s =>
      let c := s.qcfg (unitIx r.b)
      let n := rd r.b 6 2
      firstBad [(22, decide (1 ≤ n ∧ n ≤ 4068) && decide (n ≤ 48 * (if qMode c = 1 then 1 else qMaxCells c)))]
    run := fun r s =>
      let x := admitCells (unitIx r.b) (r.b.drop 8) s
      { st := x.1, status := .ok, detail := 0,
        data := le 4 x.2.1 ++ [BitVec.ofNat 8 (cellsOf (rd r.b 6 2)), BitVec.ofNat 8 (b2n x.2.2), 0, 0] } }

/-- A cell as Q_READ returns it (R109): tag, then the data octets. -/
def cellOctets (c : Cell) : Rec :=
  [BitVec.ofNat 8 (c.kind + 8 * b2n c.first + 16 * b2n c.last), BitVec.ofNat 8 c.fill] ++ le 2 c.admFn.toNat ++ sub c.data 0 48

/-- Cells a consumer may read now: visible and not yet read (R127, R128). -/
def qReadable (q : Queue) (cut : Nat) : Nat := qVisible q cut - (q.read - q.rel).toNat

def qReadSpec : OpSpec :=
  { queueSpec 0x1002 8 false true with
    resv := fun _ => [(7, 1, 0xFF)], maxData := fun b => 8 + 52 * rd b 6 1
    range := fun r _ => firstBad [(22, decide (1 ≤ rd r.b 6 1 ∧ rd r.b 6 1 ≤ 78))]
    run := fun r s =>
      let qn := unitIx r.b
      let q := s.queue qn
      let n0 := (q.read - q.rel).toNat
      let k := min (rd r.b 6 1) (qReadable q (qCut (s.qcfg qn)))
      let inc := q.partialOct.isSome && n0 + k = q.cells.length
      { st := onQueue qn (fun q => { q with read := q.read + BitVec.ofNat 32 k }) s, status := .ok, detail := 0,
        data := le 4 q.read.toNat ++ [BitVec.ofNat 8 k, BitVec.ofNat 8 (b2n inc + 2 * b2n q.markSet), 0, 0]
          ++ ((q.cells.drop n0).take k).flatMap cellOctets } }

/-- Q_MARK (R131): ACTION 00h saves READ, 01h clears the mark. -/
def qMarkSpec : OpSpec :=
  { queueSpec 0x1003 8 false true with
    resv := fun _ => [(7, 1, 0xFF)]
    range := fun r _ => firstBad [(22, decide (rd r.b 6 1 ≤ 1))]
    run := fun r s =>
      let qn := unitIx r.b
      let set := rd r.b 6 1 = 0
      { st := onQueue qn (fun q => if set then { q with mark := q.read, markSet := true } else { q with mark := 0, markSet := false }) s,
        status := .ok, detail := 0, data := le 4 (if set then (s.queue qn).read.toNat else 0) } }

/-- Q_REWIND (R131): READ returns to MARK; refused with STATE where no mark is set. -/
def qRewindSpec : OpSpec :=
  { queueSpec 0x1004 8 false true with
    resv := fun _ => [(6, 2, 0xFFFF)]
    check := fun r s => if (s.queue (unitIx r.b)).markSet then none else some (.state, 0)
    run := fun r s =>
      let qn := unitIx r.b
      { st := onQueue qn (fun q => { q with read := q.mark }) s, status := .ok, detail := 0, data := le 4 (s.queue qn).mark.toNat } }

/-- Cells from REL up to the limit of a release (R132). -/
def qLimitCells (q : Queue) : Nat := (if q.markSet then q.mark - q.rel else q.read - q.rel).toNat

/-- Q_RELEASE (R132): cells from REL to p are freed where p is an entry boundary within READ and the mark. -/
def qReleaseSpec : OpSpec :=
  { queueSpec 0x1005 12 false true with
    resv := fun _ => [(10, 1, 0xFE), (11, 1, 0xFF)]
    check := fun r s =>
      let q := s.queue (unitIx r.b)
      let d := (BitVec.ofNat 32 (rd r.b 6 4) - q.rel).toNat
      if bit (rd r.b 10 1) 0 then none
      else if decide (0 < d) && decide (d ≤ (q.read - q.rel).toNat) && decide (d ≤ qLimitCells q) && qIsBoundary q d then none
      else some (.range, 22)
    run := fun r s =>
      let qn := unitIx r.b
      let q := s.queue qn
      let n := if bit (rd r.b 10 1) 0 then qBoundary q (qLimitCells q) else (BitVec.ofNat 32 (rd r.b 6 4) - q.rel).toNat
      { st := onQueue qn (qRelease n (qWatermark (s.qcfg qn))) s, status := .ok, detail := 0,
        data := le 4 (q.rel + BitVec.ofNat 32 n).toNat ++ le 2 n ++ zeros 2 } }

/-- Positions of a queue as Q_STATUS reports them; input and reply queues count their cells in the context (R113, R114). -/
def qPositions (s : State) (q : Nat) : Nat × Nat × Nat × Nat :=
  if q < 16 then let x := s.cx q; (x.inPut, x.inRel, x.inRel, ctxUsed x)
  else if q < 32 then let x := s.cx (q - 16); (x.rpPut, x.rpRel, x.rpRel, ctxReplyUsed x)
  else let x := s.queue q; (x.put.toNat, x.read.toNat, x.rel.toNat, qOcc x)

def qStatusSpec : OpSpec :=
  { readSpec 0x1006 3 6 [] noCheck 52 (fun r s =>
      let qn := unitIx r.b
      let q := s.queue qn
      let p := qPositions s qn
      s.qcfg qn ++ genOct s 3 qn ++ [BitVec.ofNat 8 (s.owner 3 qn),
        BitVec.ofNat 8 (b2n q.markSet + 2 * b2n q.gapOpen + 4 * b2n q.partialOct.isSome + 8 * b2n q.wm)]
        ++ le 4 p.1 ++ le 4 p.2.1 ++ le 4 (if q.markSet then q.mark.toNat else 0) ++ le 4 p.2.2.1 ++ le 2 p.2.2.2 ++ le 2 q.inFlight
        ++ le 6 q.dropTotal.toNat ++ zeros 2 ++ le 4 q.abortTotal.toNat) with kind := .live }

/-- Q_AUDIT: the counters as they stand at its execution (R140, R686), the frame of the last sample of R137. -/
def qAuditSpec : OpSpec :=
  { readSpec 0x1007 0 0 [] noCheck 28 (fun _ s =>
      le 4 s.qf.auditFn.toNat ++ le 4 s.cellsFree ++ le 4 s.cellsQueued ++ le 4 s.cellsFlight ++ le 4 s.cellsLimbo
        ++ le 4 s.qf.mismatches.toNat ++ le 4 s.qf.walkFn.toNat) with kind := .live }

/-- The chain of a queue has the length its positions count (R137). -/
def queueChainOk (q : Queue) : Bool := q.cells.length = (q.put - q.rel).toNat

/-- The audit sample at tick 0 of a frame (R137): the four counters, and the chains of 64 queues walked. The answer says whether the sum or a chain is wrong. -/
def qfAudit (s : State) : State × Bool :=
  let qd := s.cellsQueued
  let fl := s.cellsFlight
  let lb := s.cellsLimbo
  let free := s.cellsFree
  let chain := s.qf.queues.all (fun e => decide (e.1 < s.qf.walkNext) || decide (s.qf.walkNext + 64 ≤ e.1) || queueChainOk e.2)
  let bad := decide (free + qd + fl + lb + s.qf.corrupt ≠ 65536) || !chain
  let nx := s.qf.walkNext + 64
  (onQf (fun x => { x with auditFn := s.fn, auditFree := free, auditQueued := qd, auditFlight := fl, auditLimbo := lb,
                           mismatches := if bad then x.mismatches + 1 else x.mismatches,
                           walkNext := if nx ≥ 8192 then 0 else nx, walkFn := if nx ≥ 8192 then s.fn else x.walkFn }) s, bad)

/-- A gateway binding ends (R494, R496). -/
def gwUnbind (q : Nat) (s : State) : State := onBus (fun x => { x with gw := tput (fun _ => Gw.initial) x.gw q Gw.initial }) s

/-- A queue passes to another owner (R120): its host endpoint follows, READ returns to REL, the mark is cleared. -/
def handQueue (q o : Nat) (s : State) : State :=
  let s := if epKind (qConsumer (s.queue q).cfg) = 1 then gwUnbind q s else s
  let follow (c : Rec) : Rec :=
    let c := if epKind (qProducer c) = 1 then putAt c 4 (le 2 (4096 + o)) else c
    if epKind (qConsumer c) = 1 then putAt c 6 (le 2 (4096 + o)) else c
  giveUnit 3 q o (onQueue q (fun x => { x with cfg := follow x.cfg, read := x.rel, mark := 0, markSet := false }) s)

end Sys2Proof.Machine
end

