-- ==== Sys2Proof/Machine/Lin.lean ====
section
/-! DEFINITION. LIN ports and the CAN gateway bindings (14_lin_and_ethernet R471 to R485, R494 to R498). -/

namespace Sys2Proof.Machine

/-! ### States (R472, R485) -/

/-- Link loss and return, and a Quench reaction with its end (R485). DEDUCED (log 38): a port that is OFF or asleep keeps its state, since it drives nothing and R48 keeps the wake
detection of R484 going. -/
def linSuspend (lost : Bool) (s : State) : State :=
  (List.range 12).foldl (fun s n =>
    let s := onLin n (fun k => { k with suspended := lost }) s
    let k := s.lin n
    if lost then (if k.st = 1 || k.st = 3 then linState n 3 (linAbandon n s) else s) else if k.st = 3 then linEnter n s else s) s

/-! ### Wakes and actions (R472, R483, R484) -/

/-- A wake of a port (R484): recorded; the port is ACTIVE and sends no header for 100 ms. While Hearth is off the notification waits for it. DEDUCED (log 38): LIN_WAKE, whose TYPE
names it, is sent for a wake by LIN_CONTROL too. -/
def linWake (n typ : Nat) (s : State) : State :=
  let s := onLin n (fun k => { k with wakeType := typ, wakePt := s.parkTime }) s
  let s := if typ = 4 then s else deviceWake 2 n typ 0 (pwLin s.pwr.cfg n) s
  if s.hearthUp then
    let s := linState n (if (s.lin n).suspended || (s.lin n).held then 3 else 1) (onLin n (fun k => { k with mute := some (s.tbNow + msTicks 100) }) s)
    notify (s.owner 4 (8 + n)) 0x7802 ([BitVec.ofNat 8 n, BitVec.ofNat 8 typ] ++ le 6 (s.lin n).wakePt) s
  else onLin n (fun k => { k with woken := true }) s

/-- An action at tick 0 of its effect frame: it gives the port its commanded state (R472). SLEEP acts through the next header of 3Ch (R483), on a port already asleep not again; a frame
in progress completes before it (R485). DEDUCED (log 38): STOP, which turns the transceiver off, abandons a frame in progress; WAKE, which R484 gives no condition, makes a port that
was not asleep ACTIVE too. -/
def linAct (n a : Nat) (s : State) : State :=
  match a with
  | 0 => linEnter n (onLin n (fun k => { k with cmd := 1, goSleep := false }) s)
  | 1 => linState n 0 (linAbandon n (onLin n (fun k => { k with cmd := 0, goSleep := false }) s))
  | 2 => onLin n (fun k => { k with cmd := 2, goSleep := decide (k.st ≠ 2) }) s
  | _ => linWake n 4 (onLin n (fun k => { k with cmd := 1, goSleep := false }) s)

/-- The state a port will have at tick 0 of the next frame, its waiting actions done. -/
def linNext (s : State) (n : Nat) : Nat := ((s.lin n).ctl.foldl (fun s a => linAct n a s) s |>.lin n).st

/-! ### LIN_CONFIG (R473 to R477) -/

/-- A frame of `len` octets fits `frames` reserved frames by T_MAX (R475, R477). -/
def linFits (c : Rec) (len frames : Nat) : Bool := decide (1400 * (mfBreak c + 21 + 10 * (len + 1)) ≤ frames * mfBitrate c)

/-- A frame table entry is within its ranges (R474, R475). -/
def linEntryOk (s : State) (n : Nat) (c t : Rec) (f : Nat) : Bool :=
  decide (mtDir t f ≤ 2) && !(decide (0x3C ≤ f) && mtChk t f) && decide (mtLen t f ≤ 8) && (mtDir t f = 0 || decide (1 ≤ mtLen t f)) && decide (mtSource t f ≤ 2)
    && !(mtDir t f = 2 && mtSource t f ≠ 0) && !(mtSource t f = 2 && (f ≠ gfLinPid s.com.lightCfg || mtLen t f ≠ 4))
    && (match s.sched.img with
        | none => true
        | some i => (List.range (imgModes i)).all (fun m => (linEnts (some i) m).all (fun e => !(e.port = n && e.pid = f) || linFits c (mtLen t f) e.frames)))

/-- The RANGE DETAIL of a LIN_CONFIG: the identifier of the first failing table entry, or FFFFh (R475). -/
def linConfigRange (s : State) (b : Rec) : Option Nat :=
  let n := unitIx b - 8
  let c := sub b 8 16
  let t := sub b 24 248
  if !(portIn 8 20 b).2 then some (portIn 8 20 b).1
  else if rd c 0 1 ≠ n || mfBitrate c < 1000 || 20000 < mfBitrate c || mfBreak c < 13 || 26 < mfBreak c then some 0xFFFF
  else (List.range 62).find? (fun f => !(linEntryOk s n c t f))

def linConfigSpec : OpSpec :=
  { code := 0x7800, kind := .commit, solo := true, data := true, units := actsOn 4, priv := 1, access := canPriv,
    okLen := lenIs 272,
    resv := fun _ => [(6, 2, 0xFFFF), (8, 1, 0xF0), (11, 1, 0xE0), (12, 1, 0xF8), (13, 11, 2 ^ 88 - 1)]
      ++ (List.range 62).flatMap (fun f => [(24 + 4 * f, 1, 0xF0), (25 + 4 * f, 1, 0xC0), (26 + 4 * f, 1, 0xC0), (27 + 4 * f, 1, 0xFF)]),
    range := fun r s => linConfigRange s r.b,
    check := fun r s => if linNext s (unitIx r.b - 8) ≠ 0 then some (.state, 0x12) else none
    anvil := toAnvil, recs := fun _ _ => 16, maxData := fun _ => 2,
    run := fun r s =>
      let n := unitIx r.b - 8
      let k := s.lin n
      let s := if k.cfg = sub r.b 8 16 && k.table = sub r.b 24 248 then s else reassign 4 (8 + n) s
      let s := onLin n (fun k => { k with cfg := sub r.b 8 16, table := sub r.b 24 248 }) s
      { st := s, status := .ok, detail := 0, data := genOct s 4 (8 + n) },
    fin := finGen 4 }

/-! ### LIN_SET (R479, R498) -/

def linSetSpec : OpSpec :=
  { code := 0x7801, kind := .commit, solo := false, data := true, units := actsOn 4, priv := 1, access := noAccess, okLen := lenIs 16, resv := noResv,
    range := fun r s =>
      let k := s.lin (unitIx r.b - 8)
      let f := rd r.b 6 1
      let len := rd r.b 7 1
      firstBad [portIn 8 20 r.b, (22, decide (f < 62) && mtDir k.table f = 1 && mtSource k.table f = 0), (23, len = mtLen k.table f),
        (24 + len, decide (8 < len) || rd r.b (8 + len) (8 - len) = 0)],
    check := fun r s => if (linEnt s.sched.img s.com.mode (unitIx r.b - 8) (rd r.b 6 1)).isSome then none else some (.schedule, noEntry s 4)
    anvil := toAnvil, recs := fun _ _ => 0, maxData := fun _ => 6,
    run := fun r s =>
      let n := unitIx r.b - 8
      let f := rd r.b 6 1
      let a := match linEnt s.sched.img s.com.mode n f with | some e => nextStart e.cycle e.offset r.eff | none => r.eff
      let l := lateStatus r a
      let s := onLin n (fun k => { k with valsNext := tput (fun _ => []) k.valsNext f (sub r.b 8 (rd r.b 7 1)) }) s
      { st := s, status := l.1, detail := l.2, data := genOct s 4 (8 + n) ++ le 4 a.toNat },
    fin := finGen 4 }

/-! ### LIN_CONTROL (R472, R483) -/

def linControlSpec : OpSpec :=
  { code := 0x7802, kind := .commit, solo := false, data := true, units := actsOn 4, priv := 1, access := noAccess, okLen := lenIs 8,
    resv := fun _ => [(7, 1, 0xFF)], range := fun r _ => firstBad [portIn 8 20 r.b, (22, decide (rd r.b 6 1 ≤ 3))],
    check := fun r s =>
      let n := unitIx r.b - 8
      let a := rd r.b 6 1
      if a ≠ 1 && mfBitrate (s.lin n).cfg = 0 then some (.state, 0x13)
      else if a = 2 && (linEnt s.sched.img s.com.mode n 0x3C).isNone then some (.schedule, noEntry s 4) else none
    anvil := toAnvil, recs := fun _ _ => 0, maxData := fun _ => 4,
    run := fun r s =>
      let n := unitIx r.b - 8
      let s := onLin n (fun k => { k with ctl := k.ctl ++ [rd r.b 6 1] }) s
      { st := s, status := .ok, detail := 0, data := genOct s 4 (8 + n) ++ [BitVec.ofNat 8 (linNext s n), 0] },
    fin := fun r s _ => genOct s 4 (unitIx r.b) ++ [BitVec.ofNat 8 (linNext s (unitIx r.b - 8)), 0] }

def linStatusSpec : OpSpec :=
  { readSpec 0x7803 4 6 [] noCheck 56 (fun r s =>
      let n := unitIx r.b - 8
      let k := s.lin n
      genOct s 4 (8 + n) ++ [BitVec.ofNat 8 (s.owner 4 (8 + n)), BitVec.ofNat 8 k.st] ++ k.results.flatMap (fun x => le 4 x.toNat) ++ le 4 k.txReject.toNat
        ++ [BitVec.ofNat 8 k.wakeType, 0] ++ le 6 k.wakePt ++ k.cfg) with
    range := fun r _ => firstBad [portIn 8 20 r.b] }

/-! ### Frames (R476 to R483) -/

/-- The protected identifier (ISO 17987). -/
def linPid (f : Nat) : Nat :=
  let b (i : Nat) : Bool := bit f i
  f + 64 * b2n (((b 0 != b 1) != b 2) != b 4) + 128 * b2n (!(((b 1 != b 3) != b 4) != b 5))

/-- The octets that a frame of `len` carries when it ends with `res` after `data` octets (R481): a frame sent whole, or received whole, carries all. -/
def linOctets (f : LinFrame) (len res : Nat) (data : Rec) : Rec :=
  match f.data with
  | some d => if res = 5 || res = 4 then d.take data.length else d
  | none => data.take len

/-- RESULT `res` after `data` octets can be the end of frame `f` (R481): only a response to be received can be absent or incomplete, and a whole one has LEN octets. -/
def linEndOk (f : LinFrame) (len res : Nat) (data : Rec) : Bool :=
  decide (res ≤ 5) && (if f.data.isSome then !(res = 1 || res = 2)
    else if res = 0 || res = 3 then data.length = len else if res = 1 then data.isEmpty else decide (data.length ≤ len))

/-- A frame in progress ends with RESULT `res` after `data` octets (R481, R483). One that a context reset has taken puts its result on the limbo list instead of its queue (R139). -/
def linFinish (n res : Nat) (data : Rec) (f : LinFrame) (s : State) : State :=
  let k := s.lin n
  let d := linOctets f (mtLen k.table f.id) res data
  let q := 1280 + 16 * n + mtRxq k.table f.id
  let report := mtReport k.table f.id || (f.data.isNone && res = 0)
  let s := onLin n (fun k => { k with busy := none, results := k.results.modify res (· + 1), goSleep := k.goSleep && !f.goSleep }) s
  let s := if report && f.limbo.isNone then
      admitEntry q ([BitVec.ofNat 8 (linPid f.id), BitVec.ofNat 8 d.length, BitVec.ofNat 8 res, 0] ++ le 4 f.fn.toNat ++ sub d 0 8) s
    else s
  let s := linCellDone n f (b2n report) s
  let s := match f.ext with | some (c, i) => extDone c i (if res = 0 then 1 else 2) s | none => s
  let s := if res = 1 || res = 2 then raise 0x120 n s else if res = 3 || res = 4 then raise 0x121 n s else if res = 5 then raise 0x122 n s else s
  if f.goSleep then linState n 2 s else s

/-- A frame in progress whose reserved frames are over, `slack` frames beyond them, is judged by the error table (R477): nothing received is NO_RESPONSE, a response sent is OK. -/
def linOver (slack n : Nat) (s : State) : State :=
  match (s.lin n).busy with
  | none => s
  | some f => if f.frames + slack ≤ (s.fn - f.fn).toNat then linFinish n (if f.data.isSome then 0 else 1) [] f s else s

/-- Tick 0 of a frame: what an earlier frame's reservation left ends, committed values and actions take force. -/
def linFrameStart (s : State) : State :=
  (List.range 12).foldl (fun s n =>
    let s := linOver 1 n s
    let s := (s.lin n).ctl.foldl (fun s a => linAct n a s) s
    onLin n (fun k => { k with ctl := [], vals := k.valsNext.foldl (fun t e => tput (fun _ => []) t e.1 e.2) k.vals, valsNext := [] }) s) s

/-- The go-to-sleep command (R483). -/
def goSleepData : Rec := 0 :: List.replicate 7 0xFF

/-- The committed value of a SOURCE VALUE frame, LEN octets of FFh where none has been committed (R479). DESIGN CHOICE (log 38): a value committed under another LEN counts as none. -/
def linValue (k : LinPort) (f : Nat) : Rec :=
  let v := tget (fun _ => []) k.vals f
  if v.length = mtLen k.table f then v else List.replicate (mtLen k.table f) 0xFF

/-- What the break edge of identifier `f` on port `n` takes (R479, R483): the state after, and the frame begun, if a header is sent. A queue entry is released as it is read, its cell
in flight until the frame ends (R133). -/
def linTake (n f : Nat) (e : LinEnt) (s : State) : State × Option LinFrame :=
  let k := s.lin n
  let t := k.table
  let mk (d : Option Rec) (x : Option (Nat × Nat)) (g q : Bool) : LinFrame :=
    { id := f, fn := s.fn, frames := e.frames, data := d, ext := x, goSleep := g, queued := q, limbo := none }
  if k.goSleep && f = 0x3C then (s, some (mk (some goSleepData) none true false))
  else if mtDir t f = 0 then (s, none)
  else if mtDir t f = 2 then (s, some (mk none none false false))
  else if mtSource t f = 2 then (match syncData s with | some d => (s, some (mk (some d) none false false)) | none => (s, none))
  else match k.ext.find? (fun x => x.1 = f) with
    | some (_, c, i, d) => (onLin n (fun k => { k with ext := k.ext.filter (fun x => x.1 ≠ f) }) s, some (mk (some d) (some (c, i)) false false))
    | none =>
      if mtSource t f = 1 then
        let q := 1288 + 16 * n + mtTxq t f
        match qHead (s.queue q) 0 with
        | none => (s, none)
        | some (m, some d) =>
          if rd d 0 1 = f && rd d 1 1 = mtLen t f then
            (onQueue q (fun x => { qRelease 1 (qWatermark (s.qcfg q)) x with read := x.rel + 1, inFlight := x.inFlight + 1 }) s, some (mk (some (sub d 2 (mtLen t f))) none false true))
          else (onLin n (fun k => { k with txReject := k.txReject + 1 })
                 (onQueue q (fun x => { qRelease m (qWatermark (s.qcfg q)) x with read := x.rel + BitVec.ofNat 32 m }) s), none)
        | some (m, none) => (onQueue q (fun x => { qRelease m (qWatermark (s.qcfg q)) x with read := x.rel + BitVec.ofNat 32 m }) s, none)
      else
        (s, some (mk (some (linValue k f)) none false false))

/-- LIN_HEADER_START: the break edge of the LIN entry of identifier `f` on port `n` in this frame (R476). A port that is not ACTIVE, still in its 100 ms after a
wake, or with a frame in progress sends none. -/
def execLinHeaderStart (n f : Nat) (s : State) : Host.Outcome State Fault Refusal :=
  match linEnt s.sched.img s.modeNow n f with
  | none => .next s
  | some e =>
    let due := startFrame e.cycle e.offset s.fn && decide (s.tick ≤ 200 * e.slot)
    if n ≥ 12 || !due then .next s
    else
      let s := linOver 0 n (atTick (200 * e.slot) s)
      let k := s.lin n
      let muted := match k.mute with | some t => !(isPast s.tbNow t) | none => false
      if k.st ≠ 1 || muted || k.busy.isSome then .next s
      else
        let r := linTake n f e s
        .next (onLin n (fun k => { k with busy := r.2, mute := none, dom := if r.2.isSome then false else k.dom }) r.1)

/-- LIN_FRAME_END: the frame in progress on port `n` ends with RESULT `res` and the octets sent or received (R481, R483). -/
def execLinFrameEnd (n res : Nat) (data : Rec) (s : State) : Host.Outcome State Fault Refusal :=
  match (s.lin n).busy with
  | none => .next s
  | some f => .next (if n < 12 && linEndOk f (mtLen (s.lin n).table f.id) res data then linFinish n res data f s else s)

/-- LIN_BUS_DOM: the bus has been dominant for 20 ms, once for the episode (R482). -/
def execLinBusDom (n : Nat) (s : State) : Host.Outcome State Fault Refusal :=
  if n < 12 && (s.lin n).st ≠ 0 && !(s.lin n).dom then .next (raise 0x123 n (onLin n (fun k => { k with dom := true }) s)) else .next s

/-- LIN_BUS_WAKE: a dominant phase of more than 150 us on a port asleep with WAKE_EN (R484), or in park (R473). -/
def execLinBusWake (n : Nat) (s : State) : Host.Outcome State Fault Refusal :=
  let k := s.lin n
  if n < 12 && mfWakeEn k.cfg && (k.st = 2 || (!s.hearthUp && k.cmd ≠ 0)) && !k.woken then .next (linWake n 1 s) else .next s

/-- A Hearth start (R485): ports asleep stay asleep unless they woke in park, others enter their commanded state. -/
def linStart (s : State) : State :=
  (List.range 12).foldl (fun s n =>
    let k := s.lin n
    let s := onLin n (fun k => { k with ext := [], goSleep := false, busy := none, ctl := [], results := List.replicate 6 0, txReject := 0, woken := false }) s
    if k.woken then
      let s := linState n (if k.suspended || k.held then 3 else 1) (onLin n (fun k => { k with mute := some (s.tbNow + msTicks 100) }) s)
      notify (s.owner 4 (8 + n)) 0x7802 ([BitVec.ofNat 8 n, BitVec.ofNat 8 k.wakeType] ++ le 6 k.wakePt) s
    else if k.st = 2 then s
    else linEnter n s) s

/-! ### Gateway bindings (R494, R496) -/

def gwDef : Nat → Gw := fun _ => Gw.initial
def State.gw (s : State) (q : Nat) : Gw := tget gwDef s.bus.gw q
def onGw (q : Nat) (f : Gw → Gw) (s : State) : State := onBus (fun x => { x with gw := tmod gwDef x.gw q f }) s

/-- A CAN receive queue (R448). -/
def isCanRxq (q : Nat) : Bool := decide (256 ≤ q) && decide (q < 1280) && decide ((q - 256) % 128 < 64)

def gwBindSpec : OpSpec :=
  { code := 0x7804, kind := .commit, solo := false, data := false, units := actsOn 3, priv := 1, access := queueAccess false, okLen := lenIs 8, resv := noResv,
    range := fun r _ => firstBad [(18, isCanRxq (unitIx r.b)), (22, decide (rd r.b 6 1 ≤ 1)), (23, decide (1 ≤ rd r.b 7 1 ∧ rd r.b 7 1 ≤ 78))],
    check := noCheck, anvil := notAnvil, recs := fun _ _ => 0, maxData := fun _ => 0,
    run := fun r s =>
      let q := unitIx r.b
      { st := if rd r.b 6 1 = 1 then onGw q (fun g => { enable := true, maxCells := rd r.b 7 1, forwarded := if g.enable then g.forwarded else 0 }) s
              else onGw q (fun g => { g with enable := false }) s,
        status := .ok, detail := 0, data := [] } }

def gwStatusSpec : OpSpec := readSpec 0x7C02 3 6 [] noCheck 8 (fun r s =>
    let g := s.gw (unitIx r.b)
    [BitVec.ofNat 8 (b2n g.enable), BitVec.ofNat 8 g.maxCells, 0, 0] ++ le 4 g.forwarded.toNat)

end Sys2Proof.Machine
end

