-- ==== Sys2Proof/Machine/SchedCheck.lean ====
section
/-! DEFINITION. The load-time checks of a schedule image (R177 to R188, R642, R684). -/

namespace Sys2Proof.Machine

/-- What a check finds (R203): the check, the mode (255 image-wide), the entry (65535 none), the slot and the zone (255 none), value and limit. -/
structure CheckFail where
  check : Nat
  mode : Nat
  entry : Nat
  slot : Nat
  zone : Nat
  value : Nat
  limit : Nat
deriving DecidableEq, Repr

def CheckFail.at (c m e : Nat) : CheckFail := { check := c, mode := m, entry := e, slot := 255, zone := 255, value := 0, limit := 0 }

/-- The quantity a condition bounds and its bound, which it has passed. -/
def CheckFail.over (f : CheckFail) (v l : Nat) : CheckFail := { f with value := v, limit := l }

/-- What the checks take besides the image: the channel and sink records, the firmware version, the bank that holds CORE_PROG, the public key by KEY_ID. -/
structure CheckEnv where
  img : Tab Octet
  com : Com
  fw : Nat
  bank : Tab Octet
  key : Nat → Option (Nat × Nat)

/-- The first failure among (holds, failure). -/
def firstFail : List (Bool × CheckFail) → Option CheckFail
  | [] => none
  | (ok, f) :: t => if ok then firstFail t else some f

/-- The first failure a function finds along a list. -/
def firstOf {α : Type} (f : α → Option CheckFail) : List α → Option CheckFail
  | [] => none
  | x :: t => match f x with | some e => some e | none => firstOf f t

def pow2le (n p : Nat) : Bool := ((List.range 11).any (fun k => p = 2 ^ k)) && decide (p ≤ n)

/-! ### Check 2: the format -/

/-- Entry size, least and greatest COUNT of a section type (R178). -/
def secShape (t : Nat) : Option (Nat × Nat × Nat) :=
  if t = 1 then some (16, 1, 1) else if t = 2 then some (8, 64, 64) else if t = 3 then some (64, 1, 1) else if t = 4 then some (4, 250, 250)
  else if t = 5 then some (8, 64, 64) else if t = 6 then some (8, 0, 100) else if t = 7 then some (12, 0, 4096) else if t = 8 then some (16, 0, 64)
  else if t = 9 then some (8, 0, 1024) else if t = 10 then some (8, 0, 256) else if t = 11 then some (12, 0, 32) else if t = 255 then some (72, 1, 1) else none
def imageWide (t : Nat) : Bool := [1, 2, 6, 255].contains t

def dirCount (i : Tab Octet) : Nat := ird i 6 2
/-- Directory entries: TYPE, MODE, COUNT, OFFSET, LENGTH. -/
def dirEnts (i : Tab Octet) : List (Nat × Nat × Nat × Nat × Nat) :=
  (List.range (min 68 (dirCount i))).map (fun k => let o := 64 + 12 * k; (ird i o 1, ird i (o + 1) 1, ird i (o + 2) 2, ird i (o + 4) 4, ird i (o + 8) 4))

def headerOk (i : Tab Octet) : Bool :=
  ird i 0 4 = 0x49535A54 && ird i 4 2 = 1 && decide (7 ≤ dirCount i ∧ dirCount i ≤ 68) && decide (ird i 8 4 ≤ 2 * 1048576)
    && decide (1 ≤ ird i 24 1 ∧ ird i 24 1 ≤ 8) && decide (ird i 25 1 < ird i 24 1) && ird i 26 2 = 0 && ird i 32 32 = 0

def dirOk (i : Tab Octet) : Bool :=
  let ds := dirEnts i
  let n := dirCount i
  let one (d : Nat × Nat × Nat × Nat × Nat) : Bool :=
    match secShape d.1 with
    | none => false
    | some (sz, lo, hi) =>
      (if imageWide d.1 then d.2.1 = 255 else decide (d.2.1 < imgModes i)) && decide (lo ≤ d.2.2.1 ∧ d.2.2.1 ≤ hi) && d.2.2.2.2 = sz * d.2.2.1
        && d.2.2.2.1 % 4 = 0 && decide (64 + 12 * n ≤ d.2.2.2.1) && decide (d.2.2.2.1 + d.2.2.2.2 ≤ ird i 8 4)
  let count (t m : Nat) : Nat := (ds.filter (fun d => d.1 = t && d.2.1 = m)).length
  let apart (a b : Nat × Nat × Nat × Nat × Nat) : Bool := decide (a.2.2.2.1 + a.2.2.2.2 ≤ b.2.2.2.1) || decide (b.2.2.2.1 + b.2.2.2.2 ≤ a.2.2.2.1)
  ds.all one && [1, 2, 6, 255].all (fun t => count t 255 = 1) && (List.range (imgModes i)).all (fun m =>
      [3, 4, 5].all (fun t => count t m = 1) && [7, 8, 9, 10, 11].all (fun t => decide (count t m ≤ 1)))
    && (List.range n).all (fun a => (List.range n).all (fun b => decide (b ≤ a) || apart (ds.getD a (0, 0, 0, 0, 0)) (ds.getD b (0, 0, 0, 0, 0))))
    && (match ds.getLast? with | some d => d.1 = 255 && d.2.2.2.1 + d.2.2.2.2 = ird i 8 4 | none => false)

/-- Input codes of an ADC entry (R642). -/
def sourceOk (c : Nat) : Bool :=
  decide (c ≤ 0xF) || decide (0x100 ≤ c ∧ c ≤ 0x17F) || decide (0x180 ≤ c ∧ c ≤ 0x187) || decide (0x200 ≤ c ∧ c ≤ 0x25F) || decide (0x300 ≤ c ∧ c ≤ 0x304)
    || decide (0x320 ≤ c ∧ c ≤ 0x321)

/-- The ranges and reserved fields of one entry of a section at offset `o`. -/
def entryOk (i : Tab Octet) (t o : Nat) : Bool :=
  let f (k n : Nat) : Nat := ird i (o + k) n
  let per (p h : Nat) : Bool := pow2le 64 p && decide (h < p)
  if t = 1 then [0, 1, 2, 3].all (fun z => decide (1 ≤ f z 1 ∧ f z 1 ≤ 80) && decide (f (8 + z) 1 ≤ 80)) && decide (f 4 2 ≤ 16000) && decide (f 6 1 ≤ 105)
    && f 7 1 = 0 && f 12 4 = 0
  else if t = 2 then (decide (f 0 1 ≤ 4) || f 0 1 = 7) && f 1 1 = 0 && decide (f 4 2 ≤ 2000)
  else if t = 3 then decide (f 12 4 ≤ 425000) && f 18 2 = 0 && f 50 14 = 0 && (List.range 15).all (fun c => decide (2 ≤ f (20 + 2 * c) 1) && decide (1 ≤ f (21 + 2 * c) 1))
  else if t = 4 then decide (f 0 1 ≤ 16) && decide (f 1 1 ≤ 4) && decide (f 2 1 ≤ 4) && decide (f 3 1 ≤ 1)
  else if t = 5 then decide (f 0 1 ≤ 3) && decide (f 1 1 ≤ 248) && per (f 2 1) (f 3 1) && f 4 2 = 0 && (decide (f 6 1 ≤ 31) || f 6 1 = 255) && f 7 1 = 0
    && (f 0 1 ≠ 0 || (f 1 1 = 0 && f 2 1 = 1))
  else if t = 6 then decide (1 ≤ f 0 1 ∧ f 0 1 ≤ 3) && (if f 0 1 = 3 then decide (64 ≤ f 1 1 ∧ f 1 1 ≤ 99) else decide (f 1 1 ≤ 63))
    && (if f 0 1 = 1 then decide (1 ≤ f 2 1 ∧ f 2 1 ≤ 10) else f 2 1 = 0) && f 3 1 = 0 && f 7 1 = 0
    && decide (f 4 3 < (if f 0 1 = 1 then 50000 * f 2 1 else if f 0 1 = 2 then 2500 else 41666))
  else if t = 7 then decide (f 0 1 ≤ 10) && sourceOk (f 1 2) && decide (1 ≤ f 6 1) && f 7 1 = 0 && (f 6 1 = 1 || decide (25 ≤ f 8 2)) && per (f 10 1) (f 11 1)
  else if t = 8 then decide (f 0 1 ≤ 63) && decide (f 1 1 ≤ 3) && decide (f 2 1 ≤ 199) && per (f 3 1) (f 4 1) && f 5 1 = 0 && decide (f 11 2 ≤ 4096)
    && decide (f 13 2 ≤ 4096) && f 15 1 = 0
  else if t = 9 then decide (f 0 1 ≤ 11) && decide (f 1 1 ≤ 63) && decide (f 2 1 ≤ 248) && decide (1 ≤ f 3 1 ∧ f 3 1 ≤ 20) && pow2le 1024 (f 4 2)
    && decide (f 6 2 < f 4 2)
  else if t = 10 then decide (f 0 1 ≤ 15) && decide (f 1 1 ≤ 11) && decide (f 2 1 ≤ 248) && decide (1 ≤ f 3 1) && decide (f 2 1 + f 3 1 ≤ 250) && decide (f 4 2 ≤ 1023)
    && decide (f 7 1 ≤ 63)
  else if t = 11 then decide (1 ≤ f 8 1 ∧ f 8 1 ≤ 64) && f 9 1 = 0
  else f 0 1 = 1 && f 1 3 = 0

/-- The groups of a mode: each channel and its group name each other. -/
def groupsOk (i : Tab Octet) (m : Nat) : Option CheckFail :=
  firstFail ((List.range 64).map (fun n =>
      let g := (chanEnt (some i) m n).group
      (g = 255 || (match simulEnt (some i) m g with | some (mem, _) => bit mem n | none => false), CheckFail.at 2 m n))
    ++ (List.range (entries i 11 m 12).length).map (fun g =>
      let mem := ((simulEnt (some i) m g).map (·.1)).getD 0
      ((List.range 64).all (fun n => !(bit mem n) || (chanEnt (some i) m n).group = g), CheckFail.at 2 m g)))

def check2 (e : CheckEnv) : Option CheckFail :=
  let i := e.img
  if !(headerOk i && dirOk i) then some (CheckFail.at 2 255 65535)
  else match firstOf (fun d : Nat × Nat × Nat × Nat × Nat =>
      match secShape d.1 with
      | none => none
      | some (sz, _, _) => firstFail ((List.range d.2.2.1).map (fun k => (entryOk i d.1 (d.2.2.2.1 + sz * k), CheckFail.at 2 d.2.1 k)))) (dirEnts i) with
    | some f => some f
    | none => firstOf (groupsOk i) (List.range (imgModes i))

/-! ### Checks 1, 3 and 4 -/

def check1 (e : CheckEnv) : Option CheckFail :=
  let n := ird e.img 8 4
  let o := n - 72
  let ok := match e.key (ird e.img (o + 4) 4) with
    | none => false
    | some q => decide (72 ≤ n) && decide (n ≤ 2 * 1048576) && ecdsaVerify q (sha256 (isub e.img 0 o)) (isub e.img (o + 8) 64)
  if ok then none else some (CheckFail.at 1 255 65535)

def check3 (e : CheckEnv) : Option CheckFail :=
  let id := match progOff e.bank with | some o => ird e.bank (o + 8) 4 | none => 0
  if ird e.img 20 4 ≤ e.fw ∧ ird e.img 28 4 = id then none else some (CheckFail.at 3 255 65535)

/-- CTRL_MODE of a channel in the image, I_PEAK, T_PEAK and I_NOM (R178). -/
def ldMode (i : Tab Octet) (n : Nat) : Nat := ((loadEnt (some i) n).map (·.1)).getD 7
def ldPeak (i : Tab Octet) (n : Nat) : Nat := ((loadEnt (some i) n).map (·.2.1)).getD 0
def ldTPeak (i : Tab Octet) (n : Nat) : Nat := ((loadEnt (some i) n).map (·.2.2.1)).getD 0
def ldNom (i : Tab Octet) (n : Nat) : Nat := ((loadEnt (some i) n).map (·.2.2.2)).getD 0
def pwmCount (i : Tab Octet) (kind unit : Nat) : Nat := ((entries i 6 255 8).filter (fun o => ird i o 1 = kind && ird i (o + 1) 1 = unit)).length
/-- The second channel of a bridge in BRIDGE mode, which counts with the first. -/
def pairOdd (i : Tab Octet) (n : Nat) : Bool := decide (48 ≤ n) && n % 2 = 1 && ldMode i n = 4
def pairEven (i : Tab Octet) (n : Nat) : Bool := decide (48 ≤ n) && n % 2 = 0 && ldMode i n = 4

def check4 (e : CheckEnv) : Option CheckFail :=
  let i := e.img
  let one (n : Nat) : Bool × CheckFail :=
    let m := ldMode i n
    (m = cfMode (e.com.chCfgOf n) && (m ≠ 2 || pwmCount i 1 n = 1) && (!(m = 3 || m = 4) || pwmCount i 2 n = 1), CheckFail.at 4 255 n)
  let pair (m n : Nat) : Bool × CheckFail :=
    (!(pairEven i n) || (ldMode i (n + 1) = 4 && chanEnt (some i) m n = chanEnt (some i) m (n + 1)), CheckFail.at 4 m n)
  let sink (n : Nat) : Bool × CheckFail := (!(sfHybrid (e.com.lsCfgOf n)) || pwmCount i 3 (64 + n) = 1, CheckFail.at 4 255 65535)
  firstFail ((List.range 64).map one ++ (List.range (imgModes i)).flatMap (fun m => (List.range 64).map (pair m)) ++ (List.range 36).map sink)

/-! ### Check 5: slot counts -/

def maxOver (n : Nat) (f : Nat → Nat) : Nat := (List.range n).foldl (fun a k => max a (f k)) 0

def slotStarts (i : Tab Octet) (m s : Nat) : Nat :=
  ((List.range 64).filter (fun n => let x := chanEnt (some i) m n; x.disp ≠ 0 && x.slot = s)).length
def slotLin (i : Tab Octet) (m s : Nat) : Nat :=
  maxOver 1024 (fun f => ((linEnts (some i) m).filter (fun x => x.slot = s && f % max 1 x.cycle = x.offset)).length)
def slotTasks (i : Tab Octet) (m s : Nat) : Nat :=
  maxOver 64 (fun f => ((entries i 8 m 16).filter (fun o => ird i (o + 2) 1 = s && f % max 1 (ird i (o + 3) 1) = ird i (o + 4) 1)).length)
/-- The slot an LF entry begins in, counted from the start of its plan. -/
def lfTime (i : Tab Octet) (o : Nat) : Nat := 250 * ird i (o + 4) 2 + ird i (o + 2) 1
/-- Where an LF entry ends, so counted. -/
def lfStop (i : Tab Octet) (o : Nat) : Nat := lfTime i o + ird i (o + 3) 1
/-- An LF entry begins its step: it continues no other of the step (R503). -/
def lfBegins (i : Tab Octet) (m o : Nat) : Bool :=
  !((entries i 10 m 8).any (fun q => ird i q 1 = ird i o 1 && ird i (q + 1) 1 = ird i (o + 1) 1 && lfStop i q = lfTime i o))
/-- LF steps that begin in a slot of one frame. DEDUCED (log 44): one plan runs at a time (R512), so those of different plans never meet. -/
def slotLf (i : Tab Octet) (m s : Nat) : Nat :=
  let l := (entries i 10 m 8).filter (fun o => ird i (o + 2) 1 = s && lfBegins i m o)
  (l.map (fun o => (l.filter (fun q => ird i q 1 = ird i o 1 && ird i (q + 4) 2 = ird i (o + 4) 2)).length)).foldl max 0

def check5 (e : CheckEnv) : Option CheckFail :=
  let i := e.img
  firstOf (fun m => firstOf (fun s =>
    let c := [slotStarts i m s, slotLin i m s, slotTasks i m s, slotLf i m s]
    let o := (entries i 4 m 4).getD s 0
    let f (v l : Nat) : CheckFail := { CheckFail.at 5 m s with slot := s, value := v, limit := l }
    firstFail ((List.zip c [16, 4, 4, 1]).map (fun x => (decide (x.1 ≤ x.2), f x.1 x.2))
      ++ (List.range 4).map (fun k =>
        let v := if k = 3 then min 1 (c.getD 3 0) else c.getD k 0
        (decide (v = ird i (o + k) 1), f v (ird i (o + k) 1))))) (List.range 250)) (List.range (imgModes i))

/-! ### Checks 6 and 7: zone currents (R185, R186), in units of 10 mA -/

def startPeak (i : Tab Octet) (m f z s n : Nat) : Nat :=
  let x := chanEnt (some i) m n
  if chZone n ≠ z || pairOdd i n || ldMode i n = 1 then 0
  else if (x.disp = 1 || x.disp = 2) && x.slot = s && f % max 1 x.period = x.phase then
    10 * (if pairEven i n then max (ldPeak i n) (ldPeak i (n + 1)) else ldPeak i n)
  else 0

/-- PWM rising edges of a zone in a slot. -/
def pwmNom (i : Tab Octet) (z s : Nat) : Nat :=
  ((entries i 6 255 8).map (fun o =>
    let n := ird i (o + 1) 1
    let t := ird i (o + 4) 3
    if ird i o 1 = 3 || chZone n ≠ z then 0
    else if ird i o 1 = 1 then (if t % 50000 / 200 = s then ldNom i n else 0)
    else ldNom i n * ((List.range 20).filter (fun k => (t + 2500 * k) / 200 = s)).length)).sum

def slotSum (i : Tab Octet) (m z s f : Nat) : Nat :=
  ((List.range 64).map (fun n => startPeak i m f z s n + (if ldMode i n = 1 && chZone n = z then 10 * ldPeak i n else 0))).sum + pwmNom i z s

def check6 (e : CheckEnv) : Option CheckFail :=
  let i := e.img
  let lim (z : Nat) : Nat := ((entries i 1 255 16).map (fun o => ird i (o + z) 1)).headD 0
  firstOf (fun m => firstOf (fun z => firstOf (fun s =>
    let v := maxOver 64 (slotSum i m z s)
    if v ≤ 100 * lim z then none else some { CheckFail.at 6 m 65535 with slot := s, zone := z, value := cdiv v 100, limit := lim z })
    (List.range 250)) (List.range 4)) (List.range (imgModes i))

/-- The `k` largest of a list. -/
def topSum (k : Nat) (l : List Nat) : Nat := ((l.mergeSort (fun a b => decide (b ≤ a))).take k).sum

def nomOnce (i : Tab Octet) (n : Nat) : Nat := if pairOdd i n then 0 else if pairEven i n then max (ldNom i n) (ldNom i (n + 1)) else ldNom i n

def zoneCont (i : Tab Octet) (m z : Nat) : Nat :=
  let ns := (List.range 64).filter (fun n => chZone n = z && !(pairOdd i n))
  ((ns.filter (fun n => (chanEnt (some i) m n).group = 255)).map (nomOnce i)).sum
    + ((List.range (entries i 11 m 12).length).map (fun g =>
        topSum (((simulEnt (some i) m g).map (·.2)).getD 0) ((ns.filter (fun n => (chanEnt (some i) m n).group = g)).map (nomOnce i)))).sum

def check7 (e : CheckEnv) : Option CheckFail :=
  let i := e.img
  firstOf (fun m => firstOf (fun z =>
    let l := zoneLimit (some i) z
    let v := zoneCont i m z
    if v ≤ 100 * l ∧ l ≤ 80 then none else some { CheckFail.at 7 m 65535 with zone := z, value := cdiv v 100, limit := l }) (List.range 4))
    (List.range (imgModes i))

/-! ### Check 8: ratings and dissipation (R187), in units of 10^-7 mW -/

/-- 150 degree maximum Rds(on) of a class in micro-ohms (R229). -/
def rdsMax (k : Nat) : Nat := if k = 0 then 4400 else if k = 1 then 14000 else if k = 2 then 48000 else 19000
def chDiss (i : Tab Octet) (n : Nat) : Nat := ldNom i n * ldNom i n * rdsMax (chClass n)
def memberDiss (i : Tab Octet) (n : Nat) : Nat := if pairEven i n then chDiss i n + chDiss i (n + 1) else chDiss i n
def groupDiss (i : Tab Octet) (m g : Nat) : Nat :=
  match simulEnt (some i) m g with
  | none => 0
  | some (mem, k) => topSum k (((List.range 64).filter (fun n => bit mem n && !(pairOdd i n))).map (memberDiss i))
def groupDecl (i : Tab Octet) (m g : Nat) : Nat := ((entries i 11 m 12)[g]?.map (fun o => ird i (o + 10) 2)).getD 0
def budgetAt (i : Tab Octet) (m off n : Nat) : Nat := ((entries i 3 m 64).map (fun o => ird i (o + off) n)).headD 0
def modeDiss (i : Tab Octet) (m : Nat) : Nat :=
  let gs := ((List.range (entries i 11 m 12).length).map (groupDecl i m)).sum
  let ps := (((List.range 64).filter (fun n => (chanEnt (some i) m n).group = 255)).map (chDiss i)).sum
  (2 * ((gs + budgetAt i m 10 2) * 10000000 + ps) + 10000000) / 20000000

def check8 (e : CheckEnv) : Option CheckFail :=
  let i := e.img
  let lim := ((entries i 1 255 16).map (fun o => ird i (o + 4) 2)).headD 0
  let ch (n : Nat) : List (Bool × CheckFail) :=
    let k := chClass n
    let f := CheckFail.at 8 255 n
    [(decide (ldNom i n ≤ 100 * classRated k), f.over (cdiv (ldNom i n) 100) (classRated k)), (decide (ldPeak i n ≤ 10 * classTop k), f.over (cdiv (ldPeak i n) 10) (classTop k)),
     (decide (ldTPeak i n ≤ 2000), f.over (cdiv (ldTPeak i n) 100) 20)]
  let grp (m g : Nat) : Bool × CheckFail :=
    (decide (groupDiss i m g ≤ 10000000 * groupDecl i m g), { CheckFail.at 8 m g with value := cdiv (groupDiss i m g) 10000000, limit := groupDecl i m g })
  firstFail ((List.range 64).flatMap ch ++ (List.range (imgModes i)).flatMap (fun m =>
    (List.range (entries i 11 m 12).length).map (grp m)
      ++ [(modeDiss i m = budgetAt i m 16 2 && decide (modeDiss i m ≤ lim) && decide (lim ≤ 16000),
           { CheckFail.at 8 m 65535 with value := modeDiss i m, limit := min lim (budgetAt i m 16 2) })]))

/-! ### Check 9: converters (R182) -/

/-- Two events of periods and phases can fall in one frame (R172). -/
def meets (p h q g : Nat) : Bool := h % max 1 (min p q) = g % max 1 (min p q)
def adcInstants (i : Tab Octet) (o : Nat) : List Nat := (List.range (ird i (o + 6) 1)).map (fun k => ird i (o + 3) 3 + k * ird i (o + 8) 2)
/-- The least distance between the instants of two entries. -/
def adcGap (i : Tab Octet) (a b : Nat) : Nat :=
  ((adcInstants i a).flatMap (fun x => (adcInstants i b).map (fun y => max x y - min x y))).foldl min 100000
/-- The last instant of a burst. -/
def adcLast (i : Tab Octet) (o : Nat) : Nat := ird i (o + 3) 3 + (ird i (o + 6) 1 - 1) * ird i (o + 8) 2

def check9 (e : CheckEnv) : Option CheckFail :=
  let i := e.img
  firstOf (fun m =>
    let l := entries i 7 m 12
    firstFail ((List.range l.length).flatMap (fun k =>
      let o := l.getD k 0
      let f := { CheckFail.at 9 m k with zone := ird i o 1 }
      (List.range k).map (fun j =>
          let q := l.getD j 0
          (ird i q 1 ≠ ird i o 1 || !(meets (ird i (o + 10) 1) (ird i (o + 11) 1) (ird i (q + 10) 1) (ird i (q + 11) 1)) || decide (25 ≤ adcGap i o q), f.over (adcGap i o q) 25))
        ++ [(decide (adcLast i o ≤ 99975), f.over (adcLast i o) 99975)]))) (List.range (imgModes i))

/-! ### Checks 10 and 11: flits and shares (R684) -/

def blockSize (i : Tab Octet) (m : Nat) : Nat :=
  let ch := ((List.range 64).filter (fun n => ldMode i n ≠ 7)).length
  let br := ((List.range 64).filter (pairEven i)).length
  let lin := ((List.range 12).filter (fun p => (linEnts (some i) m).any (fun x => x.port = p))).length
  let lf := ((List.range 16).filter (fun p => (entries i 10 m 8).any (fun o => ird i o 1 = p))).length
  cdiv (32 + (8 * ch + 12 * br + 4 * 36 + 12 * lin + 16 * lf) + 4096) 26

def check10 (e : CheckEnv) : Option CheckFail :=
  let i := e.img
  firstOf (fun m =>
    let b := blockSize i m
    let up := budgetAt i m 0 2 + budgetAt i m 2 2
    let down := budgetAt i m 4 2 + budgetAt i m 6 2 + budgetAt i m 8 2
    firstFail [(decide (b ≤ budgetAt i m 0 2), { CheckFail.at 10 m 65535 with value := b, limit := budgetAt i m 0 2 }),
      (decide (up ≤ 24146), { CheckFail.at 10 m 65535 with value := up, limit := 24146 }),
      (decide (down ≤ 24146), { CheckFail.at 10 m 65535 with value := down, limit := 24146 })]) (List.range (imgModes i))

def check11 (e : CheckEnv) : Option CheckFail :=
  let i := e.img
  firstOf (fun m =>
    let pk := ((List.range 15).map (fun c => budgetAt i m (20 + 2 * c) 1)).sum
    let oc := ((List.range 15).map (fun c => budgetAt i m (21 + 2 * c) 1)).sum
    firstFail [(decide (budgetAt i m 12 4 ≤ 425000), { CheckFail.at 11 m 65535 with value := budgetAt i m 12 4, limit := 425000 }),
      (decide (pk ≤ 240), { CheckFail.at 11 m 65535 with value := pk, limit := 240 }),
      (decide (oc ≤ 1536), { CheckFail.at 11 m 65535 with value := oc, limit := 1536 })]) (List.range (imgModes i))

/-! ### Check 12: tasks (R183, R424, R427) -/

def taskSpan (i : Tab Octet) (o : Nat) : Nat := cdiv ((32 + ird i (o + 11) 2 + ird i (o + 6) 3 + ird i (o + 13) 2) * 50) 340
def taskStart (i : Tab Octet) (o : Nat) : Nat := 200 * ird i (o + 2) 1

/-- ENTRY and what goes with it are those of a task entry of the installed CORE_PROG (R424). -/
def taskLinked (e : CheckEnv) (o : Nat) : Bool :=
  let i := e.img
  match (progOff e.bank).bind (fun p => (taskDescIn e.bank p (ird i o 1)).map (fun d => isub e.bank d 32)) with
  | none => false
  | some d => tdCore d = ird i (o + 1) 1 && tdEntry d = ird i (o + 9) 2 && tdInWords d = ird i (o + 11) 2 && tdOutWords d = ird i (o + 13) 2

/-- The worst-case cycle count recorded for a task entry. -/
def taskWcet (e : CheckEnv) (o : Nat) : Nat :=
  (((progOff e.bank).bind (fun p => taskDescIn e.bank p (ird e.img o 1))).map (fun d => tdWcet (isub e.bank d 32))).getD 0

/-- The ADC declarations of a task without PREV: each names an entry of the mode that ends at least 25 units before the activation. -/
def taskAdc (e : CheckEnv) (m o : Nat) (f : CheckFail) : List (Bool × CheckFail) :=
  let i := e.img
  match (progOff e.bank).bind (fun p => (taskDescIn e.bank p (ird i o 1)).map (fun d => declsAt e.bank (inBase e.bank p) (tdInFirst (isub e.bank d 32)) (tdInCount (isub e.bank d 32)))) with
  | none => [(false, f)]
  | some ds => (ds.filter (fun x => rd x 0 1 = 2 && !(bit (rd x 7 1) 0))).map (fun x =>
      match (entries i 7 m 12)[rd x 2 2]? with
      | none => (false, f)
      | some a => (!(meets (ird i (o + 3) 1) (ird i (o + 4) 1) (ird i (a + 10) 1) (ird i (a + 11) 1)) || decide (adcLast i a + 25 ≤ 2 * taskStart i o),
          f.over (adcLast i a + 25) (2 * taskStart i o)))

/-- The conditions on entry `k` of the tasks of a mode, in the order check 12 names them. -/
def taskConds (e : CheckEnv) (m k : Nat) : List (Bool × CheckFail) :=
  let i := e.img
  let l := entries i 8 m 16
  let o := l.getD k 0
  let last := taskStart i o + taskSpan i o
  let f := { CheckFail.at 12 m k with slot := ird i (o + 2) 1 }
  let before := (List.range k).map (fun j => l.getD j 0)
  before.map (fun q => (decide (ird i q 1 ≠ ird i o 1), f))
    ++ [(taskLinked e o, f), (decide (taskWcet e o ≤ ird i (o + 6) 3), f.over (taskWcet e o) (ird i (o + 6) 3)), (decide (last ≤ 40000), f.over last 40000)]
    ++ before.map (fun q => (ird i (q + 1) 1 ≠ ird i (o + 1) 1 || !(meets (ird i (o + 3) 1) (ird i (o + 4) 1) (ird i (q + 3) 1) (ird i (q + 4) 1))
        || decide (last ≤ taskStart i q) || decide (taskStart i q + taskSpan i q ≤ taskStart i o),
        if taskStart i q ≤ taskStart i o then f.over (taskStart i q + taskSpan i q) (taskStart i o) else f.over last (taskStart i q)))
    ++ taskAdc e m o f

def check12 (e : CheckEnv) : Option CheckFail :=
  firstOf (fun m => firstFail ((List.range (entries e.img 8 m 16).length).flatMap (taskConds e m))) (List.range (imgModes e.img))

/-! ### Check 13: LIN and LF -/

/-- The number of times an entry reserves frame `f` of its port. -/
def linReserves (x : LinEnt) (f : Nat) : Nat := ((List.range x.frames).filter (fun k => (f + 1024 - k) % max 1 x.cycle = x.offset)).length

/-- The most often that a frame is reserved by entry `k` of a mode and the entries of its port before it. -/
def linReserved (i : Tab Octet) (m k : Nat) : Nat :=
  let l := linEnts (some i) m
  match l[k]? with
  | none => 0
  | some x => maxOver 1024 (fun f => if linReserves x f = 0 then 0 else (((l.take (k + 1)).filter (fun y => y.port = x.port)).map (fun y => linReserves y f)).sum)

/-- Check 13. DEDUCED (log 44): steps of different plans are never active together, as one plan runs at a time (R512) and FRAME_OFF counts from its own start (R503). -/
def check13 (e : CheckEnv) : Option CheckFail :=
  let i := e.img
  firstOf (fun m =>
    let l := entries i 10 m 8
    let lin := linEnts (some i) m
    firstFail ((List.range lin.length).map (fun k =>
        (decide (linReserved i m k ≤ 1), { CheckFail.at 13 m k with slot := ((lin[k]?).map (·.slot)).getD 255, value := linReserved i m k, limit := 1 }))
      ++ (List.range l.length).flatMap (fun k =>
        let o := l.getD k 0
        let f := { CheckFail.at 13 m k with slot := ird i (o + 2) 1 }
        (((List.range k).map (fun j => l.getD j 0)).filter (fun q => ird i q 1 = ird i o 1)).flatMap (fun q =>
          [(decide (ird i (q + 1) 1 ≤ ird i (o + 1) 1), f.over (ird i (q + 1) 1) (ird i (o + 1) 1)), (decide (lfStop i q ≤ lfTime i o), f.over (lfStop i q) (lfTime i o))])))) (List.range (imgModes i))

/-- The checks of R188 in order: the first that fails. -/
def schedCheck (e : CheckEnv) : Option CheckFail :=
  firstOf (fun f : CheckEnv → Option CheckFail => f e)
    [check1, check2, check3, check4, check5, check6, check7, check8, check9, check10, check11, check12, check13]

/-- The signing key a KEY_ID of a schedule image names (R613): the root itself, or the certificate key of the manifest that carries the image. -/
def signKey (s : State) (bank : Tab Octet) (id : Nat) : Option (Nat × Nat) :=
  if id = 0 then kyPoint (s.key 0).rec_
  else
    let c := mfCert bank
    if ird bank c 4 = id then some (beNat (isub bank (c + 8) 32), beNat (isub bank (c + 40) 32)) else none

/-- The environment of a check of the image a bank holds. -/
def checkEnv (s : State) (b : Nat) : CheckEnv :=
  let k := s.bank b
  { img := (bankSched k).getD [], com := s.com, fw := if b = s.upd.active then s.fwVer else ceId k 1, bank := k, key := signKey s k }

end Sys2Proof.Machine
end

