-- ==== Sys2Proof/Machine/Access.lean ====
section
/-! DEFINITION. Newt: LF plans and telegrams, the token exchange, classification, lock-out and the immobiliser (15_access_immobiliser R499 to R531). -/

namespace Sys2Proof.Machine

def onAcc (f : Acc → Acc) (s : State) : State := { s with acc := f s.acc }
def onAtt (f : Attempt → Attempt) (s : State) : State := onAcc (fun a => { a with att := a.att.map f }) s
def onImmo (f : Immo → Immo) (s : State) : State := onAcc (fun a => { a with immo := f a.immo }) s

/-! ### ACC_CFG (R499) -/
def afVid (c : Rec) : Nat := rd c 0 4
def afWake (c : Rec) : Nat := rd c 4 2
def afLf (c : Rec) : Nat := bits (rd c 6 1) 0 4
def afRs (c : Rec) : Nat := bits (rd c 6 1) 4 4
def afPoll (c : Rec) : Nat := bits (rd c 7 1) 0 4
def afRsEn (c : Rec) : Bool := bit (rd c 7 1) 4
def afRef (c : Rec) : Bool := bit (rd c 7 1) 5
def afDelay (c : Rec) : Nat := rd c 8 2
def afI (c : Rec) (a : Nat) : Nat := rd c (10 + a) 1 % 64
def afTrig (c : Rec) : Nat := rd c 18 1 % 128
def afTrigEn (c : Rec) : Bool := bit (rd c 18 1) 7
def afTrigZones (c : Rec) : Nat := rd c 19 1 % 64
def afPollS (c : Rec) : Nat := rd c 20 1
def afAbsent (c : Rec) : Nat := rd c 21 1
def afPeriod (c : Rec) : Nat := rd c 22 2
def afPort (c : Rec) : Nat := rd c 24 1 % 8
def afBrs (c : Rec) : Bool := bit (rd c 24 1) 3
def afMaxDist (c : Rec) : Nat := rd c 25 1
def afImmoId (c : Rec) : Nat := rd c 26 2 % 2048
def afPair (c : Rec) : Nat := rd c 28 1
def afModule (c : Rec) : Nat := rd c 29 1
def afNotify (c : Rec) (n : Nat) : Bool := bit (rd c 30 2) n && decide (1 ≤ n ∧ n ≤ 15)
def afCalPeriod (c : Rec) : Nat := rd c 32 1

/-- Seconds as ticks. -/
def secTicks (n : Nat) : Tb := BitVec.ofNat 48 (n * 50000000)

/-! ### Access tables (R500) -/

/-- Bank offset of ACCESS_TABLES of the active bank. -/
def accTables (s : State) : Option Nat := let i := s.activeImg; if mfHere i ∧ ceLen i 5 ≠ 0 then some (compOff i 5) else none
/-- The token entries, 8 octets each. -/
def tokens (s : State) : List Rec :=
  match accTables s with
  | none => []
  | some o => (List.range (min 255 (ird s.activeImg o 4))).map (fun k => isub s.activeImg (o + 4 + 8 * k) 8)
def tkTid (t : Rec) : Nat := rd t 0 4
def tkIndex (t : Rec) : Nat := rd t 4 1
def tkSlot (t : Rec) : Nat := rd t 5 1
def tkImmo (t : Rec) : Bool := bit (rd t 6 1) 0
/-- The template of zone `z`, 20 octets. -/
def template (s : State) (z : Nat) : Rec :=
  match accTables s with
  | none => zeros 20
  | some o => isub s.activeImg (o + 4 + 8 * (tokens s).length + 20 * z) 20

/-! ### LF plans (R503, R504) -/

/-- A step of a plan: its span in ticks from the plan's start, its aerials. -/
structure LfStep where
  start : Nat
  stop : Nat
  aerials : Nat
deriving DecidableEq, Repr

/-- The offsets of the LF entries of a plan in a mode. -/
def lfEntries (img : Option (Tab Octet)) (m p : Nat) : List (Tab Octet × Nat) :=
  match img with
  | none => []
  | some i => ((entries i 0x0A m 8).filter (fun o => ird i o 1 % 16 = p)).map (fun o => (i, o))

def lfStep (img : Option (Tab Octet)) (m p k : Nat) : Option LfStep :=
  let es := (lfEntries img m p).filter (fun e => ird e.1 (e.2 + 1) 1 = k)
  let go (a : Option LfStep) (e : Tab Octet × Nat) : Option LfStep :=
    let b := 50000 * ird e.1 (e.2 + 4) 2 + 200 * ird e.1 (e.2 + 2) 1
    let x := b + 200 * ird e.1 (e.2 + 3) 1
    match a with
    | none => some { start := b, stop := x, aerials := ird e.1 (e.2 + 6) 1 }
    | some y => some { start := min y.start b, stop := max y.stop x, aerials := y.aerials }
  es.foldl go none

/-- The entries of every step of a plan follow one another without a gap and drive the same aerials (R503). -/
def lfUnbroken (img : Option (Tab Octet)) (m p : Nat) : Bool :=
  (List.range 12).all (fun k =>
    let es := (lfEntries img m p).filter (fun e => ird e.1 (e.2 + 1) 1 = k)
    match lfStep img m p k with
    | none => true
    | some x => x.stop - x.start = 200 * (es.map (fun e => ird e.1 (e.2 + 3) 1)).sum && es.all (fun e => ird e.1 (e.2 + 6) 1 = x.aerials))

/-- A plan is usable for a role in a mode (R504): 0 LF_PLAN, 1 POLL_PLAN, 2 RESWEEP_PLAN. -/
def planUsable (img : Option (Tab Octet)) (m : Nat) (c : Rec) (role p : Nat) : Bool :=
  let st := lfStep img m p
  let currents := (lfEntries img m p).all (fun e =>
    (List.range 8).all (fun a => !(bit (ird e.1 (e.2 + 6) 1) a) || decide (afI c a ≤ ird e.1 (e.2 + 7) 1 % 64)))
  match st 1, st 9, st 10 with
  | some ch, some last, some rp =>
    let wakeOk := match st 0 with | some w => role ≠ 2 && decide (w.start + 128000 ≤ w.stop) && decide (w.stop ≤ ch.start) | none => role = 2
    let burst (a : Nat) : Bool := match st (2 + a) with
      | none => false
      | some b => b.start % 50000 = 0 && b.stop = b.start + 50000 && b.aerials = 2 ^ a
          && (if a = 0 then b.start = 50000 * cdiv ch.stop 50000 else match st (1 + a) with | some q => decide (q.stop ≤ b.start) | none => false)
    let n := if role = 2 then 1 else 8
    let replyOk := decide (rp.start + 25000 ≤ last.stop + 50 * afDelay c) && decide (last.stop + 50 * (afDelay c + 100 + 2000 * (n - 1) + 1252) ≤ rp.stop)
    let lfOk := role ≠ 0 || (match st 0, st 11 with
      | some w, some cf => decide (cf.start + 665600 ≤ cf.stop) && decide (rp.stop + 150000 ≤ cf.start) && decide (rp.stop ≤ w.start + 2850000)
      | _, _ => false)
    lfUnbroken img m p && wakeOk && decide (ch.start + 819200 ≤ ch.stop) && (List.range 8).all burst && replyOk && lfOk && currents
  | _, _, _ => false

/-- The TB of the start of the plan in progress. -/
def planTb (s : State) (f : Fn) : Tb := s.clk.frameTb + BitVec.ofInt 48 (50000 * (f - s.fn).toInt)

/-! ### Telegrams (R502) -/

/-- One octet of the CRC-16 of R502: polynomial 1021h, most significant bit first. -/
def crc16Step (c : Nat) (o : Octet) : Nat :=
  (List.range 8).foldl (fun c _ => if 32768 ≤ c then ((2 * c) % 65536) ^^^ 0x1021 else 2 * c) (c ^^^ (o.toNat * 256))
def crc16 (b : Rec) : Nat := b.foldl crc16Step 0xFFFF
/-- A telegram as the octets sent, most significant first, with its CRC. -/
def telegram (b : Rec) : Rec := b ++ be 2 (crc16 b)

/-! ### Locks (R523 to R525) -/

def lockDef : Nat → LockRec := fun _ => LockRec.initial
/-- The key of a lock: kinds 0 and 1 the LF and phone paths, 2 a token, 3 a credential slot. -/
def lockKey (kind id : Nat) : Nat := kind * 2 ^ 32 + (if kind < 2 then 0 else id)
def State.lock (s : State) (kind id : Nat) : LockRec := tget lockDef s.acc.locks (lockKey kind id)
def onLock (kind id : Nat) (f : LockRec → LockRec) (s : State) : State := onAcc (fun a => { a with locks := tmod lockDef a.locks (lockKey kind id) f }) s
/-- A lock is in force at a TB. -/
def lockedAt (k : LockRec) (t : Tb) : Bool := match k.lockEnd with | some e => !(isPast t e) | none => false
def State.isLocked (s : State) (kind id : Nat) : Bool := lockedAt (s.lock kind id) s.tbNow
/-- Seconds remaining of a lock, rounded up. -/
def lockSec (k : LockRec) (t : Tb) : Nat := match k.lockEnd with | some e => if isPast t e then 0 else cdiv (e - t).toNat 50000000 | none => 0

/-- One failure of a path or identity (R523): `n` failures within `win` seconds lock it, a path for 3 min, an identity for 3 min at first and twice as long at each repeat. What
fails during the lock of an identity is not stored: its failures count afresh after the lock. -/
def failStep (n win : Nat) (path : Bool) (t : Tb) (k : LockRec) : LockRec × Bool :=
  let fs := (t :: k.fails).take n
  let old := fs.getLast?.getD t
  if !path && lockedAt k t then ({ k with lastFail := some t }, false) else
  let locks := fs.length = n && decide ((t - old).toNat ≤ win * 50000000) && !(lockedAt k t)
  let dur := if path || k.repeats = 0 then 180 else min 2880 (2 * k.dur)
  if locks then ({ fails := if path then fs else [], lockEnd := some (t + secTicks dur), dur := dur, repeats := k.repeats + 1, lastFail := some t }, true)
  else ({ k with fails := fs, lastFail := some t }, false)

/-- A failure of path 0 LF or 1 phone, and of the identity where one is known (R514, R523). -/
def accFail (path : Nat) (ident : Option (Nat × Nat)) (s : State) : State :=
  let t := s.tbNow
  let s := onAcc (fun a => { a with failures := a.failures + 1 }) s
  let p := failStep 20 60 true t (s.lock path 0)
  let s := onLock path 0 (fun _ => p.1) s
  let s := if p.2 then raise 0x144 path s else s
  match ident with
  | none => onAtt (fun a => { a with locked := a.locked || p.2 && path = 0 }) s
  | some (kind, id) =>
    let x := failStep 5 120 false t (s.lock kind id)
    let s := onLock kind id (fun _ => x.1) s
    let s := if x.2 then raise 0x143 path s else s
    onAtt (fun a => { a with locked := a.locked || (p.2 || x.2) && path = 0 }) s

/-- A token's identity is locked for what began in frame `f`: a lock that starts in an attempt governs later attempts only (R531). -/
def lockedFor (s : State) (tid : Nat) (f : Fn) : Bool :=
  let k := s.lock 2 tid
  match k.lockEnd with
  | none => false
  | some e => lockedAt k s.tbNow && !(isPast (e - secTicks k.dur) (planTb s f))

/-- A valid authentication of an identity (R523). -/
def accValid (kind id : Nat) (s : State) : State := onLock kind id (fun k => { k with repeats := 0 }) s

/-! ### Decisions (R517, R518) -/

/-- An ACC_DECISION entry. -/
def decEntry (path dec cause mask auth prof zone sweeps valid : Nat) (reqId : Nat) (tb : Tb) : Rec :=
  [BitVec.ofNat 8 path, BitVec.ofNat 8 dec, BitVec.ofNat 8 cause, BitVec.ofNat 8 mask, BitVec.ofNat 8 auth, BitVec.ofNat 8 prof,
   BitVec.ofNat 8 (zone + 8 * sweeps), BitVec.ofNat 8 valid] ++ le 4 reqId ++ le 6 tb.toNat ++ [0, 0]

/-- A notification to every context of NOTIFY_CTX. -/
def accNotify (kind : Nat) (data : Rec) (s : State) : State :=
  (List.range 16).foldl (fun s c => if afNotify s.acc.cfg c then notify c kind data s else s) s

/-- A decision is admitted to queue 1536 and told (R518). -/
def accDecision (e : Rec) (s : State) : State :=
  accNotify 0x8001 e (admitEntry 1536 e (onAcc (fun a => { a with decisions := a.decisions + 1 }) s))

/-- The aerials are silent and the receiver is off. -/
def lfQuiet (s : State) : State := onAcc (fun a => { a with lfOn := 0, lfTele := [], uhfEn := false }) s

/-- The attempt in its place ends; one that waits takes the place. -/
def attEnd (s : State) : State := onAcc (fun a => { a with att := a.wait, wait := none }) s

/-- The COMPLETION of the request behind an attempt, with its decision (R533). -/
def attComplete (a : Attempt) (e : Rec) (s : State) : State := if a.reqCtx = 0 then s else completion a.reqCtx a.reqSeq 0x8001 .ok 0 e s

/-- An attempt ends ABORTED (R519); a poll just ends, a calibration fails. -/
def attAbort (cause : Nat) (s : State) : State :=
  match s.acc.att with
  | none => s
  | some a =>
    let s := lfQuiet s
    if a.kind = 0 then
      if a.decided.isSome then attEnd s
      else
        let e := decEntry 1 5 cause a.mask 255 255 7 a.sweep a.valid.length a.reqId.toNat s.tbNow
        attEnd (attComplete a e (accDecision e s))
    else if a.kind = 2 then
      match s.acc.calRun with
      | some r => attEnd (completion r.ctx r.seq 0x8002 .verify 0 [] (onAcc (fun x => { x with calRun := none }) s))
      | none => attEnd s
    else attEnd s

/-- The link is lost or Anvil is in orphan mode (R519): whatever runs, or waits, ends with cause LINK. -/
def accLinkLost (s : State) : State := if s.acc.att.isNone then s else attAbort 5 (attAbort 5 s)

/-- The order of preference among valid tokens: greatest score, then lower slot, then earlier sweep. -/
def better (a b : ValidToken) : Bool :=
  decide (b.score < a.score) || (a.score = b.score && (decide (a.slot < b.slot) || (a.slot = b.slot && decide (a.sweep < b.sweep))))
def bestOf (l : List ValidToken) : Option ValidToken := l.foldl (fun b a => match b with | none => some a | some x => if better a x then some a else some x) none
/-- The authorised token, and the profile token (R517). -/
def authToken (l : List ValidToken) : Option ValidToken := bestOf (l.filter (fun t => t.zone = 0 && t.immo))
def profToken (l : List ValidToken) : Option ValidToken := match authToken l with | some t => some t | none => bestOf l

/-- A valid token satisfies an attempt (R516). -/
def satisfied (a : Attempt) : Bool := a.valid.any (fun t => bit a.mask t.zone || (a.start && t.zone = 0))

/-- The index an addressed re-sweep takes next (R516); none where none is due. -/
def resweepIndex (s : State) (a : Attempt) : Option Nat :=
  if a.kind ≠ 0 || a.step ≠ 10 || a.decided.isSome || a.abort ≠ 0 || !(afRsEn s.acc.cfg) || 3 ≤ a.sweep || satisfied a
    || !(planUsable s.sched.img s.com.mode s.acc.cfg 2 (afRs s.acc.cfg)) then none
  else
    let ts := (tokens s).map tkIndex
    (List.range 255).find? (fun i => ts.contains i && a.garbled.contains (i % 8) && !(a.tried.contains i) && !(a.valid.any (fun t => t.index = i)))

/-! ### Immobiliser (R526 to R530) -/

def immoEvent (ev cause : Nat) (s : State) : State := accNotify 0x8002 ([BitVec.ofNat 8 ev, BitVec.ofNat 8 cause, 0, 0] ++ le 4 s.acc.immo.cnt) s

/-- A frame of Newt enters its transmit queue (R527): identifier offset, FD, BRS, DLC, data. -/
def immoSend (o : Nat) (fd : Bool) (dlc : Nat) (data : Rec) (s : State) : State :=
  let c := s.acc.cfg
  let q := 382 + 128 * afPort c
  if qProducer (s.qcfg q) = 0x30E9 then
    admitEntry q (le 4 (afImmoId c + o + (if fd then 2 ^ 31 else 0)) ++ [BitVec.ofNat 8 (dlc + 16 * b2n (fd && afBrs c)), BitVec.ofNat 8 data.length] ++ zeros 6 ++ data) s
  else s

/-- The next release frame, STATE 1 RELEASE or 2 END (R528). -/
def immoRelease (st : Nat) (s : State) : State :=
  let s := onImmo (fun m => { m with cnt := m.cnt + 1 }) s
  let m := s.acc.immo
  let pt := [BitVec.ofNat 8 st, BitVec.ofNat 8 m.index, BitVec.ofNat 8 m.profile, 0] ++ le 4 s.fn.toNat ++ zeros 4
  let ct := aesCtr m.ki (m.nd ++ le 4 m.cnt ++ zeros 4) pt
  let tag := (cmac m.ki (le 2 (afImmoId s.acc.cfg + 3) ++ le 4 m.cnt ++ ct)).take 8
  immoSend 3 true 12 (le 4 m.cnt ++ ct ++ tag) s

/-- IMMO_REQ opens a pairing (R528). -/
def immoPair (s : State) : State :=
  immoSend 0 false 0 [] (onImmo (fun m => { m with st := 1, tries := 0, reqNext := s.tbNow + msTicks 10, ki := [], nd := [], cnt := 0 }) s)

/-- A refresh still stands: younger than ABSENT_S. -/
def fresh (s : State) (t : Tb) : Bool := decide ((s.tbNow - t).toNat < afAbsent s.acc.cfg * 50000000)
def lfStands (s : State) : Bool := match s.acc.immo.lf with | some t => fresh s t | none => false
def phoneStands (s : State) : Bool := match s.acc.immo.phone with | some (t, _) => fresh s t | none => false

/-- The authorisation begins once a start request and an authorised path are both there (R526). -/
def immoBegin (s : State) : State :=
  let m := s.acc.immo
  if m.st = 0 && m.start && (lfStands s || phoneStands s) then
    let s := onImmo (fun m => { m with pollNext := s.tbNow + secTicks (afPollS s.acc.cfg) }) s
    immoEvent 1 0 (immoPair s)
  else s

/-- The authorisation ends (R529): one END frame where a session stands. -/
def immoEnd (cause : Nat) (s : State) : State :=
  if s.acc.immo.st = 0 then onImmo (fun _ => Immo.initial) s
  else
    let s := if s.acc.immo.st = 2 then immoRelease 2 s else s
    let s := immoEvent 3 cause s
    onImmo (fun _ => Immo.initial) s

/-- IMMO_NONCE (R528): K_I is derived, IMMO_PAIR and the first release frame admitted together. A pairing slot that is unusable derives nothing. -/
def immoNonce (ne : Rec) (s : State) : State :=
  let c := s.acc.cfg
  if s.acc.immo.st = 1 && keyOk s (afPair c) [1, 2] 4 then
    let nd := sub (Config.random s.free 8) 0 8
    let ki := cmac (kyMat (s.key (afPair c)).rec_) (ascii "IMMO" ++ ne ++ nd ++ le 4 (afVid c))
    let s := takeUse (afPair c) (useFree s)
    let s := onImmo (fun m => { m with st := 2, nd := nd, ki := ki, cnt := 0, next := s.tbNow + msTicks (afPeriod c) }) s
    immoEvent 2 0 (immoRelease 1 (immoSend 2 false 8 nd s))
  else s

/-- Newt consumes its receive queue (R527). -/
def immoTake (s : State) : State :=
  let c := s.acc.cfg
  let q := 319 + 128 * afPort c
  if afVid c ≠ 0 && qConsumer (s.qcfg q) = 0x30E9 && qMode (s.qcfg q) ≠ 0 then
    let x := s.queue q
    let nonces := (x.cells.filter (fun k => k.kind = 0 && k.first && rd k.data 0 4 = afImmoId c + 1 && rd k.data 5 1 = 8)).map (fun k => sub k.data 12 8)
    let s := onQueue q (fun x => { qRelease x.cells.length (qWatermark x.cfg) x with read := x.put }) s
    nonces.foldl (fun s n => immoNonce n s) s
  else s

/-- CAN_FRAME_RECEIVED: a frame with the word `w` (identifier, IDE, RTR, FDF), octet `d` (DLC, BRS, ESI) and its data is received without error on port `p`. -/
def execCanFrameReceived (p w d : Nat) (data : Rec) (s : State) : Host.Outcome State Fault Refusal :=
  let s' := canReceive p w d data s
  .next (if p = afPort s.acc.cfg then immoTake s' else s')

/-- IMMO_REQ_RETRY: 10 ms passed without a nonce (R528). -/
def execImmoReqRetry (s : State) : Host.Outcome State Fault Refusal :=
  let m := s.acc.immo
  if m.st = 1 && s.hearthUp then
    let s := advTo m.reqNext s
    if m.tries < 5 then .next (immoSend 0 false 0 [] (onImmo (fun m => { m with tries := m.tries + 1, reqNext := m.reqNext + msTicks 10 }) s))
    else .next (onImmo (fun _ => Immo.initial) (immoEvent 4 0 (raise 0x146 0 s)))
  else .next s

/-- IMMO_RELEASE_PERIOD: a release frame every IMMO_PERIOD ms; a counter that would pass FFFFFFFFh pairs anew (R529). -/
def execImmoReleasePeriod (s : State) : Host.Outcome State Fault Refusal :=
  let m := s.acc.immo
  if m.st = 2 && s.hearthUp then
    let s := advTo m.next s
    if 0xFFFFFFFF ≤ m.cnt then .next (immoPair s)
    else .next (immoRelease 1 (onImmo (fun m => { m with next := m.next + msTicks (afPeriod s.acc.cfg) }) s))
  else .next s

/-- The end of the absence clock: ABSENT_S after the latest refresh of either path. -/
def absentAt (s : State) : Option Tb :=
  let d := secTicks (afAbsent s.acc.cfg)
  match s.acc.immo.lf, s.acc.immo.phone with
  | some a, some (b, _) => some ((if isPast a b then a else b) + d)
  | some a, none => some (a + d)
  | none, some (b, _) => some (b + d)
  | none, none => none

/-- IMMO_ABSENT_TIMEOUT (R529). -/
def execImmoAbsentTimeout (s : State) : Host.Outcome State Fault Refusal :=
  match absentAt s with
  | some t => if s.acc.immo.st ≠ 0 && s.hearthUp then .next (immoEnd 1 (advTo t s)) else .next s
  | none => .next s

/-! ### Attempts (R512, R516) -/

/-- Newt refuses an attempt for a reason other than BUSY and LOCKED. -/
def accRefuses (s : State) (m : Nat) : Option (Status × Nat) :=
  if afVid s.acc.cfg = 0 then some (.state, 0)
  else if s.pwr.padsHeld then some (.state, 0x1E)
  else if s.acc.cal.isNone then some (.state, 0x18)
  else if !(planUsable s.sched.img m s.acc.cfg 0 (afLf s.acc.cfg)) then some (.schedule, noEntry s 5) else none

/-- An attempt runs or waits: one not yet decided, or whose CONFIRM is still going out. -/
def attRuns (s : State) : Bool :=
  s.acc.wait.isSome || (match s.acc.att with | some a => a.kind = 0 && (a.decided.isNone || !(isPast s.tbNow a.stepEnd)) | none => false)

/-- An attempt takes its place, behind a poll or calibration run in progress. -/
def attPlace (a : Attempt) (s : State) : State :=
  match s.acc.att with
  | some b => if b.kind = 0 && b.decided.isSome then onAcc (fun x => { x with att := some a }) s else onAcc (fun x => { x with wait := some a }) s
  | none => onAcc (fun x => { x with att := some a }) s

/-- The attempt of a request in its effect frame, or by a trigger. A trigger and a request for the same frame make one attempt (R531). -/
def mergeable (s : State) (f : Fn) : Option Attempt :=
  match s.acc.wait, s.acc.att with
  | some a, _ => if a.first = f then some a else none
  | none, some a => if a.kind = 0 && a.planFn.isNone && a.first = f then some a else none
  | none, none => none

def attMerge (f : Attempt → Attempt) (s : State) : State :=
  if s.acc.wait.isSome then onAcc (fun x => { x with wait := x.wait.map f }) s else onAtt f s

/-- A debounced rising edge of TRIG_IN (R512, R524). -/
def accTrigger (s : State) : State :=
  let c := s.acc.cfg
  let f := s.fn + 1
  let ignored (s : State) : State := onAcc (fun a => { a with trigIgnored := a.trigIgnored + 1 }) s
  if s.isLocked 0 0 then ignored s
  else match mergeable s f with
    | some a => if a.reqId = 0xFFFFFFFF then ignored s else attMerge (fun a => { a with mask := a.mask ||| afTrigZones c }) s
    | none =>
      if attRuns s then ignored s
      else if (accRefuses s s.com.mode).isSome || s.link.lost || !s.hearthUp then s
      else attPlace { Attempt.initial with mask := afTrigZones c, reqId := 0xFFFFFFFF, first := f, plan := afLf c } s

/-- DEBOUNCED_EDGE: the debounced state of input `n` becomes `v` (R635, R636, R512). A trigger that wakes the parked device acts once host commands are accepted (R649). -/
def execDebouncedEdge (n : Nat) (v : Bool) (s : State) : Host.Outcome State Fault Refusal :=
  let r := inputEdge n v s
  let c := s.acc.cfg
  if r.2 && v && afTrigEn c && afTrig c = n && afVid c ≠ 0 then
    .next (if s.parked then onAcc (fun a => { a with trigWait := a.trigWait || wakeEdge (s.anvil.vals.inCfgOf n) v }) r.1 else accTrigger r.1)
  else .next r.1

/-- LF_PLAN_START: what waits starts its plan at a frame boundary (R503, R512): this one at tick 0, else the next. A plan not usable in its mode ends it. -/
def execLfPlanStart (s : State) : Host.Outcome State Fault Refusal :=
  match s.acc.att with
  | none => .next s
  | some a =>
    let f := if s.tick = 0 then s.fn else s.fn + 1
    if a.planFn.isSome || !s.hearthUp || (a.first - f).toInt > 0 then .next s
    else if !(planUsable s.sched.img s.com.mode s.acc.cfg (if a.kind = 1 then 1 else 0) a.plan) then .next (attAbort 4 s)
    else .next (onAtt (fun a => { a with planFn := some f, step := 255 }) s)

/-- The next step of the plan in progress: its number and span. -/
def nextStep (s : State) (a : Attempt) : Option (Nat × LfStep) :=
  ((List.range 12).filter (fun k => a.step = 255 || decide (a.step < k))).findSome? (fun k => (lfStep s.sched.img s.modeNow a.plan k).map (fun x => (k, x)))

/-- The aerials a step drives: those it names that are fitted, not faulted and not held by a reaction (R501, R506, R565). -/
def drivable (s : State) (m : Nat) : Nat :=
  ((List.range 8).map (fun a => if bit m a && afI s.acc.cfg a ≠ 0 && !(bit s.acc.fault a) && !(bit s.acc.lfHeld a) then 2 ^ a else 0)).sum

/-- LF_STEP_START: the next step of the plan in progress begins at its slot (R501 to R506). -/
def execLfStepStart (s : State) : Host.Outcome State Fault Refusal :=
  match s.acc.att with
  | none => .next s
  | some a =>
    if a.planFn.isSome && a.abort ≠ 0 then .next (attAbort a.abort (advTo a.stepEnd s)) else
    match a.planFn, nextStep s a with
    | some f, some (k, x) =>
      let c := s.acc.cfg
      let start := planTb s f + BitVec.ofNat 48 x.start
      let stop := planTb s f + BitVec.ofNat 48 x.stop
      if k = 11 && a.decided.isNone then .next s
      else
        let s := lfQuiet (advTo start s)
        let s := onAtt (fun a => { a with step := k, stepEnd := stop }) s
        let drive (tele : Rec) (s : State) : State := onAcc (fun y => { y with lfOn := drivable s x.aerials, lfTele := tele }) s
        if k = 0 then .next (drive (be 2 (afWake c)) s)
        else if k = 1 then
          let nv := sub (Config.random s.free 8) 0 8
          .next (drive (telegram ([1] ++ be 4 (afVid c) ++ [BitVec.ofNat 8 a.target] ++ nv)) (useFree (onAtt (fun a => { a with nv := nv, void := 0 }) s)))
        else if k ≤ 9 then
          let v := if bit s.acc.fault (k - 2) then setBit a.void (k - 2) else a.void
          .next (drive [] (onAtt (fun a => { a with tEnd := stop, void := v }) s))
        else if k = 10 then .next (onAcc (fun y => { y with uhfEn := true }) s)
        else
          match profToken a.valid with
          | none => .next s
          | some t =>
            let d := a.decided.getD 0
            let m := (cmac t.ks (ascii "CONF" ++ t.nt ++ t.nv ++ [BitVec.ofNat 8 d])).take 8
            .next (drive (telegram ([3, BitVec.ofNat 8 t.index, BitVec.ofNat 8 d] ++ m)) s)
    | _, _ => .next s

/-- LF_AERIAL_FAULT: aerial `n`, being driven, is open or shorted (R506). -/
def execLfAerialFault (n : Nat) (short : Bool) (s : State) : Host.Outcome State Fault Refusal :=
  if bit s.acc.lfOn n && decide (n < 8) then
    let s := onAcc (fun a => { a with lfOn := clrBit a.lfOn n, fault := setBit a.fault n }) s
    let s := onAtt (fun a => if a.step = n + 2 then { a with void := setBit a.void n } else a) s
    .next (raise (if short then 0x141 else 0x140) n s)
  else .next s

/-! ### Replies (R508, R509, R513 to R516) -/

/-- E_s in units of 10 ns after TB 0, less CAL_OFFSET: T_END + REPLY_DELAY + 2,000 us for slot `k`, as a difference from `t`. -/
def slotDelta (c : Rec) (tEnd t : Tb) (k cal : Nat) : Int := 2 * sx 48 (t - tEnd).toNat - (100 * (afDelay c + 2000 * k) : Nat) - cal

/-- The slot a reply start belongs to, within 1,000 us of its expected start. -/
def slotOf (c : Rec) (tEnd t : Tb) (slots cal : Nat) : Option Nat := (List.range slots).find? (fun k => decide ((slotDelta c tEnd t k cal).natAbs ≤ 100000))

/-- A vector entry is VOID (R515). -/
def voidAt (c : Rec) (void a v : Nat) : Bool := bit void a || afI c a = 0 || v = 255

/-- The zone of a vector: the first matching template, 7 OUT. -/
def zoneOf (s : State) (void : Nat) (vec : Rec) : Nat :=
  let c := s.acc.cfg
  let fits (z : Nat) : Bool :=
    let t := template s z
    (List.range 8).all (fun a =>
      let v := rd vec a 1
      if voidAt c void a v then bit (rd t 16 1) a else decide (rd t (2 * a) 1 ≤ v) && decide (v ≤ rd t (2 * a + 1) 1))
  ((List.range 6).find? fits).getD 7

/-- The driver score (R515). -/
def driverScore (s : State) (void : Nat) (vec : Rec) : Nat :=
  let m := rd (template s 1) 17 1
  ((List.range 8).map (fun a => let v := rd vec a 1; if bit m a && !(voidAt s.acc.cfg void a v) then v else 0)).sum

/-- A parsed reply is judged (R509, R513). A slot that is unusable is a failure with cause KEY. -/
def judge (a : Attempt) (t : Tb) (k : Nat) (p : Rec) (s : State) : State :=
  let c := s.acc.cfg
  let tid := rd p 0 4
  let tok := (tokens s).find? (fun e => tkTid e = tid)
  let ident := tok.map (fun _ => (2, tid))
  if 100 < (slotDelta c a.tEnd t k (s.acc.cal.getD 0)).natAbs then accFail 0 ident (raise 0x142 0 s)
  else match tok with
    | none => accFail 0 none s
    | some e =>
      if lockedFor s tid a.first then onAtt (fun a => { a with locked := true }) s
      else if k ≠ (if a.sweep = 0 then tkIndex e % 8 else 0) then accFail 0 ident s
      else if !(keyOk s (tkSlot e) [1, 2] 4) then accFail 0 ident (onAtt (fun a => { a with keyBad := true }) s)
      else
        let kt := kyMat (s.key (tkSlot e)).rec_
        let nt := sub p 4 8
        let ks := cmac kt (a.nv ++ nt ++ ascii "SESS")
        let vec := sub p 12 8
        let s := takeUse (tkSlot e) s
        if sub p 20 8 ≠ (cmac ks (le 4 (afVid c) ++ le 4 tid ++ a.nv ++ nt ++ vec)).take 8 then accFail 0 ident s
        else
          let v : ValidToken := { index := tkIndex e, immo := tkImmo e, zone := zoneOf s a.void vec, score := driverScore s a.void vec, slot := k, sweep := a.sweep,
                                  ks := ks, nt := nt, nv := a.nv }
          onAtt (fun a => { a with valid := a.valid ++ [v] }) (accValid 2 tid s)

/-- UHF_REPLY: edges on UHF_DATA within a REPLY step: a reply that parses, with its start `t` and its 28 octets of payload, or edges of which none does
(two that overlap among them). -/
def execUhfReply (t : Tb) (p : Option Rec) (s : State) : Host.Outcome State Fault Refusal :=
  match s.acc.att with
  | none => .next s
  | some a =>
    if a.step ≠ 10 || !s.acc.uhfEn || !s.hearthUp then .next s
    else
      let c := s.acc.cfg
      let s := advTo t s
      match slotOf c a.tEnd t 8 (s.acc.cal.getD 0), p with
      | none, _ => .next s
      | some k, none => .next (if a.sweep = 0 && !(a.garbled.contains k) then onAtt (fun a => { a with garbled := a.garbled ++ [k] }) s else s)
      | some k, some p =>
        if a.kind = 2 then
          .next (onAcc (fun x => { x with calRun := x.calRun.map (fun r =>
            if r.meas.length = r.runs then { r with meas := r.meas ++ [slotDelta c a.tEnd t k 0 - r.reference.getD 0] } else r) }) s)
        else .next (judge a t k p s)

/-! ### The end of a sweep (R516, R517) -/

/-- The measurements of a calibration give CAL_OFFSET (R510, R511): none where their spread or their mean is outside what it may be. -/
def calMean (m : List Int) : Option (Nat × Nat) :=
  let hi := m.foldl max (m.headD 0)
  let lo := m.foldl min (m.headD 0)
  let sum := m.sum
  if m.isEmpty || sum < 0 then none
  else
    let mean := quo sum.toNat m.length
    if 40 < hi - lo || 10000 < mean then none else some (mean, (hi - lo).toNat)

/-- A calibration is complete. -/
def calDone (s : State) : State :=
  match s.acc.calRun with
  | none => s
  | some r =>
    let s := onAcc (fun a => { a with calRun := none, uhfCal := false }) s
    match calMean r.meas with
    | none => if r.ctx = 0 then s else completion r.ctx r.seq 0x8002 .verify 0 [] s
    | some (m, sp) =>
      if r.ctx = 0 then
        match s.acc.cal with
        | none => s
        | some o => if ((m : Int) - o).natAbs ≤ 30 then onAcc (fun a => { a with cal := some m }) s else raise 0x145 0 s
      else completion r.ctx r.seq 0x8002 .ok 0 (le 2 m ++ le 2 sp) (onAcc (fun a => { a with cal := some m }) s)

/-- The decision of an attempt (R517): made, told, and where its plan has a CONFIRM for a token kept until that is sent. DEDUCED (log 39): its CAUSE is KEY where no token was valid and
the slot of one was unusable (R513 step 4). -/
def decide_ (a : Attempt) (s : State) : State :=
  let auth := authToken a.valid
  let prof := profToken a.valid
  let dec := if a.valid.any (fun t => bit a.mask t.zone) then 1 else if !a.valid.isEmpty then 2 else if a.locked then 4 else 3
  let e := decEntry 1 dec (if dec = 2 then 1 else if a.valid.isEmpty && a.keyBad then 2 else 0) a.mask ((auth.map (·.index)).getD 255) ((prof.map (·.index)).getD 255) ((prof.map (·.zone)).getD 7)
    a.sweep a.valid.length a.reqId.toNat s.tbNow
  let s := attComplete a e (accDecision e s)
  let s := match auth with
    | none => s
    | some t => immoBegin (onImmo (fun m =>
        if m.st = 0 && !(phoneStands s) then { m with lf := some s.tbNow, index := t.index, profile := (prof.map (·.index)).getD 255, lfIndex := t.index }
        else { m with lf := some s.tbNow, lfIndex := if m.lfIndex = 255 then t.index else m.lfIndex }) s)
  if prof.isSome && (lfStep s.sched.img s.modeNow a.plan 11).isSome then onAtt (fun a => { a with decided := some dec, stepEnd := s.tbNow + msTicks 100 }) s
  else attEnd s

/-- A poll's end (R529): a refresh where the authorised token answered validly in CABIN. -/
def pollDone (a : Attempt) (s : State) : State :=
  let m := s.acc.immo
  let hit := a.valid.any (fun t => t.index = m.lfIndex && t.zone = 0)
  attEnd (if hit && m.st ≠ 0 then onImmo (fun m => { m with lf := some s.tbNow }) s else s)

/-- ACCESS_DECISION: after the last REPLY step of what runs (R517): an attempt is decided, unless a re-sweep is due first; a poll refreshes; a calibration run is
counted, the sixteenth ends it. -/
def execAccessDecision (s : State) : Host.Outcome State Fault Refusal :=
  match s.acc.att with
  | none => .next s
  | some a =>
    if a.step ≠ 10 || a.decided.isSome || !s.hearthUp then .next s
    else
      let s := lfQuiet (advTo a.stepEnd s)
      if a.abort ≠ 0 then .next (attAbort a.abort s)
      else if a.kind = 1 then .next (pollDone a s)
      else if a.kind = 2 then
        match s.acc.calRun with
        | none => .next (attEnd s)
        | some r =>
          if r.meas.length ≤ r.runs || 16 ≤ r.runs + 1 then .next (attEnd (calDone (onAcc (fun x =>
            { x with calRun := x.calRun.map (fun r => if r.meas.length ≤ r.runs then { r with meas := [] } else r) }) s)))
          else .next (onAtt (fun a => { a with planFn := none, step := 255, first := s.fn + 1 }) (onAcc (fun x => { x with calRun := x.calRun.map (fun r => { r with runs := r.runs + 1 }) }) s))
      else if (resweepIndex s a).isSome then .next s
      else .next (decide_ a s)

/-- RESWEEP_START: an addressed re-sweep starts at the first frame boundary after the REPLY step (R516). -/
def execResweepStart (s : State) : Host.Outcome State Fault Refusal :=
  match s.acc.att with
  | none => .next s
  | some a =>
    match resweepIndex s a, s.hearthUp with
    | some i, true =>
      let s := lfQuiet (advTo a.stepEnd s)
      let ahead := cdiv (sx 48 (s.tbNow - s.clk.frameTb).toNat).toNat 50000
      .next (onAtt (fun a =>
        { a with plan := afRs s.acc.cfg, planFn := some (s.fn + BitVec.ofNat 32 ahead), step := 255, target := i, tried := a.tried ++ [i], sweep := a.sweep + 1, void := 0 }) s)
    | _, _ => .next s

/-- PRESENCE_POLL: every POLL_S seconds of an LF authorisation (R529). -/
def execPresencePoll (s : State) : Host.Outcome State Fault Refusal :=
  let m := s.acc.immo
  let c := s.acc.cfg
  if m.st ≠ 0 && m.lfIndex ≠ 255 && s.hearthUp then
    let s := onImmo (fun m => { m with pollNext := m.pollNext + secTicks (afPollS c) }) (advTo m.pollNext s)
    if s.acc.att.isNone && planUsable s.sched.img s.com.mode c 1 (afPoll c) then
      .next (onAcc (fun a => { a with att := some { Attempt.initial with kind := 1, first := s.fn + 1, plan := afPoll c } }) s)
    else .next s
  else .next s

/-! ### Calibration (R510, R511) -/

/-- Nothing of Newt runs that a calibration must wait for. -/
def accIdle (s : State) : Bool := s.acc.att.isNone && s.acc.calRun.isNone && s.acc.exch.isEmpty

/-- CAL_REPEAT: the loopback measurement is taken again every CAL_PERIOD minutes. -/
def execCalRepeat (s : State) : Host.Outcome State Fault Refusal :=
  let c := s.acc.cfg
  if afCalPeriod c ≠ 0 && !(afRef c) && accIdle s && s.hearthUp then
    let s := advTo s.acc.calNext s
    .next (onAcc (fun a => { a with calNext := a.calNext + secTicks (60 * afCalPeriod c), uhfCal := true,
                                    calRun := some { ctx := 0, seq := 0, reference := none, meas := [], runs := 0 } }) s)
  else .next s

/-- LOOPBACK_MEASUREMENT: one measurement, in units of 10 ns; the 64th completes the calibration. -/
def execLoopbackMeasurement (d : Int) (s : State) : Host.Outcome State Fault Refusal :=
  match s.acc.calRun with
  | some r =>
    if r.reference.isSome then .next s
    else
      let s := onAcc (fun a => { a with calRun := some { r with meas := r.meas ++ [d] } }) s
      if 63 ≤ r.meas.length then .next (calDone s) else .next s
  | none => .next s

/-! ### Locks in time (R523) -/

/-- LOCK_EXPIRY of a path or identity. -/
def execLockExpiry (kind id : Nat) (s : State) : Host.Outcome State Fault Refusal :=
  match (s.lock kind id).lockEnd with
  | some e => .next (onLock kind id (fun k => { k with lockEnd := none }) (advTo e s))
  | none => .next s

/-- LOCK_REPEAT_RESET: 60 minutes without a failure of an identity. -/
def execLockRepeatReset (kind id : Nat) (s : State) : Host.Outcome State Fault Refusal :=
  let k := s.lock kind id
  match k.lastFail with
  | some t => if 2 ≤ kind && k.repeats ≠ 0 then .next (onLock kind id (fun k => { k with repeats := 0 }) (advTo (t + secTicks 3600) s)) else .next s
  | none => .next s

/-! ### What other events do to Newt -/

/-- A mode switch whose new mode does not hold the plan in progress ends it at the end of the step in progress (R195, R519), or at once between steps. -/
def accModeSwitch (old new : Nat) (s : State) : State :=
  match s.acc.att with
  | some a =>
    let ent (m : Nat) : List Rec := (lfEntries s.sched.img m a.plan).map (fun e => isub e.1 e.2 8)
    if a.planFn.isSome && ent old ≠ ent new then
      if a.step = 255 || isPast s.tbNow a.stepEnd then attAbort 4 s else onAtt (fun a => { a with abort := 4 }) s
    else s
  | none => s

/-- At tick 0 of a frame: a step that has ended drives nothing, an attempt whose CONFIRM has ended or that a mode switch ends with its step is over. -/
def accFrameStart (s : State) : State :=
  match s.acc.att with
  | some a =>
    let past := a.step ≠ 255 && isPast s.tbNow a.stepEnd
    let s := if past then onAcc (fun x => { x with lfOn := 0, lfTele := [], uhfEn := false }) s else s
    if past && a.decided.isSome then attEnd s else if past && a.abort ≠ 0 then attAbort a.abort s else s
  | none => if s.acc.lfOn = 0 then s else lfQuiet s

/-- A Hearth start (R519, R522, R525, R529): attempts, exchanges and authorisation are gone; what is to be told waits for the rejoin. -/
def accStart (s : State) : State :=
  let a := s.acc
  let late := match [a.att, a.wait].findSome? (fun x => x.filter (fun t => t.kind = 0 && t.decided.isNone)) with
    | some t => some (decEntry 1 5 6 t.mask 255 255 7 t.sweep t.valid.length t.reqId.toNat s.tbNow)
    | none => a.late
  onAcc (fun a => { a with att := none, wait := none, exch := [], calRun := none, immo := .initial, late := late, immoLate := a.immoLate || decide (a.immo.st ≠ 0),
                           uhfEn := false, uhfCal := false, lfOn := 0, lfTele := [] }) s

/-- After the rejoin, the decision and the end of authorisation of a restart are told. -/
def accRejoined (s : State) : State :=
  let s := match s.acc.late with | some e => accDecision e (onAcc (fun a => { a with late := none }) s) | none => s
  let s := if s.acc.immoLate then immoEvent 3 3 (onAcc (fun a => { a with immoLate := false }) s) else s
  if s.acc.trigWait then accTrigger (onAcc (fun a => { a with trigWait := false }) s) else s

/-- After an Anvil power-on reset every lock in force has its full duration again (R525); the clock its failures were stamped by is gone. -/
def accPor (s : State) : State :=
  let re (k : LockRec) : LockRec := { k with lockEnd := if lockedAt k s.tbNow then some (secTicks k.dur) else none, fails := k.fails.map (fun _ => 0), lastFail := k.lastFail.map (fun _ => 0) }
  onAcc (fun a => { a with locks := a.locks.map (fun e => (e.1, re e.2)), trigWait := false }) s

end Sys2Proof.Machine
end

