-- ==== Sys2Proof/Machine/AccessCmds.lean ====
section
/-! DEFINITION. The opcodes of Newt and the phone path (15_access_immobiliser R520 to R522, R533). -/

namespace Sys2Proof.Machine

/-- DENIED for a context outside NOTIFY_CTX. -/
def inNotify (r : Req) (s : State) : Option (Status × Nat) := if afNotify s.acc.cfg r.h.ctx then none else some (.denied, 0xFFFF)
/-- DENIED for a context without the ACCESS attribute. -/
def hasAccess (r : Req) (s : State) : Option (Status × Nat) := if ctxAccess (s.cx r.h.ctx) then none else some (.denied, 0xFFFF)

def accRes (s : State) : Res := { st := s, status := .ok, detail := 0, data := [] }

/-- The plans a record names are usable in the active mode (R504). -/
def plansOk (s : State) (c : Rec) : Bool :=
  let u := planUsable s.sched.img s.com.mode c
  afVid c = 0 || (u 0 (afLf c) && u 1 (afPoll c) && (!(afRsEn c) || u 2 (afRs c)))

/-- ACC_CONFIG (R499): refused while anything runs, with an unusable plan, or with an unusable pairing or ranging slot. -/
def accConfigSpec : OpSpec :=
  { code := 0x8000, kind := .commit, solo := true, data := false, units := noUnits, priv := 2, access := noAccess, okLen := lenIs 40,
    resv := fun _ => [(7, 1, 0xC0)] ++ (List.range 8).map (fun a => (10 + a, 1, 0xC0)) ++ [(19, 1, 0xC0), (24, 1, 0xF0), (26, 2, 0xF800), (30, 2, 1), (33, 7, 2 ^ 56 - 1)],
    range := fun r _ =>
      let c := r.b
      firstBad [(24, decide (200 ≤ afDelay c ∧ afDelay c ≤ 2000)), (34, decide (afTrig c < 96)), (36, decide (1 ≤ afPollS c ∧ afPollS c ≤ 5)),
        (37, decide (5 ≤ afAbsent c ∧ afAbsent c ≤ 60)), (38, decide (20 ≤ afPeriod c ∧ afPeriod c ≤ 500)), (41, decide (1 ≤ afMaxDist c)),
        (42, decide (afImmoId c ≤ 0x7FC)), (44, decide (afPair c < unitCount 6)), (45, decide (afModule c < unitCount 6))],
    check := fun r s =>
      if attRuns s || !s.acc.exch.isEmpty || s.acc.immo.st ≠ 0 then some (.state, 0x17)
      else if !(plansOk s r.b) then some (.schedule, noEntry s 5)
      else if afVid r.b = 0 then none
      else if !(keyOk s (afPair r.b) [1, 2] 4) then some (.key, afPair r.b)
      else if !(keyOk s (afModule r.b) [1, 2] 3) then some (.key, afModule r.b)
      else none,
    anvil := notAnvil, recs := fun _ _ => 0, maxData := fun _ => 0,
    run := fun r s => accRes (onAcc (fun a => { a with cfg := r.b, calNext := s.tbNow + secTicks (60 * afCalPeriod r.b) }) s) }

/-- ACC_START (R512, R524, R531). -/
def accStartSpec : OpSpec :=
  { code := 0x8001, kind := .commit, solo := false, data := false, units := noUnits, priv := 1, access := inNotify, okLen := lenIs 4,
    resv := fun _ => [(1, 3, 0xFFFFFF)], range := fun r _ => if rd r.b 0 1 < 64 then none else some 16,
    check := fun r s =>
      if s.isLocked 0 0 then some (.locked, lockSec (s.lock 0 0) s.tbNow)
      else match mergeable s r.eff with
        | some a => if a.reqId = 0xFFFFFFFF then accRefuses s s.com.mode else some (.busy, 0)
        | none => if attRuns s then some (.busy, 0) else accRefuses s s.com.mode
    anvil := toAnvil, recs := fun _ _ => 0, maxData := fun _ => 0,
    run := fun r s =>
      let m := rd r.b 0 1
      let host (a : Attempt) : Attempt := { a with mask := a.mask ||| m, reqId := r.h.seq.zeroExtend 32, reqCtx := r.h.ctx, reqSeq := r.h.seq }
      let s' := if (mergeable s r.eff).isSome then attMerge host s else attPlace (host { Attempt.initial with first := r.eff, plan := afLf s.acc.cfg }) s
      { st := s', status := .pending, detail := 0, data := [] } }

/-- ACC_CALIBRATE (R510): 64 loopback measurements, or LF_PLAN sixteen times with a reference token. -/
def accCalibrateSpec : OpSpec :=
  { code := 0x8002, kind := .now, solo := true, data := false, units := noUnits, priv := 1, access := noAccess, okLen := lenIs 4,
    resv := fun _ => [(2, 2, 0xFFFF)], range := noRange,
    check := fun _ s =>
      if attRuns s || !(accIdle s) then some (.busy, 0)
      else if afRef s.acc.cfg && !(planUsable s.sched.img s.com.mode s.acc.cfg 0 (afLf s.acc.cfg)) then some (.schedule, noEntry s 5) else none
    anvil := toAnvil, recs := fun _ _ => 0, maxData := fun _ => 0,
    run := fun r s =>
      let ref := afRef s.acc.cfg
      let run : CalRun := { ctx := r.h.ctx, seq := r.h.seq, reference := if ref then some (sx 16 (rd r.b 0 2)) else none, meas := [], runs := 0 }
      let s := onAcc (fun a => { a with calRun := some run, uhfCal := !ref }) s
      let s := if ref then onAcc (fun a => { a with att := some { Attempt.initial with kind := 2, first := s.fn + 1, plan := afLf s.acc.cfg } }) s else s
      { st := s, status := .pending, detail := 0, data := [] } }

/-! ### The phone path (R520 to R522) -/

def exchDef : Nat → Option Exch := fun _ => none
def State.exch (s : State) (e : Nat) : Option Exch := tget exchDef s.acc.exch e
def setExch (e : Nat) (x : Option Exch) (s : State) : State := onAcc (fun a => { a with exch := tput exchDef a.exch e x }) s

/-- ACC_PH_HELLO: an exchange opens with an ephemeral pair and a nonce of the device. DEDUCED (log 39): with VID 0, Newt disabled (R499), it is refused as ACC_START is. -/
def accHelloSpec : OpSpec :=
  { code := 0x8003, kind := .now, solo := true, data := true, units := noUnits, priv := 1, access := hasAccess, okLen := lenIs 84,
    resv := fun _ => [(0, 1, 0xFC), (3, 1, 0xC0)],
    range := fun r _ => firstBad [(17, decide (rd r.b 1 1 < unitCount 6)), (18, decide (1 ≤ rd r.b 2 1 ∧ rd r.b 2 1 ≤ 3)),
      (20, onCurve (beNat (sub r.b 4 32), beNat (sub r.b 36 32)))],
    check := fun r s =>
      let cred := rd r.b 1 1
      if s.pwr.padsHeld then some (.state, 0x1E)
      else if afVid s.acc.cfg = 0 then some (.state, 0)
      else if s.isLocked 1 0 then some (.locked, lockSec (s.lock 1 0) s.tbNow)
      else if s.isLocked 3 cred then some (.locked, lockSec (s.lock 3 cred) s.tbNow)
      else if (s.exch (rd r.b 0 1)).isSome then some (.busy, 0)
      else if keyOk s cred [4] 5 then none else some (.key, cred)
    anvil := notAnvil, recs := fun _ _ => 0, maxData := fun _ => 88,
    run := fun r s =>
      let d := s.randScalar
      let s := useFree s
      let nD := sub (Config.random s.free 16) 0 16
      let s := useFree s
      let qD := publicKey d
      let qP := sub r.b 4 64
      let h := sha256 (le 4 (afVid s.acc.cfg) ++ sub r.b 1 1 ++ qP ++ sub r.b 68 16 ++ qD ++ nD ++ sub r.b 2 1 ++ sub r.b 3 1)
      let z := (pointOctets (ecMul 256 d (some (beNat (sub r.b 4 32), beNat (sub r.b 36 32))))).take 32
      let x : Exch := { cred := rd r.b 1 1, action := rd r.b 2 1, mask := rd r.b 3 1, reqSeq := r.h.seq, h := h, nD := nD,
                        kPh := (sha256 (z ++ h ++ ascii "TZPH")).take 16, chalTb := s.tbNow }
      { st := setExch (rd r.b 0 1) (some x) s, status := .ok, detail := 0, data := qD ++ nD ++ le 6 s.tbNow.toNat ++ [0, 0] } }

/-- The attestation's MAC under MODULE_SLOT (R521): whether the slot may serve, and whether the MAC verifies. -/
def attestMac (s : State) (b : Rec) : Bool × Bool :=
  let n := afModule s.acc.cfg
  let ok := keyOk s n [1, 2] 3
  (ok, ok && sub b 96 16 = cmac (kyMat (s.key n).rec_) (ascii "RNG" ++ sub b 68 16 ++ sub b 84 2 ++ sub b 86 1 ++ sub b 88 6))

/-- The measurement is at most 250 ms old. -/
def measFresh (s : State) (b : Rec) : Bool := decide ((s.tbNow - BitVec.ofNat 48 (rd b 88 6)).toNat ≤ 12500000)

/-- ZONE of an attestation is a zone or OUT: 6 is no zone. -/
def zoneRange (b : Rec) : Option Nat := firstBad [(102, decide (rd b 86 1 ≠ 6))]

def responseResv : List (Nat × Nat × Nat) := [(0, 1, 0xFC), (1, 3, 0xFFFFFF), (86, 1, 0xF8), (87, 1, 0xFF), (94, 2, 0xFFFF)]

/-- A phone exchange is decided: told, erased, and MAC_D of its reply. DEDUCED (log 39): the DECISION under MAC_D is the octet of the entry, as under MAC_V (R502). -/
def phoneDecide (ex : Nat) (x : Exch) (dec cause zone : Nat) (seq : BitVec 16) (s : State) : State × Rec :=
  let g := if dec = 1 then 254 else 255
  let e := decEntry 2 dec cause x.mask g g (if dec = 1 then zone else 7) 0 0 seq.toNat s.tbNow
  (accDecision e (setExch ex none s), e ++ (cmac x.kPh (x.h ++ [BitVec.ofNat 8 dec])))

/-- ACC_PH_RESPONSE (R521). -/
def accResponseSpec : OpSpec :=
  { code := 0x8004, kind := .now, solo := true, data := true, units := noUnits, priv := 1, access := hasAccess, okLen := lenIs 112, resv := fun _ => responseResv,
    range := fun r _ => zoneRange r.b, check := fun r s => if (s.exch (rd r.b 0 1)).isNone then some (.state, 0) else none, anvil := notAnvil, recs := fun _ _ => 0, maxData := fun _ => 36,
    run := fun r s =>
      let ex := rd r.b 0 1
      match s.exch ex with
      | none => accRes s
      | some x =>
        let late := decide (1500000 < (s.tbNow - x.chalTb).toNat)
        let credOk := keyServes s x.cred [4] 5
        let sigOk := credOk && (match kyPoint (s.key x.cred).rec_ with | some q => ecdsaVerify q x.h (sub r.b 4 64) | none => false)
        let m := attestMac s r.b
        let nonceOk := sub r.b 68 16 = x.nD
        let young := measFresh s r.b
        let s := if m.1 then takeUse (afModule s.acc.cfg) s else s
        let s := if late then raise 0x142 1 s else s
        let zone := rd r.b 86 1
        let out :=
          if late || !sigOk || !m.2 || !nonceOk || !young then
            phoneDecide ex x 2 (if !credOk || !m.1 then 2 else 0) zone r.h.seq (accFail 1 (some (3, x.cred)) s)
          else if 10 * afMaxDist s.acc.cfg < rd r.b 84 2 then phoneDecide ex x 2 3 zone r.h.seq (accValid 3 x.cred s)
          else if !(bit x.mask zone || (x.action = 2 && zone = 0)) then phoneDecide ex x 2 1 zone r.h.seq (accValid 3 x.cred s)
          else
            let y := phoneDecide ex x 1 0 zone r.h.seq (takeUse x.cred (accValid 3 x.cred s))
            if x.action = 2 && zone = 0 then
              (immoBegin (onImmo (fun m => if m.st = 0 && !(lfStands y.1) then { m with phone := some (s.tbNow, x.nD), index := 254, profile := 254 }
                else { m with phone := some (s.tbNow, x.nD) }) y.1), y.2)
            else y
        { st := out.1, status := .ok, detail := 0, data := out.2 } }

/-- ACC_PH_PRESENCE (R529): an attestation with zone CABIN refreshes a phone authorisation. -/
def accPresenceSpec : OpSpec :=
  { code := 0x8005, kind := .now, solo := true, data := false, units := noUnits, priv := 1, access := hasAccess, okLen := lenIs 112,
    resv := fun _ => responseResv ++ [(4, 64, 2 ^ 512 - 1)], range := fun r _ => zoneRange r.b,
    check := fun _ s => if s.acc.immo.phone.isNone || s.acc.immo.st = 0 then some (.state, 0) else none, anvil := notAnvil, recs := fun _ _ => 0, maxData := fun _ => 0,
    run := fun r s =>
      let m := attestMac s r.b
      let nD := match s.acc.immo.phone with | some (_, n) => n | none => []
      let ok := m.2 && sub r.b 68 16 = nD && measFresh s r.b && decide (rd r.b 84 2 ≤ 10 * afMaxDist s.acc.cfg) && rd r.b 86 1 = 0
      let s := if m.1 then takeUse (afModule s.acc.cfg) s else s
      { st := if ok then onImmo (fun m => { m with phone := m.phone.map (fun p => (s.tbNow, p.2)) }) s else s, status := if ok then .ok else .verify,
        detail := 0, data := [] } }

/-- PHONE_EXCHANGE_TIMEOUT: no response 30 ms after CHAL_TB (R522). -/
def execPhoneExchangeTimeout (e : Nat) (s : State) : Host.Outcome State Fault Refusal :=
  match s.exch e with
  | none => .next s
  | some x =>
    let s := advTo (x.chalTb + msTicks 30) s
    .next (phoneDecide e x 2 0 7 x.reqSeq (accFail 1 (some (3, x.cred)) s)).1

/-- A context reset of the ACCESS context ends its exchanges as ABORTED (R522). -/
def accCtxReset (s : State) : State :=
  s.acc.exch.foldl (fun s e => match e.2 with | some x => (phoneDecide e.1 x 5 0 7 x.reqSeq s).1 | none => s) s

/-! ### Immobiliser and the rest (R526, R530, R533) -/

def immoOff (_ : Req) (s : State) : Option (Status × Nat) := if afVid s.acc.cfg = 0 then some (.state, 0) else none

/-- IMMO_START (R526, R531): a start request; without an authorised path it starts an attempt for CABIN where one may run. -/
def immoStartSpec : OpSpec :=
  { code := 0x8006, kind := .commit, solo := false, data := false, units := noUnits, priv := 1, access := noAccess, okLen := lenIs 4,
    resv := fun _ => [(0, 4, 0xFFFFFFFF)], range := noRange, check := immoOff, anvil := notAnvil, recs := fun _ _ => 0, maxData := fun _ => 0,
    run := fun r s =>
      if s.acc.immo.st ≠ 0 then accRes s
      else
        let s := onImmo (fun m => { m with start := true }) s
        if lfStands s || phoneStands s then accRes (immoBegin s)
        else if attRuns s || s.isLocked 0 0 || (accRefuses s s.com.mode).isSome || s.link.lost || s.rejoining then accRes s
        else accRes (attPlace { Attempt.initial with mask := 1, start := true, reqId := r.h.seq.zeroExtend 32, first := r.eff, plan := afLf s.acc.cfg } s) }

def immoRevokeSpec : OpSpec :=
  { immoStartSpec with
    code := 0x8007, access := fun r s => if ctxPriv (s.cx r.h.ctx) = 2 then none else inNotify r s
    run := fun _ s => accRes (immoEnd 2 s) }

def accStatusSpec : OpSpec := readSpec 0x8008 0 0 [] noCheck 26 (fun _ s =>
    let t := s.clk.frameTb
    let a := s.acc
    let l := lockSec (s.lock 0 0) t
    let p := lockSec (s.lock 1 0) t
    [BitVec.ofNat 8 (b2n (attRuns s) + 2 * b2n (decide (a.immo.st ≠ 0)) + 4 * b2n (decide (l ≠ 0)) + 8 * b2n (decide (p ≠ 0))), BitVec.ofNat 8 a.fault]
      ++ le 2 (a.cal.getD 0) ++ le 2 l ++ le 2 p ++ le 4 a.immo.cnt ++ le 4 a.trigIgnored.toNat ++ le 4 a.decisions.toNat ++ le 4 a.failures.toNat)

/-- ACC_CLEAR (R506). -/
def accClearSpec : OpSpec :=
  { code := 0x8009, kind := .commit, solo := false, data := false, units := noUnits, priv := 1, access := noAccess, okLen := lenIs 4,
    resv := fun _ => [(1, 3, 0xFFFFFF)], range := noRange, check := noCheck, anvil := notAnvil, recs := fun _ _ => 0, maxData := fun _ => 0,
    run := fun r s => accRes (onAcc (fun a => { a with fault := clrMask a.fault (rd r.b 0 1) }) s) }

/-- KIND is a path or an identity; the ID of a credential slot names a slot of the part (R2). -/
def lockRange (b : Rec) : Option Nat := firstBad [(16, decide (rd b 0 1 ≤ 3)), (20, decide (rd b 0 1 ≠ 3) || decide (rd b 4 4 < unitCount 6))]

/-- ACC_LOCK_CLEAR (R525). -/
def accLockClearSpec : OpSpec :=
  { code := 0x800A, kind := .commit, solo := false, data := false, units := noUnits, priv := 2, access := noAccess, okLen := lenIs 8,
    resv := fun _ => [(1, 3, 0xFFFFFF)], range := fun r _ => lockRange r.b, check := noCheck, anvil := notAnvil, recs := fun _ _ => 0, maxData := fun _ => 0,
    run := fun r s => accRes (onLock (rd r.b 0 1) (rd r.b 4 4) (fun _ => LockRec.initial) s) }

def accLockStatusSpec : OpSpec :=
  { readSpec 0x800B 0 8 [(1, 3, 0xFFFFFF)] noCheck 4 (fun r s =>
      let k := s.lock (rd r.b 0 1) (rd r.b 4 4)
      le 2 (lockSec k s.clk.frameTb) ++ [BitVec.ofNat 8 (min 255 k.repeats), BitVec.ofNat 8 k.fails.length]) with
    range := fun r _ => lockRange r.b }

end Sys2Proof.Machine
end

