-- ==== Sys2Proof/Machine/Flit.lean ====
section
/-! DEFINITION. A Tongs flit as its 256 bits (R29), its CRC (R30), and the order in which waiting flits are sent (R36). -/

namespace Sys2Proof.Machine

/-! ### Layout and CRC (R29, R30) -/

/-- The fields of a flit but its CRC (R29). -/
structure Flit where
  epochLo : BitVec 4
  seq : BitVec 8
  typ : BitVec 4
  payload : BitVec 224
deriving DecidableEq, Repr

/-- Bits [239:0], numbered from the first transmitted bit. -/
def flitHead (f : Flit) : BitVec 240 := f.payload ++ f.typ ++ f.seq ++ f.epochLo

/-- One transmitted bit enters the CRC register: generator 8BB7h. -/
def flitCrcBit (c : Nat) (b : Bool) : Nat :=
  let c' := (2 * c) % 65536
  if decide (32768 ≤ c) != b then c' ^^^ 0x8BB7 else c'

/-- The CRC over bits [239:0]: the register starts at FFFFh, no final inversion. -/
def flitCrc (h : BitVec 240) : BitVec 16 := BitVec.ofNat 16 ((List.range 240).foldl (fun c i => flitCrcBit c (h.getLsbD i)) 0xFFFF)

/-- A flit as it is transmitted, its CRC in bits [255:240]. -/
def flitBits (f : Flit) : BitVec 256 := flitCrc (flitHead f) ++ flitHead f

def flitHeadOf (w : BitVec 256) : BitVec 240 := w.extractLsb' 0 240
/-- The CRC of a received flit matches. -/
def flitCrcOk (w : BitVec 256) : Bool := w.extractLsb' 240 16 = flitCrc (flitHeadOf w)

/-- A received flit by its fields, where its CRC matches. -/
def flitOf (w : BitVec 256) : Option Flit :=
  if flitCrcOk w then
    some { epochLo := w.extractLsb' 0 4, seq := w.extractLsb' 4 8, typ := w.extractLsb' 12 4, payload := w.extractLsb' 16 224 }
  else none

/-- TYPE Eh and Fh are reserved: such a flit is discarded on receipt. -/
def flitReserved (f : Flit) : Bool := decide (14 ≤ f.typ.toNat)

/-! ### Lanes and directions (R31, R39, R40) -/

def State.dir (s : State) (toAnvil : Bool) : Dir := if toAnvil then s.link.h2a else s.link.a2h
def onDir (toAnvil : Bool) (f : Dir → Dir) (s : State) : State := onLink (fun l => if toAnvil then { l with h2a := f l.h2a } else { l with a2h := f l.a2h }) s

/-- One lane of a direction works. -/
def dirUp (d : Dir) : Bool := !(d.failed0 && d.failed1)
/-- Hearth is powered and out of reset, so that Tongs runs. -/
def State.linkOn (s : State) : Bool := s.hearthUp && s.pwr.state ≠ 4

/-- Where Anvil takes its tick from (R40): the clock recovered from Tongs while one lane toward Anvil works, else its own oscillator. -/
def clockSource (s : State) : State := onLink (fun l => { l with anvilLocalClk := !(s.linkOn && dirUp l.h2a && s.pwr.xtal25) }) s

/-! ### The order of sending (R36) -/

/-- The place of a fresh flit of a TYPE in the order of R36. -/
def flitRank (typ : Nat) : Nat :=
  if typ = 0xD then 0 else if typ = 0xB then 1 else if typ = 4 then 3 else if typ = 7 || typ = 8 then 4 else if typ = 1 then 5 else if typ = 9 || typ = 0xA then 6
  else if typ = 2 then 7 else if typ = 3 then 8 else if typ = 5 then 9 else 10

/-- The places of the flits that wait to be sent in a direction. EVENT, SAMPLE and MSG flits that wait are no state of the block. -/
def State.flitsWaiting (s : State) (toAnvil : Bool) : List Nat :=
  let l := s.link
  let one (b : Bool) (k : Nat) : List Nat := if b then [k] else []
  one (s.dir (!toAnvil)).nak.isSome 1 ++ one (!(s.dir toAnvil).replay.isEmpty) 2
    ++ (if toAnvil then one (!s.flt.heldReq.isEmpty) 0 ++ one (l.rejoin = .waiting) 4 ++ one (l.block = .waiting) 5 ++ one (l.dumpReq = .waiting) 6
        else one (l.reject = .waiting) 4 ++ one l.dump.isSome 6 ++ one (l.report = .waiting) 7)

/-- The flit with sequence number `q` is the next to be replayed. -/
def replays (d : Dir) (q : BitVec 8) : Bool := match d.replay with | (r, _) :: _ => q = r | [] => false

/-- A flit may leave: it is the next to be replayed or carries the next SEQ, and no flit of a higher place waits. -/
def State.mayLeave (s : State) (toAnvil : Bool) (q : BitVec 8) (typ : Nat) : Bool :=
  let d := s.dir toAnvil
  let rank := if replays d q then min 2 (flitRank typ) else flitRank typ
  (replays d q || q = d.tx) && (s.flitsWaiting toAnvil).all (fun k => decide (rank ≤ k))

/-- A waiting flit of a TYPE has taken its position. -/
def Due.leave (d : Due) : Due := if d = .waiting then .sent else d
def flitLeft (toAnvil : Bool) (typ : Nat) (s : State) : State :=
  let s := if typ = 0xB then onDir (!toAnvil) (fun d => { d with nak := none }) s else s
  if toAnvil then
    if typ = 7 then onLink (fun l => { l with rejoin := l.rejoin.leave }) s
    else if typ = 9 then onLink (fun l => { l with dumpReq := l.dumpReq.leave }) s else s
  else if typ = 8 then onLink (fun l => { l with reject := l.reject.leave }) s
  else if typ = 2 then onLink (fun l => { l with report := l.report.leave }) s else s

end Sys2Proof.Machine
end

