-- ==== Sys2Proof/Machine/Cesyn.lean ====
section
/-! DEFINITION. The Cesyn instruction set (12_cesyn_cores R399 to R420): data address space, registers, addressing, instructions, ending traps. -/

namespace Sys2Proof.Machine

/-- What an instruction does: the core after it, its cycles, the address it goes on at, whether it follows in sequence, the trap it raises. -/
structure Eff where
  core : Core
  cycles : Nat
  next : BitVec 16
  seq : Bool
  trap : Option Nat

/-- Trap causes (R418). -/
def trapBudget : Nat := 1
def trapIllegal : Nat := 2
def trapStack : Nat := 3
def trapAddr : Nat := 4
def trapEcc : Nat := 5

/-! ### Status (R402) -/
def stBit (k : Core) (i : Nat) : Bool := k.st.getLsbD i
def setSt (i : Nat) (v : Bool) (k : Core) : Core := { k with st := if v then k.st ||| BitVec.ofNat 24 (2 ^ i) else k.st &&& ~~~(BitVec.ofNat 24 (2 ^ i)) }
def fC : Nat := 0
def fV : Nat := 1
def fZ : Nat := 2
def fN : Nat := 3
def fL : Nat := 4
def fSat : Nat := 5
def fRes : Nat := 6
def fLoop : Nat := 7

/-! ### Registers (R402, R403) -/
def aDef : Nat → BitVec 56 := fun _ => 0
def pDef : Nat → BitVec 17 := fun _ => 0
def Core.acc (k : Core) (a : Nat) : BitVec 56 := tget aDef k.a (a % 4)
def Core.dr (k : Core) (n : Nat) : W24 := tget wordDef k.d (n % 8)
def Core.ptr (k : Core) (n : Nat) : BitVec 17 := tget pDef k.p (n % 8)
def Core.modr (k : Core) (n : Nat) : W24 := tget wordDef k.n (n % 8)
def Core.lenr (k : Core) (n : Nat) : W24 := tget wordDef k.m (n % 8)
def setA (a : Nat) (v : BitVec 56) (k : Core) : Core := { k with a := tput aDef k.a (a % 4) v }
def setD (n : Nat) (v : W24) (k : Core) : Core := { k with d := tput wordDef k.d (n % 8) v }
def setP (n : Nat) (v : BitVec 17) (k : Core) : Core := { k with p := tput pDef k.p (n % 8) v }

/-- The guard bits of an accumulator are not the sign extension of bit 47 (R405). -/
def guardOvf (v : BitVec 56) : Bool := decide (v ≠ (v.truncate 48).signExtend 56)

/-- The value a register code reads, and the core after it: a saturated read of AaH sets L (R403, R405). None for a reserved code. -/
def regRead (k : Core) (code : Nat) : Option (W24 × Core) :=
  let n := code % 8
  if code < 8 then some (k.dr n, k)
  else if code < 16 then some ((k.ptr n).zeroExtend 24, k)
  else if code < 24 then some (k.modr n, k)
  else if code < 32 then some (k.lenr n, k)
  else if code < 36 then
    let v := k.acc (code % 4)
    if stBit k fSat && guardOvf v then some (if v.msb then 0x800000 else 0x7FFFFF, setSt fL true k) else some ((v >>> 24).truncate 24, k)
  else if code < 40 then some ((k.acc (code % 4)).truncate 24, k)
  else if code < 44 then some ((((k.acc (code % 4)) >>> 48).truncate 8).signExtend 24, k)
  else if code = 44 then some (k.sp.zeroExtend 24, k)
  else if code = 45 then some (k.st, k)
  else if code = 46 then some (k.lc.zeroExtend 24, k)
  else if code = 47 then some (k.ls.zeroExtend 24, k)
  else if code = 48 then some (k.le_.zeroExtend 24, k)
  else if code = 49 then some (k.rc, k)
  else if code = 50 then some (k.sb.zeroExtend 24, k)
  else if code = 51 then some (k.amc, k)
  else none

/-- A write of 24 bits to a register code (R403); none where the code is reserved or AMC would take a reserved bit (R407). -/
def regWrite (k : Core) (code : Nat) (v : W24) : Option Core :=
  let n := code % 8
  if code < 8 then some (setD n v k)
  else if code < 16 then some (setP n (v.truncate 17) k)
  else if code < 24 then some { k with n := tput wordDef k.n n v }
  else if code < 32 then some { k with m := tput wordDef k.m n v }
  else if code < 36 then some (setA (code % 4) ((v.signExtend 32 ++ (0 : BitVec 24)).truncate 56) k)
  else if code < 40 then some (setA (code % 4) ((((k.acc (code % 4)) >>> 24).truncate 32 ++ v).truncate 56) k)
  else if code < 44 then some (setA (code % 4) ((v.truncate 8 ++ (k.acc (code % 4)).truncate 48).truncate 56) k)
  else if code = 44 then some { k with sp := v.truncate 17 }
  else if code = 45 then some { k with st := v &&& 0xFF }
  else if code = 46 then some { k with lc := v.truncate 16 }
  else if code = 47 then some { k with ls := v.truncate 16 }
  else if code = 48 then some { k with le_ := v.truncate 16 }
  else if code = 49 then some { k with rc := v }
  else if code = 50 then some { k with sb := v.truncate 17 }
  else if code = 51 then (if 65536 ≤ v.toNat then none else some { k with amc := v })
  else none

/-! ### Queue ports (R430, R431) -/
def portDef : Nat → Port := fun _ => Port.initial
def Core.port (k : Core) (p : Nat) : Port := tget portDef k.ports p
def onPort (p : Nat) (f : Port → Port) (k : Core) : Core := { k with ports := tmod portDef k.ports p f }

/-- TAG of a cell (R430). -/
def tagOf (c : Cell) : W24 := BitVec.ofNat 24 (c.kind + 8 * b2n c.first + 16 * b2n c.last + 64 * (c.fill % 64) + 4096 * (c.admFn.toNat % 4096))
/-- STATUS of a port (R430). -/
def portStatus (x : Port) : W24 :=
  let left := x.view.length - x.read
  let inc := match x.view.getLast? with | some c => !c.last | none => false
  BitVec.ofNat 24 (b2n x.q.isSome + 2 * b2n (x.q.isSome && x.producer) + 4 * b2n (left = 0) + 8 * b2n (inc && left = 0) + 16 * b2n x.full + 32 * b2n x.mark.isSome
    + 64 * b2n x.lastOk + 4096 * min left 4095)

/-- The entry boundary that RELEASE reaches: the greatest within what the task has read, and within the mark while one is set (R431, R132). -/
def portBoundary (x : Port) : Nat :=
  let lim := match x.mark with | some m => min m x.read | none => x.read
  (((x.view.take lim).reverse).dropWhile (fun c => !c.last)).length

/-- A CMD write (R431): `lim` the LIMIT of the bound queue, `fn` the frame. What R131, R132 or R143 would refuse leaves LAST_OK at 0. -/
def portCmd (lim cmd : Nat) (fn : Fn) (x : Port) : Port :=
  let no := { x with lastOk := false }
  if x.q.isNone then no
  else if cmd = 2 then
    if !x.producer then no
    else
      let t := x.tag.toNat
      let c : Cell := { kind := t % 8, first := bit t 3, last := bit t 4, fill := bits t 6 6, admFn := fn.truncate 16,
                        data := (List.range 16).flatMap (fun i => le 3 (tget wordDef x.cell i).toNat) }
      if lim ≤ x.pushes.length + 1 then { x with full := true, lastOk := true, pushes := x.pushes ++ [c] } else { x with lastOk := true, pushes := x.pushes ++ [c] }
  else if x.producer then no
  else if cmd = 1 then
    match x.view[x.read]? with
    | none => no
    | some c => { x with read := x.read + 1, lastOk := true, tag := tagOf c,
                         cell := (List.range 16).foldl (fun t i => tput wordDef t i (BitVec.ofNat 24 (rd c.data (3 * i) 3))) [] }
  else if cmd = 3 then { x with mark := some x.read, lastOk := true }
  else if cmd = 4 then { x with mark := none, lastOk := true }
  else if cmd = 5 then (match x.mark with | none => no | some m => { x with read := m, lastOk := true })
  else if cmd = 6 then { x with freed := max x.freed (portBoundary x), lastOk := true }
  else no

/-! ### The data address space (R400) -/

/-- What an access needs of the machine besides the core: TB, FN, and LIMIT of the queues bound to ports. -/
structure CoreEnv where
  tb : Tb
  fn : Fn
  lim : Nat → Nat
  fv : Nat
  top : BitVec 17
  budget : Nat

/-- A word read: none where the address is not listed or cannot be read. A read of TBL latches TBH (R208). -/
def dRead (e : CoreEnv) (k : Core) (a : Nat) : Option (W24 × Core) :=
  if a < 0x18000 then some (tget wordDef k.data a, k)
  else if a < 0x19000 then some (tget wordDef k.snap (a - 0x18000), k)
  else if a < 0x1A000 then some (tget wordDef k.stag (a - 0x19000), k)
  else if a < 0x1A100 then
    let x := k.port ((a - 0x1A000) / 32)
    let w := (a - 0x1A000) % 32
    if w < 16 then some (tget wordDef x.cell w, k) else if w = 16 then some (x.tag, k) else if w = 18 then some (portStatus x, k) else none
  else if a = 0x1B000 then some (e.tb.truncate 24, { k with tbh := (e.tb >>> 24).truncate 24 })
  else if a = 0x1B001 then some (k.tbh, k)
  else if a = 0x1B002 then some (k.actFn.truncate 24, k)
  else if a = 0x1B003 then some ((k.actFn >>> 24).truncate 24, k)
  else if a = 0x1B004 then some (k.info, k)
  else none

/-- A word written, with the cycles it adds: none where the address is not listed or is read-only. -/
def dWrite (e : CoreEnv) (k : Core) (a : Nat) (v : W24) : Option (Core × Nat) :=
  if a < 0x18000 then some ({ k with data := tput wordDef k.data a v }, 0)
  else if 0x19000 ≤ a ∧ a < 0x1A000 then
    let o := a - 0x19000
    some ({ k with stag := tput wordDef k.stag o v, marks := if k.marks.contains o then k.marks else k.marks ++ [o] }, 0)
  else if 0x1A000 ≤ a ∧ a < 0x1A100 then
    let p := (a - 0x1A000) / 32
    let w := (a - 0x1A000) % 32
    if w < 16 then some (onPort p (fun x => { x with cell := tput wordDef x.cell w v }) k, 0)
    else if w = 16 then some (onPort p (fun x => { x with tag := v &&& ~~~0x20 }) k, 0)
    else if w = 17 then some (onPort p (fun x => portCmd (match x.q with | some q => e.lim q | none => 0) v.toNat e.fn x) k, 20)
    else none
  else none

/-! ### Addressing (R406 to R409) -/

/-- The low 13 bits in reverse order. -/
def rev13 (v : Nat) : Nat := ((List.range 13).map (fun i => if v.testBit i then 2 ^ (12 - i) else 0)).sum

/-- The least power of two not less than `l`. -/
def pow2ge (l : Nat) : Nat := 2 ^ (((List.range 18).find? (fun k => decide (l ≤ 2 ^ k))).getD 17)

/-- Pn after an update by `step`; `down` for modes 2 and 4. None where the update is illegal. -/
def ptrUpdate (k : Core) (n : Nat) (step : Int) (down : Bool) : Option (BitVec 17) :=
  let p := (k.ptr n).toNat
  let f := bits k.amc.toNat (2 * (n % 8)) 2
  if f = 0 then some (BitVec.ofInt 17 (p + step))
  else if f = 1 then
    let m := (k.lenr n).toNat
    if m < 1 ∨ 0xFFFF < m then none
    else
      let l : Int := m + 1
      let b : Int := p - (p % pow2ge (m + 1))
      some (BitVec.ofInt 17 (b + (p - b + step) % l))
  else if f = 2 then
    if down then none else some (BitVec.ofNat 17 (p / 8192 * 8192 + rev13 ((rev13 (p % 8192) + rev13 ((k.modr n).toNat % 8192)) % 8192)))
  else none

/-- An operand address in one of modes 0 to 4, with the core after the pointer's update. -/
def eaPtr (k : Core) (mode n : Nat) : Option (Nat × Core) :=
  let a := (k.ptr n).toNat
  if mode = 0 then some (a, k)
  else
    let s : Int := if mode = 1 then 1 else if mode = 2 then -1 else if mode = 3 then (k.modr n).toInt else -(k.modr n).toInt
    (ptrUpdate k n s (mode = 2 || mode = 4)).map (fun p => (a, setP n p k))

/-- The address of an ea with its extension word, and the core after the update; none for a reserved ea, an illegal update and the immediate. -/
def eaAddr (k : Core) (ea : Nat) (ext : W24) : Option (Nat × Core) :=
  let n := ea % 8
  let m := ea / 8 % 8
  if m ≤ 4 then eaPtr k m n
  else if m = 5 then some ((k.ptr n + (k.modr n).truncate 17).toNat, k)
  else if m = 6 then some ((k.ptr n + ext.truncate 17).toNat, k)
  else if n = 0 then some (ext.toNat % 131072, k)
  else none

/-- An ea carries an extension word (R414). -/
def eaExt (ea : Nat) : Bool := decide (6 ≤ ea / 8 % 8)

/-! ### Effects -/

def effTrap (k : Core) (t : Nat) : Eff := { core := k, cycles := 0, next := k.pc, seq := false, trap := some t }
/-- An instruction of `w` words that follows in sequence. -/
def effSeq (k : Core) (w cycles : Nat) (k' : Core) : Eff := { core := k', cycles := cycles, next := k.pc + BitVec.ofNat 16 w, seq := true, trap := none }
def effOpt (k : Core) (w cycles t : Nat) (r : Option Core) : Eff := match r with | none => effTrap k t | some k' => effSeq k w cycles k'

/-- LD (R406, R414, R415): the loaded value wins over a pointer's update. -/
def effLd (e : CoreEnv) (code ea : Nat) (ext : W24) (k : Core) : Eff :=
  let w := if eaExt ea then 2 else 1
  if 52 ≤ code then effTrap k trapIllegal
  else if ea / 8 % 8 = 7 && ea % 8 = 1 then effOpt k w w trapIllegal (regWrite k code ext)
  else match eaAddr k ea ext with
    | none => effTrap k trapIllegal
    | some (a, k') => match dRead e k' a with
      | none => effTrap k trapAddr
      | some (v, k'') => effOpt k w w trapIllegal (regWrite k'' code v)

/-- ST (R406, R414, R415). -/
def effSt (e : CoreEnv) (code ea : Nat) (ext : W24) (k : Core) : Eff :=
  let w := if eaExt ea then 2 else 1
  match regRead k code with
  | none => effTrap k trapIllegal
  | some (v, k1) => match eaAddr k1 ea ext with
    | none => effTrap k trapIllegal
    | some (a, k2) => match dWrite e k2 a v with
      | none => effTrap k trapAddr
      | some (k3, x) => effSeq k w (w + x) k3

def effMov (dst src : Nat) (k : Core) : Eff :=
  match regRead k src with
  | none => effTrap k trapIllegal
  | some (v, k1) => effOpt k 1 1 trapIllegal (regWrite k1 dst v)

/-! ### ALU and SHIFT (R405, R414) -/

/-- Z and N of the value written. -/
def setZN (v : W24) (k : Core) : Core := setSt fZ (v = 0) (setSt fN v.msb k)

/-- A sum or difference written to Dd: C given, V and saturation from the exact signed result (R405). -/
def aluWrite (dd : Nat) (exact : Int) (c : Bool) (k : Core) : Core :=
  let v := decide (exact < -8388608 ∨ 8388607 < exact)
  let sat := v && stBit k fSat
  let r : W24 := if sat then (if exact < 0 then 0x800000 else 0x7FFFFF) else BitVec.ofInt 24 exact
  let k := setZN r (setSt fV v (setSt fC c (setD dd r k)))
  if sat then setSt fL true k else k

def effAdd (dd da db : Nat) (cin : Bool) (k : Core) : Eff :=
  let a := k.dr da
  let b := k.dr db
  effSeq k 1 1 (aluWrite dd (a.toInt + b.toInt + b2n cin) (decide (2 ^ 24 ≤ a.toNat + b.toNat + b2n cin)) k)

/-- C of a difference under the convention of the part (a free constant). -/
def subCarry (borrow : Bool) : Bool := if Config.carryIsBorrow then borrow else !borrow

def effSub (dd da db : Nat) (bin : Bool) (k : Core) : Eff :=
  let a := k.dr da
  let b := k.dr db
  effSeq k 1 1 (aluWrite dd (a.toInt - b.toInt - b2n bin) (subCarry (decide (a.toNat < b.toNat + b2n bin))) k)

/-- The borrow that SBC takes from C. -/
def borrowIn (k : Core) : Bool := subCarry (stBit k fC)

/-- CMP sets the flags of the difference and writes nothing. -/
def effCmp (da db : Nat) (k : Core) : Eff :=
  let a := k.dr da
  let b := k.dr db
  let x := a.toInt - b.toInt
  effSeq k 1 1 (setZN (a - b) (setSt fV (decide (x < -8388608 ∨ 8388607 < x)) (setSt fC (subCarry (decide (a.toNat < b.toNat))) k)))

/-- AND, OR, XOR: Z and N of the result, V 0; what C becomes the spec does not state. -/
def effLogic (e : CoreEnv) (f : W24 → W24 → W24) (dd da db : Nat) (k : Core) : Eff :=
  let r := f (k.dr da) (k.dr db)
  effSeq k 1 1 (setZN r (setSt fV false (setSt fC (e.fv.testBit 0) (setD dd r k))))

/-- One half of PADD and PSUB: the exact sum, saturated where SAT is set; the answer says whether it saturated. -/
def half12 (sat : Bool) (x : Int) : BitVec 12 × Bool :=
  if sat && decide (x < -2048) then (0x800, true) else if sat && decide (2047 < x) then (0x7FF, true) else (BitVec.ofInt 12 x, false)

/-- PADD and PSUB (R405): Z where both halves are 0; C, V and N the spec does not state. -/
def effPacked (e : CoreEnv) (sub : Bool) (dd da db : Nat) (k : Core) : Eff :=
  let a := k.dr da
  let b := k.dr db
  let op (x y : BitVec 12) : Int := if sub then x.toInt - y.toInt else x.toInt + y.toInt
  let lo := half12 (stBit k fSat) (op (a.truncate 12) (b.truncate 12))
  let hi := half12 (stBit k fSat) (op ((a >>> 12).truncate 12) ((b >>> 12).truncate 12))
  let r : W24 := hi.1 ++ lo.1
  let k' := setSt fN (e.fv.testBit 2) (setSt fV (e.fv.testBit 1) (setSt fC (e.fv.testBit 0) (setSt fZ (r = 0) (setD dd r k))))
  effSeq k 1 1 (if lo.2 || hi.2 then setSt fL true k' else k')

/-- SHL, SHR, ASR, ROL with counts 0 to 23. -/
def effShift (f : W24 → Nat → W24) (dd da n : Nat) (k : Core) : Eff :=
  if 24 ≤ n then effTrap k trapIllegal else effSeq k 1 1 (setD dd (f (k.dr da) n) k)

/-! ### MUL, ACC and MACX (R405) -/

/-- An accumulator written with V from its guard bits. -/
def accWrite (a : Nat) (v : Int) (k : Core) : Core := let r := BitVec.ofInt 56 v; setSt fV (guardOvf r) (setA a r k)

/-- The product that MUL code `sub` forms, and what it does with it: 0 replace, 1 add, 2 subtract. -/
def mulProduct (sub : Nat) (x y : W24) : Int :=
  let u (v : W24) (h : Nat) : Int := ((v >>> (12 * h)).truncate 12 : BitVec 12).toNat
  let g (v : W24) (h : Nat) : Int := ((v >>> (12 * h)).truncate 12 : BitVec 12).toInt
  if sub < 3 then x.toInt * y.toInt
  else if sub < 6 then 2 * (x.toInt * y.toInt)
  else if sub = 6 then u x 0 * u y 0 + u x 1 * u y 1
  else g x 0 * g y 0 + g x 1 * g y 1

def mulInto (sub a : Nat) (x y : W24) (k : Core) : Core :=
  let p := mulProduct sub x y
  let old := (k.acc a).toInt
  accWrite a (if sub = 0 || sub = 3 then p else if sub = 2 || sub = 5 then old - p else old + p) k

def effMul (sub aa da db : Nat) (k : Core) : Eff := effSeq k 1 1 (mulInto sub aa (k.dr da) (k.dr db) k)

/-- RND (R405): 800000h added, bits [23:0] cleared. -/
def rnd56 (v : Int) : Int := (v + 8388608) / 16777216 * 16777216

def effAcc (aa : Nat) (f : Int → Int) (k : Core) : Eff := effSeq k 1 1 (accWrite aa (f (k.acc aa).toInt) k)
def effAcc2 (aa am : Nat) (f : Int → Int → Int) (k : Core) : Eff := effSeq k 1 1 (accWrite aa (f (k.acc aa).toInt (k.acc am).toInt) k)
/-- ASHA: Am shifted by a signed count of -24 to +24. -/
def effAsha (aa am : Nat) (n : Int) (k : Core) : Eff :=
  if n < -24 ∨ 24 < n then effTrap k trapIllegal
  else
    let v := (k.acc am).toInt
    effSeq k 1 1 (accWrite aa (if 0 ≤ n then v * 2 ^ n.toNat else v / 2 ^ (-n).toNat) k)

/-- MACX (R414): one operand through Px, x 0 to 3, one through Py, y 4 to 7. -/
def effMacx (e : CoreEnv) (sub aa mx px my py : Nat) (k : Core) : Eff :=
  if 4 < mx ∨ 4 < my then effTrap k trapIllegal
  else match eaPtr k mx (px % 4) with
    | none => effTrap k trapIllegal
    | some (a, k1) => match eaPtr k1 my (4 + py % 4) with
      | none => effTrap k trapIllegal
      | some (b, k2) => match dRead e k2 a with
        | none => effTrap k trapAddr
        | some (x, k3) => match dRead e k3 b with
          | none => effTrap k trapAddr
          | some (y, k4) => effSeq k 1 1 (mulInto (sub % 8) aa x y k4)

/-! ### The stack, calls and loops (R410 to R413) -/

/-- Pushes in order: STACK where SP would pass below SB, DATA_ADDR where the word pushed would not lie in data memory. -/
def pushAll (k : Core) : List W24 → Except Nat Core
  | [] => .ok k
  | v :: vs =>
    let sp := k.sp - 1
    if k.sp.toNat < k.sb.toNat + 1 then .error trapStack
    else if 0x18000 ≤ sp.toNat then .error trapAddr
    else pushAll { k with sp := sp, data := tput wordDef k.data sp.toNat v } vs

/-- `n` pops, first popped first: STACK at STACK_TOP, DATA_ADDR outside data memory. -/
def popAll (top : BitVec 17) (k : Core) : Nat → Except Nat (List W24 × Core)
  | 0 => .ok ([], k)
  | n + 1 =>
    if k.sp = top then .error trapStack
    else if 0x18000 ≤ k.sp.toNat then .error trapAddr
    else match popAll top { k with sp := k.sp + 1 } n with
      | .error t => .error t
      | .ok r => .ok (tget wordDef k.data k.sp.toNat :: r.1, r.2)

def condHolds (k : Core) (c : Nat) : Option Bool :=
  let z := stBit k fZ
  let n := stBit k fN
  let v := stBit k fV
  let cy := stBit k fC
  [true, z, !z, n != v, n == v, z || n != v, !z && n == v, cy, !cy, v, !v, n, !n, stBit k fL][c]?

/-- BR: a signed offset of 14 bits from the next instruction. -/
def effBr (cond : Nat) (off : Int) (k : Core) : Eff :=
  match condHolds k cond with
  | none => effTrap k trapIllegal
  | some false => effSeq k 1 1 k
  | some true => { core := k, cycles := 2, next := k.pc + 1 + BitVec.ofInt 16 off, seq := false, trap := none }

def effCall (target : BitVec 16) (k : Core) : Eff :=
  match pushAll k [(k.pc + 2).zeroExtend 24] with
  | .error t => effTrap k t
  | .ok k' => { core := k', cycles := 3, next := target, seq := false, trap := none }

def effRet (e : CoreEnv) (k : Core) : Eff :=
  match popAll e.top k 1 with
  | .error t => effTrap k t
  | .ok ([v], k') => { core := k', cycles := 3, next := v.truncate 16, seq := false, trap := none }
  | _ => effTrap k trapStack

/-- RETT (R421): LE, LS, LC, RC, ST and PC come back. -/
def effRett (e : CoreEnv) (k : Core) : Eff :=
  match popAll e.top k 6 with
  | .error t => effTrap k t
  | .ok ([le, ls, lc, rc, st, pc], k') =>
    { core := { k' with le_ := le.truncate 16, ls := ls.truncate 16, lc := lc.truncate 16, rc := rc, st := st &&& 0xFF, nest := k'.nestKept },
      cycles := 8, next := pc.truncate 16, seq := false, trap := none }
  | _ => effTrap k trapStack

/-- DO (R411, R412): `reg` takes the count from the low 16 bits of Dn. A count of 0 goes on at LE, which may end a loop around it. -/
def effDo (reg : Bool) (dn count : Nat) (lend : BitVec 16) (k : Core) : Eff :=
  let n := if reg then (k.dr dn).toNat % 65536 else count
  let ls := k.pc + 2
  if lend.toNat ≤ ls.toNat then effTrap k trapIllegal
  else if n = 0 then { core := k, cycles := 2, next := lend, seq := true, trap := none }
  else
    let inner := stBit k fLoop
    match (if inner then pushAll k [k.le_.zeroExtend 24, k.ls.zeroExtend 24, k.lc.zeroExtend 24] else .ok k) with
    | .error t => effTrap k t
    | .ok k' => { core := setSt fLoop true { k' with lc := BitVec.ofNat 16 n, ls := ls, le_ := lend, nest := inner :: k'.nest },
                   cycles := if inner then 5 else 2, next := ls, seq := false, trap := none }

/-- REP (R413, R421): the count, or RC where RES is set; 0 skips the repeated instruction, which may end a loop (R412). -/
def effRep (reg : Bool) (dn count : Nat) (k : Core) : Eff :=
  let v := if reg then (k.dr dn).toNat else count
  if stBit k fRes then
    { core := setSt fRes false { k with rep := if k.rc = 0 then none else some k.pc }, cycles := 1, next := k.pc + (if k.rc = 0 then 2 else 1), seq := decide (k.rc = 0), trap := none }
  else if 4095 < v then effTrap k trapIllegal
  else { core := { k with rc := BitVec.ofNat 24 v, rep := if v = 0 then none else some k.pc }, cycles := 1,
         next := k.pc + (if v = 0 then 2 else 1), seq := decide (v = 0), trap := none }

/-! ### Block instructions (R416, R417, R419) -/

/-- One element of BMOV, with the cycles that a write of a CMD word adds (R415). -/
def bmovOne (e : CoreEnv) (two : Bool) (ps pd : Nat) (k : Core) : Except Nat (Core × Nat) :=
  match ptrUpdate k ps (k.modr ps).toInt false, ptrUpdate k pd (k.modr pd).toInt false with
  | some p1, some _ =>
    let a := (k.ptr ps).toNat
    let b := (k.ptr pd).toNat
    let r : Option (Core × Nat) := (dRead e k a).bind (fun x =>
      if two then (dRead e x.2 ((a + 1) % 131072)).bind (fun y =>
        (dWrite e y.2 b x.1).bind (fun z => (dWrite e z.1 ((b + 1) % 131072) y.1).map (fun w => (w.1, z.2 + w.2))))
      else dWrite e x.2 b x.1)
    match r with
    | none => .error trapAddr
    | some (k', x) =>
      let k1 := setP ps p1 k'
      match ptrUpdate k1 pd (k1.modr pd).toInt false with
      | some p2 => .ok (setP pd p2 k1, x)
      | none => .error trapIllegal
  | _, _ => .error trapIllegal

/-- One butterfly, number `b`. -/
def roundSat (scale : Bool) (v : Int) : W24 × Bool :=
  let r := if scale then (v + 16777216) / 33554432 else (v + 8388608) / 16777216
  if r < -8388608 then (0x800000, true) else if 8388607 < r then (0x7FFFFF, true) else (BitVec.ofInt 24 r, false)

def bflyOne (e : CoreEnv) (scale : Bool) (b : Nat) (k : Core) : Except Nat (Core × Nat) :=
  let n0 := (k.modr 0).toInt
  let s : Nat := if n0 ≤ 0 then e.fv % 65536 + 1 else n0.toNat
  let xa := ((k.ptr 0).toNat + 4 * s * (b / s) + 2 * (b % s)) % 131072
  let ya := (xa + 2 * s) % 131072
  let wa := (((k.ptr 2).toNat : Int) + (b % s : Nat) * (k.modr 2).toInt) % 131072
  let rdw (a : Nat) : Option Int := (dRead e k (a % 131072)).map (fun r => r.1.toInt)
  match rdw xa, rdw (xa + 1), rdw ya, rdw (ya + 1), rdw wa.toNat, rdw (wa.toNat + 1) with
  | some xr, some xi, some yr, some yi, some wr, some wi =>
    let pr := 2 * (wr * yr - wi * yi)
    let pi := 2 * (wr * yi + wi * yr)
    let r0 := roundSat scale (16777216 * xr + pr)
    let r1 := roundSat scale (16777216 * xi + pi)
    let r2 := roundSat scale (16777216 * xr - pr)
    let r3 := roundSat scale (16777216 * xi - pi)
    match (dWrite e k xa r0.1).bind (fun a => (dWrite e a.1 ((xa + 1) % 131072) r1.1).bind (fun b =>
        (dWrite e b.1 ya r2.1).bind (fun c => dWrite e c.1 ((ya + 1) % 131072) r3.1))) with
    | none => .error trapAddr
    | some (k', _) => .ok (if r0.2 || r1.2 || r2.2 || r3.2 then setSt fL true k' else k', 0)
  | _, _, _, _, _, _ => .error trapAddr

/-- `n` elements from element `i` on: the core, the elements done, the cycles added, the trap that stopped it. -/
def blockGo (f : Nat → Core → Except Nat (Core × Nat)) : Nat → Nat → Nat → Nat → Core → Core × Nat × Nat × Option Nat
  | 0, _, d, x, k => (k, d, x, none)
  | n + 1, i, d, x, k => match f i k with
    | .error t => (k, d, x, some t)
    | .ok r => blockGo f n (i + 1) (d + 1) (x + r.2) r.1

/-- A block instruction: `count` elements (RC where it resumes), of which `cut` are done when a SAFE request stops it; `per` cycles an element, `base` on issue. -/
def effBlock (f : Nat → Core → Except Nat (Core × Nat)) (total base per : Nat) (cut : Option Nat) (k : Core) : Eff :=
  let again := k.cut || stBit k fRes
  let n := if again then k.rc.toNat else total
  let go := match cut with | some c => min c n | none => n
  let b := if k.cut then 0 else base
  let r := blockGo f go (total - n) 0 0 (setSt fRes false { k with rc := BitVec.ofNat 24 n, cut := false })
  let k' := { r.1 with rc := BitVec.ofNat 24 (n - r.2.1) }
  let cyc := b + per * r.2.1 + r.2.2.1
  match r.2.2.2 with
  | some t => { core := { k' with cut := true }, cycles := cyc, next := k.pc, seq := false, trap := some t }
  | none =>
    if r.2.1 < n then { core := { k' with cut := true }, cycles := cyc, next := k.pc, seq := false, trap := none }
    else { core := k', cycles := cyc, next := k.pc + 1, seq := true, trap := none }

def effBmov (e : CoreEnv) (two : Bool) (ps pd dn : Nat) (cut : Option Nat) (k : Core) : Eff :=
  let c := (k.dr dn).toNat
  if 4095 < c && !(k.cut || stBit k fRes) then effTrap k trapIllegal
  else effBlock (fun _ => bmovOne e two ps pd) c 2 (if two then 2 else 1) cut k

def effBfly (e : CoreEnv) (dn : Nat) (scale : Bool) (cut : Option Nat) (k : Core) : Eff :=
  effBlock (bflyOne e scale) ((k.dr dn).toNat % 4096) 3 4 cut k

/-! ### Running an instruction (R412, R413, R415, R418 to R420) -/

/-- The environment of a running task. -/
def coreEnv (s : State) (c : Nat) : CoreEnv :=
  let k := s.core c
  let b := match k.run.bind (fun t => taskEnt s.sched.img s.modeNow t) with | some (i, o) => ird i (o + 6) 3 | none => 0
  { tb := s.tbNow, fn := s.fn, lim := fun q => qLimit (s.qcfg q), fv := s.freeNat, top := k.stackTop, budget := b }

/-- The saved PC and ST of a trap (R419): at the REP or block instruction with RES set where one is in progress. -/
def savedPc (k : Core) : BitVec 16 := match k.rep with | some a => a | none => k.pc
def savedSt (k : Core) : W24 := if k.rep.isSome || k.cut then k.st ||| 64 else k.st

/-- An ending trap (R420): staged outputs and queue operations discarded, the record stored, the owner told, the source raised. -/
def endTrap (c cause : Nat) (s : State) : State :=
  let k := s.core c
  match k.run with
  | none => s
  | some t =>
    let s := onCore c (fun k => { k with run := none, marks := [], ports := [], rep := none, cut := false, nest := [], nestKept := [], safe := 0, busy := k.busy + 8 }) s
    let s := onTask t (fun x => { x with traps := x.traps + 1, cause := cause, trapPc := savedPc k, trapRc := k.rc, trapSt := savedSt k, trapTb := s.tbNow }) s
    let s := notify (s.owner 5 t) 0x6001 ([BitVec.ofNat 8 t, BitVec.ofNat 8 cause] ++ genOct s 5 t ++ le 2 (savedPc k).toNat ++ le 3 k.rc.toNat ++ le 3 (savedSt k).toNat) s
    let s := if cause = 1 then onSched (fun x => { x with budgetTraps := x.budgetTraps + 1 }) s else s
    raise (0xDF + cause) t s

/-- The SAFE trap (R421): PC, ST, RC, LC, LS and LE pushed, LOOP and RES cleared, SAFE_REQ set, on at SAFE_ENTRY. -/
def safeTrap (c : Nat) (s : State) : State :=
  let k := s.core c
  match k.run with
  | none => s
  | some t =>
    let entry := ((s.taskDesc t).map tdSafe).getD 65535
    if k.safe ≠ 1 || entry = 65535 then s
    else match pushAll k [(savedPc k).zeroExtend 24, savedSt k, k.rc, k.lc.zeroExtend 24, k.ls.zeroExtend 24, k.le_.zeroExtend 24] with
      | .error x => endTrap c x s
      | .ok k' =>
        onTask t (fun x => { x with safeTraps := x.safeTraps + 1 }) (onCore c (fun _ =>
          let k1 := { k' with pc := BitVec.ofNat 16 entry, safe := 2, info := k'.info ||| 512, rep := none, cut := false, nestKept := k'.nest, nest := [] }
          setSt fLoop false (setSt fRes false { k1 with cycles := k1.cycles + 8, busy := k1.busy + 8 })) s)

/-- The loop end (R412): the core after an instruction in sequence to `next`, and the cycles the exit adds; the trap where a pop cannot be made. -/
def loopEnd (top : BitVec 17) (k : Core) (next : BitVec 16) : Except Nat (Core × Nat) :=
  if stBit k fLoop && next = k.le_ then
    if 1 < k.lc.toNat then .ok ({ k with lc := k.lc - 1, pc := k.ls }, 0)
    else if k.nest.headD false then
      match popAll top k 3 with
      | .error t => .error t
      | .ok ([lc, ls, le], k') => .ok ({ k' with pc := next, lc := lc.truncate 16, ls := ls.truncate 16, le_ := le.truncate 16, nest := k'.nest.tail }, 3)
      | .ok _ => .error trapStack
    else .ok (setSt fLoop false { k with pc := next, nest := k.nest.tail }, 0)
  else .ok ({ k with pc := next }, 0)

/-- One instruction of a core. `rep` says it may be repeated by REP, `last` that it may stand at LE - 1. Acts only while a task runs; a pending SAFE trap and an
overrun budget (not at TEND) go first. -/
def coreDo (op : CoreOp) (rep last : Bool) (f : CoreEnv → Core → Eff) (s : State) : State :=
  let c := op.core
  let k := s.core c
  let e := coreEnv s c
  match k.run with
  | none => s
  | some t =>
    if 4 ≤ c then s
    else if k.safe = 1 && ((s.taskDesc t).map tdSafe).getD 65535 ≠ 65535 then safeTrap c s
    else if e.budget ≤ k.cycles then endTrap c trapBudget s
    else
      let s := if op.ecc = 1 then onCore c (fun k => { k with eccCorr := k.eccCorr + 1 }) s
        else if op.ecc = 2 then onCore c (fun k => { k with eccUncorr := k.eccUncorr + 1 }) s else s
      let k := s.core c
      if op.ecc = 2 then endTrap c trapEcc s
      else if (k.rep.isSome && !rep) || (!last && stBit k fLoop && k.pc + 1 = k.le_) then endTrap c trapIllegal s
      else
        let r := f e k
        let charge (n : Nat) (k : Core) : Core := { k with cycles := k.cycles + n, busy := k.busy + n }
        match r.trap with
        | some t => endTrap c t (onCore c (fun _ => charge r.cycles r.core) s)
        | none =>
          let k' := charge r.cycles r.core
          match k.rep with
          | some _ =>
            if r.cycles ≠ 1 then endTrap c trapIllegal s
            else if k.rc.toNat ≤ 1 then
              match loopEnd e.top { k' with rc := 0, rep := none } r.next with
              | .error t => endTrap c t s
              | .ok (k2, x) => onCore c (fun _ => charge x k2) s
            else onCore c (fun _ => { k' with rc := k'.rc - 1, pc := k.pc }) s
          | none =>
            if r.seq then
              match loopEnd e.top k' r.next with
              | .error t => endTrap c t s
              | .ok (k2, x) => onCore c (fun _ => charge x k2) s
            else onCore c (fun _ => { k' with pc := r.next }) s

/-- An instruction whose flags take a free value counts its use. -/
def coreFree (op : CoreOp) (f : CoreEnv → Core → Eff) (s : State) : State := useFree (coreDo op true true f s)

end Sys2Proof.Machine
end

