-- ==== Sys2Proof/Machine/CesynCmds.lean ====
section
/-! DEFINITION. One definition per instruction of the Cesyn cores (R405 to R417, R430, R431): each a command of the core that executes it. -/

namespace Sys2Proof.Machine

/-- ST of a value to a word of a queue port (R430, R415): one word, one cycle, 20 more for CMD. -/
def effPort (e : CoreEnv) (p w : Nat) (v : W24) (k : Core) : Eff :=
  match dWrite e k (0x1A000 + 32 * (p % 8) + w % 32) v with
  | none => effTrap k trapAddr
  | some (k', x) => effSeq k 1 (1 + x) k'

/-- JMP and the taken end of control transfers without a push. -/
def effJmp (target : BitVec 16) (k : Core) : Eff := { core := k, cycles := 2, next := target, seq := false, trap := none }

/-- NOP. -/
def execNop (op : CoreOp) (s : State) : Host.Outcome State Fault Refusal := .next (coreDo op true true (fun _ k => effSeq k 1 1 k) s)

/-- RET (R411): pops PC. -/
def execRet (op : CoreOp) (s : State) : Host.Outcome State Fault Refusal := .next (coreDo op false false (fun e k => effRet e k) s)

/-- RETT (R421): pops the six registers a SAFE trap pushed. -/
def execRett (op : CoreOp) (s : State) : Host.Outcome State Fault Refusal := .next (coreDo op false false (fun e k => effRett e k) s)

/-- BR (R414): taken where the condition holds. -/
def execBr (op : CoreOp) (cond : Nat) (off : Int) (s : State) : Host.Outcome State Fault Refusal := .next (coreDo op false false (fun _ k => effBr cond off k) s)

/-- JMP (R414). -/
def execJmp (op : CoreOp) (target : BitVec 16) (s : State) : Host.Outcome State Fault Refusal := .next (coreDo op false false (fun _ k => effJmp target k) s)

/-- CALL (R411): pushes the address of the next instruction. -/
def execCall (op : CoreOp) (target : BitVec 16) (s : State) : Host.Outcome State Fault Refusal := .next (coreDo op false false (fun _ k => effCall target k) s)

/-- DO (R412): a hardware loop. -/
def execDo (op : CoreOp) (reg : Bool) (dn count : Nat) (lend : BitVec 16) (s : State) : Host.Outcome State Fault Refusal := .next (coreDo op false false (fun _ k => effDo reg dn count lend k) s)

/-- REP (R413): the next instruction is repeated. -/
def execRep (op : CoreOp) (reg : Bool) (dn count : Nat) (s : State) : Host.Outcome State Fault Refusal := .next (coreDo op false false (fun _ k => effRep reg dn count k) s)

/-- BMOV (R416): a block move; `cut` elements are done when a SAFE request stops it. -/
def execBmov (op : CoreOp) (two : Bool) (ps pd dn : Nat) (cut : Option Nat) (s : State) : Host.Outcome State Fault Refusal := .next (coreDo op false false (fun e k => effBmov e two ps pd dn cut k) s)

/-- BFLY (R417): one radix-2 pass; `cut` butterflies are done when a SAFE request stops it. -/
def execBfly (op : CoreOp) (dn : Nat) (scale : Bool) (cut : Option Nat) (s : State) : Host.Outcome State Fault Refusal := .next (coreDo op false false (fun e k => effBfly e dn scale cut k) s)

/-- LD (R406, R414). -/
def execLd (op : CoreOp) (code ea : Nat) (ext : W24) (s : State) : Host.Outcome State Fault Refusal := .next (coreDo op true (!(eaExt ea)) (fun e k => effLd e code ea ext k) s)

/-- ST (R406, R414). -/
def execSt (op : CoreOp) (code ea : Nat) (ext : W24) (s : State) : Host.Outcome State Fault Refusal := .next (coreDo op true (!(eaExt ea)) (fun e k => effSt e code ea ext k) s)

/-- MOV between registers (R403). -/
def execMov (op : CoreOp) (dst src : Nat) (s : State) : Host.Outcome State Fault Refusal := .next (coreDo op true true (fun _ k => effMov dst src k) s)

/-- ADD (R405). -/
def execAdd (op : CoreOp) (dd da db : Nat) (s : State) : Host.Outcome State Fault Refusal := .next (coreDo op true true (fun _ k => effAdd dd da db false k) s)

/-- SUB (R405). -/
def execSub (op : CoreOp) (dd da db : Nat) (s : State) : Host.Outcome State Fault Refusal := .next (coreDo op true true (fun _ k => effSub dd da db false k) s)

/-- ADC: the sum with C (R405). -/
def execAdc (op : CoreOp) (dd da db : Nat) (s : State) : Host.Outcome State Fault Refusal := .next (coreDo op true true (fun _ k => effAdd dd da db (stBit k fC) k) s)

/-- SBC: the difference with the borrow C stands for (R405). -/
def execSbc (op : CoreOp) (dd da db : Nat) (s : State) : Host.Outcome State Fault Refusal := .next (coreDo op true true (fun _ k => effSub dd da db (borrowIn k) k) s)

/-- CMP: the flags of the difference (R405). -/
def execCmp (op : CoreOp) (da db : Nat) (s : State) : Host.Outcome State Fault Refusal := .next (coreDo op true true (fun _ k => effCmp da db k) s)

/-- AND (R405); what C becomes is a free value. -/
def execAnd (op : CoreOp) (dd da db : Nat) (s : State) : Host.Outcome State Fault Refusal := .next (coreFree op (fun e k => effLogic e (· &&& ·) dd da db k) s)

/-- OR (R405); what C becomes is a free value. -/
def execOr (op : CoreOp) (dd da db : Nat) (s : State) : Host.Outcome State Fault Refusal := .next (coreFree op (fun e k => effLogic e (· ||| ·) dd da db k) s)

/-- XOR (R405); what C becomes is a free value. -/
def execXor (op : CoreOp) (dd da db : Nat) (s : State) : Host.Outcome State Fault Refusal := .next (coreFree op (fun e k => effLogic e (· ^^^ ·) dd da db k) s)

/-- PADD: packed halves (R405). -/
def execPadd (op : CoreOp) (dd da db : Nat) (s : State) : Host.Outcome State Fault Refusal := .next (coreFree op (fun e k => effPacked e false dd da db k) s)

/-- PSUB: packed halves (R405). -/
def execPsub (op : CoreOp) (dd da db : Nat) (s : State) : Host.Outcome State Fault Refusal := .next (coreFree op (fun e k => effPacked e true dd da db k) s)

/-- SHL (R414). -/
def execShl (op : CoreOp) (dd da n : Nat) (s : State) : Host.Outcome State Fault Refusal := .next (coreDo op true true (fun _ k => effShift (fun v n => v <<< n) dd da n k) s)

/-- SHR (R414). -/
def execShr (op : CoreOp) (dd da n : Nat) (s : State) : Host.Outcome State Fault Refusal := .next (coreDo op true true (fun _ k => effShift (fun v n => v >>> n) dd da n k) s)

/-- ASR (R414). -/
def execAsr (op : CoreOp) (dd da n : Nat) (s : State) : Host.Outcome State Fault Refusal := .next (coreDo op true true (fun _ k => effShift (fun v n => v.sshiftRight n) dd da n k) s)

/-- ROL (R414). -/
def execRol (op : CoreOp) (dd da n : Nat) (s : State) : Host.Outcome State Fault Refusal := .next (coreDo op true true (fun _ k => effShift (fun v n => v.rotateLeft n) dd da n k) s)

/-- MPY (R405). -/
def execMpy (op : CoreOp) (aa da db : Nat) (s : State) : Host.Outcome State Fault Refusal := .next (coreDo op true true (fun _ k => effMul 0 aa da db k) s)

/-- MAC (R405). -/
def execMac (op : CoreOp) (aa da db : Nat) (s : State) : Host.Outcome State Fault Refusal := .next (coreDo op true true (fun _ k => effMul 1 aa da db k) s)

/-- MSU (R405). -/
def execMsu (op : CoreOp) (aa da db : Nat) (s : State) : Host.Outcome State Fault Refusal := .next (coreDo op true true (fun _ k => effMul 2 aa da db k) s)

/-- MPYF (R405). -/
def execMpyf (op : CoreOp) (aa da db : Nat) (s : State) : Host.Outcome State Fault Refusal := .next (coreDo op true true (fun _ k => effMul 3 aa da db k) s)

/-- MACF (R405). -/
def execMacf (op : CoreOp) (aa da db : Nat) (s : State) : Host.Outcome State Fault Refusal := .next (coreDo op true true (fun _ k => effMul 4 aa da db k) s)

/-- MSUF (R405). -/
def execMsuf (op : CoreOp) (aa da db : Nat) (s : State) : Host.Outcome State Fault Refusal := .next (coreDo op true true (fun _ k => effMul 5 aa da db k) s)

/-- PMACU (R405). -/
def execPmacu (op : CoreOp) (aa da db : Nat) (s : State) : Host.Outcome State Fault Refusal := .next (coreDo op true true (fun _ k => effMul 6 aa da db k) s)

/-- PMACS (R405). -/
def execPmacs (op : CoreOp) (aa da db : Nat) (s : State) : Host.Outcome State Fault Refusal := .next (coreDo op true true (fun _ k => effMul 7 aa da db k) s)

/-- CLR (R414). -/
def execClr (op : CoreOp) (aa : Nat) (s : State) : Host.Outcome State Fault Refusal := .next (coreDo op true true (fun _ k => effAcc aa (fun _ => 0) k) s)

/-- NEG of Aa (R414). -/
def execNeg (op : CoreOp) (aa : Nat) (s : State) : Host.Outcome State Fault Refusal := .next (coreDo op true true (fun _ k => effAcc aa (fun v => -v) k) s)

/-- ABS of Aa (R414). -/
def execAbs (op : CoreOp) (aa : Nat) (s : State) : Host.Outcome State Fault Refusal := .next (coreDo op true true (fun _ k => effAcc aa (fun v => if v < 0 then -v else v) k) s)

/-- RND (R405). -/
def execRnd (op : CoreOp) (aa : Nat) (s : State) : Host.Outcome State Fault Refusal := .next (coreDo op true true (fun _ k => effAcc aa rnd56 k) s)

/-- ADDA (R414). -/
def execAdda (op : CoreOp) (aa am : Nat) (s : State) : Host.Outcome State Fault Refusal := .next (coreDo op true true (fun _ k => effAcc2 aa am (fun a m => a + m) k) s)

/-- SUBA (R414). -/
def execSuba (op : CoreOp) (aa am : Nat) (s : State) : Host.Outcome State Fault Refusal := .next (coreDo op true true (fun _ k => effAcc2 aa am (fun a m => a - m) k) s)

/-- ASHA (R414). -/
def execAsha (op : CoreOp) (aa am : Nat) (n : Int) (s : State) : Host.Outcome State Fault Refusal := .next (coreDo op true true (fun _ k => effAsha aa am n k) s)

/-- TFRA (R414). -/
def execTfra (op : CoreOp) (aa am : Nat) (s : State) : Host.Outcome State Fault Refusal := .next (coreDo op true true (fun _ k => effAcc2 aa am (fun _ m => m) k) s)

/-- MACX (R414): both operands through pointers in one cycle. -/
def execMacx (op : CoreOp) (mcode aa mx px my py : Nat) (s : State) : Host.Outcome State Fault Refusal := .next (coreDo op true true (fun e k => effMacx e mcode aa mx px my py k) s)

/-- TBL_READ (R208): a one-word LD of TBL into Dn. -/
def execTblRead (op : CoreOp) (dn : Nat) (s : State) : Host.Outcome State Fault Refusal := .next (coreDo op true true (fun e k => match dRead e k 0x1B000 with | none => effTrap k trapAddr | some (v, k1) => effSeq k 1 1 (setD dn v k1)) s)

/-- CMD READ to queue port `p` (R431). -/
def execQueuePortRead (op : CoreOp) (p : Nat) (s : State) : Host.Outcome State Fault Refusal := .next (coreDo op true true (fun e k => effPort e p 17 1 k) s)

/-- CMD PUSH to queue port `p` (R431). -/
def execQueuePortPush (op : CoreOp) (p : Nat) (s : State) : Host.Outcome State Fault Refusal := .next (coreDo op true true (fun e k => effPort e p 17 2 k) s)

/-- CMD MARK to queue port `p` (R431). -/
def execQueuePortMark (op : CoreOp) (p : Nat) (s : State) : Host.Outcome State Fault Refusal := .next (coreDo op true true (fun e k => effPort e p 17 3 k) s)

/-- CMD CLEAR_MARK to queue port `p` (R431). -/
def execQueuePortClearMark (op : CoreOp) (p : Nat) (s : State) : Host.Outcome State Fault Refusal := .next (coreDo op true true (fun e k => effPort e p 17 4 k) s)

/-- CMD REWIND to queue port `p` (R431). -/
def execQueuePortRewind (op : CoreOp) (p : Nat) (s : State) : Host.Outcome State Fault Refusal := .next (coreDo op true true (fun e k => effPort e p 17 5 k) s)

/-- CMD RELEASE to queue port `p` (R431). -/
def execQueuePortRelease (op : CoreOp) (p : Nat) (s : State) : Host.Outcome State Fault Refusal := .next (coreDo op true true (fun e k => effPort e p 17 6 k) s)

/-- A write of word `w` of queue port `p` (R430). -/
def execQueuePortWordWrite (op : CoreOp) (p w : Nat) (v : W24) (s : State) : Host.Outcome State Fault Refusal := .next (coreDo op true true (fun e k => effPort e p w v k) s)

/-- SAFE_TRAP (R421): a pending safe-state request is taken at the boundary of core `c`. -/
def execSafeTrap (c : Nat) (s : State) : Host.Outcome State Fault Refusal := .next (if 4 ≤ c then s else safeTrap c s)

/-- BUDGET_TRAP (R193): a task that has spent its budget traps. -/
def execBudgetTrap (c : Nat) (s : State) : Host.Outcome State Fault Refusal :=
  .next (if (coreEnv s c).budget ≤ (s.core c).cycles then endTrap c trapBudget s else s)

/-- TASK_END_GUARD (R193): a task still running at tick 40,000 traps as for the budget. -/
def execTaskEndGuard (c : Nat) (s : State) : Host.Outcome State Fault Refusal :=
  .next (if (s.core c).run.isSome then endTrap c trapBudget (atTick 40000 s) else s)

end Sys2Proof.Machine
end

