-- ==== Sys2Proof/Machine/Tasks.lean ====
section
/-! DEFINITION. Tasks of the Cesyn cores (12_cesyn_cores R423 to R433): TEND, staged outputs at the commit, opcodes 6000h to 6003h. -/

namespace Sys2Proof.Machine

/-- ENABLE of a task (R423, R425): the stored value, else AUTO_EN of its descriptor. -/
def State.taskOn (s : State) (t : Nat) : Bool :=
  match (s.task t).stored with
  | some b => b
  | none => ((s.taskDesc t).map tdAuto).getD false

def genDef : Nat → BitVec 16 := fun _ => 0

/-- The unit an output declaration of KIND COMMAND names (R428): the key of its UNIT_REF. -/
def outUnit (d : Rec) : Nat := ukey (if rd d 2 2 = 0x5001 then 2 else 1) (rd d 4 2)

/-- The generations of a task's output units are recorded (R429). -/
def recordGens (t : Nat) (s : State) : State :=
  let us := ((s.outDecls t).filter (fun d => rd d 0 1 = 1)).map outUnit
  onTask t (fun x => { x with recorded := true, gens := us.foldl (fun g u => tput genDef g u (s.role u).gen) [] }) s

/-- The first commit point after the bank's first start records the generations of tasks that are enabled by AUTO_EN only (R429). -/
def autoGens (s : State) : State :=
  (List.range 64).foldl (fun s t =>
    let x := s.task t
    if x.stored.isNone && !x.recorded && s.taskOn t then recordGens t s else s) s

/-- Words stored one after the other from an offset. -/
def putWords (o : Nat) : List W24 → Tab W24 → Tab W24
  | [], w => w
  | v :: t, w => putWords (o + 1) t (tput wordDef w o v)

/-! ### TEND (R134, R425) -/

/-- The reads, marks, rewinds and releases of one port reach its queue (R134). -/
def applyPort (x : Port) (s : State) : State :=
  match x.q with
  | none => s
  | some q =>
    if x.producer then s
    else
      let f (y : Queue) : Queue :=
        let y := { y with read := y.rel + BitVec.ofNat 32 x.read, markSet := x.mark.isSome, mark := match x.mark with | some m => y.rel + BitVec.ofNat 32 m | none => 0 }
        qRelease (min x.freed y.cells.length) (qWatermark y.cfg) y
      onQueue q f s

/-- TEND (R425): the cycles recorded, the queue operations applied, what was written and pushed handed to the commit. -/
def endTask (c t : Nat) (s : State) : State :=
  let k := s.core c
  let d := (s.taskDesc t).getD (zeros 32)
  let s := onTask t (fun x => { x with last := k.cycles, max := max x.max k.cycles }) s
  let s := (List.range 8).foldl (fun s p => applyPort (k.port p) s) s
  let words := k.marks.foldl (fun w o => tins o (tget wordDef k.stag o) w) []
  let pushes := (List.range 8).filterMap (fun p => let x := k.port p; if x.producer && !x.pushes.isEmpty then x.q.map (fun q => (q, x.pushes)) else none)
  let s := onCore c (fun k => { k with run := none, marks := [], ports := [], safe := 0, nest := [], nestKept := [], busy := k.busy + 16 + tdOutWords d }) s
  onCes (fun x => { x with staged := x.staged ++ [{ task := t, words := words, pushes := pushes }] }) s

/-- TEND: ends the activation. A pending SAFE trap, an overrun budget and an ECC error go first; under REP it is no one-cycle instruction. -/
def execTend (op : CoreOp) (s : State) : Host.Outcome State Fault Refusal :=
  let c := op.core
  let k := s.core c
  match k.run with
  | none => .next s
  | some t =>
    if 4 ≤ c then .next s
    else if k.safe = 1 && ((s.taskDesc t).map tdSafe).getD 65535 ≠ 65535 then .next (safeTrap c s)
    else if (coreEnv s c).budget < k.cycles then .next (endTrap c trapBudget s)
    else if op.ecc = 2 then .next (endTrap c trapEcc (onCore c (fun k => { k with eccUncorr := k.eccUncorr + 1 }) s))
    else
      let s := if op.ecc = 1 then onCore c (fun k => { k with eccCorr := k.eccCorr + 1 }) s else s
      if k.rep.isSome then .next (endTrap c trapIllegal s) else .next (endTask c t s)

/-! ### Staged outputs at the commit (R158, R192, R429) -/

/-- The committed values of a unit as a request of its SET opcode (R429). -/
def committedBody (s : State) (code i : Nat) (gen : BitVec 16) : Rec :=
  let ref := [BitVec.ofNat 8 (if code = 0x5001 then 2 else 1), 0] ++ le 2 i ++ le 2 gen.toNat
  if code = 0x2001 then
    let v := s.com.chOf i
    ref ++ [BitVec.ofNat 8 (b2n v.on), 0] ++ le 2 (if cfMode (s.com.chCfgOf i) = 2 then v.dset else 0) ++ [0, 0]
  else if code = 0x3001 then ref ++ [BitVec.ofNat 8 (b2n (s.com.indOf i).engage), 0]
  else if code = 0x4001 then
    let v := s.com.brOf (brOfCh i)
    ref ++ [BitVec.ofNat 8 v.drive, 0] ++ le 2 v.duty ++ leI 3 v.target ++ zeros 3
  else ref ++ le 2 (s.com.lsOf i) ++ [0, 0]

def setSpecs : List OpSpec := [chSetSpec, indSetSpec, brSetSpec, lsSetSpec]

/-- A task's command is checked as at a commit point and applied, or discarded with its source raised (R192, R429). It acts for the task's owner. -/
def taskCommand (t code i : Nat) (fields : List (Nat × Nat × W24)) (s : State) : State :=
  match setSpecs.find? (fun o => o.code = code) with
  | none => s
  | some o =>
    let ty := if code = 0x5001 then 2 else 1
    let b := fields.foldl (fun b f => putAt b f.1 (le f.2.1 f.2.2.toNat)) (committedBody s code i (tget genDef (s.task t).gens (ukey ty i)))
    let h : Hdr := { ctx := s.owner 5 t, seq := 0, batch := false, wantReply := false, notifyOnly := false, creditRet := 0, targetFn := 0 }
    let r : Req := { h := h, b := b, eff := s.fn + 1 }
    let verdict := orElse ((genFault s false b (o.units b)).map (fun g => (Status.roleStale, g))) (orElse (step7 o r s) (orElse (step8 o r)
      (orElse ((o.range r s).map (fun x => (Status.range, x))) (o.check r s))))
    match verdict with
    | none => (o.run { r with h := { h with ctx := 0 } } s).st
    | some (st, _) =>
      let s := onTask t (fun x => { x with refused := x.refused + 1 }) s
      if st = .schedule then raise 0xE5 t s else raiseD 0xE6 t (statusCode st) s

/-- Output declarations in their order, each as (opcode, INDEX) once. -/
def outCommands (ds : List Rec) : List (Nat × Nat) :=
  ds.foldl (fun l d => let k := (rd d 2 2, rd d 4 2); if l.contains k then l else l ++ [k]) []

/-- The cells of the entry in progress at the end of a queue. -/
def qPart (q : Queue) : Nat := if q.partialOct.isSome then ((q.cells.reverse).takeWhile (fun c => !c.last)).length else 0

/-- A cell is stored at PUT as part of an entry with `n` octets so far. -/
def qStore (c : Cell) (first : Bool) (n : Nat) (fn : Fn) (q : Queue) : Queue :=
  { q with cells := q.cells ++ [{ c with first := first, admFn := fn.truncate 16 }], put := q.put + 1, gapOpen := false,
           partialOct := if c.last then none else some (n + c.fill), skip := false }

/-- One cell of a task's item enters its queue (R121, R122, R129); `rest` are the item's cells from it on that are known, `known` that its LAST is among them. An item may run over
several activations: the rest of one that was dropped or closed is discarded. -/
def pushCell (lim maxc : Nat) (tb : Tb) (fn : Fn) (c : Cell) (rest : Nat) (known : Bool) (q : Queue) : Queue :=
  if q.skip && !c.first then { q with skip := !c.last }
  else
    match q.partialOct with
    | some n =>
      if qPart q + rest ≤ maxc && canAdmit lim (qCharged q) c.last then qStore c false n fn q
      else { qAbort q 2 (if known then rest else 65535) n false fn with skip := !c.last }
    | none =>
      if maxc < rest || !canAdmit lim (qCharged q) c.last then { qDrop q tb fn with skip := !c.last }
      else qStore c true 0 fn q

/-- The cells a task pushed, each with the notices of R135. DESIGN CHOICE: a cell with FIRST that comes while an entry is incomplete begins a new item, and the entry is closed with
REASON 1 (log 37). -/
def pushCells (q : Nat) : List Cell → State → State
  | [], s => s
  | c :: t, s =>
    let g := s.qcfg q
    let s := if c.first then closeQueue q 1 s else s
    let x := s.queue q
    let more := t.takeWhile (fun y => !y.first)
    let known := c.last || more.any (·.last)
    let rest := if c.last then 1 else 1 + min more.length ((more.takeWhile (fun y => !y.last)).length + 1)
    let s := qNotices q x.gapOpen (onQueue q (pushCell (qLimit g) (if qMode g = 1 then 1 else qMaxCells g) s.tbNow s.fn c rest known) s)
    pushCells q t s

def taskPush (s : State) (e : Nat × List Cell) : State := if qMode (s.qcfg e.1) = 0 then s else pushCells e.1 e.2 s

/-- What one activation staged joins the version under construction. -/
def applyStaged (a : Staged) (s : State) : State :=
  let ds := (s.outDecls a.task).filter (fun d => a.words.any (fun w => w.1 = rd d 8 2))
  let word (d : Rec) : W24 := tget wordDef a.words (rd d 8 2)
  let cmds := outCommands (ds.filter (fun d => rd d 0 1 = 1))
  let s := cmds.foldl (fun s k =>
    taskCommand a.task k.1 k.2 ((ds.filter (fun d => rd d 0 1 = 1 && rd d 2 2 = k.1 && rd d 4 2 = k.2)).map (fun d => (rd d 6 1, rd d 1 1, word d))) s) s
  let ripple (s : State) (d : Rec) : State :=
    let b := rd d 4 2
    onCom (fun c =>
      let v := tget (fun _ => (0, 0)) c.ripple b
      { c with ripple := tput (fun _ => (0, 0)) c.ripple b (if rd d 2 2 = 0 then ((word d).toNat, v.2) else (v.1, (word d).toNat)),
               rippleNew := if c.rippleNew.contains b then c.rippleNew else c.rippleNew ++ [b] }) s
  let s := (ds.filter (fun d => rd d 0 1 = 2)).foldl ripple s
  a.pushes.foldl taskPush s

/-- Staged outputs in task-table order (R158). -/
def applyTasks (s : State) : State :=
  let order := match s.sched.img with | none => [] | some i => (entries i 8 s.modeNow 16).map (fun o => ird i o 1 % 64)
  let st := order.filterMap (fun t => s.ces.staged.find? (fun a => a.task = t))
  onCes (fun x => { x with staged := [] }) (st.foldl (fun s a => applyStaged a s) s)

/-! ### Opcodes (R433) -/

def noProg (r : Req) (s : State) : Option (Status × Nat) := if (s.taskDesc (unitIx r.b)).isNone then some (.state, 0x11) else none

/-- ENABLE and the next activation frame of a task as TASK_CONTROL answers them. -/
def taskAnswer (t : Nat) (e : Fn) (s : State) : Rec :=
  genOct s 5 t ++ [BitVec.ofNat 8 (b2n (s.taskOn t)), 0]
    ++ le 4 (match taskEnt s.sched.img s.com.mode t with | none => 0 | some (i, o) => (nextStart (ird i (o + 3) 1) (ird i (o + 4) 1) e).toNat)

/-- TASK_CONTROL (R425, R433): ENABLE as stored; from 0 to 1 it records generations (R429); at 0 the entries the task was admitting are closed with REASON 4 (R129). -/
def taskControlSpec : OpSpec :=
  { code := 0x6000, kind := .commit, solo := false, data := true, units := actsOn 5, priv := 1, access := noAccess, okLen := lenIs 8,
    resv := fun _ => [(6, 1, 0xFE), (7, 1, 0xFF)], range := noRange, check := noProg, anvil := notAnvil, recs := fun _ _ => 0, maxData := fun _ => 8,
    run := fun r s =>
      let t := unitIx r.b
      let on := bit (rd r.b 6 1) 0
      let was := s.taskOn t
      let s := onTask t (fun x => { x with stored := some on }) s
      let s := if on && !was then recordGens t s else s
      let s := if on then s else closeProducer (taskPort t) 4 s
      { st := s, status := .ok, detail := 0, data := taskAnswer t r.eff s },
    fin := fun r s _ => taskAnswer (unitIx r.b) r.eff s }

def taskStatusSpec : OpSpec := readSpec 0x6001 5 6 [] noProg 48 (fun r s =>
    let t := unitIx r.b
    let x := s.task t
    let e := taskEnt s.sched.img s.com.mode t
    genOct s 5 t ++ [BitVec.ofNat 8 (s.owner 5 t), BitVec.ofNat 8 (b2n (s.taskOn t) + 2 * b2n e.isSome)]
      ++ le 3 (match e with | some (i, o) => ird i (o + 6) 3 | none => 0) ++ [0] ++ le 3 x.last ++ le 3 x.max ++ [0, 0] ++ le 4 x.acts.toNat ++ le 4 x.traps.toNat
      ++ le 4 x.safeTraps.toNat ++ le 4 x.refused.toNat ++ [BitVec.ofNat 8 x.cause, 0] ++ le 2 x.trapPc.toNat ++ le 3 x.trapRc.toNat ++ le 3 x.trapSt.toNat
      ++ le 6 x.trapTb.toNat)

/-- TASK_PARAM: words of the parameter area at the commit point. -/
def taskParamSpec : OpSpec :=
  { code := 0x6002, kind := .commit, solo := false, data := false, units := actsOn 5, priv := 1, access := noAccess,
    okLen := fun b => decide (8 ≤ b.length) && b.length = 8 + 3 * rd b 7 1, resv := noResv,
    range := fun r s =>
      let n := rd r.b 7 1
      firstBad [(23, decide (1 ≤ n ∧ n ≤ 64) && (match s.taskDesc (unitIx r.b) with | none => true | some d => decide (rd r.b 6 1 + n ≤ tdPWords d)))]
    check := noProg, anvil := notAnvil, recs := fun _ _ => 0, maxData := fun _ => 0,
    run := fun r s =>
      match s.taskDesc (unitIx r.b) with
      | none => { st := s, status := .ok, detail := 0, data := [] }
      | some d =>
        let base := tdPBase d + rd r.b 6 1
        let ws := (List.range (rd r.b 7 1)).map (fun i => BitVec.ofNat 24 (rd r.b (8 + 3 * i) 3))
        { st := onCore (tdCore d) (fun k => { k with data := putWords base ws k.data }) s, status := .ok, detail := 0, data := [] } }

def coreStatusSpec : OpSpec := readSpec 0x6003 0 4 [(0, 1, 0xFC), (1, 3, 0xFFFFFF)] noCheck 24 (fun r s =>
    let c := rd r.b 0 1 % 4
    let k := s.core c
    let map := ((List.range 64).map (fun t => if (s.taskDesc t).map tdCore = some c then 2 ^ t else 0)).sum
    le 4 k.busyPrev ++ le 4 k.eccCorr.toNat ++ le 4 k.eccUncorr.toNat ++ le 4 s.progId ++ le 8 map)

/-! ### Loading (R401) -/

/-- Program and data memories are loaded from the installed CORE_PROG at a Hearth start; nothing a task held survives but its ENABLE and its recorded generations. Entries the tasks
were admitting are closed with REASON 4 (R129). -/
def cesynStart (s : State) : State :=
  let s := closeProducer (fun e => epKind e = 2) 4 s
  let keep (e : Nat × Task) : Nat × Task := (e.1, { Task.initial with stored := e.2.stored, gens := e.2.gens, recorded := e.2.recorded })
  let cores := (List.range 4).foldl (fun t n =>
    let m := coreImage s.activeImg n
    tput coreDef t n { Core.initial with prog := m.1, data := m.2 }) []
  onCes (fun x => { cores := cores, tasks := (x.tasks.map keep).filter (fun e => e.2 ≠ Task.initial), staged := [] }) s

/-- Cycle counts at tick 0 of a frame. -/
def coresFrameStart (s : State) : State :=
  (List.range 4).foldl (fun s c => onCore c (fun k => { k with busyPrev := k.busy, busy := 0 }) s) s

end Sys2Proof.Machine
end

