-- ==== Sys2Proof/Machine/Update.lean ====
section
/-! DEFINITION. Firmware, schedule and settings update (19_update): manifests, transfer, checking, the update opcodes, SCHED_CHECK. -/

namespace Sys2Proof.Machine

/-! ### Checking a bundle (R609 to R612, R615, R625) -/

/-- R610, R611, R612 and R12 for the manifest in a bank, of session length `mlen`; `act` is the active bank. -/
def manifestForm (i act : Tab Octet) (mlen : Nat) : Bool :=
  let cert := mfCert i
  let comp (c : Nat) : Bool :=
    ird i (ceOff c) 1 = c && decide (ird i (ceOff c + 1) 1 ≤ 1) && (c ≠ 2 && c ≠ 5 && c ≠ 6 || ceId i c = 0) && ((c ≠ 1 && c ≠ 3) || ceLen i c ≠ 0)
      && (ceLen i c ≠ 0 || (ceSha i c).all (· = 0)) && decide (352 + 32 * (ceHash i c + ceBlocks i c) ≤ cert)
      && (!(ceCarry i c) || (ceLen i c = ceLen act c && ceFmt i c = ceFmt act c && ceId i c = ceId act c && ceSha i c = ceSha act c))
  mfHere i && ird i 4 2 = 1 && ird i 6 1 = 6 && decide (ird i 7 1 ≤ 3) && mfLen i = mlen && decide (mlen ≤ 131072) && mfBundle i ≠ 0 && ird i 24 40 = 0
    && [1, 2, 3, 4, 5, 6].all comp && cert % 4 = 0 && decide (352 ≤ cert) && decide (cert + 200 ≤ mlen) && ird i cert 4 ≠ 0 && ird i (cert + 4) 4 = 0

/-- R609: the manifest and the components fit a bank. -/
def bundleFits (i : Tab Octet) : Bool := decide (compOff i 7 ≤ bankSize)

/-- VARIANTS admits the part. -/
def variantOk (i : Tab Octet) : Bool := bit (ird i 7 1) (if Config.variantK then 0 else 1)

/-- The DETAIL of R620, 0 where the manifest passes. -/
def manifestDetail (s : State) (i : Tab Octet) (mlen : Nat) : Nat :=
  if !(manifestForm i s.activeImg mlen) then 1 else if mfSecVer i < s.upd.sv then 2 else if !(variantOk i) then 3 else if !(bundleFits i) then 4 else 0

/-- The signature chain of a manifest: the certificate under slot 0, the manifest under the certificate (R612, R613). -/
def chainOk (s : State) (i : Tab Octet) : Bool :=
  let c := mfCert i
  let pub := (beNat (isub i (c + 8) 32), beNat (isub i (c + 40) 32))
  let m := mfLen i
  match kyPoint (s.key 0).rec_ with
  | none => false
  | some root => keyOk s 0 [4] 5 && ecdsaVerify root (sha256 (isub i c 72)) (isub i (c + 72) 64) && onCurve pub
      && ecdsaVerify pub (sha256 (isub i 0 (m - 64))) (isub i (m - 64) 64)

/-- Octets of block `b` of component `c` (0 the manifest), and where it stands in the bank. -/
def blockLen (i : Tab Octet) (mlen c b : Nat) : Nat := min 4096 ((if c = 0 then mlen else ceLen i c) - 4096 * b)
def blockOff (i : Tab Octet) (c b : Nat) : Nat := (if c = 0 then 0 else compOff i c) + 4096 * b
/-- A block of a component matches its block hash (R611). -/
def blockOk (i : Tab Octet) (c b : Nat) : Bool :=
  sha256 (isub i (blockOff i c b) (blockLen i 0 c b)) = isub i (352 + 32 * (ceHash i c + b)) 32

def compHashOk (i : Tab Octet) (c : Nat) : Bool :=
  ceLen i c = 0 || (sha256 (compImg i c) = ceSha i c && (List.range (ceBlocks i c)).all (blockOk i c))

/-- CORE_PROG meets R615. -/
def coreProgOk (i : Tab Octet) : Bool :=
  match progOff i with
  | none => false
  | some o =>
    ird i o 4 = 0x50535A54 && ird i (o + 4) 2 = 1 && decide (ird i (o + 6) 1 ≤ 64) && ird i (o + 7) 1 = 0 && ird i (o + 8) 4 = ceId i 3
      && decide (ird i (o + 12) 2 ≤ 4096) && decide (ird i (o + 14) 2 ≤ 4096) && ird i (o + 16) 16 = 0
      && [0, 1, 2, 3].all (fun n => decide (ird i (o + 32 + 8 * n) 4 ≤ 65536) && decide (ird i (o + 36 + 8 * n) 4 ≤ 98304)) && progSize i o = ceLen i 3

/-- The first failing step of R625 for a bank, 0 where every step passes. -/
def verifyStep (s : State) (b : Nat) : Nat :=
  let i := s.bank b
  if !(manifestForm i s.activeImg (mfLen i)) || decide (mfSecVer i < s.upd.sv) then 1
  else if !(chainOk s i) then 2
  else if not ([1, 2, 3, 4, 5, 6].all (compHashOk i)) then 3
  else if !(Config.fwFormat (ceFmt i 1) && coreProgOk i) then 4
  else if ceLen i 4 ≠ 0 && (schedCheck (checkEnv s b)).isSome then 5 else 0

/-- The boot check of a bank: the signature chain and the hash of HEARTH_FW (R616). -/
def bootCheck (s : State) (b : Nat) : Bool :=
  let i := s.bank b
  mfHere i && chainOk s i && ceLen i 1 ≠ 0 && sha256 (compImg i 1) = ceSha i 1

/-! ### State of the service -/

def State.inactive (s : State) : Nat := 1 - s.upd.active
def State.mark (s : State) (b : Nat) : Nat := if b = 0 then s.upd.markA else s.upd.markB
def setMark (b m : Nat) (s : State) : State := onUpd (fun u => if b = 0 then { u with markA := m } else { u with markB := m }) s
def setBank (b : Nat) (i : Tab Octet) (s : State) : State := onUpd (fun u => if b = 0 then { u with bankA := i } else { u with bankB := i }) s
/-- The inactive bank is marked empty and what was written of it discarded. -/
def emptyInactive (s : State) : State := onUpd (fun u => { u with prog := [] }) (setMark s.inactive 0 (setBank s.inactive [] s))
/-- A session ends in IDLE with the blocks written discarded (R618). -/
def endSession (s : State) : State := onUpd (fun u => { u with st := 0, owner := 0 }) (emptyInactive s)

/-- UPD_RESULT to every PRIV and SUPERVISOR context (R633). -/
def updResult (d : Rec) (s : State) : State :=
  (List.range 16).foldl (fun s c => if c ≠ 0 && (ctxPriv (s.cx c) = 2 || ctxSupervisor (s.cx c)) then notify c 0xC001 d s else s) s
def resultRec (res step : Nat) (late : Bool) (bundle : Nat) (v : Tb) (fails : Nat) : Rec :=
  [BitVec.ofNat 8 res, BitVec.ofNat 8 step, BitVec.ofNat 8 (b2n late), 0] ++ le 4 bundle ++ le 6 v.toNat ++ le 2 (satN 65535 fails)

/-- Octets written of a block, whether the manifest is complete, and the first missing block (component, block). -/
def written (s : State) (c b : Nat) : Nat := tget (fun _ => 0) s.upd.prog (65536 * c + b)
def blocksOf (s : State) (c : Nat) : Nat :=
  let i := s.bank s.inactive
  if c = 0 then cdiv s.upd.mlen 4096 else if ceCarry i c then 0 else ceBlocks i c
def blockDone (s : State) (c b : Nat) : Bool := written s c b = blockLen (s.bank s.inactive) s.upd.mlen c b
def manifestDone (s : State) : Bool := (List.range (blocksOf s 0)).all (blockDone s 0)
def missing (s : State) : Option (Nat × Nat) :=
  ((if manifestDone s then [0, 1, 2, 3, 4, 5, 6] else [0]).flatMap (fun c => (List.range (blocksOf s c)).map (fun b => (c, b)))).find? (fun x => !(blockDone s x.1 x.2))

/-! ### The transfer opcodes (R618 to R621, R633) -/

def updShape (code len : Nat) (resv : List (Nat × Nat × Nat)) (check : Req → State → Option (Status × Nat)) (run : Req → State → Res) : OpSpec :=
  { code := code, kind := .commit, solo := true, data := false, units := noUnits, priv := 2, access := noAccess, okLen := lenIs len, resv := fun _ => resv,
    range := noRange, check := check, anvil := notAnvil, recs := fun _ _ => 0, maxData := fun _ => 8, run := run }

def updDone (s : State) : Res := { st := s, status := .ok, detail := 0, data := [] }
/-- STATE, DETAIL UPD_STATE, unless the state is one of those named. -/
def updIn (l : List Nat) (s : State) : Option (Status × Nat) := if l.contains s.upd.st then none else some (.state, 0x1F)
/-- A session opcode: from its owner, in RECEIVING (R618). -/
def inSession (r : Req) (s : State) : Option (Status × Nat) :=
  if s.upd.st = 1 && s.upd.owner ≠ r.h.ctx then some (.busy, 0) else updIn [1] s

def updBeginSpec : OpSpec :=
  { updShape 0xC000 8 [] (fun r s => if s.upd.st = 1 && s.upd.owner ≠ r.h.ctx then some (.busy, 0) else updIn [0] s) (fun r s =>
      updDone (onUpd (fun u => { u with st := 1, owner := r.h.ctx, bundle := rd r.b 0 4, mlen := rd r.b 4 4 }) (emptyInactive s))) with
    range := fun r _ => firstBad [(16, rd r.b 0 4 ≠ 0), (20, decide (552 ≤ rd r.b 4 4 ∧ rd r.b 4 4 ≤ 131072))] }

def updWriteRange (s : State) (b : Rec) : Option Nat :=
  let i := s.bank s.inactive
  let c := rd b 0 1
  let n := rd b 6 2
  let known := s.upd.st = 1 && (c = 0 || manifestDone s)
  let off := rd b 4 2
  let w := written s c (rd b 2 2)
  let len := blockLen i s.upd.mlen c (rd b 2 2)
  firstBad [(16, decide (c ≤ 6) && !(known && c ≠ 0 && blocksOf s c = 0)), (18, !known || decide (rd b 2 2 < blocksOf s c)),
    (20, decide (off ≤ 4095) && (!known || off = w || (off = 0 && w = len))), (22, decide (1 ≤ n ∧ n ≤ 2048) && (!known || decide (off + n ≤ len)))]

/-- UPD_WRITE (R619, R620): octets of a block; the last of the manifest is answered with its check, a block outside NORMAL with its hash. -/
def updWriteSpec : OpSpec :=
  { updShape 0xC001 0 [(1, 1, 0xFF)] (fun r s =>
      orElse (inSession r s) (if rd r.b 0 1 ≠ 0 && !(manifestDone s) then some (.state, 0x1F) else none)) (fun r s =>
      let c := rd r.b 0 1
      let b := rd r.b 2 2
      let off := rd r.b 4 2
      let bk := s.inactive
      let base := blockOff (s.bank bk) c b + off
      let img := (r.b.drop 8).foldl (fun t o => (tput octDef t.1 t.2 o, t.2 + 1)) (s.bank bk, base)
      let put (n : Nat) (s : State) : State := onUpd (fun u => { u with prog := tput (fun _ => 0) u.prog (65536 * c + b) n }) s
      let s := put (off + rd r.b 6 2) (setMark bk 1 (setBank bk img.1 s))
      let done := blockDone s c b
      let ok : Res := { st := s, status := .ok, detail := 0, data := [BitVec.ofNat 8 (b2n done), 0, 0, 0] }
      if c = 0 && manifestDone s && done then
        let d := manifestDetail s (s.bank bk) s.upd.mlen
        if d = 0 then ok else { st := endSession s, status := .verify, detail := d, data := [] }
      else if done && s.upd.service ≠ 0 && !(c = 0) && !(blockOk (s.bank bk) c b) then { st := put 0 s, status := .verify, detail := b, data := [] }
      else ok) with
    kind := .now, data := true, okLen := fun b => decide (8 ≤ b.length) && b.length = 8 + rd b 6 2, range := fun r s => updWriteRange s r.b }

/-- CARRY components copied from the active bank (R621). -/
def copyCarry (s : State) : State :=
  let i := s.bank s.inactive
  let a := s.activeImg
  setBank s.inactive ([1, 2, 3, 4, 5, 6].foldl (fun t c =>
    if ceCarry i c then (List.range (ceLen i c)).foldl (fun t k => tput octDef t (compOff i c + k) (tget octDef a (compOff a c + k))) t else t) i) s

def updFinishSpec : OpSpec :=
  { updShape 0xC002 4 [(0, 4, 0xFFFFFFFF)] inSession (fun _ s =>
      match missing s with
      | some (c, b) => { st := s, status := .state, detail := 0x1F, data := [BitVec.ofNat 8 c, 0] ++ le 2 b }
      | none =>
        let s := copyCarry s
        let i := s.bank s.inactive
        let ok := [1, 2, 3, 4, 5, 6].all (fun c => !(ceCarry i c) || sha256 (compImg i c) = ceSha i c) && (s.upd.service = 0 || chainOk s i)
        if ok then { st := onUpd (fun u => { u with st := 2 }) (setMark s.inactive 2 s), status := .ok, detail := 0, data := [255, 0, 0, 0] }
        else { st := endSession s, status := .verify, detail := 0, data := [] }) with kind := .now, data := true }

/-- UPD_VERIFY (R633): the outcome follows as a COMPLETION. -/
def updVerifySpec : OpSpec :=
  { updShape 0xC003 4 [(0, 4, 0xFFFFFFFF)] (fun _ s => orElse (updIn [2, 3] s) (if s.upd.check.isSome then some (.busy, 0) else none)) (fun r s =>
      { st := onUpd (fun u => { u with check := some (r.h.ctx, r.h.seq) }) s, status := .pending, detail := 0, data := [] }) with kind := .now }

/-! ### Activation and after (R622, R628, R629, R633) -/

/-- The activation tick of an UPD_ACTIVATE. -/
def actTick (r : Req) (s : State) : Except (Status × Nat) Tb :=
  if rd r.b 0 1 = 1 then .ok (s.clk.frameTb + BitVec.ofNat 48 (50000 * ((r.eff - s.fn).toNat + 1))) else timeRef s r.b 4

def updActivateSpec : OpSpec :=
  { updShape 0xC004 16 [(1, 3, 0xFFFFFF)] (fun r s =>
      orElse (updIn [2] s)
        (if s.pwr.entry ≠ 0 then some (.state, 0x20)
         else if rd r.b 0 1 = 0 && (s.upd.service = 1 || s.upd.service = 2) then some (.state, 0x21)
         else match actTick r s with
          | .error e => some e
          | .ok v => if rd r.b 0 1 = 0 && isPast s.tbNow v then some (.staleTime, 0) else none)) (fun r s =>
      match actTick r s with
      | .error e => { st := s, status := e.1, detail := e.2, data := [] }
      | .ok v => { st := onUpd (fun u => { u with st := 3, v := v, late := false, defer := none }) s, status := .ok, detail := 0, data := le 6 v.toNat ++ zeros 2 }) with
    data := true
    resv := fun b => [(1, 3, 0xFFFFFF)] ++ (if rd b 0 1 = 0 then [(5, 3, 0xFFFFFF)] else [])
    range := fun r _ => firstBad ([(16, decide (rd r.b 0 1 ≤ 1))] ++ (if rd r.b 0 1 = 0 then timeRefRange r.b 4 else [])) }

def updCancelSpec : OpSpec :=
  updShape 0xC005 4 [(0, 4, 0xFFFFFFFF)] (fun _ s => updIn [2, 3] s) (fun _ s => updDone (onUpd (fun u => { u with check := none, defer := none }) (endSession s)))

/-- UPD_CONFIRM (R628): the PREVIOUS area is freed, the inactive bank retired, SV raised. -/
def updConfirmSpec : OpSpec :=
  updShape 0xC006 4 [(0, 4, 0xFFFFFFFF)] (fun _ s => if s.upd.rollback then some (.state, 0x1F) else updIn [4] s) (fun _ s =>
    let s := setMark s.inactive 4 (onUpd (fun u => { u with st := 0, prev := none, failed := 0, sv := max u.sv (mfSecVer s.activeImg) }) s)
    updDone (updResult (resultRec 4 0 s.upd.late (mfBundle s.activeImg) s.upd.v s.upd.migrate) s))

/-- UPD_ROLLBACK (R629): the fall-back follows at this commit point. -/
def updRollbackSpec : OpSpec :=
  updShape 0xC007 4 [(0, 4, 0xFFFFFFFF)] (fun _ s => if s.upd.rollback then some (.state, 0x1F) else updIn [4] s) (fun _ s =>
    updDone (onUpd (fun u => { u with rollback := true }) s))

/-- UPD_SERVICE (R633): TEST ends at the next Hearth start. -/
def updServiceSpec : OpSpec :=
  updShape 0xC009 4 [(0, 4, 0xFFFFFFFF)] (fun _ s => if s.upd.service = 3 then none else some (.state, 0x1F)) (fun _ s =>
    updDone (onUpd (fun u => { u with testEnd := true }) s))

def updStatusSpec : OpSpec :=
  readSpec 0xC008 0 0 [] noCheck 36 (fun _ s =>
      let u := s.upd
      let total := blocksOf s 0 + (if manifestDone s then ([1, 2, 3, 4, 5, 6].map (blocksOf s)).sum else 0)
      let done := ([0, 1, 2, 3, 4, 5, 6].map (fun c => ((List.range (blocksOf s c)).filter (blockDone s c)).length)).sum
      [BitVec.ofNat 8 u.service, BitVec.ofNat 8 u.st, BitVec.ofNat 8 (s.mark s.inactive), BitVec.ofNat 8 u.failed] ++ le 4 u.sv
        ++ le 4 (mfBundle s.activeImg) ++ le 4 (if u.st = 0 || u.st = 4 then 0 else u.bundle)
        ++ le 4 (if u.st = 0 || u.st = 4 then 0 else done) ++ le 4 (if u.st = 0 || u.st = 4 then 0 else total)
        ++ le 6 (if u.st = 3 then u.v.toNat else 0) ++ zeros 2)

/-! ### SCHED_CHECK (R203) -/

def schedCheckSpec : OpSpec :=
  { code := 0xE002, kind := .now, solo := true, data := false, units := noUnits, priv := 2, access := noAccess, okLen := lenIs 4,
    resv := fun _ => [(0, 1, 0xFE), (1, 3, 0xFFFFFF)], range := noRange,
    check := fun r s =>
      if s.sched.check.isSome then some (.busy, 0)
      else if rd r.b 0 1 = 1 then (if s.sched.img.isNone then some (.state, 0) else none)
      else if s.upd.st = 1 || (bankSched (s.bank s.inactive)).isNone then some (.state, 0) else none,
    anvil := notAnvil, recs := fun _ _ => 0, maxData := fun _ => 0,
    run := fun r s => { st := onSched (fun x => { x with check := some (r.h.ctx, r.h.seq, rd r.b 0 1) }) s, status := .pending, detail := 0, data := [] } }

/-- STATUS and DETAIL of an UPD_VERIFY whose first failing step is `n`. DEDUCED: the failure of a schedule is reported with VERIFY, its check number and its mode (R188), so a failure of
any step is VERIFY, for the others with DETAIL 0 (log 43). -/
def verifyStatus (s : State) (n : Nat) : Status × Nat :=
  if n = 0 then (.ok, 0)
  else if n = 5 then (.verify, match schedCheck (checkEnv s s.inactive) with | some f => 256 * f.check + f.mode | none => 0)
  else (.verify, 0)

/-- A SCHED_CHECK and an UPD_VERIFY that run complete (R203, R633): their COMPLETION entries. -/
def finishChecks (s : State) : State :=
  let s := match s.sched.check with
    | none => s
    | some (c, q, b) =>
      let f := (schedCheck (checkEnv s (if b = 1 then s.upd.active else s.inactive))).getD { CheckFail.at 0 255 65535 with value := 0 }
      completion c q 0xE002 .ok 0 ([BitVec.ofNat 8 f.check, BitVec.ofNat 8 f.mode] ++ le 2 f.entry ++ [BitVec.ofNat 8 f.slot, BitVec.ofNat 8 f.zone]
        ++ le 4 f.value ++ le 4 f.limit) (onSched (fun x => { x with check := none }) s)
  match s.upd.check with
  | none => s
  | some (c, q) =>
    let n := verifyStep s s.inactive
    let v := verifyStatus s n
    completion c q 0xC003 v.1 v.2 [BitVec.ofNat 8 n, 0, 0, 0] (onUpd (fun u => { u with check := none }) s)

end Sys2Proof.Machine
end

