-- ==== Sys2Proof/Machine/Power.lean ====
section
/-! DEFINITION. Power states, supplies and wake (18_power_states): the opcodes, what blocks park, IDLE, park entry, sensor supplies, crystals. -/

namespace Sys2Proof.Machine

/-! ### What blocks park (R586) -/

/-- A channel is committed on in any of its control modes. -/
def parkOn (s : State) (n : Nat) : Bool := !(pwKeep s.pwr.cfg n) && (chanOn s.com n || s.rep.conducting s.tbNow n)

/-- The conditions of R586 that fail, in their order, for the version under construction and what Anvil reports. -/
def blockers (s : State) : List Bool :=
  [(List.range 64).any (parkOn s),
   (List.range 36).any (fun n => decide (s.com.lsOf n ≠ 0)),
   (List.range 8).any (fun b => decide (2 ≤ (s.com.brOf b).drive) || !(still (brRep s b))),
   (List.range 64).any (fun n => cfMode (s.com.chCfgOf n) = 3 && ((s.com.indOf n).engage || decide ((tget coilDef s.rep.coil n).phase ≠ 0))),
   s.acc.att.isSome || s.acc.wait.isSome || !s.acc.exch.isEmpty || decide (s.acc.immo.st ≠ 0),
   decide (s.upd.st = 3),
   s.link.lost || s.rejoining,
   (List.range 16).any (fun c => (s.cx c).reset.isSome)]

/-- BLOCKERS as a mask. -/
def blockMask (s : State) : Nat := maskOf 8 (fun i => (blockers s).getD i false)

/-- A task with ENABLE 1 has an entry in a mode (R582, R584). -/
def tasksActive (s : State) (m : Nat) : Bool := (List.range 64).any (fun t => s.taskOn t && (taskEnt s.sched.img m t).isSome)

/-- Park entry has begun, or begins at its frame. -/
def entering (s : State) : Bool := s.pwr.entry ≠ 0 || (match s.pwr.next with | some (t, _) => decide (2 ≤ t) | none => false)

/-! ### Opcodes (R607) -/

def pwrShape (code len : Nat) (resv : List (Nat × Nat × Nat)) (access : Req → State → Option (Status × Nat)) (check : Req → State → Option (Status × Nat))
    (run : Req → State → Res) : OpSpec :=
  { code := code, kind := .commit, solo := true, data := false, units := noUnits, priv := 0, access := access, okLen := lenIs len, resv := fun _ => resv,
    range := noRange, check := check, anvil := notAnvil, recs := fun _ _ => 0, maxData := fun _ => 0, run := run }

def privOnly (r : Req) (s : State) : Option (Status × Nat) := if ctxPriv (s.cx r.h.ctx) = 2 then none else some (.denied, 0xFFFF)
def privOrMode (r : Req) (s : State) : Option (Status × Nat) := if ctxPriv (s.cx r.h.ctx) = 2 || ctxMode (s.cx r.h.ctx) then none else some (.denied, 0xFFFF)

/-- What a sensor supply makes (R576, R579): 5.0 V while it is enabled in the power state and no fault has switched it off. -/
def snsRail (s : State) (k : Nat) : Nat :=
  if (if s.parked then pwSnsPark s.pwr.cfg k else pwSns s.pwr.cfg k) && !(s.pwr.snsOff.getD k false) then 5000 else 0
def snsRails (s : State) : State := onMon (fun m => { m with rails := m.rails.take 5 ++ [snsRail s 0, snsRail s 1] }) s

/-- PWR_CONFIG (R580): PARK_KEEP names channels in SCHED mode only. -/
def pwrConfigSpec : OpSpec :=
  { pwrShape 0xB000 24 [(10, 1, 0xF0), (11, 1, 0xFF), (20, 4, 0xFFFFFFFF)] privOnly (fun _ s => if entering s then some (.state, 0x1C) else none)
      (fun r s => { st := snsRails (onPwr (fun p => { p with cfg := r.b }) s), status := .ok, detail := 0, data := [] }) with
    recs := fun _ _ => 24
    range := fun r s => firstBad [(20, decide (10 ≤ pwPpm r.b ∧ pwPpm r.b ≤ 500)), (24, decide (pwDeepen r.b ≤ 1000)),
      (28, (List.range 64).all (fun n => !(pwKeep r.b n) || cfMode (s.com.chCfgOf n) = 0))] }

/-- PWR_SET (R582, R586). -/
def pwrSetSpec : OpSpec :=
  { pwrShape 0xB001 4 [(1, 3, 0xFFFFFF)] privOrMode (fun r s =>
        let t := rd r.b 0 1
        if entering s then some (.busy, 0)
        else if t = 1 && tasksActive s s.com.mode then some (.state, 0x1D)
        else if 2 ≤ t && (blockers s).any id then some (.state, 0x1C) else none)
      (fun r s =>
        let t := rd r.b 0 1
        if t = 0 then { st := onPwr (fun p => { p with state := 0, next := none }) s, status := .ok, detail := 0, data := [] }
        else
          { st := onPwr (fun p => { p with next := some (t, r.eff, r.h.ctx, r.h.seq) }) s, status := if 2 ≤ t then .pending else .ok, detail := 0, data := [] }) with
    range := fun r _ => firstBad [(16, decide (rd r.b 0 1 ≤ 3))] }

/-- Whether an island is clock-gated in IDLE (R583), in the order of R23: MGMT, CORE, NET, SEC, QF, BUS, TB. -/
def islandGated (s : State) (i : Nat) : Bool :=
  s.pwr.state = 1 && (i = 1 || (i = 2 && !((s.eth 0).link) && !((s.eth 1).link))
    || (i = 5 && (List.range 8).all (fun p => let k := s.can p; k.st = 0 || k.st = 6) && (List.range 12).all (fun n => let k := s.lin n; k.st = 0 || k.st = 2)))

/-- Body bias in units of 10 mV and memory assist of an island (R585). VCORE is the fifth rail. -/
def islandBias (s : State) (i : Nat) : Int :=
  if islandGated s i then -30
  else if s.rep.mon.rails.getD 4 0 < 780 then 15 else (Config.bodyBias i (s.hmon.proc.getD i 0) % 21 : Nat) - (5 : Int)
def islandAssist (s : State) (i : Nat) : Nat := if islandGated s i then 4 else if s.rep.mon.rails.getD 4 0 < 780 then 3 else 0

def pwrStatusSpec : OpSpec := readSpec 0xB002 0 0 [] noCheck 62 (fun _ s =>
  let p := s.pwr
  [BitVec.ofNat 8 p.state, BitVec.ofNat 8 p.entry] ++ le 2 (blockMask s) ++ [BitVec.ofNat 8 p.lastRestart, 0] ++ le 4 p.restarts.toNat
    ++ (List.range 7).flatMap (fun i => le 2 (s.rep.mon.rails.getD i 0)) ++ (List.range 7).flatMap (fun i => leI 1 (islandBias s i))
    ++ (List.range 7).map (fun i => BitVec.ofNat 8 (islandAssist s i)) ++ p.cfg)

def padReleaseSpec : OpSpec :=
  pwrShape 0xB003 4 [(0, 4, 0xFFFFFFFF)] privOrMode noCheck (fun _ s =>
    { st := onPwr (fun p => { p with padsHeld := false }) s, status := .ok, detail := 0, data := [] })

def pwrWakeListSpec : OpSpec := readSpec 0xB004 0 0 [] noCheck 260 (fun _ s => [BitVec.ofNat 8 s.pwr.wakes.length, 0, 0, 0] ++ s.pwr.wakes.flatten)

/-- HEARTH_RESTART (R600): the restart follows at the commit point, its COMPLETION when Hearth has started (R71). -/
def hearthRestartSpec : OpSpec :=
  { pwrShape 0xB005 4 [(0, 4, 0xFFFFFFFF)] privOnly noCheck (fun r s =>
      { st := onPwr (fun p => { p with restart := some (r.h.ctx, r.h.seq) }) s, status := .pending, detail := 0, data := [] }) with kind := .now }

/-! ### IDLE (R582 to R584) -/

/-- A committed IDLE takes force at tick 0 of its effect frame. -/
def idleBegin (s : State) : State :=
  match s.pwr.next with
  | some (1, f, _, _) => if f = s.fn then onPwr (fun p => { p with state := 1, next := none }) s else s
  | _ => s

/-- IDLE ends, or does not begin, at the commit point at which an enabled task has an entry in the active mode. -/
def idleEnd (s : State) : State :=
  if (s.pwr.state = 1 || (match s.pwr.next with | some (1, _) => true | _ => false)) && tasksActive s s.com.mode then
    onPwr (fun p => { p with state := if p.state = 1 then 0 else p.state, next := match p.next with | some (1, _) => none | x => x }) s
  else s

/-! ### Entering park (R587 to R590) -/

/-- A queue whose cells AP3 discards (R588): hosts or tasks consume it. The notification queues are saved. -/
def parkDrains (s : State) (q : Nat) : Bool := decide (48 ≤ q) && (epKind (qConsumer (s.qcfg q)) = 1 || epKind (qConsumer (s.qcfg q)) = 2)

/-- The entries of LIN transmit queues are withdrawn; no completion is defined for them. -/
def linFlush (s : State) : State :=
  (List.range 12).foldl (fun s n => (List.range 8).foldl (fun s i =>
    let q := 1288 + 16 * n + i
    let m := (s.queue q).cells.length
    if m = 0 then s
    else onQueue q (fun x => { qRelease m (qWatermark (s.qcfg q)) x with read := x.rel + BitVec.ofNat 32 m }) s) s) s

/-- PARK_ENTRY_BEGIN: tick 0 of the effect frame of a committed PWR_SET PARK. -/
def execParkEntryBegin (s : State) : Host.Outcome State Fault Refusal :=
  match s.pwr.next with
  | some (t, f, c, q) =>
    if t < 2 || !(s.hearthUp) || decide ((s.fn - f).toNat ≥ 2 ^ 31) then .next s
    else
      let s := linFlush ((List.range 8).foldl (fun s p => canFlush p s) s)
      let queued := ((s.qf.queues.filter (fun e => parkDrains s e.1)).map (fun e => e.2.cells.length)).sum
      .next (onPwr (fun p => { p with next := none, entry := 1, target := t, entryFn := f, by_ := c, bySeq := q, queued := queued, noticed := [], slept := [],
                                      abandon := none }) s)
  | none => .next s

/-- PARK_NOTICE at slot 200 of the frame of entry. -/
def parkNotice (s : State) : State :=
  let p := s.pwr
  if p.entry = 1 && s.fn = p.entryFn then
    (List.range 16).foldl (fun s c => notify c 0xB001 ([BitVec.ofNat 8 p.target, 0, 0, 0] ++ le 4 p.entryFn.toNat ++ le 4 p.queued) s) s
  else s

/-- LIN ports go to sleep at park entry; a frame in progress is abandoned. -/
def linPark (s : State) : State :=
  (List.range 12).foldl (fun s n => if (s.lin n).st = 1 || (s.lin n).st = 3 then linState n 2 (linAbandon n s) else s) s

/-- The entry at the head of a context's notification queue: the cells it takes there, its octets, the cells of the packet that carries it (R99); a gap
marker travels as a GAP entry. -/
def ntfHead (c : Nat) (s : State) : Option (Nat × Rec × Nat) :=
  match qHead (s.queue (32 + c)) 0 with
  | none => none
  | some (n, some e) => some (n, e, cellsOf (20 + e.length))
  | some (n, none) =>
    let d := (((s.queue (32 + c)).cells.head?).map (·.data)).getD []
    let e := ntfEntry 4 (BitVec.ofNat 32 (rd d 16 4)) (BitVec.ofNat 48 (rd d 4 6)) (sub d 0 4)
    some (n, e, cellsOf (20 + e.length))

/-- What AP1 waits for (R587): queues drained, no engine operation in flight, the notice forwarded wherever there was credit for it. -/
def ap1Ready (s : State) : Bool :=
  (List.range 16).all (fun c =>
    let x := s.cx c
    !(ctxEnabled x) || (ctxUsed x = 0 && ctxReplyUsed x = 0 && ctxLimbo s x = 0
      && (s.pwr.noticed.contains c || (match ntfHead c s with | none => true | some (_, _, n) => decide (x.ntfCredit < n)))))
  && s.cellsFlight = 0

/-- PARK_AP1: the first commit point at which the queues are drained and the hosts notified. -/
def execParkAp1 (s : State) : Host.Outcome State Fault Refusal :=
  if s.pwr.entry = 1 && s.pwr.abandon.isNone && decide (s.pwr.entryFn ≠ s.fn ∨ 40000 ≤ s.tick) && ap1Ready s then
    let s := atTick 40000 s
    let can := (List.range 8).filter (fun p => (s.can p).st ≠ 0 && (s.can p).st ≠ 6)
    let lin := ((List.range 12).filter (fun n => (s.lin n).st = 1 || (s.lin n).st = 3)).map (· + 8)
    .next (linPark (canPark (onPwr (fun p => { p with entry := 2, slept := can ++ lin }) s)))
  else .next s

/-- An event gives the reading of the park counter, which never runs back from one reading to the next. -/
def parkTo (pt : Nat) (s : State) : State := onTime (fun t => { t with park := max t.parkSeen pt, parkSeen := max t.parkSeen pt, parkFrac := 0 }) s

/-- PARK_AP2: the save image is written and read back; `pt` is the park time of the rising edge at which PT_S and TB_S are taken (R225, R588). -/
def execParkAp2 (pt : Nat) (s : State) : Host.Outcome State Fault Refusal :=
  if s.pwr.entry = 2 && s.pwr.abandon.isNone then
    let s := onTime (fun t => { t with ptS := t.park, tbS := t.tb }) (parkTo pt s)
    let img : Save := { com := s.com, epoch := s.link.epoch, fn := s.fn, ctxs := s.ctxs, ntf := s.qf.queues.filter (fun e => decide (32 ≤ e.1) && decide (e.1 < 48)),
                        time := s.time }
    .next (onPwr (fun p => { p with entry := 3, save := some img }) s)
  else .next s

/-- Park ticks in a minute and in an hour (R224). -/
def parkMinute : Nat := 60 * 32768
def parkHour : Nat := 60 * parkMinute

/-- What Anvil does at AP3 (R591): bridges coast with their encoder levels recorded, sinks and LF drivers are off. -/
def anvilPark (s : State) : State :=
  let s := (List.range 8).foldl (fun s b => onBridge b (fun k => { k with parkEnc := (k.encA, k.encB) }) (if s.modeA (brCh b) = 4 then bridgeCoast b s else s)) s
  let s := (List.range 36).foldl (fun s n => onSink n (fun k => { k with b := 0, next := none, pulseEnd := none }) s) s
  lfQuiet s

/-- PARK_AP3: pads are held, the Hearth rails go off; cells that hosts or tasks consume are discarded (R587, R588, R597). -/
def execParkAp3 (s : State) : Host.Outcome State Fault Refusal :=
  if s.pwr.entry = 3 && s.pwr.abandon.isNone then
    let s := onQf (fun x => { x with queues := (x.queues.map (fun e =>
        if parkDrains s e.1 then (e.1, { e.2 with cells := [], rel := e.2.put, read := e.2.put, markSet := false, gapOpen := false, wm := false, partialOct := none }) else e)) }) s
    let s := anvilPark s
    let s := onMon (fun m => { m with rails := [5000, 0, 0, 0, 0, 0, 0] }) s
    let s := onAcc (fun a => { a with uhfEn := false, uhfCal := false }) s
    let s := onPwr (fun p => { p with entry := 0, state := p.target, up := false, padsHeld := true, abandon := none, waking := false, parkPt := s.time.park,
                                      timerNext := s.time.park + pwTimer p.cfg * parkMinute, modelAt := s.time.park / 32768 })
        (onTime (fun t => { t with cmpHold := true }) { s with blk := none, snaps := [] })
    .next (clockSource (snsRails s))
  else .next s

/-- Park entry is abandoned at a commit point (R589): RUN, ports awake again, the save image discarded, hosts told. -/
def parkAbandon (s : State) : State :=
  match s.pwr.abandon with
  | none => s
  | some (code, ix) =>
    let p := s.pwr
    if p.entry = 0 then onPwr (fun p => { p with abandon := none }) s
    else
      let s := p.slept.foldl (fun s u => if u < 8 then onCan u canEnter s else linEnter (u - 8) s) s
      let s := onPwr (fun p => { p with entry := 0, state := 0, abandon := none, save := none, slept := [], noticed := [] }) s
      let s := (List.range 16).foldl (fun s c => notify c 0xB003 [BitVec.ofNat 8 (p.entry - 1), BitVec.ofNat 8 code, BitVec.ofNat 8 ix, 0] s) s
      let s := raise 0x184 0 s
      useFree (completion p.by_ p.bySeq 0xB001 (statusOf (Config.parkAbandoned s.free)) 0 [] s)

/-- PARK_ENTRY_TIMEOUT: AP1 has not been reached within 2,000 frames (R587). -/
def execParkEntryTimeout (s : State) : Host.Outcome State Fault Refusal :=
  if s.pwr.entry = 1 && s.pwr.abandon.isNone && decide (2000 ≤ (s.fn - s.pwr.entryFn).toNat) then .next (deviceWake 11 0 0 0 true s) else .next s

/-! ### In park (R591, R592, R593) -/

/-- PARK_DEEPEN: DEEPEN_H hours in PARK-S have passed. -/
def execParkDeepen (s : State) : Host.Outcome State Fault Refusal :=
  if s.pwr.state = 2 && pwDeepen s.pwr.cfg ≠ 0 && !s.pwr.waking then
    .next (onPwr (fun p => { p with state := 3 }) (parkTo (s.pwr.parkPt + pwDeepen s.pwr.cfg * parkHour) s))
  else .next s

/-- PARK_TIMER_EXPIRY: wake source 7. -/
def execParkTimerExpiry (s : State) : Host.Outcome State Fault Refusal :=
  if s.parked && pwTimer s.pwr.cfg ≠ 0 then
    let s := parkTo s.pwr.timerNext s
    .next (deviceWake 7 0 0 0 true (onPwr (fun p => { p with timerNext := p.timerNext + pwTimer p.cfg * parkMinute }) s))
  else .next s

/-- PARK_MODEL_UPDATE: the next multiple of 32,768 park ticks: the models of channels that do not conduct take a step of 1 s (R284, R326). -/
def execParkModelUpdate (s : State) : Host.Outcome State Fault Refusal :=
  if s.parked then
    let s := onPwr (fun p => { p with modelAt := p.modelAt + 1 }) (parkTo ((s.pwr.modelAt + 1) * 32768) s)
    .next ((List.range 64).foldl (fun s n =>
      if s.conducting n then s
      else coilPark n (onChan n (fun c => { c with theta := wireCool (pfTau (s.pfA n)) c.theta }) s)) s)
  else .next s

/-- WAKE_EVENT: a source of R593 with an event of its own kind: a WAKE pin (3), LH_N (5), HSPI (6). `pt` is the park time. The ports,
inputs, park timer and RESET_N have commands of their own, and a fault is recorded where it becomes severe. -/
def execWakeEvent (code ix pt : Nat) (s : State) : Host.Outcome State Fault Refusal :=
  let en : Option Bool :=
    if code = 3 then (if ix < 4 then some (pwPin s.pwr.cfg ix) else none)
    else if code = 5 then (if ix = 0 then some (pwLh s.pwr.cfg) else none)
    else if code = 6 then (if ix < 2 then some (pwHspi s.pwr.cfg ix) else none)
    else none
  match en with
  | none => .next s
  | some e =>
    if s.pwr.state = 4 then .next s
    else
      let s := parkTo pt s
      let s := if code = 3 then onMon (fun m => { m with wake := if pwPol s.pwr.cfg ix then setBit m.wake ix else clrBit m.wake ix }) s else s
      .next (deviceWake code ix 0 0 e s)

/-! ### Supplies (R578, R579) -/

/-- SNS_FAULT: a sensor supply is overloaded or stays low: it switches off. -/
def execSnsFault (k : Nat) (s : State) : Host.Outcome State Fault Refusal :=
  if k < 2 && snsRail s k ≠ 0 then .next (raise 0x183 k (snsRails (onPwr (fun p => { p with snsOff := p.snsOff.set k true }) s))) else .next s

/-- SNS_RETRY: it tries again, every 100 ms. -/
def execSnsRetry (k : Nat) (s : State) : Host.Outcome State Fault Refusal :=
  if k < 2 && s.pwr.snsOff.getD k false then
    .next (snsRails (onPwr (fun p => { p with snsOff := p.snsOff.set k false }) s))
  else .next s

/-- XTAL32_STOP: the park counter goes over to the internal oscillator; R226 takes 30,000 ppm until the next power-on reset (R603). -/
def execXtal32Stop (s : State) : Host.Outcome State Fault Refusal :=
  if s.pwr.xtal32 then .next (raise 0x186 0 (onPwr (fun p => { p with xtal32 := false }) s)) else .next s

end Sys2Proof.Machine
end

