-- ==== Sys2Proof/Machine/Activation.lean ====
section
/-! DEFINITION. The activation of a task: its input snapshot, and the core as it stands at ENTRY (12_cesyn_cores R402, R425 to R427, R162, R196). -/

namespace Sys2Proof.Machine

/-! ### Activation (R162, R402, R425 to R427) -/

/-- Reads an input declaration of KIND STATUS may name (R427). DESIGN CHOICE: R27 has the monitor readings and bias settings of Hearth's islands reported in input snapshots, and
R427 has no declaration of theirs; a declaration may name MON_READ, its INDEX the GROUP, and PWR_STATUS (log 37). -/
def taskReads : List OpSpec :=
  [chStatusSpec, lhStatusSpec, chProtStatusSpec, supplyStatusSpec, indStatusSpec, brStatusSpec, lsStatusSpec, lightStatusSpec, inStatusSpec, monReadSpec, pwrStatusSpec]

/-- The octets of a STATUS declaration, from S(k). Where the opcode gives no such octets the spec states none: free octets. -/
def statusOctets (t : Nat) (d : Rec) (s : State) : Rec :=
  let n := rd d 1 1
  let off := rd d 6 1
  let free (i : Nat) : Octet := Config.freeOctet (0x10000 + t) i s.free
  match taskReads.find? (fun o => o.code = rd d 2 2) with
  | none => (List.range n).map free
  | some o =>
    let v := s.readView s.fn
    let ty := match o.units (zeros 6) with | u :: _ => u.types.headD 0 | [] => 0
    let b : Rec := if o.code = 0xD003 then [BitVec.ofNat 8 (rd d 4 2), 0, 0, 0] else if ty = 0 then [] else [BitVec.ofNat 8 ty, 0] ++ le 2 (rd d 4 2) ++ le 2 (v.gen ty (rd d 4 2)).toNat
    let r : Req := { h := { ctx := s.owner 5 t, seq := 0, batch := false, wantReply := true, notifyOnly := false, creditRet := 0, targetFn := 0 }, b := b, eff := s.fn }
    let data := if (orElse ((o.range r v).map (fun x => (Status.range, x))) (o.check r v)).isSome then [] else (o.run r v).data
    (List.range n).map (fun i => match data[off + i]? with | some x => x | none => free i)

/-- Octets packed three to a word, the last word filled with 0 (R11, R427). -/
def packWords : Nat → Rec → List W24
  | 0, _ => []
  | n + 1, b => if b.isEmpty then [] else BitVec.ofNat 24 (rd b 0 3) :: packWords n (b.drop 3)

/-- Samples as packed halves, the first in bits [11:0] (R427). -/
def packHalves : Nat → List Nat → List W24
  | 0, _ => []
  | n + 1, l => match l with
    | [] => []
    | [a] => [BitVec.ofNat 24 (a % 4096)]
    | a :: b :: t => BitVec.ofNat 24 (a % 4096 + 4096 * (b % 4096)) :: packHalves n t

/-- What an ADC declaration with PREV receives (R427): STALE, MISSING and the conversions its entry made in frame k - 1, where SAMPLE flits have brought that frame's. After a Hearth
start no such frame was sampled for the task. -/
def prevSamples (t : Nat) (d : Rec) (s : State) : Bool × Bool × List Nat :=
  let m := s.rep.mon
  match m.adcAt, m.adc.find? (fun e => e.1 = rd d 2 2) with
  | some (f, mode), some e => if f = s.fn - 1 && !(s.task t).fresh then (decide (mode ≠ s.modeNow), false, e.2) else (true, true, [])
  | _, _ => (true, true, [])

/-- STALE of conversions of the frame in progress (R196): as sampled, or taken while Anvil still runs the old mode, or not taken. -/
def staleNow (a : Bool × Bool × List Nat) (s : State) : Bool := a.1 || a.2.1 || decide (s.sched.anvilMode ≠ s.modeNow)

/-- The words of an ADC declaration: its header, then the samples as packed halves. -/
def adcWords (n : Nat) (stale missing : Bool) (l : List Nat) : List W24 :=
  BitVec.ofNat 24 (b2n stale + 2 * b2n missing) :: (if missing then [] else packHalves 128 (l.take n))

/-- What a declaration puts into the snapshot, taking the next ADC data where it is an ADC declaration without PREV: (STALE, MISSING, samples). -/
def declWords (t : Nat) (d : Rec) (adc : List (Bool × Bool × List Nat)) (s : State) : List W24 × List (Bool × Bool × List Nat) :=
  match rd d 0 1 with
  | 1 => (packWords 16 (statusOctets t d s), adc)
  | 2 =>
    if bit (rd d 7 1) 0 then
      let a := prevSamples t d s
      (adcWords (rd d 1 1) a.1 a.2.1 a.2.2, adc)
    else
      let a := adc.headD (false, true, [])
      (adcWords (rd d 1 1) (staleNow a s) a.2.1 a.2.2, adc.tail)
  | 3 => ([BitVec.ofNat 24 (tget bridgeDef (s.readView s.fn).rep.br (rd d 4 2)).rippleCount], adc)
  | _ => ([], adc)

/-- The input snapshot of a task (R426, R427). -/
def snapWords (t : Nat) (s : State) : List Rec → List (Bool × Bool × List Nat) → Tab W24 → Tab W24
  | [], _, w => w
  | d :: ds, adc, w => let x := declWords t d adc s; snapWords t s ds x.2 (putWords (rd d 8 2) x.1 w)

/-- Port `p` of task `t` as it stands at activation (R430, R431). -/
def freezePort (s : State) (t p : Nat) : Port :=
  let e := 0x2000 + t + 64 * p
  match s.qf.queues.find? (fun x => qMode x.2.cfg ≠ 0 && (qProducer x.2.cfg = e || qConsumer x.2.cfg = e)) with
  | none => Port.initial
  | some (q, x) =>
    if qProducer x.cfg = e then { Port.initial with q := some q, producer := true }
    else { Port.initial with q := some q, view := x.cells.take (qVisible x (qCut x.cfg)), read := (x.read - x.rel).toNat,
                             mark := if x.markSet then some (x.mark - x.rel).toNat else none }

/-- The core at activation (R402, R425): registers set, marks cleared, views frozen, snapshot loaded, ACT_INFO. -/
def activate (t m : Nat) (d : Rec) (adc : List (Bool × Bool × List Nat)) (s : State) : State :=
  let c := tdCore d
  let x := s.task t
  let info := t + 64 * c + 256 * b2n x.fresh + 512 * b2n x.safeReq + 1024 * b2n (decide (x.mode ≠ some m)) + 2048 * (m % 8)
  let ports := (List.range 8).foldl (fun l p => tput portDef l p (freezePort s t p)) []
  let snap := snapWords t s (s.inDecls t) adc []
  let s' := onCore c (fun k =>
    { k with snap := snap, marks := [], a := [], d := [], p := [], n := [], m := [], amc := 0, sp := BitVec.ofNat 17 (tdTop d), sb := BitVec.ofNat 17 (tdBound d),
             st := 0, lc := 0, ls := 0, le_ := 0, rc := 0, pc := BitVec.ofNat 16 (tdEntry d), run := some t, stackTop := BitVec.ofNat 17 (tdTop d),
             actFn := s.fn, tbh := (s.tbNow >>> 24).truncate 24, info := BitVec.ofNat 24 info, cycles := 0, rep := none, cut := false, nest := [], nestKept := [], safe := b2n x.safeReq,
             busy := k.busy + 16 + tdInWords d, ports := ports }) s
  useFree (onTask t (fun x => { x with acts := x.acts + 1, fresh := false, mode := some m, safeReq := false }) s')

/-- TASK_ACTIVATION: at tick 200 times SLOT of an activation frame the task begins on its core (R425), unless it is disabled, a reaction holds it, or its core
runs another. `adc` is what its ADC declarations without PREV received in the frame, in their order: STALE, MISSING, the samples. -/
def execTaskActivation (t : Nat) (adc : List (Bool × Bool × List Nat)) (s : State) : Host.Outcome State Fault Refusal :=
  match taskEnt s.sched.img s.modeNow t, s.taskDesc t with
  | some (i, o), some d =>
    if s.hearthUp && startFrame (ird i (o + 3) 1) (ird i (o + 4) 1) s.fn && s.taskOn t && !s.taskHeld t && (s.core (tdCore d)).run.isNone then
      .next (activate t s.modeNow d adc (atTick (200 * ird i (o + 2) 1) s))
    else .next s
  | _, _ => .next s

end Sys2Proof.Machine
end

