-- ==== Sys2Proof/Machine/Eth.lean ====
section
/-! DEFINITION. Ethernet ports (14_lin_and_ethernet R486 to R493) and packets as octets on a transport (R58, R69, R76, R78, R86). -/

namespace Sys2Proof.Machine

/-! ### ETH_CONFIG and ETH_STATUS (R487, R490, R492, R498) -/

/-- The security associations a record installs where `old` was in force: slot and the usage bit it needs. -/
def ethInstalls (old new : Rec) : List (Nat × Nat) :=
  if !(efMacsec new) then []
  else
    (if efMacsec old && efTxSlot old = efTxSlot new && efTxAn old = efTxAn new && efTxSci old = efTxSci new then [] else [(efTxSlot new, 0)])
    ++ ([0, 1].filter (fun r => efRxValid new r && !(efMacsec old && efRxValid old r && efRxSlot old r = efRxSlot new r && efRxAn old r = efRxAn new r
          && efRxSci old = efRxSci new))).map (fun r => (efRxSlot new r, 1))

/-- The SAs a record installs at a commit point: their slots' uses counted, their PNs at the start (R490, R491); a slot that can no longer serve leaves its SA invalid. -/
def ethInstall (p : Nat) (old new : Rec) (s : State) : State :=
  let s := (ethInstalls old new).foldl (fun s e => if keyOk s e.1 [1] e.2 then takeUse e.1 s else raise 0x132 p s) s
  let l := ethInstalls old new
  onEth p (fun k =>
    { k with cfg := new, txPn := if l.any (fun e => e.2 = 0) then 1 else k.txPn, lowSent := k.lowSent && !(l.any (fun e => e.2 = 0)),
             rxPn0 := if efRxValid old 0 && efRxSlot old 0 = efRxSlot new 0 && efRxAn old 0 = efRxAn new 0 && efMacsec old then k.rxPn0 else 0,
             rxPn1 := if efRxValid old 1 && efRxSlot old 1 = efRxSlot new 1 && efRxAn old 1 = efRxAn new 1 && efMacsec old then k.rxPn1 else 0 }) s

/-- A link goes down (R493, R87, R88): the contexts' waiting device packets are discarded, their credit to be returned with LINK_RESTART. -/
def ethLost (p : Nat) (s : State) : State :=
  let s := onEth p (fun k => { k with link := false }) s
  (List.range 16).foldl (fun s c =>
    let x := s.cx c
    if c ≠ 0 && ctxTransport x = p + 1 then
      let rp := ((x.out.filter (·.reply)).map (fun d => cellsOf (devLen d))).sum
      let s := onCtx c (fun y => { y with out := [], rpRel := y.rpRel + rp, creditRet := y.creditRet + (y.out.map (·.creditRet)).sum }) s
      linkRestart c 2 s
    else s) s

/-- ETH_LINK_DOWN is raised with it while Hearth runs. -/
def ethDown (p : Nat) (s : State) : State := ethLost p (raise 0x130 p s)

def ethConfigSpec : OpSpec :=
  { code := 0x7C00, kind := .commit, solo := true, data := true, units := actsOn 4, priv := 2, access := noAccess, okLen := lenIs 48,
    resv := fun _ => [(6, 2, 0xFFFF), (8, 1, 0xFE), (9, 1, 0xE0), (18, 1, 0xF8), (19, 1, 0xF0), (23, 1, 0xF0), (26, 2, 0xFFFF), (44, 4, 0xFFFFFFFF)],
    range := fun r _ =>
      let c := sub r.b 8 40
      firstBad [portIn 20 22 r.b, (24, rd c 0 1 = unitIx r.b - 20), (25, decide (efRate c ≤ 2)), (26, decide (0x600 ≤ efType c)),
        (36, decide (efTxSlot c < unitCount 6)), (37, decide (efRxSlot c 0 < unitCount 6)), (38, decide (efRxSlot c 1 < unitCount 6))],
    check := fun r s =>
      let c := sub r.b 8 40
      match (ethInstalls (zeros 40) c).find? (fun e => !(keyOk s e.1 [1] e.2)) with
      | some e => some (.key, e.1)
      | none => none
    anvil := notAnvil, recs := fun _ _ => 0, maxData := fun _ => 2,
    run := fun r s =>
      let c := sub r.b 8 40
      let p := rd c 0 1
      let old := (s.eth p).cfg
      let s := ethInstall p old c s
      let s := if rd old 1 1 % 16 ≠ rd c 1 1 % 16 ∧ (s.eth p).link then ethDown p s else s
      let s := if old = c then s else reassign 4 (20 + p) s
      { st := s, status := .ok, detail := 0, data := genOct s 4 (20 + p) },
    fin := finGen 4 }

def ethStatusSpec : OpSpec :=
  { readSpec 0x7C01 4 6 [] noCheck 68 (fun r s =>
      let k := s.eth (unitIx r.b - 20)
      genOct s 4 (unitIx r.b) ++ [BitVec.ofNat 8 (b2n k.link), BitVec.ofNat 8 (efRate k.cfg)] ++ le 4 k.rxFrames.toNat ++ le 4 k.rxOther.toNat
        ++ le 4 k.rxDrop.toNat ++ le 4 k.txFrames.toNat ++ le 4 k.txPnDrop.toNat ++ le 4 k.txPn ++ k.cfg) with
    range := fun r _ => firstBad [portIn 20 22 r.b] }

/-! ### Sending (R79, R489 to R491) -/

/-- The station address (R487). -/
def ethMac (c : Rec) : Nat := if efMac c = 0 then 2 * 2 ^ 40 + Config.uid.toNat % 2 ^ 40 else efMac c

/-- The frame that carries a device packet of context `c` (R75, R79, R487): to the bound peer, tagged with the bound VLAN identifier and the port's PCP unless the context is
untagged, under the command EtherType of the port. -/
def ethFrameOf (s : State) (p c : Nat) (sec : Option (Nat × Nat × Nat)) (d : DevPkt) : EthOut :=
  let k := (s.eth p).cfg
  let x := (s.cx c).cfg
  let vid := rd x 10 2 % 4096
  { dst := rd x 4 6, src := ethMac k, tag := if vid = 0 then none else some (8192 * efPcp k + vid), etype := efType k, sec := sec, ctx := c, pkt := d }

/-- A device packet leaves in a frame of its own, or is discarded for want of a usable SA; the credit it carried is then still to be returned (R66). -/
def ethSendOne (p c : Nat) (d : DevPkt) (s : State) : State :=
  let k := s.eth p
  let go (sec : Option (Nat × Nat × Nat)) (s : State) : State := onEth p (fun k => { k with txFrames := k.txFrames + 1, sent := k.sent ++ [ethFrameOf s p c sec d] }) s
  let lose (s : State) : State := onCtx c (fun y => { y with creditRet := y.creditRet + d.creditRet }) (onEth p (fun k => { k with txPnDrop := k.txPnDrop + 1 }) s)
  if !(efMacsec k.cfg) then go none s
  else if !(keyOk s (efTxSlot k.cfg) [1] 0) then raise 0x132 p (lose s)
  else if 0xFFFFFFFF < k.txPn then raise 0x134 p (lose s)
  else
    let s := if k.txPn = 0xC0000000 && !k.lowSent then raise 0x133 p (onEth p (fun k => { k with lowSent := true }) s) else s
    go (some (efTxAn k.cfg, efTxSci k.cfg, k.txPn)) (onEth p (fun k => { k with txPn := k.txPn + 1 }) s)

/-- Device packets of a context that waits on an Ethernet port leave in their order while the link is up. -/
def ethDrainCtx (s : State) (c : Nat) : State :=
  let x := s.cx c
  let t := ctxTransport x
  if (t = 1 || t = 2) && (s.eth (t - 1)).link && !x.out.isEmpty then
    let s := x.out.foldl (fun s d => ethSendOne (t - 1) c d s) s
    onCtx c (fun y => { y with out := [], rpRel := y.rpRel + ((x.out.filter (·.reply)).map (fun d => cellsOf (devLen d))).sum }) s
  else s

/-- What leaves on both ports now; `sent` holds what left last. -/
def ethDrain (s : State) : State := (List.range 16).foldl ethDrainCtx ((List.range 2).foldl (fun s p => onEth p (fun k => { k with sent := [] }) s) s)

/-! ### Packets as octets (R58, R68 steps 1 and 2, R69, R76, R86) -/

/-- A host packet read from its octets. -/
def pktOf (b : Rec) : Pkt :=
  { h := { ctx := rd b 1 1, seq := BitVec.ofNat 16 (rd b 2 2), batch := bit (rd b 6 1) 0, wantReply := bit (rd b 6 1) 1, notifyOnly := bit (rd b 6 1) 2,
           creditRet := rd b 10 2, targetFn := BitVec.ofNat 32 (rd b 12 4) },
    op := rd b 4 2, body := (b.drop 16).take (rd b 8 2) }

/-- Step 2 of R68: the offset of the first malformed header field. -/
def hdrFault (b : Rec) : Option Nat :=
  firstBad [(0, rd b 0 1 = 1), (1, decide (rd b 1 1 ≤ 15)), (6, rd b 6 2 / 8 = 0 && !(bit (rd b 6 1) 1 && bit (rd b 6 1) 2)), (8, decide (rd b 8 2 ≤ 4076))]

/-- One whole packet that arrived at a point bound to context `bound` (none: bound to none). DESIGN CHOICE: a packet whose VERSION or CONTEXT is malformed is answered FORMAT
in the context bound to its arrival point, whatever its CONTEXT says, as R69 has it for a CRC failure (log 18). -/
def takePacket (tab : Nat → Option OpSpec) (bound : Option Nat) (b : Rec) (unbound : State → State) (s : State) : State :=
  let p := pktOf b
  match bound with
  | none => if crc32c (b.take (16 + p.body.length)) ≠ rd b (16 + p.body.length) 4 then s else unbound s
  | some c =>
    let asked := { p with h := { p.h with ctx := c } }
    if crc32c (b.take (16 + p.body.length)) ≠ rd b (16 + p.body.length) 4 then refuseEarly asked .crc 0 s
    else match hdrFault b with
      | some d => if rd b 1 1 = c ∨ d ≤ 1 then refuseEarly asked .format d s else unbound s
      | none => if p.h.ctx ≠ c then unbound s else deliver tab p s

/-- Packets back to back (R76, R82); `cause` names the interruption of a packet that the octets end within. -/
def takePackets (tab : Nat → Option OpSpec) (bound : Option Nat) (unbound : State → State) (pad : Bool) (cause : Nat) : Nat → Rec → State → State
  | 0, _, s => s
  | n + 1, b, s =>
    if b.isEmpty || (pad && rd b 0 1 = 0) then s
    else
      let len := 20 + rd b 8 2
      if b.length < 20 ∨ b.length < len then (match bound with | some c => linkRestart c cause s | none => s)
      else takePackets tab bound unbound pad cause n (b.drop len) (takePacket tab bound (b.take len) unbound s)

/-- A packet that no context accepts is discarded, counted in the status table entry of the port it came in at, and raises HOST_BIND (R78, R84). A packet given as a command
names no port: which of the four it was is a free value. -/
def unboundPacket (s : State) : State :=
  let n := s.freeNat % 4
  let s := if n < 2 then onEth n (fun k => { k with bindCount := k.bindCount + 1 }) s
    else if n = 2 then { s with hspi0 := { s.hspi0 with bindCount := s.hspi0.bindCount + 1 } }
    else { s with hspi1 := { s.hspi1 with bindCount := s.hspi1.bindCount + 1 } }
  raise 5 0 (useFree s)

/-- A whole packet of one opcode, as a command. A packet that names no enabled context is discarded (R78, R84); while Hearth is not up none
is received. -/
def submit (o : OpSpec) (h : Hdr) (b : Rec) (tab : Nat → Option OpSpec) (s : State) : State :=
  if s.hearthUp = false then s
  else if h.ctx = 0 ∨ ctxEnabled (s.cx h.ctx) = false then unboundPacket s
  else deliver tab { h := h, op := o.code, body := b } s

/-! ### Receiving (R488, R489) -/

/-- What MACsec makes of a received frame: the receive SA with its new highest PN, a discard with the source it raises, or no MACsec (R489, R490). -/
def ethCheck (p : Nat) (f : EthFrame) (s : State) : Except (Option Nat) (Option (Nat × Nat)) :=
  let k := s.eth p
  if !(efMacsec k.cfg) then .ok none
  else match f.sec with
    | none => .error none
    | some t =>
      if t.sci ≠ efRxSci k.cfg then .error none
      else match [0, 1].find? (fun r => efRxValid k.cfg r && efRxAn k.cfg r = t.an) with
        | none => .error none
        | some r =>
          if !(keyOk s (efRxSlot k.cfg r) [1] 1) then .error (some 0x132)
          else if !t.icvOk then .error (some 0x131)
          else
            let hi := if r = 0 then k.rxPn0 else k.rxPn1
            if t.pn + efReplay k.cfg < hi then .error none else .ok (some (r, max hi t.pn))

/-- ETH_FRAME_RECEIVED: a frame at port `p`. One whose payload is above 9,000 octets (R77) is among the frames that are not accepted (R488). -/
def ethReceive (tab : Nat → Option OpSpec) (p : Nat) (f : EthFrame) (s : State) : State :=
  let k := s.eth p
  if !k.link || !s.hearthUp || decide (2 ≤ p) then s
  else if 9000 < f.payload.length ∨ f.dst ≠ ethMac k.cfg then onEth p (fun k => { k with rxOther := k.rxOther + 1 }) s
  else match ethCheck p f s with
    | .error src =>
      let s := onEth p (fun k => { k with rxDrop := k.rxDrop + 1 }) s
      match src with | some x => raise x p s | none => s
    | .ok sa =>
      let s := match sa with
        | some (0, n) => onEth p (fun k => { k with rxPn0 := n }) s
        | some (_, n) => onEth p (fun k => { k with rxPn1 := n }) s
        | none => s
      if f.etype ≠ efType k.cfg || (f.sec.isSome && sa.isNone) then onEth p (fun k => { k with rxOther := k.rxOther + 1 }) s
      else
        let s := onEth p (fun k => { k with rxFrames := k.rxFrames + 1 }) s
        let bound := (List.range 16).find? (fun c =>
          let x := s.cx c
          c ≠ 0 && ctxTransport x = p + 1 && rd x.cfg 4 6 = f.src && rd x.cfg 10 2 % 4096 = f.vlan)
        let unbound (s : State) : State := raise 5 0 (onEth p (fun k => { k with bindCount := k.bindCount + 1 }) s)
        takePackets tab bound unbound true 3 (f.payload.length + 1) f.payload s

/-- ETH_LINK_UP: a link comes up, and what waited for it goes ahead (R87). -/
def execEthLinkUp (p : Nat) (s : State) : Host.Outcome State Fault Refusal :=
  if 2 ≤ p ∨ (s.eth p).link ∨ s.hearthUp = false then .next s
  else
    let s := onEth p (fun k => { k with link := true }) s
    .next (ethDrain ((List.range 16).foldl (fun s c =>
      let x := s.cx c
      if c ≠ 0 && ctxTransport x = p + 1 then
        match x.restart with
        | some e => onCtx c (fun y => { y with ntfCredit := 0 }) (sendNtf c e (onCtx c (fun y => { y with restart := none }) s))
        | none => s
      else s) s))

/-- ETH_LINK_DOWN. -/
def execEthLinkDown (p : Nat) (s : State) : Host.Outcome State Fault Refusal :=
  if 2 ≤ p ∨ (s.eth p).link = false then .next s else .next (ethDown p s)

/-- A Hearth start: the links are down until they come up; SAs, PNs and counters start again, with no use of a slot counted, which R490 has for a commit point (R493). -/
def ethStart (s : State) : State :=
  (List.range 2).foldl (fun s p => onEth p (fun k => { EthPort.initial p with cfg := k.cfg }) s) s

end Sys2Proof.Machine
end

