-- ==== Sys2Proof/Machine/Boot.lean ====
section
/-! DEFINITION. Hearth restarts and starts, Anvil's resets, fall-back and activation (18_power_states R594 to R604, 19_update R616 to R630). -/

namespace Sys2Proof.Machine

/-! ### Hearth stops (R153, R600) -/

/-- The open and closed batches of a context are discarded; the cells of their members are freed, to be returned (R61, R153). -/
def dropBatches (c : Nat) (s : State) : State :=
  let x := s.cx c
  let ps := (match x.batch with | some b => b.members | none => []) ++ (s.closed.filter (fun q => q.ctx = c)).flatMap (·.members)
  let n := (ps.map pktCells).sum
  onCtx c (fun x => { x with batch := none, resv := 0, inRel := x.inRel + n, creditRet := x.creditRet + n }) s

/-- Hearth enters reset: open and pending batches are discarded, no block is on its way, its Ethernet links are gone, a park entry is abandoned, and nothing reaches
Anvil over Tongs (R40). -/
def hearthHalt (s : State) : State :=
  if !(s.hearthUp) then s
  else
    let s := (List.range 2).foldl (fun s p => if (s.eth p).link then ethLost p s else s) s
    let s := (List.range 16).foldl (fun s c => dropBatches c s) s
    edgeGaps (onTime (fun t => { t with cmpHold := true })
      (clockSource (onPwr (fun p => { p with up := false, state := if p.state = 1 then 0 else p.state, entry := 0, next := none, abandon := none })
        { s with closed := [], blk := none, snaps := [] })))

/-- A restart is counted with its cause (R600). -/
def restartNote (cause : Nat) (s : State) : State :=
  raise 0x180 0 (onPwr (fun p => { p with lastRestart := cause, restarts := p.restarts + 1 }) s)

/-! ### Settings (R627 to R630) -/

/-- The records of the settings store as they stand. -/
def settingsOf (s : State) : Settings :=
  { schema := ceSha s.activeImg 6, roles := s.roles, com := s.com, qcfg := s.qf.queues.map (fun e => (e.1, e.2.cfg)), bus := s.bus, pwr := s.pwr.cfg, acc := s.acc.cfg,
    cal := s.acc.cal, tasks := s.ces.tasks.map (fun e => (e.1, e.2.stored)) }

/-- Generations after a fall-back: a unit whose generation differs takes one more than the larger (R630); owners are those of the area that returns. -/
def mergeRoles (old new : Tab Role) : Tab Role :=
  let keys := (old.map (·.1)) ++ (new.map (·.1))
  keys.foldl (fun t k =>
    let a := (tget roleDef old k).gen
    let b := tget roleDef new k
    tput roleDef t k { owner := b.owner, gen := if a = b.gen then a else nextGen (if a.toNat < b.gen.toNat then b.gen else a) }) []

/-- What a settings area holds of the ports comes back: their records, tables and commanded states, the bindings and the filter store. What a port is doing is no record. -/
def restorePorts (b : Bus) (s : State) : State :=
  let s := (List.range 8).foldl (fun s p => let o := tget CanPort.initial b.can p
    onCan p (fun k => { k with cfg := o.cfg, stored := o.stored, wake := o.wake, cmd := o.cmd }) s) s
  let s := (List.range 12).foldl (fun s p => let o := tget LinPort.initial b.lin p
    onLin p (fun k => { k with cfg := o.cfg, table := o.table, cmd := o.cmd }) s) s
  let s := (List.range 2).foldl (fun s p => onEth p (fun k => { k with cfg := (tget EthPort.initial b.eth p).cfg }) s) s
  onBus (fun x => { x with gw := b.gw, filt := b.filt }) s

/-- The CTX_CFG in force of every context is that of the stored records (R88). -/
def bindCtxs (s : State) : State :=
  (List.range 15).foldl (fun s c => onCtx (c + 1) (fun x => { x with cfg := tget (fun _ => zeros 16) s.com.ctxCfg (c + 1) }) s) s

/-- The records of a settings area come back. -/
def restoreSettings (p : Settings) (s : State) : State :=
  let s := bindCtxs (restorePorts p.bus { s with roles := mergeRoles s.roles p.roles, com := p.com })
  let s := onPwr (fun w => { w with cfg := p.pwr }) (onAcc (fun a => { a with cfg := p.acc, cal := p.cal }) s)
  let s := onCes (fun x => { x with tasks := (List.range 64).foldl (fun t k => tmod taskDef t k (fun y => { y with stored := tget (fun _ => none) p.tasks k })) x.tasks }) s
  let keys := (s.qf.queues.map (·.1)) ++ (p.qcfg.map (·.1))
  keys.foldl (fun s q => onQueue q (fun x => { x with cfg := tget (fun _ => zeros 16) p.qcfg q }) s) s

/-- A table of records converted by a schema: those that cannot be converted take their reset values; the count of them. -/
def convTab (h : List Octet) (kind : Nat) (t : Tab Rec) : Tab Rec × Nat :=
  (t.filter (fun e => Config.converts h kind e.1), (t.filter (fun e => !(Config.converts h kind e.1))).length)

/-- The units whose records take their reset values because they cannot be converted, where R165 counts that change as a reassignment: (TYPE, INDEX). -/
def convLost (h : List Octet) (s : State) : List (Nat × Nat) :=
  ((s.com.chCfg.filter (fun e => !(Config.converts h 2 e.1) && decide (cfMode e.2 ≠ cfMode (chCfgReset e.1)))).map (fun e => (1, e.1)))
  ++ ((s.com.lsCfg.filter (fun e => !(Config.converts h 9 e.1))).map (fun e => (2, e.1)))
  ++ ((s.qf.queues.filter (fun e => let r := Queue.initial.cfg
        !(Config.converts h 13 e.1) && (decide (qMode e.2.cfg ≠ qMode r) || decide (qProducer e.2.cfg ≠ qProducer r) || decide (qConsumer e.2.cfg ≠ qConsumer r)))).map (fun e => (3, e.1)))
  ++ ((s.bus.can.filter (fun e => !(Config.converts h 14 e.1) && decide (e.2.cfg ≠ canCfgReset e.1))).map (fun e => (4, e.1)))
  ++ ((s.bus.lin.filter (fun e => !(Config.converts h 15 e.1) && (decide (e.2.cfg ≠ (LinPort.initial e.1).cfg) || decide (e.2.table ≠ (LinPort.initial e.1).table)))).map (fun e => (4, 8 + e.1)))
  ++ ((s.bus.eth.filter (fun e => !(Config.converts h 16 e.1) && decide (e.2.cfg ≠ ethCfgReset e.1))).map (fun e => (4, 20 + e.1)))

/-- The tasks whose behaviour programs the active bank installs: each is loaded for the first time (R165). -/
def progTasks (s : State) : List (Nat × Nat) := ((List.range 64).filter (fun t => (s.taskDesc t).isSome)).map (fun t => (5, t))

/-- The conversion of the ACTIVE area at the first start of a flipped bank: the old area becomes PREVIOUS (R627). The units it reassigns are those of R165. Assumption log 16. -/
def migrate (s : State) : State :=
  let h := ceSha s.activeImg 6
  let old := settingsOf s
  let c := s.com
  let one (k : Nat) : Bool := Config.converts h k 0
  let cx := convTab h 1 c.ctxCfg
  let ch := convTab h 2 c.chCfg
  let pr := convTab h 3 c.prot
  let co := convTab h 4 c.coilCfg
  let br := convTab h 5 c.brCfg
  let tm := convTab h 7 c.tmrCfg
  let fl := convTab h 8 c.fltCfg
  let ls := convTab h 9 c.lsCfg
  let ic := convTab h 11 c.inCfg
  let qs := s.qf.queues.filter (fun e => e.2.cfg ≠ Queue.initial.cfg && !(Config.converts h 13 e.1))
  let cn := s.bus.can.filter (fun e => !(Config.converts h 14 e.1))
  let ln := s.bus.lin.filter (fun e => !(Config.converts h 15 e.1))
  let et := s.bus.eth.filter (fun e => !(Config.converts h 16 e.1))
  let single := ([6, 10, 12, 17, 18].filter (fun k => !(one k))).length
  let fails := cx.2 + ch.2 + pr.2 + co.2 + br.2 + tm.2 + fl.2 + ls.2 + ic.2 + qs.length + cn.length + ln.length + et.length + single
  let s := (convLost h s ++ progTasks s).foldl (fun s u => reassign u.1 u.2 s) s
  let s := onCom (fun c =>
    { c with ctxCfg := cx.1, chCfg := ch.1, prot := pr.1, coilCfg := co.1, brCfg := br.1, tmrCfg := tm.1, fltCfg := fl.1, lsCfg := ls.1, inCfg := ic.1,
             lhCfg := if one 6 then c.lhCfg else zeros 64, lightCfg := if one 10 then c.lightCfg else lightCfgReset, inGlob := if one 12 then c.inGlob else zeros 8 }) s
  let s := qs.foldl (fun s e => onQueue e.1 (fun x => { x with cfg := Queue.initial.cfg }) s) (if cx.2 = 0 then s else bindCtxs s)
  let s := cn.foldl (fun s e => onCan e.1 (fun k => { k with cfg := canCfgReset e.1, stored := false, wake := (CanPort.initial e.1).wake }) s) s
  let s := ln.foldl (fun s e => onLin e.1 (fun k => { k with cfg := (LinPort.initial e.1).cfg, table := (LinPort.initial e.1).table }) s) s
  let s := et.foldl (fun s e => onEth e.1 (fun k => { k with cfg := ethCfgReset e.1 }) s) s
  let s := onPwr (fun p => { p with cfg := if one 17 then p.cfg else pwrCfgReset }) s
  let s := onAcc (fun a => { a with cfg := if one 18 then a.cfg else Acc.initial.cfg }) s
  onUpd (fun u => { u with prev := some old, migrate := fails, newBank := false, result := u.result.map (fun r => putAt r 14 (le 2 (satN 65535 fails))) }) s

/-- A record as the boot reads it from the settings store. -/
def storedRec (w : Tab (Option Octet)) (kind i : Nat) (old : Rec) : Rec := sub (Config.settingsRec w kind i old) 0 old.length

def storedTab (w : Tab (Option Octet)) (kind n : Nat) (d : Nat → Rec) (t : Tab Rec) : Tab Rec :=
  (List.range n).foldl (fun t i => tput d t i (storedRec w kind i (tget d t i))) t

/-- The committed records, read from the octets `w` of the store. -/
def rereadCom (w : Tab (Option Octet)) (s : State) : State :=
  onCom (fun c =>
    { c with ctxCfg := storedTab w 1 16 (fun _ => zeros 16) c.ctxCfg, chCfg := storedTab w 2 64 chCfgReset c.chCfg, prot := storedTab w 3 64 protCfgReset c.prot,
             coilCfg := storedTab w 4 64 coilCfgDef c.coilCfg, brCfg := storedTab w 5 8 brCfgReset c.brCfg, lhCfg := storedRec w 6 0 c.lhCfg,
             tmrCfg := storedTab w 7 32 tmrCfgReset c.tmrCfg, fltCfg := storedTab w 8 512 fltCfgReset c.fltCfg, lsCfg := storedTab w 9 36 lsCfgReset c.lsCfg,
             lightCfg := storedRec w 10 0 c.lightCfg, inCfg := storedTab w 11 96 inCfgReset c.inCfg, inGlob := storedRec w 12 0 c.inGlob }) s

/-- The queues that no context's CTX_CFG configures (R113). -/
def storeQueues : List Nat := (List.range 8144).map (48 + ·)

/-- Their records. -/
def rereadQueues (w : Tab (Option Octet)) (s : State) : State :=
  storeQueues.foldl (fun s q => onQueue q (fun x => { x with cfg := storedRec w 13 q x.cfg }) s) s

/-- The records of the contexts and the ports. -/
def rereadPorts (w : Tab (Option Octet)) (s : State) : State :=
  let s := (List.range 15).foldl (fun s c => onCtx (c + 1) (fun x => { x with cfg := storedRec w 1 (c + 1) x.cfg }) s) s
  let s := (List.range 8).foldl (fun s p => onCan p (fun k => { k with cfg := storedRec w 14 p k.cfg }) s) s
  let s := (List.range 12).foldl (fun s p => onLin p (fun k => { k with cfg := storedRec w 15 p k.cfg }) s) s
  (List.range 2).foldl (fun s p => onEth p (fun k => { k with cfg := storedRec w 16 p k.cfg }) s) s

/-- The units of all types (R98). -/
def unitKeys : List Nat := [1, 2, 3, 4, 5, 6, 7].flatMap (fun t => (List.range (unitCount t)).map (ukey t))

/-- The role of each unit; a generation of 0000h, which no unit has (R164), is not taken. -/
def rereadRoles (w : Tab (Option Octet)) (s : State) : State :=
  { s with roles := unitKeys.foldl (fun t k =>
      let o := tget roleDef t k
      let r := storedRec w 19 k ([BitVec.ofNat 8 o.owner, 0] ++ le 2 o.gen.toNat)
      tput roleDef t k { owner := rd r 0 1 % 16, gen := if BitVec.ofNat 16 (rd r 2 2) = 0 then o.gen else BitVec.ofNat 16 (rd r 2 2) }) s.roles }

/-- The boot after a MEM_WRITE to the settings store reads the records from it again (R103), in the kinds of `migrate` and, as kind 19, the role of each unit. Which record an
octet belongs to the spec does not lay out: each record reads a free value of the octets written and of what it was (assumption log 31). -/
def rereadStore (s : State) : State :=
  if !s.upd.storeNew then s
  else
    let w := s.upd.store
    let s := rereadPorts w (rereadQueues w (rereadCom w (onUpd (fun u => { u with storeNew := false }) s)))
    rereadRoles w (onPwr (fun p => { p with cfg := storedRec w 17 0 p.cfg }) (onAcc (fun a => { a with cfg := storedRec w 18 0 a.cfg }) s))

/-! ### Fall-back (R629) -/

/-- The TZ6418 falls back: the pointer and the PREVIOUS area return, Hearth restarts with cause 5. With a RETIRED predecessor it enters RECOVERY instead. -/
def fallBack (s : State) : State :=
  let left := s.upd.active
  let u := s.upd
  let res (k : Nat) : Rec := resultRec k 0 u.late (mfBundle (s.bank left)) u.v u.migrate
  if s.mark s.inactive = 4 then
    raise 0x1A2 0 (onUpd (fun u => { u with st := 0, failed := 0, rollback := false, service := 2, recover := true, result := some (res 5) }) s)
  else
    let s := setMark left 3 (onUpd (fun u => { u with active := 1 - left, st := 0, failed := 0, rollback := false, newBank := false, prev := none, result := some (res 3) }) s)
    let s := match u.prev with | some p => restoreSettings p s | none => s
    restartNote 5 (hearthHalt (raise 0x1A1 0 s))

/-- A failed boot is counted while CONFIRM_PENDING holds; the third falls back. -/
def bootFailed (s : State) : State :=
  if s.upd.st ≠ 4 then s
  else
    let s := onUpd (fun u => { u with failed := u.failed + 1 }) s
    if 3 ≤ s.upd.failed then fallBack s else s

/-- A Hearth restart by one of the causes of R600. -/
def hearthRestart (cause : Nat) (s : State) : State :=
  let s := restartNote cause (hearthHalt s)
  if cause ≤ 3 then bootFailed s else s

/-! ### Hearth starts (R594, R600, R616) -/

/-- The service state after the boot check (R616). Where the active bank fails and the other passes, the other is taken. -/
def bootService (s : State) : State :=
  let u := s.upd
  if u.testMode && !u.testEnd then onUpd (fun u => { u with service := 3 }) s
  else
    let s := onUpd (fun u => { u with testMode := false, testEnd := false }) s
    if !u.ptr then onUpd (fun u => { u with service := 1 }) s
    else if u.recover then onUpd (fun u => { u with service := 2 }) s
    else if bootCheck s u.active then onUpd (fun u => { u with service := 0 }) s
    else if bootCheck s (1 - u.active) then onUpd (fun u => { u with service := 0, active := 1 - u.active }) s
    else onUpd (fun u => { u with service := 2 }) s

/-- The built-in binding of context 1 (R617): in FACTORY and RECOVERY, while no enabled context holds PRIV and no CTX_CFG is stored for it. -/
def serviceBind (s : State) : State :=
  if (tget (fun _ => zeros 16) s.com.ctxCfg 1) ≠ zeros 16 then s
  else
    let other := (List.range 16).any (fun c => decide (2 ≤ c) && ctxEnabled (s.cx c) && ctxPriv (s.cx c) = 2)
    let cfg := if (s.upd.service = 1 || s.upd.service = 2) && !other then serviceCtx else zeros 16
    if (s.cx 1).cfg = cfg then s else onCtx 1 (fun x => { x with cfg := cfg }) s

/-- The schedule of the active bank where it passes its checks (R199 to R201): an image that changed waits for the rejoin, an unchanged one runs its stored mode. -/
def bootSchedule (s : State) : State :=
  let img := if s.upd.service = 1 || s.upd.service = 2 then none
    else match bankSched s.activeImg with
      | none => none
      | some i => if (schedCheck (checkEnv s s.upd.active)).isNone then some i else none
  let s := onSched (fun x => { x with switchTo := none, check := none }) s
  if img = s.sched.img then onCom (fun c => { c with mode := s.sched.storedMode }) (onSched (fun x => { x with pend := none }) s)
  else onSched (fun x => { x with pend := some img }) s

/-- A queue starts empty. -/
def emptyQueue (x : Queue) : Queue :=
  { x with cells := [], rel := x.put, read := x.put, markSet := false, gapOpen := false, partialOct := none, skip := false, wm := false, inFlight := 0 }

/-- Every CAN and LIN queue starts empty (R466, R485). -/
def busQueuesStart (s : State) : State :=
  onQf (fun x => { x with queues := x.queues.foldl (fun t e => if 256 ≤ e.1 ∧ e.1 < 1472 then tput queueDef t e.1 (emptyQueue e.2) else t) x.queues }) s

/-- The recorder at a Hearth start (R571): the capture mode takes effect, STICKY keeps no ring, counts that led to no SEVERE restart from 0. -/
def fltStart (s : State) : State :=
  onFlt (fun f => { f with capture := f.captureNext, ring := if f.captureNext = 1 then [] else f.ring, inst := f.inst.foldl (fun t e => if e.2.severe then t else tput fltInstDef t e.1 { e.2 with count := 0 }) f.inst }) s

/-- Slots whose check value fails on a TZ6418-S at a Hearth start (R544). -/
def keysVerify (bad : List Nat) (s : State) : State :=
  if Config.variantK then s
  else bad.foldl (fun s n =>
    if kyType (s.key n).rec_ = 0 || decide (unitCount 6 ≤ n) then s
    else
      let told := (s.key n).badTold
      let s := onKey n (fun k => { k with bad := true, badTold := true }) s
      if told then s else raise 0x160 n s) s

/-- The start that a HEARTH_RESTART opcode led to gives its requester the COMPLETION (R71). -/
def restartDone (s : State) : State :=
  match s.pwr.restart with
  | none => s
  | some (c, q) => completion c q 0xB005 .ok 0 [] (onPwr (fun p => { p with restart := none }) s)

/-- What starts with Hearth whatever the reason: engines, cores, ports, recorder, keys. `bad` are the key slots whose check fails. -/
def hearthStart (bad : List Nat) (s : State) : State :=
  let s := rereadStore (bootService s)
  let s := if s.upd.newBank then migrate s else s
  let s := if s.upd.st = 1 then endSession s else s
  let passed := s.upd.st = 3 && isPast s.tbNow s.upd.v && s.upd.defer.isNone
  let s := onUpd (fun u =>
    { u with check := none, verifying := false, rejoined := false, released := s.tbNow, late := u.late || passed, defer := if passed then some s.fn else u.defer }) s
  let s := bootSchedule s
  let s := if s.link.lost then linSuspend false (canSuspend false s) else s
  let s := busQueuesStart s
  let s := onBus (fun x => { x with filtNext := none, filtStage := [], filtWriter := 0 }) s
  let s := s.pwr.slept.foldl (fun s u => if u < 8 then s else onLin (u - 8) (fun k => { k with st := 0 }) s) s
  let s := accStart (ethStart (linStart (canStart (cesynStart (fltStart (keysVerify bad (keysStart s)))))))
  let s := onLight (fun x => { Light.initial with syncSeq := x.syncSeq }) s
  let s := onLink (fun l => { l with h2a := .initial, a2h := .initial, lost := false, lostA := false, lostH := false, reject := .no, rejoin := .no, dumpReq := .no, block := .no, blockSent := 0 }) s
  let s := onLink (fun l => { l with step := .wantReport, dump := none, repSeen := false, repMiss := 0, stretched := List.replicate 7 false }) s
  let sns := (List.range 2).map (fun k => if pwSns s.pwr.cfg k && !(s.pwr.snsOff.getD k false) then 5000 else 0)
  let s := onMon (fun m => { m with rails := [5000, 3300, 1800, 1000, 800] ++ sns }) s
  restartDone (serviceBind (clockSource (onPwr (fun p => { p with up := true, slept := [], entry := 0 }) { s with blk := none, snaps := [], closed := [], hmon := .initial, clk := { s.clk with commitFn := none } })))

/-- The time base restored at a park counter edge with park time `pt` (R225, R226). -/
def restoreTb (pt : Nat) (s : State) : State :=
  let d := (pt - s.time.ptS) * 50000000 / 32768
  let tb := s.time.tbS + BitVec.ofNat 48 d
  let ppm := if s.pwr.xtal32 then pwPpm s.pwr.cfg else 30000
  onTime (fun t => { t with tb := tb, anvilTb := tb, park := pt, parkSeen := pt, parkFrac := 0, restored := true, errBound := 3052 + cdiv (d * ppm) 1000000 }) (onClk (fun t => { t with frameTb := tb }) s)

/-- The save image is restored at a wake (R588, R594): committed state, contexts with their notifications, timers and compares. -/
def restoreSave (s : State) : State :=
  match s.pwr.save with
  | none => s
  | some v =>
    let s := { s with com := v.com, ctxs := v.ctxs }
    let s := onQf (fun x => { x with queues := v.ntf.foldl (fun t e => tput queueDef t e.1 e.2) x.queues }) s
    let s := onTime (fun t => { t with cmp := v.time.cmp, tmr := v.time.tmr, cmpHold := true }) s
    let s := onLink (fun l => { l with epoch := v.epoch }) s
    onPwr (fun p => { p with save := none }) (onClk (fun t => { t with fn := v.fn }) s)

/-- At a wake Anvil compares the encoder levels with those of park entry (R362): bit 2b is ENCbA, bit 2b + 1 ENCbB. -/
def encWake (enc : Nat) (s : State) : State :=
  (List.range 8).foldl (fun s b =>
    let now := (bit enc (2 * b), bit enc (2 * b + 1))
    let moved := now ≠ (s.bridge b).parkEnc
    let s := onBridge b (fun k => { k with encA := now.1, encB := now.2 }) s
    if moved && s.modeA (brCh b) = 4 && bfPosSrc (bCfg s b) = 1 then setUncertain b s else s) s

/-- HEARTH_RESET_RELEASE: Hearth's reset is released; it boots, restores its state and is to rejoin. `pt` is the park time of the counter edge and `enc` the
encoder levels at a wake from park, `bad` the key slots whose check value fails. -/
def execHearthResetRelease (pt enc : Nat) (bad : List Nat) (s : State) : Host.Outcome State Fault Refusal :=
  let p := s.pwr
  if p.up || p.resetLow.isSome || !p.xtal25 || p.vpor || p.state = 4 || s.upd.verifying || (s.parked && !p.waking) then .next s
  else if s.parked then .next (encWake enc (hearthStart bad (inputsWake (restoreSave (restoreTb (max pt s.time.parkSeen) s)))))
  else .next (hearthStart bad s)

/-! ### Watchdogs, rails, crystals, RESET_N (R578, R601, R603, R604) -/

/-- MGMT_WATCHDOG: the firmware's frame loop has missed four commit points. -/
def execMgmtWatchdog (s : State) : Host.Outcome State Fault Refusal := .next (if s.hearthUp then hearthRestart 1 s else s)

/-- BELLOWS_WATCHDOG: 20 frames without a valid block or a REJOIN while the link is up. -/
def execBellowsWatchdog (s : State) : Host.Outcome State Fault Refusal :=
  .next (if s.hearthUp && !s.link.lost && !s.parked && decide (20 ≤ s.anvil.quiet) then onAnvil (fun a => { a with quiet := 0 }) (hearthRestart 2 s) else s)

/-- Rail `r` at `mv` is out of its tolerance, VPRE below 4.0 V (R576, R578). -/
def railBad (r mv : Nat) : Bool :=
  match r with
  | 0 => decide (mv < 4000)
  | 1 => decide (mv < 3201 ∨ 3399 < mv)
  | 2 => decide (mv < 1746 ∨ 1854 < mv)
  | 3 => decide (mv < 980 ∨ 1020 < mv)
  | 4 => decide (mv < 784 ∨ 816 < mv)
  | _ => false

/-- RAIL_FAULT: rail `r` (0 VPRE to 4 VCORE) has read `mv`, out of its tolerance, for 10 us: every Hearth rail is cycled. -/
def execRailFault (r mv : Nat) (s : State) : Host.Outcome State Fault Refusal :=
  if s.hearthUp && railBad r mv then
    .next (hearthRestart 3 (raise 0x181 0 (onMon (fun m => { m with rails := [if r = 0 then mv else m.rails.getD 0 0, 0, 0, 0, 0] ++ m.rails.drop 5 }) s)))
  else .next s

/-- XTAL25_STOP: Hearth is held in reset; Anvil runs from its own oscillator. -/
def execXtal25Stop (s : State) : Host.Outcome State Fault Refusal :=
  if s.pwr.xtal25 && s.pwr.state ≠ 4 then
    .next (raise 0x185 0 (clockSource (onPwr (fun p => { p with xtal25 := false }) (hearthHalt s))))
  else .next s

/-- XTAL25_RESTORED: after 10 ms of running Hearth restarts with cause 7. -/
def execXtal25Restored (s : State) : Host.Outcome State Fault Refusal :=
  if !s.pwr.xtal25 then .next (restartNote 7 (onPwr (fun p => { p with xtal25 := true }) s)) else .next s

/-- RESET_N_ASSERT: low for 1 us: Hearth is held in reset; in park it has no effect yet. -/
def execResetNAssert (s : State) : Host.Outcome State Fault Refusal :=
  if s.pwr.resetLow.isSome || s.pwr.state = 4 then .next s
  else
    let s := onMon (fun m => { m with resetN := false }) (onPwr (fun p => { p with resetLow := some s.tbNow }) s)
    .next (if s.parked && !s.hearthUp then s else hearthHalt s)

/-- RESET_N_RELEASE: Hearth may restart with cause 4; in park it is wake source 9. -/
def execResetNRelease (s : State) : Host.Outcome State Fault Refusal :=
  if s.pwr.resetLow.isNone then .next s
  else
    let s := onMon (fun m => { m with resetN := true }) (onPwr (fun p => { p with resetLow := none }) s)
    .next (if s.parked && !s.pwr.waking then deviceWake 9 0 0 0 true s else restartNote 4 s)

/-- RESET_STUCK: low for 2 s: limp-home is in force for every valid entry. -/
def execResetStuck (s : State) : Host.Outcome State Fault Refusal :=
  match s.pwr.resetLow with
  | none => .next s
  | some t =>
    if s.anvil.limp.stuck then .next s
    else
      let s := advTo (t + msTicks 2000) s
      .next (raise 0x182 0 (limpInForce (onAnvil (fun a => { a with limp := { a.limp with stuck := true } }) s)))

/-! ### Anvil's resets (R51, R57, R299, R602) -/

/-- Every output off, nothing latched, the models of wires and coils kept. -/
def anvilOff (a : Anvil) : Anvil :=
  { Anvil.initial with
    vals := { a.vals with ch := [], ind := [], br := [], ls := [], lsStaged := [], ripple := [], rippleNew := [] }
    ch := a.ch.foldl (fun t e => tput chanDef t e.1 { Chan.initial with theta := e.2.theta, tref := e.2.tref }) []
    coil := a.coil.foldl (fun t e => tput coilDef t e.1 { Coil.initial with tc := e.2.tc, ts := e.2.ts }) []
    limp := { a.limp with flashRun := false, flashOn := false }
    sup := a.sup, mon := { a.mon with debFrom := [] }, areaFault := a.areaFault }

/-- The units that a severe instance holds take their safe states again (R571, R573). -/
def resafe (s : State) : State := (allUnits.filter (heldSafe s)).foldl safeUnit s

/-- The limp-home causes that stand after a reset of Anvil act on every valid entry. -/
def relimp (s : State) : State := if !s.anvil.limp.lhN || s.anvil.limp.stuck then limpInForce s else s

/-- SEQUENCER_WATCHDOG: three missed services reset Anvil; Hearth is to rejoin (R57). DESIGN CHOICE: the spec does not say what a reset of Anvil alone does to Tongs; the SEQ numbers,
the replay buffers and the states of the lanes are kept, and what Anvil had still to send is dropped with its state (log 28). -/
def execSequencerWatchdog (s : State) : Host.Outcome State Fault Refusal :=
  if s.pwr.state = 4 then .next s
  else
    let s := { s with anvil := anvilOff s.anvil, bound := anvilOff s.anvil, blk := none }
    let s := raise 0x004 0 (accLinkLost (relimp (resafe s)))
    .next (onLink (fun l => { l with step := .wantReport, dump := none, repSeen := false, block := .no, report := .no, reject := .no }) s)

/-- Anvil's power-on reset: all gates off, the device is OFF. While the boot engine verifies a bank the pointer stands, and the activation restart runs again at the next Hearth start,
late (R631). -/
def powerLost (s : State) : State :=
  let s := hearthHalt s
  let s := if s.upd.verifying then onUpd (fun u => { u with verifying := false, late := true, defer := some 0 }) s else s
  onPwr (fun p => { p with state := 4, vpor := true, up := false, waking := false, entry := 0 }) <|
    onSup (fun x => { x with crankEnd := none, crankOff := false, ov := false, ovAbove := false }) { s with anvil := { anvilOff s.anvil with areaFault := 0 }, blk := none }

/-- REVERSE_BATTERY: below -2.0 V the H and M channels turn on by themselves and the reverse latch is set; nothing else acts (R297, R299). -/
def execReverseBattery (v : Int) (s : State) : Host.Outcome State Fault Refusal :=
  if v < -2000 then
    .next (onSup (fun x => { x with vbats := v, revLatch := true, revOn := true }) (powerLost s))
  else .next s

/-- ANVIL_POR_ASSERT: VBATS below 2.2 V for 5 us. -/
def execAnvilPorAssert (v : Int) (s : State) : Host.Outcome State Fault Refusal :=
  if v < 2200 then .next (vbatsRead v (powerLost s)) else .next s

/-- ANVIL_POR_RELEASE: VBATS at 2.6 V for 1 ms: the device starts from power-on (R51, R602). `test` is the level of TESTMODE. -/
def execAnvilPorRelease (v : Int) (test : Bool) (s : State) : Host.Outcome State Fault Refusal :=
  if !s.pwr.vpor || v < 2600 then .next s
  else
    let s := accPor s
    let seen := s.anvil.sup.revLatch
    let a : Anvil :=
      { Anvil.initial with vals := { s.anvil.vals with ch := [], ind := [], br := [], ls := [], lsStaged := [], ripple := [], rippleNew := [] },
                           limp := { Limp.initial with lhN := s.anvil.limp.lhN, lhin := s.anvil.limp.lhin, dir := s.anvil.limp.dir },
                           sup := { Supply.initial with vbats := v, vbat := s.anvil.sup.vbat, revSeen := seen }
                           mon := { Mon.initial with resetN := s.anvil.mon.resetN, wake := s.anvil.mon.wake } }
    let s := { s with anvil := a, bound := a, rep := a, chM := [], repM := [], clk := .initial, time := .initial, link := .initial, ctxs := s.ctxs.map (fun e => (e.1, { Ctx.initial with cfg := e.2.cfg })),
                      hspi0 := .initial, hspi1 := .initial, com := { s.com with anchor := none, ch := [], ind := [], br := [], ls := [], lsStaged := [], ripple := [], rippleNew := [], cmp := [],
                                                                                tmrBy := s.com.tmrBy, actHold := false } }
    let s := onQf (fun x => { x with queues := x.queues.foldl (fun t e => tput queueDef t e.1 { Queue.initial with cfg := e.2.cfg }) x.queues }) s
    let s := (List.range 64).foldl (fun s n =>
      if s.modeA n = 3 && kfRcoil (s.kfA n) ≠ 0 then
        let t := coilResetTemp (s.kfA n) (coilTa n s)
        onCoil n (fun k => { k with tc := t, ts := t }) (taTaken n s)
      else s) s
    let s := onUpd (fun u => { u with testMode := test, testEnd := false }) s
    let s := onPwr (fun p =>
      { Power.initial with cfg := p.cfg, state := 0, up := false, wakes := [], resetLow := p.resetLow.map (fun _ => 0), xtal25 := p.xtal25 }) s
    let s := onFlt (fun f => { f with intakeTb := 0, intake := 0, inst := f.inst.foldl (fun t e => tput fltInstDef t e.1 { e.2 with events := 0 }) f.inst }) s
    let s := relimp (resafe s)
    .next (if seen then raise 0x06E 0 s else s)

/-! ### Activation (R622 to R625, R629) -/

/-- What defers an activation, but for link loss (R624). -/
def actBusy (s : State) : Bool :=
  (List.range 8).any (fun b => s.modeA (brCh b) = 4 && !(still (s.bridge b))) || (List.range 64).any (fun n => let k := (s.coil n).phase; k = 1 || k = 2)
    || (match s.acc.att with | some a => a.planFn.isSome | none => false)

/-- The activation restart: the boot engine verifies the inactive bank. -/
def activate_ (s : State) : State := onUpd (fun u => { u with verifying := true, defer := none }) (hearthRestart 5 s)

/-- UPD_ACTIVATION_TICK: tick v of an armed bundle. -/
def execUpdActivationTick (s : State) : Host.Outcome State Fault Refusal :=
  if s.upd.st ≠ 3 || !s.hearthUp || s.upd.defer.isSome then .next s
  else
    let s := advTo s.upd.v s
    .next (if actBusy s || s.link.lost || s.rejoining then onUpd (fun u => { u with late := true, defer := some s.fn }) s else activate_ s)

/-- A deferred activation proceeds at tick 0 of the first frame in which nothing defers it. -/
def activationDue (s : State) : State :=
  if s.upd.st = 3 && s.upd.defer.isSome && s.hearthUp && !(actBusy s) && !s.link.lost && !s.rejoining then activate_ s else s

/-- UPD_DEFER_TIMEOUT: after 1,000 frames the motions no longer defer it. -/
def execUpdDeferTimeout (s : State) : Host.Outcome State Fault Refusal :=
  match s.upd.defer with
  | none => .next s
  | some f =>
    if s.upd.st = 3 && s.hearthUp && !s.link.lost && !s.rejoining && decide (1000 ≤ (s.fn - f).toNat) then .next (activate_ s) else .next s

/-- UPD_BOOT_VERIFY_DONE: the boot engine ends its verification, flips or keeps the pointer and releases the processor (R625). -/
def execUpdBootVerifyDone (bad : List Nat) (s : State) : Host.Outcome State Fault Refusal :=
  if !s.upd.verifying || s.hearthUp || s.pwr.resetLow.isSome || !s.pwr.xtal25 || s.pwr.vpor then .next s
  else
    let b := s.inactive
    let old := s.upd.active
    let step := verifyStep s b
    let r (res : Nat) : Rec := resultRec res step s.upd.late (mfBundle (s.bank b)) s.upd.v 0
    if step = 0 then
      let s := setMark old 5 (onUpd (fun u => { u with active := b, ptr := true, st := 4, failed := 0, newBank := true, recover := false, result := some (r 1) }) s)
      let s := onCes (fun x => { x with tasks := x.tasks.map (fun e => (e.1, { e.2 with recorded := false })) }) s
      .next (hearthStart bad s)
    else
      let s := setMark b 3 (onUpd (fun u => { u with st := 0, result := some (r 2) }) s)
      .next (hearthStart bad (raise 0x1A0 0 s))

/-- FAILED_BOOT_TIMEOUT: 2 s after the release the rejoin of a new bank has not been accepted (R629). -/
def execFailedBootTimeout (s : State) : Host.Outcome State Fault Refusal :=
  if s.upd.st = 4 && s.hearthUp && !s.upd.rejoined then
    .next (bootFailed (onUpd (fun u => { u with rejoined := true }) (advTo (s.upd.released + msTicks 2000) s)))
  else .next s

end Sys2Proof.Machine
end

