-- ==== Sys2Proof/Machine/Link.lean ====
section
/-! DEFINITION. The Tongs link (01_two_dies): lanes, sequence numbers and replay, link loss and return, line states, frame-block segments, reports and the
rejoin. -/

namespace Sys2Proof.Machine

/-! ### Lanes (R31, R37 to R39) -/

/-- A die detects link loss (R39): each raises TONGS_LINK once. With the first, ports are suspended (R466, R485) and attempts end (R519). -/
def linkLost (atAnvil : Bool) (s : State) : State :=
  if (if atAnvil then s.link.lostA else s.link.lostH) then s
  else
    let first := !s.link.lost
    let s := clockSource (onLink (fun l => if atAnvil then { l with lost := true, lostA := true } else { l with lost := true, lostH := true }) s)
    raiseDie atAnvil 0x001 0 0 (if first then edgeGaps (accLinkLost (linSuspend true (canSuspend true s))) else s)

/-- The link returns when one lane of each direction works (R39). A QUENCH_REQ that was on its way is sent again (R568). -/
def linkReturn (s : State) : State :=
  if s.link.lost && dirUp s.link.h2a && dirUp s.link.a2h then
    let s := onLink (fun l => { l with lost := false, lostA := false, lostH := false, repMiss := 0 }) s
    linSuspend false (canSuspend false (onFlt (fun f => { f with heldReq := f.reqFlight ++ f.heldReq, reqFlight := [] }) s))
  else s

/-- A lane fails at its 16th CRC failure of a frame (R37); with the second lane of its direction the link is lost. -/
def laneFail (toAnvil : Bool) (lane : Nat) (s : State) : State :=
  let s := onDir toAnvil (fun d =>
    if lane = 0 then { d with failed0 := true, train0 := 0, training0 := false } else { d with failed1 := true, train1 := 0, training1 := false }) s
  let s := raiseDie toAnvil 0x000 (lane + (if toAnvil then 0 else 2)) 0 (clockSource s)
  if dirUp (s.dir toAnvil) then s else linkLost toAnvil s

/-- LANE_RETRAIN: a die begins to retrain a failed lane, at most once every 64 frames (R38). DESIGN CHOICE: the frames are those Anvil has executed, for either
die; the spec does not name the count (log entry 28). -/
def execLaneRetrain (toAnvil : Bool) (lane : Nat) (s : State) : Host.Outcome State Fault Refusal :=
  let d := s.dir toAnvil
  let due (t : Option Fn) : Bool := match t with | none => true | some f => decide (64 ≤ (s.anvil.lastFn - f).toNat)
  if !(s.linkOn) then .next s
  else if lane = 0 && d.failed0 && due d.retrain0 then .next (onDir toAnvil (fun d => { d with train0 := 0, training0 := true, retrain0 := some s.anvil.lastFn }) s)
  else if lane = 1 && d.failed1 && due d.retrain1 then .next (onDir toAnvil (fun d => { d with train1 := 0, training1 := true, retrain1 := some s.anvil.lastFn }) s)
  else .next s

/-- TRAIN_FLIT: a training flit passes its CRC; after 1,024 in a row the lane carries traffic again from the next frame boundary (R38). -/
def execTrainFlit (toAnvil : Bool) (lane : Nat) (s : State) : Host.Outcome State Fault Refusal :=
  if !(s.linkOn) then .next s
  else
    .next (onDir toAnvil (fun d =>
      if lane = 0 && d.failed0 && d.training0 then { d with train0 := min 1024 (d.train0 + 1), restore0 := d.restore0 || decide (1024 ≤ d.train0 + 1) }
      else if lane = 1 && d.failed1 && d.training1 then { d with train1 := min 1024 (d.train1 + 1), restore1 := d.restore1 || decide (1024 ≤ d.train1 + 1) }
      else d) s)

/-- Lanes at a frame boundary: restored lanes carry the stream again, the failures of the frame are forgotten. -/
def laneBoundary (s : State) : State :=
  let f (d : Dir) : Dir :=
    { d with failed0 := d.failed0 && !d.restore0, failed1 := d.failed1 && !d.restore1, train0 := if d.restore0 then 0 else d.train0,
             train1 := if d.restore1 then 0 else d.train1,
             training0 := d.training0 && !d.restore0, training1 := d.training1 && !d.restore1, restore0 := false, restore1 := false, fails0 := 0, fails1 := 0 }
  let back := s.link.h2a.restore0 || s.link.h2a.restore1 || s.link.a2h.restore0 || s.link.a2h.restore1
  let s := onDir false f (onDir true f s)
  if back then linkReturn (clockSource s) else s

/-! ### Sequenced flits (R32) -/

/-- The sender puts a flit on the line: a fresh one takes its place in the replay buffer, a replayed one leaves the list of those to be replayed. -/
def sendSeq (q : BitVec 8) (typ : Nat) (d : Dir) : Dir :=
  match d.replay with
  | (r, _) :: t => if q = r then { d with replay := t } else if q = d.tx then { d with tx := d.tx + 1, buf := (d.buf ++ [(q, typ)]).drop (d.buf.length - 127) } else d
  | [] => if q = d.tx then { d with tx := d.tx + 1, buf := (d.buf ++ [(q, typ)]).drop (d.buf.length - 127) } else d

/-- A sequenced flit that may leave arrives (R32, R36): accepted only with the SEQ expected; another is discarded, and the first such starts a NAK that names the one
expected. The answer says whether it was accepted. -/
def recvSeq (toAnvil : Bool) (q : BitVec 8) (typ : Nat) (s : State) : State × Bool :=
  if !(s.linkOn) || !(dirUp (s.dir toAnvil)) || !(s.mayLeave toAnvil q typ) then (s, false)
  else
    let s := flitLeft toAnvil typ (onDir toAnvil (sendSeq q typ) s)
    if q = (s.dir toAnvil).rx then (onDir toAnvil (fun d => { d with rx := d.rx + 1, gap := false, nak := none }) s, true)
    else (onDir toAnvil (fun d => { d with gap := true, nak := if d.gap then d.nak else some d.rx }) s, false)

/-- A flit that acts on arrival: `f` is its effect where it is accepted. -/
def onFlit (toAnvil : Bool) (q : BitVec 8) (typ : Nat) (f : State → State) (s : State) : Host.Outcome State Fault Refusal :=
  let r := recvSeq toAnvil q typ s
  .next (if r.2 then f r.1 else r.1)

/-- NAK_FLIT: the die that receives it replays the other direction from the SEQ named (R32). `toAnvil` is the direction of the NAK itself. A die sends one only where
it has found a gap; a NAK that is itself replayed names what it named before. -/
def execNakFlit (toAnvil : Bool) (seq want : BitVec 8) (s : State) : Host.Outcome State Fault Refusal :=
  if !(replays (s.dir toAnvil) seq) && (s.dir (!toAnvil)).nak ≠ some want then .next s
  else onFlit toAnvil seq 0xB (onDir (!toAnvil) (fun d => { d with replay := d.buf.dropWhile (fun e => e.1 ≠ want) })) s

/-- MSG_FLIT: schedule-reserved message traffic (R36); what it carries acts through the commands of its chapter. -/
def execMsgFlit (toAnvil : Bool) (seq : BitVec 8) (s : State) : Host.Outcome State Fault Refusal := onFlit toAnvil seq 5 id s

/-- A copy of a flit is discarded on a lane: a failed lane in training counts its TRAIN flits anew (R38), a working one counts the failure (R37). -/
def laneError (toAnvil : Bool) (lane : Nat) (s : State) : State :=
  onDir toAnvil (fun d =>
    if lane = 0 then (if d.failed0 then { d with train0 := 0, restore0 := false } else { d with fails0 := d.fails0 + 1 })
    else (if d.failed1 then { d with train1 := 0, restore1 := false } else { d with fails1 := d.fails1 + 1 })) s

/-- The sender's part in a flit that neither lane brings: it has taken its position and its SEQ, and what it carried stays until the replay (R32). -/
def flitLost (toAnvil : Bool) (t : Nat) (q : BitVec 8) (s : State) : State :=
  if !(s.mayLeave toAnvil q t) then s
  else
    let s := flitLeft toAnvil t (onDir toAnvil (sendSeq q t) s)
    if toAnvil && t = 1 then onLink (fun l => { l with block := .sent }) s
    else if toAnvil && t = 0xD then onFlt (fun f => { f with reqFlight := f.reqFlight ++ f.heldReq.take 1, heldReq := f.heldReq.drop 1 }) s
    else s

/-- FLIT_CRC_ERROR: a copy of a flit is discarded on a lane because its CRC does not match (R30, R37). A flit of which no other copy arrived is lost: a BUS flit's
lines are recessive (R35), and of any other TYPE the sender has used the SEQ (R32). A flit whose CRC matches is none of this row's: one of a
reserved TYPE is discarded without effect, any other has its own row. -/
def execFlitCrcError (toAnvil : Bool) (lane : Nat) (bad : BadFlit) (s : State) : Host.Outcome State Fault Refusal :=
  let d := s.dir toAnvil
  if !(s.linkOn) || 2 ≤ lane || flitCrcOk bad.raw then .next s
  else if (if lane = 0 then d.failed0 else d.failed1) then .next (laneError toAnvil lane s)
  else
    let s := match bad.lost with
      | none => s
      | some (t, q) =>
        if t = 6 then onLink (fun l => if toAnvil then { l with toAnvil := .recessive } else { l with toHearth := .recessive }) s
        else flitLost toAnvil t q s
    let s := laneError toAnvil lane s
    let n := if lane = 0 then (s.dir toAnvil).fails0 else (s.dir toAnvil).fails1
    .next (if n = 16 then laneFail toAnvil lane s else s)

/-! ### Line states (R33 to R35) -/

/-- BUS_FLIT: line states reach the far die; those toward Anvil end the recessive hold. -/
def execBusFlit (toAnvil : Bool) (lines : BusLines) (s : State) : Host.Outcome State Fault Refusal :=
  if !(s.linkOn) || !(dirUp (s.dir toAnvil)) then .next s
  else .next (onLink (fun l => if toAnvil then { l with toAnvil := lines, txRecessive := false } else { l with toHearth := lines }) s)

/-- BUS_FLIT_TIMEOUT: 1 us without a valid BUS flit: Anvil holds every CAN and LIN transmit input recessive (R35). -/
def execBusFlitTimeout (s : State) : Host.Outcome State Fault Refusal :=
  .next (onLink (fun l => { l with txRecessive := true, toAnvil := .recessive }) s)

/-! ### Frame blocks (R41, R42, R52) -/

/-- Anvil is to answer with an EPOCH_REJECT (R52). -/
def rejects (s : State) : State := onLink (fun l => { l with reject := .waiting }) s

/-- A BLOCK flit has been sent; with the last of a block none waits any more (R36). -/
def blockFlitSent (total : Nat) (s : State) : State :=
  onLink (fun l => { l with blockSent := l.blockSent + 1, block := if total ≤ l.blockSent + 1 then .sent else l.block }) s

/-- BLOCK_FLIT: segment `seg` of `total` of the frame block on its way. Its EPOCH_LO is that of the block; another than Anvil's is answered with EPOCH_REJECT and
discarded (R29, R52). With the last segment Anvil validates the block (R42): CRC, full epoch, successor FN, tick 49,600 and, in orphan mode, the frame of the REJOIN accepted. -/
def execBlockFlit (seq : BitVec 8) (seg total : Nat) (crcOk : Bool) (s : State) : Host.Outcome State Fault Refusal :=
  onFlit true seq 1 (fun s =>
    match s.blk with
    | none => s
    | some (ep, f, _, com) =>
      let s := blockFlitSent total s
      let a := s.anvil
      if ep.truncate 4 ≠ (a.epoch.truncate 4 : BitVec 4) then rejects s
      else if (a.orphan && a.rejoinF ≠ some f) || total ≤ seg then s
      else
        let segs := if a.segs.contains seg then a.segs else seg :: a.segs
        if segs.length < total then onAnvil (fun a => { a with segs := segs }) s
        else
          let ok := crcOk && decide (ep = a.epoch) && decide (f = a.lastFn + 1) && decide ((s.tbNow - s.time.anvilTb).toNat < 49600)
          let s := onAnvil (fun a => { a with segs := [], valid := if ok then some (f, com) else a.valid }) s
          if crcOk && decide (ep ≠ a.epoch) then rejects s else s) s

/-! ### The state image and its digest (R53) -/

/-- The canonical state image: for every channel, bridge, sink and LF driver its mode, applied values, latched flags and orphan phase. A bridge and an LF driver hold
through orphan mode (R48). An LF driver has no control mode; its applied value is the current step it drives. -/
def imageOf (a : Anvil) (x : Acc) : List Nat :=
  (List.range 64).flatMap (fun n =>
    let c := tget chanDef a.ch n
    let k := tget coilDef a.coil n
    [cfMode (a.vals.chCfgOf n), b2n c.appOn, c.appDset, b2n c.drive, b2n c.limp, b2n c.adopted, b2n k.appEngage, k.appCount.toNat, k.flags &&& 0xC0F, c.prot &&& 0xFB, c.diag,
     b2n c.safe, c.orphan])
  ++ (List.range 8).flatMap (fun b =>
    let k := tget bridgeDef a.br b
    [k.app.drive, k.app.duty, wrapI 24 k.app.target, k.st, k.flags, b2n a.orphan])
  ++ (List.range 36).flatMap (fun n => let k := tget sinkDef a.sink n; [k.app, k.flags, b2n k.shortOff, b2n k.safe, k.orphan])
  ++ (List.range 8).flatMap (fun d => [if bit x.lfOn d then afI x.cfg d else 0, b2n (bit x.fault d), b2n (bit x.lfHeld d), b2n a.orphan])

/-- One octet enters the CRC-64 of ECMA-182: generator 42F0E1EBA9EA3693h, most significant bit first, from 0, no final inversion. -/
def crc64Step (c : Nat) (o : Octet) : Nat :=
  (List.range 8).foldl (fun c _ => if 2 ^ 63 ≤ c then (2 * c % 2 ^ 64) ^^^ 0x42F0E1EBA9EA3693 else 2 * c) (c ^^^ (o.toNat * 2 ^ 56))
def crc64 (b : List Octet) : BitVec 64 := BitVec.ofNat 64 (b.foldl crc64Step 0)

def digestOf (a : Anvil) (x : Acc) : BitVec 64 := crc64 (Config.imageOctets (imageOf a x))
/-- Anvil's digest now. -/
def State.digest (s : State) : BitVec 64 := digestOf s.anvil s.acc

/-- The epoch that follows (R51). -/
def nextEpoch (e : BitVec 16) : BitVec 16 := if e = 0xFFFF then 1 else e + 1

/-! ### Rejoin at Hearth (R45, R54) -/

/-- Hearth's copy of Anvil's units from a REPORT or EVENT; monitors travel in SAMPLE flits. -/
def repFrom (a : Anvil) (s : State) : State := { s with rep := { a with mon := s.rep.mon } }

/-- The committed values an adopted state stands for (R54 step 3, R56, R266): no value changes. -/
def adoptCom (a : Anvil) (c : Com) : Com :=
  { c with
    ch := (List.range 64).foldl (fun t n =>
      let x := tget chanDef a.ch n
      tput chValDef t n { on := if x.limp then x.drive else x.appOn && x.orphan ≠ 3, dset := x.appDset, held := decide (x.orphan = 2) || decide (x.orphan = 3) || x.limp || x.adopted }) []
    ind := (List.range 64).foldl (fun t n => let k := tget coilDef a.coil n; tput indDef t n { engage := k.appEngage && (tget chanDef a.ch n).orphan ≠ 3, count := k.appCount }) []
    br := (List.range 8).foldl (fun t b => tput brDef t b (tget bridgeDef a.br b).app) []
    ls := (List.range 36).foldl (fun t n => let k := tget sinkDef a.sink n; tput lsDef t n (if k.orphan = 3 then 0 else k.app)) []
    ripple := (List.range 8).foldl (fun t b => let k := tget bridgeDef a.br b; tput (fun _ => (0, 0)) t b (k.rippleCount, k.rippleErr)) []
    rippleNew := [], lsStaged := [], allow := 0, chCfgNow := [], clrProt := a.clrDone.map (fun e => (e.1, (e.2, 0))) }

/-- Step 4: REJOIN leaves for Anvil, after the REPORT of the frame and before its commit point. -/
def rejoinSend (s : State) : State :=
  if s.link.step = .ready && s.link.repSeen && decide (s.tick < 40000) then
    let f := if s.link.repEpoch = 0 then s.fn + 1 else s.link.repL + 1
    onLink (fun l => { l with step := .sent, rejoinF := f, rejoin := .waiting }) s
  else s

/-- Steps 1 and 2: Hearth has read Anvil's epoch and last executed FN and asks for the full state. Its FN continues from Anvil's. -/
def rejoinStart (s : State) : State :=
  let a := s.anvil
  let s := onLink (fun l => { l with step := .dumpFull, dumpReq := .waiting, repEpoch := a.epoch, repL := a.lastFn, repOrphan := a.orphan }) s
  if a.epoch = 0 then s else onClk (fun t => { t with fn := a.lastFn, frameTb := s.time.anvilTb }) s

/-- The new image that waits for the rejoin comes into force; frame F runs its boot mode (R199). A channel whose LOAD entry fails R272 against its PROT_CFG raises PROT_MISMATCH; both
stand (R273). -/
def imageStart (f : Fn) (s : State) : State :=
  match s.sched.pend with
  | none => s
  | some img =>
    let s := switchMode ((img.map imgBootMode).getD 0) f (onSched (fun x => { x with img := img, pend := none, imgNew := true }) s)
    (List.range 64).foldl (fun s n => if loadFails s.sched.img n (s.com.protOf n) = 0 then s else raise 0x06B n s) s

/-- The rejoin has been accepted: pads, the wake notice, the results that waited for it. -/
def rejoinDone (s : State) : State :=
  let s := onLink (fun l => { l with step := .idle, epoch := s.anvil.epoch }) s
  let s := imageStart s.link.rejoinF s
  let s := onPwr (fun p => { p with padsHeld := p.padsHeld && !(pwAutoPad p.cfg) }) (onUpd (fun u => { u with rejoined := true }) s)
  let s := match s.upd.result with | some d => updResult d (onUpd (fun u => { u with result := none }) s) | none => s
  let s := if s.pwr.waking then
      let r := s.pwr.wakeRec
      (List.range 16).foldl (fun s c => if c ≠ 0 && ctxEnabled (s.cx c) then notify c 0xB002 r s else s) (onPwr (fun p => { p with waking := false }) s)
    else s
  accRejoined s

/-- REPORT_FLIT: the report that Anvil owes, that of the frame or the one that accepts a REJOIN (R45, R54, R55). From the states of the lanes in it Hearth detects the
loss of those toward Anvil (R39). -/
def execReportFlit (seq : BitVec 8) (s : State) : Host.Outcome State Fault Refusal :=
  if s.link.report = .no then .next s
  else onFlit false seq 2 (fun s =>
    let s := if dirUp s.link.h2a then s else linkLost false s
    let s := linkReturn (repFrom s.anvil (onLink (fun l => { l with repSeen := true, repMiss := 0, report := .no }) s))
    let a := s.anvil
    match s.link.step with
    | .idle => if a.epoch ≠ s.link.epoch || (a.orphan && a.rejoinF.isNone) then rejoinStart s else s
    | .wantReport => rejoinStart s
    | .sent =>
      if a.epoch = nextEpoch s.link.repEpoch then rejoinDone s
      else if a.epoch = s.link.repEpoch && a.lastFn ≠ s.link.repL then rejoinSend (onLink (fun l => { l with step := .ready, repL := a.lastFn }) s)
      else s
    | _ => rejoinSend (onLink (fun l => { l with repEpoch := a.epoch, repL := a.lastFn, repOrphan := a.orphan }) s)) s

/-- REPORT_TIMEOUT: three frames without a valid REPORT: Hearth declares link loss (R45). -/
def execReportTimeout (s : State) : Host.Outcome State Fault Refusal :=
  .next (if s.hearthUp && !s.parked && decide (3 ≤ s.link.repMiss) then linkLost false s else s)

/-- SAMPLE_FLIT: readings, inputs and monitors reach Hearth (R159). -/
def execSampleFlit (seq : BitVec 8) (s : State) : Host.Outcome State Fault Refusal :=
  onFlit false seq 3 (fun s =>
    let a := s.anvil
    { s with repM := s.chM,
             rep := { s.rep with mon := a.mon, areaFault := a.areaFault, sup := a.sup,
                                 limp := { s.rep.limp with dir := a.limp.dir, lhin := a.limp.lhin },
                                 sink := a.sink.foldl (fun t e => tmod sinkDef t e.1 (fun k => { k with i := e.2.i, v := e.2.v, stale := e.2.stale })) s.rep.sink } }) s

/-- EVENT_FLIT: what Anvil's units report in events (R159). -/
def execEventFlit (seq : BitVec 8) (s : State) : Host.Outcome State Fault Refusal := onFlit false seq 4 (fun s => repFrom s.anvil s) s

/-- REJOIN_FLIT: an epoch, a frame and a digest reach Anvil, which accepts or rejects them (R51, R52, R55). Acceptance stops the hold clocks, ends park and a
stuck RESET_N that has been released, and is answered with a REPORT; a rejection leaves every pin and is answered with an EPOCH_REJECT. -/
def execRejoinFlit (seq : BitVec 8) (ep : BitVec 16) (f : Fn) (dig : BitVec 64) (s : State) : Host.Outcome State Fault Refusal :=
  onFlit true seq 7 (fun s =>
    let a := s.anvil
    if ep = nextEpoch a.epoch && (a.epoch = 0 || decide (f = a.lastFn + 1)) && decide (dig = s.digest) then
      let s := onAnvil (fun a =>
        { a with epoch := ep, lastFn := if a.epoch = 0 then f - 1 else a.lastFn, rejoinF := some f, quiet := 0, segs := [], valid := none, actHold := false, actHoldEnd := none,
                 ch := a.ch.foldl (fun t e => tput chanDef t e.1 { e.2 with holdEnd := none }) [],
                 sink := a.sink.foldl (fun t e => tput sinkDef t e.1 { e.2 with holdEnd := none }) [],
                 limp := { a.limp with stuck := a.limp.stuck && s.pwr.resetLow.isSome } }) s
      let s := onLink (fun l => { l with report := .waiting }) s
      if s.parked then onPwr (fun p => { p with state := 0 }) s else s
    else rejects s) s

/-- EPOCH_REJECT_FLIT: the answer that Anvil owes reaches Hearth, which learns that Anvil refused (R52, R54 step 5). -/
def execEpochRejectFlit (seq : BitVec 8) (s : State) : Host.Outcome State Fault Refusal :=
  if s.link.reject = .no then .next s
  else onFlit false seq 8 (fun s =>
    let s := onLink (fun l => { l with reject := .no }) s
    match s.link.step with
    | .sent => onLink (fun l => { l with step := .dumpChanged, dumpReq := .waiting, repEpoch := s.anvil.epoch, repL := s.anvil.lastFn }) s
    | .idle | .wantReport => rejoinStart s
    | _ => s) s

/-- DUMP_REQ_FLIT: Anvil is asked for its full state, or for the units that changed (R54, R680). -/
def execDumpReqFlit (seq : BitVec 8) (full : Bool) (s : State) : Host.Outcome State Fault Refusal :=
  onFlit true seq 9 (onLink (fun l => { l with dump := some full, dumpReq := .no })) s

/-- DUMP_FLIT: unit state reaches Hearth; with the last flit Hearth adopts it (R54 steps 2 to 4): the full state as of the last frame boundary, or what changed. -/
def execDumpFlit (seq : BitVec 8) (last : Bool) (s : State) : Host.Outcome State Fault Refusal :=
  onFlit false seq 0xA (fun s =>
    match s.link.dump with
    | none => s
    | some full =>
      if !last then s
      else
        let a := if full then s.bound else s.anvil
        let s := onLink (fun l => { l with dump := none }) s
        if s.link.step = (if full then .dumpFull else .dumpChanged) then
          let s := onCom (adoptCom a) (repFrom a s)
          rejoinSend (onLink (fun l => { l with step := .ready, adopted := digestOf a s.acc }) s)
        else s) s

/-- SEQ of the QUENCH_REQ flit that comes next: the flit to be replayed where it is one, else a fresh one (R29, R32). -/
def State.quenchSeq (s : State) : BitVec 8 :=
  match s.link.h2a.replay with
  | (r, t) :: _ => if t = 0xD then r else s.link.h2a.tx
  | [] => s.link.h2a.tx

/-- QUENCH_REQ_FLIT (R567): the oldest request that waits, or is on its way, reaches Anvil, which applies the reaction. While the link is lost none can be sent (R568). -/
def execQuenchReqFlit (s : State) : Host.Outcome State Fault Refusal :=
  if s.link.lost || (s.flt.reqFlight.isEmpty && s.flt.heldReq.isEmpty) then .next s
  else
    let seq := s.quenchSeq
    let fresh := !(replays s.link.h2a seq)
    let r := recvSeq true seq 0xD s
    let s := if fresh && r.1.link.h2a.tx ≠ s.link.h2a.tx then
        onFlt (fun f => { f with reqFlight := f.reqFlight ++ f.heldReq.take 1, heldReq := f.heldReq.drop 1 }) r.1 else r.1
    if r.2 then
      match s.flt.reqFlight with
      | (src, i) :: t =>
        let s := onFlt (fun f => { f with reqFlight := t }) s
        .next (if (s.fltInst src i).severe then reactAt src i s else s)
      | [] => .next s
    else .next s

end Sys2Proof.Machine
end

