-- ==== Sys2Proof/Machine/Memory.lean ====
section
/-! DEFINITION. The diagnostic space (R100 to R103): its regions, MEM_READ and MEM_WRITE. -/

namespace Sys2Proof.Machine

/-- The regions of the diagnostic space (R100). -/
inductive MemRegion where
  | bank (b : Nat)
  | settings (a : Nat)
  | queues
  | program (c : Nat)
  | data (c : Nat)
  | status
deriving DecidableEq, Repr

/-- First and last line of each region. -/
def memMap : List (Nat × Nat × MemRegion) :=
  [(0x000000, 0x09FFFF, .bank 0), (0x0A0000, 0x13FFFF, .bank 1), (0x140000, 0x15FFFF, .settings 0), (0x160000, 0x17FFFF, .settings 1), (0x200000, 0x22FFFF, .queues)]
  ++ (List.range 4).flatMap (fun c => [(0x300000 + 0x10000 * c, 0x302FFF + 0x10000 * c, .program c), (0x308000 + 0x10000 * c, 0x30C7FF + 0x10000 * c, .data c)])
  ++ [(0x400000, 0x40FFFF, .status)]

/-- The region that holds all of `n` lines from `line` on, with its first line. -/
def memRegion (line n : Nat) : Option (Nat × MemRegion) :=
  (memMap.find? (fun e => decide (e.1 ≤ line) && decide (line + n ≤ e.2.1 + 1))).map (fun e => (e.1, e.2.2))

/-- Whether MEM_WRITE may write a region. -/
def memWritable : MemRegion → Bool
  | .settings _ | .program _ | .data _ => true
  | _ => false

/-- Octet `j` of a core memory (R102). -/
def wordOctet (t : Tab W24) (j : Nat) : Octet := ((tget wordDef t (j / 3)) >>> (8 * (j % 3))).truncate 8

/-- A word with octet `k` replaced. -/
def setWordOctet (w : W24) (k : Nat) (o : Octet) : W24 := BitVec.ofNat 24 (rd (putAt (le 3 w.toNat) k [o]) 0 3)

/-- A core memory with octet `j` written. -/
def putWordOctet (t : Tab W24) (j : Nat) (o : Octet) : Tab W24 := tmod wordDef t (j / 3) (fun w => setWordOctet w (j % 3) o)

def storeDef : Nat → Option Octet := fun _ => none

/-- The cells that hold data (R108): queue, position in it, octets. A packet in an input or reply queue lies in cells as its own octets do, counted from its SEQ. -/
def State.storedCells (s : State) : List (Nat × Nat × Rec) :=
  let packet (q seq : Nat) (o : Rec) : List (Nat × Nat × Rec) := ((chunk48 (cellsOf o.length) o).zipIdx).map (fun x => (q, 128 * seq + x.2, x.1))
  let held (c : Nat) (x : Ctx) : List Pkt := x.waiting ++ (match x.batch with | some b => b.members | none => []) ++ (s.closed.filter (fun b => b.ctx = c)).flatMap (·.members)
  s.qf.queues.flatMap (fun e => (e.2.cells.zipIdx).map (fun x => (e.1, (e.2.rel + BitVec.ofNat 32 x.2).toNat, x.1.data)))
    ++ s.ctxs.flatMap (fun e => (held e.1 e.2).flatMap (fun p => packet e.1 p.h.seq.toNat (pktOctets p ++ le 4 (pktCrc p))))
    ++ s.ctxs.flatMap (fun e => (e.2.out.filter (·.reply)).flatMap (fun d => packet (16 + e.1) d.seq.toNat (devOctets e.1 d)))

/-- Octet `j` of cell `c` of the queue store (R108), if a cell in use has that number. Which cell an entry is admitted into the spec does not say (assumption log 6). -/
def cellOctet (s : State) (c j : Nat) : Option Octet :=
  match s.storedCells.find? (fun x => Config.cellNo x.1 x.2.1 % 65536 = c) with
  | some x => x.2.2[j]?
  | none => none

/-- An octet of the diagnostic space, by its region, its offset from the region's first line and its octet address. Contents the spec does not lay out (the status table, the
settings store where nothing has been written, cells not in use) read free values that depend on the frame (assumption log 6). -/
def memOctet (s : State) (f : Fn) (r : MemRegion) (off addr : Nat) : Octet :=
  let free : Octet := Config.freeOctet (addr / 16) (addr % 16) f.toNat
  match r with
  | .bank b => tget octDef (s.bank b) off
  | .settings _ => (tget storeDef s.upd.store addr).getD free
  | .program c => wordOctet (s.core c).prog off
  | .data c => wordOctet (s.core c).data off
  | .queues => (cellOctet s (off / 48) (off % 48)).getD free
  | .status => free

def memLine (b : Rec) : Nat := rd b 0 3
def memCount (b : Rec) : Nat := rd b 3 1

/-- LINE and COUNT against the map. -/
def memRange (ok : MemRegion → Bool) (b : Rec) : Option Nat :=
  firstBad [(19, decide (1 ≤ memCount b ∧ memCount b ≤ 254)),
    (16, match memRegion (memLine b) (memCount b) with | some (_, r) => ok r | none => false)]

/-- MEM_READ: the lines as they stood at the start of the frame of the reply (R103). -/
def memReadSpec : OpSpec :=
  { readSpec 0x0020 0 4 [] noCheck 4064 (fun r s =>
      let l := memLine r.b
      match memRegion l (memCount r.b) with
      | none => []
      | some (base, g) => (List.range (16 * memCount r.b)).map (fun i => memOctet s s.fn g (16 * (l - base) + i) (16 * l + i))) with
    priv := 2, maxData := fun b => 16 * memCount b, range := fun r _ => memRange (fun _ => true) r.b }

/-- The octets of a MEM_WRITE land in their region. -/
def memPut (r : MemRegion) (off addr : Nat) (b : Rec) (s : State) : State :=
  match r with
  | .settings _ => onUpd (fun u => { u with storeNew := true, store := (b.zipIdx).foldl (fun t e => tput storeDef t (addr + e.2) (some e.1)) u.store }) s
  | .program c => onCore c (fun k => { k with prog := (b.zipIdx).foldl (fun t e => putWordOctet t (off + e.2) e.1) k.prog }) s
  | .data c => onCore c (fun k => { k with data := (b.zipIdx).foldl (fun t e => putWordOctet t (off + e.2) e.1) k.data }) s
  | _ => s

/-- MEM_WRITE, at a commit point, between activations (R103). -/
def memWriteSpec : OpSpec :=
  { code := 0x0021, kind := .commit, solo := true, data := false, units := noUnits, priv := 2, access := noAccess,
    okLen := fun b => decide (4 ≤ b.length) && b.length = 4 + 16 * memCount b, resv := noResv, range := fun r _ => memRange memWritable r.b, check := noCheck,
    anvil := notAnvil, recs := fun _ _ => 0, maxData := fun _ => 0,
    run := fun r s =>
      let l := memLine r.b
      { st := match memRegion l (memCount r.b) with | some (base, g) => memPut g (16 * (l - base)) (16 * l) (r.b.drop 4) s | none => s,
        status := .ok, detail := 0, data := [] } }

end Sys2Proof.Machine
end

