-- ==== Sys2Proof/Machine/SysCmds.lean ====
section
/-! DEFINITION. System opcodes of 02_command_protocol: PING, GET_INFO, CTX_RESET, UNIT_CLAIM, CTX_CONFIG. -/

namespace Sys2Proof.Machine

/-- PING (R67): TB and the echo; no effect but the notification credit its header grants. -/
def pingSpec : OpSpec :=
  { code := 0x0001, kind := .now, solo := true, data := true, units := noUnits, priv := 0, access := noAccess,
    okLen := fun b => decide (b.length ≤ 4056), resv := noResv, range := noRange, check := noCheck, anvil := notAnvil, recs := fun _ _ => 0,
    maxData := fun b => 8 + b.length,
    run := answer (fun r s => le 6 s.tbNow.toNat ++ zeros 2 ++ r.b) }

def getInfoSpec : OpSpec := readSpec 0x0002 0 0 [] noCheck 40 (fun r s =>
    let x := s.cx r.h.ctx
    le 2 0x6418 ++ [if Config.variantK then 0x4B else 0x53, 1, Config.hearthRev, Config.anvilRev, 0, 0] ++ le 8 Config.uid.toNat
      ++ le 4 s.fwVer ++ [BitVec.ofNat 8 s.upd.active, BitVec.ofNat 8 s.com.mode] ++ le 2 s.link.epoch.toNat ++ le 6 s.clk.frameTb.toNat
      ++ [BitVec.ofNat 8 r.h.ctx, BitVec.ofNat 8 (ctxPriv x)] ++ le 4 ((s.sched.img.map imgSchedId).getD 0)
      ++ le 2 (unitCount 6) ++ le 2 (ctxFree x))

/-- CTX_RESET (R104, R685): the reset is noted; it starts at the next commit point. -/
def ctxResetSpec : OpSpec :=
  { code := 0x0030, kind := .now, solo := true, data := false, units := noUnits, priv := 0,
    access := fun r s => if rd r.b 0 1 = r.h.ctx || ctxPriv (s.cx r.h.ctx) = 2 then none else some (.denied, 0xFFFF)
    okLen := lenIs 4, resv := fun _ => [(1, 3, 0xFFFFFF)],
    range := fun r s => let t := rd r.b 0 1; if t = 0 || t > 15 || !(ctxEnabled (s.cx t)) then some 16 else none
    check := fun r s => if ctxResetting (s.cx (rd r.b 0 1)) then some (.busy, 0) else none
    anvil := notAnvil, recs := fun _ _ => 0, maxData := fun _ => 0,
    run := fun r s =>
      { st := onCtx (rd r.b 0 1) (fun x =>
          { x with reset := some (match x.reset with
              | some y => { y with more := y.more ++ [(r.h.ctx, r.h.seq)] }
              | none => { requester := r.h.ctx, reqSeq := r.h.seq, op := 0x0030, started := false, returned := 0, cfg := none, more := [] }) }) s,
        status := .pending, detail := 0, data := [] } }

/-- The channels of a bridge pair in BRIDGE mode (R94): the partner that moves with a channel. -/
def bridgePartner (s : State) (t i : Nat) : Option Nat :=
  if t = 1 ∧ 48 ≤ i ∧ bits (rd (s.com.chCfgOf i) 1 1) 0 3 = 4 then some (if i % 2 = 0 then i + 1 else i - 1) else none

/-- A unit passes to another owner (R94, R96, R120); naming the present owner is no change of owner (R165). -/
def transferUnit (t i o : Nat) (s : State) : State :=
  if s.owner t i = o then s else
  let s' := if t = 3 then handQueue i o s else giveUnit t i o s
  match bridgePartner s t i with
  | some p => giveUnit t p o s'
  | none => s'

/-- UNIT_CLAIM (R105): who may name whom. -/
def claimAccess (r : Req) (s : State) : Option (Status × Nat) :=
  let t := rd r.b 0 1
  let i := unitIx r.b
  let o := s.owner t i
  let new := rd r.b 6 1
  if t = 3 && reservedQueue i then some (.denied, 0)
  else if ctxPriv (s.cx r.h.ctx) = 2 then none
  else if (new = r.h.ctx && o = 0) || (new = 0 && o = r.h.ctx) then none
  else some (.denied, o)

def unitClaimSpec : OpSpec :=
  { code := 0x0031, kind := .commit, solo := false, data := true, units := fun _ => [{ off := 0, types := [1, 2, 3, 4, 5, 6, 7], own := false }],
    priv := 1, access := claimAccess, okLen := lenIs 8, resv := fun _ => [(7, 1, 0xFF)],
    range := fun r s =>
      let n := rd r.b 6 1
      if n = 0 || (decide (n ≤ 15) && ctxEnabled (s.cx n) && decide (1 ≤ ctxPriv (s.cx n))) then none else some 22
    check := noCheck, anvil := notAnvil, recs := fun _ _ => 0, maxData := fun _ => 2,
    run := fun r s =>
      let s := transferUnit (rd r.b 0 1) (unitIx r.b) (rd r.b 6 1) s
      { st := s, status := .ok, detail := 0, data := genOct s (rd r.b 0 1) (unitIx r.b) },
    fin := fun r s _ => genOct s (rd r.b 0 1) (unitIx r.b) }

/-- A CTX_CFG record on its own (R90). -/
def ctxCfgResv : List (Nat × Nat × Nat) := [(1, 1, 0xC0), (2, 1, 0xF8), (3, 1, 0xFF), (10, 2, 0xF000)]

/-- The context as its record in force and the record that waits for its reset have it (R91, R106). -/
def ctxForms (x : Ctx) : List Ctx :=
  match x.reset with
  | some { cfg := some b, .. } => [x, { x with cfg := b }]
  | _ => [x]

/-- Ranges of a CTX_CFG (R90, R91, R118), against every other context's record in force and the one that waits for a reset. -/
def ctxCfgRange (s : State) (b : Rec) : Option Nat :=
  let id := rd b 0 1
  let tr := bits (rd b 1 1) 0 4
  let lim (v : Nat) : Bool := if tr = 0 then v = 0 else decide (8 ≤ v ∧ v ≤ 1024)
  let others := ((List.range 16).filter (fun c => decide (1 ≤ c) && c ≠ id)).flatMap (fun c => (ctxForms (s.cx c)).filter ctxEnabled)
  let clash := others.any (fun y =>
    ctxTransport y = tr && (decide (3 ≤ tr) || (sub y.cfg 4 6 = sub b 4 6 && sub y.cfg 10 2 = sub b 10 2)))
  let access := tr ≠ 0 && bit (rd b 2 1) 1 && others.any ctxAccess
  let sum := limitSum { s with ctxs := tmod ctxDef s.ctxs id (fun x => { x with cfg := b, reset := none }) } 65536 0
  firstBad [(16, decide (1 ≤ id ∧ id ≤ 15)), (17, decide (tr ≤ 4) && decide (bits (rd b 1 1) 4 2 ≤ 2) && !(tr ≠ 0 && clash)), (18, !access),
    (20, !(decide (3 ≤ tr) && rd b 4 6 ≠ 0)), (28, lim (rd b 12 2) && decide (sum ≤ 65536)), (30, lim (rd b 14 2))]

/-- A CTX_CFG record takes force (R106): stored, and held from then on. -/
def applyCtxCfg (b : Rec) (s : State) : State :=
  onCom (fun c => { c with ctxCfg := tput (fun _ => zeros 16) c.ctxCfg (rd b 0 1) b }) (onCtx (rd b 0 1) (fun x => { x with cfg := b }) s)

/-- A CTX_CONFIG applied at the commit point in progress resets the context: its reset takes effect at this commit point (R685). -/
def ctxConfigured (x : Ctx) : Bool := match x.reset with | some y => y.cfg.isSome | none => false

/-- CTX_CONFIG (R106): a disabled context takes the record at the commit point; an enabled one is reset first and takes it at CTX_RESET_DONE. -/
def ctxConfigSpec : OpSpec :=
  { code := 0x0032, kind := .commit, solo := true, data := false, units := noUnits, priv := 2, access := noAccess, okLen := lenIs 16,
    resv := fun _ => ctxCfgResv, range := fun r s => ctxCfgRange s r.b,
    check := fun r s =>
      if rd r.b 0 1 = r.h.ctx then some (.state, 0)
      else if ctxResetting (s.cx (rd r.b 0 1)) || ctxConfigured (s.cx (rd r.b 0 1)) then some (.busy, 0)
      else (ctxCfgRange s r.b).map (fun x => (.range, x)),
    anvil := notAnvil, recs := fun _ _ => 0, maxData := fun _ => 0,
    run := fun r s =>
      let c := rd r.b 0 1
      if ctxEnabled (s.cx c) then
        { st := onCtx c (fun x =>
            { x with reset := some { requester := r.h.ctx, reqSeq := r.h.seq, op := 0x0032, started := false, returned := 0, cfg := some r.b, more := [] } }) s,
          status := .pending, detail := 0, data := [] }
      else { st := applyCtxCfg r.b s, status := .ok, detail := 0, data := [] } }

end Sys2Proof.Machine
end

