-- ==== Sys2Proof/Machine/OpTable.lean ====
section
/-! DEFINITION. The table of the opcodes the block knows (R58, R74): any other is refused with UNSUPPORTED. -/

namespace Sys2Proof.Machine

/-- Opcodes of 02_command_protocol. -/
def specsSysCmds : List OpSpec := [pingSpec, getInfoSpec, ctxResetSpec, unitClaimSpec, ctxConfigSpec]
/-- Opcodes of the diagnostic space. -/
def specsMemory : List OpSpec := [memReadSpec, memWriteSpec]
/-- Opcodes of 05_schedule_contract. -/
def specsSchedCmds : List OpSpec := [modeSelectSpec, schedStatusSpec, schedUnitSpec]
/-- Opcodes of 03_queue_fabric. -/
def specsQueueCmds : List OpSpec := [qConfigSpec, qPushSpec, qReadSpec, qMarkSpec, qRewindSpec, qReleaseSpec, qStatusSpec, qAuditSpec]
/-- Opcodes of 07_output_channels. -/
def specsChannels : List OpSpec := [chConfigSpec, chSetSpec, chStatusSpec, chClearDiagSpec, lhConfigSpec, lhStatusSpec]
/-- Opcodes of 08_channel_protection. -/
def specsProtection : List OpSpec := [chProtConfigSpec, chClearProtSpec, chProtStatusSpec, supplyStatusSpec]
/-- Opcodes of 09_inductive_drive. -/
def specsInductive : List OpSpec := [indConfigSpec, indSetSpec, indStatusSpec, indClearSpec]
/-- Opcodes of 10_motor_bridges. -/
def specsBridges : List OpSpec := [brConfigSpec, brSetSpec, brStatusSpec, brClearSpec, brPosSetSpec]
/-- Opcodes of 11_lighting. -/
def specsLighting : List OpSpec := [lsConfigSpec, lsSetSpec, lsStatusSpec, lsClearSpec, lightConfigSpec, lightStageSpec, lightDiscardSpec, lightCommitSpec, lightStatusSpec]
/-- Opcodes of 12_cesyn_cores. -/
def specsTasks : List OpSpec := [taskControlSpec, taskStatusSpec, taskParamSpec, coreStatusSpec]
/-- Opcodes of 13_can_ports. -/
def specsCan : List OpSpec := [canConfigSpec, canWakeConfigSpec, canFiltWriteSpec, canFiltApplySpec, canControlSpec, canStatusSpec]
/-- Opcodes of 14_lin_and_ethernet, LIN and the gateway. -/
def specsLin : List OpSpec := [linConfigSpec, linSetSpec, linControlSpec, linStatusSpec, gwBindSpec, gwStatusSpec]
/-- Opcodes of 14_lin_and_ethernet, Ethernet. -/
def specsEth : List OpSpec := [ethConfigSpec, ethStatusSpec]
/-- Opcodes of 15_access_immobiliser. -/
def specsAccessCmds : List OpSpec := [accConfigSpec, accStartSpec, accCalibrateSpec, accHelloSpec, accResponseSpec, accPresenceSpec, immoStartSpec, immoRevokeSpec, accStatusSpec, accClearSpec, accLockClearSpec, accLockStatusSpec]
/-- Opcodes of 16_key_store. -/
def specsKeys : List OpSpec := [keyWriteSpec, keyGenkeySpec, keyInfoSpec, keyMacSpec, keyCipherSpec, keySignSpec, keyEcdhSpec, keyAttestSpec]
/-- Opcodes of 17_fault_collection. -/
def specsFaults : List OpSpec := [fltConfigSpec, fltStatusSpec, fltHistorySpec, fltStickySpec, fltClearSpec, fltGlobalSpec]
/-- Opcodes of 18_power_states. -/
def specsPower : List OpSpec := [pwrConfigSpec, pwrSetSpec, pwrStatusSpec, padReleaseSpec, pwrWakeListSpec, hearthRestartSpec]
/-- Opcodes of 19_update. -/
def specsUpdate : List OpSpec := [updBeginSpec, updWriteSpec, updFinishSpec, updVerifySpec, updActivateSpec, updCancelSpec, updConfirmSpec, updRollbackSpec, updServiceSpec, updStatusSpec, schedCheckSpec]
/-- Opcodes of 20_inputs_monitors. -/
def specsInputs : List OpSpec := [inConfigSpec, inGlobalSpec, inStatusSpec, inCfgReadSpec, monReadSpec]
/-- Opcodes of 06_time_base. -/
def specsTimeBase : List OpSpec := [tbReadSpec, timeAnchorSpec, cmpSetSpec, cmpStatusSpec, tmrConfigSpec, tmrStatusSpec]

/-- Every opcode. -/
def allSpecs : List OpSpec :=
  specsSysCmds ++ specsMemory ++ specsSchedCmds ++ specsQueueCmds ++ specsChannels ++ specsProtection ++ specsInductive
  ++ specsBridges ++ specsLighting ++ specsTasks ++ specsCan ++ specsLin ++ specsEth ++ specsAccessCmds
  ++ specsKeys ++ specsFaults ++ specsPower ++ specsUpdate ++ specsInputs ++ specsTimeBase

/-- The opcode of a code. -/
def opSpec (code : Nat) : Option OpSpec := allSpecs.find? (fun o => o.code = code)

end Sys2Proof.Machine
end

