-- ==== Sys2Proof/Machine/HostCmds.lean ====
section
/-! DEFINITION. The commands of the hosts: one whole packet of each opcode, from its sender's link to its replies and notifications. -/

namespace Sys2Proof.Machine

/-- A body whose bits [lo+n-1 : lo] of octet `off` hold `v`: the operation that a row of the table fixes. A body too short to hold the octet stays as it is. -/
def setField (b : Rec) (off lo n v : Nat) : Rec :=
  let o := rd b off 1
  b.set off (BitVec.ofNat 8 (o - bits o lo n * 2 ^ lo + v * 2 ^ lo))

/-- One whole packet of opcode `o` sent on its context's transport (R58 to R80), after which the device packets that wait on an Ethernet
port leave (R488). -/
def hostPacket (o : OpSpec) (h : Hdr) (b : Rec) (s : State) : State := ethDrain (submit o h b opSpec s)

/-- PING (R67). -/
def execPing (h : Hdr) (b : Rec) (s : State) : Host.Outcome State Fault Refusal := .next (hostPacket pingSpec h b s)
/-- GET_INFO (R5). -/
def execGetInfo (h : Hdr) (b : Rec) (s : State) : Host.Outcome State Fault Refusal := .next (hostPacket getInfoSpec h b s)
/-- MEM_READ (R103). -/
def execMemRead (h : Hdr) (b : Rec) (s : State) : Host.Outcome State Fault Refusal := .next (hostPacket memReadSpec h b s)
/-- MEM_WRITE (R103). -/
def execMemWrite (h : Hdr) (b : Rec) (s : State) : Host.Outcome State Fault Refusal := .next (hostPacket memWriteSpec h b s)
/-- CTX_RESET (R104). -/
def execCtxReset (h : Hdr) (b : Rec) (s : State) : Host.Outcome State Fault Refusal := .next (hostPacket ctxResetSpec h b s)
/-- UNIT_CLAIM (R105). -/
def execUnitClaim (h : Hdr) (b : Rec) (s : State) : Host.Outcome State Fault Refusal := .next (hostPacket unitClaimSpec h b s)
/-- CTX_CONFIG (R106). -/
def execCtxConfig (h : Hdr) (b : Rec) (s : State) : Host.Outcome State Fault Refusal := .next (hostPacket ctxConfigSpec h b s)
/-- MODE_SELECT (R194). -/
def execModeSelect (h : Hdr) (b : Rec) (s : State) : Host.Outcome State Fault Refusal := .next (hostPacket modeSelectSpec h b s)
/-- Q_CONFIG (R119). -/
def execQConfig (h : Hdr) (b : Rec) (s : State) : Host.Outcome State Fault Refusal := .next (hostPacket qConfigSpec h b s)
/-- Q_PUSH (R141). -/
def execQPush (h : Hdr) (b : Rec) (s : State) : Host.Outcome State Fault Refusal := .next (hostPacket qPushSpec h b s)
/-- Q_READ (R128). -/
def execQRead (h : Hdr) (b : Rec) (s : State) : Host.Outcome State Fault Refusal := .next (hostPacket qReadSpec h b s)
/-- Q_MARK_SET (R131). -/
def execQMarkSet (h : Hdr) (b : Rec) (s : State) : Host.Outcome State Fault Refusal := .next (hostPacket qMarkSpec h (setField b 6 0 8 0) s)
/-- Q_MARK_CLEAR (R131). -/
def execQMarkClear (h : Hdr) (b : Rec) (s : State) : Host.Outcome State Fault Refusal := .next (hostPacket qMarkSpec h (setField b 6 0 8 1) s)
/-- Q_REWIND (R131). -/
def execQRewind (h : Hdr) (b : Rec) (s : State) : Host.Outcome State Fault Refusal := .next (hostPacket qRewindSpec h b s)
/-- Q_RELEASE (R132). -/
def execQRelease (h : Hdr) (b : Rec) (s : State) : Host.Outcome State Fault Refusal := .next (hostPacket qReleaseSpec h (setField b 10 0 1 0) s)
/-- Q_RELEASE_TO_LIMIT (R132). -/
def execQReleaseToLimit (h : Hdr) (b : Rec) (s : State) : Host.Outcome State Fault Refusal := .next (hostPacket qReleaseSpec h (setField b 10 0 1 1) s)
/-- Q_STATUS (R140). -/
def execQStatus (h : Hdr) (b : Rec) (s : State) : Host.Outcome State Fault Refusal := .next (hostPacket qStatusSpec h b s)
/-- Q_AUDIT (R137). -/
def execQAudit (h : Hdr) (b : Rec) (s : State) : Host.Outcome State Fault Refusal := .next (hostPacket qAuditSpec h b s)
/-- CH_CONFIG (R237). -/
def execChConfig (h : Hdr) (b : Rec) (s : State) : Host.Outcome State Fault Refusal := .next (hostPacket chConfigSpec h b s)
/-- CH_SET (R189). -/
def execChSet (h : Hdr) (b : Rec) (s : State) : Host.Outcome State Fault Refusal := .next (hostPacket chSetSpec h b s)
/-- CH_STATUS (R251). -/
def execChStatus (h : Hdr) (b : Rec) (s : State) : Host.Outcome State Fault Refusal := .next (hostPacket chStatusSpec h b s)
/-- CH_CLEAR_DIAG (R256). -/
def execChClearDiag (h : Hdr) (b : Rec) (s : State) : Host.Outcome State Fault Refusal := .next (hostPacket chClearDiagSpec h b s)
/-- LH_CONFIG (R260). -/
def execLhConfig (h : Hdr) (b : Rec) (s : State) : Host.Outcome State Fault Refusal := .next (hostPacket lhConfigSpec h b s)
/-- LH_STATUS (R262). -/
def execLhStatus (h : Hdr) (b : Rec) (s : State) : Host.Outcome State Fault Refusal := .next (hostPacket lhStatusSpec h b s)
/-- CH_PROT_CONFIG (R274). -/
def execChProtConfig (h : Hdr) (b : Rec) (s : State) : Host.Outcome State Fault Refusal := .next (hostPacket chProtConfigSpec h b s)
/-- CH_CLEAR_PROT (R282). -/
def execChClearProt (h : Hdr) (b : Rec) (s : State) : Host.Outcome State Fault Refusal := .next (hostPacket chClearProtSpec h b s)
/-- CH_PROT_STATUS (R302). -/
def execChProtStatus (h : Hdr) (b : Rec) (s : State) : Host.Outcome State Fault Refusal := .next (hostPacket chProtStatusSpec h b s)
/-- SUPPLY_STATUS (R300). -/
def execSupplyStatus (h : Hdr) (b : Rec) (s : State) : Host.Outcome State Fault Refusal := .next (hostPacket supplyStatusSpec h b s)
/-- IND_CONFIG (R311). -/
def execIndConfig (h : Hdr) (b : Rec) (s : State) : Host.Outcome State Fault Refusal := .next (hostPacket indConfigSpec h b s)
/-- IND_SET (R312). -/
def execIndSet (h : Hdr) (b : Rec) (s : State) : Host.Outcome State Fault Refusal := .next (hostPacket indSetSpec h b s)
/-- IND_STATUS (R337). -/
def execIndStatus (h : Hdr) (b : Rec) (s : State) : Host.Outcome State Fault Refusal := .next (hostPacket indStatusSpec h b s)
/-- IND_CLEAR (R332). -/
def execIndClear (h : Hdr) (b : Rec) (s : State) : Host.Outcome State Fault Refusal := .next (hostPacket indClearSpec h b s)
/-- BR_CONFIG (R349). -/
def execBrConfig (h : Hdr) (b : Rec) (s : State) : Host.Outcome State Fault Refusal := .next (hostPacket brConfigSpec h b s)
/-- BR_SET (R345). -/
def execBrSet (h : Hdr) (b : Rec) (s : State) : Host.Outcome State Fault Refusal := .next (hostPacket brSetSpec h b s)
/-- BR_STATUS (R374). -/
def execBrStatus (h : Hdr) (b : Rec) (s : State) : Host.Outcome State Fault Refusal := .next (hostPacket brStatusSpec h b s)
/-- BR_CLEAR (R370). -/
def execBrClear (h : Hdr) (b : Rec) (s : State) : Host.Outcome State Fault Refusal := .next (hostPacket brClearSpec h b s)
/-- BR_POS_SET (R375). -/
def execBrPosSet (h : Hdr) (b : Rec) (s : State) : Host.Outcome State Fault Refusal := .next (hostPacket brPosSetSpec h b s)
/-- LS_CONFIG (R380). -/
def execLsConfig (h : Hdr) (b : Rec) (s : State) : Host.Outcome State Fault Refusal := .next (hostPacket lsConfigSpec h b s)
/-- LS_SET (R383). -/
def execLsSet (h : Hdr) (b : Rec) (s : State) : Host.Outcome State Fault Refusal := .next (hostPacket lsSetSpec h b s)
/-- LS_STATUS (R384). -/
def execLsStatus (h : Hdr) (b : Rec) (s : State) : Host.Outcome State Fault Refusal := .next (hostPacket lsStatusSpec h b s)
/-- LS_CLEAR (R386). -/
def execLsClear (h : Hdr) (b : Rec) (s : State) : Host.Outcome State Fault Refusal := .next (hostPacket lsClearSpec h b s)
/-- LIGHT_CONFIG (R396). -/
def execLightConfig (h : Hdr) (b : Rec) (s : State) : Host.Outcome State Fault Refusal := .next (hostPacket lightConfigSpec h b s)
/-- LIGHT_STAGE (R389). -/
def execLightStage (h : Hdr) (b : Rec) (s : State) : Host.Outcome State Fault Refusal := .next (hostPacket lightStageSpec h b s)
/-- LIGHT_COMMIT (R391). -/
def execLightCommit (h : Hdr) (b : Rec) (s : State) : Host.Outcome State Fault Refusal := .next (hostPacket lightCommitSpec h b s)
/-- LIGHT_DISCARD (R397). -/
def execLightDiscard (h : Hdr) (b : Rec) (s : State) : Host.Outcome State Fault Refusal := .next (hostPacket lightDiscardSpec h b s)
/-- LIGHT_STATUS (R397). -/
def execLightStatus (h : Hdr) (b : Rec) (s : State) : Host.Outcome State Fault Refusal := .next (hostPacket lightStatusSpec h b s)
/-- TASK_CONTROL (R425). -/
def execTaskControl (h : Hdr) (b : Rec) (s : State) : Host.Outcome State Fault Refusal := .next (hostPacket taskControlSpec h b s)
/-- TASK_STATUS (R433). -/
def execTaskStatus (h : Hdr) (b : Rec) (s : State) : Host.Outcome State Fault Refusal := .next (hostPacket taskStatusSpec h b s)
/-- TASK_PARAM (R425). -/
def execTaskParam (h : Hdr) (b : Rec) (s : State) : Host.Outcome State Fault Refusal := .next (hostPacket taskParamSpec h b s)
/-- CORE_STATUS (R433). -/
def execCoreStatus (h : Hdr) (b : Rec) (s : State) : Host.Outcome State Fault Refusal := .next (hostPacket coreStatusSpec h b s)
/-- CAN_CONFIG (R438). -/
def execCanConfig (h : Hdr) (b : Rec) (s : State) : Host.Outcome State Fault Refusal := .next (hostPacket canConfigSpec h b s)
/-- CAN_WAKE_CONFIG (R460). -/
def execCanWakeConfig (h : Hdr) (b : Rec) (s : State) : Host.Outcome State Fault Refusal := .next (hostPacket canWakeConfigSpec h b s)
/-- CAN_CONTROL_START (R470). -/
def execCanControlStart (h : Hdr) (b : Rec) (s : State) : Host.Outcome State Fault Refusal := .next (hostPacket canControlSpec h (setField b 6 0 8 0) s)
/-- CAN_CONTROL_LISTEN (R470). -/
def execCanControlListen (h : Hdr) (b : Rec) (s : State) : Host.Outcome State Fault Refusal := .next (hostPacket canControlSpec h (setField b 6 0 8 1) s)
/-- CAN_CONTROL_STOP (R470). -/
def execCanControlStop (h : Hdr) (b : Rec) (s : State) : Host.Outcome State Fault Refusal := .next (hostPacket canControlSpec h (setField b 6 0 8 2) s)
/-- CAN_CONTROL_SLEEP (R459). -/
def execCanControlSleep (h : Hdr) (b : Rec) (s : State) : Host.Outcome State Fault Refusal := .next (hostPacket canControlSpec h (setField b 6 0 8 3) s)
/-- CAN_CONTROL_WAKE (R470). -/
def execCanControlWake (h : Hdr) (b : Rec) (s : State) : Host.Outcome State Fault Refusal := .next (hostPacket canControlSpec h (setField b 6 0 8 4) s)
/-- CAN_CONTROL_RECOVER (R457). -/
def execCanControlRecover (h : Hdr) (b : Rec) (s : State) : Host.Outcome State Fault Refusal := .next (hostPacket canControlSpec h (setField b 6 0 8 5) s)
/-- CAN_CONTROL_FLUSH (R470). -/
def execCanControlFlush (h : Hdr) (b : Rec) (s : State) : Host.Outcome State Fault Refusal := .next (hostPacket canControlSpec h (setField b 6 0 8 6) s)
/-- CAN_STATUS (R469). -/
def execCanStatus (h : Hdr) (b : Rec) (s : State) : Host.Outcome State Fault Refusal := .next (hostPacket canStatusSpec h b s)
/-- CAN_FILT_WRITE (R447). -/
def execCanFiltWrite (h : Hdr) (b : Rec) (s : State) : Host.Outcome State Fault Refusal := .next (hostPacket canFiltWriteSpec h b s)
/-- CAN_FILT_APPLY (R447). -/
def execCanFiltApply (h : Hdr) (b : Rec) (s : State) : Host.Outcome State Fault Refusal := .next (hostPacket canFiltApplySpec h b s)
/-- LIN_CONFIG (R475). -/
def execLinConfig (h : Hdr) (b : Rec) (s : State) : Host.Outcome State Fault Refusal := .next (hostPacket linConfigSpec h b s)
/-- LIN_SET (R479). -/
def execLinSet (h : Hdr) (b : Rec) (s : State) : Host.Outcome State Fault Refusal := .next (hostPacket linSetSpec h b s)
/-- LIN_CONTROL_START (R472). -/
def execLinControlStart (h : Hdr) (b : Rec) (s : State) : Host.Outcome State Fault Refusal := .next (hostPacket linControlSpec h (setField b 6 0 8 0) s)
/-- LIN_CONTROL_STOP (R472). -/
def execLinControlStop (h : Hdr) (b : Rec) (s : State) : Host.Outcome State Fault Refusal := .next (hostPacket linControlSpec h (setField b 6 0 8 1) s)
/-- LIN_CONTROL_SLEEP (R483). -/
def execLinControlSleep (h : Hdr) (b : Rec) (s : State) : Host.Outcome State Fault Refusal := .next (hostPacket linControlSpec h (setField b 6 0 8 2) s)
/-- LIN_CONTROL_WAKE (R484). -/
def execLinControlWake (h : Hdr) (b : Rec) (s : State) : Host.Outcome State Fault Refusal := .next (hostPacket linControlSpec h (setField b 6 0 8 3) s)
/-- LIN_STATUS (R498). -/
def execLinStatus (h : Hdr) (b : Rec) (s : State) : Host.Outcome State Fault Refusal := .next (hostPacket linStatusSpec h b s)
/-- GW_BIND (R494). -/
def execGwBind (h : Hdr) (b : Rec) (s : State) : Host.Outcome State Fault Refusal := .next (hostPacket gwBindSpec h b s)
/-- ETH_CONFIG (R492). -/
def execEthConfig (h : Hdr) (b : Rec) (s : State) : Host.Outcome State Fault Refusal := .next (hostPacket ethConfigSpec h b s)
/-- ETH_STATUS (R498). -/
def execEthStatus (h : Hdr) (b : Rec) (s : State) : Host.Outcome State Fault Refusal := .next (hostPacket ethStatusSpec h b s)
/-- GW_STATUS (R498). -/
def execGwStatus (h : Hdr) (b : Rec) (s : State) : Host.Outcome State Fault Refusal := .next (hostPacket gwStatusSpec h b s)
/-- ACC_CONFIG (R499). -/
def execAccConfig (h : Hdr) (b : Rec) (s : State) : Host.Outcome State Fault Refusal := .next (hostPacket accConfigSpec h b s)
/-- ACC_START (R512). -/
def execAccStart (h : Hdr) (b : Rec) (s : State) : Host.Outcome State Fault Refusal := .next (hostPacket accStartSpec h b s)
/-- ACC_CALIBRATE (R510). -/
def execAccCalibrate (h : Hdr) (b : Rec) (s : State) : Host.Outcome State Fault Refusal := .next (hostPacket accCalibrateSpec h b s)
/-- ACC_PH_HELLO (R520). -/
def execAccPhHello (h : Hdr) (b : Rec) (s : State) : Host.Outcome State Fault Refusal := .next (hostPacket accHelloSpec h b s)
/-- ACC_PH_RESPONSE (R521). -/
def execAccPhResponse (h : Hdr) (b : Rec) (s : State) : Host.Outcome State Fault Refusal := .next (hostPacket accResponseSpec h b s)
/-- ACC_PH_PRESENCE (R529). -/
def execAccPhPresence (h : Hdr) (b : Rec) (s : State) : Host.Outcome State Fault Refusal := .next (hostPacket accPresenceSpec h b s)
/-- IMMO_START (R526). -/
def execImmoStart (h : Hdr) (b : Rec) (s : State) : Host.Outcome State Fault Refusal := .next (hostPacket immoStartSpec h b s)
/-- IMMO_REVOKE (R530). -/
def execImmoRevoke (h : Hdr) (b : Rec) (s : State) : Host.Outcome State Fault Refusal := .next (hostPacket immoRevokeSpec h b s)
/-- ACC_STATUS (R533). -/
def execAccStatus (h : Hdr) (b : Rec) (s : State) : Host.Outcome State Fault Refusal := .next (hostPacket accStatusSpec h b s)
/-- ACC_CLEAR (R506). -/
def execAccClear (h : Hdr) (b : Rec) (s : State) : Host.Outcome State Fault Refusal := .next (hostPacket accClearSpec h b s)
/-- ACC_LOCK_CLEAR (R525). -/
def execAccLockClear (h : Hdr) (b : Rec) (s : State) : Host.Outcome State Fault Refusal := .next (hostPacket accLockClearSpec h b s)
/-- ACC_LOCK_STATUS (R533). -/
def execAccLockStatus (h : Hdr) (b : Rec) (s : State) : Host.Outcome State Fault Refusal := .next (hostPacket accLockStatusSpec h b s)
/-- KEY_WRITE (R541). -/
def execKeyWrite (h : Hdr) (b : Rec) (s : State) : Host.Outcome State Fault Refusal := .next (hostPacket keyWriteSpec h b s)
/-- KEY_INFO (R555). -/
def execKeyInfo (h : Hdr) (b : Rec) (s : State) : Host.Outcome State Fault Refusal := .next (hostPacket keyInfoSpec h b s)
/-- KEY_MAC_GEN (R556). -/
def execKeyMacGen (h : Hdr) (b : Rec) (s : State) : Host.Outcome State Fault Refusal := .next (hostPacket keyMacSpec h (setField b (krOff b) 0 8 0) s)
/-- KEY_MAC_VER (R556). -/
def execKeyMacVer (h : Hdr) (b : Rec) (s : State) : Host.Outcome State Fault Refusal := .next (hostPacket keyMacSpec h (setField b (krOff b) 0 8 1) s)
/-- KEY_CIPHER_ENC (R556). -/
def execKeyCipherEnc (h : Hdr) (b : Rec) (s : State) : Host.Outcome State Fault Refusal := .next (hostPacket keyCipherSpec h (setField b (krOff b) 0 8 0) s)
/-- KEY_CIPHER_DEC (R556). -/
def execKeyCipherDec (h : Hdr) (b : Rec) (s : State) : Host.Outcome State Fault Refusal := .next (hostPacket keyCipherSpec h (setField b (krOff b) 0 8 1) s)
/-- KEY_SIGN (R556). -/
def execKeySign (h : Hdr) (b : Rec) (s : State) : Host.Outcome State Fault Refusal := .next (hostPacket keySignSpec h (setField b 8 0 8 0) s)
/-- KEY_SIGN_VERIFY (R556). -/
def execKeySignVerify (h : Hdr) (b : Rec) (s : State) : Host.Outcome State Fault Refusal := .next (hostPacket keySignSpec h (setField b 8 0 8 1) s)
/-- KEY_ECDH (R556). -/
def execKeyEcdh (h : Hdr) (b : Rec) (s : State) : Host.Outcome State Fault Refusal := .next (hostPacket keyEcdhSpec h b s)
/-- KEY_GENKEY (R556). -/
def execKeyGenkey (h : Hdr) (b : Rec) (s : State) : Host.Outcome State Fault Refusal := .next (hostPacket keyGenkeySpec h b s)
/-- KEY_ATTEST (R552). -/
def execKeyAttest (h : Hdr) (b : Rec) (s : State) : Host.Outcome State Fault Refusal := .next (hostPacket keyAttestSpec h b s)
/-- FLT_CONFIG (R564). -/
def execFltConfig (h : Hdr) (b : Rec) (s : State) : Host.Outcome State Fault Refusal := .next (hostPacket fltConfigSpec h b s)
/-- FLT_STATUS (R575). -/
def execFltStatus (h : Hdr) (b : Rec) (s : State) : Host.Outcome State Fault Refusal := .next (hostPacket fltStatusSpec h b s)
/-- FLT_HISTORY (R571). -/
def execFltHistory (h : Hdr) (b : Rec) (s : State) : Host.Outcome State Fault Refusal := .next (hostPacket fltHistorySpec h b s)
/-- FLT_CLEAR (R572). -/
def execFltClear (h : Hdr) (b : Rec) (s : State) : Host.Outcome State Fault Refusal := .next (hostPacket fltClearSpec h b s)
/-- FLT_STICKY (R571). -/
def execFltSticky (h : Hdr) (b : Rec) (s : State) : Host.Outcome State Fault Refusal := .next (hostPacket fltStickySpec h b s)
/-- FLT_GLOBAL (R571). -/
def execFltGlobal (h : Hdr) (b : Rec) (s : State) : Host.Outcome State Fault Refusal := .next (hostPacket fltGlobalSpec h b s)
/-- PWR_CONFIG (R580). -/
def execPwrConfig (h : Hdr) (b : Rec) (s : State) : Host.Outcome State Fault Refusal := .next (hostPacket pwrConfigSpec h b s)
/-- PWR_SET_RUN (R581). -/
def execPwrSetRun (h : Hdr) (b : Rec) (s : State) : Host.Outcome State Fault Refusal := .next (hostPacket pwrSetSpec h (setField b 0 0 8 0) s)
/-- PWR_SET_IDLE (R582). -/
def execPwrSetIdle (h : Hdr) (b : Rec) (s : State) : Host.Outcome State Fault Refusal := .next (hostPacket pwrSetSpec h (setField b 0 0 8 1) s)
/-- PWR_SET_PARK (R586). `deep` selects PARK-D. -/
def execPwrSetPark (h : Hdr) (b : Rec) (deep : Bool) (s : State) : Host.Outcome State Fault Refusal := .next (hostPacket pwrSetSpec h (setField b 0 0 8 (if deep then 3 else 2)) s)
/-- PWR_STATUS (R607). -/
def execPwrStatus (h : Hdr) (b : Rec) (s : State) : Host.Outcome State Fault Refusal := .next (hostPacket pwrStatusSpec h b s)
/-- PAD_RELEASE (R598). -/
def execPadRelease (h : Hdr) (b : Rec) (s : State) : Host.Outcome State Fault Refusal := .next (hostPacket padReleaseSpec h b s)
/-- PWR_WAKE_LIST (R596). -/
def execPwrWakeList (h : Hdr) (b : Rec) (s : State) : Host.Outcome State Fault Refusal := .next (hostPacket pwrWakeListSpec h b s)
/-- HEARTH_RESTART (R600). -/
def execHearthRestart (h : Hdr) (b : Rec) (s : State) : Host.Outcome State Fault Refusal := .next (hostPacket hearthRestartSpec h b s)
/-- UPD_BEGIN (R618). -/
def execUpdBegin (h : Hdr) (b : Rec) (s : State) : Host.Outcome State Fault Refusal := .next (hostPacket updBeginSpec h b s)
/-- UPD_WRITE (R619). -/
def execUpdWrite (h : Hdr) (b : Rec) (s : State) : Host.Outcome State Fault Refusal := .next (hostPacket updWriteSpec h b s)
/-- UPD_FINISH (R621). -/
def execUpdFinish (h : Hdr) (b : Rec) (s : State) : Host.Outcome State Fault Refusal := .next (hostPacket updFinishSpec h b s)
/-- UPD_VERIFY (R625). -/
def execUpdVerify (h : Hdr) (b : Rec) (s : State) : Host.Outcome State Fault Refusal := .next (hostPacket updVerifySpec h b s)
/-- UPD_ACTIVATE_AT (R622). -/
def execUpdActivateAt (h : Hdr) (b : Rec) (s : State) : Host.Outcome State Fault Refusal := .next (hostPacket updActivateSpec h (setField b 0 0 8 0) s)
/-- UPD_ACTIVATE_NOW (R622). -/
def execUpdActivateNow (h : Hdr) (b : Rec) (s : State) : Host.Outcome State Fault Refusal := .next (hostPacket updActivateSpec h (setField b 0 0 8 1) s)
/-- UPD_CANCEL (R633). -/
def execUpdCancel (h : Hdr) (b : Rec) (s : State) : Host.Outcome State Fault Refusal := .next (hostPacket updCancelSpec h b s)
/-- UPD_CONFIRM (R628). -/
def execUpdConfirm (h : Hdr) (b : Rec) (s : State) : Host.Outcome State Fault Refusal := .next (hostPacket updConfirmSpec h b s)
/-- UPD_ROLLBACK (R629). -/
def execUpdRollback (h : Hdr) (b : Rec) (s : State) : Host.Outcome State Fault Refusal := .next (hostPacket updRollbackSpec h b s)
/-- UPD_STATUS (R633). -/
def execUpdStatus (h : Hdr) (b : Rec) (s : State) : Host.Outcome State Fault Refusal := .next (hostPacket updStatusSpec h b s)
/-- UPD_SERVICE (R633). -/
def execUpdService (h : Hdr) (b : Rec) (s : State) : Host.Outcome State Fault Refusal := .next (hostPacket updServiceSpec h b s)
/-- IN_CONFIG (R637). -/
def execInConfig (h : Hdr) (b : Rec) (s : State) : Host.Outcome State Fault Refusal := .next (hostPacket inConfigSpec h b s)
/-- IN_STATUS (R650). -/
def execInStatus (h : Hdr) (b : Rec) (s : State) : Host.Outcome State Fault Refusal := .next (hostPacket inStatusSpec h b s)
/-- IN_GLOBAL (R650). -/
def execInGlobal (h : Hdr) (b : Rec) (s : State) : Host.Outcome State Fault Refusal := .next (hostPacket inGlobalSpec h b s)
/-- MON_READ (R650). -/
def execMonRead (h : Hdr) (b : Rec) (s : State) : Host.Outcome State Fault Refusal := .next (hostPacket monReadSpec h b s)
/-- IN_CFG_READ (R650). -/
def execInCfgRead (h : Hdr) (b : Rec) (s : State) : Host.Outcome State Fault Refusal := .next (hostPacket inCfgReadSpec h b s)
/-- SCHED_STATUS (R203). -/
def execSchedStatus (h : Hdr) (b : Rec) (s : State) : Host.Outcome State Fault Refusal := .next (hostPacket schedStatusSpec h b s)
/-- SCHED_UNIT (R203). -/
def execSchedUnit (h : Hdr) (b : Rec) (s : State) : Host.Outcome State Fault Refusal := .next (hostPacket schedUnitSpec h b s)
/-- SCHED_CHECK (R188). -/
def execSchedCheck (h : Hdr) (b : Rec) (s : State) : Host.Outcome State Fault Refusal := .next (hostPacket schedCheckSpec h b s)
/-- TB_READ (R228). -/
def execTbRead (h : Hdr) (b : Rec) (s : State) : Host.Outcome State Fault Refusal := .next (hostPacket tbReadSpec h b s)
/-- TIME_ANCHOR_SET (R210). -/
def execTimeAnchorSet (h : Hdr) (b : Rec) (s : State) : Host.Outcome State Fault Refusal := .next (hostPacket timeAnchorSpec h (setField b 0 0 8 0) s)
/-- TIME_ANCHOR_CLEAR (R212). -/
def execTimeAnchorClear (h : Hdr) (b : Rec) (s : State) : Host.Outcome State Fault Refusal := .next (hostPacket timeAnchorSpec h (setField b 0 0 8 1) s)
/-- CMP_SET_KEEP (R213). -/
def execCmpSetKeep (h : Hdr) (b : Rec) (s : State) : Host.Outcome State Fault Refusal := .next (hostPacket cmpSetSpec h (setField b 6 0 2 0) s)
/-- CMP_SET_ARM (R214). -/
def execCmpSetArm (h : Hdr) (b : Rec) (s : State) : Host.Outcome State Fault Refusal := .next (hostPacket cmpSetSpec h (setField b 6 0 2 1) s)
/-- CMP_SET_DISARM (R213). -/
def execCmpSetDisarm (h : Hdr) (b : Rec) (s : State) : Host.Outcome State Fault Refusal := .next (hostPacket cmpSetSpec h (setField b 6 0 2 2) s)
/-- CMP_STATUS (R228). -/
def execCmpStatus (h : Hdr) (b : Rec) (s : State) : Host.Outcome State Fault Refusal := .next (hostPacket cmpStatusSpec h b s)
/-- TMR_CONFIG (R223). -/
def execTmrConfig (h : Hdr) (b : Rec) (s : State) : Host.Outcome State Fault Refusal := .next (hostPacket tmrConfigSpec h b s)
/-- TMR_STATUS (R228). -/
def execTmrStatus (h : Hdr) (b : Rec) (s : State) : Host.Outcome State Fault Refusal := .next (hostPacket tmrStatusSpec h b s)

end Sys2Proof.Machine
end

