-- ==== Sys2Proof/Machine/Commit.lean ====
section
/-! DEFINITION. The commit point of a frame (04_coherent_state): context resets (R104), batches, adopted states, task outputs, lighting, notifications and the
gateway at slot 200 (R99, R494), and the frame block (R41). -/

namespace Sys2Proof.Machine

/-! ### Context resets (R104, R139, R685) -/

/-- An endpoint belongs to a context: the context itself, or a port of a task it owns. -/
def epOf (s : State) (c e : Nat) : Bool := e = 4096 + c || (epKind e = 2 && s.owner 5 (epIndex e % 64) = c)

/-- A queue at the reset of context `c`: drained where the context consumes it, an incomplete entry closed where it produces it, by itself or by a task it owns (R129, R139). -/
def resetQueue (c q : Nat) (s : State) : State :=
  let g := s.qcfg q
  if qConsumer g = 4096 + c then onQueue q (qDrain s.fn) s
  else if epOf s c (qProducer g) then closeQueue q 3 s
  else s

/-- What a unit does when its owner's reset hands it to context 0 (R47, R48, R104): channels hold and then follow their policy, bridges ramp down, sinks hold. -/
def resetUnit (k : Nat) (s : State) : State :=
  let t := k / 65536
  let n := k % 65536
  let s := if t = 3 then handQueue n 0 s else giveUnit t n 0 s
  if t = 1 then
    let m := s.modeA n
    if m = 7 then s
    else if m = 4 then
      if n % 2 = 1 then s
      else
        let b := brOfCh n
        let d := if still (s.bridge b) then min 1 (s.bridge b).st else 1
        bridgeRampDown b (onCom (fun c => { c with br := tmod brDef c.br b (fun v => { v with drive := d }) }) s)
    else
      let s := holdStart n (onCom (fun c => { c with ch := tmod chValDef c.ch n (fun v => { v with held := true }) }) s)
      if cfHold (s.cfA n) = 0 then holdExpire n s else s
  else if t = 2 then sinkOrphan n s
  else s

/-- LIN frames in flight on the ports of context `c` as its reset takes effect (R104 step 2): their cells are to go to its limbo list. -/
def linToLimbo (c : Nat) (s : State) : State :=
  (List.range 12).foldl (fun s n => if s.owner 4 (8 + n) = c then onLin n (fun k => { k with busy := k.busy.map (fun f => { f with limbo := some c }) }) s else s) s

/-- A frame in flight is still to come to the limbo list of context `c`. -/
def limboDue (s : State) (c : Nat) : Bool := (List.range 12).any (fun n => ((s.lin n).busy.bind (·.limbo)) = some c)

/-- Steps 1 to 5 of R104 at the commit point at which the reset of context `c` takes effect. Packets that wait for their share are refused with BUSY (R688). -/
def resetStart (c : Nat) (s : State) : State :=
  match (s.cx c).reset with
  | none => s
  | some r =>
    if r.started then s
    else
      let x := s.cx c
      let n := ctxUsed x
      let lost := (x.out.map (·.creditRet)).sum
      let s := { s with closed := s.closed.filter (fun q => q.ctx ≠ c) }
      let s := onCtx c (fun x =>
        { x with batch := none, resv := 0, waiting := [], inRel := x.inPut, creditRet := x.creditRet + n + lost, out := [], rpRel := x.rpPut, restart := none,
                 reset := some { r with started := true, returned := n } }) s
      let qs := (32 + c) :: ((s.qf.queues.map (·.1)).filter (fun q => decide (48 ≤ q)))
      let s := qs.foldl (fun s q => resetQueue c q s) s
      let s := match x.waiting with
        | [] => s
        | p :: _ => x.waiting.foldl (fun s q => refuseEarly q .busy 0 s) (onCtx c (fun y => { y with arrSeq := p.h.seq }) s)
      let s := linToLimbo c s
      let us := (s.roles.filter (fun e => e.2.owner = c)).map (·.1)
      let s := us.foldl (fun s k => resetUnit k s) s
      let s := lightDiscard c s
      let s := if ctxAccess x then accCtxReset s else s
      let s := if s.upd.st = 1 && s.upd.owner = c then endSession s else s
      if s.bus.filtWriter = c then onBus (fun b => { b with filtStage := [], filtWriter := 0 }) s else s

def resetStarts (s : State) : State := (List.range 16).foldl (fun s c => resetStart c s) s

/-- CTX_RESET_DONE: step 6 of R104, once the limbo list is empty: the sequences restart, the entry goes out ahead of all else, the requesters have their COMPLETION, and
the record of a CTX_CONFIG takes force. -/
def execCtxResetDone (c : Nat) (s : State) : Host.Outcome State Fault Refusal :=
  match (s.cx c).reset with
  | none => .next s
  | some r =>
    if !r.started || ctxLimbo s (s.cx c) ≠ 0 || limboDue s c || !(s.hearthUp) then .next s
    else
      let s := onCtx c (fun x => { x with accSeq := 0, arrSeq := 0, devSeq := 0, last := none, reset := none }) s
      let e := ntfEntry 3 s.fn s.tbNow ([BitVec.ofNat 8 c, BitVec.ofNat 8 r.requester, 0, 0] ++ le 4 r.returned)
      let s := if s.portDown c then onCtx c (fun x => { x with restart := some e }) s else sendNtf c e s
      let s := onCtx c (fun x => { x with ntfCredit := 0 }) s
      let s := ((r.requester, r.reqSeq) :: r.more).foldl (fun s q => if q.1 = c then s else completion q.1 q.2 r.op .ok 0 [] s) s
      .next (ethDrain (match r.cfg with | some b => applyCtxCfg b s | none => s))

/-! ### Batches that time out (R152) -/

/-- An open batch not closed by the commit point of frame f + 1,000 is discarded: a member that failed it has its own status, every other STATE, FFFFh. DESIGN CHOICE: such an
answer is a reply whatever the member's flags, as R150 has it for a batch that fails; R152 does not say what NOTIFY_ONLY makes of it (log 24). -/
def batchTimeout (c : Nat) (s : State) : State :=
  match (s.cx c).batch with
  | none => s
  | some b =>
    if (s.fn - b.first).toNat < 1000 || 2 ^ 31 ≤ (s.fn - b.first).toNat then s
    else
      let s := releaseRoom opSpec c b.members (onCtx c (fun x => { x with batch := none }) s)
      b.members.foldl (fun s p =>
        match b.failed with
        | some f => if p.h.seq = f.seq then respond p true (statusOf f.status) f.detail s.fn [] s
                    else respond { p with h := { p.h with notifyOnly := false } } true .state 0xFFFF s.fn [] s
        | none => respond { p with h := { p.h with notifyOnly := false } } true .state 0xFFFF s.fn [] s) s

/-- BATCH_TIMEOUT: the commit point at which the open batch of context `c` is discarded. -/
def execBatchTimeout (c : Nat) (s : State) : Host.Outcome State Fault Refusal :=
  match (s.cx c).batch with
  | none => .next s
  | some b =>
    if !(s.hearthUp) || (s.fn - b.first).toNat < 1000 then .next s else .next (ethDrain (batchTimeout c (atTick 40000 s)))

/-! ### Forwarding at slot 200 (R67, R99, R494, R495) -/

/-- Entries leave the notification queue into one packet of payload `acc`, as far as its length and the notification credit allow; a PARK_NOTICE forwarded is
noted (R587). -/
def packNtf (c : Nat) : Nat → Rec → State → Rec × State
  | 0, acc, s => (acc, s)
  | n + 1, acc, s =>
    match ntfHead c s with
    | none => (acc, s)
    | some (cells, e, _) =>
      let len := acc.length + e.length
      if 4076 < len ∨ (s.cx c).ntfCredit < cellsOf (20 + len) then (acc, s)
      else
        let s := onQueue (32 + c) (fun q => { qRelease cells 0 q with read := q.rel + BitVec.ofNat 32 cells }) s
        let s := if rd e 0 2 = 0xB001 && !(s.pwr.noticed.contains c) then onPwr (fun p => { p with noticed := c :: p.noticed }) s else s
        packNtf c n (acc ++ e) s

/-- The waiting entries of a context go out in packets of as many entries as fit. -/
def forwardNtf (c : Nat) : Nat → State → State
  | 0, s => s
  | n + 1, s =>
    match packNtf c ((s.queue (32 + c)).cells.length) [] s with
    | ([], s) => s
    | (p, s) => forwardNtf c n (onCtx c (fun x => { x with ntfCredit := x.ntfCredit - cellsOf (20 + p.length) }) (sendNtf c p s))

/-- Cells of a bound queue go out in one GW_CAN entry of `k` cells; the answer says whether there was credit for it. -/
def gwSend (c q k : Nat) (s : State) : State × Bool :=
  let x := s.queue q
  let n0 := (x.read - x.rel).toNat
  let e := ntfEntry 0x7C01 s.fn s.tbNow (le 2 q ++ [BitVec.ofNat 8 k, 0] ++ le 4 x.read.toNat ++ ((x.cells.drop n0).take k).flatMap cellOctets)
  let need := cellsOf (20 + e.length)
  if (s.cx c).ntfCredit < need then (s, false)
  else
    let s := onQueue q (fun x => { x with read := x.read + BitVec.ofNat 32 k }) s
    let s := onGw q (fun g => { g with forwarded := g.forwarded + BitVec.ofNat 32 k }) s
    (onCtx c (fun y => { y with ntfCredit := y.ntfCredit - need }) (sendNtf c e s), true)

/-- A bound queue in a frame: up to GW_MAX visible cells, in entries of at most 77 (the packet limit of R58). -/
def gwForward (c q : Nat) (s : State) : State :=
  let n := min (s.gw q).maxCells (qReadable (s.queue q) (qCut (s.qcfg q)))
  if n = 0 then s
  else
    let r := gwSend c q (min 77 n) s
    if r.2 && decide (77 < n) then (gwSend c q (n - 77) r.1).1 else r.1

/-- What goes out to a context at slot 200. -/
def forwardCtx (s : State) (c : Nat) : State :=
  let x := s.cx c
  if !(ctxEnabled x) || s.portDown c || ctxResetting x then s
  else
    let s := forwardNtf c ((s.queue (32 + c)).cells.length) s
    ((s.bus.gw.filter (fun e => e.2.enable && qConsumer (s.qcfg e.1) = 4096 + c)).map (·.1)).foldl (fun s q => gwForward c q s) s

/-! ### The commit point (R144, R145, R157, R158) -/

/-- Whether a closed batch commits at this commit point: its effect frame is the next, or lies behind. -/
def dueNow (s : State) (b : ClosedBatch) : Bool := decide ((s.fn + 1 - b.eff).toNat < 2 ^ 31)

/-- The batches due are applied one by one, in the order in which they were closed. -/
def commitDue : Nat → State → State
  | 0, s => s
  | n + 1, s =>
    match s.closed.find? (dueNow s) with
    | none => s
    | some b => commitDue n (commitBatch opSpec b { s with closed := s.closed.erase b })

/-- ACT_HOLD of the version under construction (R623): its frame begins within 2 ms before the activation tick. -/
def actHoldNext (s : State) : Bool :=
  s.upd.st = 3 && decide ((s.upd.v - (s.clk.frameTb + 50000)).toNat ≤ 100000)

/-- The version under construction, from version k - 1, the adopted states, the batches, the lighting that is due, and last the task outputs, whose values win (R158). -/
def buildVersion (s : State) : State :=
  let s := onCom (fun c => { c with lsStaged := [], chCfgNow := [], allow := 0, rippleNew := [], actHold := actHoldNext s }) s
  let s := resetStarts s
  let s := (List.range 16).foldl (fun s c => batchTimeout c s) s
  let s := adoptSinks (adoptBridges (adoptCoils (adoptHeld (adoptLimp s))))
  let s := commitDue s.closed.length s
  let s := resetStarts s
  onCom (fun c => { c with chCfgNow := [] }) (applyTasks (autoGens (lightLand (idleEnd (onCom (fun c => { c with degrade := degradeDue s }) s)))))

/-- The frame block for the next frame is handed to Tongs (R41), unless a rejoin is under way (R54). -/
def handBlock (s : State) : State :=
  let go := s.hearthUp && s.link.step = .idle
  onLink (fun l => { l with block := if go then .waiting else .no, blockSent := 0 })
    { s with blk := if go then some (s.link.epoch, s.fn + 1, s.clk.frameTb + 50000, s.com) else none }

/-- COMMIT_POINT: tick 40,000 of the frame. -/
def execCommitPoint (s : State) : Host.Outcome State Fault Refusal :=
  if !(s.hearthUp) || s.clk.commitFn = some s.fn then .next s
  else
    let s := buildVersion (onClk (fun x => { x with commitFn := some s.fn }) (atTick 40000 s))
    let s := (List.range 16).foldl forwardCtx (parkNotice s)
    let s := serviceBind (parkAbandon s)
    let s := if s.pwr.restart.isSome then hearthRestart 6 s else s
    let s := if s.upd.rollback then fallBack s else s
    .next (ethDrain (handBlock s))

end Sys2Proof.Machine
end

