-- ==== Sys2Proof/Machine/Frame.lean ====
section
/-! DEFINITION. Frame boundaries: Anvil executes a block or holds the frame (R43 to R49), the models and monitors at the end of a frame, and Hearth's frame start
with its snapshot (R159). -/

namespace Sys2Proof.Machine

/-! ### The end of a frame at Anvil (R255 to R257, R281, R300, R325, R365, R384, R643 to R645) -/

/-- The full scale of a class in mA (R254). -/
def fullScale (k : Nat) : Nat := if k = 0 then 50000 else if k = 1 then 20000 else if k = 2 then 6000 else 24000

/-- A reading within its scales (R254, R255): a current above full scale reads as full scale with I_SAT; V_DS and VOUT are 12 bits wide. -/
def inScale (n : Nat) (x : ChMeas) : ChMeas :=
  let f := fullScale (chClass n)
  { x with iOn := min f x.iOn, sat := x.sat || decide (f < x.iOn), vds := min 4095 x.vds, vout := min 4095 x.vout }

/-- A SCHED, PIN or LAMP channel had an on-time of 10 us in the frame that ends (R255). The on-times of a coil's chopping and a bridge's PWM are not in the state: the measurement
itself says whether it is fresh. -/
def hadOn (s : State) (n : Nat) : Bool := let c := s.chan n; c.wasOn || (c.level && onFor s.tbNow (s.tbNow - 50000) c)

/-- Readings of the frame: a channel that was not read keeps its own, stale, and took no current; I_STALE follows the on-times of the frame. -/
def takeChannels (m : FrameMeas) (s : State) : State :=
  let s := (List.range 64).foldl (fun s n => lampSettle n s) s
  let one (t : Tab ChMeas) (n : Nat) : Tab ChMeas :=
    let old := tget chMeasDef s.chM n
    match m.ch.find? (fun e => e.1 = n) with
    | some (_, x) =>
      let x := inScale n { x with stale := if s.modeA n ≤ 2 then !(hadOn s n) else x.stale }
      tput chMeasDef t n (if x.stale then { x with iOn := old.iOn, vds := old.vds, sat := old.sat } else x)
    | none => tput chMeasDef t n { old with stale := true, iSq := 0 }
  { s with chM := (List.range 64).foldl one [] }

/-- The frame of a channel's readings closes: its LAMP flags and applied duty stand for it (R247, R268), the next frame's begin anew. -/
def closeChannel (n : Nat) (s : State) : State :=
  onChan n (fun c => { c with wasOn := false, lampFlags := c.lampNow, lampNow := 0, daLast := if s.modeA n = 2 then c.da else 0 }) s

/-- A voltage with no conversion in the frame keeps its reading (R644); `i` is its place in the order of MON_READ group 0. -/
def keepBad {α : Type} (bad i : Nat) (old new : α) : α := if bit bad i then old else new

/-- Supply voltages, rails and AIN readings. -/
def takeVoltages (m : FrameMeas) (s : State) : State :=
  let b := m.vBad
  let x := s.anvil.sup
  let s := onSup (fun u =>
    { u with vbats := keepBad b 0 u.vbats m.vbats, ovAbove := u.ovAbove && decide (30000 < keepBad b 0 u.vbats m.vbats), vbat := (List.range 4).map (fun z => keepBad b (1 + z) (x.vbat.getD z 0) (m.vbat.getD z 0)) }) s
  onMon (fun y =>
    { y with rails := (List.range 7).map (fun i => keepBad b (5 + i) (y.rails.getD i 0) (m.rails.getD i 0)),
             ain := (List.range 16).map (fun i => keepBad b (12 + i) (y.ain.getD i 0) (m.ain.getD i 0)), vBad := b % 2 ^ 28 }) s

/-- Models and checks of the channels. -/
def endChannels (s : State) : State :=
  (List.range 64).foldl (fun s n => closeChannel n (openOnCheck n (senseCheck n (wireFrame n (modelSq s n) s)))) s

/-- The current of the LED sinks in 10 microamperes, a part of VBAT2 (R300, R384). -/
def sinkCurrent (m : FrameMeas) : Nat := (m.sinks.map (fun e => e.2.1)).sum

/-- A reference reads within 1 % of its value (R644). -/
def refOk (r : Nat × Nat) : Bool := decide (1188 ≤ r.1 ∧ r.1 ≤ 1212) && decide (2475 ≤ r.2 ∧ r.2 ≤ 2525)

/-- The readings that count: where a reference is off, every conversion of converter 11 in the frame is faulted and left out (R644). -/
def soundMeas (m : FrameMeas) : FrameMeas :=
  if refOk m.refs then m
  else { m with ch := [], vBad := 2 ^ 28 - 1, areas := (List.range 12).map (fun a => (a, 0, true)), tjBad := List.range 64, convBad := 11 :: m.convBad }

/-- Everything Anvil does with the measurements of a frame, of those that count. -/
def frameEnd (x : FrameMeas) (s : State) : State :=
  let m := soundMeas x
  let s := takeVoltages m (takeChannels m s)
  let s := condStep (fun n => s.conducting n || hadOn s n) s
  let s := onMon (fun y => { y with adc := m.adc, adcAt := some (s.anvil.lastFn, s.sched.anvilMode) }) s
  let s := m.missed.foldl (fun s i => if instOk 0x040 i then missEvent i s else s) s
  let s := ((List.range 12).filter m.convBad.contains).foldl (fun s c => raise 0x1C4 c s) s
  let s := m.areas.foldl (fun s e => if e.1 < 12 then areaStep e.1 e.2.1 e.2.2 s else s) s
  let s := (List.range 64).foldl (fun s n => if (m.ch.any (fun e => e.1 = n)) || m.tjBad.contains n then tjStep n (m.tjBad.contains n) s else s) s
  let s := endChannels s
  let s := zoneFrame (sinkCurrent m) s
  let s := (List.range 64).foldl (fun s n =>
    match m.coils.find? (fun e => e.1 = n) with
    | some (_, u, i, cyc, sat) => coilFrame n u i cyc sat s
    | none => coilFrame n 0 0 0 false s) s
  let s := (List.range 8).foldl (fun s b => bridgeFrame b (((m.bridges.find? (fun e => e.1 = b)).map (·.2)).getD 0) s) s
  (List.range 36).foldl (fun s n =>
    match m.sinks.find? (fun e => e.1 = n) with
    | some (_, i, v, q) => sinkMonitor n i v q s
    | none => sinkMonitor n 0 0 false s) s

/-! ### Held frames and orphan mode (R44, R46 to R48, R623) -/

/-- The hold clock of a channel at orphan entry; under ACT_HOLD it runs for at least 500 ms (R623). A hold time of 0 acts at once. -/
def orphanChannel (n : Nat) (s : State) : State :=
  let m := s.modeA n
  if m = 7 || m = 4 then s
  else
    let h := 100 * cfHold (s.cfA n)
    let h := if s.anvil.actHold then max h 500 else h
    let s := onChan n (fun c => { c with orphan := 1, holdEnd := some (s.tbNow + msTicks h) }) s
    if h = 0 then holdExpire n s else s

/-- Orphan entry at a frame boundary. -/
def orphanEntry (s : State) : State :=
  let s := onAnvil (fun a => { a with orphan := true, orphanTb := s.tbNow, rejoinF := none, actHoldEnd := if a.actHold then some (s.tbNow + msTicks 1000) else none }) s
  let s := (List.range 64).foldl (fun s n => orphanChannel n s) s
  let s := (List.range 8).foldl (fun s b => if s.modeA (brCh b) = 4 then bridgeRampDown b s else s) s
  let s := (List.range 36).foldl (fun s n => sinkOrphan n s) s
  onLink (fun l => { l with txRecessive := true, toAnvil := .recessive }) (accLinkLost s)

/-- Anvil leaves orphan mode at the boundary of the frame a REJOIN named (R55): holds still running end with it. -/
def orphanLeave (a : Anvil) : Anvil :=
  if a.orphan && a.rejoinF = some (a.lastFn + 1) then
    { a with orphan := false, missed := 0,
             ch := a.ch.foldl (fun t e => tput chanDef t e.1 (if e.2.orphan = 1 then { e.2 with orphan := 0, holdEnd := none } else e.2)) [],
             sink := a.sink.foldl (fun t e => tput sinkDef t e.1 (if e.2.orphan = 1 then { e.2 with orphan := 0, holdEnd := none } else e.2)) [] }
  else a

/-- The boundary of the next frame at Anvil: a valid block for it is executed (R43), with the clears and releases it carries (R21), else the frame is held (R44), and the third in a row is orphan entry (R46). -/
def anvilFrame (s : State) : State :=
  let s := onAnvil orphanLeave s
  let a := s.anvil
  let f := a.lastFn + 1
  match a.valid with
  | some (g, com) =>
    if g = f && !a.orphan then
      let s := onAnvil (fun a =>
        { a with vals := com, lastFn := f, held := false, missed := 0, quiet := 0, actHold := a.actHold || com.actHold, valid := none, segs := [], rejoinF := none }) s
      let s := inputsRestart a.vals f s
      let s := if com.mode = s.sched.anvilMode && !s.sched.imgNew then s else onSched (fun x => { x with anvilMode := com.mode, anvilModeFn := some f, imgNew := false }) s
      let s := if com.relFn = s.anvil.relDone then s else releaseAnvil (onAnvil (fun a => { a with relDone := com.relFn }) s)
      let s := degradeAct false com.degrade (runClears s)
      let s := (List.range 36).foldl (fun s n => sinkFrameStart n s) s
      (List.range 8).foldl (fun s b => rippleApply b s) s
    else anvilHold f s
  | none => anvilHold f s
where
  /-- A held frame. -/
  anvilHold (f : Fn) (s : State) : State :=
    let s := onAnvil (fun a => { a with lastFn := f, held := true, missed := min 3 (a.missed + 1), quiet := a.quiet + 1, valid := none, segs := [],
                                        rejoinF := if a.rejoinF = some f then none else a.rejoinF }) s
    let s := raise 0x002 0 s
    if s.anvil.missed = 3 && !s.anvil.orphan then orphanEntry s else s

/-- FRAME_BOUNDARY: the end of a frame at Anvil and the boundary of the next; `m` is what was measured in the frame that ends. In park no frame is executed and only
the wires of conducting channels are followed (R284, R591); while the epoch is 0000h none is executed either (R51). -/
def execFrameBoundary (m : FrameMeas) (s : State) : Host.Outcome State Fault Refusal :=
  if s.pwr.state = 4 then .next s
  else
    let t := s.time.anvilTb + 50000
    let s := onTime (fun x => { x with anvilTb := t }) (onClk (fun x => if s.hearthUp then x else { x with frameTb := t }) (advTo t s))
    if s.parked then
      .next ((List.range 64).foldl (fun s n => closeChannel n (if s.conducting n then wireFrame n (modelSq s n) s else s)) (takeChannels m s))
    else
      let was := s.anvil.vals
      let s := onLink (fun l => { l with report := .waiting }) (laneBoundary (frameEnd m s))
      let s := if s.anvil.epoch = 0 then s else anvilFrame s
      let s := m.vout0.foldl (fun s e => if e.1 < 64 then offDiagA was e.1 e.2 s else s) s
      .next { s with bound := s.anvil }

/-- ORPHAN_HOLD_EXPIRY: the hold time of channel `n` has passed (R47). -/
def execOrphanHoldExpiry (n : Nat) (s : State) : Host.Outcome State Fault Refusal :=
  match (s.chan n).holdEnd with
  | none => .next s
  | some t => if (s.chan n).orphan = 1 then .next (holdExpire n (advTo t s)) else .next s

/-- ACT_HOLD_LAPSE: 1 s after orphan entry ACT_HOLD lapses (R623). -/
def execActHoldLapse (s : State) : Host.Outcome State Fault Refusal :=
  match s.anvil.actHoldEnd with
  | none => .next s
  | some t => .next (onAnvil (fun a => { a with actHold := false, actHoldEnd := none }) (advTo t s))

/-! ### Hearth's frame start (R159, R194, R197, R137) -/

/-- The snapshot of the frame: the version that begins, and what Anvil reported in the frame before. -/
def snapNow (s : State) : Snap :=
  { fn := s.fn, frameTb := s.clk.frameTb, roles := s.roles, com := s.com, anvil := s.rep, chM := s.repM, time := s.time, bus := s.bus, ces := s.ces, acc := s.acc,
    hmon := s.hmon, pwr := s.pwr, flt := s.flt, sched := s.sched, light := s.light, upd := s.upd, qf := s.qf, ctxs := s.ctxs,
    closed := s.closed, keys := s.keys, epoch := s.link.epoch }

/-- A committed switch reaches its frame (R195): plans that the new mode does not hold end, tasks begin in it. -/
def switchStart (s : State) : State :=
  match s.sched.switchTo with
  | none => s
  | some (m, t) =>
    if (s.fn - t).toNat < 2 ^ 31 then
      let s := onSched (fun x => { x with switchTo := none }) (accModeSwitch s.modeNow m s)
      onCes (fun x => { x with tasks := x.tasks.map (fun e => (e.1, { e.2 with mode := none })) }) s
    else s

/-- HEARTH_FRAME_START: tick 0 of a frame at Hearth. `temps` are its eight temperature sensors, `proc` the process readings of its islands with those out of range. -/
def execHearthFrameStart (temps : List Int) (proc : List Nat) (procBad : Nat) (s : State) : Host.Outcome State Fault Refusal :=
  if !(s.hearthUp) then .next s
  else
    let t := s.clk.frameTb + 50000
    let s := onClk (fun x => { x with frameTb := t, fn := x.fn + 1 }) (advTo t s)
    let s := onLink (fun l => { l with repMiss := if l.repSeen then 0 else min 3 (l.repMiss + 1), repSeen := false }) s
    let s := hearthSensors temps proc procBad s
    let s := degradeAct true s.com.degrade (sendAlerts (idleBegin (switchStart s)))
    let s := { s with snaps := (snapNow s :: s.snaps).take 4 }
    let s := (List.range 16).foldl (fun s c => resetShare c s) s
    let a := qfAudit s
    let s := if a.2 then raise 0x020 0 a.1 else a.1
    let s := coresFrameStart (finishChecks s)
    let s := accFrameStart (linFrameStart (canFrameStart (tmrFrameStart (cmpFrameStart s))))
    .next (ethDrain (activationDue { s with snaps := snapNow s :: s.snaps.drop 1 }))

end Sys2Proof.Machine
end

