-- ==== Sys2Proof/Machine/Hspi.lean ====
section
/-! DEFINITION. The transports (R76 to R88): HSPI transfers, Ethernet frames, and waiting packets whose share admits them. -/

namespace Sys2Proof.Machine

def State.hspi (s : State) (n : Nat) : Hspi := if n = 0 then s.hspi0 else s.hspi1
def onHspi (n : Nat) (f : Hspi → Hspi) (s : State) : State := if n = 0 then { s with hspi0 := f s.hspi0 } else { s with hspi1 := f s.hspi1 }

/-- The context bound to an HSPI port (R84). -/
def hspiBound (n : Nat) (s : State) : Option Nat := (List.range 16).find? (fun c => c ≠ 0 && ctxTransport (s.cx c) = 3 + n)

/-- HSPIn_ATN_N is low: at least one device packet of the bound context waits (R84). -/
def hspiAtnLow (n : Nat) (s : State) : Bool := match hspiBound n s with | some c => !(s.cx c).out.isEmpty | none => false

/-- Clocks that `k` octets take in the width of the port record (R80). -/
def hspiClocks (h : Hspi) (k : Nat) : Nat := if h.quad then 2 * k else 8 * k

/-- A packet that no context of the port takes is counted and raises HOST_BIND (R84). -/
def hspiUnbound (n : Nat) (s : State) : State := raise 5 0 (onHspi n (fun h => { h with bindCount := h.bindCount + 1 }) s)

/-- LEN of a READ or WRITE (R81). -/
def hspiLenOk (len : Nat) : Bool := decide (1 ≤ len ∧ len ≤ 16384)

/-- Whether octets that hold packets back to back end inside one. -/
def endsInside : Nat → Rec → Bool
  | 0, b => !b.isEmpty
  | n + 1, b => !b.isEmpty && (decide (b.length < 20) || decide (b.length < 20 + rd b 8 2) || endsInside n (b.drop (20 + rd b 8 2)))

/-- The whole packets at the front of some octets. -/
def wholeOctets : Nat → Rec → Nat
  | 0, _ => 0
  | n + 1, b => if b.length < 20 ∨ b.length < 20 + rd b 8 2 then 0 else 20 + rd b 8 2 + wholeOctets n (b.drop (20 + rd b 8 2))

/-- HSPIn_CS_N rises (R86): a packet that was not complete is discarded and LINK_RESTART is placed. -/
def csRise (n : Nat) (s : State) : State :=
  if (s.hspi n).inPacket then
    let s := onHspi n (fun h => { h with inPacket := false }) s
    match hspiBound n s with
    | some c => linkRestart c 1 s
    | none => s
  else s

/-- HSPI_WRITE: a transfer with LEN `len` of which the octets `b` have been clocked (R82). Octets beyond LEN are ignored; a packet that LEN ends within is interrupted;
a packet not complete while LEN runs waits for HSPIn_CS_N. -/
def execHspiWrite (n len : Nat) (b : Rec) (s : State) : Host.Outcome State Fault Refusal :=
  if 2 ≤ n || !(s.hearthUp) || !(hspiLenOk len) then .next s
  else
    let s := csRise n s
    let x := b.take len
    let done := decide (len ≤ b.length)
    let y := if done then x else x.take (wholeOctets (x.length + 1) x)
    let s := takePackets opSpec (hspiBound n s) (hspiUnbound n) false 4 (y.length + 1) y s
    .next (ethDrain (onHspi n (fun h => { h with inPacket := !done && endsInside (x.length + 1) x }) s))

/-- The device packets, oldest first, that fit in a number of octets, whole. -/
def fitPackets : Nat → List DevPkt → List DevPkt
  | _, [] => []
  | n, d :: t => if devLen d ≤ n then d :: fitPackets (n - devLen d) t else []

/-- HSPI_READ: a transfer with LEN `len` of which `clocked` octets have been clocked when HSPIn_CS_N rises (R83, R85): whole waiting packets as fit in LEN, then 00h. A
packet not clocked to its end stays waiting. DESIGN CHOICE: a port bound to no enabled context drives 00h, in a READ as in a STATUS (R83 is silent; log 32). -/
def execHspiRead (n len clocked : Nat) (s : State) : Host.Outcome State Fault Refusal :=
  if 2 ≤ n || !(s.hearthUp) || !(hspiLenOk len) then .next s
  else
    let s := csRise n s
    match hspiBound n s with
    | none => .next (onHspi n (fun h => { h with out := zeros (min len clocked) }) s)
    | some c =>
      let w := fitPackets len (s.cx c).out
      let o := w.flatMap (devOctets c)
      let sent := fitPackets (min len clocked) w
      let s := onHspi n (fun h => { h with out := (o ++ zeros (len - o.length)).take clocked }) s
      .next (onCtx c (fun x =>
        { x with out := x.out.drop sent.length,
                 rpRel := x.rpRel + ((sent.filter (·.reply)).map (fun d => cellsOf (devLen d))).sum }) s)

/-- HSPI_STATUS: the 8 octets of R83. -/
def execHspiStatus (n : Nat) (s : State) : Host.Outcome State Fault Refusal :=
  if 2 ≤ n || !(s.hearthUp) then .next s
  else
    let s := csRise n s
    match hspiBound n s with
    | none => .next (onHspi n (fun h => { h with out := zeros 8 }) s)
    | some c =>
      let x := s.cx c
      let o := le 2 ((x.out.head?.map devLen).getD 0) ++ le 2 (satN 65535 (x.out.map devLen).sum) ++ le 2 (ctxFree x) ++ le 2 x.arrSeq.toNat
      .next (onHspi n (fun h => { h with out := o }) s)

/-- HSPI_CS_RISE. -/
def execHspiCsRise (n : Nat) (s : State) : Host.Outcome State Fault Refusal := .next (if 2 ≤ n || !(s.hearthUp) then s else csRise n s)

/-- ETH_FRAME_RECEIVED: a frame at Ethernet port `p` (R76, R78, R488). -/
def execEthFrameReceived (p : Nat) (f : EthFrame) (s : State) : Host.Outcome State Fault Refusal := .next (ethDrain (ethReceive opSpec p f s))

/-- PACKET_ACCEPT: the first waiting packet of context `c` is accepted where its share and the reply queue let it in (R115, R197). -/
def execPacketAccept (c : Nat) (s : State) : Host.Outcome State Fault Refusal :=
  .next (if c = 0 || 16 ≤ c || !(s.hearthUp) then s else ethDrain (tryAccept opSpec c s))

end Sys2Proof.Machine
end

