-- ==== Sys2Proof/Machine/Dispatch.lean ====
section
/-! DEFINITION. The dispatch: every command to its meaning. -/

namespace Sys2Proof.Machine

def exec (i : Instr) (s : State) : Host.Outcome State Fault Refusal :=
  match i with
  | .ping h b => Sys2Proof.Machine.execPing h b s
  | .getInfo h b => Sys2Proof.Machine.execGetInfo h b s
  | .memRead h b => Sys2Proof.Machine.execMemRead h b s
  | .memWrite h b => Sys2Proof.Machine.execMemWrite h b s
  | .ctxReset h b => Sys2Proof.Machine.execCtxReset h b s
  | .ctxResetDone c => Sys2Proof.Machine.execCtxResetDone c s
  | .unitClaim h b => Sys2Proof.Machine.execUnitClaim h b s
  | .ctxConfig h b => Sys2Proof.Machine.execCtxConfig h b s
  | .modeSelect h b => Sys2Proof.Machine.execModeSelect h b s
  | .qConfig h b => Sys2Proof.Machine.execQConfig h b s
  | .qPush h b => Sys2Proof.Machine.execQPush h b s
  | .qRead h b => Sys2Proof.Machine.execQRead h b s
  | .qMarkSet h b => Sys2Proof.Machine.execQMarkSet h b s
  | .qMarkClear h b => Sys2Proof.Machine.execQMarkClear h b s
  | .qRewind h b => Sys2Proof.Machine.execQRewind h b s
  | .qRelease h b => Sys2Proof.Machine.execQRelease h b s
  | .qReleaseToLimit h b => Sys2Proof.Machine.execQReleaseToLimit h b s
  | .qStatus h b => Sys2Proof.Machine.execQStatus h b s
  | .qAudit h b => Sys2Proof.Machine.execQAudit h b s
  | .chConfig h b => Sys2Proof.Machine.execChConfig h b s
  | .chSet h b => Sys2Proof.Machine.execChSet h b s
  | .chStatus h b => Sys2Proof.Machine.execChStatus h b s
  | .chClearDiag h b => Sys2Proof.Machine.execChClearDiag h b s
  | .lhConfig h b => Sys2Proof.Machine.execLhConfig h b s
  | .lhStatus h b => Sys2Proof.Machine.execLhStatus h b s
  | .chProtConfig h b => Sys2Proof.Machine.execChProtConfig h b s
  | .chClearProt h b => Sys2Proof.Machine.execChClearProt h b s
  | .chProtStatus h b => Sys2Proof.Machine.execChProtStatus h b s
  | .supplyStatus h b => Sys2Proof.Machine.execSupplyStatus h b s
  | .indConfig h b => Sys2Proof.Machine.execIndConfig h b s
  | .indSet h b => Sys2Proof.Machine.execIndSet h b s
  | .indStatus h b => Sys2Proof.Machine.execIndStatus h b s
  | .indClear h b => Sys2Proof.Machine.execIndClear h b s
  | .brConfig h b => Sys2Proof.Machine.execBrConfig h b s
  | .brSet h b => Sys2Proof.Machine.execBrSet h b s
  | .brStatus h b => Sys2Proof.Machine.execBrStatus h b s
  | .brClear h b => Sys2Proof.Machine.execBrClear h b s
  | .brPosSet h b => Sys2Proof.Machine.execBrPosSet h b s
  | .lsConfig h b => Sys2Proof.Machine.execLsConfig h b s
  | .lsSet h b => Sys2Proof.Machine.execLsSet h b s
  | .lsStatus h b => Sys2Proof.Machine.execLsStatus h b s
  | .lsClear h b => Sys2Proof.Machine.execLsClear h b s
  | .lightConfig h b => Sys2Proof.Machine.execLightConfig h b s
  | .lightStage h b => Sys2Proof.Machine.execLightStage h b s
  | .lightCommit h b => Sys2Proof.Machine.execLightCommit h b s
  | .lightDiscard h b => Sys2Proof.Machine.execLightDiscard h b s
  | .lightStatus h b => Sys2Proof.Machine.execLightStatus h b s
  | .lightSync => Sys2Proof.Machine.execLightSync s
  | .taskControl h b => Sys2Proof.Machine.execTaskControl h b s
  | .taskStatus h b => Sys2Proof.Machine.execTaskStatus h b s
  | .taskParam h b => Sys2Proof.Machine.execTaskParam h b s
  | .coreStatus h b => Sys2Proof.Machine.execCoreStatus h b s
  | .canConfig h b => Sys2Proof.Machine.execCanConfig h b s
  | .canWakeConfig h b => Sys2Proof.Machine.execCanWakeConfig h b s
  | .canControlStart h b => Sys2Proof.Machine.execCanControlStart h b s
  | .canControlListen h b => Sys2Proof.Machine.execCanControlListen h b s
  | .canControlStop h b => Sys2Proof.Machine.execCanControlStop h b s
  | .canControlSleep h b => Sys2Proof.Machine.execCanControlSleep h b s
  | .canControlWake h b => Sys2Proof.Machine.execCanControlWake h b s
  | .canControlRecover h b => Sys2Proof.Machine.execCanControlRecover h b s
  | .canControlFlush h b => Sys2Proof.Machine.execCanControlFlush h b s
  | .canStatus h b => Sys2Proof.Machine.execCanStatus h b s
  | .canFiltWrite h b => Sys2Proof.Machine.execCanFiltWrite h b s
  | .canFiltApply h b => Sys2Proof.Machine.execCanFiltApply h b s
  | .linConfig h b => Sys2Proof.Machine.execLinConfig h b s
  | .linSet h b => Sys2Proof.Machine.execLinSet h b s
  | .linControlStart h b => Sys2Proof.Machine.execLinControlStart h b s
  | .linControlStop h b => Sys2Proof.Machine.execLinControlStop h b s
  | .linControlSleep h b => Sys2Proof.Machine.execLinControlSleep h b s
  | .linControlWake h b => Sys2Proof.Machine.execLinControlWake h b s
  | .linStatus h b => Sys2Proof.Machine.execLinStatus h b s
  | .gwBind h b => Sys2Proof.Machine.execGwBind h b s
  | .ethConfig h b => Sys2Proof.Machine.execEthConfig h b s
  | .ethStatus h b => Sys2Proof.Machine.execEthStatus h b s
  | .gwStatus h b => Sys2Proof.Machine.execGwStatus h b s
  | .accConfig h b => Sys2Proof.Machine.execAccConfig h b s
  | .accStart h b => Sys2Proof.Machine.execAccStart h b s
  | .accCalibrate h b => Sys2Proof.Machine.execAccCalibrate h b s
  | .accPhHello h b => Sys2Proof.Machine.execAccPhHello h b s
  | .accPhResponse h b => Sys2Proof.Machine.execAccPhResponse h b s
  | .accPhPresence h b => Sys2Proof.Machine.execAccPhPresence h b s
  | .immoStart h b => Sys2Proof.Machine.execImmoStart h b s
  | .immoRevoke h b => Sys2Proof.Machine.execImmoRevoke h b s
  | .accStatus h b => Sys2Proof.Machine.execAccStatus h b s
  | .accClear h b => Sys2Proof.Machine.execAccClear h b s
  | .accLockClear h b => Sys2Proof.Machine.execAccLockClear h b s
  | .accLockStatus h b => Sys2Proof.Machine.execAccLockStatus h b s
  | .keyWrite h b => Sys2Proof.Machine.execKeyWrite h b s
  | .keyInfo h b => Sys2Proof.Machine.execKeyInfo h b s
  | .keyMacGen h b => Sys2Proof.Machine.execKeyMacGen h b s
  | .keyMacVer h b => Sys2Proof.Machine.execKeyMacVer h b s
  | .keyCipherEnc h b => Sys2Proof.Machine.execKeyCipherEnc h b s
  | .keyCipherDec h b => Sys2Proof.Machine.execKeyCipherDec h b s
  | .keySign h b => Sys2Proof.Machine.execKeySign h b s
  | .keySignVerify h b => Sys2Proof.Machine.execKeySignVerify h b s
  | .keyEcdh h b => Sys2Proof.Machine.execKeyEcdh h b s
  | .keyGenkey h b => Sys2Proof.Machine.execKeyGenkey h b s
  | .keyAttest h b => Sys2Proof.Machine.execKeyAttest h b s
  | .fltConfig h b => Sys2Proof.Machine.execFltConfig h b s
  | .fltStatus h b => Sys2Proof.Machine.execFltStatus h b s
  | .fltHistory h b => Sys2Proof.Machine.execFltHistory h b s
  | .fltClear h b => Sys2Proof.Machine.execFltClear h b s
  | .fltSticky h b => Sys2Proof.Machine.execFltSticky h b s
  | .fltGlobal h b => Sys2Proof.Machine.execFltGlobal h b s
  | .pwrConfig h b => Sys2Proof.Machine.execPwrConfig h b s
  | .pwrSetRun h b => Sys2Proof.Machine.execPwrSetRun h b s
  | .pwrSetIdle h b => Sys2Proof.Machine.execPwrSetIdle h b s
  | .pwrSetPark h b deep => Sys2Proof.Machine.execPwrSetPark h b deep s
  | .pwrStatus h b => Sys2Proof.Machine.execPwrStatus h b s
  | .padRelease h b => Sys2Proof.Machine.execPadRelease h b s
  | .pwrWakeList h b => Sys2Proof.Machine.execPwrWakeList h b s
  | .hearthRestart h b => Sys2Proof.Machine.execHearthRestart h b s
  | .updBegin h b => Sys2Proof.Machine.execUpdBegin h b s
  | .updWrite h b => Sys2Proof.Machine.execUpdWrite h b s
  | .updFinish h b => Sys2Proof.Machine.execUpdFinish h b s
  | .updVerify h b => Sys2Proof.Machine.execUpdVerify h b s
  | .updActivateAt h b => Sys2Proof.Machine.execUpdActivateAt h b s
  | .updActivateNow h b => Sys2Proof.Machine.execUpdActivateNow h b s
  | .updCancel h b => Sys2Proof.Machine.execUpdCancel h b s
  | .updConfirm h b => Sys2Proof.Machine.execUpdConfirm h b s
  | .updRollback h b => Sys2Proof.Machine.execUpdRollback h b s
  | .updStatus h b => Sys2Proof.Machine.execUpdStatus h b s
  | .updService h b => Sys2Proof.Machine.execUpdService h b s
  | .inConfig h b => Sys2Proof.Machine.execInConfig h b s
  | .inStatus h b => Sys2Proof.Machine.execInStatus h b s
  | .inGlobal h b => Sys2Proof.Machine.execInGlobal h b s
  | .monRead h b => Sys2Proof.Machine.execMonRead h b s
  | .inCfgRead h b => Sys2Proof.Machine.execInCfgRead h b s
  | .schedStatus h b => Sys2Proof.Machine.execSchedStatus h b s
  | .schedUnit h b => Sys2Proof.Machine.execSchedUnit h b s
  | .schedCheck h b => Sys2Proof.Machine.execSchedCheck h b s
  | .tbRead h b => Sys2Proof.Machine.execTbRead h b s
  | .timeAnchorSet h b => Sys2Proof.Machine.execTimeAnchorSet h b s
  | .timeAnchorClear h b => Sys2Proof.Machine.execTimeAnchorClear h b s
  | .cmpSetKeep h b => Sys2Proof.Machine.execCmpSetKeep h b s
  | .cmpSetArm h b => Sys2Proof.Machine.execCmpSetArm h b s
  | .cmpSetDisarm h b => Sys2Proof.Machine.execCmpSetDisarm h b s
  | .cmpStatus h b => Sys2Proof.Machine.execCmpStatus h b s
  | .tmrConfig h b => Sys2Proof.Machine.execTmrConfig h b s
  | .tmrStatus h b => Sys2Proof.Machine.execTmrStatus h b s
  | .nop op => Sys2Proof.Machine.execNop op s
  | .tend op => Sys2Proof.Machine.execTend op s
  | .ret op => Sys2Proof.Machine.execRet op s
  | .rett op => Sys2Proof.Machine.execRett op s
  | .br op cond off => Sys2Proof.Machine.execBr op cond off s
  | .jmp op target => Sys2Proof.Machine.execJmp op target s
  | .call op target => Sys2Proof.Machine.execCall op target s
  | .loopDo op reg dn count lend => Sys2Proof.Machine.execDo op reg dn count lend s
  | .rep op reg dn count => Sys2Proof.Machine.execRep op reg dn count s
  | .bmov op two ps pd dn cut => Sys2Proof.Machine.execBmov op two ps pd dn cut s
  | .bfly op dn scale cut => Sys2Proof.Machine.execBfly op dn scale cut s
  | .ld op code ea ext => Sys2Proof.Machine.execLd op code ea ext s
  | .st op code ea ext => Sys2Proof.Machine.execSt op code ea ext s
  | .mov op dst src => Sys2Proof.Machine.execMov op dst src s
  | .add op dd da db => Sys2Proof.Machine.execAdd op dd da db s
  | .sub op dd da db => Sys2Proof.Machine.execSub op dd da db s
  | .andC op dd da db => Sys2Proof.Machine.execAnd op dd da db s
  | .orC op dd da db => Sys2Proof.Machine.execOr op dd da db s
  | .xor op dd da db => Sys2Proof.Machine.execXor op dd da db s
  | .cmp op da db => Sys2Proof.Machine.execCmp op da db s
  | .adc op dd da db => Sys2Proof.Machine.execAdc op dd da db s
  | .sbc op dd da db => Sys2Proof.Machine.execSbc op dd da db s
  | .padd op dd da db => Sys2Proof.Machine.execPadd op dd da db s
  | .psub op dd da db => Sys2Proof.Machine.execPsub op dd da db s
  | .shl op dd da n => Sys2Proof.Machine.execShl op dd da n s
  | .shr op dd da n => Sys2Proof.Machine.execShr op dd da n s
  | .asr op dd da n => Sys2Proof.Machine.execAsr op dd da n s
  | .rol op dd da n => Sys2Proof.Machine.execRol op dd da n s
  | .mpy op aa da db => Sys2Proof.Machine.execMpy op aa da db s
  | .mac op aa da db => Sys2Proof.Machine.execMac op aa da db s
  | .msu op aa da db => Sys2Proof.Machine.execMsu op aa da db s
  | .mpyf op aa da db => Sys2Proof.Machine.execMpyf op aa da db s
  | .macf op aa da db => Sys2Proof.Machine.execMacf op aa da db s
  | .msuf op aa da db => Sys2Proof.Machine.execMsuf op aa da db s
  | .pmacu op aa da db => Sys2Proof.Machine.execPmacu op aa da db s
  | .pmacs op aa da db => Sys2Proof.Machine.execPmacs op aa da db s
  | .clr op aa => Sys2Proof.Machine.execClr op aa s
  | .neg op aa => Sys2Proof.Machine.execNeg op aa s
  | .abs op aa => Sys2Proof.Machine.execAbs op aa s
  | .rnd op aa => Sys2Proof.Machine.execRnd op aa s
  | .adda op aa am => Sys2Proof.Machine.execAdda op aa am s
  | .suba op aa am => Sys2Proof.Machine.execSuba op aa am s
  | .asha op aa am n => Sys2Proof.Machine.execAsha op aa am n s
  | .tfra op aa am => Sys2Proof.Machine.execTfra op aa am s
  | .macx op mcode aa mx px my py => Sys2Proof.Machine.execMacx op mcode aa mx px my py s
  | .tblRead op dn => Sys2Proof.Machine.execTblRead op dn s
  | .queuePortRead op p => Sys2Proof.Machine.execQueuePortRead op p s
  | .queuePortPush op p => Sys2Proof.Machine.execQueuePortPush op p s
  | .queuePortMark op p => Sys2Proof.Machine.execQueuePortMark op p s
  | .queuePortClearMark op p => Sys2Proof.Machine.execQueuePortClearMark op p s
  | .queuePortRewind op p => Sys2Proof.Machine.execQueuePortRewind op p s
  | .queuePortRelease op p => Sys2Proof.Machine.execQueuePortRelease op p s
  | .queuePortWordWrite op p w v => Sys2Proof.Machine.execQueuePortWordWrite op p w v s
  | .safeTrap c => Sys2Proof.Machine.execSafeTrap c s
  | .taskActivation t adc => Sys2Proof.Machine.execTaskActivation t adc s
  | .budgetTrap c => Sys2Proof.Machine.execBudgetTrap c s
  | .taskEndGuard c => Sys2Proof.Machine.execTaskEndGuard c s
  | .hspiWrite n len b => Sys2Proof.Machine.execHspiWrite n len b s
  | .hspiRead n len clocked => Sys2Proof.Machine.execHspiRead n len clocked s
  | .hspiStatus n => Sys2Proof.Machine.execHspiStatus n s
  | .hspiCsRise n => Sys2Proof.Machine.execHspiCsRise n s
  | .ethFrameReceived p f => Sys2Proof.Machine.execEthFrameReceived p f s
  | .packetAccept c => Sys2Proof.Machine.execPacketAccept c s
  | .ethLinkUp p => Sys2Proof.Machine.execEthLinkUp p s
  | .ethLinkDown p => Sys2Proof.Machine.execEthLinkDown p s
  | .blockFlit seq seg total crcOk => Sys2Proof.Machine.execBlockFlit seq seg total crcOk s
  | .reportFlit seq => Sys2Proof.Machine.execReportFlit seq s
  | .sampleFlit seq => Sys2Proof.Machine.execSampleFlit seq s
  | .eventFlit seq => Sys2Proof.Machine.execEventFlit seq s
  | .msgFlit toAnvil seq => Sys2Proof.Machine.execMsgFlit toAnvil seq s
  | .busFlit toAnvil lines => Sys2Proof.Machine.execBusFlit toAnvil lines s
  | .busFlitTimeout => Sys2Proof.Machine.execBusFlitTimeout s
  | .rejoinFlit seq ep f dig => Sys2Proof.Machine.execRejoinFlit seq ep f dig s
  | .epochRejectFlit seq => Sys2Proof.Machine.execEpochRejectFlit seq s
  | .dumpReqFlit seq full => Sys2Proof.Machine.execDumpReqFlit seq full s
  | .dumpFlit seq last => Sys2Proof.Machine.execDumpFlit seq last s
  | .nakFlit toAnvil seq want => Sys2Proof.Machine.execNakFlit toAnvil seq want s
  | .trainFlit toAnvil lane => Sys2Proof.Machine.execTrainFlit toAnvil lane s
  | .quenchReqFlit => Sys2Proof.Machine.execQuenchReqFlit s
  | .flitCrcError toAnvil lane bad => Sys2Proof.Machine.execFlitCrcError toAnvil lane bad s
  | .laneRetrain toAnvil lane => Sys2Proof.Machine.execLaneRetrain toAnvil lane s
  | .reportTimeout => Sys2Proof.Machine.execReportTimeout s
  | .frameBoundary m => Sys2Proof.Machine.execFrameBoundary m s
  | .orphanHoldExpiry n => Sys2Proof.Machine.execOrphanHoldExpiry n s
  | .sinkHoldExpiry n => Sys2Proof.Machine.execSinkHoldExpiry n s
  | .actHoldLapse => Sys2Proof.Machine.execActHoldLapse s
  | .hearthFrameStart temps proc procBad => Sys2Proof.Machine.execHearthFrameStart temps proc procBad s
  | .commitPoint => Sys2Proof.Machine.execCommitPoint s
  | .batchTimeout c => Sys2Proof.Machine.execBatchTimeout c s
  | .channelStartEdge n vz => Sys2Proof.Machine.execChannelStartEdge n vz s
  | .lampPeriodStart n vz => Sys2Proof.Machine.execLampPeriodStart n vz s
  | .offDiagStepB n vout => Sys2Proof.Machine.execOffDiagStepB n vout s
  | .dirEdge ix level => Sys2Proof.Machine.execDirEdge ix level s
  | .pinEdgeDeferred n => Sys2Proof.Machine.execPinEdgeDeferred n s
  | .lhNChange high => Sys2Proof.Machine.execLhNChange high s
  | .lhinChange ix high => Sys2Proof.Machine.execLhinChange ix high s
  | .flashToggle => Sys2Proof.Machine.execFlashToggle s
  | .ocTrip n ix vout => Sys2Proof.Machine.execOcTrip n ix vout s
  | .vdsTrip n vds ix vout => Sys2Proof.Machine.execVdsTrip n vds ix vout s
  | .coolDownExpiry n => Sys2Proof.Machine.execCoolDownExpiry n s
  | .retryRestore n => Sys2Proof.Machine.execRetryRestore n s
  | .tsdTrip n tj => Sys2Proof.Machine.execTsdTrip n tj s
  | .tsdClear n tj => Sys2Proof.Machine.execTsdClear n tj s
  | .dtjEvaluation n tj areas => Sys2Proof.Machine.execDtjEvaluation n tj areas s
  | .vbatsLow v => Sys2Proof.Machine.execVbatsLow v s
  | .vbatsRecover v => Sys2Proof.Machine.execVbatsRecover v s
  | .crankTimeout => Sys2Proof.Machine.execCrankTimeout s
  | .crankRelease v => Sys2Proof.Machine.execCrankRelease v s
  | .vbatsOv v => Sys2Proof.Machine.execVbatsOv v s
  | .vbatsOvEnd v => Sys2Proof.Machine.execVbatsOvEnd v s
  | .reverseBattery v => Sys2Proof.Machine.execReverseBattery v s
  | .indIpReached n => Sys2Proof.Machine.execIndIpReached n s
  | .pullInEnd n => Sys2Proof.Machine.execPullInEnd n s
  | .closingDetectionWindow n us is sat => Sys2Proof.Machine.execClosingDetectionWindow n us is sat s
  | .coilOpenCheck n ix => Sys2Proof.Machine.execCoilOpenCheck n ix s
  | .oneShotEnd n => Sys2Proof.Machine.execOneShotEnd n s
  | .indReleaseEnd n => Sys2Proof.Machine.execIndReleaseEnd n s
  | .encoderStep b a e => Sys2Proof.Machine.execEncoderStep b a e s
  | .bridgeStandstill b => Sys2Proof.Machine.execBridgeStandstill b s
  | .dwellEnd b => Sys2Proof.Machine.execDwellEnd b s
  | .bridgeStall b => Sys2Proof.Machine.execBridgeStall b s
  | .bridgeOpenPhase b => Sys2Proof.Machine.execBridgeOpenPhase b s
  | .compareFire n => Sys2Proof.Machine.execCompareFire n s
  | .timerOverflow n => Sys2Proof.Machine.execTimerOverflow n s
  | .timerMatch n => Sys2Proof.Machine.execTimerMatch n s
  | .timerMasterEvent n => Sys2Proof.Machine.execTimerMasterEvent n s
  | .debouncedEdge n v => Sys2Proof.Machine.execDebouncedEdge n v s
  | .canFrameReceived p w d data => Sys2Proof.Machine.execCanFrameReceived p w d data s
  | .canTxAttemptEnd p ix err loop => Sys2Proof.Machine.execCanTxAttemptEnd p ix err loop s
  | .canBusError p tx big => Sys2Proof.Machine.execCanBusError p tx big s
  | .canIntegrationDone p => Sys2Proof.Machine.execCanIntegrationDone p s
  | .canBusoffRecovery p => Sys2Proof.Machine.execCanBusoffRecovery p s
  | .canTxdDom p => Sys2Proof.Machine.execCanTxdDom p s
  | .canBusDom p => Sys2Proof.Machine.execCanBusDom p s
  | .canWakePattern p => Sys2Proof.Machine.execCanWakePattern p s
  | .canWakeFrame p w dlc data bad => Sys2Proof.Machine.execCanWakeFrame p w dlc data bad s
  | .linHeaderStart n f => Sys2Proof.Machine.execLinHeaderStart n f s
  | .linFrameEnd n res data => Sys2Proof.Machine.execLinFrameEnd n res data s
  | .linBusDom n => Sys2Proof.Machine.execLinBusDom n s
  | .linBusWake n => Sys2Proof.Machine.execLinBusWake n s
  | .lfPlanStart => Sys2Proof.Machine.execLfPlanStart s
  | .lfStepStart => Sys2Proof.Machine.execLfStepStart s
  | .lfAerialFault n short => Sys2Proof.Machine.execLfAerialFault n short s
  | .uhfReply t p => Sys2Proof.Machine.execUhfReply t p s
  | .accessDecision => Sys2Proof.Machine.execAccessDecision s
  | .resweepStart => Sys2Proof.Machine.execResweepStart s
  | .phoneExchangeTimeout e => Sys2Proof.Machine.execPhoneExchangeTimeout e s
  | .calRepeat => Sys2Proof.Machine.execCalRepeat s
  | .lockExpiry kind id => Sys2Proof.Machine.execLockExpiry kind id s
  | .lockRepeatReset kind id => Sys2Proof.Machine.execLockRepeatReset kind id s
  | .immoReqRetry => Sys2Proof.Machine.execImmoReqRetry s
  | .immoReleasePeriod => Sys2Proof.Machine.execImmoReleasePeriod s
  | .presencePoll => Sys2Proof.Machine.execPresencePoll s
  | .immoAbsentTimeout => Sys2Proof.Machine.execImmoAbsentTimeout s
  | .parkEntryBegin => Sys2Proof.Machine.execParkEntryBegin s
  | .parkAp1 => Sys2Proof.Machine.execParkAp1 s
  | .parkAp2 pt => Sys2Proof.Machine.execParkAp2 pt s
  | .parkAp3 => Sys2Proof.Machine.execParkAp3 s
  | .parkEntryTimeout => Sys2Proof.Machine.execParkEntryTimeout s
  | .parkDeepen => Sys2Proof.Machine.execParkDeepen s
  | .parkTimerExpiry => Sys2Proof.Machine.execParkTimerExpiry s
  | .parkModelUpdate => Sys2Proof.Machine.execParkModelUpdate s
  | .wakeEvent code ix pt => Sys2Proof.Machine.execWakeEvent code ix pt s
  | .hearthResetRelease pt enc bad => Sys2Proof.Machine.execHearthResetRelease pt enc bad s
  | .mgmtWatchdog => Sys2Proof.Machine.execMgmtWatchdog s
  | .bellowsWatchdog => Sys2Proof.Machine.execBellowsWatchdog s
  | .sequencerWatchdog => Sys2Proof.Machine.execSequencerWatchdog s
  | .railFault r mv => Sys2Proof.Machine.execRailFault r mv s
  | .snsFault k => Sys2Proof.Machine.execSnsFault k s
  | .snsRetry k => Sys2Proof.Machine.execSnsRetry k s
  | .anvilPorAssert v => Sys2Proof.Machine.execAnvilPorAssert v s
  | .anvilPorRelease v test => Sys2Proof.Machine.execAnvilPorRelease v test s
  | .xtal25Stop => Sys2Proof.Machine.execXtal25Stop s
  | .xtal25Restored => Sys2Proof.Machine.execXtal25Restored s
  | .xtal32Stop => Sys2Proof.Machine.execXtal32Stop s
  | .resetNAssert => Sys2Proof.Machine.execResetNAssert s
  | .resetNRelease => Sys2Proof.Machine.execResetNRelease s
  | .resetStuck => Sys2Proof.Machine.execResetStuck s
  | .updActivationTick => Sys2Proof.Machine.execUpdActivationTick s
  | .updDeferTimeout => Sys2Proof.Machine.execUpdDeferTimeout s
  | .updBootVerifyDone bad => Sys2Proof.Machine.execUpdBootVerifyDone bad s
  | .failedBootTimeout => Sys2Proof.Machine.execFailedBootTimeout s
  | .inrushWindowEnd n => Sys2Proof.Machine.execInrushWindowEnd n s
  | .ledPulsePeriodStart n => Sys2Proof.Machine.execLedPulsePeriodStart n s
  | .canTxdReenable p => Sys2Proof.Machine.execCanTxdReenable p s
  | .droopDetectorTrip ix => Sys2Proof.Machine.execDroopDetectorTrip ix s
  | .droopClear ix => Sys2Proof.Machine.execDroopClear ix s
  | .loopbackMeasurement d => Sys2Proof.Machine.execLoopbackMeasurement d s

end Sys2Proof.Machine
end

