-- ==== Sys2Proof/WellFormed.lean ====
section
/-! DEFINITION. The operand ranges of every command: what a sender, a core or the plant can give. -/

namespace Sys2Proof

/-- A header a packet can carry: contexts 0 to 15 (R78), CREDIT_RET of 16 bits, and a payload of at most 4,076 octets (R58). -/
def packetWf (h : Hdr) (b : Rec) : Bool := decide (h.ctx < 16) && decide (h.creditRet < 65536) && decide (b.length ≤ 4076)

/-- Cores C0 to C3 (R399), and what ECC reports of an instruction. -/
def coreWf (op : CoreOp) : Bool := decide (op.core < 4) && decide (op.ecc < 3)

/-- The bus lines of a flit: 8 CAN and 12 LIN levels, at most 2 edges on a CAN line (R34). -/
def linesWf (l : BusLines) : Bool :=
  decide (l.can.length = 8) && decide (l.lin.length = 12) && decide (l.edges.length = 8) && l.edges.all (fun e => decide (e.length ≤ 2))

/-- The operands of a command lie in the ranges of the spec: unit numbers within their type (R98), register numbers and counts of the Cesyn
encoding (R414), lanes, ports and codes. -/
def Instr.wf : Instr → Bool
  | .ping h b => packetWf h b
  | .getInfo h b => packetWf h b
  | .memRead h b => packetWf h b
  | .memWrite h b => packetWf h b
  | .ctxReset h b => packetWf h b
  | .ctxResetDone c => decide (c < 16)
  | .unitClaim h b => packetWf h b
  | .ctxConfig h b => packetWf h b
  | .modeSelect h b => packetWf h b
  | .qConfig h b => packetWf h b
  | .qPush h b => packetWf h b
  | .qRead h b => packetWf h b
  | .qMarkSet h b => packetWf h b
  | .qMarkClear h b => packetWf h b
  | .qRewind h b => packetWf h b
  | .qRelease h b => packetWf h b
  | .qReleaseToLimit h b => packetWf h b
  | .qStatus h b => packetWf h b
  | .qAudit h b => packetWf h b
  | .chConfig h b => packetWf h b
  | .chSet h b => packetWf h b
  | .chStatus h b => packetWf h b
  | .chClearDiag h b => packetWf h b
  | .lhConfig h b => packetWf h b
  | .lhStatus h b => packetWf h b
  | .chProtConfig h b => packetWf h b
  | .chClearProt h b => packetWf h b
  | .chProtStatus h b => packetWf h b
  | .supplyStatus h b => packetWf h b
  | .indConfig h b => packetWf h b
  | .indSet h b => packetWf h b
  | .indStatus h b => packetWf h b
  | .indClear h b => packetWf h b
  | .brConfig h b => packetWf h b
  | .brSet h b => packetWf h b
  | .brStatus h b => packetWf h b
  | .brClear h b => packetWf h b
  | .brPosSet h b => packetWf h b
  | .lsConfig h b => packetWf h b
  | .lsSet h b => packetWf h b
  | .lsStatus h b => packetWf h b
  | .lsClear h b => packetWf h b
  | .lightConfig h b => packetWf h b
  | .lightStage h b => packetWf h b
  | .lightCommit h b => packetWf h b
  | .lightDiscard h b => packetWf h b
  | .lightStatus h b => packetWf h b
  | .lightSync => true
  | .taskControl h b => packetWf h b
  | .taskStatus h b => packetWf h b
  | .taskParam h b => packetWf h b
  | .coreStatus h b => packetWf h b
  | .canConfig h b => packetWf h b
  | .canWakeConfig h b => packetWf h b
  | .canControlStart h b => packetWf h b
  | .canControlListen h b => packetWf h b
  | .canControlStop h b => packetWf h b
  | .canControlSleep h b => packetWf h b
  | .canControlWake h b => packetWf h b
  | .canControlRecover h b => packetWf h b
  | .canControlFlush h b => packetWf h b
  | .canStatus h b => packetWf h b
  | .canFiltWrite h b => packetWf h b
  | .canFiltApply h b => packetWf h b
  | .linConfig h b => packetWf h b
  | .linSet h b => packetWf h b
  | .linControlStart h b => packetWf h b
  | .linControlStop h b => packetWf h b
  | .linControlSleep h b => packetWf h b
  | .linControlWake h b => packetWf h b
  | .linStatus h b => packetWf h b
  | .gwBind h b => packetWf h b
  | .ethConfig h b => packetWf h b
  | .ethStatus h b => packetWf h b
  | .gwStatus h b => packetWf h b
  | .accConfig h b => packetWf h b
  | .accStart h b => packetWf h b
  | .accCalibrate h b => packetWf h b
  | .accPhHello h b => packetWf h b
  | .accPhResponse h b => packetWf h b
  | .accPhPresence h b => packetWf h b
  | .immoStart h b => packetWf h b
  | .immoRevoke h b => packetWf h b
  | .accStatus h b => packetWf h b
  | .accClear h b => packetWf h b
  | .accLockClear h b => packetWf h b
  | .accLockStatus h b => packetWf h b
  | .keyWrite h b => packetWf h b
  | .keyInfo h b => packetWf h b
  | .keyMacGen h b => packetWf h b
  | .keyMacVer h b => packetWf h b
  | .keyCipherEnc h b => packetWf h b
  | .keyCipherDec h b => packetWf h b
  | .keySign h b => packetWf h b
  | .keySignVerify h b => packetWf h b
  | .keyEcdh h b => packetWf h b
  | .keyGenkey h b => packetWf h b
  | .keyAttest h b => packetWf h b
  | .fltConfig h b => packetWf h b
  | .fltStatus h b => packetWf h b
  | .fltHistory h b => packetWf h b
  | .fltClear h b => packetWf h b
  | .fltSticky h b => packetWf h b
  | .fltGlobal h b => packetWf h b
  | .pwrConfig h b => packetWf h b
  | .pwrSetRun h b => packetWf h b
  | .pwrSetIdle h b => packetWf h b
  | .pwrSetPark h b _ => packetWf h b
  | .pwrStatus h b => packetWf h b
  | .padRelease h b => packetWf h b
  | .pwrWakeList h b => packetWf h b
  | .hearthRestart h b => packetWf h b
  | .updBegin h b => packetWf h b
  | .updWrite h b => packetWf h b
  | .updFinish h b => packetWf h b
  | .updVerify h b => packetWf h b
  | .updActivateAt h b => packetWf h b
  | .updActivateNow h b => packetWf h b
  | .updCancel h b => packetWf h b
  | .updConfirm h b => packetWf h b
  | .updRollback h b => packetWf h b
  | .updStatus h b => packetWf h b
  | .updService h b => packetWf h b
  | .inConfig h b => packetWf h b
  | .inStatus h b => packetWf h b
  | .inGlobal h b => packetWf h b
  | .monRead h b => packetWf h b
  | .inCfgRead h b => packetWf h b
  | .schedStatus h b => packetWf h b
  | .schedUnit h b => packetWf h b
  | .schedCheck h b => packetWf h b
  | .tbRead h b => packetWf h b
  | .timeAnchorSet h b => packetWf h b
  | .timeAnchorClear h b => packetWf h b
  | .cmpSetKeep h b => packetWf h b
  | .cmpSetArm h b => packetWf h b
  | .cmpSetDisarm h b => packetWf h b
  | .cmpStatus h b => packetWf h b
  | .tmrConfig h b => packetWf h b
  | .tmrStatus h b => packetWf h b
  | .nop op => coreWf op
  | .tend op => coreWf op
  | .ret op => coreWf op
  | .rett op => coreWf op
  | .br op cond off => coreWf op && decide (cond < 16) && decide (-8192 ≤ off) && decide (off < 8192)
  | .jmp op _ => coreWf op
  | .call op _ => coreWf op
  | .loopDo op reg dn count _ => coreWf op && decide (dn < 8) && decide (count < 16384) && (!reg || decide (count = 0))
  | .rep op reg dn count => coreWf op && decide (dn < 8) && decide (count < 4096) && (!reg || decide (count = 0))
  | .bmov op _ ps pd dn _ => coreWf op && decide (ps < 8) && decide (pd < 8) && decide (dn < 8)
  | .bfly op dn _ _ => coreWf op && decide (dn < 8)
  | .ld op code ea ext => coreWf op && decide (code < 64) && decide (ea < 64) && (decide (48 ≤ ea) || decide (ext = 0))
  | .st op code ea ext => coreWf op && decide (code < 64) && decide (ea < 64) && (decide (48 ≤ ea) || decide (ext = 0))
  | .mov op dst src => coreWf op && decide (dst < 64) && decide (src < 64)
  | .add op dd da db => coreWf op && decide (dd < 8) && decide (da < 8) && decide (db < 8)
  | .sub op dd da db => coreWf op && decide (dd < 8) && decide (da < 8) && decide (db < 8)
  | .andC op dd da db => coreWf op && decide (dd < 8) && decide (da < 8) && decide (db < 8)
  | .orC op dd da db => coreWf op && decide (dd < 8) && decide (da < 8) && decide (db < 8)
  | .xor op dd da db => coreWf op && decide (dd < 8) && decide (da < 8) && decide (db < 8)
  | .cmp op da db => coreWf op && decide (da < 8) && decide (db < 8)
  | .adc op dd da db => coreWf op && decide (dd < 8) && decide (da < 8) && decide (db < 8)
  | .sbc op dd da db => coreWf op && decide (dd < 8) && decide (da < 8) && decide (db < 8)
  | .padd op dd da db => coreWf op && decide (dd < 8) && decide (da < 8) && decide (db < 8)
  | .psub op dd da db => coreWf op && decide (dd < 8) && decide (da < 8) && decide (db < 8)
  | .shl op dd da n => coreWf op && decide (dd < 8) && decide (da < 8) && decide (n < 32)
  | .shr op dd da n => coreWf op && decide (dd < 8) && decide (da < 8) && decide (n < 32)
  | .asr op dd da n => coreWf op && decide (dd < 8) && decide (da < 8) && decide (n < 32)
  | .rol op dd da n => coreWf op && decide (dd < 8) && decide (da < 8) && decide (n < 32)
  | .mpy op aa da db => coreWf op && decide (aa < 4) && decide (da < 8) && decide (db < 8)
  | .mac op aa da db => coreWf op && decide (aa < 4) && decide (da < 8) && decide (db < 8)
  | .msu op aa da db => coreWf op && decide (aa < 4) && decide (da < 8) && decide (db < 8)
  | .mpyf op aa da db => coreWf op && decide (aa < 4) && decide (da < 8) && decide (db < 8)
  | .macf op aa da db => coreWf op && decide (aa < 4) && decide (da < 8) && decide (db < 8)
  | .msuf op aa da db => coreWf op && decide (aa < 4) && decide (da < 8) && decide (db < 8)
  | .pmacu op aa da db => coreWf op && decide (aa < 4) && decide (da < 8) && decide (db < 8)
  | .pmacs op aa da db => coreWf op && decide (aa < 4) && decide (da < 8) && decide (db < 8)
  | .clr op aa => coreWf op && decide (aa < 4)
  | .neg op aa => coreWf op && decide (aa < 4)
  | .abs op aa => coreWf op && decide (aa < 4)
  | .rnd op aa => coreWf op && decide (aa < 4)
  | .adda op aa am => coreWf op && decide (aa < 4) && decide (am < 4)
  | .suba op aa am => coreWf op && decide (aa < 4) && decide (am < 4)
  | .asha op aa am n => coreWf op && decide (aa < 4) && decide (am < 4) && decide (-32 ≤ n) && decide (n < 32)
  | .tfra op aa am => coreWf op && decide (aa < 4) && decide (am < 4)
  | .macx op mcode aa mx px my py => coreWf op && decide (mcode < 8) && decide (aa < 4) && decide (mx < 8) && decide (px < 4) && decide (my < 8) && decide (py < 8) && decide (4 ≤ py)
  | .tblRead op dn => coreWf op && decide (dn < 8)
  | .queuePortRead op p => coreWf op && decide (p < 8)
  | .queuePortPush op p => coreWf op && decide (p < 8)
  | .queuePortMark op p => coreWf op && decide (p < 8)
  | .queuePortClearMark op p => coreWf op && decide (p < 8)
  | .queuePortRewind op p => coreWf op && decide (p < 8)
  | .queuePortRelease op p => coreWf op && decide (p < 8)
  | .queuePortWordWrite op p w _ => coreWf op && decide (p < 8) && decide (w < 32)
  | .safeTrap c => decide (c < 4)
  | .taskActivation t _ => decide (t < 64)
  | .budgetTrap c => decide (c < 4)
  | .taskEndGuard c => decide (c < 4)
  | .hspiWrite n len b => decide (n < 2) && decide (len < 65536) && decide (b.length ≤ len)
  | .hspiRead n len _ => decide (n < 2) && decide (len < 65536)
  | .hspiStatus n => decide (n < 2)
  | .hspiCsRise n => decide (n < 2)
  | .ethFrameReceived p _ => decide (p < 2)
  | .packetAccept c => decide (c < 16)
  | .ethLinkUp p => decide (p < 2)
  | .ethLinkDown p => decide (p < 2)
  | .blockFlit _ _ _ _ => true
  | .reportFlit _ => true
  | .sampleFlit _ => true
  | .eventFlit _ => true
  | .msgFlit _ _ => true
  | .busFlit _ lines => linesWf lines
  | .busFlitTimeout => true
  | .rejoinFlit _ _ _ _ => true
  | .epochRejectFlit _ => true
  | .dumpReqFlit _ _ => true
  | .dumpFlit _ _ => true
  | .nakFlit _ _ _ => true
  | .trainFlit _ lane => decide (lane < 2)
  | .quenchReqFlit => true
  | .flitCrcError _ lane _ => decide (lane < 2)
  | .laneRetrain _ lane => decide (lane < 2)
  | .reportTimeout => true
  | .frameBoundary _ => true
  | .orphanHoldExpiry n => decide (n < 64)
  | .sinkHoldExpiry n => decide (n < 36)
  | .actHoldLapse => true
  | .hearthFrameStart _ _ _ => true
  | .commitPoint => true
  | .batchTimeout c => decide (c < 16)
  | .channelStartEdge n _ => decide (n < 64)
  | .lampPeriodStart n _ => decide (n < 64)
  | .offDiagStepB n _ => decide (n < 64)
  | .dirEdge i _ => decide (i < 16)
  | .pinEdgeDeferred n => decide (n < 64)
  | .lhNChange _ => true
  | .lhinChange i _ => decide (i < 8)
  | .flashToggle => true
  | .ocTrip n _ _ => decide (n < 64)
  | .vdsTrip n _ _ _ => decide (n < 64)
  | .coolDownExpiry n => decide (n < 64)
  | .retryRestore n => decide (n < 64)
  | .tsdTrip n _ => decide (n < 64)
  | .tsdClear n _ => decide (n < 64)
  | .dtjEvaluation n _ areas => decide (n < 64) && decide (areas.length = 12)
  | .vbatsLow _ => true
  | .vbatsRecover _ => true
  | .crankTimeout => true
  | .crankRelease _ => true
  | .vbatsOv _ => true
  | .vbatsOvEnd _ => true
  | .reverseBattery _ => true
  | .indIpReached n => decide (n < 64)
  | .pullInEnd n => decide (n < 64)
  | .closingDetectionWindow n _ _ _ => decide (n < 64)
  | .coilOpenCheck n _ => decide (n < 64)
  | .oneShotEnd n => decide (n < 64)
  | .indReleaseEnd n => decide (n < 64)
  | .encoderStep b _ _ => decide (b < 8)
  | .bridgeStandstill b => decide (b < 8)
  | .dwellEnd b => decide (b < 8)
  | .bridgeStall b => decide (b < 8)
  | .bridgeOpenPhase b => decide (b < 8)
  | .compareFire n => decide (n < 256)
  | .timerOverflow n => decide (n < 16)
  | .timerMatch n => decide (n < 16)
  | .timerMasterEvent n => decide (n < 16)
  | .debouncedEdge n _ => decide (n < 96)
  | .canFrameReceived p w d data => decide (p < 8) && decide (w < 4294967296) && decide (d < 256) && decide (data.length ≤ 64)
  | .canTxAttemptEnd p i err _ => decide (p < 8) && decide (i < 64) && decide (err < 7)
  | .canBusError p _ _ => decide (p < 8)
  | .canIntegrationDone p => decide (p < 8)
  | .canBusoffRecovery p => decide (p < 8)
  | .canTxdDom p => decide (p < 8)
  | .canBusDom p => decide (p < 8)
  | .canWakePattern p => decide (p < 8)
  | .canWakeFrame p w dlc data _ => decide (p < 8) && decide (w < 4294967296) && decide (dlc < 16) && decide (data.length ≤ 8)
  | .linHeaderStart n f => decide (n < 12) && decide (f < 64)
  | .linFrameEnd n res data => decide (n < 12) && decide (res < 6) && decide (data.length ≤ 8)
  | .linBusDom n => decide (n < 12)
  | .linBusWake n => decide (n < 12)
  | .lfPlanStart => true
  | .lfStepStart => true
  | .lfAerialFault n _ => decide (n < 8)
  | .uhfReply _ _ => true
  | .accessDecision => true
  | .resweepStart => true
  | .phoneExchangeTimeout _ => true
  | .calRepeat => true
  | .lockExpiry kind _ => decide (kind < 4)
  | .lockRepeatReset kind _ => decide (kind < 4)
  | .immoReqRetry => true
  | .immoReleasePeriod => true
  | .presencePoll => true
  | .immoAbsentTimeout => true
  | .parkEntryBegin => true
  | .parkAp1 => true
  | .parkAp2 _ => true
  | .parkAp3 => true
  | .parkEntryTimeout => true
  | .parkDeepen => true
  | .parkTimerExpiry => true
  | .parkModelUpdate => true
  | .wakeEvent code _ _ => decide (code < 7)
  | .hearthResetRelease _ enc _ => decide (enc < 65536)
  | .mgmtWatchdog => true
  | .bellowsWatchdog => true
  | .sequencerWatchdog => true
  | .railFault r _ => decide (r < 5)
  | .snsFault k => decide (k < 2)
  | .snsRetry k => decide (k < 2)
  | .anvilPorAssert _ => true
  | .anvilPorRelease _ _ => true
  | .xtal25Stop => true
  | .xtal25Restored => true
  | .xtal32Stop => true
  | .resetNAssert => true
  | .resetNRelease => true
  | .resetStuck => true
  | .updActivationTick => true
  | .updDeferTimeout => true
  | .updBootVerifyDone _ => true
  | .failedBootTimeout => true
  | .inrushWindowEnd n => decide (n < 64)
  | .ledPulsePeriodStart n => decide (n < 36)
  | .canTxdReenable p => decide (p < 8)
  | .droopDetectorTrip i => decide (i < 7)
  | .droopClear i => decide (i < 7)
  | .loopbackMeasurement _ => true

end Sys2Proof
end

