-- ==== Sys2Proof/Safety.lean ====
section
/-! DEFINITION. What counts as a safe run, in the terms claims use: the invariants of a state, the acceptance of a packet, and a Cesyn
command that is the instruction at its core's PC. -/

namespace Sys2Proof.Machine

/-! ### Frames -/

/-- The parts of the state, one for each field. -/
inductive Part where
  | pending | roles | com | blk | anvil | rep | bound | chM | repM | clk | time | sched | ctxs | hspi0 | hspi1
  | qf | link | closed | snaps | flt | light | bus | pwr | ces | acc | keys | upd | hmon | free
deriving DecidableEq, Repr

/-- A part of the state is in `t` what it is in `s`. -/
def Part.same (s t : State) : Part → Prop
  | .pending => t.pending = s.pending
  | .roles => t.roles = s.roles
  | .com => t.com = s.com
  | .blk => t.blk = s.blk
  | .anvil => t.anvil = s.anvil
  | .rep => t.rep = s.rep
  | .bound => t.bound = s.bound
  | .chM => t.chM = s.chM
  | .repM => t.repM = s.repM
  | .clk => t.clk = s.clk
  | .time => t.time = s.time
  | .sched => t.sched = s.sched
  | .ctxs => t.ctxs = s.ctxs
  | .hspi0 => t.hspi0 = s.hspi0
  | .hspi1 => t.hspi1 = s.hspi1
  | .qf => t.qf = s.qf
  | .link => t.link = s.link
  | .closed => t.closed = s.closed
  | .snaps => t.snaps = s.snaps
  | .flt => t.flt = s.flt
  | .light => t.light = s.light
  | .bus => t.bus = s.bus
  | .pwr => t.pwr = s.pwr
  | .ces => t.ces = s.ces
  | .acc => t.acc = s.acc
  | .keys => t.keys = s.keys
  | .upd => t.upd = s.upd
  | .hmon => t.hmon = s.hmon
  | .free => t.free = s.free

/-- `t` differs from `s` at most in the parts of `l`. -/
def Only (l : List Part) (s t : State) : Prop := ∀ p, p ∉ l → p.same s t

/-- A command answers a next state, of which `P` holds. -/
def Answers (x : Host.Outcome State Fault Refusal) (P : State → Prop) : Prop := ∃ t, x = .next t ∧ P t

/-! ### Invariants -/

/-- No unit has role generation 0000h (R164). -/
def GensOk (s : State) : Prop := ∀ k, (s.role k).gen ≠ 0

/-- The canonical form of a memory of words: addresses rising, no listed word equal to what an unlisted address reads as. -/
def Memory.wf (m : Tab W24) : Bool := twf (fun _ => 0) m

/-- The program, data, snapshot and staging memories of a core are in canonical form. -/
def Core.memWf (k : Core) : Bool := Memory.wf k.prog && Memory.wf k.data && Memory.wf k.snap && Memory.wf k.stag

/-- The positions of a queue in their order (R111): REL, MARK where set, READ, PUT, counted from REL, PUT - REL being the cells it holds. -/
def Queue.posOk (q : Queue) : Bool :=
  decide ((q.put - q.rel).toNat = q.cells.length) && decide ((q.read - q.rel).toNat ≤ q.cells.length)
    && (!q.markSet || decide ((q.mark - q.rel).toNat ≤ (q.read - q.rel).toNat))

/-! ### Packets -/

/-- The frame of a packet on arrival: whole, of an enabled context, in sequence, with cells for it (R58, R63, R65, R68 steps 1 to 4), ahead of it no
packet that waits, and its share and its reply queue admit it (R115, R197). -/
def Arrives (o : OpSpec) (h : Hdr) (b : Rec) (s : State) : Prop :=
  let x := s.cx h.ctx
  h.ctx ≠ 0 ∧ ctxEnabled x = true ∧ s.hearthUp = true ∧ b.length ≤ 4076 ∧ (h.wantReply && h.notifyOnly) = false ∧ h.seq = x.arrSeq
    ∧ pktCells { h := h, op := o.code, body := b } ≤ ctxFree x ∧ x.waiting = [] ∧ ctxResetting x = false
    ∧ shareAdmits h.ctx (20 + b.length) s = true ∧ ctxReplyUsed x + x.resv + cellsOf (32 + o.maxData b) ≤ 256

/-- The state on which a packet is checked and acts: arrived, charged to its share, its credit granted, its acceptance noted (R61, R62, R67, R197). -/
def entered (o : OpSpec) (h : Hdr) (b : Rec) (s : State) : State :=
  let p : Pkt := { h := h, op := o.code, body := b }
  let c := h.ctx
  let s := onCtx c (fun y => { y with arrSeq := y.arrSeq + 1, inPut := y.inPut + pktCells p }) s
  let s := onCtx c (fun x => { x with waiting := x.waiting ++ [p] }) s
  let s := chargeShare c (20 + b.length) (onCtx c (fun y => { y with waiting := [] }) s)
  onCtx c (fun y => { y with ntfCredit := y.ntfCredit + h.creditRet, accSeq := h.seq + 1, last := some { seq := h.seq, crc := pktCrc p, reply := none } }) s

/-- The request a packet makes, its effect frame by R155. -/
def reqOf (h : Hdr) (b : Rec) (s : State) : Req := { h := h, b := b, eff := (effectFrame s h.targetFn).2 }

/-- A packet that is no member of a batch arrives and passes every check of R68 and R681. -/
def Accepted (o : OpSpec) (h : Hdr) (b : Rec) (s : State) : Prop :=
  Arrives o h b s ∧ h.batch = false ∧ (s.cx h.ctx).batch = none
    ∧ checks o (decide (o.kind = .commit)) (reqOf h b (entered o h b s)) (entered o h b s) = none

/-! ### What an accepted packet comes to -/

/-- A packet of a host acts; then what waits on an Ethernet port leaves (R488). `P` holds of the state between the two. -/
def Sends (x : Host.Outcome State Fault Refusal) (P : State → Prop) : Prop := ∃ u, x = .next (ethDrain u) ∧ P u

/-- The packet is the last that the context accepted (R63). -/
def LastIs (p : Pkt) (x : Ctx) : Prop := ∃ r, x.last = some { seq := p.h.seq, crc := pktCrc p, reply := r }

/-- The context of the packet in `u`, the packet having passed from arrival to acceptance: both sequences follow it, its credit is granted, its cells are taken, it is the last
accepted (R61, R62, R63, R67); every other context is as it was. -/
def Entered (h : Hdr) (p : Pkt) (s u : State) : Prop :=
  (u.cx h.ctx).arrSeq = h.seq + 1 ∧ (u.cx h.ctx).accSeq = h.seq + 1 ∧ (u.cx h.ctx).ntfCredit = (s.cx h.ctx).ntfCredit + h.creditRet
    ∧ (u.cx h.ctx).inPut = (s.cx h.ctx).inPut + pktCells p ∧ LastIs p (u.cx h.ctx) ∧ ∀ c, c ≠ h.ctx → u.cx c = s.cx c

/-- A reply as R72 lays it out: SEQ, STATUS, DETAIL, FN, and the fields of its opcode behind the prefix. -/
def IsReply (d : DevPkt) (op : Nat) (seq : BitVec 16) (st : Status) (detail : Nat) (fn : Fn) (data : Rec) : Prop :=
  d.op = op ∧ d.reply = true ∧ rd d.payload 0 2 = seq.toNat ∧ rd d.payload 2 2 = statusCode st ∧ rd d.payload 4 2 = detail % 65536
    ∧ rd d.payload 8 4 = fn.toNat ∧ d.payload.drop 12 = data

/-- The context of an executed packet holds its reply as the last reply (R64). -/
def Replied (p : Pkt) (st : Status) (detail : Nat) (fn : Fn) (data : Rec) (u : State) : Prop :=
  ∃ d, (u.cx p.h.ctx).last = some { seq := p.h.seq, crc := pktCrc p, reply := some d } ∧ IsReply d p.op p.h.seq st detail fn data

/-- A reply leaves at the end of the output of the packet's context, where its port is up (R88), and is kept where the packet is still the last accepted (R63, R64). -/
def Answered (p : Pkt) (st : Status) (detail : Nat) (fn : Fn) (data : Rec) (s u : State) : Prop :=
  (s.portDown p.h.ctx = false → ∃ d, (u.cx p.h.ctx).out = (s.cx p.h.ctx).out ++ [d] ∧ IsReply d p.op p.h.seq st detail fn data)
    ∧ (LastIs p (s.cx p.h.ctx) → Replied p st detail fn data u)

/-- The cells of a packet are freed (R61, R66). -/
def Freed (p : Pkt) (s u : State) : Prop := (u.cx p.h.ctx).inRel = (s.cx p.h.ctx).inRel + pktCells p

/-- An opcode of the commit kind: accepted, it waits as a batch of its own for the commit point of its effect frame (R144, R155), its cells still taken; nothing else changes,
but that it ends a park entry (R589). -/
def Waits (o : OpSpec) (cmd : Hdr → Rec → Instr) (f : Rec → Rec) : Prop :=
  ∀ h b s, Accepted o h (f b) s → Sends (exec (cmd h b) s) (fun u =>
    u.closed = s.closed ++ [{ ctx := h.ctx, eff := (effectFrame s h.targetFn).2, targeted := decide (h.targetFn ≠ 0), members := [{ h := h, op := o.code, body := f b }] }]
      ∧ Entered h { h := h, op := o.code, body := f b } s u ∧ (u.cx h.ctx).inRel = (s.cx h.ctx).inRel ∧ Only [.ctxs, .closed, .pwr] s u)

/-- An opcode that reads a snapshot (R160) or the state at its execution (R686): accepted, it is answered at once with what its chapter lays out, drawn from the snapshot of its
frame or from the state; but for its context nothing changes. -/
def Tells (o : OpSpec) (cmd : Hdr → Rec → Instr) (f : Rec → Rec) : Prop :=
  ∀ h b s, Accepted o h (f b) s → Sends (exec (cmd h b) s) (fun u =>
    let p : Pkt := { h := h, op := o.code, body := f b }
    let e := entered o h (f b) s
    let x := o.run (reqOf h (f b) e) (if o.kind = .read then e.readView (readFrame s h.targetFn).2 else e)
    Entered h p s u ∧ Freed p s u ∧ Only [.ctxs] s u
      ∧ Replied p x.status x.detail (if o.kind = .read ∧ x.status = .ok then (readFrame s h.targetFn).2 else s.fn) x.data u)

/-- The state and the answer of an opcode that is executed at acceptance. -/
def ranAt (o : OpSpec) (h : Hdr) (b : Rec) (s : State) : Res := o.run (reqOf h b (entered o h b s)) (hostWake o h.ctx (entered o h b s))

/-- An opcode executed at acceptance: its effect stands at once; its outcome reaches the sender as a reply where it returns data, is asked for one or fails, as a
COMPLETION entry with NOTIFY_ONLY (R70); beside its effect nothing changes but its context and the queue of that entry. -/
def Acts (o : OpSpec) (cmd : Hdr → Rec → Instr) (f : Rec → Rec) : Prop :=
  ∀ h b s, Accepted o h (f b) s → Sends (exec (cmd h b) s) (fun u =>
    let p : Pkt := { h := h, op := o.code, body := f b }
    let x := ranAt o h (f b) s
    Entered h p s u ∧ Freed p s u ∧ Only [.ctxs, .qf] x.st u
      ∧ (h.notifyOnly = false → Only [.ctxs] x.st u
          ∧ (o.data = true ∨ h.wantReply = true ∨ (x.status ≠ .ok ∧ x.status ≠ .pending) → Replied p x.status x.detail s.fn x.data u))
      ∧ (h.notifyOnly = true → u.qf = (completion h.ctx h.seq o.code x.status x.detail x.data x.st).qf))

/-! ### Cesyn -/

/-- The command is the instruction that stands at PC of its core's program memory (R401, R414). -/
def Fetched (i : Instr) (op : CoreOp) (cut : Option Nat) (s : State) : Prop :=
  let k := s.core op.core
  let at_ (a : BitVec 16) : W24 := tget (fun _ => 0) k.prog a.toNat
  decodeCesyn op cut (at_ k.pc).toNat (at_ (k.pc + 1)) = some i

/-- A core takes an instruction: it runs a task with budget left, no SAFE trap waits, its fetch and its reads are sound, no REP is in progress (R193, R399, R413, R421). -/
def CoreReady (op : CoreOp) (s : State) : Prop :=
  let k := s.core op.core
  op.core < 4 ∧ op.ecc = 0 ∧ k.rep = none ∧ k.cycles < (coreEnv s op.core).budget ∧ ∃ t, k.run = some t ∧ (k.safe = 1 → ((s.taskDesc t).map tdSafe).getD 65535 = 65535)

/-- A core that is ready, and of which `h` holds, executes the instruction: `n` cycles, on at `pc`, `P` between the core before and after; no other core, no task, nothing
staged and nothing outside the cores changes, but that a free value may have been used. -/
def CoreRuns (i : Instr) (op : CoreOp) (n : Nat) (h : Core → Prop) (pc : Core → BitVec 16) (P : Core → Core → Prop) : Prop :=
  ∀ s, CoreReady op s → h (s.core op.core) → ∃ u, exec i s = .next u ∧ (u.core op.core).pc = pc (s.core op.core)
    ∧ (u.core op.core).cycles = (s.core op.core).cycles + n ∧ (u.core op.core).busy = (s.core op.core).busy + n ∧ P (s.core op.core) (u.core op.core)
    ∧ (∀ c, c ≠ op.core → u.core c = s.core c) ∧ u.ces.tasks = s.ces.tasks ∧ u.ces.staged = s.ces.staged ∧ Only [.ces, .free] s u

/-- No loop ends at an instruction of `w` words, and none of two words is the last of a loop (R412). -/
def InLine (w : Nat) (k : Core) : Prop := stBit k fLoop = true → k.pc + 1 ≠ k.le_ ∧ k.pc + BitVec.ofNat 16 w ≠ k.le_

/-- An instruction of `w` words in sequence. -/
def CoreStep (i : Instr) (op : CoreOp) (n w : Nat) (P : Core → Core → Prop) : Prop :=
  CoreRuns i op n (InLine w) (fun k => k.pc + BitVec.ofNat 16 w) P

/-- The instruction raises an ending trap (R418, R420): no core has changed when it is taken. -/
def CoreTraps (i : Instr) (op : CoreOp) (h : Core → Prop) (cause : Nat) : Prop :=
  ∀ s, CoreReady op s → h (s.core op.core) → ∃ u, exec i s = .next (endTrap op.core cause u) ∧ (∀ c, u.core c = s.core c) ∧ u.ces.tasks = s.ces.tasks
    ∧ u.ces.staged = s.ces.staged ∧ Only [.ces] s u

/-- Of the core only Dd, the flags C, V, Z, N and L, PC and the cycle counts change. -/
def AluTo (dd : Nat) (k k' : Core) : Prop :=
  k' = { k with d := k'.d, st := k'.st, pc := k'.pc, cycles := k'.cycles, busy := k'.busy } ∧ (∀ j, j % 8 ≠ dd % 8 → k'.dr j = k.dr j)
    ∧ ∀ b, 4 < b → k'.st.getLsbD b = k.st.getLsbD b

/-- Z and N of a value, L as it was. -/
def FlagsOf (v : W24) (k k' : Core) : Prop := stBit k' fZ = decide (v = 0) ∧ stBit k' fN = v.msb ∧ stBit k' fL = stBit k fL

/-- Dd takes the exact signed result `x`: wrapped to 24 bits, or with SAT replaced by its limit, which sets L; V says it overflows, Z and N follow Dd (R405). -/
def ResultTo (dd : Nat) (x : Int) (k k' : Core) : Prop :=
  let out := x < -8388608 ∨ 8388607 < x
  AluTo dd k k' ∧ stBit k' fV = decide out ∧ stBit k' fZ = decide (k'.dr dd = 0) ∧ stBit k' fN = (k'.dr dd).msb
    ∧ (¬out ∨ stBit k fSat = false → k'.dr dd = BitVec.ofInt 24 x ∧ stBit k' fL = stBit k fL)
    ∧ (stBit k fSat = true → x < -8388608 → k'.dr dd = 0x800000 ∧ stBit k' fL = true)
    ∧ (stBit k fSat = true → 8388607 < x → k'.dr dd = 0x7FFFFF ∧ stBit k' fL = true)

/-- Aa takes `x` modulo 2 to the 56, V says that its guard bits are not the sign extension of bit 47; no other accumulator, flag or register changes (R405). -/
def AccTo (aa : Nat) (x : Int) (k k' : Core) : Prop :=
  k' = { k with a := k'.a, st := k'.st, pc := k'.pc, cycles := k'.cycles, busy := k'.busy } ∧ (∀ j, j % 4 ≠ aa % 4 → k'.acc j = k.acc j)
    ∧ (∀ b, b ≠ 1 → k'.st.getLsbD b = k.st.getLsbD b) ∧ k'.acc aa = BitVec.ofInt 56 x ∧ stBit k' fV = guardOvf (BitVec.ofInt 56 x)

end Sys2Proof.Machine
end

