-- ==== Sys2Proof/Certificates/Slice0/Obligations.lean ====
section
/-! DEFINITION. The statements about the model that the provers prove. -/

open Sys2Proof Sys2Proof.Machine

/-- A step with a command in front of the queue is that command's effect on the state with the rest of the queue. -/
def Obligations.StepRunsTheCommandInFront : Prop :=
  ∀ (c : Instr) (rest : List Instr) (s : State), step { s with pending := c :: rest } = exec c { s with pending := rest }

/-- With an empty queue the model lets one tick of TB pass (DESIGN CHOICE, assumption log 1): TB increases by 1, and nothing
but the time base and the notification queues of timers changes. -/
def Obligations.IdleStepIsOneTick : Prop :=
  ∀ s : State, s.pending = [] → ∃ t, step s = .next t ∧ t.time.tb = s.time.tb + 1 ∧ Only [.time, .qf] s t

/-- After power-on reset: Anvil has epoch 0000h and last executed FN FFFFFFFFh, no channel and no sink is driven, every bridge coasts (R51); the two sequences of every context are 0000h
(R62); every unit has generation 0001h (R164). -/
def Obligations.ResetLeavesWhatTheSpecStates : Prop :=
  State.reset.anvil.epoch = 0 ∧ State.reset.anvil.lastFn = 0xFFFFFFFF
    ∧ (∀ n, (State.reset.chan n).drive = false ∧ (State.reset.chan n).level = false ∧ (State.reset.sink n).b = 0 ∧ (State.reset.bridge n).st = 0)
    ∧ (∀ c, (State.reset.cx c).accSeq = 0 ∧ (State.reset.cx c).devSeq = 0)
    ∧ (∀ t i, State.reset.gen t i = 1)

/-- A packet of any opcode that arrives whole and in sequence and fails one of the checks of steps 7 to 10: its sequence and its cells are consumed and returned, its credit is
granted, and beside its context (and, with NOTIFY_ONLY, the queue of its COMPLETION entry) nothing changes; the reply carries the status of the check that failed. -/
def Obligations.RefusedPacketChangesOnlyItsContext : Prop :=
  ∀ (o : OpSpec) (h : Hdr) (b : Rec) (s : State) (st : Status) (d : Nat), opSpec o.code = some o → Arrives o h b s → h.batch = false → (s.cx h.ctx).batch = none →
    checks o (decide (o.kind = .commit)) (reqOf h b (entered o h b s)) (entered o h b s) = some (st, d) → st ≠ .ok → st ≠ .pending →
    ∃ u, hostPacket o h b s = ethDrain u ∧ Entered h { h := h, op := o.code, body := b } s u ∧ Freed { h := h, op := o.code, body := b } s u ∧ Only [.ctxs, .qf] s u
      ∧ (h.notifyOnly = false → Only [.ctxs] s u ∧ Replied { h := h, op := o.code, body := b } st d s.fn [] u)

/-- A packet of an enabled context with malformed FLAGS, with a payload above 4,076 octets, with a SEQ that is not the next one and that does not repeat the last accepted packet, or
without cells for it, is refused with FORMAT, SEQUENCE or CREDIT: sequence, credit, cells, batch and last reply of the context are as they were, only the reply leaves (where the reply queue has a cell for it), and
every other part of the state is unchanged. -/
def Obligations.EarlyRefusalLeavesTheContext : Prop :=
  ∀ (o : OpSpec) (h : Hdr) (b : Rec) (s : State), h.ctx ≠ 0 → ctxEnabled (s.cx h.ctx) = true → s.hearthUp = true →
    let p : Pkt := { h := h, op := o.code, body := b }
    let x := s.cx h.ctx
    ∀ st d, ((h.wantReply = true ∧ h.notifyOnly = true ∧ st = .format ∧ d = 6)
        ∨ ((h.wantReply && h.notifyOnly) = false ∧ 4076 < b.length ∧ st = .format ∧ d = 8)
        ∨ ((h.wantReply && h.notifyOnly) = false ∧ b.length ≤ 4076 ∧ h.seq ≠ x.arrSeq ∧ (∀ l, x.last = some l → h.seq ≠ l.seq ∨ l.crc ≠ pktCrc p) ∧ st = .sequence ∧ d = x.arrSeq.toNat)
        ∨ ((h.wantReply && h.notifyOnly) = false ∧ b.length ≤ 4076 ∧ h.seq = x.arrSeq ∧ ctxFree x < pktCells p ∧ st = .credit ∧ d = ctxFree x)) →
    ∃ u, hostPacket o h b s = ethDrain u ∧ Only [.ctxs] s u ∧ (∀ c, c ≠ h.ctx → u.cx c = s.cx c)
      ∧ (u.cx h.ctx).arrSeq = x.arrSeq ∧ (u.cx h.ctx).accSeq = x.accSeq ∧ (u.cx h.ctx).inPut = x.inPut ∧ (u.cx h.ctx).inRel = x.inRel ∧ (u.cx h.ctx).ntfCredit = x.ntfCredit
      ∧ (u.cx h.ctx).batch = x.batch ∧ (u.cx h.ctx).last = x.last ∧ (u.cx h.ctx).waiting = x.waiting
      ∧ ((u.cx h.ctx).out = x.out ∨ ∃ r, (u.cx h.ctx).out = x.out ++ [r] ∧ IsReply r o.code h.seq st d s.fn [])
      ∧ (ctxReplyUsed x + x.resv + 1 ≤ 256 → s.portDown h.ctx = false → (u.cx h.ctx).out ≠ x.out)

/-- A packet with the SEQ and the CRC of the last accepted one: where its reply is kept, the stored reply goes out again under a new device SEQ with CREDIT_RET 0, and nothing is
executed; where none is kept (it is not answered yet, or no reply was due), nothing at all changes. -/
def Obligations.RetransmissionRepeatsTheReply : Prop :=
  ∀ (o : OpSpec) (h : Hdr) (b : Rec) (s : State) (r : Option DevPkt), h.ctx ≠ 0 → ctxEnabled (s.cx h.ctx) = true → s.hearthUp = true → (h.wantReply && h.notifyOnly) = false →
    b.length ≤ 4076 → (s.cx h.ctx).last = some { seq := h.seq, crc := pktCrc { h := h, op := o.code, body := b }, reply := r } → (s.cx h.ctx).arrSeq = h.seq + 1 →
    (r = none → hostPacket o h b s = ethDrain s)
    ∧ ∀ d, r = some d → ∃ u, hostPacket o h b s = ethDrain u ∧ Only [.ctxs] s u ∧ (∀ c, c ≠ h.ctx → u.cx c = s.cx c)
      ∧ (u.cx h.ctx).out = (s.cx h.ctx).out ++ [{ d with seq := (s.cx h.ctx).devSeq, creditRet := 0 }] ∧ (u.cx h.ctx).devSeq = (s.cx h.ctx).devSeq + 1
      ∧ (u.cx h.ctx).arrSeq = (s.cx h.ctx).arrSeq ∧ (u.cx h.ctx).accSeq = (s.cx h.ctx).accSeq ∧ (u.cx h.ctx).last = (s.cx h.ctx).last

/-- R155: of a member of an open batch only the closing packet's TARGET_FN counts, every other must carry 0 or is refused with FORMAT. For a closing packet in frame k with effect
frame E of 0 and TARGET_FN T, d = T - k and e = E - k modulo 2^32: STALE_TIME for d = 0, 1 <= d < e and d >= 2^31; frame T for e <= d <= 60,000; RANGE beyond. TARGET_FN 0 is
the earliest frame. -/
def Obligations.TargetFrameOfABatch : Prop :=
  (∀ (o : OpSpec) (n : Nat) (h : Hdr), n < 255 → o.solo = false → memberFault o n h = if h.batch = true ∧ h.targetFn ≠ 0 then some (.format, 12) else none)
    ∧ ∀ (s : State) (t : Fn),
      let k := s.fn
      let e := (effectFrame s 0).2
      let d := (t - k).toNat
      effectFrame s 0 = (.ok, e)
        ∧ (t ≠ 0 → (d = 0 ∨ (1 ≤ d ∧ d < (e - k).toNat) ∨ 2 ^ 31 ≤ d) → (effectFrame s t).1 = .staleTime)
        ∧ (t ≠ 0 → (e - k).toNat ≤ d → d ≤ 60000 → effectFrame s t = (.ok, t))
        ∧ (t ≠ 0 → 60000 < d → d < 2 ^ 31 → (effectFrame s t).1 = .range)

/-- A read accepted in frame k: TARGET_FN 0 is frame k; T with (k - T) <= 3 is frame T; T with (T - k) from 1 to 2^31 - 1 is RANGE; any other STALE_TIME. -/
def Obligations.SnapshotOfARead : Prop :=
  ∀ (s : State) (t : Fn),
    readFrame s 0 = (.ok, s.fn) ∧ (t ≠ 0 → (s.fn - t).toNat ≤ 3 → readFrame s t = (.ok, t))
      ∧ (t ≠ 0 → 3 < (s.fn - t).toNat → 1 ≤ (t - s.fn).toNat → (t - s.fn).toNat ≤ 2 ^ 31 - 1 → (readFrame s t).1 = .range)
      ∧ (t ≠ 0 → 3 < (s.fn - t).toNat → 2 ^ 31 - 1 < (t - s.fn).toNat → (readFrame s t).1 = .staleTime)

/-- At its commit point a batch of one packet whose opcode is known and whose recheck passes has the effect of its opcode on the version under construction, is counted in the allowance of
R684, frees its cells, and is answered with its first frame and its data as they stand after the commit: the answer leaves where the context's port is up, and is kept as the stored reply where no
later packet has been accepted. -/
def Obligations.BatchOfOneTakesEffect : Prop :=
  ∀ (o : OpSpec) (h : Hdr) (b : Rec) (e : Fn) (tg : Bool) (s : State),
    let p : Pkt := { h := h, op := o.code, body := b }
    let r : Req := memberReq e tg p
    opSpec o.code = some o → recheck o r (recheckView (batchMode [p]) s.com.chCfgNow p s) = none →
    let x := o.run r s
    let v := onCom (fun c => { c with allow := c.allow + o.recs r s }) x.st
    let u := commitBatch opSpec { ctx := h.ctx, eff := e, targeted := tg, members := [p] } s
    Only [.ctxs, .qf] v u ∧ Freed p v u ∧ (∀ c, c ≠ h.ctx → u.cx c = v.cx c)
      ∧ (h.notifyOnly = false → Only [.ctxs] v u
          ∧ (o.data = true ∨ h.wantReply = true ∨ (x.status ≠ .ok ∧ x.status ≠ .pending) → Answered p x.status x.detail e (o.fin { h := h, b := b, eff := e } v x.data) v u))

/-- A batch of one packet whose recheck fails: the version is built as if it had never existed, and the packet is answered with the status of the check. -/
def Obligations.BatchOfOneThatFails : Prop :=
  ∀ (o : OpSpec) (h : Hdr) (b : Rec) (e : Fn) (tg : Bool) (s : State) (st : Status) (d : Nat),
    let p : Pkt := { h := h, op := o.code, body := b }
    opSpec o.code = some o → recheck o (memberReq e tg p) (recheckView (batchMode [p]) s.com.chCfgNow p s) = some (st, d) →
    let u := commitBatch opSpec { ctx := h.ctx, eff := e, targeted := tg, members := [p] } s
    Only [.ctxs, .qf] s u ∧ Freed p s u ∧ (h.notifyOnly = false → Only [.ctxs] s u ∧ Answered p st d s.fn [] s u)

/-- COMMIT_POINT of a frame whose commit point has not passed, with Hearth up, completes: `v` holds the version built, `u` beside it the frame block handed to Tongs, and what waits on an
Ethernet port leaves last. Only the commit point passed is new in Hearth's clock; no batch that is due remains among the closed ones. The block is for the next frame, at its boundary,
under the epoch in force, with the committed state built; there is none while a rejoin is under way or where Hearth has stopped at this commit point. The batches due are applied one by
one, the first of them in the order of closing before the others; none is applied where none is due. -/
def Obligations.CommitPointBuildsTheVersion : Prop :=
  (∀ (s : State) (n : Nat), ((∀ b ∈ s.closed, dueNow s b = false) → commitDue n s = s)
    ∧ ∀ (pre post : List ClosedBatch) (b : ClosedBatch), s.closed = pre ++ b :: post → (∀ q ∈ pre, dueNow s q = false) → dueNow s b = true →
      commitDue (n + 1) s = commitDue n (commitBatch opSpec b { s with closed := pre ++ post }))
  ∧ ∀ s : State, s.hearthUp = true → s.clk.commitFn ≠ some s.fn → ∃ v u, exec .commitPoint s = .next (ethDrain u)
    ∧ v.clk = { s.clk with commitFn := some s.fn } ∧ (∀ b ∈ v.closed, dueNow s b = false)
    ∧ Only [.roles, .com, .blk, .anvil, .rep, .clk, .time, .sched, .ctxs, .qf, .closed, .snaps, .flt, .light, .bus, .pwr, .ces, .acc, .keys, .upd, .free, .link] s v
    ∧ v.link.step = s.link.step ∧ v.link.epoch = s.link.epoch ∧ Only [.blk, .link] v u
    ∧ (v.hearthUp = true → s.link.step = .idle → u.blk = some (s.link.epoch, s.fn + 1, s.clk.frameTb + 50000, v.com) ∧ u.link = { v.link with block := .waiting, blockSent := 0 })
    ∧ ((v.hearthUp = false ∨ s.link.step ≠ .idle) → u.blk = none ∧ u.link = { v.link with block := .no, blockSent := 0 })

/-- CTX_RESET accepted, of a context that is not being reset: it answers PENDING; the reset of the named context is noted with its requester, not yet started; beside the two contexts and what a
reply or an entry takes nothing changes. At the commit point the reset starts: no batch, no waiting packet and no earlier output of the context is left, its cells are free and
counted as returned, and what the discarded output carried of them returns to be carried later; each packet that waited is refused with BUSY where the reply queue has room; no closed
batch of it waits, and every unit it owned belongs to context 0 with its generation increased; units of others keep owner and generation. -/
def Obligations.ContextResetTakesEffect : Prop :=
  (∀ (h : Hdr) (b : Rec) (s : State), Accepted ctxResetSpec h b s → (s.cx (rd b 0 1)).reset = none → Sends (exec (.ctxReset h b) s) (fun u =>
      (u.cx (rd b 0 1)).reset = some { requester := h.ctx, reqSeq := h.seq, op := 0x0030, started := false, returned := 0, cfg := none, more := [] }
        ∧ (u.cx h.ctx).accSeq = h.seq + 1 ∧ Only [.ctxs, .qf, .pwr] s u ∧ (h.notifyOnly = false → Only [.ctxs, .pwr] s u)
        ∧ (h.notifyOnly = false → h.wantReply = true → Replied { h := h, op := 0x0030, body := b } .pending 0 s.fn [] u)))
    ∧ ∀ (c : Nat) (s : State) (r : CtxReset), c ≠ 0 → twf roleDef s.roles = true → (s.cx c).reset = some r → r.started = false →
      let t := resetStart c s
      (t.cx c).reset = some { r with started := true, returned := ctxUsed (s.cx c) } ∧ (t.cx c).batch = none ∧ (t.cx c).waiting = [] ∧ (t.cx c).resv = 0
        ∧ (∀ d ∈ (t.cx c).out, ∃ p ∈ (s.cx c).waiting, IsReply d p.op p.h.seq .busy 0 s.fn [])
        ∧ ((s.cx c).waiting = [] → (t.cx c).out = [] ∧ (t.cx c).creditRet = (s.cx c).creditRet + ctxUsed (s.cx c) + ((s.cx c).out.map (·.creditRet)).sum)
        ∧ (t.cx c).inRel = (s.cx c).inPut ∧ (∀ q ∈ t.closed, q.ctx ≠ c)
        ∧ (∀ k, ((s.role k).owner = c → (t.role k).owner = 0 ∧ (t.role k).gen = nextGen (s.role k).gen) ∧ ((s.role k).owner ≠ c → t.role k = s.role k))

/-- CTX_RESET_DONE of a reset that has started, its limbo list empty, no LIN frame still to come to it and Hearth up, where no CTX_CONFIG waits on it: both sequences of the context restart, no last reply is kept, the notification credit is 0, the
reset is over and the context's port, where it is up, has CTX_RESET_DONE under SEQ 0 as the packet added last to its output, before what waits on an Ethernet port leaves. -/
def Obligations.ContextResetEnds : Prop :=
  ∀ (c : Nat) (s : State) (r : CtxReset), (s.cx c).reset = some r → r.started = true → r.cfg = none → ctxLimbo s (s.cx c) = 0 → limboDue s c = false → s.hearthUp = true →
    ∃ u, exec (.ctxResetDone c) s = .next (ethDrain u) ∧ (u.cx c).accSeq = 0 ∧ (u.cx c).arrSeq = 0 ∧ (u.cx c).last = none ∧ (u.cx c).reset = none ∧ (u.cx c).ntfCredit = 0
      ∧ (s.portDown c = false → ∃ d, (u.cx c).out = (s.cx c).out ++ [d] ∧ d.seq = 0 ∧ d.creditRet = (s.cx c).creditRet ∧ rd d.payload 0 2 = 3)
      ∧ (∀ d, d ≠ c → u.cx d = s.cx d) ∧ Only [.ctxs, .qf] s u

/-- BATCH_TIMEOUT of a batch open for 1,000 frames: the batch is gone, with no effect on any unit, and the room reserved for its replies is free. PACKET_ACCEPT of the first waiting packet of a context: where the share of the context
and the room in its reply queue admit it, it leaves the waiting packets, is charged to the share and is accepted; else the context stays as it is. -/
def Obligations.WaitingPacketsAndOpenBatches : Prop :=
  (∀ (c : Nat) (s : State) (b : Batch), (s.cx c).batch = some b → s.hearthUp = true → 1000 ≤ (s.fn - b.first).toNat → (s.fn - b.first).toNat < 2 ^ 31 →
      ∃ u, exec (.batchTimeout c) s = .next (ethDrain u) ∧ (u.cx c).batch = none ∧ (u.cx c).resv = (s.cx c).resv - (b.members.map (replyRoom opSpec)).sum ∧ Only [.time, .ctxs, .qf] s u)
    ∧ (∀ (c : Nat) (s : State) (p : Pkt) (l : List Pkt), c ≠ 0 → c < 16 → s.hearthUp = true → (s.cx c).waiting = p :: l → ctxResetting (s.cx c) = false →
      (shareAdmits c (20 + p.body.length) s = true → ctxReplyUsed (s.cx c) + (s.cx c).resv + replyRoom opSpec p ≤ 256 →
          exec (.packetAccept c) s = .next (ethDrain (acceptPkt opSpec p (chargeShare c (20 + p.body.length) (onCtx c (fun x => { x with waiting := l }) s)))))
        ∧ (shareAdmits c (20 + p.body.length) s = false → exec (.packetAccept c) s = .next (ethDrain s)))

/-- HEARTH_FRAME_START with Hearth up and no activation deferred: FN increases by 1, the TB of the frame by 50,000; the snapshot of the frame is kept first, with at most three before it, and shows
the committed state and the roles. -/
def Obligations.HearthFrameStarts : Prop :=
  ∀ (temps : List Int) (proc : List Nat) (bad : Nat) (s : State), s.hearthUp = true → s.upd.defer = none →
    ∃ t, exec (.hearthFrameStart temps proc bad) s = .next t ∧ t.clk = { s.clk with fn := s.fn + 1, frameTb := s.clk.frameTb + 50000 }
      ∧ (∃ n, t.snaps = n :: s.snaps.take 3 ∧ n.fn = s.fn + 1 ∧ n.frameTb = s.clk.frameTb + 50000 ∧ n.com = t.com ∧ n.roles = t.roles)
      ∧ t.pending = s.pending ∧ t.closed = s.closed ∧ t.keys = s.keys ∧ t.blk = s.blk

/-- PING is executed at acceptance and echoes its payload behind the current TB; GET_INFO reads the snapshot, 40 octets from the product code on; UNIT_CLAIM and CTX_CONFIG wait for the commit
point. There UNIT_CLAIM gives the named unit to its new owner with the next generation, and leaves every unit but that and the partner of a bridge pair as it is; one that names the present
owner changes nothing (R165); CTX_CONFIG of a disabled context puts its record in force and in the store; of an enabled one it starts a reset that carries the record. -/
def Obligations.SystemOpcodes : Prop :=
  Acts pingSpec .ping id ∧ Tells getInfoSpec .getInfo id ∧ Waits unitClaimSpec .unitClaim id ∧ Waits ctxConfigSpec .ctxConfig id
    ∧ (∀ (r : Req) (s : State), let x := pingSpec.run r s
      x.st = s ∧ x.status = .ok ∧ rd x.data 0 6 = s.tbNow.toNat ∧ x.data.drop 8 = r.b)
    ∧ (∀ (r : Req) (s : State), let x := getInfoSpec.run r s
      x.status = .ok ∧ rd x.data 0 2 = 0x6418 ∧ rd x.data 22 2 = s.link.epoch.toNat ∧ rd x.data 24 6 = s.clk.frameTb.toNat ∧ x.data.length = 40)
    ∧ (∀ (r : Req) (s : State), let t := (unitClaimSpec.run r s).st
      let ty := rd r.b 0 1
      let i := unitIx r.b
      (s.owner ty i = rd r.b 6 1 → t = s) ∧ (t.role (ukey ty i)).owner = rd r.b 6 1
        ∧ (s.owner ty i ≠ rd r.b 6 1 → (t.role (ukey ty i)).gen = nextGen (s.gen ty i))
        ∧ (∀ k, k ≠ ukey ty i → (∀ p, bridgePartner s ty i = some p → k ≠ ukey ty p) → t.role k = s.role k) ∧ Only [.roles, .qf, .bus] s t)
    ∧ (∀ (r : Req) (s : State), let t := (ctxConfigSpec.run r s).st
      let c := rd r.b 0 1
      (ctxEnabled (s.cx c) = false → (t.cx c).cfg = r.b ∧ tget (fun _ => zeros 16) t.com.ctxCfg c = r.b ∧ (ctxConfigSpec.run r s).status = .ok)
        ∧ (ctxEnabled (s.cx c) = true → (∃ x, (t.cx c).reset = some x ∧ x.cfg = some r.b ∧ x.requester = r.h.ctx ∧ x.started = false) ∧ (ctxConfigSpec.run r s).status = .pending)
        ∧ ∀ d, d ≠ c → t.cx d = s.cx d)

/-- MEM_READ answers 16 octets for each line of a region; MEM_WRITE waits for the commit point. There the octets written to lines of a program or data memory of a Cesyn core are read back from their
places, every other octet of that memory is unchanged, and no other core is touched; lines of the settings store read back the octets written. -/
def Obligations.DiagnosticSpace : Prop :=
  Tells memReadSpec .memRead id ∧ Waits memWriteSpec .memWrite id
    ∧ (∀ (r : Req) (s : State) (base : Nat) (g : MemRegion), memRegion (memLine r.b) (memCount r.b) = some (base, g) →
      (memReadSpec.run r s).data.length = 16 * memCount r.b
        ∧ ∀ i, i < 16 * memCount r.b → (memReadSpec.run r s).data[i]? = some (memOctet s s.fn g (16 * (memLine r.b - base) + i) (16 * memLine r.b + i)))
    ∧ (∀ (r : Req) (s : State) (base c : Nat), r.b.length = 4 + 16 * memCount r.b →
      let off := 16 * (memLine r.b - base)
      let t := (memWriteSpec.run r s).st
      (memRegion (memLine r.b) (memCount r.b) = some (base, .program c) →
        (∀ j, j < 16 * memCount r.b → some (wordOctet (t.core c).prog (off + j)) = r.b[4 + j]?)
          ∧ (∀ j, (j < off ∨ off + 16 * memCount r.b ≤ j) → wordOctet (t.core c).prog j = wordOctet (s.core c).prog j)
          ∧ (t.core c).data = (s.core c).data ∧ (∀ d, d ≠ c → t.core d = s.core d) ∧ Only [.ces] s t)
      ∧ (memRegion (memLine r.b) (memCount r.b) = some (base, .data c) →
        (∀ j, j < 16 * memCount r.b → some (wordOctet (t.core c).data (off + j)) = r.b[4 + j]?)
          ∧ (∀ j, (j < off ∨ off + 16 * memCount r.b ≤ j) → wordOctet (t.core c).data j = wordOctet (s.core c).data j)
          ∧ (t.core c).prog = (s.core c).prog ∧ (∀ d, d ≠ c → t.core d = s.core d) ∧ Only [.ces] s t)
      ∧ (memRegion (memLine r.b) (memCount r.b) = some (base, .settings c) →
        (∀ j, j < 16 * memCount r.b → tget storeDef t.upd.store (16 * memLine r.b + j) = r.b[4 + j]?) ∧ Only [.upd] s t))

/-- MODE_SELECT waits for the commit point, where the mode of the version, the stored mode and the switch of its effect frame are those it names, and each channel whose new disposition is FORCE_OFF is
committed off by its control mode (an output off, a coil released, a bridge braked); SCHED_STATUS and SCHED_UNIT read the snapshot; SCHED_CHECK is
noted to run and answers PENDING. -/
def Obligations.ScheduleOpcodes : Prop :=
  Waits modeSelectSpec .modeSelect id ∧ Tells schedStatusSpec .schedStatus id ∧ Tells schedUnitSpec .schedUnit id ∧ Acts schedCheckSpec .schedCheck id
    ∧ (∀ (r : Req) (s : State), let x := modeSelectSpec.run r s
      let m := rd r.b 0 1
      x.status = .ok ∧ x.st.com.mode = m ∧ x.st.sched.storedMode = m ∧ x.st.sched.switchTo = some (m, r.eff) ∧ x.st.sched.img = s.sched.img ∧ rd x.data 0 1 = m
        ∧ (∀ n, n < 64 → (chanEnt s.sched.img m n).disp = 3 →
            (cfMode (s.com.chCfgOf n) ≤ 2 → (x.st.com.chOf n).on = false) ∧ (cfMode (s.com.chCfgOf n) = 3 → (x.st.com.indOf n).engage = false)
              ∧ (cfMode (s.com.chCfgOf n) = 4 → 48 ≤ n → n % 2 = 0 → (x.st.com.brOf ((n - 48) / 2)).drive = 1)) ∧ x.st.com.chCfg = s.com.chCfg ∧ Only [.com, .sched, .qf] s x.st)
    ∧ (∀ (r : Req) (s : State), (schedStatusSpec.run r s).data.length = 32 ∧ rd (schedStatusSpec.run r s).data 4 1 = s.com.mode % 256)
    ∧ (∀ (r : Req) (s : State), rd r.b 0 1 = 1 → (schedUnitSpec.run r s).data.length = 12
        ∧ rd (schedUnitSpec.run r s).data 0 1 = (chanEnt s.sched.img (rd r.b 6 1) (unitIx r.b)).disp % 256)
    ∧ (∀ (r : Req) (s : State), (schedCheckSpec.run r s).st.sched.check = some (r.h.ctx, r.h.seq, rd r.b 0 1) ∧ (schedCheckSpec.run r s).status = .pending)

/-- Q_CONFIG waits for the commit point; Q_PUSH, Q_READ, Q_MARK, Q_REWIND and Q_RELEASE act at acceptance; Q_STATUS and Q_AUDIT read the state. Q_CONFIG puts its record in force and takes the next
generation exactly where MODE or an endpoint changes; every other queue but the notification queue of its host keeps its
record, its cells and its positions; Q_PUSH changes no configuration. -/
def Obligations.QueueOpcodes : Prop :=
  Waits qConfigSpec .qConfig id ∧ Acts qPushSpec .qPush id ∧ Acts qReadSpec .qRead id ∧ Acts qMarkSpec .qMarkSet (fun b => setField b 6 0 8 0)
    ∧ Acts qMarkSpec .qMarkClear (fun b => setField b 6 0 8 1) ∧ Acts qRewindSpec .qRewind id ∧ Acts qReleaseSpec .qRelease (fun b => setField b 10 0 1 0)
    ∧ Acts qReleaseSpec .qReleaseToLimit (fun b => setField b 10 0 1 1) ∧ Tells qStatusSpec .qStatus id ∧ Tells qAuditSpec .qAudit id
    ∧ (∀ (r : Req) (s : State), let q := unitIx r.b
      let new := sub r.b 8 16
      let old := (s.queue q).cfg
      let t := (qConfigSpec.run r s).st
      48 ≤ q → (t.queue q).cfg = new
        ∧ t.gen 3 q = (if qMode old ≠ qMode new ∨ qProducer old ≠ qProducer new ∨ qConsumer old ≠ qConsumer new then nextGen (s.gen 3 q) else s.gen 3 q)
        ∧ t.owner 3 q = s.owner 3 q ∧ (∀ p, p ≠ q → (∀ h, qHost new = some h → p ≠ 32 + h) → t.queue p = s.queue p) ∧ Only [.roles, .qf] s t)
    ∧ (∀ (r : Req) (s : State), let q := unitIx r.b
      (∀ p, p ≠ q → (∀ h, qHost (s.qcfg q) = some h → p ≠ 32 + h) → (qPushSpec.run r s).st.queue p = s.queue p) ∧ Only [.qf] s (qPushSpec.run r s).st
        ∧ ((qPushSpec.run r s).st.queue q).cfg = (s.queue q).cfg)
    ∧ (∀ (r : Req) (s : State), (s.qcfg (unitIx r.b)).length = 16 → (qStatusSpec.run r s).data.length = 52 ∧ (qStatusSpec.run r s).data.take 16 = s.qcfg (unitIx r.b))

/-- R131: MARK sets MARK to READ and sets MARK_SET, MARK with CLEAR clears MARK_SET, REWIND sets READ to MARK and leaves the mark set; each leaves the cells, REL and PUT and every other queue as they are. A
REWIND with no mark set is refused with STATE by its check of step 10. -/
def Obligations.MarkAndRewind : Prop :=
  ∀ (r : Req) (s : State), let q := unitIx r.b
    let x := s.queue q
    let m := (qMarkSpec.run r s).st
    let w := (qRewindSpec.run r s).st
    (rd r.b 6 1 = 0 → (m.queue q).mark = x.read ∧ (m.queue q).markSet = true ∧ (m.queue q).read = x.read)
      ∧ (rd r.b 6 1 = 1 → (m.queue q).markSet = false ∧ (m.queue q).read = x.read)
      ∧ (w.queue q).read = x.mark ∧ (w.queue q).mark = x.mark ∧ (w.queue q).markSet = x.markSet
      ∧ (x.markSet = false → qRewindSpec.check r s = some (.state, 0)) ∧ (x.markSet = true → qRewindSpec.check r s = none)
      ∧ (m.queue q).cells = x.cells ∧ (m.queue q).rel = x.rel ∧ (m.queue q).put = x.put ∧ (w.queue q).cells = x.cells ∧ (w.queue q).rel = x.rel ∧ (w.queue q).put = x.put
      ∧ (∀ p, p ≠ q → m.queue p = s.queue p ∧ w.queue p = s.queue p) ∧ Only [.qf] s m ∧ Only [.qf] s w

/-- Q_READ of a queue whose positions are in order answers the visible cells from READ on, as many as asked for and present, and moves READ past them; the cells stay. Q_RELEASE to a position p frees exactly
the cells from REL to p; with TO_LIMIT the cells up to the last entry boundary within READ and the mark. Both keep the positions in order. -/
def Obligations.ReadAndRelease : Prop :=
  ∀ (r : Req) (s : State), let q := unitIx r.b
    let x := s.queue q
    x.posOk = true →
    (let k := min (rd r.b 6 1) (qReadable x (qCut (s.qcfg q)))
     let n0 := (x.read - x.rel).toNat
     let y := qReadSpec.run r s
     (y.st.queue q).read = x.read + BitVec.ofNat 32 k ∧ (y.st.queue q).cells = x.cells ∧ (y.st.queue q).rel = x.rel ∧ rd y.data 0 4 = x.read.toNat
       ∧ y.data.drop 8 = ((x.cells.drop n0).take k).flatMap cellOctets ∧ (y.st.queue q).posOk = true)
    ∧ (let p := BitVec.ofNat 32 (rd r.b 6 4)
       let n := (p - x.rel).toNat
       let y := qReleaseSpec.run r s
       bit (rd r.b 10 1) 0 = false → qReleaseSpec.check r s = none →
         (y.st.queue q).rel = p ∧ (y.st.queue q).cells = x.cells.drop n ∧ (y.st.queue q).read = x.read ∧ (y.st.queue q).put = x.put ∧ (y.st.queue q).posOk = true)
    ∧ (let n := qBoundary x (qLimitCells x)
       let y := qReleaseSpec.run r s
       bit (rd r.b 10 1) 0 = true → n ≤ qLimitCells x ∧ (y.st.queue q).cells = x.cells.drop n ∧ (y.st.queue q).rel = x.rel + BitVec.ofNat 32 n
         ∧ qIsBoundary x n = true ∧ (y.st.queue q).posOk = true)

/-- An item of a queue's limits arrives: where its first cell is admitted it adds its cells at PUT, in order, all of them where the queue has room for them and one more; an item that is too long or whose
first cell is not admitted leaves every cell but an open gap marker as it was, and DROP_TOTAL counts it. -/
def Obligations.ItemsEnterQueues : Prop :=
  ∀ (lim maxc : Nat) (tb : Tb) (fn : Fn) (chunks : List Rec) (q : Queue), chunks ≠ [] →
    (chunks.length ≤ maxc → qCharged q + chunks.length + 1 ≤ lim →
      let y := qPush lim maxc tb fn chunks q
      y.2 = false ∧ y.1.cells.length = q.cells.length + chunks.length ∧ y.1.cells.take q.cells.length = q.cells ∧ y.1.put = q.put + BitVec.ofNat 32 chunks.length
        ∧ (y.1.cells.drop q.cells.length).map (·.data) = chunks ∧ (y.1.cells.getLast?.map (·.last)) = some true ∧ y.1.dropTotal = q.dropTotal ∧ y.1.gapOpen = false)
    ∧ ((maxc < chunks.length ∨ lim ≤ qCharged q + 1) →
      let y := qPush lim maxc tb fn chunks q
      y.2 = true ∧ y.1.dropTotal = q.dropTotal + 1 ∧ y.1.gapOpen = true ∧ y.1.read = q.read ∧ y.1.rel = q.rel
        ∧ (q.gapOpen = false → y.1.cells.take q.cells.length = q.cells ∧ y.1.cells.length = q.cells.length + 1 ∧ y.1.put = q.put + 1)
        ∧ (q.gapOpen = true → y.1.cells.length = q.cells.length ∧ y.1.put = q.put))

/-- CH_CONFIG, CH_SET, CH_CLEAR_DIAG and LH_CONFIG wait for the commit point; CH_STATUS and LH_STATUS read the snapshot. At the commit CH_CONFIG puts its record in force and takes the next generation exactly where
the control mode changes; CH_SET commits the output on or off, with its duty where it does not keep it, answers OK, or LATE where a named frame is no start frame, and the frame in
which it applies; CH_CLEAR_DIAG clears the diagnostics of its mask, at Anvil and as Hearth knows it; LH_CONFIG puts its table in force. No other channel and no other part of the
state changes but the partner of a bridge pair and a light commit that CH_SET takes over. -/
def Obligations.ChannelOpcodes : Prop :=
  Waits chConfigSpec .chConfig id ∧ Waits chSetSpec .chSet id ∧ Tells chStatusSpec .chStatus id ∧ Waits chClearDiagSpec .chClearDiag id ∧ Waits lhConfigSpec .lhConfig id
    ∧ Tells lhStatusSpec .lhStatus id
    ∧ (∀ (r : Req) (s : State), let n := unitIx r.b
      let c := sub r.b 8 16
      let t := (chConfigSpec.run r s).st
      (pairMoves s n (cfMode c) = false →
        t.com.chCfgOf n = c ∧ t.gen 1 n = (if cfMode c = cfMode (s.com.chCfgOf n) then s.gen 1 n else nextGen (s.gen 1 n)) ∧ t.owner 1 n = s.owner 1 n
          ∧ (∀ m, m ≠ n → t.com.chCfgOf m = s.com.chCfgOf m ∧ t.com.chOf m = s.com.chOf m) ∧ (∀ k, k ≠ ukey 1 n → t.role k = s.role k) ∧ Only [.roles, .com] s t))
    ∧ (∀ (r : Req) (s : State), let n := unitIx r.b
      let x := chSetSpec.run r s
      let f := applyFn s n r.eff
      (x.st.com.chOf n).on = bit (rd r.b 6 1) 0 ∧ (x.st.com.chOf n).dset = (if bit (rd r.b 6 1) 1 then (s.com.chOf n).dset else rd r.b 8 2)
        ∧ (∀ m, m ≠ n → x.st.com.chOf m = s.com.chOf m) ∧ x.st.com.chCfg = s.com.chCfg ∧ Only [.com, .light] s x.st
        ∧ (x.status, x.detail) = (if r.h.targetFn ≠ 0 ∧ f ≠ r.eff then (.late, satN 65535 (f - r.eff).toNat) else (.ok, 0))
        ∧ x.data.length = 12 ∧ rd x.data 8 4 = f.toNat)
    ∧ (∀ (r : Req) (s : State), let n := unitIx r.b
      let t := (chClearDiagSpec.run r s).st
      (t.chan n).diag = clrMask (s.chan n).diag (rd r.b 6 2) ∧ (∀ m, m ≠ n → t.chan m = s.chan m) ∧ Only [.anvil, .rep] s t)
    ∧ (∀ (r : Req) (s : State), (lhConfigSpec.run r s).st.com.lhCfg = r.b ∧ Only [.com] s (lhConfigSpec.run r s).st)
    ∧ (∀ (r : Req) (s : State), rd (chStatusSpec.run r s).data 0 2 = (s.gen 1 (unitIx r.b)).toNat ∧ rd (chStatusSpec.run r s).data 2 1 = s.owner 1 (unitIx r.b) % 256)
    ∧ (∀ (r : Req) (s : State), (lhStatusSpec.run r s).data.drop 8 = s.com.lhCfg)

/-- LAMP_PERIOD_START of a driven LAMP channel with no protection hold, its period beginning within the frame: the duty applied is that of the zone voltage, or the duty set where none is valid; a
duty below the shortest pulse leaves the output off, any other turns it on with its end in sight, none where the pulse fills the period. DIR_EDGE records the level of the input; the one
channel that follows it takes the level at once where its last edge lies 10 us back or more, else its edge is deferred until then; with no follower no channel changes. PIN_EDGE_DEFERRED
counts a short pulse where the input has returned, else it applies the level. OFF_DIAG_STEP_B of a channel under test: an output at 4 V or above counts towards an open load, any other
restarts the count; the second in a row latches the flag. -/
def Obligations.ChannelEvents : Prop :=
  (∀ (n : Nat) (vz : Option Nat) (s : State), s.modeA n = 2 → (s.chan n).drive = true → protHolds (s.chan n).prot = false → s.tickA + lampToNext s n < 50000 →
      let da := match vz with | none => (lampDset s n, false) | some v => lampDuty (lampDset s n) (cfVref (s.cfA n)) v
      let t := lampPeriod s n
      let on := lampOnTime da.1 t
      ∃ u, exec (.lampPeriodStart n vz) s = .next u ∧ (u.chan n).da = da.1 ∧ (u.chan n).level = decide (on ≠ 0) ∧ (u.chan n).drive = true
        ∧ (u.chan n).lampOff = (if on = 0 ∨ on = t then none else some (u.tbNow + BitVec.ofNat 48 on)) ∧ (∀ m, m ≠ n → u.chan m = s.chan m) ∧ Only [.anvil, .time, .qf, .free] s u)
    ∧ (∀ (i : Nat) (level : Bool) (s : State), (∀ n, n < 64 → followsDir s i n = false) →
      ∃ u, exec (.dirEdge i level) s = .next u ∧ u.anvil.limp.dir = (if level then setBit s.anvil.limp.dir i else clrBit s.anvil.limp.dir i) ∧ u.anvil.ch = s.anvil.ch
        ∧ Only [.anvil, .time, .qf] s u)
    ∧ (∀ (n i : Nat) (level : Bool) (s : State),
      n < 64 → followsDir s i n = true → (∀ m, m < 64 → m ≠ n → followsDir s i m = false) → (s.chan n).edgeAt = none →
        let b := if level then setBit s.anvil.limp.dir i else clrBit s.anvil.limp.dir i
        let lv := bit b i != cfDirInv (s.cfA n)
        ∃ u, exec (.dirEdge i level) s = .next u ∧ u.anvil.limp.dir = b ∧ (∀ m, m ≠ n → u.chan m = s.chan m)
          ∧ (isPast s.tbNow ((s.chan n).lastEdge + 500) = true → (u.chan n).level = lv)
          ∧ (isPast s.tbNow ((s.chan n).lastEdge + 500) = false → lv ≠ (s.chan n).level →
              (u.chan n).level = (s.chan n).level ∧ (u.chan n).edgeAt = some ((s.chan n).lastEdge + 500)))
    ∧ (∀ (n : Nat) (t : Tb) (s : State), (s.chan n).edgeAt = some t →
      (dirLevel s n = (s.chan n).level → ∃ u, exec (.pinEdgeDeferred n) s = .next u ∧ (u.chan n).dirShort = (s.chan n).dirShort + 1 ∧ (u.chan n).edgeAt = none
          ∧ (u.chan n).level = (s.chan n).level)
        ∧ (dirLevel s n ≠ (s.chan n).level → followsDir s (cfDirSel (s.cfA n)) n = true →
            ∃ u, exec (.pinEdgeDeferred n) s = .next u ∧ (u.chan n).level = dirLevel s n ∧ (u.chan n).edgeAt = none ∧ (u.chan n).dirShort = (s.chan n).dirShort))
    ∧ (∀ (n vout : Nat) (s : State), (s.chan n).testing = true →
      (vout < 400 → ∃ u, exec (.offDiagStepB n vout) s = .next u ∧ (u.chan n).offOpen = 0 ∧ (u.chan n).testing = false ∧ (u.chan n).diag = (s.chan n).diag ∧ Only [.anvil, .time, .qf] s u)
        ∧ (400 ≤ vout → (s.chan n).offOpen = 0 →
            ∃ u, exec (.offDiagStepB n vout) s = .next u ∧ (u.chan n).offOpen = 1 ∧ (u.chan n).testing = false ∧ (u.chan n).diag = (s.chan n).diag ∧ Only [.anvil, .time, .qf] s u)
        ∧ (400 ≤ vout → (s.chan n).offOpen ≠ 0 →
            ∃ v, exec (.offDiagStepB n vout) s = .next (latchDiag n 1 v) ∧ (v.chan n).offOpen = (s.chan n).offOpen + 1 ∧ (v.chan n).testing = false
              ∧ (v.chan n).diag = (s.chan n).diag ∧ Only [.anvil, .time, .qf] s v))

/-- LH_N_CHANGE to a new level records it: low brings the channel of every valid entry under limp-home; high, with RESET_N not stuck, releases each channel that is under limp-home by LH_N alone, as
adopted, at the level it has; high with RESET_N stuck releases none. LHIN_CHANGE records the level of the input, and FLASH_TOGGLE, while an active entry under limp-home flashes, turns the clock
over, its next change 330 ms after this one. ORPHAN_HOLD_EXPIRY of a channel that holds lets it follow its policy: limp-home where it has an entry, else a SCHED, PIN or LAMP channel
that no safe state holds turns off. SINK_HOLD_EXPIRY turns its sink off and reports it; ACT_HOLD_LAPSE ends the hold of an activation. -/
def Obligations.LimpHomeAndHoldEvents : Prop :=
  (∀ (high : Bool) (s : State), ∃ t, exec (.lhNChange high) s = .next t ∧ t.anvil.limp.lhN = high ∧ (s.anvil.limp.lhN = high → t = s)
      ∧ (s.anvil.limp.lhN = true → high = false → ∀ e, e < 16 → lhValid s.anvil.vals.lhCfg e = true → (t.chan (lhChannel s.anvil.vals.lhCfg e)).limp = true)
      ∧ (s.anvil.limp.lhN = false → high = true → s.anvil.limp.stuck = true → t.anvil.ch = s.anvil.ch)
      ∧ (s.anvil.limp.lhN = false → high = true → s.anvil.limp.stuck = false → (∀ n, (t.chan n).level = (s.chan n).level)
          ∧ ∀ e, e < 16 → lhValid s.anvil.vals.lhCfg e = true → let n := lhChannel s.anvil.vals.lhCfg e
              (s.chan n).limp = true → (s.chan n).orphan ≠ 2 → (s.chan n).safe = false → (t.chan n).limp = false ∧ (t.chan n).adopted = true))
    ∧ (∀ (i : Nat) (high : Bool) (s : State), ∃ t, exec (.lhinChange i high) s = .next t ∧ t.anvil.limp.lhin = (if high then setBit s.anvil.limp.lhin i else clrBit s.anvil.limp.lhin i)
        ∧ t.anvil.limp.lhN = s.anvil.limp.lhN ∧ Only [.anvil, .time, .qf, .free] s t)
    ∧ (∀ s : State, ∃ t, exec .flashToggle s = .next t ∧ (s.anvil.limp.flashRun = false → t = s) ∧ Only [.anvil, .time, .qf, .free] s t
        ∧ ∀ e, e < 16 → s.anvil.limp.flashRun = true → lhValid s.anvil.vals.lhCfg e = true → lhFlash s.anvil.vals.lhCfg e = true → lhActive s.anvil.limp s.anvil.vals.lhCfg e = true →
            (s.chan (lhChannel s.anvil.vals.lhCfg e)).limp = true →
            t.anvil.limp.flashRun = true ∧ t.anvil.limp.flashOn = !s.anvil.limp.flashOn ∧ t.anvil.limp.flashNext = s.anvil.limp.flashNext + msTicks 330)
    ∧ (∀ (n : Nat) (t : Tb) (s : State), (s.chan n).holdEnd = some t → (s.chan n).orphan = 1 → ∃ u, exec (.orphanHoldExpiry n) s = .next u ∧ (u.chan n).holdEnd = none
        ∧ (u.chan n).orphan = (if (lhEntry s.anvil.vals.lhCfg n).isSome then 2 else 3) ∧ ((lhEntry s.anvil.vals.lhCfg n).isSome = true → (u.chan n).limp = true)
        ∧ (lhEntry s.anvil.vals.lhCfg n = none → s.modeA n ≠ 3 → s.modeA n ≠ 4 → safeAbove s n = false →
            (u.chan n).drive = false ∧ (u.chan n).level = false ∧ (∀ m, m ≠ n → u.chan m = s.chan m))
        ∧ Only [.anvil, .time, .qf, .free] s u)
    ∧ (∀ (t : Tb) (s : State), s.anvil.actHoldEnd = some t → ∃ u, exec .actHoldLapse s = .next u ∧ u.anvil.actHold = false ∧ u.anvil.actHoldEnd = none ∧ u.anvil.ch = s.anvil.ch
        ∧ Only [.anvil, .time, .qf] s u)
    ∧ (∀ (n : Nat) (t : Tb) (s : State), (s.sink n).holdEnd = some t → ∃ u, exec (.sinkHoldExpiry n) s = .next u ∧ (u.sink n).b = 0 ∧ (u.sink n).orphan = 3 ∧ (u.sink n).holdEnd = none
        ∧ (u.sink n).report = true ∧ (∀ m, m ≠ n → u.sink m = s.sink m) ∧ Only [.anvil, .time, .qf] s u)

/-- CH_PROT_CONFIG and CH_CLEAR_PROT wait for the commit point, CH_PROT_STATUS and SUPPLY_STATUS read the snapshot. CH_PROT_CONFIG puts its record in force and changes nothing else. CH_CLEAR_PROT clears the flags of
its mask as Hearth knows them and hands the clear, numbered, to the versions that follow, with one that Anvil has not executed yet. Anvil executes a clear once: on a channel that is not
under limp-home it clears the flags, gives the retries of the channel, or of its bridge pair, back where OC_LATCH was set and in the mask, and leaves drive and level and every
other channel as they are. -/
def Obligations.ProtectionOpcodes : Prop :=
  Waits chProtConfigSpec .chProtConfig id ∧ Waits chClearProtSpec .chClearProt id ∧ Tells chProtStatusSpec .chProtStatus id ∧ Tells supplyStatusSpec .supplyStatus id
    ∧ (∀ (r : Req) (s : State), let n := unitIx r.b
      let t := (chProtConfigSpec.run r s).st
      t.com.protOf n = sub r.b 8 16 ∧ (∀ m, m ≠ n → t.com.protOf m = s.com.protOf m) ∧ t.com.ch = s.com.ch ∧ Only [.com] s t)
    ∧ (∀ (r : Req) (s : State), let n := unitIx r.b
      let m := rd r.b 6 2
      let k := tget clrDef s.com.clrProt n
      let t := (chClearProtSpec.run r s).st
      (tget chanDef t.rep.ch n).prot = clrMask (tget chanDef s.rep.ch n).prot (m &&& 0x4A) ∧ (∀ j, j ≠ n → tget chanDef t.rep.ch j = tget chanDef s.rep.ch j)
        ∧ tget clrDef t.com.clrProt n = (k.1 + 1, if k.1 = tget (fun _ => 0) s.rep.clrDone n then m else k.2 ||| m) ∧ t.anvil = s.anvil ∧ Only [.com, .rep] s t)
    ∧ (∀ (n k m : Nat) (s : State), s.anvil.vals.clrProt = [(n, (k, m))] →
      (tget (fun _ => 0) s.anvil.clrDone n = k → runClears s = s)
        ∧ (tget (fun _ => 0) s.anvil.clrDone n ≠ k → (s.chan n).limp = false → let t := runClears s
          tget (fun _ => 0) t.anvil.clrDone n = k ∧ (t.chan n).prot = clrMask (s.chan n).prot (m &&& 0x4A)
            ∧ (∀ j, (t.chan j).retries = (if (bit m 1 && bit (s.chan n).prot 1) = true ∧ j ∈ protGroup s n then none else (s.chan j).retries))
            ∧ (∀ j, (t.chan j).drive = (s.chan j).drive ∧ (t.chan j).level = (s.chan j).level) ∧ (∀ j, j ∉ protGroup s n → t.chan j = s.chan j) ∧ Only [.anvil] s t))
    ∧ (∀ (r : Req) (s : State), rd (chProtStatusSpec.run r s).data 0 2 = (s.gen 1 (unitIx r.b)).toNat
        ∧ rd (chProtStatusSpec.run r s).data 2 2 = (tget chanDef s.rep.ch (unitIx r.b)).prot % 65536)

/-- OC_TRIP above the limit in force and VDS_TRIP above its threshold, on a channel whose switches are on, are the fast turn-off of the channel. A protection flag set on a SCHED, PIN or LAMP channel turns its output off and is kept;
With Anvil powered: COOL_DOWN_EXPIRY clears the trip and makes a retry due where retries remain; RETRY_RESTORE gives the retries back; INRUSH_WINDOW_END ends the inrush limit. TSD_TRIP at 175 degrees and
DTJ_EVALUATION above DTJ_MAX turn the channel off; TSD_CLEAR at 160 degrees and an evaluation 15 degrees below release it. -/
def Obligations.ProtectionEvents : Prop :=
  (∀ (n i vout : Nat) (s : State), n < 64 → s.dead = false → switchesOn s n = true → bit (s.chan n).prot 6 = false → 100 * limitInForce s n < i → exec (.ocTrip n i vout) s = .next (fastTrip n i vout s))
    ∧ (∀ (n vds i vout : Nat) (s : State), n < 64 → s.dead = false → switchesOn s n = true → 250 ≤ sinceEdge s n →
        limitInForce s n * ronScaled n (s.chan n).tjEval * 13 < vds * 500 * 800000 → exec (.vdsTrip n vds i vout) s = .next (fastTrip n i vout s))
    ∧ (∀ (n i cause : Nat) (s : State), s.modeA n ≠ 3 → s.modeA n ≠ 4 → i < 9 → let t := protOff n i cause s
        (t.chan n).drive = false ∧ (t.chan n).level = false ∧ bit (t.chan n).prot i = true ∧ (t.chan n).resuming = true
          ∧ (protHolds (s.chan n).prot = false → (t.chan n).before = (s.chan n).drive) ∧ (∀ m, m ≠ n → t.chan m = s.chan m) ∧ Only [.anvil] s t)
    ∧ (∀ (n : Nat) (t : Tb) (s : State), (s.chan n).coolEnd = some t → s.modeA n ≠ 4 → (s.chan n).limp = false → ∃ u, exec (.coolDownExpiry n) s = .next u
        ∧ (u.chan n).coolEnd = none ∧ (u.chan n).prot = clrBit (s.chan n).prot 0
        ∧ (u.chan n).retryDue = (decide (retriesLeft s n ≠ 0) && !(bit (s.chan n).prot 1)) ∧ (∀ m, m ≠ n → u.chan m = s.chan m) ∧ Only [.anvil, .time, .qf] s u)
    ∧ (∀ (n : Nat) (t : Tb) (s : State), (s.chan n).contSince = some t → s.modeA n ≠ 4 → ∃ u, exec (.retryRestore n) s = .next u ∧ (u.chan n).retries = none
        ∧ (∀ m, m ≠ n → u.chan m = s.chan m) ∧ Only [.anvil, .time, .qf] s u)
    ∧ (∀ (n : Nat) (t : Tb) (s : State), (s.chan n).inrushEnd = some t → ∃ u, exec (.inrushWindowEnd n) s = .next u ∧ (u.chan n).inrushEnd = none
        ∧ (u.chan n).prot = clrBit (s.chan n).prot 9 ∧ (∀ m, m ≠ n → u.chan m = s.chan m) ∧ Only [.anvil, .time, .qf] s u)
    ∧ (∀ (n : Nat) (tj : Int) (s : State), n < 64 → s.dead = false → 1400 ≤ tj → bit (s.chan n).prot 4 = false → exec (.tsdTrip n tj) s = .next (tempOff n 4 3 3 0x068 s))
    ∧ (∀ (n : Nat) (tj : Int) (s : State), s.dead = false → bit (s.chan n).prot 4 = true → tj ≤ 1280 → (s.chan n).limp = false →
        ∃ u, exec (.tsdClear n tj) s = .next u ∧ (u.chan n).prot = clrBit (s.chan n).prot 4 ∧ (u.chan n).drive = (s.chan n).drive ∧ Only [.anvil] s u)
    ∧ (∀ (n : Nat) (tj t : Int) (areas : List Int) (s : State), n < 64 → s.dead = false → trefOf areas s.anvil.areaFault n = some t →
        let a := onChan n (fun c => { c with tref := some t, tjEval := tj }) s
        let lim : Int := pfDtj (s.pfA n)
        (bit (s.chan n).prot 5 = false → 8 * lim < tj - t → exec (.dtjEvaluation n tj areas) s = .next (tempOff n 5 4 4 0x069 a))
          ∧ (bit (s.chan n).prot 5 = false → tj - t ≤ 8 * lim → exec (.dtjEvaluation n tj areas) s = .next a)
          ∧ (bit (s.chan n).prot 5 = true → tj - t ≤ 8 * (lim - 15) → (s.chan n).limp = false →
              ∃ u, exec (.dtjEvaluation n tj areas) s = .next u ∧ (u.chan n).prot = clrBit (s.chan n).prot 5 ∧ Only [.anvil] s u))

/-- With Anvil powered: VBATS below 3.0 V starts the 50 ms crank timer; recovery to 3.2 V within it stops it; its end turns every channel off and counts a crank; 1 ms at 3.5 V or more releases the
channels. Each rise of VBATS above 30 V is counted, raises its source and begins the deferral of turn-ons; while VBATS stays
above, nothing is counted again; at 29 V or below the deferral ends. -/
def Obligations.SupplyEvents : Prop :=
  (∀ (v : Int) (s : State), v < 3000 → s.dead = false → s.anvil.sup.crankEnd = none → s.anvil.sup.crankOff = false → ∃ t, exec (.vbatsLow v) s = .next t
      ∧ t.anvil.sup.crankEnd = some (s.tbNow + msTicks 50) ∧ t.anvil.sup.vbats = v ∧ t.anvil.ch = s.anvil.ch ∧ Only [.anvil] s t)
    ∧ (∀ (v : Int) (s : State) (e : Tb), s.anvil.sup.crankEnd = some e → 3200 ≤ v → isPast s.tbNow e = false → ∃ t, exec (.vbatsRecover v) s = .next t
      ∧ t.anvil.sup.crankEnd = none ∧ t.anvil.sup.crankOff = s.anvil.sup.crankOff ∧ t.anvil.sup.vbats = v ∧ t.anvil.ch = s.anvil.ch ∧ Only [.anvil] s t)
    ∧ (∀ (s : State) (e : Tb), s.anvil.sup.crankEnd = some e →
      let a := onSup (fun x => { x with crankEnd := none, crankOff := true, crankTotal := x.crankTotal + 1 }) (advTo e s)
      exec .crankTimeout s = .next (raise 0x06C 0 ((List.range 64).foldl (fun s n => let on := isOn s n; let s := protOff n 7 5 s; if on then protEventFree n 5 s else s) a)))
    ∧ (∀ (v : Int) (s : State), s.anvil.sup.crankOff = true → 3500 ≤ v → ∃ t, exec (.crankRelease v) s = .next t ∧ t.anvil.sup.crankOff = false ∧ t.anvil.sup.vbats = v
      ∧ Only [.anvil, .time, .qf, .free] s t)
    ∧ (∀ (v : Int) (s : State), 30000 < v → s.dead = false →
      (s.anvil.sup.ovAbove = false → exec (.vbatsOv v) s = .next (raise 0x06D 0 (onSup (fun x => { x with ov := true, ovAbove := true, ovTotal := x.ovTotal + 1 }) (vbatsRead v s))))
        ∧ (s.anvil.sup.ovAbove = true → exec (.vbatsOv v) s = .next (vbatsRead v s)))
    ∧ (∀ (v : Int) (s : State), v ≤ 29000 → s.anvil.sup.ov = true → ∃ t, exec (.vbatsOvEnd v) s = .next t ∧ t.anvil.sup.ov = false ∧ t.anvil.sup.ovAbove = false ∧ t.anvil.sup.vbats = v
      ∧ Only [.anvil, .time, .qf, .free] s t)

/-- IND_CONFIG, IND_SET and IND_CLEAR wait for the commit point; IND_STATUS reads the snapshot. IND_CONFIG puts its record in force and drops the closing history of the coil exactly where IP or a KINK field changes;
IND_SET commits ENGAGE and counts an actuation where ENGAGE rises or RESTART is set, and answers with the count and the frame in which it applies; IND_CLEAR clears the flags of its mask, at Anvil and as Hearth knows
them. No other coil changes. -/
def Obligations.InductiveOpcodes : Prop :=
  Waits indConfigSpec .indConfig id ∧ Waits indSetSpec .indSet id ∧ Tells indStatusSpec .indStatus id ∧ Waits indClearSpec .indClear id
    ∧ (∀ (r : Req) (s : State), let n := unitIx r.b
      let c := sub r.b 8 32
      let t := (indConfigSpec.run r s).st
      t.com.coilCfgOf n = c ∧ (kinkChange (s.com.coilCfgOf n) c = false → t.anvil = s.anvil ∧ t.rep = s.rep)
        ∧ (kinkChange (s.com.coilCfgOf n) c = true → (t.coil n).hist = [] ∧ (t.coil n).closedN = 0 ∧ (t.coil n).phase = (s.coil n).phase)
        ∧ (∀ m, m ≠ n → t.com.coilCfgOf m = s.com.coilCfgOf m ∧ t.coil m = s.coil m) ∧ t.com.ind = s.com.ind ∧ Only [.com, .anvil, .rep] s t)
    ∧ (∀ (r : Req) (s : State), let n := unitIx r.b
      let x := indSetSpec.run r s
      let old := s.com.indOf n
      let on := bit (rd r.b 6 1) 0
      (x.st.com.indOf n).engage = on
        ∧ (x.st.com.indOf n).count = (if (on = true ∧ old.engage = false) ∨ bit (rd r.b 6 1) 1 = true then old.count + 1 else old.count)
        ∧ (∀ m, m ≠ n → x.st.com.indOf m = s.com.indOf m ∧ x.st.com.chOf m = s.com.chOf m) ∧ x.st.com.coilCfg = s.com.coilCfg ∧ Only [.com] s x.st
        ∧ rd x.data 3 1 = (x.st.com.indOf n).count.toNat ∧ rd x.data 4 4 = (applyFn x.st n r.eff).toNat)
    ∧ (∀ (r : Req) (s : State), let n := unitIx r.b
      let t := (indClearSpec.run r s).st
      (t.coil n).flags = clrMask (s.coil n).flags (rd r.b 6 2) ∧ (t.coil n).phase = (s.coil n).phase ∧ (∀ m, m ≠ n → t.coil m = s.coil m) ∧ Only [.anvil, .rep] s t)

/-- CHANNEL_START_EDGE of an INDUCTIVE channel, in a start frame whose edge has not been and whose slot has not ended, with no protection hold, no safe state, no orphan mode and committed
values of its own, serves the coil. Of an idle coil the committed ENGAGE with a new
count begins RISE from that edge and counts the actuation where the coil is cool enough and no overvoltage defers it; a coil too hot stays off and reports. A
release of RISE, PULL or HOLD before the closing leaves RELEASE and, of a pull-in, outcome 4. -/
def Obligations.CoilStartEdge : Prop :=
  (∀ (n : Nat) (vz : Option Nat) (s : State), let e := chanEnt s.sched.img s.sched.anvilMode n
    let a := lampSettle n (onChan n (fun c => { c with edgeFn := some s.anvil.lastFn }) (atTickA (startTick s.sched.img s.sched.anvilMode n) s))
    n < 64 → e.disp ≠ 0 → e.disp ≠ 3 → startFrame e.period e.phase s.anvil.lastFn = true → (s.chan n).edgeFn ≠ some s.anvil.lastFn → s.tickA < 200 * (e.slot + 1) → s.modeA n = 3 →
      protHolds (s.chan n).prot = false → (s.chan n).safe = false → s.anvil.orphan = false → (s.anvil.vals.chOf n).held = false →
        exec (.channelStartEdge n vz) s = .next (coilEdge n false (onChan n (fun c => { c with orphan := 0, holdEnd := none }) a)))
    ∧ (∀ (n : Nat) (s : State), (s.coil n).phase = 0 → ovDefers s n = false → (s.anvil.vals.indOf n).engage = true → (s.anvil.vals.indOf n).count ≠ (s.coil n).appCount →
        let u := coilEdge n false s
        (coilCool (s.kfA n) (s.coil n).tc = true → (u.coil n).phase = 1 ∧ (u.coil n).startTb = s.tbNow ∧ (u.coil n).prof = s.kfA n ∧ (u.coil n).outcome = 0
            ∧ (u.coil n).actuations = (s.coil n).actuations + 1 ∧ (u.coil n).appEngage = true ∧ (u.coil n).appCount = (s.anvil.vals.indOf n).count)
          ∧ (coilCool (s.kfA n) (s.coil n).tc = false → (u.coil n).phase = 0 ∧ (u.coil n).appEngage = false ∧ (u.coil n).report = true
            ∧ (u.coil n).actuations = (s.coil n).actuations ∧ bit (u.coil n).flags 6 = true)
          ∧ (∀ m, m ≠ n → u.coil m = s.coil m ∧ u.chan m = s.chan m) ∧ Only [.anvil, .qf, .free] s u)
    ∧ (∀ (n : Nat) (s : State), (s.anvil.vals.indOf n).engage = false → (s.coil n).appEngage = true → 1 ≤ (s.coil n).phase → (s.coil n).phase ≤ 3 →
        let u := coilEdge n false s
        (u.coil n).phase = 4 ∧ (u.coil n).iSet = 0 ∧ (u.coil n).appEngage = false ∧ (u.coil n).outcome = (if (s.coil n).phase ≤ 2 then 4 else (s.coil n).outcome)
          ∧ (∀ m, m ≠ n → u.coil m = s.coil m ∧ u.chan m = s.chan m) ∧ Only [.anvil, .qf] s u)

/-- IND_IP_REACHED in RISE schedules PULL for the next chop boundary; PULL_IN_END of a pull-in whose closing was found leaves HOLD, or ends the actuation where there is no hold current, unless a restart begins in that tick; COIL_OPEN_CHECK below 5 percent of IP latches the
coil as open; CLOSING_DETECTION_WINDOW in PULL with a kink over the threshold records T_CLOSE and the outcome; ONE_SHOT_END of a one-shot in HOLD releases the coil and reports; IND_RELEASE_END of a coil in RELEASE leaves IDLE. -/
def Obligations.ActuationEvents : Prop :=
  (∀ (n : Nat) (s : State), (s.coil n).phase = 1 → (s.coil n).reached = false → ∃ u, exec (.indIpReached n) s = .next u ∧ (u.coil n).reached = true
      ∧ (u.coil n).pullTb = some (chopAtOrAfter s n (s.tbNow + 1)) ∧ (u.coil n).phase = 1 ∧ (∀ m, m ≠ n → u.coil m = s.coil m) ∧ Only [.anvil] s u)
    ∧ (∀ (n : Nat) (c : Tb) (s : State), (s.coil n).phase = 2 → (s.coil n).closeTb = some c → (s.coil n).reached = true →
      let e := pullEnd s n
      let b := onCoil n (fun k => { k with flags := if e.2 then setBit k.flags 3 else k.flags, pullTb := none }) (coilSync n (advTo e.1 s))
      (kfIh (s.coil n).prof = 0 → (s.chan n).safe = false → exec (.pullInEnd n) s = .next (if restartNow n b then b else coilOneShotEnd n 4 b))
        ∧ (kfIh (s.coil n).prof ≠ 0 → (s.chan n).orphan ≠ 3 → ∃ u, exec (.pullInEnd n) s = .next u ∧ (u.coil n).phase = 3 ∧ (u.coil n).holdTb = u.tbNow
            ∧ (u.coil n).iSet = holdSet n (s.coil n).prof (s.kfA n) (s.coil n).tc ∧ (∀ m, m ≠ n → u.coil m = s.coil m) ∧ Only [.anvil, .time, .qf] s u))
    ∧ (∀ (n i : Nat) (s : State), (s.coil n).phase = 1 → (s.coil n).reached = false →
      let b := advTo ((s.coil n).startTb + msTicks 2) s
      (100 * i < 5 * kfIp (s.coil n).prof → exec (.coilOpenCheck n i) s = .next (coilFault n 9 0x082 9 b))
        ∧ (5 * kfIp (s.coil n).prof ≤ 100 * i → exec (.coilOpenCheck n i) s = .next b))
    ∧ (∀ (n : Nat) (us is : List Nat) (x y : Int) (s : State), let k := (coilSync n s).coil n
      let c := k.prof
      let u : Int := us.sum
      let close := s.tbNow - 10000
      let t := (close - k.startTb).toNat / 50
      k.phase = 2 → k.wins ≠ 0 → k.u1 = some x → k.u2 = some y → kfThr c ≠ 0 → kfBlank c * 50000 ≤ (s.tbNow - k.startTb).toNat → k.closeTb = none →
        (u - 2 * x + y) * 5 ≤ -(40 * (kfThr c : Int)) → u < x →
          ∃ b, exec (.closingDetectionWindow n us is false) s = .next (closeTrend n t (indEvent n 1 close b)) ∧ (b.coil n).closeTb = some close
            ∧ (b.coil n).kinkSeen = some s.tbNow ∧ (b.coil n).tClose = t ∧ (b.coil n).outcome = 1 ∧ bit (b.coil n).flags 0 = true ∧ (b.coil n).phase = 2
            ∧ (∀ m, m ≠ n → b.coil m = s.coil m) ∧ Only [.anvil] s b)
    ∧ (∀ (n : Nat) (s : State), (s.coil n).phase = 3 → kfHoldMs (s.coil n).prof ≠ 0 → (s.anvil.vals.indOf n).engage = false →
      ∃ u, exec (.oneShotEnd n) s = .next u ∧ u = coilOneShotEnd n 4 (advTo (chopAtOrAfter s n ((s.coil n).holdTb + msTicks (10 * kfHoldMs (s.coil n).prof))) s)
        ∧ (u.coil n).phase = 4 ∧ (u.coil n).appEngage = false ∧ (u.coil n).report = true ∧ Only [.anvil, .time, .qf] s u)
    ∧ (∀ (n : Nat) (s : State), (s.coil n).phase = 4 → ∃ u, exec (.indReleaseEnd n) s = .next u ∧ (u.coil n).phase = 0 ∧ (u.chan n).offSince = s.tbNow
        ∧ (∀ m, m ≠ n → u.coil m = s.coil m ∧ u.chan m = s.chan m) ∧ Only [.anvil, .qf] s u)

/-- BR_CONFIG, BR_SET, BR_CLEAR and BR_POS_SET wait for the commit point; BR_STATUS reads the snapshot. BR_CONFIG puts its record in force and makes the position uncertain exactly where the position source changes; BR_SET
commits DRIVE, DUTY and TARGET and answers with them and the frame in which they apply; BR_CLEAR clears OPEN_PHASE where its mask names it; BR_POS_SET sets POS, clears the skips and the error and makes the position certain. No
other bridge changes. -/
def Obligations.BridgeOpcodes : Prop :=
  Waits brConfigSpec .brConfig id ∧ Waits brSetSpec .brSet id ∧ Tells brStatusSpec .brStatus id ∧ Waits brClearSpec .brClear id ∧ Waits brPosSetSpec .brPosSet id
    ∧ (∀ (r : Req) (s : State), let b := brIx r.b
      let c := sub r.b 8 48
      let t := (brConfigSpec.run r s).st
      t.com.brCfgOf b = c ∧ (bfPosSrc c = bfPosSrc (s.com.brCfgOf b) → t.anvil = s.anvil)
        ∧ (bfPosSrc c ≠ bfPosSrc (s.com.brCfgOf b) → bit (t.bridge b).flags 0 = true ∧ (t.bridge b).pos = (s.bridge b).pos)
        ∧ (∀ m, m ≠ b → t.com.brCfgOf m = s.com.brCfgOf m ∧ t.bridge m = s.bridge m) ∧ t.com.br = s.com.br ∧ Only [.com, .anvil, .rep] s t)
    ∧ (∀ (r : Req) (s : State), let b := brIx r.b
      let x := brSetSpec.run r s
      x.st.com.brOf b = { drive := rd r.b 6 1, duty := rd r.b 8 2, target := sx 24 (rd r.b 10 3) } ∧ (∀ m, m ≠ b → x.st.com.brOf m = s.com.brOf m)
        ∧ x.st.com.brCfg = s.com.brCfg ∧ Only [.com] s x.st ∧ rd x.data 2 1 = rd r.b 6 1 ∧ rd x.data 4 2 = rd r.b 8 2
        ∧ rd x.data 10 4 = (applyFn x.st (unitIx r.b) r.eff).toNat)
    ∧ (∀ (r : Req) (s : State), let b := brIx r.b
      let t := (brClearSpec.run r s).st
      (t.bridge b).flags = clrMask (s.bridge b).flags (rd r.b 6 2 &&& 4) ∧ (t.bridge b).pos = (s.bridge b).pos ∧ (∀ m, m ≠ b → t.bridge m = s.bridge m)
        ∧ Only [.anvil, .rep] s t)
    ∧ (∀ (r : Req) (s : State), let b := brIx r.b
      let t := (brPosSetSpec.run r s).st
      (t.bridge b).pos = sx 24 (rd r.b 6 3) ∧ (t.bridge b).skips = 0 ∧ (t.bridge b).err = 0 ∧ (t.bridge b).flags = clrBit (s.bridge b).flags 0
        ∧ (t.bridge b).st = (s.bridge b).st ∧ (∀ m, m ≠ b → t.bridge m = s.bridge m) ∧ Only [.anvil, .rep] s t)

/-- ENCODER_STEP in RUN or IDLE moves POS by one, in the direction of the sequence 00, 10, 11, 01 or, inverted, against it; two places at once count as a skip, and at the limit the position becomes uncertain; where the pair is the same, or
the bridge takes no encoder, it only records the pair. BRIDGE_STANDSTILL of a bridge whose duty is 0 and that wants no direction leaves COAST or BRAKE as its committed drive
says; for a direction change it starts the dwell. DWELL_END makes the new motion ready. BRIDGE_STALL brakes, as homing with POS at its home, else
raised and reported; BRIDGE_OPEN_PHASE lets the bridge coast and reports. -/
def Obligations.BridgeEvents : Prop :=
  (∀ (b : Nat) (x e : Bool) (s : State), b < 8 → s.pwr.state < 2 →
      let k := s.bridge b
      let d := (encPlace x e + 4 - encPlace k.encA k.encB) % 4
      let p := onBridge b (fun k => { k with encA := x, encB := e }) s
      (d = 0 ∨ bfPosSrc (s.bfA b) ≠ 1 ∨ s.modeA (brCh b) ≠ 4 → exec (.encoderStep b x e) s = .next p)
        ∧ (bfPosSrc (s.bfA b) = 1 → s.modeA (brCh b) = 4 →
          (d = 1 → exec (.encoderStep b x e) s = .next (movePos b (if bfEncInv (s.bfA b) then -1 else 1) p))
            ∧ (d = 3 → exec (.encoderStep b x e) s = .next (movePos b (if bfEncInv (s.bfA b) then 1 else -1) p))
            ∧ (d = 2 → let q := onBridge b (fun k => { k with skips := min 255 (k.skips + 1) }) p
                exec (.encoderStep b x e) s = .next (if bfSkipLimit (s.bfA b) ≤ min 255 (k.skips + 1) then setUncertain b q else q))))
    ∧ (∀ (b : Nat) (d : Int) (s : State), d ≠ 0 → (s.bridge b).want = 0 → -8388608 ≤ (s.bridge b).pos + d → (s.bridge b).pos + d ≤ 8388607 →
        let u := movePos b d s
        (u.bridge b).pos = (s.bridge b).pos + d ∧ (u.bridge b).lastMove = s.tbNow ∧ bit (u.bridge b).flags 0 = bit (s.bridge b).flags 0
          ∧ (∀ m, m ≠ b → u.bridge m = s.bridge m) ∧ Only [.anvil] s u)
    ∧ (∀ (b : Nat) (s : State), let a := rampTo b s.tbNow s
      let k := a.bridge b
      b < 8 → still k = false → k.da = 0 → k.frac = 0 →
      (k.want = 0 → k.stopEv = 0 → k.cut = false → ∃ u, exec (.bridgeStandstill b) s = .next u ∧ (u.bridge b).st = (if k.app.drive = 0 then 0 else 1)
          ∧ bit (u.bridge b).flags 7 = true ∧ (u.bridge b).mdir = 0 ∧ (u.bridge b).pos = (s.bridge b).pos ∧ (∀ m, m ≠ b → u.bridge m = s.bridge m)
          ∧ Only [.anvil, .time, .qf] s u)
        ∧ (k.want ≠ 0 → k.st ≠ k.want → k.cut = false → k.dwell = none → k.ready = false → ∃ u, exec (.bridgeStandstill b) s = .next u ∧ (u.bridge b).st = 1
          ∧ (u.bridge b).dwell = some (u.tbNow + msTicks (bfDwell (s.bfA b))) ∧ bit (u.bridge b).flags 7 = true ∧ (∀ m, m ≠ b → u.bridge m = s.bridge m)
          ∧ Only [.anvil, .time, .qf] s u))
    ∧ (∀ (b : Nat) (t : Tb) (s : State), (s.bridge b).dwell = some t → ∃ u, exec (.dwellEnd b) s = .next u ∧ (u.bridge b).dwell = none ∧ (u.bridge b).ready = true
        ∧ (u.bridge b).pos = (s.bridge b).pos ∧ (∀ m, m ≠ b → u.bridge m = s.bridge m) ∧ Only [.anvil, .time, .qf] s u)
    ∧ (∀ (b : Nat) (t : Tb) (s : State), (s.bridge b).stallSince = some t →
        let k := s.bridge b
        let c := s.bfA b
        let homing := k.goal = 3 ∨ (bfAutoHome c = true ∧ k.goal ≠ 4 ∧ k.mdir = (if bfHomeDir c then 2 else 3))
        let a := onBridge b (fun k => { k with stallSince := none }) (advTo (t + msTicks (bfStallMs c)) s)
        (homing → exec (.bridgeStall b) s = .next (brReport b 1 (brEvent b 3
            (onBridge b (fun k => { k with pos := bfHomePos c, skips := 0, err := 0, flags := setBit (clrBit k.flags 0) 6 }) (bridgeBrake b a)))))
          ∧ (¬ homing → k.goal ≠ 4 → pinching k = false → exec (.bridgeStall b) s = .next (brReport b 1 (brEvent b 4 (raise 0x0A1 b
            (onBridge b (fun k => { k with flags := setBit k.flags 4, stopEv := 0 }) (bridgeBrake b a)))))))
    ∧ (∀ (b : Nat) (t : Tb) (s : State), (s.bridge b).openSince = some t →
        let a := onBridge b (fun k => { k with flags := clrBit k.flags 1, openSince := none }) (advTo (t + msTicks (bfOpenMs (s.bfA b))) s)
        exec (.bridgeOpenPhase b) s = .next (brReport b 0 (brEvent b 7 (raise 0x0A2 b
          (onBridge b (fun k => { k with cut := false, flags := setBit k.flags 2, stopEv := 0, dwell := none }) (bridgeLost b (bridgeCoast b a)))))))
    ∧ (∀ (b : Nat) (s : State), (bridgeBrake b s).bridge b = { (rampTo b s.tbNow s).bridge b with
          st := 1, da := 0, frac := 0, cruise := 0, want := 0, goal := 0, ready := false, zeroSince := (bridgeBrake b s).bridge b |>.zeroSince })

/-- LS_CONFIG, LS_SET, LS_CLEAR, LIGHT_CONFIG, LIGHT_STAGE, LIGHT_COMMIT and LIGHT_DISCARD wait for the commit point; LS_STATUS and LIGHT_STATUS read the snapshot. LS_CONFIG puts its record in force, with a new generation where it changes; LS_SET
commits a brightness and takes the sink out of the staged ones; LS_CLEAR clears the flags of its mask; LIGHT_CONFIG puts its record in force; LIGHT_STAGE adds or replaces its entries in the stage set of its
context and answers its size; LIGHT_DISCARD empties it; LIGHT_COMMIT moves it into the commit of its context, which has no frame yet, and is PENDING. Other sinks, contexts and records are unchanged. -/
def Obligations.LightingOpcodes : Prop :=
  Waits lsConfigSpec .lsConfig id ∧ Waits lsSetSpec .lsSet id ∧ Tells lsStatusSpec .lsStatus id ∧ Waits lsClearSpec .lsClear id ∧ Waits lightConfigSpec .lightConfig id
    ∧ Waits lightStageSpec .lightStage id ∧ Waits lightCommitSpec .lightCommit id ∧ Waits lightDiscardSpec .lightDiscard id ∧ Tells lightStatusSpec .lightStatus id
    ∧ (∀ (r : Req) (s : State), let n := unitIx r.b
      let c := sub r.b 8 8
      let t := (lsConfigSpec.run r s).st
      t.com.lsCfgOf n = c ∧ t.gen 2 n = (if s.com.lsCfgOf n = c then s.gen 2 n else nextGen (s.gen 2 n)) ∧ t.owner 2 n = s.owner 2 n
        ∧ (∀ m, m ≠ n → t.com.lsCfgOf m = s.com.lsCfgOf m) ∧ (∀ k, k ≠ ukey 2 n → t.role k = s.role k) ∧ t.com.ls = s.com.ls ∧ Only [.roles, .com] s t)
    ∧ (∀ (r : Req) (s : State), let n := unitIx r.b
      let x := lsSetSpec.run r s
      x.st.com.lsOf n = rd r.b 6 2 ∧ x.st.com.lsStaged = s.com.lsStaged.erase n ∧ (∀ m, m ≠ n → x.st.com.lsOf m = s.com.lsOf m ∧ x.st.sink m = s.sink m)
        ∧ x.st.com.lsCfg = s.com.lsCfg ∧ rd x.data 2 2 = rd r.b 6 2 ∧ rd x.data 4 4 = r.eff.toNat ∧ Only [.com, .anvil, .light] s x.st)
    ∧ (∀ (r : Req) (s : State), let n := unitIx r.b
      let t := (lsClearSpec.run r s).st
      (t.sink n).flags = clrMask (s.sink n).flags (rd r.b 6 2) ∧ (t.sink n).b = (s.sink n).b ∧ (∀ m, m ≠ n → t.sink m = s.sink m) ∧ Only [.anvil, .rep] s t)
    ∧ (∀ (r : Req) (s : State), (lightConfigSpec.run r s).st.com.lightCfg = r.b ∧ (lightConfigSpec.run r s).st.com.ls = s.com.ls ∧ Only [.com] s (lightConfigSpec.run r s).st)
    ∧ (∀ (r : Req) (s : State), let c := r.h.ctx
      let x := lightStageSpec.run r s
      let y := lightDiscardSpec.run r s
      let z := lightCommitSpec.run r s
      x.st.stage c = (stageEntries r.b).foldl stageAdd (s.stage c) ∧ rd x.data 0 1 = (x.st.stage c).length % 256 ∧ Only [.light] s x.st
        ∧ y.st.stage c = [] ∧ Only [.light] s y.st ∧ (∀ d, d ≠ c → x.st.stage d = s.stage d ∧ y.st.stage d = s.stage d ∧ z.st.stage d = s.stage d ∧ z.st.lightCommit d = s.lightCommit d)
        ∧ z.st.stage c = [] ∧ (∃ k, z.st.lightCommit c = some k ∧ k.entries = s.stage c ∧ k.seq = r.h.seq ∧ k.frame = none ∧ k.eff = r.eff) ∧ z.status = .pending
        ∧ Only [.qf, .light, .bus] s z.st)

/-- LIGHT_SYNC in a frame in which a lighting commit lands: every such commit ends, the others stand; the staged sinks take their values, unless something holds them, and no sink is staged any more; the sync sequence advances by one, and
the sync data are those of this frame. With no such commit nothing happens. LED_PULSE_PERIOD_START of a hybrid sink: a value that waited takes effect and a pulse begins where the sink is in its pulsed branch; no other sink changes. -/
def Obligations.LightingEvents : Prop :=
  (∀ (c : Nat) (s : State), c < 16 → ((s.lightCommit c).bind (·.frame)) = some s.fn →
      ∃ d t, syncData s = some d ∧ exec .lightSync s = .next t ∧ t.light.syncSeq = s.light.syncSeq + 1 ∧ t.light.sync = some (s.fn, d) ∧ t.anvil.vals.lsStaged = []
        ∧ t.lightCommit c = none
        ∧ (∀ e, ((s.lightCommit e).bind (·.frame)) ≠ some s.fn → t.lightCommit e = s.lightCommit e)
        ∧ (∀ n, n ∈ s.anvil.vals.lsStaged → (s.sink n).safe = false → (s.sink n).shortOff = false → (t.sink n).app = s.anvil.vals.lsOf n)
        ∧ (∀ n, n ∉ s.anvil.vals.lsStaged → t.sink n = s.sink n) ∧ Only [.anvil, .time, .qf, .light] s t)
    ∧ (∀ s : State, (∀ c, c < 16 → ((s.lightCommit c).bind (·.frame)) ≠ some s.fn) → exec .lightSync s = .next s)
    ∧ (∀ (n : Nat) (s : State), n < 36 → sfHybrid (s.sfA n) = true →
      let k := s.sink n
      let p := pulseStart s n (if k.pulseTb = some s.tbNow then s.tbNow + 1 else s.tbNow)
      ∃ u, exec (.ledPulsePeriodStart n) s = .next u ∧ (u.sink n).b = k.next.getD k.b ∧ (u.sink n).next = none ∧ (u.sink n).pulseTb = some p.1
        ∧ ((u.sink n).b = 0 → (u.sink n).pulseEnd = none)
        ∧ (sinkBranch (s.sfA n) { k with b := k.next.getD k.b, next := none, pulseTb := some p.1 } = 2 → pulseTicks (s.sfA n) (k.next.getD k.b) p.2 ≠ 0 →
            (u.sink n).pulseEnd = some (p.1 + BitVec.ofNat 48 (pulseTicks (s.sfA n) (k.next.getD k.b) p.2)))
        ∧ (∀ m, m ≠ n → u.sink m = s.sink m) ∧ Only [.anvil, .time, .qf] s u)

/-- CAN_CONFIG, CAN_WAKE_CONFIG, the CAN_CONTROL operations and CAN_FILT_APPLY wait for the commit point, CAN_FILT_WRITE acts at acceptance, CAN_STATUS reads the snapshot. CAN_CONFIG stores its record, with a new generation where it changes; CAN_WAKE_CONFIG
stores the wake record; CAN_CONTROL adds its action to those of the next frame; CAN_FILT_WRITE writes its octets into the staging buffer and makes its context the
writer; CAN_FILT_APPLY gives the staged table to the next frame and frees the buffer. No other port changes, and no table in force. -/
def Obligations.CanOpcodes : Prop :=
  Waits canConfigSpec .canConfig id ∧ Waits canWakeConfigSpec .canWakeConfig id ∧ Waits canControlSpec .canControlStart (fun b => setField b 6 0 8 0)
    ∧ Waits canControlSpec .canControlListen (fun b => setField b 6 0 8 1) ∧ Waits canControlSpec .canControlStop (fun b => setField b 6 0 8 2)
    ∧ Waits canControlSpec .canControlSleep (fun b => setField b 6 0 8 3) ∧ Waits canControlSpec .canControlWake (fun b => setField b 6 0 8 4)
    ∧ Waits canControlSpec .canControlRecover (fun b => setField b 6 0 8 5) ∧ Waits canControlSpec .canControlFlush (fun b => setField b 6 0 8 6)
    ∧ Tells canStatusSpec .canStatus id ∧ Acts canFiltWriteSpec .canFiltWrite id ∧ Waits canFiltApplySpec .canFiltApply id
    ∧ (∀ (r : Req) (s : State), let p := unitIx r.b
      let t := (canConfigSpec.run r s).st
      let w := (canWakeConfigSpec.run r s).st
      let c := (canControlSpec.run r s).st
      t.can p = { s.can p with cfg := sub r.b 8 64, stored := true } ∧ t.gen 4 p = (if (s.can p).cfg = sub r.b 8 64 then s.gen 4 p else nextGen (s.gen 4 p)) ∧ t.owner 4 p = s.owner 4 p ∧ (∀ k, k ≠ ukey 4 p → t.role k = s.role k)
        ∧ w.can p = { s.can p with wake := sub r.b 8 24 } ∧ c.can p = { s.can p with ctl := (s.can p).ctl ++ [rd r.b 6 1] }
        ∧ (∀ q, q ≠ p → t.can q = s.can q ∧ w.can q = s.can q ∧ c.can q = s.can q) ∧ t.bus.filt = s.bus.filt ∧ Only [.roles, .bus] s t ∧ Only [.bus] s w ∧ Only [.bus] s c)
    ∧ (∀ (r : Req) (s : State), let o := rd r.b 0 2
      let t := (canFiltWriteSpec.run r s).st
      let a := (canFiltApplySpec.run r s).st
      (∀ i x, (r.b.drop 4)[i]? = some x → tget octDef t.bus.filtStage (o + i) = x)
        ∧ (∀ j, (j < o ∨ o + (r.b.length - 4) ≤ j) → tget octDef t.bus.filtStage j = tget octDef s.bus.filtStage j) ∧ t.bus.filtWriter = r.h.ctx ∧ t.bus.filt = s.bus.filt
        ∧ a.bus.filtNext = some s.bus.filtStage ∧ a.bus.filtWriter = 0 ∧ a.bus.filt = s.bus.filt ∧ (∀ p, t.can p = s.can p ∧ a.can p = s.can p)
        ∧ Only [.bus] s t ∧ Only [.bus] s a)

/-- CAN_FRAME_RECEIVED on a port that takes part, listens or is silent, is not the access port and has no STOP or SLEEP waiting: REC of a port that takes part falls by R456; with no filter
that matches, the miss is counted and nothing enters a receive queue; with one whose queue is not configured, that is counted; else the frame enters the receive queue of the filter with its
identifier word, DLC octet, length, filter number and frame, and is counted where it fits. CAN_TX_ATTEMPT_END of the well-formed head entry of a transmit queue: sent, TEC falls by
one and the entry completes with status 0; failed beyond its retries, it completes with 1; else it stays at the head with one try more; a STOP or SLEEP that waited for the frame
then acts. -/
def Obligations.CanFrames : Prop :=
  (∀ (p w d : Nat) (data : Rec) (s : State), p < 8 → ((s.can p).st = 2 ∨ (s.can p).st = 3 ∨ (s.can p).st = 7) → p ≠ afPort s.acc.cfg → (s.can p).after = none →
      let c := if (s.can p).st = 2 then canCount p (fun k => { k with rec_ := if 127 < k.rec_ then 119 + s.freeNat % 9 else k.rec_ - 1 }) s else s
      let a := onCan p (fun k => { k with dom := false }) (useFree c)
      (canFilter s.bus.filt (w % 2 ^ 29) (bit w 29) p = none → ∃ u, exec (.canFrameReceived p w d data) s = .next u ∧ (u.can p).filtMiss = (s.can p).filtMiss + 1
          ∧ (∀ q, q ≠ p → u.can q = s.can q) ∧ Only [.qf, .bus, .free] s u)
        ∧ (∀ f x, canFilter s.bus.filt (w % 2 ^ 29) (bit w 29) p = some (f, x) → bit w 30 = false →
          let q := 256 + 128 * p + x % 64
          let len := min 64 (dlcLen (bit w 31) (d % 16))
          let e := le 4 w ++ [BitVec.ofNat 8 (d % 64), BitVec.ofNat 8 len] ++ le 2 f ++ le 4 s.fn.toNat ++ sub data 0 len
          (qMode (s.qcfg q) = 0 → exec (.canFrameReceived p w d data) s = .next (onCan p (fun k => { k with rxqOff := k.rxqOff + 1 }) a))
            ∧ (qMode (s.qcfg q) ≠ 0 → ∃ u, exec (.canFrameReceived p w d data) s = .next u ∧ u.qf = (admitCells q e a).1.qf
                ∧ (u.can p).rxFrames = (if (admitCells q e a).2.2 then (s.can p).rxFrames else (s.can p).rxFrames + 1) ∧ Only [.qf, .bus, .free] s u)))
    ∧ (∀ (p i err n : Nat) (loop : Option Nat) (e : Rec) (s : State), p < 8 → i < 64 → ((s.can p).st = 2 ∨ ((s.can p).st = 4 ∧ 2 ≤ err)) → err ≤ 6 → qHead (s.queue (canTxq p i)) 0 = some (n, some e) →
        canBadEntry (s.can p).cfg e = false →
        let t := tget (fun _ => (0, 0)) (s.can p).tries i
        let brs := bit (rd e 4 1) 4 && bit (rd e 0 4) 31 && nfTdcEn (s.can p).cfg
        let a := onCan p (fun k => { k with tdc := (match loop with | some x => if brs then min x 93 else k.tdc | none => k.tdc),
                                            tries := tput (fun _ => (0, 0)) k.tries i (t.1 + 1, if err = 0 then t.2 else err), dom := false }) s
        (err = 0 → exec (.canTxAttemptEnd p i err loop) s = .next (canAfter p (canComplete p i 0 n e (canCount p (fun k => { k with tec := k.tec - 1 }) a))))
          ∧ (err ≠ 0 → nfRetry (s.can p).cfg i < t.1 + 1 → exec (.canTxAttemptEnd p i err loop) s = .next (canAfter p (canComplete p i 1 n e a)))
          ∧ (err ≠ 0 → t.1 + 1 ≤ nfRetry (s.can p).cfg i → exec (.canTxAttemptEnd p i err loop) s = .next (canAfter p a)))
    ∧ (∀ (p : Nat) (s : State), ((s.can p).after = none → canAfter p s = s)
        ∧ ((s.can p).after = some 2 → (canAfter p s).can p = { s.can p with cmd := 0, st := 0, tec := 0, rec_ := 0, recover := false, after := none })
        ∧ ((s.can p).after = some 3 → (canAfter p s).can p = { s.can p with st := 6, fdCnt := 0, after := none })
        ∧ (∀ q, q ≠ p → (canAfter p s).can q = s.can q) ∧ Only [.bus] s (canAfter p s))
    ∧ (∀ (p i status n : Nat) (e : Rec) (s : State), let u := canComplete p i status n e s
        tget (fun _ => (0, 0)) (u.can p).tries i = (0, 0) ∧ (u.can p).txFrames = (if status = 0 then (s.can p).txFrames + 1 else (s.can p).txFrames)
          ∧ (u.can p).txFailed = (if status = 1 ∨ status = 2 then (s.can p).txFailed + 1 else (s.can p).txFailed) ∧ (u.can p).st = (s.can p).st
          ∧ (∀ q, q ≠ p → u.can q = s.can q) ∧ Only [.qf, .light, .bus] s u)

/-- CAN_BUS_ERROR of a port that takes part raises TEC by 8 as transmitter, REC by 1 or 8 as receiver, of one that listens or is silent neither; as receiver it ends the frame that a STOP or
SLEEP waited for; crossing into bus-off leaves state 4, counts it and raises 0x101; into error-passive raises 0x100; with no crossing nothing else changes. CAN_INTEGRATION_DONE enters the commanded
state; CAN_BUSOFF_RECOVERY returns an allowed port to ACTIVE, or to LISTEN where that is commanded, with counters 0; CAN_TXD_DOM and CAN_BUS_DOM latch and raise once; CAN_TXD_REENABLE clears.
CAN_WAKE_PATTERN wakes a port asleep with WUP; CAN_WAKE_FRAME wakes on its frame, counts FD or faulty frames, wakes beyond 32. -/
def Obligations.CanErrorsAndWake : Prop :=
  (∀ (p : Nat) (tx big : Bool) (s : State), p < 8 →
      let c := canCount p (fun k => if tx then { k with tec := k.tec + 8 } else { k with rec_ := satN 255 (k.rec_ + (if big then 8 else 1)) }) s
      ((s.can p).st = 2 → exec (.canBusError p tx big) s = .next (if tx then c else canAfter p c))
        ∧ ((s.can p).st = 3 ∨ (s.can p).st = 7 → exec (.canBusError p tx big) s = .next (if tx then s else canAfter p s)))
    ∧ (∀ (p : Nat) (f : CanPort → CanPort) (s : State), let a := onCan p f s
        (canErr (a.can p) = canErr (s.can p) → canCount p f s = a)
          ∧ (canErr (a.can p) = 2 → canErr (s.can p) ≠ 2 →
              canCount p f s = canStateNote p (raise 0x101 p (onCan p (fun k => { k with st := 4, busoffs := k.busoffs + 1, recover := false }) a)))
          ∧ (canErr (a.can p) = 1 → canErr (s.can p) = 0 → canCount p f s = canStateNote p (raise 0x100 p a))
          ∧ (canErr (a.can p) = 0 → canErr (s.can p) = 1 → canCount p f s = canStateNote p a))
    ∧ (∀ (p : Nat) (s : State), p < 8 → (s.can p).st = 1 → ∃ u, exec (.canIntegrationDone p) s = .next u ∧ (u.can p).st = (s.can p).cmd
        ∧ (∀ q, q ≠ p → u.can q = s.can q) ∧ Only [.bus] s u)
    ∧ (∀ (p : Nat) (s : State), p < 8 → (s.can p).st = 4 → (nfRecovery (s.can p).cfg = false ∨ (s.can p).recover = true) → ∃ u, exec (.canBusoffRecovery p) s = .next u
        ∧ (u.can p).st = (if (s.can p).cmd = 3 then 3 else 2) ∧ (u.can p).tec = 0 ∧ (u.can p).rec_ = 0 ∧ (u.can p).recover = false ∧ (u.can p).busoffs = (s.can p).busoffs ∧ (∀ q, q ≠ p → u.can q = s.can q)
        ∧ Only [.qf, .bus] s u)
    ∧ (∀ (p : Nat) (s : State), p < 8 → (s.can p).st ≠ 0 →
        ((s.can p).txd = false → exec (.canTxdDom p) s = .next (raise 0x102 p (onCan p (fun k => { k with txd := true }) s)))
          ∧ ((s.can p).dom = false → exec (.canBusDom p) s = .next (raise 0x103 p (onCan p (fun k => { k with dom := true }) s)))
          ∧ ((s.can p).txd = true → exec (.canTxdDom p) s = .next s) ∧ ((s.can p).dom = true → exec (.canBusDom p) s = .next s))
    ∧ (∀ (p : Nat) (s : State), p < 8 → ∃ u, exec (.canTxdReenable p) s = .next u ∧ u.can p = { s.can p with txd := false } ∧ (∀ q, q ≠ p → u.can q = s.can q) ∧ Only [.bus] s u)
    ∧ (∀ (p : Nat) (s : State), p < 8 → (s.can p).st = 6 → wfMode (s.can p).wake = 1 → exec (.canWakePattern p) s = .next (canWake p 1 0 s))
    ∧ (∀ (p : Nat) (s : State), s.hearthUp = false → let u := canWake p 1 0 s
        (u.can p).wakeType = 1 ∧ (u.can p).wakePt = s.parkTime ∧ (u.can p).woken = true ∧ (∀ q, q ≠ p → u.can q = s.can q) ∧ Only [.bus, .pwr] s u)
    ∧ (∀ (p w dlc : Nat) (data : Rec) (bad : Bool) (s : State), let k := s.can p
        p < 8 → k.st = 6 → wfMode k.wake = 2 → s.pwr.state ≠ 3 → k.woken = false →
        ((bit w 31 = true ∧ wfFdPassive k.wake = true) → exec (.canWakeFrame p w dlc data bad) s = .next s)
          ∧ (¬ (bit w 31 = true ∧ wfFdPassive k.wake = true) → (bad = true ∨ bit w 31 = true) →
              (k.fdCnt < 32 → exec (.canWakeFrame p w dlc data bad) s = .next (onCan p (fun k => { k with fdCnt := k.fdCnt + 1 }) s))
                ∧ (32 ≤ k.fdCnt → exec (.canWakeFrame p w dlc data bad) s = .next (canWake p 3 0 (raise 0x104 p (onCan p (fun k => { k with fdCnt := 33 }) s)))))
          ∧ (bad = false → bit w 31 = false → let a := onCan p (fun k => { k with fdCnt := k.fdCnt - 1 }) s
              exec (.canWakeFrame p w dlc data bad) s = .next (if isWakeFrame k.wake w dlc data then canWake p 2 w a else a)))

/-- LIN_CONFIG, LIN_SET, the LIN_CONTROL operations and GW_BIND wait for the commit point; LIN_STATUS and GW_STATUS read the snapshot. LIN_CONFIG puts record and frame table in force, with a new generation where they change; LIN_SET gives the next frame its octets;
LIN_CONTROL adds its action; GW_BIND binds a receive queue. LIN_HEADER_START of a due entry on an ACTIVE port that is free begins its frame at the break edge: to receive, to send the committed octets, FFh where none of the entry's length were set, or to send the go-to-sleep command. LIN_FRAME_END frees the port and counts
its result, raising the source of a failed one; LIN_BUS_DOM latches once; LIN_BUS_WAKE wakes a sleeping port with WAKE_EN. -/
def Obligations.LinPorts : Prop :=
  Waits linConfigSpec .linConfig id ∧ Waits linSetSpec .linSet id ∧ Waits linControlSpec .linControlStart (fun b => setField b 6 0 8 0)
    ∧ Waits linControlSpec .linControlStop (fun b => setField b 6 0 8 1) ∧ Waits linControlSpec .linControlSleep (fun b => setField b 6 0 8 2)
    ∧ Waits linControlSpec .linControlWake (fun b => setField b 6 0 8 3) ∧ Tells linStatusSpec .linStatus id ∧ Waits gwBindSpec .gwBind id ∧ Tells gwStatusSpec .gwStatus id
    ∧ (∀ (r : Req) (s : State), let n := unitIx r.b - 8
      let t := (linConfigSpec.run r s).st
      let v := (linSetSpec.run r s).st
      let c := (linControlSpec.run r s).st
      (t.lin n).cfg = sub r.b 8 16 ∧ (t.lin n).table = sub r.b 24 248 ∧ t.owner 4 (8 + n) = s.owner 4 (8 + n)
        ∧ t.gen 4 (8 + n) = (if (s.lin n).cfg = sub r.b 8 16 ∧ (s.lin n).table = sub r.b 24 248 then s.gen 4 (8 + n) else nextGen (s.gen 4 (8 + n)))
        ∧ (∀ k, k ≠ ukey 4 (8 + n) → t.role k = s.role k) ∧ tget (fun _ => []) (v.lin n).valsNext (rd r.b 6 1) = sub r.b 8 (rd r.b 7 1) ∧ (v.lin n).vals = (s.lin n).vals
        ∧ (c.lin n).ctl = (s.lin n).ctl ++ [rd r.b 6 1] ∧ (∀ m, m ≠ n → t.lin m = s.lin m ∧ v.lin m = s.lin m ∧ c.lin m = s.lin m)
        ∧ Only [.roles, .bus] s t ∧ Only [.bus] s v ∧ Only [.bus] s c)
    ∧ (∀ (r : Req) (s : State), let q := unitIx r.b
      let t := (gwBindSpec.run r s).st
      (t.gw q).enable = decide (rd r.b 6 1 = 1) ∧ (rd r.b 6 1 = 1 → (t.gw q).maxCells = rd r.b 7 1) ∧ (rd r.b 6 1 ≠ 1 → (t.gw q).forwarded = (s.gw q).forwarded)
        ∧ (∀ p, p ≠ q → t.gw p = s.gw p) ∧ Only [.bus] s t)
    ∧ (∀ (n f : Nat) (e : LinEnt) (s : State), n < 12 → linEnt s.sched.img s.modeNow n f = some e → startFrame e.cycle e.offset s.fn = true → s.tick ≤ 200 * e.slot →
        (s.lin n).st = 1 → (s.lin n).mute = none → (s.lin n).busy = none →
        let a := atTick (200 * e.slot) s
        let r := linTake n f e a
        exec (.linHeaderStart n f) s = .next (onLin n (fun k => { k with busy := r.2, mute := none, dom := if r.2.isSome then false else k.dom }) r.1)
          ∧ ((s.lin n).goSleep = false → mtDir (s.lin n).table f = 2 → r = (a, some { id := f, fn := a.fn, frames := e.frames, data := none, ext := none, goSleep := false, queued := false, limbo := none }))
          ∧ ((s.lin n).goSleep = false → mtDir (s.lin n).table f = 1 → mtSource (s.lin n).table f = 0 → (s.lin n).ext = [] →
              r = (a, some { id := f, fn := a.fn, frames := e.frames, data := some (linValue (s.lin n) f), ext := none, goSleep := false, queued := false, limbo := none }))
          ∧ ((s.lin n).goSleep = true → f = 0x3C →
              r = (a, some { id := f, fn := a.fn, frames := e.frames, data := some goSleepData, ext := none, goSleep := true, queued := false, limbo := none })))
    ∧ (∀ (n res : Nat) (data : Rec) (f : LinFrame) (s : State), n < 12 → (s.lin n).busy = some f → linEndOk f (mtLen (s.lin n).table f.id) res data = true → f.ext = none →
        f.queued = false → f.goSleep = false → f.limbo = none →
        let a := onLin n (fun k => { k with busy := none, results := k.results.modify res (· + 1), goSleep := k.goSleep }) s
        (res = 0 → ∃ u, exec (.linFrameEnd n res data) s = .next u ∧ u.lin n = a.lin n ∧ (∀ m, m ≠ n → u.lin m = s.lin m) ∧ Only [.qf, .bus] s u)
          ∧ (res ≠ 0 → mtReport (s.lin n).table f.id = false →
              exec (.linFrameEnd n res data) s = .next (raise (if res ≤ 2 then 0x120 else if res ≤ 4 then 0x121 else 0x122) n a)))
    ∧ (∀ (n : Nat) (s : State), n < 12 → (s.lin n).st ≠ 0 → (s.lin n).dom = false → exec (.linBusDom n) s = .next (raise 0x123 n (onLin n (fun k => { k with dom := true }) s)))
    ∧ (∀ (n : Nat) (s : State), n < 12 → mfWakeEn (s.lin n).cfg = true → (s.lin n).st = 2 → (s.lin n).woken = false → s.hearthUp = true → (s.lin n).suspended = false →
        (s.lin n).held = false → ∃ u, exec (.linBusWake n) s = .next u ∧ (u.lin n).st = 1 ∧ (u.lin n).wakeType = 1 ∧ (u.lin n).wakePt = s.parkTime
          ∧ (u.lin n).mute = some (s.tbNow + msTicks 100) ∧ (∀ m, m ≠ n → u.lin m = s.lin m) ∧ Only [.qf, .bus, .pwr] s u)

/-- ETH_CONFIG waits for the commit point, ETH_STATUS reads the snapshot. ETH_CONFIG without MACsec and at the same rate puts its record in force, with a new generation where it changes. ETH_FRAME_RECEIVED on a port whose link is up: another
station's address, or a payload above 9,000 octets, counts as other; without MACsec a frame of the port's EtherType is counted and its packets are taken for the context
bound to its source and VLAN; any other frame counts as other. ETH_LINK_UP brings the link up, and a LINK_RESTART that waited for it leaves first; ETH_LINK_DOWN raises 0x130 and brings it down. -/
def Obligations.EthernetPorts : Prop :=
  Waits ethConfigSpec .ethConfig id ∧ Tells ethStatusSpec .ethStatus id
    ∧ (∀ (r : Req) (s : State), let c := sub r.b 8 40
      let p := rd c 0 1
      let t := (ethConfigSpec.run r s).st
      efMacsec c = false → rd (s.eth p).cfg 1 1 % 16 = rd c 1 1 % 16 → (t.eth p).cfg = c ∧ (t.eth p).link = (s.eth p).link ∧ (t.eth p).txPn = (s.eth p).txPn
        ∧ t.gen 4 (20 + p) = (if (s.eth p).cfg = c then s.gen 4 (20 + p) else nextGen (s.gen 4 (20 + p))) ∧ t.owner 4 (20 + p) = s.owner 4 (20 + p)
        ∧ (∀ q, q ≠ p → t.eth q = s.eth q) ∧ (∀ k, k ≠ ukey 4 (20 + p) → t.role k = s.role k) ∧ Only [.roles, .bus] s t)
    ∧ (∀ (p : Nat) (f : EthFrame) (s : State), p < 2 → (s.eth p).link = true → s.hearthUp = true →
        (9000 < f.payload.length ∨ f.dst ≠ ethMac (s.eth p).cfg → exec (.ethFrameReceived p f) s = .next (ethDrain (onEth p (fun k => { k with rxOther := k.rxOther + 1 }) s)))
          ∧ (f.payload.length ≤ 9000 → f.dst = ethMac (s.eth p).cfg → efMacsec (s.eth p).cfg = false → (f.etype ≠ efType (s.eth p).cfg ∨ f.sec.isSome = true) →
              exec (.ethFrameReceived p f) s = .next (ethDrain (onEth p (fun k => { k with rxOther := k.rxOther + 1 }) s)))
          ∧ (f.payload.length ≤ 9000 → f.dst = ethMac (s.eth p).cfg → efMacsec (s.eth p).cfg = false → f.etype = efType (s.eth p).cfg → f.sec = none →
              let a := onEth p (fun k => { k with rxFrames := k.rxFrames + 1 }) s
              let bound := (List.range 16).find? (fun c => decide (c ≠ 0) && decide (ctxTransport (s.cx c) = p + 1) && decide (rd (s.cx c).cfg 4 6 = f.src)
                && decide (rd (s.cx c).cfg 10 2 % 4096 = f.vlan))
              exec (.ethFrameReceived p f) s = .next (ethDrain (takePackets opSpec bound
                (fun s => raise 5 0 (onEth p (fun k => { k with bindCount := k.bindCount + 1 }) s)) true 3 (f.payload.length + 1) f.payload a))))
    ∧ (∀ (p : Nat) (s : State), p < 2 → (s.eth p).link = true → exec (.ethLinkDown p) s = .next (ethLost p (raise 0x130 p s)))
    ∧ (∀ (p : Nat) (s : State), ((ethLost p s).eth p).link = false ∧ (∀ q, q ≠ p → (ethLost p s).eth q = s.eth q)
        ∧ (∀ c, ctxTransport (s.cx c) ≠ p + 1 → (ethLost p s).cx c = s.cx c) ∧ Only [.ctxs, .bus] s (ethLost p s))
    ∧ (∀ (p : Nat) (s : State), p < 2 → (s.eth p).link = false → s.hearthUp = true →
        ∃ b, exec (.ethLinkUp p) s = .next (ethDrain b) ∧ b.eth p = { s.eth p with link := true } ∧ (∀ q, q ≠ p → b.eth q = s.eth q)
          ∧ (∀ c, c < 16 → c ≠ 0 → ctxTransport (s.cx c) = p + 1 → ((s.cx c).restart = none → b.cx c = s.cx c)
              ∧ ∀ e, (s.cx c).restart = some e → (b.cx c).restart = none ∧ (b.cx c).ntfCredit = 0 ∧ ∃ d, (b.cx c).out = (s.cx c).out ++ [d] ∧ d.payload = e)
          ∧ (∀ c, ctxTransport (s.cx c) ≠ p + 1 → b.cx c = s.cx c) ∧ Only [.ctxs, .bus] s b)

/-- HSPI_WRITE of one whole packet with a good CRC and header, of the context bound to the port, delivers that packet; one with a bad CRC is refused with CRC; on a port bound to no context a good one counts and raises HOST_BIND. HSPI_READ clocked to
its LEN presents the whole waiting packets that fit, then 00h, and takes them from the queue. HSPI_STATUS presents the length of
the next packet, the octets waiting, the free cells and the sequence awaited. On a port bound to no context both present 00h (model's choice, log 32). HSPI_CS_RISE within a packet discards it and places LINK_RESTART; outside one nothing happens. -/
def Obligations.HspiTransfers : Prop :=
  (∀ (n : Nat) (b : Rec) (s : State), n < 2 → s.hearthUp = true → (s.hspi n).inPacket = false → 20 ≤ b.length → b.length = 20 + rd b 8 2 → b.length ≤ 16384 →
      let p := pktOf b
      let good := crc32c (b.take (b.length - 4)) = rd b (b.length - 4) 4
      let fin := fun s => ethDrain (onHspi n (fun h => { h with inPacket := false }) s)
      (∀ c, hspiBound n s = some c → good → hdrFault b = none → p.h.ctx = c → exec (.hspiWrite n b.length b) s = .next (fin (deliver opSpec p s)))
        ∧ (∀ c, hspiBound n s = some c → ¬ good → exec (.hspiWrite n b.length b) s = .next (fin (refuseEarly { p with h := { p.h with ctx := c } } .crc 0 s)))
        ∧ (∀ c, hspiBound n s = some c → good → hdrFault b = none → p.h.ctx ≠ c → exec (.hspiWrite n b.length b) s = .next (fin (hspiUnbound n s)))
        ∧ (hspiBound n s = none → good → exec (.hspiWrite n b.length b) s = .next (fin (hspiUnbound n s))))
    ∧ (∀ (n len c : Nat) (s : State), n < 2 → s.hearthUp = true → (s.hspi n).inPacket = false → 1 ≤ len → len ≤ 16384 → hspiBound n s = some c →
      let w := fitPackets len (s.cx c).out
      let o := w.flatMap (devOctets c)
      ∃ u, exec (.hspiRead n len len) s = .next u ∧ (u.hspi n).out = (o ++ zeros (len - o.length)).take len ∧ (u.cx c).out = (s.cx c).out.drop (fitPackets len w).length
        ∧ (u.cx c).rpRel = (s.cx c).rpRel + (((fitPackets len w).filter (·.reply)).map (fun d => cellsOf (devLen d))).sum ∧ (∀ d, d ≠ c → u.cx d = s.cx d)
        ∧ Only [.ctxs, .hspi0, .hspi1] s u)
    ∧ (∀ (n c : Nat) (s : State), n < 2 → s.hearthUp = true → (s.hspi n).inPacket = false → hspiBound n s = some c →
      ∃ u, exec (.hspiStatus n) s = .next u
        ∧ (u.hspi n).out = le 2 (((s.cx c).out.head?.map devLen).getD 0) ++ le 2 (satN 65535 ((s.cx c).out.map devLen).sum) ++ le 2 (ctxFree (s.cx c)) ++ le 2 (s.cx c).arrSeq.toNat
        ∧ Only [.hspi0, .hspi1] s u)
    ∧ (∀ (n len k : Nat) (s : State), n < 2 → s.hearthUp = true → (s.hspi n).inPacket = false → 1 ≤ len → len ≤ 16384 → hspiBound n s = none →
      exec (.hspiRead n len k) s = .next (onHspi n (fun h => { h with out := zeros (min len k) }) s) ∧ exec (.hspiStatus n) s = .next (onHspi n (fun h => { h with out := zeros 8 }) s))
    ∧ (∀ (n : Nat) (s : State), n < 2 → s.hearthUp = true →
      ((s.hspi n).inPacket = false → exec (.hspiCsRise n) s = .next s)
        ∧ (∀ c, (s.hspi n).inPacket = true → hspiBound n s = some c →
            exec (.hspiCsRise n) s = .next (linkRestart c 1 (onHspi n (fun h => { h with inPacket := false }) s))))

/-- KEY_WRITE and KEY_GENKEY wait for the commit point; KEY_MAC, KEY_CIPHER, KEY_SIGN and KEY_ECDH act at acceptance; KEY_INFO and KEY_ATTEST read the state. A write stores the record with uses 0 and a new generation; GENKEY stores a scalar of
the random source as material and answers its public key. Each use counts one use of its slot, and one off a counted record; no other slot changes. MAC GEN answers the CMAC of the message under the derived key, MAC VER answers VERIFY exactly where
the code differs; CIPHER answers the counter-mode result; KEY refuses a slot that cannot serve. A record with a window is USABLE exactly inside it. -/
def Obligations.KeyOpcodes : Prop :=
  Waits keyWriteSpec .keyWrite id ∧ Tells keyInfoSpec .keyInfo id ∧ Acts keyMacSpec .keyMacGen (fun b => setField b (krOff b) 0 8 0)
    ∧ Acts keyMacSpec .keyMacVer (fun b => setField b (krOff b) 0 8 1) ∧ Acts keyCipherSpec .keyCipherEnc (fun b => setField b (krOff b) 0 8 0)
    ∧ Acts keyCipherSpec .keyCipherDec (fun b => setField b (krOff b) 0 8 1) ∧ Acts keySignSpec .keySign (fun b => setField b 8 0 8 0)
    ∧ Acts keySignSpec .keySignVerify (fun b => setField b 8 0 8 1) ∧ Acts keyEcdhSpec .keyEcdh id ∧ Waits keyGenkeySpec .keyGenkey id ∧ Tells keyAttestSpec .keyAttest id
    ∧ (∀ (r : Req) (s : State), let n := unitIx r.b
      let t := (keyWriteSpec.run r s).st
      let g := keyGenkeySpec.run r s
      t.key n = { rec_ := sub r.b 8 48, lost := false, bad := false, badTold := false, uses := 0 } ∧ t.gen 6 n = nextGen (s.gen 6 n) ∧ t.owner 6 n = s.owner 6 n
        ∧ (g.st.key n).rec_ = putAt (sub r.b 8 48) 16 (be 32 s.randScalar) ∧ g.st.gen 6 n = nextGen (s.gen 6 n) ∧ g.data.drop 2 = publicKey s.randScalar
        ∧ (∀ m, m ≠ n → t.key m = s.key m ∧ g.st.key m = s.key m) ∧ Only [.roles, .keys] s t ∧ Only [.roles, .keys, .free] s g.st)
    ∧ (∀ (n : Nat) (s : State), let t := takeUse n s
      (t.key n).uses = (s.key n).uses + 1 ∧ (t.key n).rec_ = (if kyLife (s.key n).rec_ = 1 then putAt (s.key n).rec_ 4 (le 2 (kyCount (s.key n).rec_ - 1)) else (s.key n).rec_)
        ∧ (t.key n).bad = (s.key n).bad ∧ (∀ m, m ≠ n → t.key m = s.key m) ∧ Only [.qf, .keys] s t)
    ∧ (∀ (r : Req) (s : State), let n := unitIx r.b
      let o := krOff r.b
      let k := derivedKey (s.key n).rec_ r.b
      let m := cmac k (r.b.drop (o + 20))
      let x := keyMacSpec.run r s
      let y := keyCipherSpec.run r s
      x.st = takeUse n s ∧ y.st = takeUse n s ∧ (keyEcdhSpec.run r s).st = takeUse n s ∧ (keySignSpec.run r s).st.keys = (takeUse n s).keys
        ∧ (rd r.b o 1 ≠ 1 → x.status = .ok ∧ x.data = m) ∧ (rd r.b o 1 = 1 → x.data = [] ∧ (x.status = .ok ↔ sub r.b (o + 4) 16 = m) ∧ (x.status = .verify ↔ sub r.b (o + 4) 16 ≠ m))
        ∧ y.status = .ok ∧ y.data = aesCtr k (sub r.b (o + 4) 16) (r.b.drop (o + 20)))
    ∧ (∀ (u : Nat) (b : Rec) (s : State), (keyOk s (unitIx b) [1, 2] u = false → aesUse u b s = some (.key, unitIx b))
        ∧ (keyOk s (unitIx b) [1, 2] u = true → krDepth b = 0 → aesUse u b s = none))
    ∧ (∀ (n : Nat) (u : Int) (s : State), let c := (s.key n).rec_
      (s.key n).lost = false → (s.key n).bad = false → kyType c ≠ 0 → kyLife c ≠ 1 → kyNotBefore c ≠ 0 → kyNotAfter c ≠ 0 → s.utcSec = some u →
        (keyState s n = 0 ↔ (kyNotBefore c : Int) ≤ u ∧ u ≤ kyNotAfter c))

/-- UPD_BEGIN, UPD_ACTIVATE, UPD_CANCEL, UPD_CONFIRM, UPD_ROLLBACK and UPD_SERVICE wait for the commit point; UPD_WRITE, UPD_FINISH and UPD_VERIFY act at acceptance; UPD_STATUS reads the snapshot. UPD_BEGIN opens a session on an emptied inactive bank; UPD_WRITE of a
component's block puts its octets there and notes the progress; cancel ends it; confirm retires the inactive bank and never lowers SV. UPD_ACTIVATION_TICK of an armed bundle restarts
Hearth by cause 5, or defers and is late while motion or the link forbids it; UPD_DEFER_TIMEOUT ends a deferral. UPD_BOOT_VERIFY_DONE flips the pointer
exactly where no step fails (else the bank is REJECTED and 0x1A0 raised). FAILED_BOOT_TIMEOUT counts a failed boot, the third falls back. -/
def Obligations.UpdateService : Prop :=
  Waits updBeginSpec .updBegin id ∧ Acts updWriteSpec .updWrite id ∧ Acts updFinishSpec .updFinish id ∧ Acts updVerifySpec .updVerify id
    ∧ Waits updActivateSpec .updActivateAt (fun b => setField b 0 0 8 0) ∧ Waits updActivateSpec .updActivateNow (fun b => setField b 0 0 8 1)
    ∧ Waits updCancelSpec .updCancel id ∧ Waits updConfirmSpec .updConfirm id ∧ Waits updRollbackSpec .updRollback id ∧ Tells updStatusSpec .updStatus id
    ∧ Waits updServiceSpec .updService id
    ∧ (∀ (r : Req) (s : State), let t := (updBeginSpec.run r s).st
      t.upd.st = 1 ∧ t.upd.owner = r.h.ctx ∧ t.upd.bundle = rd r.b 0 4 ∧ t.upd.mlen = rd r.b 4 4 ∧ t.upd.prog = [] ∧ t.bank s.inactive = [] ∧ t.mark s.inactive = 0
        ∧ t.upd.active = s.upd.active ∧ t.upd.sv = s.upd.sv ∧ Only [.upd] s t)
    ∧ (∀ (r : Req) (s : State), let c := rd r.b 0 1
      let base := blockOff (s.bank s.inactive) c (rd r.b 2 2) + rd r.b 4 2
      let t := (updWriteSpec.run r s).st
      c ≠ 0 → s.upd.service = 0 →
        (∀ i x, (r.b.drop 8)[i]? = some x → tget octDef (t.bank s.inactive) (base + i) = x)
          ∧ (∀ j, (j < base ∨ base + (r.b.length - 8) ≤ j) → tget octDef (t.bank s.inactive) j = tget octDef (s.bank s.inactive) j)
          ∧ written t c (rd r.b 2 2) = rd r.b 4 2 + rd r.b 6 2 ∧ t.mark s.inactive = 1 ∧ t.upd.st = s.upd.st ∧ Only [.upd] s t)
    ∧ (∀ (r : Req) (s : State), let t := (updCancelSpec.run r s).st
      let c := (updConfirmSpec.run r s).st
      t.upd.st = 0 ∧ t.upd.defer = none ∧ t.bank s.inactive = [] ∧ t.mark s.inactive = 0 ∧ t.upd.active = s.upd.active ∧ c.upd.st = 0 ∧ c.upd.prev = none ∧ c.upd.failed = 0
        ∧ s.upd.sv ≤ c.upd.sv ∧ c.mark s.inactive = 4 ∧ c.upd.active = s.upd.active ∧ (updRollbackSpec.run r s).st.upd = { s.upd with rollback := true }
        ∧ (updServiceSpec.run r s).st.upd = { s.upd with testEnd := true } ∧ Only [.upd] s t ∧ Only [.qf, .upd] s c)
    ∧ (∀ s : State, s.upd.st = 3 → s.hearthUp = true → s.upd.defer = none → let a := advTo s.upd.v s
      ((actBusy a = true ∨ s.link.lost = true ∨ a.rejoining = true) → exec .updActivationTick s = .next (onUpd (fun u => { u with late := true, defer := some a.fn }) a))
        ∧ (actBusy a = false → s.link.lost = false → a.rejoining = false →
            exec .updActivationTick s = .next (onUpd (fun u => { u with verifying := true, defer := none }) (hearthRestart 5 a))))
    ∧ (∀ (s : State) (f : Fn), s.upd.defer = some f → s.upd.st = 3 → s.hearthUp = true → s.link.lost = false → s.rejoining = false →
      (1000 ≤ (s.fn - f).toNat → exec .updDeferTimeout s = .next (onUpd (fun u => { u with verifying := true, defer := none }) (hearthRestart 5 s)))
        ∧ ((s.fn - f).toNat < 1000 → exec .updDeferTimeout s = .next s))
    ∧ (∀ (bad : List Nat) (s : State), s.upd.verifying = true → s.hearthUp = false → s.pwr.resetLow = none → s.pwr.xtal25 = true → s.pwr.vpor = false →
      let ok : Bool := verifyStep s s.inactive = 0
      ∃ b, exec (.updBootVerifyDone bad) s = .next (hearthStart bad (if ok then b else raise 0x1A0 0 b)) ∧ b.upd.active = (if ok then s.inactive else s.upd.active)
        ∧ b.upd.st = (if ok then 4 else 0) ∧ b.upd.newBank = (ok || s.upd.newBank) ∧ b.upd.failed = (if ok then 0 else s.upd.failed) ∧ b.mark s.upd.active = (if ok then 5 else s.mark s.upd.active)
        ∧ b.mark s.inactive = (if ok then s.mark s.inactive else 3) ∧ Only [.ces, .upd] s b ∧ (ok = false → b.ces = s.ces))
    ∧ (∀ s : State, s.upd.st = 4 → s.hearthUp = true → s.upd.rejoined = false → let a := onUpd (fun u => { u with rejoined := true }) (advTo (s.upd.released + msTicks 2000) s)
      (s.upd.failed < 2 → exec .failedBootTimeout s = .next (onUpd (fun u => { u with failed := u.failed + 1 }) a))
        ∧ (2 ≤ s.upd.failed → exec .failedBootTimeout s = .next (fallBack (onUpd (fun u => { u with failed := u.failed + 1 }) a))))

/-- IN_CONFIG and IN_GLOBAL wait for the commit point and put their records in force; IN_STATUS, IN_CFG_READ and MON_READ read the snapshot. DEBOUNCED_EDGE of an input that is sampled, the last of DEB samples since its history began, and whose state differs, changes that input alone, stamps it and
tells the contexts of NTF_CTX; during park entry it is a wake source too; the input that triggers passive access starts it at its rising edge; an input that is not sampled, or has that
state, changes nothing. In park a sensed edge changes it and is a wake source where WAKE selects it. DROOP_DETECTOR_TRIP stretches the clock of MGMT, CORE, SEC or QF and counts; NET, BUS and TB never; an island already stretched is not counted again (the model's choice, log 35); DROOP_CLEAR ends it. -/
def Obligations.InputsAndMonitors : Prop :=
  Waits inConfigSpec .inConfig id ∧ Tells inStatusSpec .inStatus id ∧ Waits inGlobalSpec .inGlobal id ∧ Tells monReadSpec .monRead id ∧ Tells inCfgReadSpec .inCfgRead id
    ∧ (∀ (r : Req) (s : State), let t := (inConfigSpec.run r s).st
      let g := (inGlobalSpec.run r s).st
      t.com.inCfgOf (rd r.b 0 1) = r.b ∧ (∀ m, m ≠ rd r.b 0 1 → t.com.inCfgOf m = s.com.inCfgOf m) ∧ t.com.inGlob = s.com.inGlob ∧ g.com.inGlob = r.b ∧ g.com.inCfg = s.com.inCfg
        ∧ (inCfgReadSpec.run r s).data = s.com.inCfgOf (rd r.b 0 1) ∧ Only [.com] s t ∧ Only [.com] s g)
    ∧ (∀ (n : Nat) (v : Bool) (s : State), let c := s.anvil.vals.inCfgOf n
      let f := s.anvil.lastFn
      let samples := samplesFrom n (qfPeriod c) (tget debFromDef s.anvil.mon.debFrom n) f
      let wake : State → State := fun a => if s.pwr.entry ≠ 0 then deviceWake 4 n 0 0 (wakeEdge c v) a else a
      n < 96 → s.pwr.state < 2 →
        (bit s.anvil.mon.deb n = v → exec (.debouncedEdge n v) s = .next s)
          ∧ ((f.toNat % qfPeriod c ≠ n % qfPeriod c ∨ samples < qfDeb c) → exec (.debouncedEdge n v) s = .next s)
          ∧ (bit s.anvil.mon.deb n ≠ v → f.toNat % qfPeriod c = n % qfPeriod c → qfDeb c ≤ samples →
              ∃ a, a.anvil.mon.deb = (if v then s.anvil.mon.deb + 2 ^ n else s.anvil.mon.deb - 2 ^ n) ∧ tget (fun _ => (0 : Tb)) a.anvil.mon.debTb n = a.tbNow
                ∧ tget debFromDef a.anvil.mon.debFrom n = f + 1
                ∧ a.anvil.ch = s.anvil.ch ∧ Only [.anvil, .time, .qf] s a
                ∧ ((v = false ∨ afTrigEn s.acc.cfg = false ∨ afTrig s.acc.cfg ≠ n ∨ afVid s.acc.cfg = 0) → exec (.debouncedEdge n v) s = .next (inChange n v (wake a)))
                ∧ ((v = true ∧ afTrigEn s.acc.cfg = true ∧ afTrig s.acc.cfg = n ∧ afVid s.acc.cfg ≠ 0) → exec (.debouncedEdge n v) s = .next (accTrigger (inChange n v (wake a))))))
    ∧ (∀ (n : Nat) (v : Bool) (s : State), let c := s.anvil.vals.inCfgOf n
      n < 96 → s.parked = true →
        ((bit s.anvil.mon.deb n = v ∨ qfParkPer c = 0) → exec (.debouncedEdge n v) s = .next s)
          ∧ (bit s.anvil.mon.deb n ≠ v → qfParkPer c ≠ 0 → ∃ a b, b = deviceWake 4 n 0 0 (wakeEdge c v) a
              ∧ a.anvil.mon.deb = (if v then s.anvil.mon.deb + 2 ^ n else s.anvil.mon.deb - 2 ^ n) ∧ a.pwr = s.pwr ∧ Only [.anvil] s a
              ∧ ((v = false ∨ afTrigEn s.acc.cfg = false ∨ afTrig s.acc.cfg ≠ n ∨ afVid s.acc.cfg = 0) → exec (.debouncedEdge n v) s = .next b)
              ∧ ((v = true ∧ afTrigEn s.acc.cfg = true ∧ afTrig s.acc.cfg = n ∧ afVid s.acc.cfg ≠ 0) →
                  exec (.debouncedEdge n v) s = .next (onAcc (fun x => { x with trigWait := x.trigWait || wakeEdge c v }) b))))
    ∧ (∀ (i : Nat) (s : State), ((i = 2 ∨ i = 5 ∨ i = 6 ∨ s.link.stretched.getD i false = true) → exec (.droopDetectorTrip i) s = .next s)
        ∧ ((i = 0 ∨ i = 1 ∨ i = 3 ∨ i = 4) → s.link.stretched.getD i false = false → s.link.stretched.length = 7 → s.link.stretchCount.length = 7 →
            ∃ u, exec (.droopDetectorTrip i) s = .next u ∧ u.link.stretched.getD i false = true ∧ u.link.stretchCount.getD i 0 = s.link.stretchCount.getD i 0 + 1
              ∧ (∀ j, j ≠ i → u.link.stretched.getD j false = s.link.stretched.getD j false ∧ u.link.stretchCount.getD j 0 = s.link.stretchCount.getD j 0) ∧ Only [.link] s u)
        ∧ (∃ u, exec (.droopClear i) s = .next u ∧ u.link.stretched.getD i false = false ∧ (∀ j, j ≠ i → u.link.stretched.getD j false = s.link.stretched.getD j false)
              ∧ u.link.stretchCount = s.link.stretchCount ∧ Only [.link] s u))

/-- PWR_CONFIG, PWR_SET and PAD_RELEASE wait for the commit point, HEARTH_RESTART acts at acceptance, PWR_STATUS and PWR_WAKE_LIST read the snapshot. PWR_SET RUN is RUN at once, IDLE and PARK are noted with their frame. PARK_ENTRY_BEGIN begins the entry at its frame;
PARK_AP1, all drained, puts the ports to sleep or off; PARK_AP2 writes the save image: committed state, contexts, notifications, timers; PARK_AP3 takes Hearth down, holds the pads and
discards the queues of hosts and tasks; PARK_ENTRY_TIMEOUT after 2,000 frames has the entry abandoned. PARK_DEEPEN goes to PARK-D; PARK_TIMER_EXPIRY wakes and restarts the timer; PARK_MODEL_UPDATE steps the
models of channels that do not conduct. -/
def Obligations.PowerAndPark : Prop :=
  Waits pwrConfigSpec .pwrConfig id ∧ Waits pwrSetSpec .pwrSetRun (fun b => setField b 0 0 8 0) ∧ Waits pwrSetSpec .pwrSetIdle (fun b => setField b 0 0 8 1)
    ∧ Waits pwrSetSpec (fun h b => .pwrSetPark h b false) (fun b => setField b 0 0 8 2) ∧ Waits pwrSetSpec (fun h b => .pwrSetPark h b true) (fun b => setField b 0 0 8 3)
    ∧ Tells pwrStatusSpec .pwrStatus id ∧ Waits padReleaseSpec .padRelease id ∧ Tells pwrWakeListSpec .pwrWakeList id ∧ Acts hearthRestartSpec .hearthRestart id
    ∧ (∀ (r : Req) (s : State), (pwrConfigSpec.run r s).st.pwr = { s.pwr with cfg := r.b } ∧ (padReleaseSpec.run r s).st.pwr = { s.pwr with padsHeld := false }
        ∧ (hearthRestartSpec.run r s).st.pwr = { s.pwr with restart := some (r.h.ctx, r.h.seq) }
        ∧ (pwrSetSpec.run r s).st.pwr = (if rd r.b 0 1 = 0 then { s.pwr with state := 0, next := none } else { s.pwr with next := some (rd r.b 0 1, r.eff, r.h.ctx, r.h.seq) })
        ∧ ((blockers s).any id = true → entering s = false → 2 ≤ rd r.b 0 1 → pwrSetSpec.check r s = some (.state, 0x1C)))
    ∧ (∀ (t c : Nat) (f : Fn) (q : BitVec 16) (s : State), s.pwr.next = some (t, f, c, q) → 2 ≤ t → s.hearthUp = true → (s.fn - f).toNat < 2 ^ 31 →
        ∃ u, exec .parkEntryBegin s = .next u ∧ u.pwr.entry = 1 ∧ u.pwr.target = t ∧ u.pwr.entryFn = f ∧ u.pwr.by_ = c ∧ u.pwr.bySeq = q ∧ u.pwr.next = none ∧ u.pwr.abandon = none
          ∧ u.pwr.up = true ∧ Only [.qf, .light, .bus, .pwr] s u)
    ∧ (∀ s : State, s.pwr.entry = 1 → s.pwr.abandon = none → (s.pwr.entryFn ≠ s.fn ∨ 40000 ≤ s.tick) → ap1Ready s = true →
        ∃ u, exec .parkAp1 s = .next u ∧ u.pwr.entry = 2 ∧ (∀ p, p < 8 → (u.can p).st = (if (s.can p).st = 6 then 6 else if wfMode (s.can p).wake = 0 then 0 else 6))
          ∧ Only [.time, .qf, .light, .bus, .pwr] s u)
    ∧ (∀ (pt : Nat) (s : State), s.pwr.entry = 2 → s.pwr.abandon = none → ∃ u v, exec (.parkAp2 pt) s = .next u ∧ u.pwr.entry = 3 ∧ u.pwr.save = some v ∧ v.com = s.com
        ∧ v.ctxs = s.ctxs ∧ v.fn = s.fn ∧ v.epoch = s.link.epoch ∧ v.time.tmr = s.time.tmr ∧ u.time.ptS = max s.time.parkSeen pt ∧ u.time.park = u.time.ptS ∧ u.time.tbS = s.time.tb ∧ v.time = u.time ∧ Only [.time, .pwr] s u)
    ∧ (∀ s : State, s.pwr.entry = 3 → s.pwr.abandon = none → ∃ u, exec .parkAp3 s = .next u ∧ u.hearthUp = false ∧ u.pwr.state = s.pwr.target ∧ u.pwr.entry = 0 ∧ u.pwr.padsHeld = true
        ∧ u.pwr.waking = false ∧ u.blk = none ∧ u.snaps = [] ∧ (∀ q, parkDrains s q = false → u.queue q = s.queue q) ∧ (∀ q, (u.queue q).cfg = (s.queue q).cfg)
        ∧ u.time.cmpHold = true ∧ u.link.anvilLocalClk = true
        ∧ Only [.blk, .anvil, .time, .qf, .link, .snaps, .pwr, .acc] s u)
    ∧ (∀ s : State, s.pwr.entry = 1 → s.pwr.abandon = none → s.pwr.state < 2 →
        (2000 ≤ (s.fn - s.pwr.entryFn).toNat → ∃ u, exec .parkEntryTimeout s = .next u ∧ u.pwr.abandon = some (11, 0) ∧ u.pwr.entry = 1 ∧ Only [.pwr] s u)
          ∧ ((s.fn - s.pwr.entryFn).toNat < 2000 → exec .parkEntryTimeout s = .next s))
    ∧ (∀ s : State, s.pwr.state = 2 → pwDeepen s.pwr.cfg ≠ 0 → s.pwr.waking = false → ∃ u, exec .parkDeepen s = .next u ∧ u.pwr = { s.pwr with state := 3 }
        ∧ u.time.park = max s.time.parkSeen (s.pwr.parkPt + pwDeepen s.pwr.cfg * parkHour) ∧ Only [.time, .pwr] s u)
    ∧ (∀ s : State, s.parked = true → pwTimer s.pwr.cfg ≠ 0 → ∃ u, exec .parkTimerExpiry s = .next u ∧ u.pwr.waking = true ∧ u.pwr.state = s.pwr.state
        ∧ u.pwr.timerNext = s.pwr.timerNext + pwTimer s.pwr.cfg * parkMinute ∧ u.time.park = max s.time.parkSeen s.pwr.timerNext ∧ Only [.time, .pwr] s u)
    ∧ (∀ s : State, s.parked = true → ∃ u, exec .parkModelUpdate s = .next u ∧ u.pwr.modelAt = s.pwr.modelAt + 1 ∧ u.time.park = max s.time.parkSeen ((s.pwr.modelAt + 1) * 32768)
        ∧ (∀ n, s.conducting n = true → u.chan n = s.chan n ∧ u.coil n = s.coil n)
        ∧ (∀ n, n < 64 → s.conducting n = false → (u.chan n).theta = wireCool (pfTau (s.pfA n)) (s.chan n).theta) ∧ Only [.anvil, .time, .pwr, .free] s u)

/-- WAKE_EVENT of an enabled pin in park records the wake and wakes; SNS_FAULT switches an overloaded sensor supply off and raises 0x183, SNS_RETRY tries it again; XTAL32_STOP raises 0x186. A watchdog that expires, and a rail out of tolerance, restart Hearth with their cause; XTAL25_STOP and
RESET_N_ASSERT hold it in reset, XTAL25_RESTORED and RESET_N_RELEASE restart it; RESET_STUCK puts limp-home in force. Hearth in reset has no open or pending batch, no block
and no snapshot. HEARTH_RESET_RELEASE starts Hearth when nothing holds it, in park from the save image. -/
def Obligations.WakesAndRestarts : Prop :=
  (∀ (ix pt : Nat) (s : State), ix < 4 → s.parked = true → s.pwr.waking = false → bit (rd s.pwr.wakeRec 3 1) 3 = false → pwPin s.pwr.cfg ix = true → ∃ u, exec (.wakeEvent 3 ix pt) s = .next u ∧ u.pwr.waking = true
      ∧ u.pwr.wakes = (putWake u.pwr.wakeRec s.pwr.wakes).take 16 ∧ rd u.pwr.wakeRec 0 1 = 3 ∧ rd u.pwr.wakeRec 1 1 = ix ∧ u.pwr.state = s.pwr.state ∧ Only [.anvil, .time, .pwr] s u)
    ∧ (∀ (k : Nat) (s : State), k < 2 → (snsRail s k ≠ 0 → exec (.snsFault k) s = .next (raise 0x183 k (snsRails (onPwr (fun p => { p with snsOff := p.snsOff.set k true }) s))))
      ∧ (snsRail s k = 0 → exec (.snsFault k) s = .next s))
    ∧ (∀ (k : Nat) (s : State), k < 2 → s.pwr.snsOff.getD k false = true → ∃ u, exec (.snsRetry k) s = .next u ∧ u.pwr.snsOff = s.pwr.snsOff.set k false
        ∧ u.anvil.mon.rails = s.anvil.mon.rails.take 5 ++ [snsRail u 0, snsRail u 1] ∧ Only [.anvil, .pwr] s u)
    ∧ (∀ s : State, s.pwr.xtal32 = true → exec .xtal32Stop s = .next (raise 0x186 0 (onPwr (fun p => { p with xtal32 := false }) s)))
    ∧ (∀ s : State, s.hearthUp = true → exec .mgmtWatchdog s = .next (bootFailed (restartNote 1 (hearthHalt s)))
        ∧ (s.link.lost = false → s.parked = false → 20 ≤ s.anvil.quiet → exec .bellowsWatchdog s = .next (onAnvil (fun a => { a with quiet := 0 }) (bootFailed (restartNote 2 (hearthHalt s)))))
        ∧ (s.anvil.quiet < 20 → exec .bellowsWatchdog s = .next s)
        ∧ (∀ r mv, railBad r mv = true → exec (.railFault r mv) s = .next (bootFailed (restartNote 3 (hearthHalt
            (raise 0x181 0 (onMon (fun m => { m with rails := [if r = 0 then mv else m.rails.getD 0 0, 0, 0, 0, 0] ++ m.rails.drop 5 }) s)))))))
    ∧ (∀ s : State, s.hearthUp = true → let u := hearthHalt s
        u.hearthUp = false ∧ u.closed = [] ∧ u.blk = none ∧ u.snaps = [] ∧ (∀ c, c < 16 → (u.cx c).batch = none) ∧ (∀ p, p < 2 → (u.eth p).link = false) ∧ u.pwr.next = none
          ∧ u.pwr.entry = 0 ∧ u.link.anvilLocalClk = true ∧ u.time.cmpHold = true ∧ Only [.blk, .time, .ctxs, .link, .closed, .snaps, .bus, .pwr] s u)
    ∧ (∀ s : State, s.pwr.state ≠ 4 →
        (s.pwr.xtal25 = true → exec .xtal25Stop s = .next (raise 0x185 0 (clockSource (onPwr (fun p => { p with xtal25 := false }) (hearthHalt s)))))
          ∧ (s.pwr.xtal25 = false → exec .xtal25Restored s = .next (restartNote 7 (onPwr (fun p => { p with xtal25 := true }) s)))
          ∧ (s.pwr.resetLow = none → s.parked = false → ∃ u, exec .resetNAssert s = .next u ∧ u.pwr.resetLow = some s.tbNow ∧ u.anvil.mon.resetN = false ∧ u.hearthUp = false
              ∧ Only [.blk, .anvil, .time, .ctxs, .link, .closed, .snaps, .bus, .pwr] s u)
          ∧ (∀ t, s.pwr.resetLow = some t → let a := onMon (fun m => { m with resetN := true }) (onPwr (fun p => { p with resetLow := none }) s)
              ((s.parked = false ∨ s.pwr.waking = true) → exec .resetNRelease s = .next (restartNote 4 a)) ∧ (s.parked = true → s.pwr.waking = false → exec .resetNRelease s = .next (deviceWake 9 0 0 0 true a))))
    ∧ (∀ (t : Tb) (s : State), s.pwr.resetLow = some t → s.anvil.limp.stuck = false →
        exec .resetStuck s = .next (raise 0x182 0 (limpInForce (onAnvil (fun a => { a with limp := { a.limp with stuck := true } }) (advTo (t + msTicks 2000) s)))))
    ∧ (∀ (pt enc : Nat) (bad : List Nat) (s : State), s.hearthUp = false → s.pwr.resetLow = none → s.pwr.xtal25 = true → s.pwr.vpor = false → s.pwr.state ≠ 4 →
        s.upd.verifying = false →
        (s.parked = false → exec (.hearthResetRelease pt enc bad) s = .next (hearthStart bad s))
          ∧ (s.parked = true → s.pwr.waking = true → exec (.hearthResetRelease pt enc bad) s
              = .next (encWake enc (hearthStart bad (inputsWake (restoreSave (restoreTb (max pt s.time.parkSeen) s))))))
          ∧ (s.parked = true → s.pwr.waking = false → exec (.hearthResetRelease pt enc bad) s = .next s))
    ∧ (∀ (bad : List Nat) (s : State), let u := hearthStart bad s
        u.hearthUp = true ∧ u.snaps = [] ∧ u.closed = [] ∧ u.blk = none ∧ u.clk.commitFn = none ∧ u.pwr.slept = [] ∧ u.pwr.entry = 0 ∧ u.pending = s.pending)
    ∧ (∀ (v : Save) (s : State), s.pwr.save = some v → let u := restoreSave s
        u.com = v.com ∧ u.ctxs = v.ctxs ∧ u.fn = v.fn ∧ u.link.epoch = v.epoch ∧ u.time.cmp = v.time.cmp ∧ u.time.tmr = v.time.tmr ∧ u.time.cmpHold = true ∧ u.pwr.save = none
          ∧ Only [.com, .clk, .time, .ctxs, .qf, .link, .pwr] s u)

/-- ANVIL_POR_ASSERT below 2.2 V and REVERSE_BATTERY below -2.0 V leave the device OFF with Hearth in reset; the second also turns the H and M classes on and sets the reverse latch. ANVIL_POR_RELEASE at 2.6 V starts from power-on: contexts, link, time and frame numbers at
their reset values, every output committed off, roles, keys and the banks kept. SEQUENCER_WATCHDOG resets Anvil with every gate off, has the units held by severe faults and the limp-home
entries take their values again, raises 0x004 and has Hearth rejoin. -/
def Obligations.AnvilResets : Prop :=
  (∀ (v : Int) (s : State), v < 2200 → ∃ u, exec (.anvilPorAssert v) s = .next u ∧ u.pwr.state = 4 ∧ u.pwr.vpor = true ∧ u.hearthUp = false ∧ u.anvil.sup.vbats = v
      ∧ u.anvil.vals.ch = [] ∧ u.anvil.epoch = Anvil.initial.epoch ∧ u.blk = none ∧ Only [.blk, .anvil, .time, .ctxs, .link, .upd, .closed, .snaps, .bus, .pwr] s u)
    ∧ (∀ (v : Int) (s : State), v < -2000 → ∃ u, exec (.reverseBattery v) s = .next u ∧ u.pwr.state = 4 ∧ u.hearthUp = false ∧ u.anvil.sup.vbats = v ∧ u.anvil.sup.revLatch = true
      ∧ (∀ n, u.conducting n = decide (n < 32)) ∧ u.anvil.sup.crankOff = false ∧ u.anvil.sup.revOn = true ∧ Only [.blk, .anvil, .time, .ctxs, .link, .upd, .closed, .snaps, .bus, .pwr] s u)
    ∧ (∀ (v : Int) (test : Bool) (s : State), 2600 ≤ v → s.pwr.vpor = true → s.anvil.sup.revLatch = false → ∃ u, exec (.anvilPorRelease v test) s = .next u ∧ u.pwr.state = 0
      ∧ u.hearthUp = false ∧ u.pwr.vpor = false ∧ u.pwr.cfg = s.pwr.cfg ∧ u.clk = .initial ∧ u.link = .initial ∧ u.com.ch = [] ∧ u.com.ind = [] ∧ u.com.br = [] ∧ u.com.ls = []
      ∧ u.com.chCfg = s.com.chCfg ∧ u.com.anchor = none ∧ u.roles = s.roles ∧ u.keys = s.keys ∧ u.upd.active = s.upd.active ∧ u.upd.testMode = test
      ∧ (∀ c, (u.cx c).cfg = (s.cx c).cfg) ∧ u.pending = s.pending)
    ∧ (∀ s : State, s.pwr.state ≠ 4 → ∃ a, exec .sequencerWatchdog s = .next (onLink (fun l => { l with step := .wantReport, dump := none, repSeen := false, block := .no, report := .no, reject := .no })
        (raise 0x004 0 (accLinkLost (relimp (resafe a)))))
      ∧ a = { s with anvil := anvilOff s.anvil, bound := anvilOff s.anvil, blk := none }
      ∧ (∀ n, a.conducting n = false ∨ s.anvil.sup.revOn = true))

/-- FLT_CONFIG, FLT_CLEAR and FLT_GLOBAL wait for the commit point; FLT_STATUS, FLT_HISTORY and FLT_STICKY tell the state at execution. An event of an instance counts it in EVENTS; not SEVERE, it counts in COUNT within W frames of WIN_START, opens a window else,
and makes it SEVERE where COUNT reaches N, whatever its class; SEVERE, nothing else of it changes; no other instance changes. FLT_CLEAR of one instance with no event at the tick of its commit point clears SEVERE and COUNT of it alone and drops its waiting reaction;
its WIN_START and SEVERE_TB stand (the model's reading, DEDUCED, log entry 15). FLT_GLOBAL sets NEXT and erases the ring; FLT_CONFIG puts FLT_CFG of that source in force. -/
def Obligations.FaultCollection : Prop :=
  Waits fltConfigSpec .fltConfig id ∧ Tells fltStatusSpec .fltStatus id ∧ Tells fltHistorySpec .fltHistory id ∧ Waits fltClearSpec .fltClear id ∧ Tells fltStickySpec .fltSticky id ∧ Waits fltGlobalSpec .fltGlobal id
    ∧ (∀ (src i d : Nat) (s : State), let x := s.fltInst src i
      let t := raiseD src i d s
      let y := t.fltInst src i
      y.events = x.events + 1 ∧ (∀ k, k ≠ fkey src i → tget fltInstDef t.flt.inst k = tget fltInstDef s.flt.inst k)
        ∧ (x.severe = true → y.severe = true ∧ y.count = x.count ∧ y.winStart = x.winStart ∧ y.severeTb = x.severeTb ∧ y.cls = x.cls ∧ y.group = x.group)
        ∧ (x.severe = false →
            ((x.count = 0 ∨ 50000 * ffW (s.fltCfgOf src) < (s.tbNow - x.winStart).toNat) → y.winStart = s.tbNow ∧ y.count = 1)
              ∧ (x.count ≠ 0 → (s.tbNow - x.winStart).toNat ≤ 50000 * ffW (s.fltCfgOf src) → y.winStart = x.winStart ∧ y.count = x.count + 1)
              ∧ (y.count < ffN (s.fltCfgOf src) → y.severe = false)
              ∧ (ffN (s.fltCfgOf src) ≤ y.count → y.severe = true ∧ y.severeTb = s.tbNow ∧ y.cls = ffClass (s.fltCfgOf src) ∧ y.group = ffGroup (s.fltCfgOf src) ∧ y.errpin = ffErr (s.fltCfgOf src))))
    ∧ (∀ (r : Req) (s : State), let src := rd r.b 0 2
      let i := rd r.b 2 2
      let t := (fltClearSpec.run r s).st
      i ≠ 0xFFFF →
        ((bit (rd r.b 4 1) 0 = true ∧ (s.fltInst src i).atTb ≠ s.tbNow) → (t.fltInst src i).severe = false ∧ (t.fltInst src i).count = 0 ∧ (t.fltInst src i).events = (s.fltInst src i).events
            ∧ (t.fltInst src i).winStart = (s.fltInst src i).winStart ∧ (t.fltInst src i).severeTb = (s.fltInst src i).severeTb ∧ (src, i) ∉ t.flt.heldReq
            ∧ ∀ k, k ≠ fkey src i → tget fltInstDef t.flt.inst k = tget fltInstDef s.flt.inst k)
          ∧ (bit (rd r.b 4 1) 0 = false → t.flt.inst = s.flt.inst ∧ t.flt.heldReq = s.flt.heldReq ∧ Only [.qf, .flt] s t)
          ∧ t.flt.sticky = (if bit (rd r.b 4 1) 1 then clrBit s.flt.sticky src else s.flt.sticky))
    ∧ (∀ (r : Req) (s : State), let t := (fltConfigSpec.run r s).st
      let g := fltGlobalSpec.run r s
      t.fltCfgOf (rd r.b 0 2) = r.b ∧ (∀ k, k ≠ rd r.b 0 2 → t.fltCfgOf k = s.fltCfgOf k) ∧ t.com.chCfg = s.com.chCfg ∧ Only [.com] s t
        ∧ g.st.flt.captureNext = rd r.b 0 1 ∧ g.st.flt.capture = s.flt.capture ∧ g.st.flt.ring = (if bit (rd r.b 1 1) 0 then [] else s.flt.ring)
        ∧ g.st.flt.overwritten = (if bit (rd r.b 1 1) 0 then 0 else s.flt.overwritten) ∧ g.st.flt.inst = s.flt.inst ∧ g.st.flt.sticky = s.flt.sticky ∧ Only [.flt] s g.st
        ∧ (fltStickySpec.run r s).data = le 64 s.flt.sticky
        ∧ (fltStatusSpec.run r s).data = s.fltCfgOf (rd r.b 0 2) ++ [BitVec.ofNat 8 (s.fltInst (rd r.b 0 2) (rd r.b 2 2)).count,
            BitVec.ofNat 8 (b2n (s.fltInst (rd r.b 0 2) (rd r.b 2 2)).severe + 2 * b2n (bit s.flt.sticky (rd r.b 0 2))), 0, 0] ++ le 6 (s.fltInst (rd r.b 0 2) (rd r.b 2 2)).winStart.toNat
            ++ le 6 (s.fltInst (rd r.b 0 2) (rd r.b 2 2)).severeTb.toNat ++ le 4 (s.fltInst (rd r.b 0 2) (rd r.b 2 2)).events.toNat)

/-- TIME_ANCHOR, CMP_SET and TMR_CONFIG wait for the commit point; TB_READ, CMP_STATUS and TMR_STATUS read the snapshot. SET puts its anchor in force and clears TB_RESTORED, CLEAR removes it; CMP_SET commits a channel's record, a changed binding being a reassignment; TMR_CONFIG
commits a timer's record. COMPARE_FIRE of an armed channel
fires it after the lower channels of its tick: each counts, disarms a one-shot or moves a periodic one past the firing instant, and triggers as ACTION of the version in force says; between a Hearth start and the next frame none
fires. TIMER_OVERFLOW and TIMER_MATCH run the timer to that count by its own clock: a count at TOP overflows to 0, one that reaches MATCH sets OUT; a tick advances TB by one. -/
def Obligations.TimeBaseAndTimers : Prop :=
  Tells tbReadSpec .tbRead id ∧ Waits timeAnchorSpec .timeAnchorSet (fun b => setField b 0 0 8 0) ∧ Waits timeAnchorSpec .timeAnchorClear (fun b => setField b 0 0 8 1)
    ∧ Waits cmpSetSpec .cmpSetKeep (fun b => setField b 6 0 2 0) ∧ Waits cmpSetSpec .cmpSetArm (fun b => setField b 6 0 2 1)
    ∧ Waits cmpSetSpec .cmpSetDisarm (fun b => setField b 6 0 2 2) ∧ Tells cmpStatusSpec .cmpStatus id ∧ Waits tmrConfigSpec .tmrConfig id ∧ Tells tmrStatusSpec .tmrStatus id
    ∧ (∀ (r : Req) (s : State), let t := (timeAnchorSpec.run r s).st
      (rd r.b 0 1 = 0 → t.com.anchor = some { utc := rd r.b 4 8, tb := BitVec.ofNat 48 (rd r.b 12 6), rate := sx 32 (rd r.b 20 4) } ∧ t.time.restored = false)
        ∧ (rd r.b 0 1 ≠ 0 → t.com.anchor = none ∧ t.time = s.time) ∧ t.time.tb = s.time.tb ∧ Only [.com, .time] s t)
    ∧ (∀ (r : Req) (s : State), let n := unitIx r.b
      let c := s.com.cmpOf n
      let t := (cmpSetSpec.run r s).st
      (t.com.cmpOf n).action = cmpAction r.b ∧ (t.com.cmpOf n).queue = rd r.b 8 2 ∧ (t.com.cmpOf n).timer = rd r.b 10 1
        ∧ (cmpArm r.b = 0 → (t.com.cmpOf n).arm = c.arm) ∧ (cmpArm r.b = 2 → (t.com.cmpOf n).arm = some none)
        ∧ (∀ v, cmpArm r.b = 1 → timeRef s r.b 12 = .ok v → (t.com.cmpOf n).arm = some (some (v, rd r.b 24 8)))
        ∧ t.gen 7 n = (if c.action ≠ cmpAction r.b ∨ c.queue ≠ rd r.b 8 2 ∨ c.timer ≠ rd r.b 10 1 then nextGen (s.gen 7 n) else s.gen 7 n)
        ∧ (∀ m, m ≠ n → t.com.cmpOf m = s.com.cmpOf m) ∧ (∀ k, k ≠ ukey 7 n → t.role k = s.role k) ∧ Only [.roles, .com] s t)
    ∧ (∀ (r : Req) (s : State), let t := (tmrConfigSpec.run r s).st
      t.com.tmrCfgOf (rd r.b 0 1 % 16) = r.b ∧ (∀ m, m ≠ rd r.b 0 1 % 16 → t.com.tmrCfgOf m = s.com.tmrCfgOf m) ∧ Only [.com] s t)
    ∧ (∀ (n : Nat) (s : State), (s.cmpRun n).armed = true → s.hearthUp = true →
      (s.time.cmpHold = true → exec (.compareFire n) s = .next s)
        ∧ (s.time.cmpHold = false → let t := if (s.cmpRun n).late then s.tickTb 200 else (s.cmpRun n).value
            exec (.compareFire n) s = .next ((cmpBefore s n ++ [n]).foldl (cmpFireAt t) (advTo t s)) ∧ (cmpBefore s n).Pairwise (· < ·)
              ∧ (∀ m, m ∈ cmpBefore s n ↔ m < n ∧ (s.cmpRun m).armed = true ∧ (if (s.cmpRun m).late then s.tickTb 200 else (s.cmpRun m).value) = t)))
    ∧ (∀ (t : Tb) (n : Nat) (s : State), let x := s.cmpRun n
      let m := (t - x.value).toNat / x.period + 1
      let u := cmpFireAt t s n
      (u.cmpRun n).fires = x.fires + 1 ∧ (u.cmpRun n).late = false
        ∧ (x.period = 0 → (u.cmpRun n).armed = false ∧ (u.cmpRun n).value = x.value ∧ (u.cmpRun n).missedTotal = x.missedTotal)
        ∧ (x.period ≠ 0 → (u.cmpRun n).armed = true ∧ (u.cmpRun n).value = x.value + BitVec.ofNat 48 (m * x.period)
            ∧ (u.cmpRun n).missedTotal = x.missedTotal + BitVec.ofNat 32 (m - 1))
        ∧ (∀ k, k ≠ n → u.cmpRun k = s.cmpRun k)
        ∧ (bit (s.inForce.com.cmpOf n).action 2 = true → (s.inForce.com.cmpOf n).timer ∈ u.time.mev) ∧ Only [.time, .qf] s u)
    ∧ (∀ (n : Nat) (s : State), let t := s.tmr n
      let u := tmrCount n s
      (t.count = tmrTop t.cfg → tmrMatch t.cfg ≠ 0 → (u.tmr n).count = 0 ∧ (u.tmr n).out = false ∧ (u.tmr n).ovfTotal = t.ovfTotal + 1
            ∧ (u.tmr n).running = !(tmrOneShot t.cfg) ∧ (∀ k, k ≠ n → u.tmr k = s.tmr k) ∧ Only [.time, .qf] s u)
          ∧ (t.count + 1 = tmrMatch t.cfg → t.count ≠ tmrTop t.cfg → tmrMatch t.cfg < 16777216 → (u.tmr n).count = tmrMatch t.cfg
            ∧ (u.tmr n).out = true ∧ (u.tmr n).running = t.running ∧ (∀ k, k ≠ n → u.tmr k = s.tmr k) ∧ Only [.time, .qf] s u))
    ∧ (∀ (n : Nat) (s : State), n < 16 → let t := s.tmr n
      (exec (.timerOverflow n) s = .next (tmrRunTo n 0 s) ∧ exec (.timerMatch n) s = .next (tmrRunTo n (tmrMatch t.cfg) s))
        ∧ ∀ v, ((t.running = false ∨ gateOpen s t.cfg = false) → tmrRunTo n v s = s)
          ∧ (t.running = true → gateOpen s t.cfg = true →
              (tmrClk t.cfg = 1 → tmrRunTo n v s = advTo (s.tbNow + BitVec.ofNat 48 (tmrCountsTo t v * (tmrPre t.cfg + 1) - t.phase)) s)
                ∧ (∀ e, tmrClk t.cfg = 2 → t.edges[tmrCountsTo t v - 1]? = some e → tmrRunTo n v s = advTo e s)
                ∧ (tmrClk t.cfg = 3 → tmrCountsTo t v = 1 → n ∈ s.time.mev → tmrRunTo n v s = tickOnce s)))
    ∧ (∀ (s0 : State) (l : List Nat) (n : Nat) (s : State), n ∉ l → (s.tmr n).running = true → tmrGives (s.tmr n) s.tbNow false = true → gateOpen s0 (s.tmr n).cfg = true →
        tmrStep s0 l s n = tmrCount n (onTmr n (tmrClocked s.tbNow) s))
    ∧ (∀ (n : Nat) (s : State), (n ∈ s.time.mev → ∃ u, exec (.timerMasterEvent n) s = .next u ∧ u = tickOnce s ∧ u.time.tb = s.time.tb + 1 ∧ Only [.time, .qf] s u)
        ∧ (n ∉ s.time.mev → exec (.timerMasterEvent n) s = .next s))
    ∧ (∀ (n : Nat) (s : State), tmrSlave (s.tmr n).cfg = 2 → ((tmrMasterAct n s).tmr n).count = 0 ∧ ((tmrMasterAct n s).tmr n).out = false
        ∧ (∀ k, k ≠ n → (tmrMasterAct n s).tmr k = s.tmr k))

/-- A sequenced flit with the SEQ expected is accepted and the next is expected; any other is discarded, the first of a gap with a NAK that names the one expected, whatever its kind: it has no other effect; one that may not leave yet, a higher one waiting, is no flit. NAK_FLIT of a
NAK that is due has the other direction replay from the SEQ it names. BUS_FLIT carries the line states, toward Anvil
ending the recessive hold; BUS_FLIT_TIMEOUT begins it. FLIT_CRC_ERROR, of 256 bits whose CRC does not match, counts on its lane, the 16th of a frame fails the lane; on a failed lane it restarts the run of training flits; a flit that neither lane brings has used its
SEQ. LANE_RETRAIN restarts a failed lane's training, at most every 64 frames, TRAIN_FLIT
counts its good flits up to 1,024, which restore it. REPORT_TIMEOUT after three frames without a REPORT is link loss. -/
def Obligations.TongsLink : Prop :=
  (∀ (d : Bool) (q : BitVec 8) (typ : Nat) (s : State), let r := recvSeq d q typ s
      ((s.linkOn = false ∨ dirUp (s.dir d) = false ∨ s.mayLeave d q typ = false) → r = (s, false)) ∧ (s.linkOn = true → dirUp (s.dir d) = true → s.mayLeave d q typ = true →
      (q = (s.dir d).rx → r.2 = true ∧ (r.1.dir d).rx = q + 1 ∧ (r.1.dir d).nak = none) ∧ (q ≠ (s.dir d).rx → r.2 = false ∧ (r.1.dir d).rx = (s.dir d).rx ∧ (r.1.dir d).gap = true
        ∧ (r.1.dir d).nak = (if (s.dir d).gap then (s.dir d).nak else some (s.dir d).rx))
        ∧ r.1.dir (!d) = (if typ = 0xB then { s.dir (!d) with nak := none } else s.dir (!d)) ∧ Only [.link] s r.1))
    ∧ (∀ (q : BitVec 8) (s : State), (recvSeq true q 1 s).2 = false → (∀ g n ok, exec (.blockFlit q g n ok) s = .next (recvSeq true q 1 s).1))
    ∧ (∀ (q : BitVec 8) (s : State), ((recvSeq false q 2 s).2 = false → s.link.report ≠ .no → exec (.reportFlit q) s = .next (recvSeq false q 2 s).1)
        ∧ ((recvSeq false q 3 s).2 = false → exec (.sampleFlit q) s = .next (recvSeq false q 3 s).1)
        ∧ ((recvSeq false q 4 s).2 = false → exec (.eventFlit q) s = .next (recvSeq false q 4 s).1)
        ∧ (∀ e f g, (recvSeq true q 7 s).2 = false → exec (.rejoinFlit q e f g) s = .next (recvSeq true q 7 s).1)
        ∧ ((recvSeq false q 8 s).2 = false → s.link.reject ≠ .no → exec (.epochRejectFlit q) s = .next (recvSeq false q 8 s).1)
        ∧ (∀ f, (recvSeq true q 9 s).2 = false → exec (.dumpReqFlit q f) s = .next (recvSeq true q 9 s).1)
        ∧ (∀ l, (recvSeq false q 0xA s).2 = false → exec (.dumpFlit q l) s = .next (recvSeq false q 0xA s).1)
        ∧ (∀ d, exec (.msgFlit d q) s = .next (recvSeq d q 5 s).1)
        ∧ (∀ d w, (recvSeq d q 0xB s).2 = false → (s.dir (!d)).nak = some w → exec (.nakFlit d q w) s = .next (recvSeq d q 0xB s).1))
    ∧ (∀ (d : Bool) (q w : BitVec 8) (s : State), (recvSeq d q 0xB s).2 = true → ((s.dir (!d)).nak = some w ∨ replays (s.dir d) q = true) → ∃ u, exec (.nakFlit d q w) s = .next u
        ∧ (u.dir (!d)).replay = (s.dir (!d)).buf.dropWhile (fun e => decide (e.1 ≠ w)) ∧ (u.dir (!d)).buf = (s.dir (!d)).buf ∧ Only [.link] s u)
    ∧ (∀ (d : Bool) (x : BusLines) (s : State), s.linkOn = true → dirUp (s.dir d) = true → ∃ u, exec (.busFlit d x) s = .next u
        ∧ (if d then u.link.toAnvil = x ∧ u.link.txRecessive = false ∧ u.link.toHearth = s.link.toHearth else u.link.toHearth = x ∧ u.link.txRecessive = s.link.txRecessive
            ∧ u.link.toAnvil = s.link.toAnvil) ∧ Only [.link] s u)
    ∧ (∀ s : State, ∃ u, exec .busFlitTimeout s = .next u ∧ u.link.txRecessive = true ∧ u.link.toAnvil = .recessive ∧ u.link.toHearth = s.link.toHearth ∧ Only [.link] s u)
    ∧ (∀ (d : Bool) (l : Nat) (x : BadFlit) (s : State), l < 2 → s.linkOn = true →
        let failed (y : Dir) : Bool := if l = 0 then y.failed0 else y.failed1
        let fails (y : Dir) : Nat := if l = 0 then y.fails0 else y.fails1
        let b := match x.lost with
          | none => s
          | some (t, q) => if t = 6 then onLink (fun k => if d then { k with toAnvil := .recessive } else { k with toHearth := .recessive }) s else flitLost d t q s
        let a := onDir d (fun y => if l = 0 then { y with fails0 := y.fails0 + 1 } else { y with fails1 := y.fails1 + 1 }) b
        (flitCrcOk x.raw = true → exec (.flitCrcError d l x) s = .next s)
          ∧ (flitCrcOk x.raw = false → failed (s.dir d) = false → (fails (s.dir d) + 1 ≠ 16 → exec (.flitCrcError d l x) s = .next a) ∧ (fails (s.dir d) + 1 = 16 → exec (.flitCrcError d l x) s = .next (laneFail d l a)))
          ∧ (flitCrcOk x.raw = false → failed (s.dir d) = true → exec (.flitCrcError d l x) s
              = .next (onDir d (fun y => if l = 0 then { y with train0 := 0, restore0 := false } else { y with train1 := 0, restore1 := false }) s)))
    ∧ (∀ (d : Bool) (t : Nat) (q : BitVec 8) (s : State), (s.mayLeave d q t = false → flitLost d t q s = s)
        ∧ (s.mayLeave d q t = true → replays (s.dir d) q = false → let u := flitLost d t q s
            (u.dir d).tx = (s.dir d).tx + 1 ∧ ((u.dir d).buf).getLast? = some (q, t) ∧ (u.dir d).rx = (s.dir d).rx ∧ Only [.link, .flt] s u))
    ∧ (∀ (d : Bool) (l : Nat) (s : State), l < 2 → s.linkOn = true →
        let failed (y : Dir) : Bool := if l = 0 then y.failed0 else y.failed1
        let train (y : Dir) : Nat := if l = 0 then y.train0 else y.train1
        let training (y : Dir) : Bool := if l = 0 then y.training0 else y.training1
        let restore (y : Dir) : Bool := if l = 0 then y.restore0 else y.restore1
        let last (y : Dir) : Option Fn := if l = 0 then y.retrain0 else y.retrain1
        (failed (s.dir d) = true → (∀ f, last (s.dir d) = some f → 64 ≤ (s.anvil.lastFn - f).toNat) → ∃ u, exec (.laneRetrain d l) s = .next u ∧ train (u.dir d) = 0
            ∧ training (u.dir d) = true ∧ last (u.dir d) = some s.anvil.lastFn ∧ u.dir (!d) = s.dir (!d) ∧ Only [.link] s u)
          ∧ (∀ f, (failed (s.dir d) = false ∨ (last (s.dir d) = some f ∧ (s.anvil.lastFn - f).toNat < 64)) → exec (.laneRetrain d l) s = .next s)
          ∧ (failed (s.dir d) = true → training (s.dir d) = true → ∃ u, exec (.trainFlit d l) s = .next u ∧ train (u.dir d) = min 1024 (train (s.dir d) + 1)
              ∧ (restore (u.dir d) = true ↔ restore (s.dir d) = true ∨ 1024 ≤ train (s.dir d) + 1) ∧ u.dir (!d) = s.dir (!d) ∧ Only [.link] s u))
    ∧ (∀ s : State, s.hearthUp = true → s.parked = false → (3 ≤ s.link.repMiss → exec .reportTimeout s = .next (linkLost false s)) ∧ (s.link.repMiss < 3 → exec .reportTimeout s = .next s))
    ∧ (∀ (d : Bool) (s : State), (if d then s.link.lostA else s.link.lostH) = false → ∃ a, linkLost d s = raiseDie d 0x001 0 0 a ∧ a.link.lost = true ∧ (if d then a.link.lostA else a.link.lostH) = true
        ∧ (s.link.lost = false → ∀ p, p < 8 → (s.can p).st ≠ 0 → (s.can p).st ≠ 6 → (s.can p).after = none → (a.can p).st = 5) ∧ a.pending = s.pending ∧ a.com = s.com)

/-- Of an accepted flit: BLOCK_FLIT completes a block, and Anvil validates it where its CRC is good, its frame follows the last one executed and it came before tick 49,600; a segment of another epoch's block is answered with an EPOCH_REJECT and discarded. REJOIN_FLIT is accepted exactly with the next epoch, the next frame and
Anvil's digest; and answered with a REPORT; else an EPOCH_REJECT is all there is. SAMPLE_FLIT copies the readings, EVENT_FLIT the units, to Hearth; DUMP_REQ_FLIT notes what is asked for, the last DUMP_FLIT has Hearth adopt it; EPOCH_REJECT_FLIT asks
for what changed; a REPORT_FLIT of an idle, known Anvil only updates Hearth's copy, one of the new epoch ends the rejoin. QUENCH_REQ_FLIT takes the oldest waiting request to Anvil while the link is up: its reaction acts where its source is
still severe, and one that is discarded waits for the replay. -/
def Obligations.BlocksReportsAndRejoin : Prop :=
  (∀ (q : BitVec 8) (g n : Nat) (ok : Bool) (ep : BitVec 16) (f : Fn) (z : Tb) (c : Com) (s : State), (recvSeq true q 1 s).2 = true → s.blk = some (ep, f, z, c) →
      let a := s.anvil
      (ep.truncate 4 ≠ (a.epoch.truncate 4 : BitVec 4) → ∃ u, exec (.blockFlit q g n ok) s = .next u ∧ u.link.reject = .waiting ∧ Only [.link] s u)
        ∧ (ep.truncate 4 = (a.epoch.truncate 4 : BitVec 4) → (a.orphan = false ∨ a.rejoinF = some f) → g < n → g ∉ a.segs → ∃ u, exec (.blockFlit q g n ok) s = .next u ∧ Only [.anvil, .link] s u
            ∧ (a.segs.length + 1 < n → u.anvil = { a with segs := g :: a.segs })
            ∧ (n ≤ a.segs.length + 1 → u.anvil = { a with segs := [], valid := if ok = true ∧ ep = a.epoch ∧ f = a.lastFn + 1 ∧ (s.tbNow - s.time.anvilTb).toNat < 49600 then some (f, c) else a.valid }
                ∧ (ok = true → ep ≠ a.epoch → u.link.reject = .waiting))))
    ∧ (∀ (q : BitVec 8) (e : BitVec 16) (f : Fn) (d : BitVec 64) (s : State), (recvSeq true q 7 s).2 = true → let a := s.anvil
      let yes := e = nextEpoch a.epoch ∧ (a.epoch = 0 ∨ f = a.lastFn + 1) ∧ d = s.digest
      (¬ yes → ∃ u, exec (.rejoinFlit q e f d) s = .next u ∧ u.link.reject = .waiting ∧ Only [.link] s u)
        ∧ (yes → ∃ u, exec (.rejoinFlit q e f d) s = .next u ∧ u.anvil.epoch = e ∧ u.anvil.rejoinF = some f ∧ u.anvil.lastFn = (if a.epoch = 0 then f - 1 else a.lastFn)
            ∧ u.anvil.actHold = false ∧ u.anvil.quiet = 0 ∧ u.link.report = .waiting ∧ (s.parked = true → u.pwr.state = 0) ∧ (s.parked = false → u.pwr = s.pwr) ∧ u.anvil.vals = a.vals))
    ∧ (∀ (q : BitVec 8) (s : State), (recvSeq false q 3 s).2 = true → ∃ u, exec (.sampleFlit q) s = .next u ∧ u.repM = s.chM ∧ u.rep.mon = s.anvil.mon ∧ u.rep.sup = s.anvil.sup
        ∧ u.rep.ch = s.rep.ch ∧ u.rep.limp.lhin = s.anvil.limp.lhin ∧ u.rep.limp.dir = s.anvil.limp.dir ∧ Only [.rep, .repM, .link] s u)
    ∧ (∀ (q : BitVec 8) (s : State), (recvSeq false q 4 s).2 = true → ∃ u, exec (.eventFlit q) s = .next u ∧ u.rep = { s.anvil with mon := s.rep.mon } ∧ Only [.rep, .link] s u)
    ∧ (∀ (q : BitVec 8) (x : Bool) (s : State), (recvSeq true q 9 s).2 = true → ∃ u, exec (.dumpReqFlit q x) s = .next u ∧ u.link.dump = some x ∧ u.link.dumpReq = .no ∧ u.link.step = s.link.step ∧ Only [.link] s u)
    ∧ (∀ (q : BitVec 8) (x : Bool) (s : State), (recvSeq false q 0xA s).2 = true → s.link.dump = some x → let a := if x then s.bound else s.anvil
      (exec (.dumpFlit q false) s = .next (recvSeq false q 0xA s).1)
        ∧ (s.link.step = (if x then .dumpFull else .dumpChanged) → ∃ u, exec (.dumpFlit q true) s = .next u ∧ u.link.dump = none ∧ u.com = adoptCom a s.com
            ∧ u.rep = { a with mon := s.rep.mon } ∧ u.link.adopted = digestOf a s.acc ∧ Only [.com, .rep, .link] s u))
    ∧ (∀ (q : BitVec 8) (s : State), (recvSeq false q 8 s).2 = true → s.link.reject ≠ .no →
      (s.link.step = .sent → ∃ u, exec (.epochRejectFlit q) s = .next u ∧ u.link.step = .dumpChanged ∧ u.link.dumpReq = .waiting ∧ u.link.repEpoch = s.anvil.epoch ∧ u.link.repL = s.anvil.lastFn ∧ Only [.link] s u)
        ∧ ((s.link.step = .idle ∨ s.link.step = .wantReport) → ∃ u, exec (.epochRejectFlit q) s = .next u ∧ u.link.step = .dumpFull ∧ (s.anvil.epoch ≠ 0 → u.fn = s.anvil.lastFn) ∧ Only [.clk, .link] s u))
    ∧ (∀ (q : BitVec 8) (s : State), (recvSeq false q 2 s).2 = true → s.link.report ≠ .no → s.link.lost = false → dirUp s.link.h2a = true →
      (s.link.step = .sent → s.anvil.epoch = nextEpoch s.link.repEpoch → ∃ b, exec (.reportFlit q) s = .next (rejoinDone b) ∧ b.rep = { s.anvil with mon := s.rep.mon } ∧ Only [.rep, .link] s b)
        ∧ (s.link.step = .idle → s.anvil.epoch = s.link.epoch → (s.anvil.orphan = false ∨ s.anvil.rejoinF ≠ none) → ∃ u, exec (.reportFlit q) s = .next u ∧ u.link.repSeen = true ∧ u.link.repMiss = 0
          ∧ u.rep = { s.anvil with mon := s.rep.mon } ∧ u.link.step = .idle ∧ Only [.rep, .link] s u)
        ∧ (s.link.step = .idle → s.anvil.epoch ≠ s.link.epoch → ∃ u, exec (.reportFlit q) s = .next u ∧ u.link.step = .dumpFull ∧ u.link.repEpoch = s.anvil.epoch ∧ Only [.clk, .rep, .link] s u))
    ∧ (∀ s : State, (s.link.lost = true ∨ (s.flt.heldReq = [] ∧ s.flt.reqFlight = [])) → exec .quenchReqFlit s = .next s)
    ∧ (∀ (x : Nat) (i : Nat) (l : List (Nat × Nat)) (s : State), s.link.lost = false → let q := s.quenchSeq
      let r := recvSeq true q 0xD s
      (s.flt.heldReq = (x, i) :: l → s.flt.reqFlight = [] → replays s.link.h2a q = false → s.linkOn = true → dirUp s.link.h2a = true → s.mayLeave true q 0xD = true →
        (r.2 = true → let b := onFlt (fun f => { f with heldReq := l }) r.1
          exec .quenchReqFlit s = .next (if (s.fltInst x i).severe then reactAt x i b else b))
          ∧ (r.2 = false → exec .quenchReqFlit s = .next (onFlt (fun f => { f with heldReq := l, reqFlight := [(x, i)] }) r.1)))
        ∧ (s.flt.reqFlight = (x, i) :: l → replays s.link.h2a q = true → q ≠ s.link.h2a.tx → r.2 = true → let b := onFlt (fun f => { f with reqFlight := l }) r.1
            exec .quenchReqFlit s = .next (if (s.fltInst x i).severe then reactAt x i b else b)))

/-- FRAME_BOUNDARY ends a frame at Anvil and begins the next, 50,000 ticks after the last; in park no frame is executed, nor at epoch 0. With a valid block for the next frame outside orphan mode, its values are those Anvil executes, the clears and releases it carries act, and no frame is missed. Else the frame is
held: the values stand, the frame counts as missed and 0x002 is raised, and the third in a row is orphan entry, which starts the hold clock of each channel and holds every transmit input recessive. -/
def Obligations.AnvilFrames : Prop :=
  (∀ (m : FrameMeas) (s : State), s.pwr.state = 4 → exec (.frameBoundary m) s = .next s)
    ∧ (∀ (m : FrameMeas) (s : State), s.pwr.state < 2 → let t := s.time.anvilTb + 50000
      let a := onLink (fun l => { l with report := .waiting })
        (laneBoundary (frameEnd m (onTime (fun x => { x with anvilTb := t }) (onClk (fun x => if s.hearthUp then x else { x with frameTb := t }) (advTo t s)))))
      ∃ u, exec (.frameBoundary m) s = .next u ∧ u.bound = u.anvil
        ∧ Only [.anvil, .bound, .chM, .clk, .time, .sched, .ctxs, .qf, .link, .flt, .light, .bus, .pwr, .ces, .acc, .free] s u
        ∧ (m.vout0 = [] → u = if a.anvil.epoch = 0 then { a with bound := a.anvil } else { anvilFrame a with bound := (anvilFrame a).anvil }))
    ∧ (∀ (g : Fn) (com : Com) (s : State), let a := orphanLeave s.anvil
      a.valid = some (g, com) → g = a.lastFn + 1 → a.orphan = false → com.mode = s.sched.anvilMode → s.sched.imgNew = false →
        let b := inputsRestart a.vals g
          { s with anvil := { a with vals := com, lastFn := g, held := false, missed := 0, quiet := 0, actHold := a.actHold || com.actHold, valid := none, segs := [], rejoinF := none } }
        let c := if com.relFn = a.relDone then b else releaseAnvil (onAnvil (fun x => { x with relDone := com.relFn }) b)
        anvilFrame s = (List.range 8).foldl (fun s b => rippleApply b s) ((List.range 36).foldl (fun s n => sinkFrameStart n s) (degradeAct false com.degrade (runClears c))))
    ∧ (∀ s : State, let a := orphanLeave s.anvil
      a.valid = none → let b := raise 0x002 0 { s with anvil := { a with lastFn := a.lastFn + 1, held := true, missed := min 3 (a.missed + 1), quiet := a.quiet + 1, valid := none, segs := [], rejoinF := if a.rejoinF = some (a.lastFn + 1) then none else a.rejoinF } }
      anvilFrame s = if b.anvil.missed = 3 ∧ b.anvil.orphan = false then orphanEntry b else b)
    ∧ (∀ s : State, (orphanEntry s).link.txRecessive = true ∧ (orphanEntry s).link.toAnvil = .recessive ∧ Only [.anvil, .time, .qf, .link, .acc, .free] s (orphanEntry s))
    ∧ (∀ (n : Nat) (s : State), s.modeA n ≠ 7 → s.modeA n ≠ 4 → let h := if s.anvil.actHold then max (100 * cfHold (s.cfA n)) 500 else 100 * cfHold (s.cfA n)
      h ≠ 0 → ((orphanChannel n s).chan n).orphan = 1 ∧ ((orphanChannel n s).chan n).holdEnd = some (s.tbNow + msTicks h) ∧ (∀ k, k ≠ n → (orphanChannel n s).chan k = s.chan k)
        ∧ Only [.anvil] s (orphanChannel n s))
    ∧ (∀ a : Anvil, a.orphan = true → a.rejoinF = some (a.lastFn + 1) → (orphanLeave a).orphan = false ∧ (orphanLeave a).missed = 0 ∧ (orphanLeave a).lastFn = a.lastFn)

/-- A ready core takes NOP and each instruction of these groups in one cycle and goes on at the next word. ADD, SUB, ADC and SBC give Dd the exact result, wrapped or with SAT at its limit, with C the carry (of a difference in the part's sense, a free constant, log 12), V, Z and N; CMP
sets the flags alone; AND, OR and XOR give V 0, Z and N; PADD and PSUB act on each half, saturate with SAT and set Z. What the rules do not state, C after the logic operations and C, V and N after the packed ones, is a free value. A shift of 0 to 23 changes Dd alone; above, it traps.
MUL and ACC operations give Aa its sum modulo 2 to the 56 with V; RND adds 800000h and clears bits 23 to 0; ASHA shifts by -24 to 24, else it traps. Nothing else changes. -/
def Obligations.CesynArithmetic : Prop :=
  ∀ (op : CoreOp) (dd da db aa am n : Nat) (m : Int),
    CoreStep (.nop op) op 1 1 (fun k k' => k' = { k with pc := k'.pc, cycles := k'.cycles, busy := k'.busy })
    ∧ CoreStep (.add op dd da db) op 1 1 (fun k k' => ResultTo dd ((k.dr da).toInt + (k.dr db).toInt) k k' ∧ stBit k' fC = decide (2 ^ 24 ≤ (k.dr da).toNat + (k.dr db).toNat))
    ∧ CoreStep (.adc op dd da db) op 1 1 (fun k k' => ResultTo dd ((k.dr da).toInt + (k.dr db).toInt + b2n (stBit k fC)) k k'
        ∧ stBit k' fC = decide (2 ^ 24 ≤ (k.dr da).toNat + (k.dr db).toNat + b2n (stBit k fC)))
    ∧ CoreStep (.sub op dd da db) op 1 1 (fun k k' => ResultTo dd ((k.dr da).toInt - (k.dr db).toInt) k k' ∧ stBit k' fC = subCarry (decide ((k.dr da).toNat < (k.dr db).toNat)))
    ∧ CoreStep (.sbc op dd da db) op 1 1 (fun k k' => ResultTo dd ((k.dr da).toInt - (k.dr db).toInt - b2n (borrowIn k)) k k'
        ∧ stBit k' fC = subCarry (decide ((k.dr da).toNat < (k.dr db).toNat + b2n (borrowIn k))))
    ∧ CoreStep (.cmp op da db) op 1 1 (fun k k' => k' = { k with st := k'.st, pc := k'.pc, cycles := k'.cycles, busy := k'.busy } ∧ FlagsOf (k.dr da - k.dr db) k k'
        ∧ stBit k' fC = subCarry (decide ((k.dr da).toNat < (k.dr db).toNat)) ∧ (∀ b, 4 < b → k'.st.getLsbD b = k.st.getLsbD b)
        ∧ stBit k' fV = decide ((k.dr da).toInt - (k.dr db).toInt < -8388608 ∨ 8388607 < (k.dr da).toInt - (k.dr db).toInt))
    ∧ CoreStep (.andC op dd da db) op 1 1 (fun k k' => AluTo dd k k' ∧ k'.dr dd = k.dr da &&& k.dr db ∧ stBit k' fV = false ∧ FlagsOf (k'.dr dd) k k')
    ∧ CoreStep (.orC op dd da db) op 1 1 (fun k k' => AluTo dd k k' ∧ k'.dr dd = k.dr da ||| k.dr db ∧ stBit k' fV = false ∧ FlagsOf (k'.dr dd) k k')
    ∧ CoreStep (.xor op dd da db) op 1 1 (fun k k' => AluTo dd k k' ∧ k'.dr dd = k.dr da ^^^ k.dr db ∧ stBit k' fV = false ∧ FlagsOf (k'.dr dd) k k')
    ∧ (∀ sub : Bool, CoreStep (if sub then .psub op dd da db else .padd op dd da db) op 1 1 (fun k k' => AluTo dd k k' ∧ stBit k' fZ = decide (k'.dr dd = 0)
        ∧ ∀ h, h < 2 → let p : BitVec 12 := (k.dr da).extractLsb' (12 * h) 12
          let q : BitVec 12 := (k.dr db).extractLsb' (12 * h) 12
          let x := if sub then p.toInt - q.toInt else p.toInt + q.toInt
          (stBit k fSat = false ∨ (-2048 ≤ x ∧ x ≤ 2047) → (k'.dr dd).extractLsb' (12 * h) 12 = BitVec.ofInt 12 x)
            ∧ (stBit k fSat = true → x < -2048 → (k'.dr dd).extractLsb' (12 * h) 12 = 0x800 ∧ stBit k' fL = true)
            ∧ (stBit k fSat = true → 2047 < x → (k'.dr dd).extractLsb' (12 * h) 12 = 0x7FF ∧ stBit k' fL = true)))
    ∧ (n < 24 → CoreStep (.shl op dd da n) op 1 1 (fun k k' => AluTo dd k k' ∧ k'.dr dd = k.dr da <<< n ∧ k'.st = k.st)
        ∧ CoreStep (.shr op dd da n) op 1 1 (fun k k' => AluTo dd k k' ∧ k'.dr dd = k.dr da >>> n ∧ k'.st = k.st)
        ∧ CoreStep (.asr op dd da n) op 1 1 (fun k k' => AluTo dd k k' ∧ k'.dr dd = (k.dr da).sshiftRight n ∧ k'.st = k.st)
        ∧ CoreStep (.rol op dd da n) op 1 1 (fun k k' => AluTo dd k k' ∧ k'.dr dd = (k.dr da).rotateLeft n ∧ k'.st = k.st))
    ∧ (24 ≤ n → ∀ i ∈ [Instr.shl op dd da n, .shr op dd da n, .asr op dd da n, .rol op dd da n], CoreTraps i op (fun _ => True) trapIllegal)
    ∧ CoreStep (.mpy op aa da db) op 1 1 (fun k k' => AccTo aa ((k.dr da).toInt * (k.dr db).toInt) k k')
    ∧ CoreStep (.mac op aa da db) op 1 1 (fun k k' => AccTo aa ((k.acc aa).toInt + (k.dr da).toInt * (k.dr db).toInt) k k')
    ∧ CoreStep (.msu op aa da db) op 1 1 (fun k k' => AccTo aa ((k.acc aa).toInt - (k.dr da).toInt * (k.dr db).toInt) k k')
    ∧ CoreStep (.mpyf op aa da db) op 1 1 (fun k k' => AccTo aa (2 * ((k.dr da).toInt * (k.dr db).toInt)) k k')
    ∧ CoreStep (.macf op aa da db) op 1 1 (fun k k' => AccTo aa ((k.acc aa).toInt + 2 * ((k.dr da).toInt * (k.dr db).toInt)) k k')
    ∧ CoreStep (.msuf op aa da db) op 1 1 (fun k k' => AccTo aa ((k.acc aa).toInt - 2 * ((k.dr da).toInt * (k.dr db).toInt)) k k')
    ∧ CoreStep (.pmacu op aa da db) op 1 1 (fun k k' => AccTo aa ((k.acc aa).toInt + ((k.dr da).toNat % 4096 * ((k.dr db).toNat % 4096) + (k.dr da).toNat / 4096 * ((k.dr db).toNat / 4096) : Nat)) k k')
    ∧ CoreStep (.pmacs op aa da db) op 1 1 (fun k k' => AccTo aa ((k.acc aa).toInt + (((k.dr da).extractLsb' 0 12).toInt * ((k.dr db).extractLsb' 0 12).toInt
        + ((k.dr da).extractLsb' 12 12).toInt * ((k.dr db).extractLsb' 12 12).toInt)) k k')
    ∧ CoreStep (.clr op aa) op 1 1 (AccTo aa 0) ∧ CoreStep (.neg op aa) op 1 1 (fun k k' => AccTo aa (-(k.acc aa).toInt) k k')
    ∧ CoreStep (.abs op aa) op 1 1 (fun k k' => AccTo aa ((k.acc aa).toInt.natAbs : Int) k k')
    ∧ CoreStep (.rnd op aa) op 1 1 (fun k k' => AccTo aa (((k.acc aa).toInt + 0x800000) / 2 ^ 24 * 2 ^ 24) k k')
    ∧ CoreStep (.adda op aa am) op 1 1 (fun k k' => AccTo aa ((k.acc aa).toInt + (k.acc am).toInt) k k')
    ∧ CoreStep (.suba op aa am) op 1 1 (fun k k' => AccTo aa ((k.acc aa).toInt - (k.acc am).toInt) k k')
    ∧ CoreStep (.tfra op aa am) op 1 1 (fun k k' => AccTo aa (k.acc am).toInt k k')
    ∧ (-24 ≤ m → m ≤ 24 → CoreStep (.asha op aa am m) op 1 1 (fun k k' => AccTo aa (if 0 ≤ m then (k.acc am).toInt * 2 ^ m.toNat else (k.acc am).toInt / 2 ^ (-m).toNat) k k'))
    ∧ (m < -24 ∨ 24 < m → CoreTraps (.asha op aa am m) op (fun _ => True) trapIllegal)

/-- R208: a read of TBL gives TB[23:0] of the tick in which the instruction executes and puts TB[47:24] of it into the latch, a read of TBH gives the latch, so the pair is one 48-bit value; at activation the latch takes TB[47:24] of the activation tick. R410: pushes go down from SP
in data memory, pops come back up, neither happens below SB or at STACK_TOP. Beside these: LD moves what its address reads as into its register, ST what its register reads as to its address, MOV one register to another (AaH is sign-extended and clears AaL, AaL and AaG leave the rest, AaH read with SAT saturates and sets L); MACX adds the product of two reads; a
queue port takes words of CELL and TAG, and each CMD takes 20 cycles more. Addresses not listed raise DATA_ADDR; a data write changes that word alone. -/
def Obligations.CesynMemory : Prop :=
  (∀ (e : CoreEnv) (k : Core), dRead e k 0x1B000 = some (e.tb.truncate 24, { k with tbh := (e.tb >>> 24).truncate 24 }) ∧ dRead e k 0x1B001 = some (k.tbh, k)
      ∧ (∀ lo k1 hi k2, dRead e k 0x1B000 = some (lo, k1) → dRead e k1 0x1B001 = some (hi, k2) → hi ++ lo = e.tb)
      ∧ (∀ a, 0x1B004 < a → dRead e k a = none) ∧ (∀ a v, 0x18000 ≤ a → a < 0x19000 → dWrite e k a v = none) ∧ (∀ a v, 0x1A100 ≤ a → dWrite e k a v = none)
      ∧ (∀ a v, a < 0x18000 → ∃ k', dWrite e k a v = some (k', 0) ∧ tget wordDef k'.data a = v ∧ (∀ b, b ≠ a → tget wordDef k'.data b = tget wordDef k.data b) ∧ k' = { k with data := k'.data }
          ∧ (dRead e k a = some (tget wordDef k.data a, k))))
    ∧ (∀ (s : State) (c : Nat), (coreEnv s c).tb = s.tbNow) ∧ (∀ (t m : Nat) (d : Rec) (adc : List (Bool × Bool × List Nat)) (s : State), ((activate t m d adc s).core (tdCore d)).tbh = (s.tbNow >>> 24).truncate 24)
    ∧ (∀ (op : CoreOp) (dn : Nat), CoreStep (.tblRead op dn) op 1 1 (fun k k' => (∀ j, j % 8 ≠ dn % 8 → k'.dr j = k.dr j) ∧ k' = { k with d := k'.d, tbh := k'.tbh, pc := k'.pc, cycles := k'.cycles, busy := k'.busy })
        ∧ ∀ (s : State), CoreReady op s → InLine 1 (s.core op.core) → ∃ u, exec (.tblRead op dn) s = .next u ∧ (u.core op.core).dr dn = s.tbNow.truncate 24
          ∧ (u.core op.core).tbh = (s.tbNow >>> 24).truncate 24 ∧ u.tbNow = s.tbNow)
    ∧ (∀ (k : Core) (v : W24) (vs : List W24), (k.sp.toNat < k.sb.toNat + 1 → pushAll k (v :: vs) = .error trapStack)
        ∧ (k.sb.toNat + 1 ≤ k.sp.toNat → k.sp.toNat ≤ 0x18000 → ∃ k', pushAll k (v :: vs) = pushAll k' vs ∧ k'.sp = k.sp - 1 ∧ tget wordDef k'.data k'.sp.toNat = v
            ∧ (∀ b, b ≠ k'.sp.toNat → tget wordDef k'.data b = tget wordDef k.data b) ∧ k' = { k with sp := k'.sp, data := k'.data })
        ∧ (k.sb.toNat + 1 ≤ k.sp.toNat → 0x18000 < k.sp.toNat → pushAll k (v :: vs) = .error trapAddr) ∧ pushAll k [] = .ok k)
    ∧ (∀ (top : BitVec 17) (k : Core) (n : Nat), (k.sp = top → popAll top k (n + 1) = .error trapStack) ∧ (k.sp ≠ top → 0x18000 ≤ k.sp.toNat → popAll top k (n + 1) = .error trapAddr)
        ∧ (k.sp ≠ top → k.sp.toNat < 0x18000 → ∀ vs k', popAll top { k with sp := k.sp + 1 } n = .ok (vs, k') → popAll top k (n + 1) = .ok (tget wordDef k.data k.sp.toNat :: vs, k')) ∧ popAll top k 0 = .ok ([], k))
    ∧ (∀ (op : CoreOp) (a : BitVec 16), CoreTraps (.call op a) op (fun k => (stBit k fLoop = true → k.pc + 1 ≠ k.le_) ∧ k.sp.toNat < k.sb.toNat + 1) trapStack
        ∧ CoreTraps (.ret op) op (fun k => (stBit k fLoop = true → k.pc + 1 ≠ k.le_) ∧ k.sp = k.stackTop) trapStack)
    ∧ (∀ (op : CoreOp) (code ea : Nat) (ext : W24), let w := if eaExt ea then 2 else 1
      code < 52 →
        (ea / 8 % 8 = 7 → ea % 8 = 1 → (code ≠ 51 ∨ ext.toNat < 65536) →
            ∀ s k1, CoreReady op s → InLine w (s.core op.core) → regWrite (s.core op.core) code ext = some k1 → InLine w k1 → ∃ u, exec (.ld op code ea ext) s = .next u
              ∧ u.core op.core = { k1 with pc := (s.core op.core).pc + BitVec.ofNat 16 w, cycles := k1.cycles + w, busy := k1.busy + w } ∧ (∀ c, c ≠ op.core → u.core c = s.core c) ∧ Only [.ces] s u)
          ∧ (¬(ea / 8 % 8 = 7 ∧ ea % 8 = 1) → ∀ s, CoreReady op s → InLine w (s.core op.core) → let e := coreEnv s op.core
            (∀ a k1 v k2 k3, eaAddr (s.core op.core) ea ext = some (a, k1) → dRead e k1 a = some (v, k2) → regWrite k2 code v = some k3 → InLine w k3 →
                ∃ u, exec (.ld op code ea ext) s = .next u ∧ u.core op.core = { k3 with pc := (s.core op.core).pc + BitVec.ofNat 16 w, cycles := k3.cycles + w, busy := k3.busy + w }
                  ∧ (∀ c, c ≠ op.core → u.core c = s.core c) ∧ Only [.ces] s u)
              ∧ (∀ v k1 a k2 k3 x, regRead (s.core op.core) code = some (v, k1) → eaAddr k1 ea ext = some (a, k2) → dWrite e k2 a v = some (k3, x) →
                ∃ u, exec (.st op code ea ext) s = .next u ∧ u.core op.core = { k3 with pc := (s.core op.core).pc + BitVec.ofNat 16 w, cycles := k3.cycles + (w + x), busy := k3.busy + (w + x) }
                  ∧ (∀ c, c ≠ op.core → u.core c = s.core c) ∧ Only [.ces] s u)))
    ∧ (∀ (op : CoreOp) (dst src : Nat) (s : State), CoreReady op s → InLine 1 (s.core op.core) → ∀ v k1 k2, regRead (s.core op.core) src = some (v, k1) → regWrite k1 dst v = some k2 → InLine 1 k2 →
        ∃ u, exec (.mov op dst src) s = .next u ∧ u.core op.core = { k2 with pc := (s.core op.core).pc + 1, cycles := k2.cycles + 1, busy := k2.busy + 1 }
          ∧ (∀ c, c ≠ op.core → u.core c = s.core c) ∧ Only [.ces] s u)
    ∧ (∀ (k : Core) (n : Nat) (v : W24), (n < 8 → regRead k n = some (k.dr n, k) ∧ regWrite k n v = some (setD n v k) ∧ ∃ k', regWrite k (8 + n) v = some k' ∧ k'.ptr n = v.truncate 17 ∧ k' = { k with p := k'.p })
        ∧ (n < 4 → (∃ k', regWrite k (32 + n) v = some k' ∧ (k'.acc n).toInt = v.toInt * 2 ^ 24 ∧ k' = { k with a := k'.a })
          ∧ (∃ k', regWrite k (36 + n) v = some k' ∧ (k'.acc n).extractLsb' 0 24 = v ∧ (k'.acc n).extractLsb' 24 32 = (k.acc n).extractLsb' 24 32 ∧ k' = { k with a := k'.a })
          ∧ (∃ k', regWrite k (40 + n) v = some k' ∧ (k'.acc n).extractLsb' 48 8 = v.truncate 8 ∧ (k'.acc n).extractLsb' 0 48 = (k.acc n).extractLsb' 0 48 ∧ k' = { k with a := k'.a })
          ∧ ((stBit k fSat = false ∨ guardOvf (k.acc n) = false) → regRead k (32 + n) = some ((k.acc n).extractLsb' 24 24, k))
          ∧ (stBit k fSat = true → guardOvf (k.acc n) = true → regRead k (32 + n) = some (if (k.acc n).msb then 0x800000 else 0x7FFFFF, setSt fL true k)))
        ∧ (52 ≤ n → regRead k n = none ∧ regWrite k n v = none) ∧ (65536 ≤ v.toNat → regWrite k 51 v = none))
    ∧ (∀ (op : CoreOp) (mc aa mx px my py : Nat) (s : State), CoreReady op s → InLine 1 (s.core op.core) → mx ≤ 4 → my ≤ 4 → let e := coreEnv s op.core
      ∀ a k1 b k2 x k3 y k4, eaPtr (s.core op.core) mx (px % 4) = some (a, k1) → eaPtr k1 my (4 + py % 4) = some (b, k2) → dRead e k2 a = some (x, k3) → dRead e k3 b = some (y, k4) →
        ∃ u, exec (.macx op mc aa mx px my py) s = .next u ∧ u.core op.core = { mulInto (mc % 8) aa x y k4 with pc := (s.core op.core).pc + 1, cycles := k4.cycles + 1, busy := k4.busy + 1 }
          ∧ (∀ c, c ≠ op.core → u.core c = s.core c) ∧ Only [.ces] s u)
    ∧ (∀ (op : CoreOp) (p w : Nat) (v : W24), p < 8 →
        (w < 16 → CoreStep (.queuePortWordWrite op p w v) op 1 1 (fun k k' => tget wordDef (k'.port p).cell w = v ∧ (k'.port p).view = (k.port p).view ∧ (k'.port p).tag = (k.port p).tag
            ∧ (∀ q, q ≠ p → k'.port q = k.port q) ∧ k' = { k with ports := k'.ports, pc := k'.pc, cycles := k'.cycles, busy := k'.busy }))
          ∧ (w = 16 → CoreStep (.queuePortWordWrite op p w v) op 1 1 (fun k k' => (k'.port p).tag = v &&& ~~~0x20 ∧ (k'.port p).cell = (k.port p).cell
            ∧ (∀ q, q ≠ p → k'.port q = k.port q) ∧ k' = { k with ports := k'.ports, pc := k'.pc, cycles := k'.cycles, busy := k'.busy })))
    ∧ (∀ (op : CoreOp) (p cmd : Nat) (i : Instr), p < 8 →
        (cmd, i) ∈ [(1, .queuePortRead op p), (2, .queuePortPush op p), (3, .queuePortMark op p), (4, .queuePortClearMark op p), (5, .queuePortRewind op p), (6, Instr.queuePortRelease op p)] →
          CoreStep i op 21 1 (fun k k' => (∃ lim fn, k'.port p = portCmd lim cmd fn (k.port p)) ∧ (∀ q, q ≠ p → k'.port q = k.port q)
            ∧ k' = { k with ports := k'.ports, pc := k'.pc, cycles := k'.cycles, busy := k'.busy }))
    ∧ ∀ (lim : Nat) (fn : Fn) (x : Port) (c : Cell), x.q.isSome = true → x.producer = false →
      (x.view[x.read]? = some c → (portCmd lim 1 fn x).read = x.read + 1 ∧ (portCmd lim 1 fn x).lastOk = true ∧ (portCmd lim 1 fn x).tag = tagOf c)
        ∧ (x.view[x.read]? = none → portCmd lim 1 fn x = { x with lastOk := false })
        ∧ portCmd lim 3 fn x = { x with mark := some x.read, lastOk := true } ∧ portCmd lim 4 fn x = { x with mark := none, lastOk := true }
        ∧ (∀ m, x.mark = some m → portCmd lim 5 fn x = { x with read := m, lastOk := true }) ∧ (x.mark = none → portCmd lim 5 fn x = { x with lastOk := false })
        ∧ portCmd lim 2 fn x = { x with lastOk := false } ∧ portCmd lim 6 fn x = { x with freed := max x.freed (portBoundary x), lastOk := true }

/-- R411: CALL pushes the address of the instruction that follows it, RET pops PC, a DO with LOOP set pushes LE, LS and LC before it loads the loop, the exit of that loop pops LC, LS and LE. Beside these: BR goes on at its target where its condition holds, JMP and CALL at theirs; DO
loads LC, LS and LE and sets LOOP, with count 0 goes on at LE, which may end a loop around it, with LE not above LS traps; at the end of a loop LC above 1 counts down and PC becomes LS with no added cycle, else the loop exits; REP with 0 skips the next instruction, which may end a loop, else repeats it RC times; a two-word or jumping
instruction at LE - 1 traps. RETT pops six registers. BMOV and BFLY process their elements and leave RC 0; stopped by a SAFE request after some, RC holds the rest and PC stays. -/
def Obligations.CesynControl : Prop :=
  let free (k : Core) : Prop := stBit k fLoop = true → k.pc + 1 ≠ k.le_
  let room (k : Core) (n : Nat) : Prop := k.sb.toNat + n ≤ k.sp.toNat ∧ k.sp.toNat ≤ 0x18000
  let held (k : Core) (n : Nat) : Prop := ∀ i, i < n → k.sp + BitVec.ofNat 17 i ≠ k.stackTop ∧ (k.sp + BitVec.ofNat 17 i).toNat < 0x18000
  let stk (k : Core) (i : Nat) : W24 := tget wordDef k.data (k.sp + BitVec.ofNat 17 i).toNat
  let below (k : Core) (i : Nat) : Nat := (k.sp - BitVec.ofNat 17 i).toNat
  let pcOnly (k k' : Core) : Prop := k' = { k with pc := k'.pc, cycles := k'.cycles, busy := k'.busy }
  (∀ (op : CoreOp) (cond : Nat) (off : Int), CoreRuns (.br op cond off) op 2 (fun k => free k ∧ condHolds k cond = some true) (fun k => k.pc + 1 + BitVec.ofInt 16 off) pcOnly
      ∧ CoreRuns (.br op cond off) op 1 (fun k => free k ∧ condHolds k cond = some false) (fun k => k.pc + 1) pcOnly ∧ (14 ≤ cond → CoreTraps (.br op cond off) op free trapIllegal))
    ∧ (∀ k, let z := stBit k fZ
      let n := stBit k fN
      let v := stBit k fV
      let c := stBit k fC
      (List.range 14).map (condHolds k) = [true, z, !z, n != v, n == v, z || (n != v), !z && (n == v), c, !c, v, !v, n, !n, stBit k fL].map some)
    ∧ (∀ (op : CoreOp) (a : BitVec 16), CoreRuns (.jmp op a) op 2 free (fun _ => a) pcOnly
      ∧ CoreRuns (.call op a) op 3 (fun k => free k ∧ room k 1) (fun _ => a) (fun k k' => k'.sp = k.sp - 1 ∧ tget wordDef k'.data k'.sp.toNat = (k.pc + 2).zeroExtend 24
          ∧ (∀ b, b ≠ k'.sp.toNat → tget wordDef k'.data b = tget wordDef k.data b) ∧ k' = { k with sp := k'.sp, data := k'.data, pc := k'.pc, cycles := k'.cycles, busy := k'.busy })
      ∧ CoreRuns (.ret op) op 3 (fun k => free k ∧ held k 1) (fun k => (stk k 0).truncate 16) (fun k k' => k' = { k with sp := k.sp + 1, pc := k'.pc, cycles := k'.cycles, busy := k'.busy })
      ∧ CoreRuns (.rett op) op 8 (fun k => free k ∧ held k 6) (fun k => (stk k 5).truncate 16) (fun k k' => k'.le_ = (stk k 0).truncate 16 ∧ k'.ls = (stk k 1).truncate 16
          ∧ k'.lc = (stk k 2).truncate 16 ∧ k'.rc = stk k 3 ∧ k'.st = stk k 4 &&& 0xFF ∧ k'.sp = k.sp + 6
          ∧ k' = { k with sp := k'.sp, le_ := k'.le_, ls := k'.ls, lc := k'.lc, rc := k'.rc, st := k'.st, nest := k.nestKept, pc := k'.pc, cycles := k'.cycles, busy := k'.busy })
      ∧ (∀ i ∈ [Instr.jmp op a, .call op a, .ret op, .rett op], CoreTraps i op (fun k => ¬free k) trapIllegal))
    ∧ (∀ (op : CoreOp) (reg : Bool) (dn count : Nat) (lend : BitVec 16), let n (k : Core) : Nat := if reg then (k.dr dn).toNat % 65536 else count
      CoreTraps (.loopDo op reg dn count lend) op (fun k => free k ∧ lend.toNat ≤ (k.pc + 2).toNat) trapIllegal
        ∧ CoreRuns (.loopDo op reg dn count lend) op 2 (fun k => free k ∧ (k.pc + 2).toNat < lend.toNat ∧ n k = 0 ∧ (stBit k fLoop = true → lend ≠ k.le_)) (fun _ => lend) pcOnly
        ∧ CoreRuns (.loopDo op reg dn count lend) op 2 (fun k => free k ∧ (k.pc + 2).toNat < lend.toNat ∧ n k = 0 ∧ stBit k fLoop = true ∧ lend = k.le_ ∧ 1 < k.lc.toNat) (fun k => k.ls)
            (fun k k' => k'.lc = k.lc - 1 ∧ k' = { k with lc := k'.lc, pc := k'.pc, cycles := k'.cycles, busy := k'.busy })
        ∧ CoreRuns (.loopDo op reg dn count lend) op 2 (fun k => (k.pc + 2).toNat < lend.toNat ∧ n k ≠ 0 ∧ stBit k fLoop = false) (fun k => k.pc + 2) (fun k k' =>
            k'.lc = BitVec.ofNat 16 (n k) ∧ k'.ls = k.pc + 2 ∧ k'.le_ = lend ∧ stBit k' fLoop = true ∧ (∀ b, b ≠ 7 → k'.st.getLsbD b = k.st.getLsbD b) ∧ k'.nest = false :: k.nest
              ∧ k' = { k with lc := k'.lc, ls := k'.ls, le_ := k'.le_, st := k'.st, nest := k'.nest, pc := k'.pc, cycles := k'.cycles, busy := k'.busy })
        ∧ CoreRuns (.loopDo op reg dn count lend) op 5 (fun k => free k ∧ (k.pc + 2).toNat < lend.toNat ∧ n k ≠ 0 ∧ stBit k fLoop = true ∧ room k 3) (fun k => k.pc + 2) (fun k k' =>
            k'.lc = BitVec.ofNat 16 (n k) ∧ k'.ls = k.pc + 2 ∧ k'.le_ = lend ∧ k'.st = k.st ∧ k'.nest = true :: k.nest ∧ k'.sp = k.sp - 3 ∧ tget wordDef k'.data (below k 1) = k.le_.zeroExtend 24
              ∧ tget wordDef k'.data (below k 2) = k.ls.zeroExtend 24 ∧ tget wordDef k'.data (below k 3) = k.lc.zeroExtend 24
              ∧ (∀ b, b ≠ below k 1 → b ≠ below k 2 → b ≠ below k 3 → tget wordDef k'.data b = tget wordDef k.data b)
              ∧ k' = { k with lc := k'.lc, ls := k'.ls, le_ := k'.le_, nest := k'.nest, sp := k'.sp, data := k'.data, pc := k'.pc, cycles := k'.cycles, busy := k'.busy }))
    ∧ (∀ (op : CoreOp), let last (k : Core) : Prop := stBit k fLoop = true ∧ k.pc + 1 = k.le_
      CoreRuns (.nop op) op 1 (fun k => last k ∧ 1 < k.lc.toNat) (fun k => k.ls) (fun k k' => k'.lc = k.lc - 1 ∧ k' = { k with lc := k'.lc, pc := k'.pc, cycles := k'.cycles, busy := k'.busy })
        ∧ CoreRuns (.nop op) op 1 (fun k => last k ∧ k.lc.toNat ≤ 1 ∧ k.nest.headD false = false) (fun k => k.le_) (fun k k' => stBit k' fLoop = false
            ∧ (∀ b, b ≠ 7 → k'.st.getLsbD b = k.st.getLsbD b) ∧ k' = { k with st := k'.st, nest := k.nest.tail, pc := k'.pc, cycles := k'.cycles, busy := k'.busy })
        ∧ CoreRuns (.nop op) op 4 (fun k => last k ∧ k.lc.toNat ≤ 1 ∧ k.nest.headD false = true ∧ held k 3) (fun k => k.le_) (fun k k' => k'.lc = (stk k 0).truncate 16 ∧ k'.ls = (stk k 1).truncate 16
            ∧ k'.le_ = (stk k 2).truncate 16 ∧ k' = { k with lc := k'.lc, ls := k'.ls, le_ := k'.le_, sp := k.sp + 3, nest := k.nest.tail, pc := k'.pc, cycles := k'.cycles, busy := k'.busy }))
    ∧ (∀ (op : CoreOp) (reg : Bool) (dn count : Nat), let n (k : Core) : Nat := if reg then (k.dr dn).toNat else count
      CoreTraps (.rep op reg dn count) op (fun k => free k ∧ stBit k fRes = false ∧ 4095 < n k) trapIllegal
        ∧ CoreRuns (.rep op reg dn count) op 1 (fun k => free k ∧ stBit k fRes = false ∧ n k = 0 ∧ (stBit k fLoop = true → k.pc + 2 ≠ k.le_)) (fun k => k.pc + 2) (fun k k' => k' = { k with rc := 0, rep := none, pc := k'.pc, cycles := k'.cycles, busy := k'.busy })
        ∧ CoreRuns (.rep op reg dn count) op 1 (fun k => free k ∧ stBit k fRes = false ∧ n k = 0 ∧ stBit k fLoop = true ∧ k.pc + 2 = k.le_ ∧ 1 < k.lc.toNat) (fun k => k.ls)
            (fun k k' => k' = { k with lc := k.lc - 1, rc := 0, rep := none, pc := k'.pc, cycles := k'.cycles, busy := k'.busy })
        ∧ CoreRuns (.rep op reg dn count) op 1 (fun k => free k ∧ stBit k fRes = true ∧ k.rc = 0 ∧ (stBit k fLoop = true → k.pc + 2 ≠ k.le_)) (fun k => k.pc + 2) (fun k k' =>
            stBit k' fRes = false ∧ k' = { k with st := k'.st, rep := none, pc := k'.pc, cycles := k'.cycles, busy := k'.busy })
        ∧ CoreRuns (.rep op reg dn count) op 1 (fun k => free k ∧ stBit k fRes = false ∧ 0 < n k ∧ n k ≤ 4095) (fun k => k.pc + 1) (fun k k' =>
            k'.rc = BitVec.ofNat 24 (n k) ∧ k'.rep = some k.pc ∧ k' = { k with rc := k'.rc, rep := k'.rep, pc := k'.pc, cycles := k'.cycles, busy := k'.busy })
        ∧ CoreRuns (.rep op reg dn count) op 1 (fun k => free k ∧ stBit k fRes = true ∧ k.rc ≠ 0) (fun k => k.pc + 1) (fun k k' =>
            k'.rep = some k.pc ∧ stBit k' fRes = false ∧ k' = { k with st := k'.st, rep := k'.rep, pc := k'.pc, cycles := k'.cycles, busy := k'.busy })
        ∧ ∀ (s : State) (a : BitVec 16), let k := s.core op.core
          CoreReady op (onCore op.core (fun k => { k with rep := none }) s) → k.rep = some a → InLine 1 k → ∃ u, exec (.nop op) s = .next u ∧ (∀ c, c ≠ op.core → u.core c = s.core c) ∧ Only [.ces] s u
            ∧ (1 < k.rc.toNat → u.core op.core = { k with rc := k.rc - 1, cycles := k.cycles + 1, busy := k.busy + 1 })
            ∧ (k.rc.toNat ≤ 1 → u.core op.core = { k with rc := 0, rep := none, pc := k.pc + 1, cycles := k.cycles + 1, busy := k.busy + 1 }))
    ∧ (∀ (op : CoreOp) (two scale : Bool) (ps pd dn : Nat) (cut : Option Nat) (s : State), let k := s.core op.core
      let e := coreEnv s op.core
      let go (f : Nat → Core → Except Nat (Core × Nat)) (n : Nat) : Core × Nat × Nat × Option Nat := blockGo f n 0 0 0 { k with st := k.st &&& ~~~64#24, rc := BitVec.ofNat 24 (k.dr dn).toNat, cut := false }
      CoreReady op s → InLine 1 k → free k → stBit k fRes = false → k.cut = false → (k.dr dn).toNat ≤ 4095 →
        (∀ f i base per, (f, i, base, per) ∈ [((fun _ => bmovOne e two ps pd), Instr.bmov op two ps pd dn cut, 2, if two then 2 else 1), (bflyOne e scale, Instr.bfly op dn scale cut, 3, 4)] →
          ∀ m k1 x, m = min (cut.getD (k.dr dn).toNat) (k.dr dn).toNat → go f m = (k1, m, x, none) → stBit k1 fLoop = stBit k fLoop → k1.le_ = k.le_ → ∃ u, exec i s = .next u ∧ (∀ c, c ≠ op.core → u.core c = s.core c) ∧ Only [.ces] s u
            ∧ u.core op.core = { k1 with rc := BitVec.ofNat 24 ((k.dr dn).toNat - m), cut := decide (m < (k.dr dn).toNat), pc := (if m < (k.dr dn).toNat then k.pc else k.pc + 1), cycles := k1.cycles + (base + per * m + x), busy := k1.busy + (base + per * m + x) }))
    ∧ ∀ (e : CoreEnv) (k : Core) (ps pd : Nat), k.amc = 0 → ps % 8 ≠ pd % 8 → (k.ptr ps).toNat < 0x18000 → (k.ptr pd).toNat < 0x18000 →
      ∃ k', bmovOne e false ps pd k = .ok (k', 0) ∧ tget wordDef k'.data (k.ptr pd).toNat = tget wordDef k.data (k.ptr ps).toNat
        ∧ (∀ b, b ≠ (k.ptr pd).toNat → tget wordDef k'.data b = tget wordDef k.data b) ∧ k'.ptr ps = BitVec.ofInt 17 ((k.ptr ps).toNat + (k.modr ps).toInt)
        ∧ k'.ptr pd = BitVec.ofInt 17 ((k.ptr pd).toNat + (k.modr pd).toInt) ∧ k' = { k with data := k'.data, p := k'.p }

/-- TASK_CONTROL and TASK_PARAM wait for the commit point, TASK_STATUS and CORE_STATUS read the snapshot; they set ENABLE of that task and words of its parameter area alone; a task disabled has the incomplete entry of its queue closed with REASON 4. TASK_ACTIVATION of an enabled task that has its entry, is not held and finds its core free puts the registers at the values of
R402 and counts; a disabled, held or late one changes nothing. TEND records the cycles, ends the activation and stages the words written in it. An ending trap ends it with nothing staged, no port and no mark left, data memory kept, the record stored, the source raised. The SAFE trap pushes six registers, clears LOOP and RES,
sets SAFE_REQ, takes 8 cycles and goes on at SAFE_ENTRY. The guards trap as BUDGET. -/
def Obligations.CesynTasks : Prop :=
  Waits taskControlSpec .taskControl id ∧ Tells taskStatusSpec .taskStatus id ∧ Waits taskParamSpec .taskParam id ∧ Tells coreStatusSpec .coreStatus id
    ∧ (∀ (r : Req) (s : State), let t := unitIx r.b
      let u := (taskControlSpec.run r s).st
      (u.task t).stored = some (bit (rd r.b 6 1) 0) ∧ u.taskOn t = bit (rd r.b 6 1) 0 ∧ (u.task t).acts = (s.task t).acts ∧ (∀ n, n ≠ t → u.task n = s.task n) ∧ u.ces.cores = s.ces.cores ∧ (bit (rd r.b 6 1) 0 = true → Only [.ces] s u)
        ∧ (bit (rd r.b 6 1) 0 = false → u = closeProducer (taskPort t) 4 (onTask t (fun x => { x with stored := some false }) s)) ∧ Only [.qf, .ces] s u)
    ∧ (∀ (r : Req) (s : State) (d : Rec), s.taskDesc (unitIx r.b) = some d → let u := (taskParamSpec.run r s).st
      let base := tdPBase d + rd r.b 6 1
      (∀ i, i < rd r.b 7 1 → tget wordDef (u.core (tdCore d)).data (base + i) = BitVec.ofNat 24 (rd r.b (8 + 3 * i) 3))
        ∧ (∀ a, (a < base ∨ base + rd r.b 7 1 ≤ a) → tget wordDef (u.core (tdCore d)).data a = tget wordDef (s.core (tdCore d)).data a)
        ∧ (∀ c, c ≠ tdCore d → u.core c = s.core c) ∧ u.ces.tasks = s.ces.tasks ∧ Only [.ces] s u)
    ∧ (∀ (t o : Nat) (i : Tab Octet) (d : Rec) (adc : List (Bool × Bool × List Nat)) (s : State), taskEnt s.sched.img s.modeNow t = some (i, o) → s.taskDesc t = some d →
      ((s.taskOn t = false ∨ s.taskHeld t = true ∨ (s.core (tdCore d)).run ≠ none ∨ startFrame (ird i (o + 3) 1) (ird i (o + 4) 1) s.fn = false) → exec (.taskActivation t adc) s = .next s)
        ∧ (s.hearthUp = true → s.taskOn t = true → s.taskHeld t = false → (s.core (tdCore d)).run = none → startFrame (ird i (o + 3) 1) (ird i (o + 4) 1) s.fn = true → t < 64 →
          ∃ u, exec (.taskActivation t adc) s = .next u ∧ let k := u.core (tdCore d)
            let k0 := s.core (tdCore d)
            k.run = some t ∧ k.pc = BitVec.ofNat 16 (tdEntry d) ∧ k.sp = BitVec.ofNat 17 (tdTop d) ∧ k.sb = BitVec.ofNat 17 (tdBound d) ∧ k.st = 0 ∧ k.amc = 0 ∧ k.lc = 0 ∧ k.ls = 0 ∧ k.le_ = 0 ∧ k.rc = 0
              ∧ (∀ n, k.acc n = 0 ∧ k.dr n = 0 ∧ k.ptr n = 0 ∧ k.modr n = 0 ∧ k.lenr n = 0) ∧ k.marks = [] ∧ k.cycles = 0 ∧ k.prog = k0.prog ∧ k.data = k0.data ∧ k.stag = k0.stag ∧ k.actFn = s.fn
              ∧ k.info.toNat % 64 = t ∧ k.info.getLsbD 8 = (s.task t).fresh ∧ k.info.getLsbD 9 = (s.task t).safeReq ∧ k.info.getLsbD 10 = decide ((s.task t).mode ≠ some s.modeNow)
              ∧ (u.task t).acts = (s.task t).acts + 1 ∧ (u.task t).fresh = false ∧ (u.task t).safeReq = false ∧ (u.task t).stored = (s.task t).stored ∧ (∀ n, n ≠ t → u.task n = s.task n)
              ∧ (∀ c, c ≠ tdCore d → u.core c = s.core c) ∧ Only [.time, .qf, .ces, .free] s u))
    ∧ (∀ (op : CoreOp) (s : State) (t : Nat), CoreReady op s → (s.core op.core).run = some t → let k := s.core op.core
      ∃ u a, exec (.tend op) s = .next u ∧ (u.core op.core).run = none ∧ (u.core op.core).marks = [] ∧ (u.core op.core).ports = [] ∧ (u.core op.core).data = k.data ∧ (u.core op.core).stag = k.stag
        ∧ (u.task t).last = k.cycles ∧ (u.task t).max = max (s.task t).max k.cycles ∧ u.ces.staged = s.ces.staged ++ [a] ∧ a.task = t
        ∧ (∀ x ∈ k.marks, (x, tget wordDef k.stag x) ∈ a.words) ∧ (∀ e ∈ a.words, e.1 ∈ k.marks) ∧ (∀ n, n ≠ t → u.task n = s.task n) ∧ (∀ c, c ≠ op.core → u.core c = s.core c) ∧ Only [.qf, .ces] s u)
    ∧ (∀ (c cause t : Nat) (s : State), (s.core c).run = some t → let k := s.core c
      ∃ v, endTrap c cause s = raise (0xDF + cause) t v ∧ (v.core c).run = none ∧ (v.core c).marks = [] ∧ (v.core c).ports = [] ∧ (v.core c).data = k.data ∧ (v.core c).prog = k.prog
        ∧ (v.core c).busy = k.busy + 8 ∧ v.ces.staged = s.ces.staged ∧ (v.task t).traps = (s.task t).traps + 1 ∧ (v.task t).cause = cause ∧ (v.task t).trapPc = savedPc k ∧ (v.task t).trapRc = k.rc ∧ (v.task t).trapSt = savedSt k
        ∧ (v.task t).trapTb = s.tbNow ∧ (v.task t).stored = (s.task t).stored ∧ (∀ n, n ≠ t → v.task n = s.task n) ∧ (∀ n, n ≠ c → v.core n = s.core n) ∧ Only [.sched, .qf, .ces] s v)
    ∧ (∀ (c t : Nat) (d : Rec) (s : State), c < 4 → (s.core c).run = some t → s.taskDesc t = some d → (s.core c).safe = 1 → tdSafe d ≠ 65535 → let k := s.core c
      (k.sp.toNat ≤ 0x18000 → k.sb.toNat + 6 ≤ k.sp.toNat → ∃ u, exec (.safeTrap c) s = .next u ∧ let j := u.core c
          let at_ (n : Nat) : W24 := tget wordDef j.data (k.sp - BitVec.ofNat 17 n).toNat
          j.pc = BitVec.ofNat 16 (tdSafe d) ∧ j.sp = k.sp - 6 ∧ at_ 1 = (savedPc k).zeroExtend 24 ∧ at_ 2 = savedSt k ∧ at_ 3 = k.rc ∧ at_ 4 = k.lc.zeroExtend 24 ∧ at_ 5 = k.ls.zeroExtend 24
            ∧ at_ 6 = k.le_.zeroExtend 24 ∧ stBit j fLoop = false ∧ stBit j fRes = false ∧ j.info = k.info ||| 512 ∧ j.cycles = k.cycles + 8 ∧ j.safe = 2 ∧ j.a = k.a ∧ j.d = k.d ∧ j.p = k.p ∧ j.stag = k.stag
            ∧ (u.task t).safeTraps = (s.task t).safeTraps + 1 ∧ (∀ n, n ≠ c → u.core n = s.core n) ∧ (∀ n, n ≠ t → u.task n = s.task n) ∧ Only [.ces] s u)
        ∧ (k.sp.toNat < k.sb.toNat + 1 → exec (.safeTrap c) s = .next (endTrap c trapStack s)))
    ∧ ∀ (c : Nat) (s : State), ((s.core c).safe ≠ 1 → exec (.safeTrap c) s = .next s)
      ∧ ((coreEnv s c).budget ≤ (s.core c).cycles → exec (.budgetTrap c) s = .next (endTrap c trapBudget s)) ∧ ((s.core c).cycles < (coreEnv s c).budget → exec (.budgetTrap c) s = .next s)
      ∧ ((s.core c).run ≠ none → exec (.taskEndGuard c) s = .next (endTrap c trapBudget (atTick 40000 s))) ∧ ((s.core c).run = none → exec (.taskEndGuard c) s = .next s)

/-- ACC_CONFIG, ACC_START, ACC_CLEAR, ACC_LOCK_CLEAR, IMMO_START and IMMO_REVOKE wait for the commit point, ACC_CALIBRATE and the phone opcodes act at acceptance, the status opcodes read the snapshot. A phone response is allowed exactly where it is in time, signed by the credential, attested with its nonce, young, near and
of a zone it may act for. A plan starts at a frame boundary, each step drives its aerials or opens the receiver, a faulted aerial stops; a reply of a known token, not locked since before the attempt, in its slot with the right MAC is valid, any other counts as a failure; the last REPLY step decides, or a re-sweep starts. Five failures of an identity within 120 s lock it, 180 s at first,
doubling to 2,880 s; the lock and its repeats end in time. IMMO_REQ repeats and gives up, release frames follow, absence and IMMO_REVOKE end the authorisation. -/
def Obligations.AccessAndImmobiliser : Prop :=
  Waits accConfigSpec .accConfig id ∧ Waits accStartSpec .accStart id ∧ Acts accCalibrateSpec .accCalibrate id ∧ Acts accHelloSpec .accPhHello id ∧ Acts accResponseSpec .accPhResponse id
    ∧ Acts accPresenceSpec .accPhPresence id ∧ Waits immoStartSpec .immoStart id ∧ Waits immoRevokeSpec .immoRevoke id ∧ Tells accStatusSpec .accStatus id ∧ Waits accClearSpec .accClear id
    ∧ Waits accLockClearSpec .accLockClear id ∧ Tells accLockStatusSpec .accLockStatus id
    ∧ (∀ (r : Req) (s : State), (accConfigSpec.run r s).st.acc = { s.acc with cfg := r.b, calNext := s.tbNow + secTicks (60 * afCalPeriod r.b) } ∧ Only [.acc] s (accConfigSpec.run r s).st
        ∧ (accClearSpec.run r s).st.acc = { s.acc with fault := clrMask s.acc.fault (rd r.b 0 1) } ∧ Only [.acc] s (accClearSpec.run r s).st
        ∧ (immoRevokeSpec.run r s).st.acc.immo = Immo.initial ∧ (s.acc.immo.st ≠ 0 → (immoStartSpec.run r s).st = s) ∧ Only [.qf, .acc] s (immoRevokeSpec.run r s).st)
    ∧ (∀ (r : Req) (s : State), let t := (accLockClearSpec.run r s).st
      t.lock (rd r.b 0 1) (rd r.b 4 4) = LockRec.initial ∧ (∀ k, k ≠ lockKey (rd r.b 0 1) (rd r.b 4 4) → tget lockDef t.acc.locks k = tget lockDef s.acc.locks k) ∧ t.acc.cfg = s.acc.cfg ∧ Only [.acc] s t)
    ∧ (∀ (r : Req) (s : State), s.acc.att = none → s.acc.wait = none → let t := (accStartSpec.run r s).st
      (∃ a, t.acc.att = some a ∧ a.first = r.eff ∧ a.mask = rd r.b 0 1 ∧ a.reqCtx = r.h.ctx ∧ a.reqSeq = r.h.seq ∧ a.plan = afLf s.acc.cfg ∧ a.planFn = none ∧ a.valid = [])
        ∧ (accStartSpec.run r s).status = .pending ∧ t.acc.locks = s.acc.locks ∧ Only [.acc] s t)
    ∧ (∀ (r : Req) (s : State), let t := (accHelloSpec.run r s).st
      (∃ x, t.exch (rd r.b 0 1) = some x ∧ x.cred = rd r.b 1 1 ∧ x.action = rd r.b 2 1 ∧ x.mask = rd r.b 3 1 ∧ x.chalTb = s.tbNow ∧ x.reqSeq = r.h.seq)
        ∧ (∀ e, e ≠ rd r.b 0 1 → t.exch e = s.exch e) ∧ t.acc.immo = s.acc.immo ∧ Only [.acc, .free] s t)
    ∧ (∀ (r : Req) (s : State) (x : Exch), s.exch (rd r.b 0 1) = some x →
      ((accResponseSpec.run r s).data[1]? = some 1 ↔ (s.tbNow - x.chalTb).toNat ≤ 1500000 ∧ keyServes s x.cred [4] 5 = true
        ∧ (∃ q, kyPoint (s.key x.cred).rec_ = some q ∧ ecdsaVerify q x.h (sub r.b 4 64) = true) ∧ (attestMac s r.b).2 = true ∧ sub r.b 68 16 = x.nD ∧ measFresh s r.b = true
        ∧ rd r.b 84 2 ≤ 10 * afMaxDist s.acc.cfg ∧ (bit x.mask (rd r.b 86 1) = true ∨ (x.action = 2 ∧ rd r.b 86 1 = 0))))
    ∧ (∀ (e dec cause zone : Nat) (x : Exch) (q : BitVec 16) (s : State), let t := (phoneDecide e x dec cause zone q s).1
      t.exch e = none ∧ (∀ j, j ≠ e → t.exch j = s.exch j) ∧ t.acc.decisions = s.acc.decisions + 1 ∧ t.acc.immo = s.acc.immo ∧ t.acc.locks = s.acc.locks ∧ Only [.qf, .acc] s t)
    ∧ (∀ (e : Nat) (s : State), (s.exch e = none → exec (.phoneExchangeTimeout e) s = .next s)
        ∧ ∀ x, s.exch e = some x → exec (.phoneExchangeTimeout e) s = .next (phoneDecide e x 2 0 7 x.reqSeq (accFail 1 (some (3, x.cred)) (advTo (x.chalTb + msTicks 30) s))).1)
    ∧ (∀ (r : Req) (s : State) (p : Tb × Rec), s.acc.immo.phone = some p → let t := accPresenceSpec.run r s
      (t.status = .ok ↔ (attestMac s r.b).2 = true ∧ sub r.b 68 16 = p.2 ∧ measFresh s r.b = true ∧ rd r.b 84 2 ≤ 10 * afMaxDist s.acc.cfg ∧ rd r.b 86 1 = 0)
        ∧ (t.status = .ok → t.st.acc.immo = { s.acc.immo with phone := some (t.st.tbNow, p.2) }) ∧ (t.status ≠ .ok → t.status = .verify ∧ t.st.acc.immo = s.acc.immo))
    ∧ (∀ (t : Tb) (k : LockRec), lockedAt k t = true → failStep 5 120 false t k = ({ k with lastFail := some t }, false))
    ∧ (∀ (t : Tb) (k : LockRec), lockedAt k t = false → let r := failStep 5 120 false t k
      (k.fails.length < 4 → r.2 = false ∧ r.1.fails = t :: k.fails ∧ r.1.lockEnd = k.lockEnd ∧ r.1.repeats = k.repeats)
        ∧ (∀ pre old, k.fails = pre ++ [old] → pre.length = 3 → ((t - old).toNat ≤ 120 * 50000000 → r.2 = true ∧ r.1.fails = [] ∧ r.1.repeats = k.repeats + 1 ∧ r.1.lockEnd = some (t + secTicks r.1.dur)
              ∧ (k.repeats = 0 → r.1.dur = 180) ∧ (k.repeats ≠ 0 → r.1.dur = min 2880 (2 * k.dur)))
            ∧ (120 * 50000000 < (t - old).toNat → r.2 = false ∧ r.1.fails = t :: k.fails ∧ r.1.lockEnd = k.lockEnd)))
    ∧ (∀ (kind id : Nat) (s : State), ((s.lock kind id).lockEnd = none → exec (.lockExpiry kind id) s = .next s) ∧ ((s.lock kind id).repeats = 0 → exec (.lockRepeatReset kind id) s = .next s)
        ∧ (∀ e, (s.lock kind id).lockEnd = some e → ∃ u, exec (.lockExpiry kind id) s = .next u ∧ u.lock kind id = { s.lock kind id with lockEnd := none }
            ∧ (∀ k, k ≠ lockKey kind id → tget lockDef u.acc.locks k = tget lockDef s.acc.locks k) ∧ Only [.time, .qf, .acc] s u)
        ∧ (∀ f, (s.lock kind id).lastFail = some f → 2 ≤ kind → (s.lock kind id).repeats ≠ 0 → ∃ u, exec (.lockRepeatReset kind id) s = .next u
            ∧ u.lock kind id = { s.lock kind id with repeats := 0 } ∧ (∀ k, k ≠ lockKey kind id → tget lockDef u.acc.locks k = tget lockDef s.acc.locks k) ∧ Only [.time, .qf, .acc] s u))
    ∧ (∀ (a : Attempt) (s : State), s.acc.att = some a → s.hearthUp = true → let f := if s.tick = 0 then s.fn else s.fn + 1
      a.planFn = none → (a.first - f).toInt ≤ 0 → let ok := planUsable s.sched.img s.com.mode s.acc.cfg (if a.kind = 1 then 1 else 0) a.plan
        (ok = true → ∃ u, exec .lfPlanStart s = .next u ∧ u.acc.att = some { a with planFn := some f, step := 255 } ∧ u.acc.wait = s.acc.wait ∧ Only [.acc] s u) ∧ (ok = false → exec .lfPlanStart s = .next (attAbort 4 s)))
    ∧ (∀ (a : Attempt) (f : Fn) (k : Nat) (x : LfStep) (s : State), s.acc.att = some a → a.planFn = some f → nextStep s a = some (k, x) →
      (a.abort ≠ 0 → exec .lfStepStart s = .next (attAbort a.abort (advTo a.stepEnd s)))
        ∧ (a.abort = 0 → k ≤ 10 → ∃ u b, exec .lfStepStart s = .next u ∧ u.acc.att = some b ∧ b.step = k ∧ b.stepEnd = planTb s f + BitVec.ofNat 48 x.stop ∧ b.valid = a.valid ∧ b.mask = a.mask
            ∧ u.acc.lfOn = (if k = 10 then 0 else drivable s x.aerials) ∧ u.acc.uhfEn = decide (k = 10) ∧ u.acc.locks = s.acc.locks ∧ Only [.time, .qf, .acc, .free] s u))
    ∧ (∀ (n : Nat) (short : Bool) (s : State), ((bit s.acc.lfOn n = false ∨ 8 ≤ n) → exec (.lfAerialFault n short) s = .next s)
        ∧ (bit s.acc.lfOn n = true → n < 8 → ∃ v, exec (.lfAerialFault n short) s = .next (raise (if short then 0x141 else 0x140) n v) ∧ v.acc.lfOn = clrBit s.acc.lfOn n
            ∧ v.acc.fault = setBit s.acc.fault n ∧ Only [.acc] s v))
    ∧ (∀ (a : Attempt) (t : Tb) (p : Option Rec) (s : State), s.acc.att = some a → let k := slotOf s.acc.cfg a.tEnd t 8 (s.acc.cal.getD 0)
      ((a.step ≠ 10 ∨ s.acc.uhfEn = false ∨ s.hearthUp = false) → exec (.uhfReply t p) s = .next s)
        ∧ (a.step = 10 → s.acc.uhfEn = true → s.hearthUp = true → (k = none → exec (.uhfReply t p) s = .next (advTo t s))
          ∧ (∀ j w, k = some j → p = some w → a.kind ≠ 2 → exec (.uhfReply t p) s = .next (judge a t j w (advTo t s)))))
    ∧ (∀ (a : Attempt) (t : Tb) (k : Nat) (p e : Rec) (s : State), (slotDelta s.acc.cfg a.tEnd t k (s.acc.cal.getD 0)).natAbs ≤ 100 → (tokens s).find? (fun e => tkTid e = rd p 0 4) = some e →
      lockedFor s (rd p 0 4) a.first = false → k = (if a.sweep = 0 then tkIndex e % 8 else 0) → keyOk s (tkSlot e) [1, 2] 4 = true →
        let ks := cmac (kyMat (s.key (tkSlot e)).rec_) (a.nv ++ sub p 4 8 ++ ascii "SESS")
        let ok := sub p 20 8 = (cmac ks (le 4 (afVid s.acc.cfg) ++ le 4 (rd p 0 4) ++ a.nv ++ sub p 4 8 ++ sub p 12 8)).take 8
        (ok → ∃ v w, judge a t k p s = onAtt (fun a => { a with valid := a.valid ++ [v] }) (accValid 2 (rd p 0 4) w) ∧ v.index = tkIndex e ∧ v.immo = tkImmo e ∧ v.zone = zoneOf w a.void (sub p 12 8)
            ∧ v.score = driverScore w a.void (sub p 12 8) ∧ Only [.qf, .keys] s w)
          ∧ (¬ok → ∃ w, judge a t k p s = accFail 0 (some (2, rd p 0 4)) w ∧ Only [.qf, .keys] s w))
    ∧ (∀ (a : Attempt) (s : State), s.acc.att = some a → a.step = 10 → a.decided = none → s.hearthUp = true → let q := lfQuiet (advTo a.stepEnd s)
      (a.abort ≠ 0 → exec .accessDecision s = .next (attAbort a.abort q)) ∧ (a.abort = 0 → a.kind = 1 → exec .accessDecision s = .next (pollDone a q))
        ∧ (a.abort = 0 → a.kind = 0 → (resweepIndex q a).isSome = true → exec .accessDecision s = .next q)
        ∧ (a.abort = 0 → a.kind = 0 → resweepIndex q a = none → ∃ u, exec .accessDecision s = .next u ∧ u.acc.decisions = s.acc.decisions + 1 ∧ u.acc.lfOn = 0 ∧ u.acc.uhfEn = false ∧ u.acc.locks = s.acc.locks
            ∧ (authToken a.valid = none → u.acc.immo = s.acc.immo) ∧ (∀ b, authToken a.valid = some b → u.acc.immo.lf = some q.tbNow) ∧ Only [.time, .qf, .acc] s u))
    ∧ (∀ (a : Attempt) (i : Nat) (s : State), s.acc.att = some a → s.hearthUp = true → (resweepIndex s a = none → exec .resweepStart s = .next s)
        ∧ (resweepIndex s a = some i → ∃ u g, exec .resweepStart s = .next u ∧ u.acc.att = some { a with plan := afRs s.acc.cfg, planFn := some g, step := 255, target := i, tried := a.tried ++ [i], sweep := a.sweep + 1, void := 0 }
            ∧ u.acc.lfOn = 0 ∧ u.acc.uhfEn = false ∧ Only [.time, .qf, .acc] s u))
    ∧ (∀ (d : Int) (s : State), ((afCalPeriod s.acc.cfg = 0 ∨ afRef s.acc.cfg = true ∨ accIdle s = false ∨ s.hearthUp = false) → exec .calRepeat s = .next s)
        ∧ (afCalPeriod s.acc.cfg ≠ 0 → afRef s.acc.cfg = false → accIdle s = true → s.hearthUp = true → ∃ u, exec .calRepeat s = .next u ∧ u.acc.uhfCal = true
            ∧ u.acc.calRun = some { ctx := 0, seq := 0, reference := none, meas := [], runs := 0 } ∧ u.acc.calNext = s.acc.calNext + secTicks (60 * afCalPeriod s.acc.cfg) ∧ Only [.time, .qf, .acc] s u)
        ∧ (∀ r, s.acc.calRun = some r → r.reference = none → let v := { s with acc := { s.acc with calRun := some { r with meas := r.meas ++ [d] } } }
            exec (.loopbackMeasurement d) s = .next (if 63 ≤ r.meas.length then calDone v else v)))
    ∧ ∀ (s : State), s.hearthUp = true → let m := s.acc.immo
      (m.st = 1 → m.tries < 5 → ∃ u, exec .immoReqRetry s = .next u ∧ u.acc.immo = { m with tries := m.tries + 1, reqNext := m.reqNext + msTicks 10 } ∧ Only [.time, .qf, .acc] s u)
        ∧ (m.st = 1 → 5 ≤ m.tries → ∃ u, exec .immoReqRetry s = .next u ∧ u.acc.immo = Immo.initial) ∧ (m.st ≠ 1 → exec .immoReqRetry s = .next s)
        ∧ (m.st = 2 → m.cnt < 0xFFFFFFFF → ∃ u, exec .immoReleasePeriod s = .next u ∧ u.acc.immo = { m with cnt := m.cnt + 1, next := m.next + msTicks (afPeriod s.acc.cfg) } ∧ Only [.time, .qf, .acc] s u)
        ∧ (m.st = 2 → 0xFFFFFFFF ≤ m.cnt → ∃ u, exec .immoReleasePeriod s = .next u ∧ u.acc.immo.st = 1 ∧ u.acc.immo.cnt = 0 ∧ u.acc.immo.lf = m.lf ∧ u.acc.immo.phone = m.phone ∧ Only [.time, .qf, .acc] s u)
        ∧ (m.st ≠ 2 → exec .immoReleasePeriod s = .next s) ∧ ((m.st = 0 ∨ m.lfIndex = 255) → exec .presencePoll s = .next s)
        ∧ (m.st ≠ 0 → m.lfIndex ≠ 255 → ∃ u, exec .presencePoll s = .next u ∧ u.acc.immo = { m with pollNext := m.pollNext + secTicks (afPollS s.acc.cfg) } ∧ Only [.time, .qf, .acc] s u
            ∧ (s.acc.att = none → planUsable s.sched.img s.com.mode s.acc.cfg 1 (afPoll s.acc.cfg) = true → ∃ b, u.acc.att = some b ∧ b.kind = 1 ∧ b.first = s.fn + 1 ∧ b.plan = afPoll s.acc.cfg)
            ∧ (s.acc.att ≠ none → u.acc.att = s.acc.att))
        ∧ (∀ t, absentAt s = some t → m.st ≠ 0 → ∃ u, exec .immoAbsentTimeout s = .next u ∧ u.acc.immo = Immo.initial ∧ Only [.time, .qf, .acc] s u) ∧ (m.st = 0 → exec .immoAbsentTimeout s = .next s)

/-- Every well-formed instruction of the Cesyn set, with every operand at every value its encoding admits, is the instruction that its word and extension word spell; the word has 24 bits. Every
well-formed command of the groups of R414 has such words. -/
def Obligations.CesynDecodeOfEncode : Prop :=
  (∀ (i : Instr) (w : Nat) (x : W24), i.wf = true → encodeCesyn i = some (w, x) → w < 2 ^ 24 ∧ ∃ op cut, decodeCesyn op cut w x = some i)
    ∧ ∀ (op : CoreOp) (cut : Option Nat) (w : Nat) (x : W24) (i : Instr), decodeCesyn op cut w x = some i → (encodeCesyn i).isSome = true

/-- From every state in which no unit has role generation 0000h and the table of owners and generations is in its canonical form, a step answers a next state of which the same holds: a generation passes from FFFFh to 0001h (R164), at an assignment, a context reset,
a fall-back or any other event. The step takes the command in front and leaves the others in their order. -/
def Obligations.RolesStayWellFormed : Prop :=
  ∀ s : State, twf roleDef s.roles = true → GensOk s → ∃ t, step s = .next t ∧ twf roleDef t.roles = true ∧ GensOk t ∧ t.pending = s.pending.tail

/-- After power-on reset the table of owners and generations is in its canonical form and no unit has generation 0000h. -/
def Obligations.RolesWellFormedAtReset : Prop := twf roleDef State.reset.roles = true ∧ GensOk State.reset
end

