-- ==== Sys2Proof/Laws/Only.lean ====
section
/-! SUPPORT. The laws of Only, the statement that a change leaves all but the named parts of the state as they are, and of Answers. -/

namespace Sys2Proof.Machine

theorem Part.same_refl (p : Part) (s : State) : p.same s s := by cases p <;> rfl

theorem Part.same_trans {p : Part} {s t u : State} (h : p.same s t) (k : p.same t u) : p.same s u := by
  cases p <;> exact Eq.trans k h

theorem Only.refl (l : List Part) (s : State) : Only l s s := fun p _ => p.same_refl s

theorem Only.trans {l : List Part} {s t u : State} (h : Only l s t) (k : Only l t u) : Only l s u :=
  fun p hp => Part.same_trans (h p hp) (k p hp)

/-- What changes only the parts of `l` changes only the parts of a longer list. -/
theorem Only.sub {l m : List Part} {s t : State} (h : Only l s t) (k : ∀ p ∈ l, p ∈ m) : Only m s t :=
  fun p hp => h p (fun q => hp (k p q))

/-- A change of the parts of `m` after a change of the parts of `l`. -/
theorem Only.after {l m : List Part} {s t u : State} (k : Only m t u) (h : ∀ p ∈ m, p ∈ l) (j : Only l s t) : Only l s u :=
  fun p hp => Part.same_trans (j p hp) ((k.sub h) p hp)

theorem Only.upd {l : List Part} {s t u : State} (h : Only l s t) (k : ∀ p, p ∉ l → p.same t u) : Only l s u :=
  fun p hp => Part.same_trans (h p hp) (k p hp)

theorem Only.cut {l : List Part} {s t : State} (x : State) (h : Only l s x) (k : Only l s x → Only l s t) : Only l s t := k h

theorem Only.ite {l : List Part} {s a b : State} {c : Prop} {_ : Decidable c} (h : Only l s a) (k : Only l s b) :
    Only l s (if c then a else b) := by
  split <;> assumption

theorem Only.foldl {γ : Type} {l : List Part} {s t : State} (f : State → γ → State) (h : ∀ s a, Only l s (f s a)) (as : List γ)
    (j : Only l s t) : Only l s (as.foldl f t) := by
  induction as generalizing t with
  | nil => exact j
  | cons a as ih => exact ih ((h t a).after (fun _ q => q) j)

theorem Answers.next {t : State} {P : State → Prop} (h : P t) : Answers (.next t) P := ⟨t, rfl, h⟩

theorem Answers.ite {l : List Part} {s : State} {a b : Host.Outcome State Fault Refusal} {c : Prop} {_ : Decidable c}
    (h : Answers a (Only l s)) (k : Answers b (Only l s)) : Answers (if c then a else b) (Only l s) := by
  split <;> assumption

theorem Answers.cut {l : List Part} {s : State} {t : Host.Outcome State Fault Refusal} (x : State) (h : Only l s x)
    (k : Only l s x → Answers t (Only l s)) : Answers t (Only l s) := k h

end Sys2Proof.Machine
end

