-- ==== Sys2Proof/Laws/Ops.lean ====
section
/-! SUPPORT. What each operation of Machine/Ops.lean leaves as it is: one law per operation, which names the parts of the state it may change. -/

namespace Sys2Proof.Machine

theorem reassign_frame (t i : Nat) (s : State) : Only [.roles] s (reassign t i s) := by
  intro p hp; cases p <;> first | rfl | exact absurd (by decide) hp

theorem onCom_frame (f : Com → Com) (s : State) : Only [.com] s (onCom f s) := by
  intro p hp; cases p <;> first | rfl | exact absurd (by decide) hp

theorem onQf_frame (f : Qf → Qf) (s : State) : Only [.qf] s (onQf f s) := by
  intro p hp; cases p <;> first | rfl | exact absurd (by decide) hp

theorem onQueue_frame (q : Nat) (f : Queue → Queue) (s : State) : Only [.qf] s (onQueue q f s) := by
  intro p hp; cases p <;> first | rfl | exact absurd (by decide) hp

theorem onCtx_frame (c : Nat) (f : Ctx → Ctx) (s : State) : Only [.ctxs] s (onCtx c f s) := by
  intro p hp; cases p <;> first | rfl | exact absurd (by decide) hp

theorem onBus_frame (f : Bus → Bus) (s : State) : Only [.bus] s (onBus f s) := by
  intro p hp; cases p <;> first | rfl | exact absurd (by decide) hp

theorem onCan_frame (p : Nat) (f : CanPort → CanPort) (s : State) : Only [.bus] s (onCan p f s) := by
  intro p hp; cases p <;> first | rfl | exact absurd (by decide) hp

theorem onLin_frame (p : Nat) (f : LinPort → LinPort) (s : State) : Only [.bus] s (onLin p f s) := by
  intro p hp; cases p <;> first | rfl | exact absurd (by decide) hp

theorem onEth_frame (p : Nat) (f : EthPort → EthPort) (s : State) : Only [.bus] s (onEth p f s) := by
  intro p hp; cases p <;> first | rfl | exact absurd (by decide) hp

theorem onPwr_frame (f : Power → Power) (s : State) : Only [.pwr] s (onPwr f s) := by
  intro p hp; cases p <;> first | rfl | exact absurd (by decide) hp

theorem onTime_frame (f : Time → Time) (s : State) : Only [.time] s (onTime f s) := by
  intro p hp; cases p <;> first | rfl | exact absurd (by decide) hp

theorem onAnvil_frame (f : Anvil → Anvil) (s : State) : Only [.anvil] s (onAnvil f s) := by
  intro p hp; cases p <;> first | rfl | exact absurd (by decide) hp

theorem onCoil_frame (n : Nat) (f : Coil → Coil) (s : State) : Only [.anvil] s (onCoil n f s) := by
  intro p hp; cases p <;> first | rfl | exact absurd (by decide) hp

theorem useFree_frame (s : State) : Only [.free] s (useFree s) := by
  intro p hp; cases p <;> first | rfl | exact absurd (by decide) hp

theorem onChan_frame (n : Nat) (f : Chan → Chan) (s : State) : Only [.anvil] s (onChan n f s) := by
  intro p hp; cases p <;> first | rfl | exact absurd (by decide) hp

theorem notifyAt_frame (c kind : Nat) (fn : Fn) (tb : Tb) (data : Rec) (s : State) : Only [.qf] s (notifyAt c kind fn tb data s) := by
  unfold notifyAt; repeat' (first
      | with_reducible exact Only.refl _ _ | with_reducible refine (onQueue_frame _ _ _).after (by decide) ?_ | with_reducible refine Only.ite ?_ ?_)

theorem notify_frame (c kind : Nat) (data : Rec) (s : State) : Only [.qf] s (notify c kind data s) := by
  unfold notify; with_reducible exact (notifyAt_frame _ _ _ _ _ _).sub (by decide)

theorem deviceWake_frame (code ix typ id : Nat) (en : Bool) (s : State) : Only [.pwr] s (deviceWake code ix typ id en s) := by
  unfold deviceWake; with_reducible exact (onPwr_frame _ _).sub (by decide)

theorem onBridge_frame (n : Nat) (f : Bridge → Bridge) (s : State) : Only [.anvil] s (onBridge n f s) := by
  intro p hp; cases p <;> first | rfl | exact absurd (by decide) hp

theorem onSched_frame (f : Sched → Sched) (s : State) : Only [.sched] s (onSched f s) := by
  intro p hp; cases p <;> first | rfl | exact absurd (by decide) hp

theorem qNotices_frame (q : Nat) (gapBefore : Bool) (s : State) : Only [.qf] s (qNotices q gapBefore s) := by
  unfold qNotices; repeat' (first
      | with_reducible exact Only.refl _ _ | with_reducible refine (notify_frame _ _ _ _).after (by decide) ?_
      | with_reducible refine (onQueue_frame _ _ _).after (by decide) ?_ | with_reducible refine Only.ite ?_ ?_ | split | dsimp only)

theorem admitCells_frame (q : Nat) (data : Rec) (s : State) : Only [.qf] s (admitCells q data s).1 := by
  unfold admitCells; repeat' (first | ((try lift_lets); intro y; first | (refine Only.cut y ?c1 (fun hy => ?c2); (case' c1 => dsimp only [y]); (case' c2 => clear_value y)) | (have _h : State → State := y; clear _h; subst y) | (have _h : State → _ → State := y; clear _h; subst y) | clear_value y) | with_reducible exact Only.refl _ _ | with_reducible assumption | with_reducible refine (qNotices_frame _ _ _).after (by decide) ?_ | with_reducible refine (onQueue_frame _ _ _).after (by decide) ?_ | with_reducible refine Only.ite ?_ ?_ | with_reducible refine Only.foldl _ (fun s a => ?_) _ ?_ | split | dsimp only)

theorem admitEntry_frame (q : Nat) (data : Rec) (s : State) : Only [.qf] s (admitEntry q data s) := by
  unfold admitEntry; with_reducible exact (admitCells_frame _ _ _).sub (by decide)

theorem onSink_frame (n : Nat) (f : Sink → Sink) (s : State) : Only [.anvil] s (onSink n f s) := by
  intro p hp; cases p <;> first | rfl | exact absurd (by decide) hp

theorem onLight_frame (f : Light → Light) (s : State) : Only [.light] s (onLight f s) := by
  intro p hp; cases p <;> first | rfl | exact absurd (by decide) hp

theorem closeQueue_frame (q reason : Nat) (s : State) : Only [.qf] s (closeQueue q reason s) := by
  unfold closeQueue; repeat' (first
      | with_reducible exact Only.refl _ _ | with_reducible refine (qNotices_frame _ _ _).after (by decide) ?_
      | with_reducible refine (onQueue_frame _ _ _).after (by decide) ?_)

theorem closeProducer_frame (p : Nat → Bool) (reason : Nat) (s : State) : Only [.qf] s (closeProducer p reason s) := by
  unfold closeProducer; repeat' (first
      | with_reducible exact Only.refl _ _ | with_reducible refine (closeQueue_frame _ _ _).after (by decide) ?_
      | with_reducible refine Only.foldl _ (fun s a => ?_) _ ?_)

theorem giveUnit_frame (t i o : Nat) (s : State) : Only [.roles] s (giveUnit t i o s) := by
  intro p hp; cases p <;> first | rfl | exact absurd (by decide) hp

theorem lightDirect_frame (kind n c : Nat) (seq : BitVec 16) (s : State) : Only [.light] s (lightDirect kind n c seq s) := by
  unfold lightDirect; repeat' (first
      | with_reducible exact Only.refl _ _ | with_reducible refine (onLight_frame _ _).after (by decide) ?_ | with_reducible refine Only.ite ?_ ?_ | split)

theorem onLink_frame (f : Link → Link) (s : State) : Only [.link] s (onLink f s) := by
  intro p hp; cases p <;> first | rfl | exact absurd (by decide) hp

theorem onClk_frame (f : Clk → Clk) (s : State) : Only [.clk] s (onClk f s) := by
  intro p hp; cases p <;> first | rfl | exact absurd (by decide) hp
end Sys2Proof.Machine
end

