-- ==== Sys2Proof/Laws/Flit.lean ====
section
/-! SUPPORT. What each operation of Machine/Flit.lean leaves as it is: one law per operation, which names the parts of the state it may change. -/

namespace Sys2Proof.Machine

theorem clockSource_frame (s : State) : Only [.link] s (clockSource s) := by
  unfold clockSource; with_reducible exact (onLink_frame _ _).sub (by decide)

theorem onDir_frame (toAnvil : Bool) (f : Dir → Dir) (s : State) : Only [.link] s (onDir toAnvil f s) := by
  intro p hp; cases p <;> first | rfl | exact absurd (by decide) hp

theorem flitLeft_frame (toAnvil : Bool) (typ : Nat) (s : State) : Only [.link] s (flitLeft toAnvil typ s) := by
  unfold flitLeft; repeat' (first
      | with_reducible exact Only.refl _ _ | with_reducible refine (onDir_frame _ _ _).after (by decide) ?_
      | with_reducible refine (onLink_frame _ _).after (by decide) ?_ | with_reducible refine Only.ite ?_ ?_)
end Sys2Proof.Machine
end

