-- ==== Sys2Proof/Laws/Bank.lean ====
section
/-! SUPPORT. What each operation of Machine/Bank.lean leaves as it is: one law per operation, which names the parts of the state it may change. -/

namespace Sys2Proof.Machine

theorem onUpd_frame (f : Upd → Upd) (s : State) : Only [.upd] s (onUpd f s) := by
  intro p hp; cases p <;> first | rfl | exact absurd (by decide) hp
end Sys2Proof.Machine
end

