-- ==== Sys2Proof/Laws/Packets.lean ====
section
/-! SUPPORT. What each operation of Machine/Packets.lean leaves as it is: one law per operation, which names the parts of the state it may change. -/

namespace Sys2Proof.Machine

theorem sendNtf_frame (c : Nat) (payload : Rec) (s : State) : Only [.ctxs] s (sendNtf c payload s) := by
  unfold sendNtf; with_reducible exact (onCtx_frame _ _ _).sub (by decide)

theorem linkRestart_frame (c cause : Nat) (s : State) : Only [.ctxs] s (linkRestart c cause s) := by
  unfold linkRestart; repeat' (first
      | with_reducible exact Only.refl _ _ | with_reducible refine (onCtx_frame _ _ _).after (by decide) ?_
      | with_reducible refine (sendNtf_frame _ _ _).after (by decide) ?_ | with_reducible refine Only.ite ?_ ?_)

theorem sendDev_frame (c op : Nat) (payload : Rec) (s : State) : Only [.ctxs] s (sendDev c op payload s) := by
  unfold sendDev; with_reducible exact (onCtx_frame _ _ _).sub (by decide)

theorem refuseEarly_frame (p : Pkt) (st : Status) (detail : Nat) (s : State) : Only [.ctxs] s (refuseEarly p st detail s) := by
  unfold refuseEarly; repeat' (first
      | with_reducible exact Only.refl _ _ | with_reducible refine (sendDev_frame _ _ _ _).after (by decide) ?_ | with_reducible refine Only.ite ?_ ?_)

theorem arrive_frame (p : Pkt) (s : State) : Only [.ctxs] s (arrive p s).1 := by
  unfold arrive; repeat' (first
      | with_reducible exact Only.refl _ _ | with_reducible refine (onCtx_frame _ _ _).after (by decide) ?_
      | with_reducible refine (refuseEarly_frame _ _ _ _).after (by decide) ?_ | with_reducible refine Only.ite ?_ ?_ | split | dsimp only)

theorem hostWake_frame (o : OpSpec) (c : Nat) (s : State) : Only [.pwr] s (hostWake o c s) := by
  unfold hostWake; repeat' (first
      | with_reducible exact Only.refl _ _ | with_reducible refine (deviceWake_frame _ _ _ _ _ _).after (by decide) ?_ | with_reducible refine Only.ite ?_ ?_)

theorem freeCells_frame (p : Pkt) (s : State) : Only [.ctxs] s (freeCells p s) := by
  unfold freeCells; with_reducible exact (onCtx_frame _ _ _).sub (by decide)

theorem completion_frame (c : Nat) (seq : BitVec 16) (op : Nat) (st : Status) (detail : Nat) (data : Rec) (s : State) :
    Only [.qf] s (completion c seq op st detail data s) := by
  unfold completion; with_reducible exact (notify_frame _ _ _ _).sub (by decide)

theorem keepReply_frame (p : Pkt) (d : DevPkt) (s : State) : Only [.ctxs] s (keepReply p d s) := by
  unfold keepReply; with_reducible exact (onCtx_frame _ _ _).sub (by decide)

theorem sendReply_frame (p : Pkt) (st : Status) (detail : Nat) (fn : Fn) (data : Rec) (s : State) : Only [.ctxs] s (sendReply p st detail fn data s) := by
  unfold sendReply; repeat' (first
      | with_reducible exact Only.refl _ _ | with_reducible refine (keepReply_frame _ _ _).after (by decide) ?_
      | with_reducible refine (sendDev_frame _ _ _ _).after (by decide) ?_ | with_reducible refine Only.ite ?_ ?_)

theorem respond_frame (p : Pkt) (returnsData : Bool) (st : Status) (detail : Nat) (fn : Fn) (data : Rec) (s : State) :
    Only [.ctxs, .qf] s (respond p returnsData st detail fn data s) := by
  unfold respond; repeat' (first
      | with_reducible exact Only.refl _ _ | with_reducible refine (freeCells_frame _ _).after (by decide) ?_
      | with_reducible refine (completion_frame _ _ _ _ _ _ _).after (by decide) ?_ | with_reducible refine (sendReply_frame _ _ _ _ _ _).after (by decide) ?_
      | with_reducible refine Only.ite ?_ ?_)

theorem failReplies_frame (x0 : BatchFail) (x1 : Nat → Status) (x2 : List Pkt) (x3 : State) : Only [.ctxs, .qf] x3 (failReplies x0 x1 x2 x3) := by
  induction x2 generalizing x3 with
  | nil => exact Only.refl _ _
  | cons a t ih =>
    unfold failReplies
    split
    · exact Only.trans ((respond_frame _ _ _ _ _ _ _).sub (by decide)) (ih _)
    · exact Only.trans ((respond_frame _ _ _ _ _ _ _).sub (by decide)) (ih _)

theorem answer_frame (f : Req → State → Rec) (x1 : Req) (s : State) : Only [] s (answer f x1 s).st := by
  intro p hp; cases p <;> first | rfl | exact absurd (by decide) hp

theorem chargeShare_frame (c n : Nat) (s : State) : Only [.ctxs] s (chargeShare c n s) := by
  unfold chargeShare; with_reducible exact (onCtx_frame _ _ _).sub (by decide)

theorem recheckView_frame (mode : Option Nat) (cfgd : List Nat) (p : Pkt) (s : State) : Only [.com] s (recheckView mode cfgd p s) := by
  unfold recheckView; with_reducible exact (onCom_frame _ _).sub (by decide)

theorem resetShare_frame (c : Nat) (s : State) : Only [.ctxs] s (resetShare c s) := by
  unfold resetShare; with_reducible exact (onCtx_frame _ _ _).sub (by decide)

theorem State.withSnap_frame (s : State) (n : Snap) :
    Only [.roles, .com, .rep, .repM, .clk, .time, .sched, .ctxs, .qf, .link, .closed, .flt, .light, .bus, .pwr, .ces, .acc, .keys, .upd, .hmon] s (State.withSnap s n) := by
  intro p hp; cases p <;> first | rfl | exact absurd (by decide) hp

theorem State.readView_frame (s : State) (t : Fn) :
    Only [.roles, .com, .rep, .repM, .clk, .time, .sched, .ctxs, .qf, .link, .closed, .flt, .light, .bus, .pwr, .ces, .acc, .keys, .upd, .hmon] s (State.readView s t) := by
  unfold State.readView; repeat' (first | with_reducible exact Only.refl _ _ | with_reducible refine (State.withSnap_frame _ _).after (by decide) ?_ | split)

theorem arrivalView_frame (o : OpSpec) (e : Fn) (s : State) : Only [.com] s (arrivalView o e s) := by
  unfold arrivalView; repeat' (first
      | with_reducible exact Only.refl _ _ | with_reducible refine (onCom_frame _ _).after (by decide) ?_ | with_reducible refine Only.ite ?_ ?_)
end Sys2Proof.Machine
end

