-- ==== Sys2Proof/Laws/TimeBase.lean ====
section
/-! SUPPORT. What each operation of Machine/TimeBase.lean leaves as it is: one law per operation, which names the parts of the state it may change. -/

namespace Sys2Proof.Machine

theorem onTmr_frame (n : Nat) (f : Timer → Timer) (s : State) : Only [.time] s (onTmr n f s) := by
  intro p hp; cases p <;> first | rfl | exact absurd (by decide) hp

theorem tmrMasterAct_frame (n : Nat) (s : State) : Only [.time] s (tmrMasterAct n s) := by
  unfold tmrMasterAct; repeat' (first
      | with_reducible exact Only.refl _ _ | with_reducible refine (onTmr_frame _ _ _).after (by decide) ?_ | with_reducible refine Only.ite ?_ ?_)

theorem tmrEvent_frame (n ev : Nat) (s : State) : Only [.time, .qf] s (tmrEvent n ev s) := by
  unfold tmrEvent; repeat' (first
      | with_reducible exact Only.refl _ _ | with_reducible refine (onTime_frame _ _).after (by decide) ?_
      | with_reducible refine (notify_frame _ _ _ _).after (by decide) ?_ | with_reducible refine Only.ite ?_ ?_)

theorem tmrOverflow_frame (n : Nat) (s : State) : Only [.time, .qf] s (tmrOverflow n s) := by
  unfold tmrOverflow; repeat' (first
      | with_reducible exact Only.refl _ _ | with_reducible refine (tmrEvent_frame _ _ _).after (by decide) ?_
      | with_reducible refine (onTmr_frame _ _ _).after (by decide) ?_)

theorem tmrMatched_frame (n : Nat) (s : State) : Only [.time, .qf] s (tmrMatched n s) := by
  unfold tmrMatched; repeat' (first
      | with_reducible exact Only.refl _ _ | with_reducible refine (tmrEvent_frame _ _ _).after (by decide) ?_
      | with_reducible refine (onTmr_frame _ _ _).after (by decide) ?_)

theorem tmrCount_frame (n : Nat) (s : State) : Only [.time, .qf] s (tmrCount n s) := by
  unfold tmrCount; repeat' (first
      | with_reducible exact Only.refl _ _ | with_reducible refine (tmrOverflow_frame _ _).after (by decide) ?_
      | with_reducible refine (onTmr_frame _ _ _).after (by decide) ?_ | with_reducible refine (tmrMatched_frame _ _).after (by decide) ?_
      | with_reducible refine Only.ite ?_ ?_)

theorem tmrStep_frame (s0 : State) (due : List Nat) (s : State) (n : Nat) : Only [.time, .qf] s (tmrStep s0 due s n) := by
  unfold tmrStep; repeat' (first
      | with_reducible exact Only.refl _ _ | with_reducible refine (tmrMasterAct_frame _ _).after (by decide) ?_
      | with_reducible refine (onTmr_frame _ _ _).after (by decide) ?_ | with_reducible refine (tmrCount_frame _ _).after (by decide) ?_
      | with_reducible refine Only.ite ?_ ?_)

theorem tickOnce_frame (s : State) : Only [.time, .qf] s (tickOnce s) := by
  unfold tickOnce; repeat' (first
      | with_reducible exact Only.refl _ _ | with_reducible refine (onTime_frame _ _).after (by decide) ?_
      | with_reducible refine (tmrStep_frame _ _ _ _).after (by decide) ?_ | with_reducible refine Only.ite ?_ ?_
      | with_reducible refine Only.foldl _ (fun s a => ?_) _ ?_)

theorem tickN_frame (x0 : Nat) (x1 : State) : Only [.time, .qf] x1 (tickN x0 x1) := by
  induction x0 generalizing x1 with
  | zero => exact Only.refl _ _
  | succ n ih =>
    unfold tickN
    exact Only.ite ((onTime_frame _ _).sub (by decide)) (Only.trans ((tickOnce_frame _).sub (by decide)) (ih _))

theorem advTo_frame (t : Tb) (s : State) : Only [.time, .qf] s (advTo t s) := by
  unfold advTo; repeat' (first | with_reducible exact Only.refl _ _ | with_reducible refine (tickN_frame _ _).after (by decide) ?_ | with_reducible refine Only.ite ?_ ?_)

theorem atTickA_frame (n : Nat) (s : State) : Only [.time, .qf] s (atTickA n s) := by
  unfold atTickA; with_reducible exact (advTo_frame _ _).sub (by decide)

theorem cmpResume_frame (s : State) : Only [.time] s (cmpResume s) := by
  unfold cmpResume; repeat' (first
      | with_reducible exact Only.refl _ _ | with_reducible refine (onTime_frame _ _).after (by decide) ?_ | with_reducible refine Only.ite ?_ ?_)

theorem tbReadSpec_frame (r : Req) (s : State) : Only [] s (tbReadSpec.run r s).st := by
  exact Only.refl _ _

theorem timeAnchorSpec_frame (r : Req) (s : State) : Only [.com, .time] s (timeAnchorSpec.run r s).st := by
  unfold timeAnchorSpec; repeat' (first
      | with_reducible exact Only.refl _ _ | with_reducible refine (onTime_frame _ _).after (by decide) ?_
      | with_reducible refine (onCom_frame _ _).after (by decide) ?_ | with_reducible refine Only.ite ?_ ?_)

theorem cmpSetSpec_frame (r : Req) (s : State) : Only [.roles, .com] s (cmpSetSpec.run r s).st := by
  unfold cmpSetSpec; repeat' (first
      | with_reducible exact Only.refl _ _ | with_reducible refine (onCom_frame _ _).after (by decide) ?_
      | with_reducible refine (reassign_frame _ _ _).after (by decide) ?_ | with_reducible refine Only.ite ?_ ?_)

theorem cmpStatusSpec_frame (r : Req) (s : State) : Only [] s (cmpStatusSpec.run r s).st := by
  exact Only.refl _ _

theorem tmrConfigSpec_frame (r : Req) (s : State) : Only [.com] s (tmrConfigSpec.run r s).st := by
  unfold tmrConfigSpec; with_reducible exact (onCom_frame _ _).sub (by decide)

theorem tmrStatusSpec_frame (r : Req) (s : State) : Only [] s (tmrStatusSpec.run r s).st := by
  exact Only.refl _ _

theorem atTick_frame (n : Nat) (s : State) : Only [.time, .qf] s (atTick n s) := by
  unfold atTick; with_reducible exact (advTo_frame _ _).sub (by decide)

theorem onCmpRun_frame (n : Nat) (f : CmpRun → CmpRun) (s : State) : Only [.time] s (onCmpRun n f s) := by
  intro p hp; cases p <;> first | rfl | exact absurd (by decide) hp

theorem cmpFrameStart_frame (s : State) : Only [.com, .time] s (cmpFrameStart s) := by
  unfold cmpFrameStart; repeat' (first
      | with_reducible exact Only.refl _ _ | with_reducible refine (cmpResume_frame _).after (by decide) ?_
      | with_reducible refine (onCmpRun_frame _ _ _).after (by decide) ?_ | with_reducible refine (onCom_frame _ _).after (by decide) ?_
      | with_reducible refine Only.foldl _ (fun s a => ?_) _ ?_ | split)

theorem edgeGaps_frame (s : State) : Only [.time] s (edgeGaps s) := by
  unfold edgeGaps; repeat' (first
      | with_reducible exact Only.refl _ _ | with_reducible refine (onTmr_frame _ _ _).after (by decide) ?_ | with_reducible refine Only.ite ?_ ?_
      | with_reducible refine Only.foldl _ (fun s a => ?_) _ ?_)

theorem tmrRunTo_frame (n v : Nat) (s : State) : Only [.time, .qf] s (tmrRunTo n v s) := by
  unfold tmrRunTo; repeat' (first
      | with_reducible exact Only.refl _ _ | with_reducible refine (advTo_frame _ _).after (by decide) ?_
      | with_reducible refine (tickOnce_frame _).after (by decide) ?_ | with_reducible refine Only.ite ?_ ?_ | split)

theorem tmrApply_frame (n : Nat) (s : State) : Only [.time] s (tmrApply n s) := by
  unfold tmrApply; repeat' (first
      | with_reducible exact Only.refl _ _ | with_reducible refine (onTmr_frame _ _ _).after (by decide) ?_ | with_reducible refine Only.ite ?_ ?_)

theorem tmrFrameStart_frame (s : State) : Only [.com, .time] s (tmrFrameStart s) := by
  unfold tmrFrameStart; repeat' (first
      | with_reducible exact Only.refl _ _ | with_reducible refine (onCom_frame _ _).after (by decide) ?_
      | with_reducible refine (tmrApply_frame _ _).after (by decide) ?_ | with_reducible refine Only.foldl _ (fun s a => ?_) _ ?_)

theorem tmrDirEdge_frame (i : Nat) (rising : Bool) (s : State) : Only [.time] s (tmrDirEdge i rising s) := by
  unfold tmrDirEdge; repeat' (first
      | with_reducible exact Only.refl _ _ | with_reducible refine (onTmr_frame _ _ _).after (by decide) ?_ | with_reducible refine Only.ite ?_ ?_
      | with_reducible refine Only.foldl _ (fun s a => ?_) _ ?_)

theorem execTimerMasterEvent_frame (n : Nat) (s : State) : Answers (execTimerMasterEvent n s) (Only [.time, .qf] s) := by
  unfold execTimerMasterEvent; repeat' (first
      | with_reducible refine Answers.next ?_ | with_reducible exact Only.refl _ _ | with_reducible refine (tickOnce_frame _).after (by decide) ?_
      | with_reducible refine Answers.ite ?_ ?_ | with_reducible refine Only.ite ?_ ?_)

theorem State.inForce_frame (s : State) : Only [.roles, .com] s (State.inForce s) := by
  unfold State.inForce; repeat' (first | with_reducible exact Only.refl _ _ | with_reducible refine Only.ite ?_ ?_ | (refine Only.upd (Only.refl _ s) ?_; intro p hp; cases p <;> first | exact absurd (by decide) hp | (dsimp only [Part.same]; done); done) | split | dsimp only)

theorem cmpFireAt_frame (t : Tb) (s : State) (n : Nat) : Only [.time, .qf] s (cmpFireAt t s n) := by
  unfold cmpFireAt; repeat' (first
      | with_reducible exact Only.refl _ _
      | with_reducible refine (onCmpRun_frame _ _ _).after (by decide) ?_ | with_reducible refine (notifyAt_frame _ _ _ _ _ _).after (by decide) ?_
      | with_reducible refine (admitEntry_frame _ _ _).after (by decide) ?_ | with_reducible refine (onTime_frame _ _).after (by decide) ?_
      | with_reducible refine Only.ite ?_ ?_)

theorem execCompareFire_frame (n : Nat) (s : State) : Answers (execCompareFire n s) (Only [.time, .qf] s) := by
  unfold execCompareFire; repeat' (first
      | with_reducible refine Answers.next ?_ | with_reducible exact Only.refl _ _ | with_reducible refine (cmpFireAt_frame _ _ _).after (by decide) ?_
      | with_reducible refine (advTo_frame _ _).after (by decide) ?_ | with_reducible refine Answers.ite ?_ ?_ | with_reducible refine Only.ite ?_ ?_
      | with_reducible refine Only.foldl _ (fun s a => ?_) _ ?_)

theorem execTimerMatch_frame (n : Nat) (s : State) : Answers (execTimerMatch n s) (Only [.time, .qf] s) := by
  unfold execTimerMatch; repeat' (first
      | with_reducible refine Answers.next ?_ | with_reducible exact Only.refl _ _ | with_reducible refine (tmrRunTo_frame _ _ _).after (by decide) ?_
      | with_reducible refine Answers.ite ?_ ?_ | with_reducible refine Only.ite ?_ ?_)

theorem execTimerOverflow_frame (n : Nat) (s : State) : Answers (execTimerOverflow n s) (Only [.time, .qf] s) := by
  unfold execTimerOverflow; repeat' (first
      | with_reducible refine Answers.next ?_ | with_reducible exact Only.refl _ _ | with_reducible refine (tmrRunTo_frame _ _ _).after (by decide) ?_
      | with_reducible refine Answers.ite ?_ ?_ | with_reducible refine Only.ite ?_ ?_)
end Sys2Proof.Machine
end

