-- ==== Sys2Proof/Laws/QueueCmds.lean ====
section
/-! SUPPORT. What each operation of Machine/QueueCmds.lean leaves as it is: one law per operation, which names the parts of the state it may change. -/

namespace Sys2Proof.Machine

theorem gwUnbind_frame (q : Nat) (s : State) : Only [.bus] s (gwUnbind q s) := by
  unfold gwUnbind; with_reducible exact (onBus_frame _ _).sub (by decide)

theorem handQueue_frame (q o : Nat) (s : State) : Only [.roles, .qf, .bus] s (handQueue q o s) := by
  unfold handQueue; repeat' (first
      | with_reducible exact Only.refl _ _ | with_reducible refine (gwUnbind_frame _ _).after (by decide) ?_
      | with_reducible refine (giveUnit_frame _ _ _ _).after (by decide) ?_ | with_reducible refine (onQueue_frame _ _ _).after (by decide) ?_
      | with_reducible refine Only.ite ?_ ?_)

theorem qConfigSpec_frame (r : Req) (s : State) : Only [.roles, .qf] s (qConfigSpec.run r s).st := by
  unfold qConfigSpec; repeat' (first
      | with_reducible exact Only.refl _ _ | with_reducible refine (onQueue_frame _ _ _).after (by decide) ?_
      | with_reducible refine (reassign_frame _ _ _).after (by decide) ?_ | with_reducible refine (qNotices_frame _ _ _).after (by decide) ?_
      | with_reducible refine Only.ite ?_ ?_)

theorem qPushSpec_frame (r : Req) (s : State) : Only [.qf] s (qPushSpec.run r s).st := by
  unfold qPushSpec; with_reducible exact (admitCells_frame _ _ _).sub (by decide)

theorem qReadSpec_frame (r : Req) (s : State) : Only [.qf] s (qReadSpec.run r s).st := by
  unfold qReadSpec; with_reducible exact (onQueue_frame _ _ _).sub (by decide)

theorem qMarkSpec_frame (r : Req) (s : State) : Only [.qf] s (qMarkSpec.run r s).st := by
  unfold qMarkSpec; with_reducible exact (onQueue_frame _ _ _).sub (by decide)

theorem qRewindSpec_frame (r : Req) (s : State) : Only [.qf] s (qRewindSpec.run r s).st := by
  unfold qRewindSpec; with_reducible exact (onQueue_frame _ _ _).sub (by decide)

theorem qReleaseSpec_frame (r : Req) (s : State) : Only [.qf] s (qReleaseSpec.run r s).st := by
  unfold qReleaseSpec; with_reducible exact (onQueue_frame _ _ _).sub (by decide)

theorem qStatusSpec_frame (r : Req) (s : State) : Only [] s (qStatusSpec.run r s).st := by
  exact Only.refl _ _

theorem qAuditSpec_frame (r : Req) (s : State) : Only [] s (qAuditSpec.run r s).st := by
  exact Only.refl _ _

theorem qfAudit_frame (s : State) : Only [.qf] s (qfAudit s).1 := by
  unfold qfAudit; with_reducible exact (onQf_frame _ _).sub (by decide)
end Sys2Proof.Machine
end

