-- ==== Sys2Proof/Laws/SchedCmds.lean ====
section
/-! SUPPORT. What each operation of Machine/SchedCmds.lean leaves as it is: one law per operation, which names the parts of the state it may change. -/

namespace Sys2Proof.Machine

theorem switchChannel_frame (x0 : Nat) (t : Fn) (s : State) (n : Nat) : Only [.com, .sched, .qf] s (switchChannel x0 t s n) := by
  unfold switchChannel; repeat' (first
      | with_reducible exact Only.refl _ _ | with_reducible refine (notify_frame _ _ _ _).after (by decide) ?_
      | with_reducible refine (onSched_frame _ _).after (by decide) ?_ | with_reducible refine (onCom_frame _ _).after (by decide) ?_
      | with_reducible refine Only.ite ?_ ?_)

theorem switchMode_frame (x0 : Nat) (t : Fn) (s : State) : Only [.com, .sched, .qf] s (switchMode x0 t s) := by
  unfold switchMode; repeat' (first
      | with_reducible exact Only.refl _ _ | with_reducible refine (onSched_frame _ _).after (by decide) ?_
      | with_reducible refine (onCom_frame _ _).after (by decide) ?_ | with_reducible refine (switchChannel_frame _ _ _ _).after (by decide) ?_
      | with_reducible refine Only.foldl _ (fun s a => ?_) _ ?_)

theorem modeSelectSpec_frame (r : Req) (s : State) : Only [.com, .sched, .qf] s (modeSelectSpec.run r s).st := by
  unfold modeSelectSpec; repeat' (first | ((try lift_lets); intro y; first | (refine Only.cut y ?c1 (fun hy => ?c2); (case' c1 => dsimp only [y]); (case' c2 => clear_value y)) | (have _h : State → State := y; clear _h; subst y) | (have _h : State → _ → State := y; clear _h; subst y) | clear_value y) | with_reducible exact Only.refl _ _ | with_reducible assumption | with_reducible refine (switchMode_frame _ _ _).after (by decide) ?_ | with_reducible refine Only.ite ?_ ?_ | with_reducible refine Only.foldl _ (fun s a => ?_) _ ?_ | split | dsimp only)

theorem schedStatusSpec_frame (r : Req) (s : State) : Only [] s (schedStatusSpec.run r s).st := by
  exact Only.refl _ _

theorem schedUnitSpec_frame (r : Req) (s : State) : Only [] s (schedUnitSpec.run r s).st := by
  exact Only.refl _ _
end Sys2Proof.Machine
end

