-- ==== Sys2Proof/Laws/SysCmds.lean ====
section
/-! SUPPORT. What each operation of Machine/SysCmds.lean leaves as it is: one law per operation, which names the parts of the state it may change. -/

namespace Sys2Proof.Machine

theorem transferUnit_frame (t i o : Nat) (s : State) : Only [.roles, .qf, .bus] s (transferUnit t i o s) := by
  unfold transferUnit; repeat' (first
      | with_reducible exact Only.refl _ _ | with_reducible refine (handQueue_frame _ _ _).after (by decide) ?_
      | with_reducible refine (giveUnit_frame _ _ _ _).after (by decide) ?_ | split)

theorem unitClaimSpec_frame (r : Req) (s : State) : Only [.roles, .qf, .bus] s (unitClaimSpec.run r s).st := by
  unfold unitClaimSpec; with_reducible exact (transferUnit_frame _ _ _ _).sub (by decide)

theorem pingSpec_frame (r : Req) (s : State) : Only [] s (pingSpec.run r s).st := by
  exact Only.refl _ _

theorem getInfoSpec_frame (r : Req) (s : State) : Only [] s (getInfoSpec.run r s).st := by
  exact Only.refl _ _

theorem ctxResetSpec_frame (r : Req) (s : State) : Only [.ctxs] s (ctxResetSpec.run r s).st := by
  unfold ctxResetSpec; with_reducible exact (onCtx_frame _ _ _).sub (by decide)

theorem applyCtxCfg_frame (b : Rec) (s : State) : Only [.com, .ctxs] s (applyCtxCfg b s) := by
  unfold applyCtxCfg; repeat' (first
      | with_reducible exact Only.refl _ _ | with_reducible refine (onCom_frame _ _).after (by decide) ?_
      | with_reducible refine (onCtx_frame _ _ _).after (by decide) ?_)

theorem ctxConfigSpec_frame (r : Req) (s : State) : Only [.com, .ctxs] s (ctxConfigSpec.run r s).st := by
  unfold ctxConfigSpec; repeat' (first | ((try lift_lets); intro y; first | (refine Only.cut y ?c1 (fun hy => ?c2); (case' c1 => dsimp only [y]); (case' c2 => clear_value y)) | (have _h : State → State := y; clear _h; subst y) | (have _h : State → _ → State := y; clear _h; subst y) | clear_value y) | with_reducible exact Only.refl _ _ | with_reducible assumption | with_reducible refine (onCtx_frame _ _ _).after (by decide) ?_ | with_reducible refine (applyCtxCfg_frame _ _).after (by decide) ?_ | with_reducible refine Only.ite ?_ ?_ | with_reducible refine Only.foldl _ (fun s a => ?_) _ ?_ | split | dsimp only)
end Sys2Proof.Machine
end

