-- ==== Sys2Proof/Laws/Pins.lean ====
section
/-! SUPPORT. What each operation of Machine/Pins.lean leaves as it is: one law per operation, which names the parts of the state it may change. -/

namespace Sys2Proof.Machine

theorem brEvent_frame (b ev : Nat) (s : State) : Only [.anvil, .qf] s (brEvent b ev s) := by
  unfold brEvent; repeat' (first
      | with_reducible exact Only.refl _ _ | with_reducible refine (onBridge_frame _ _ _).after (by decide) ?_
      | with_reducible refine (notify_frame _ _ _ _).after (by decide) ?_ | with_reducible refine Only.ite ?_ ?_)

theorem indEvent_frame (n ev : Nat) (tb : Tb) (s : State) : Only [.qf] s (indEvent n ev tb s) := by
  unfold indEvent; repeat' (first
      | with_reducible exact Only.refl _ _ | with_reducible refine (notifyAt_frame _ _ _ _ _ _).after (by decide) ?_ | with_reducible refine Only.ite ?_ ?_)

theorem coilRelease_frame (n : Nat) (s : State) : Only [.anvil] s (coilRelease n s) := by
  unfold coilRelease; repeat' (first
      | with_reducible exact Only.refl _ _ | with_reducible refine (onChan_frame _ _ _).after (by decide) ?_
      | with_reducible refine (onCoil_frame _ _ _).after (by decide) ?_)

theorem coilOneShotEnd_frame (n ev : Nat) (s : State) : Only [.anvil, .qf] s (coilOneShotEnd n ev s) := by
  unfold coilOneShotEnd; repeat' (first
      | with_reducible exact Only.refl _ _ | with_reducible refine (indEvent_frame _ _ _ _).after (by decide) ?_
      | with_reducible refine (onCoil_frame _ _ _).after (by decide) ?_ | with_reducible refine (coilRelease_frame _ _).after (by decide) ?_)

theorem coilInterrupt_frame (n : Nat) (s : State) : Only [.anvil, .qf] s (coilInterrupt n s) := by
  unfold coilInterrupt; repeat' (first
      | with_reducible exact Only.refl _ _ | with_reducible refine (onCoil_frame _ _ _).after (by decide) ?_
      | with_reducible refine (coilOneShotEnd_frame _ _ _).after (by decide) ?_ | with_reducible refine (coilRelease_frame _ _).after (by decide) ?_
      | with_reducible refine Only.ite ?_ ?_)

theorem coilHot_frame (n : Nat) (s : State) : Only [.anvil] s (coilHot n s) := by
  unfold coilHot; with_reducible exact (onCoil_frame _ _ _).sub (by decide)

theorem protEvent_frame (n ev i : Nat) (tb : Tb) (s : State) : Only [.qf] s (protEvent n ev i tb s) := by
  unfold protEvent; repeat' (first
      | with_reducible exact Only.refl _ _ | with_reducible refine (notifyAt_frame _ _ _ _ _ _).after (by decide) ?_ | with_reducible refine Only.ite ?_ ?_)

theorem protEventFree_frame (n ev : Nat) (s : State) : Only [.qf, .free] s (protEventFree n ev s) := by
  unfold protEventFree; repeat' (first
      | with_reducible exact Only.refl _ _ | with_reducible refine (protEvent_frame _ _ _ _ _).after (by decide) ?_
      | with_reducible refine (useFree_frame _).after (by decide) ?_ | with_reducible refine Only.ite ?_ ?_)

theorem resumeAt_frame (n : Nat) (s : State) : Only [.anvil, .qf, .free] s (resumeAt n s) := by
  unfold resumeAt; repeat' (first
      | with_reducible exact Only.refl _ _ | with_reducible refine (onChan_frame _ _ _).after (by decide) ?_
      | with_reducible refine (protEventFree_frame _ _ _).after (by decide) ?_ | with_reducible refine Only.ite ?_ ?_)

theorem openInrush_frame (n : Nat) (s : State) : Only [.anvil] s (openInrush n s) := by
  unfold openInrush; repeat' (first
      | with_reducible exact Only.refl _ _ | with_reducible refine (onChan_frame _ _ _).after (by decide) ?_ | with_reducible refine Only.ite ?_ ?_)

theorem coilStart_frame (c : Rec) (n : Nat) (cnt : BitVec 8) (s : State) : Only [.anvil, .qf, .free] s (coilStart c n cnt s) := by
  unfold coilStart; repeat' (first
      | with_reducible exact Only.refl _ _ | with_reducible refine (onChan_frame _ _ _).after (by decide) ?_
      | with_reducible refine (onCoil_frame _ _ _).after (by decide) ?_ | with_reducible refine (coilRelease_frame _ _).after (by decide) ?_
      | with_reducible refine (coilInterrupt_frame _ _).after (by decide) ?_ | with_reducible refine (indEvent_frame _ _ _ _).after (by decide) ?_
      | with_reducible refine (coilHot_frame _ _).after (by decide) ?_ | with_reducible refine (resumeAt_frame _ _).after (by decide) ?_
      | with_reducible refine (openInrush_frame _ _).after (by decide) ?_ | with_reducible refine Only.ite ?_ ?_)

theorem coilSafeOn_frame (n : Nat) (s : State) : Only [.anvil, .qf, .free] s (coilSafeOn n s) := by
  unfold coilSafeOn; repeat' (first
      | with_reducible exact Only.refl _ _ | with_reducible refine (coilStart_frame _ _ _ _).after (by decide) ?_ | with_reducible refine Only.ite ?_ ?_)

theorem bridgeIdle_frame (b : Nat) (s : State) : Only [.anvil] s (bridgeIdle b s) := by
  unfold bridgeIdle; repeat' (first | with_reducible exact Only.refl _ _ | with_reducible refine (onChan_frame _ _ _).after (by decide) ?_)

theorem rampTo_frame (b : Nat) (t : Tb) (s : State) : Only [.anvil] s (rampTo b t s) := by
  unfold rampTo; with_reducible exact (onBridge_frame _ _ _).sub (by decide)

theorem bridgeCoast_frame (b : Nat) (s : State) : Only [.anvil] s (bridgeCoast b s) := by
  unfold bridgeCoast; repeat' (first
      | with_reducible exact Only.refl _ _ | with_reducible refine (bridgeIdle_frame _ _).after (by decide) ?_
      | with_reducible refine (rampTo_frame _ _ _).after (by decide) ?_ | with_reducible refine (onBridge_frame _ _ _).after (by decide) ?_)

theorem bridgeRampDown_frame (b : Nat) (s : State) : Only [.anvil] s (bridgeRampDown b s) := by
  unfold bridgeRampDown; repeat' (first
      | with_reducible exact Only.refl _ _ | with_reducible refine (rampTo_frame _ _ _).after (by decide) ?_
      | with_reducible refine (onBridge_frame _ _ _).after (by decide) ?_)

theorem pinOff_frame (n : Nat) (keep : Bool) (s : State) : Only [.anvil] s (pinOff n keep s) := by
  unfold pinOff; with_reducible exact (onChan_frame _ _ _).sub (by decide)

theorem lampTake_frame (n : Nat) (da : Nat × Bool) (vz : Option Nat) (s : State) : Only [.anvil] s (lampTake n da vz s) := by
  unfold lampTake; with_reducible exact (onChan_frame _ _ _).sub (by decide)

theorem lampSettle_frame (n : Nat) (s : State) : Only [.anvil] s (lampSettle n s) := by
  unfold lampSettle; with_reducible exact (onChan_frame _ _ _).sub (by decide)

theorem pinTurn_frame (win : Bool) (n : Nat) (lv : Bool) (s : State) : Only [.anvil, .qf, .free] s (pinTurn win n lv s) := by
  unfold pinTurn; repeat' (first
      | with_reducible exact Only.refl _ _ | with_reducible refine (lampSettle_frame _ _).after (by decide) ?_
      | with_reducible refine (resumeAt_frame _ _).after (by decide) ?_ | with_reducible refine (onChan_frame _ _ _).after (by decide) ?_
      | with_reducible refine (openInrush_frame _ _).after (by decide) ?_ | with_reducible refine Only.ite ?_ ?_)

theorem lampTurn_frame (win : Bool) (n : Nat) (vz : Option Nat) (s : State) : Only [.anvil, .qf, .free] s (lampTurn win n vz s) := by
  unfold lampTurn; repeat' (first
      | with_reducible exact Only.refl _ _ | with_reducible refine (lampTake_frame _ _ _ _).after (by decide) ?_
      | with_reducible refine (pinTurn_frame _ _ _ _).after (by decide) ?_ | with_reducible refine (onChan_frame _ _ _).after (by decide) ?_
      | with_reducible refine Only.ite ?_ ?_)

theorem flashClock_frame (s : State) : Only [.anvil] s (flashClock s) := by
  unfold flashClock; with_reducible exact (onAnvil_frame _ _).sub (by decide)

theorem limpTurnOn_frame (e : Nat) (s : State) : Only [.anvil, .qf, .free] s (limpTurnOn e s) := by
  unfold limpTurnOn; repeat' (first
      | with_reducible exact Only.refl _ _ | with_reducible refine (onAnvil_frame _ _).after (by decide) ?_
      | with_reducible refine (lampTurn_frame _ _ _ _).after (by decide) ?_ | with_reducible refine (pinTurn_frame _ _ _ _).after (by decide) ?_
      | with_reducible refine Only.ite ?_ ?_)

theorem limpAll_frame (s : State) : Only [.anvil, .time, .qf, .free] s (limpAll s) := by
  unfold limpAll; repeat' (first
      | with_reducible exact Only.refl _ _ | with_reducible refine (flashClock_frame _).after (by decide) ?_
      | with_reducible refine (pinOff_frame _ _ _).after (by decide) ?_ | with_reducible refine (onChan_frame _ _ _).after (by decide) ?_
      | with_reducible refine (limpTurnOn_frame _ _).after (by decide) ?_ | with_reducible refine (advTo_frame _ _).after (by decide) ?_
      | with_reducible refine Only.ite ?_ ?_ | with_reducible refine Only.foldl _ (fun s a => ?_) _ ?_)

theorem enterLimp_frame (n : Nat) (s : State) : Only [.anvil] s (enterLimp n s) := by
  unfold enterLimp; with_reducible exact (onChan_frame _ _ _).sub (by decide)

theorem holdExpire_frame (n : Nat) (s : State) : Only [.anvil, .time, .qf, .free] s (holdExpire n s) := by
  unfold holdExpire; repeat' (first
      | with_reducible exact Only.refl _ _ | with_reducible refine (onChan_frame _ _ _).after (by decide) ?_
      | with_reducible refine (limpAll_frame _).after (by decide) ?_ | with_reducible refine (enterLimp_frame _ _).after (by decide) ?_
      | with_reducible refine (onCoil_frame _ _ _).after (by decide) ?_ | with_reducible refine (coilRelease_frame _ _).after (by decide) ?_
      | with_reducible refine (pinOff_frame _ _ _).after (by decide) ?_ | with_reducible refine Only.ite ?_ ?_ | split | dsimp only)

theorem lampTurnOn_frame (n : Nat) (vz : Option Nat) (s : State) : Only [.anvil, .qf, .free] s (lampTurnOn n vz s) := by
  unfold lampTurnOn; repeat' (first | with_reducible exact Only.refl _ _ | with_reducible refine (lampTurn_frame _ _ _ _).after (by decide) ?_)

theorem pinOn_frame (n : Nat) (lv : Bool) (s : State) : Only [.anvil, .qf, .free] s (pinOn n lv s) := by
  unfold pinOn; repeat' (first | with_reducible exact Only.refl _ _ | with_reducible refine (pinTurn_frame _ _ _ _).after (by decide) ?_)

theorem cutChannel_frame (n : Nat) (s : State) : Only [.anvil, .qf] s (cutChannel n s) := by
  unfold cutChannel; repeat' (first
      | with_reducible exact Only.refl _ _ | with_reducible refine (coilInterrupt_frame _ _).after (by decide) ?_
      | with_reducible refine (bridgeCoast_frame _ _).after (by decide) ?_ | with_reducible refine (pinOff_frame _ _ _).after (by decide) ?_
      | with_reducible refine Only.ite ?_ ?_)

theorem bridgeBrake_frame (b : Nat) (s : State) : Only [.anvil] s (bridgeBrake b s) := by
  unfold bridgeBrake; repeat' (first
      | with_reducible exact Only.refl _ _ | with_reducible refine (bridgeIdle_frame _ _).after (by decide) ?_
      | with_reducible refine (rampTo_frame _ _ _).after (by decide) ?_ | with_reducible refine (onBridge_frame _ _ _).after (by decide) ?_)

theorem coilBegin_frame (n : Nat) (cnt : BitVec 8) (s : State) : Only [.anvil, .qf, .free] s (coilBegin n cnt s) := by
  unfold coilBegin; repeat' (first | with_reducible exact Only.refl _ _ | with_reducible refine (coilStart_frame _ _ _ _).after (by decide) ?_)

theorem holdStart_frame (n : Nat) (s : State) : Only [.anvil] s (holdStart n s) := by
  unfold holdStart; with_reducible exact (onChan_frame _ _ _).sub (by decide)
end Sys2Proof.Machine
end

