-- ==== Sys2Proof/Laws/Safe.lean ====
section
/-! SUPPORT. What each operation of Machine/Safe.lean leaves as it is: one law per operation, which names the parts of the state it may change. -/

namespace Sys2Proof.Machine

theorem onCes_frame (f : Cesyn → Cesyn) (s : State) : Only [.ces] s (onCes f s) := by
  intro p hp; cases p <;> first | rfl | exact absurd (by decide) hp

theorem onCore_frame (c : Nat) (f : Core → Core) (s : State) : Only [.ces] s (onCore c f s) := by
  intro p hp; cases p <;> first | rfl | exact absurd (by decide) hp

theorem onTask_frame (t : Nat) (f : Task → Task) (s : State) : Only [.ces] s (onTask t f s) := by
  intro p hp; cases p <;> first | rfl | exact absurd (by decide) hp

theorem safeSink_frame (n : Nat) (s : State) : Only [.anvil] s (safeSink n s) := by
  unfold safeSink; with_reducible exact (onSink_frame _ _ _).sub (by decide)

theorem safeLf_frame (n : Nat) (s : State) : Only [.acc] s (safeLf n s) := by
  intro p hp; cases p <;> first | rfl | exact absurd (by decide) hp

theorem safeCan_frame (p : Nat) (s : State) : Only [.bus] s (safeCan p s) := by
  unfold safeCan; with_reducible exact (onCan_frame _ _ _).sub (by decide)

theorem linState_frame (n st : Nat) (s : State) : Only [.qf, .bus] s (linState n st s) := by
  unfold linState; repeat' (first
      | with_reducible exact Only.refl _ _ | with_reducible refine (onLin_frame _ _ _).after (by decide) ?_
      | with_reducible refine (notify_frame _ _ _ _).after (by decide) ?_ | with_reducible refine Only.ite ?_ ?_)

theorem linCellDone_frame (n : Nat) (f : LinFrame) (extra : Nat) (s : State) : Only [.ctxs, .qf] s (linCellDone n f extra s) := by
  unfold linCellDone; repeat' (first
      | with_reducible exact Only.refl _ _ | with_reducible refine (onQueue_frame _ _ _).after (by decide) ?_
      | with_reducible refine (onCtx_frame _ _ _).after (by decide) ?_ | split)

theorem onLightCommit_frame (c : Nat) (f : LightCommit → LightCommit) (s : State) : Only [.light] s (onLightCommit c f s) := by
  intro p hp; cases p <;> first | rfl | exact absurd (by decide) hp

theorem extDone_frame (c i v : Nat) (s : State) : Only [.light] s (extDone c i v s) := by
  unfold extDone; with_reducible exact (onLightCommit_frame _ _ _).sub (by decide)

theorem linAbandon_frame (n : Nat) (s : State) : Only [.ctxs, .qf, .light, .bus] s (linAbandon n s) := by
  unfold linAbandon; repeat' (first
      | with_reducible exact Only.refl _ _ | with_reducible refine (linCellDone_frame _ _ _ _).after (by decide) ?_
      | with_reducible refine (onLin_frame _ _ _).after (by decide) ?_ | with_reducible refine (extDone_frame _ _ _ _).after (by decide) ?_ | split)

theorem safeLin_frame (n : Nat) (s : State) : Only [.ctxs, .qf, .light, .bus] s (safeLin n s) := by
  unfold safeLin; repeat' (first
      | with_reducible exact Only.refl _ _ | with_reducible refine (onLin_frame _ _ _).after (by decide) ?_
      | with_reducible refine (linState_frame _ _ _).after (by decide) ?_ | with_reducible refine (linAbandon_frame _ _).after (by decide) ?_
      | with_reducible refine Only.ite ?_ ?_)

theorem safeTask_frame (t : Nat) (s : State) : Only [.ces] s (safeTask t s) := by
  unfold safeTask; repeat' (first
      | with_reducible exact Only.refl _ _ | with_reducible refine (onCore_frame _ _ _).after (by decide) ?_
      | with_reducible refine (onTask_frame _ _ _).after (by decide) ?_ | split)

theorem freeCan_frame (p : Nat) (s : State) : Only [.bus] s (freeCan p s) := by
  unfold freeCan; with_reducible exact (onCan_frame _ _ _).sub (by decide)

theorem linEnter_frame (n : Nat) (s : State) : Only [.qf, .bus] s (linEnter n s) := by
  unfold linEnter; with_reducible exact (linState_frame _ _ _).sub (by decide)

theorem freeLin_frame (n : Nat) (s : State) : Only [.qf, .bus] s (freeLin n s) := by
  unfold freeLin; repeat' (first
      | with_reducible exact Only.refl _ _ | with_reducible refine (onLin_frame _ _ _).after (by decide) ?_
      | with_reducible refine (linEnter_frame _ _).after (by decide) ?_ | with_reducible refine Only.ite ?_ ?_)

theorem freeSink_frame (n : Nat) (s : State) : Only [.anvil] s (freeSink n s) := by
  unfold freeSink; with_reducible exact (onSink_frame _ _ _).sub (by decide)

theorem freeLf_frame (n : Nat) (s : State) : Only [.acc] s (freeLf n s) := by
  intro p hp; cases p <;> first | rfl | exact absurd (by decide) hp
end Sys2Proof.Machine
end

