-- ==== Sys2Proof/Laws/Faults.lean ====
section
/-! SUPPORT. What each operation of Machine/Faults.lean leaves as it is: one law per operation, which names the parts of the state it may change. -/

namespace Sys2Proof.Machine

theorem onFlt_frame (f : Flt → Flt) (s : State) : Only [.flt] s (onFlt f s) := by
  intro p hp; cases p <;> first | rfl | exact absurd (by decide) hp

theorem onFltInst_frame (src i : Nat) (f : FltInst → FltInst) (s : State) : Only [.flt] s (onFltInst src i f s) := by
  intro p hp; cases p <;> first | rfl | exact absurd (by decide) hp

theorem putRecord_frame (r : Rec) (s : State) : Only [.qf, .flt] s (putRecord r s) := by
  unfold putRecord; repeat' (first
      | with_reducible exact Only.refl _ _ | with_reducible refine (onFlt_frame _ _).after (by decide) ?_
      | with_reducible refine (admitEntry_frame _ _ _).after (by decide) ?_ | with_reducible refine Only.ite ?_ ?_)

theorem record_frame (r : Rec) (s : State) : Only [.qf, .flt] s (record r s) := by
  unfold record; repeat' (first
      | with_reducible exact Only.refl _ _ | with_reducible refine (onFlt_frame _ _).after (by decide) ?_
      | with_reducible refine (putRecord_frame _ _).after (by decide) ?_ | with_reducible refine Only.ite ?_ ?_)

theorem fltAlert_frame (src i cls : Nat) (sev : Bool) (count detail : Nat) (s : State) : Only [.flt] s (fltAlert src i cls sev count detail s) := by
  unfold fltAlert; with_reducible exact (onFlt_frame _ _).sub (by decide)

theorem safePinOn_frame (n : Nat) (s : State) : Only [.anvil, .qf, .free] s (safePinOn n s) := by
  unfold safePinOn; repeat' (first
      | with_reducible exact Only.refl _ _ | with_reducible refine (onChan_frame _ _ _).after (by decide) ?_
      | with_reducible refine (lampTurn_frame _ _ _ _).after (by decide) ?_ | with_reducible refine (pinTurn_frame _ _ _ _).after (by decide) ?_
      | with_reducible refine Only.ite ?_ ?_)

theorem safeChannel_frame (n : Nat) (s : State) : Only [.anvil, .time, .qf, .free] s (safeChannel n s) := by
  unfold safeChannel; repeat' (first
      | with_reducible exact Only.refl _ _ | with_reducible refine (onChan_frame _ _ _).after (by decide) ?_
      | with_reducible refine (coilInterrupt_frame _ _).after (by decide) ?_ | with_reducible refine (coilSafeOn_frame _ _).after (by decide) ?_
      | with_reducible refine (bridgeCoast_frame _ _).after (by decide) ?_ | with_reducible refine (bridgeRampDown_frame _ _).after (by decide) ?_
      | with_reducible refine (pinOff_frame _ _ _).after (by decide) ?_ | with_reducible refine (safePinOn_frame _ _).after (by decide) ?_
      | with_reducible refine (limpAll_frame _).after (by decide) ?_ | with_reducible refine (enterLimp_frame _ _).after (by decide) ?_
      | with_reducible refine Only.ite ?_ ?_)

theorem safeUnit_frame (s : State) (u : SafeKind × Nat) : Only [.anvil, .time, .ctxs, .qf, .light, .bus, .acc, .free] s (safeUnit s u) := by
  unfold safeUnit; repeat' (first
      | with_reducible exact Only.refl _ _ | with_reducible refine (safeChannel_frame _ _).after (by decide) ?_
      | with_reducible refine (safeSink_frame _ _).after (by decide) ?_ | with_reducible refine (safeLf_frame _ _).after (by decide) ?_
      | with_reducible refine (safeCan_frame _ _).after (by decide) ?_ | with_reducible refine (safeLin_frame _ _).after (by decide) ?_ | split)

theorem safeUnits_frame (us : List (SafeKind × Nat)) (s : State) : Only [.anvil, .time, .ctxs, .qf, .light, .bus, .acc, .free] s (safeUnits us s) := by
  unfold safeUnits; repeat' (first
      | with_reducible exact Only.refl _ _ | with_reducible refine (safeUnit_frame _ _).after (by decide) ?_
      | with_reducible refine (advTo_frame _ _).after (by decide) ?_ | with_reducible refine Only.foldl _ (fun s a => ?_) _ ?_)

theorem reactAt_frame (src i : Nat) (s : State) : Only [.anvil, .time, .ctxs, .qf, .flt, .light, .bus, .ces, .acc, .free] s (reactAt src i s) := by
  unfold reactAt; repeat' (first
      | with_reducible exact Only.refl _ _ | with_reducible refine (onFltInst_frame _ _ _ _).after (by decide) ?_
      | with_reducible refine (safeUnits_frame _ _).after (by decide) ?_ | with_reducible refine (closeProducer_frame _ _ _).after (by decide) ?_
      | with_reducible refine (safeTask_frame _ _).after (by decide) ?_ | with_reducible refine Only.ite ?_ ?_
      | with_reducible refine Only.foldl _ (fun s a => ?_) _ ?_ | split)

theorem react_frame (src i cls : Nat) (s : State) : Only [.anvil, .time, .ctxs, .qf, .flt, .light, .bus, .ces, .acc, .free] s (react src i cls s) := by
  unfold react; repeat' (first
      | with_reducible exact Only.refl _ _ | with_reducible refine (reactAt_frame _ _ _).after (by decide) ?_
      | with_reducible refine (onFlt_frame _ _).after (by decide) ?_ | with_reducible refine Only.ite ?_ ?_)

theorem raiseDie_frame (onA : Bool) (src i detail : Nat) (s : State) :
    Only [.anvil, .time, .ctxs, .qf, .flt, .light, .bus, .pwr, .ces, .acc, .free] s (raiseDie onA src i detail s) := by
  unfold raiseDie; repeat' (first
      | with_reducible exact Only.refl _ _ | with_reducible refine (onFltInst_frame _ _ _ _).after (by decide) ?_
      | with_reducible refine (onFlt_frame _ _).after (by decide) ?_ | with_reducible refine (record_frame _ _).after (by decide) ?_
      | with_reducible refine (fltAlert_frame _ _ _ _ _ _ _).after (by decide) ?_ | with_reducible refine (deviceWake_frame _ _ _ _ _ _).after (by decide) ?_
      | with_reducible refine (react_frame _ _ _ _).after (by decide) ?_ | with_reducible refine Only.ite ?_ ?_)

theorem raiseD_frame (src i detail : Nat) (s : State) : Only [.anvil, .time, .ctxs, .qf, .flt, .light, .bus, .pwr, .ces, .acc, .free] s (raiseD src i detail s) := by
  unfold raiseD; repeat' (first | with_reducible exact Only.refl _ _ | with_reducible refine (raiseDie_frame _ _ _ _ _).after (by decide) ?_)

theorem raise_frame (src i : Nat) (s : State) : Only [.anvil, .time, .ctxs, .qf, .flt, .light, .bus, .pwr, .ces, .acc, .free] s (raise src i s) := by
  unfold raise; with_reducible exact (raiseD_frame _ _ _ _).sub (by decide)

theorem fltConfigSpec_frame (r : Req) (s : State) : Only [.com] s (fltConfigSpec.run r s).st := by
  unfold fltConfigSpec; with_reducible exact (onCom_frame _ _).sub (by decide)

theorem fltStatusSpec_frame (r : Req) (s : State) : Only [] s (fltStatusSpec.run r s).st := by
  exact Only.refl _ _

theorem fltHistorySpec_frame (r : Req) (s : State) : Only [] s (fltHistorySpec.run r s).st := by
  exact Only.refl _ _

theorem fltStickySpec_frame (r : Req) (s : State) : Only [] s (fltStickySpec.run r s).st := by
  exact Only.refl _ _

theorem releasePorts_frame (s : State) : Only [.qf, .bus] s (releasePorts s) := by
  unfold releasePorts; repeat' (first
      | with_reducible exact Only.refl _ _ | with_reducible refine (freeCan_frame _ _).after (by decide) ?_
      | with_reducible refine (freeLin_frame _ _).after (by decide) ?_ | with_reducible refine Only.ite ?_ ?_
      | with_reducible refine Only.foldl _ (fun s a => ?_) _ ?_)

theorem clearInst_frame (src i : Nat) (sev : Bool) (s : State) :
    Only [.com, .anvil, .time, .ctxs, .qf, .flt, .light, .bus, .ces, .acc, .free] s (clearInst src i sev s) := by
  unfold clearInst; repeat' (first
      | with_reducible exact Only.refl _ _ | with_reducible refine (onFltInst_frame _ _ _ _).after (by decide) ?_
      | with_reducible refine (onFlt_frame _ _).after (by decide) ?_ | with_reducible refine (react_frame _ _ _ _).after (by decide) ?_
      | with_reducible refine (releasePorts_frame _).after (by decide) ?_ | with_reducible refine (onCom_frame _ _).after (by decide) ?_
      | with_reducible refine Only.ite ?_ ?_)

theorem fltClearSpec_frame (r : Req) (s : State) : Only [.com, .anvil, .time, .ctxs, .qf, .flt, .light, .bus, .ces, .acc, .free] s (fltClearSpec.run r s).st := by
  unfold fltClearSpec; repeat' (first
      | with_reducible exact Only.refl _ _ | with_reducible refine (clearInst_frame _ _ _ _).after (by decide) ?_
      | with_reducible refine (onFlt_frame _ _).after (by decide) ?_ | with_reducible refine (record_frame _ _).after (by decide) ?_
      | with_reducible refine Only.ite ?_ ?_ | with_reducible refine Only.foldl _ (fun s a => ?_) _ ?_)

theorem fltGlobalSpec_frame (r : Req) (s : State) : Only [.flt] s (fltGlobalSpec.run r s).st := by
  unfold fltGlobalSpec; with_reducible exact (onFlt_frame _ _).sub (by decide)

theorem sendAlerts_frame (s : State) : Only [.qf, .flt] s (sendAlerts s) := by
  unfold sendAlerts; repeat' (first
      | with_reducible exact Only.refl _ _ | with_reducible refine (notifyAt_frame _ _ _ _ _ _).after (by decide) ?_
      | with_reducible refine (onFlt_frame _ _).after (by decide) ?_ | with_reducible refine Only.foldl _ (fun s a => ?_) _ ?_)

theorem missEvent_frame (i : Nat) (s : State) : Only [.anvil, .time, .sched, .ctxs, .qf, .flt, .light, .bus, .pwr, .ces, .acc, .free] s (missEvent i s) := by
  unfold missEvent; repeat' (first
      | with_reducible exact Only.refl _ _ | with_reducible refine (raise_frame _ _ _).after (by decide) ?_
      | with_reducible refine (onSched_frame _ _).after (by decide) ?_)

theorem degradeAct_frame (atHearth : Bool) (x1 : List (Nat × Nat)) (s : State) :
    Only [.anvil, .time, .ctxs, .qf, .flt, .light, .bus, .ces, .acc, .free] s (degradeAct atHearth x1 s) := by
  unfold degradeAct; repeat' (first
      | with_reducible exact Only.refl _ _ | with_reducible refine (reactAt_frame _ _ _).after (by decide) ?_ | with_reducible refine Only.ite ?_ ?_
      | with_reducible refine Only.foldl _ (fun s a => ?_) _ ?_)

theorem releaseChannel_frame (n : Nat) (s : State) : Only [.anvil, .time, .qf, .free] s (releaseChannel n s) := by
  unfold releaseChannel; repeat' (first
      | with_reducible exact Only.refl _ _ | with_reducible refine (onChan_frame _ _ _).after (by decide) ?_
      | with_reducible refine (onBridge_frame _ _ _).after (by decide) ?_ | with_reducible refine (onCoil_frame _ _ _).after (by decide) ?_
      | with_reducible refine (coilRelease_frame _ _).after (by decide) ?_ | with_reducible refine (pinOff_frame _ _ _).after (by decide) ?_
      | with_reducible refine (limpAll_frame _).after (by decide) ?_ | with_reducible refine (flashClock_frame _).after (by decide) ?_
      | with_reducible refine Only.ite ?_ ?_)

theorem releaseAnvil_frame (s : State) : Only [.anvil, .time, .qf, .acc, .free] s (releaseAnvil s) := by
  unfold releaseAnvil; repeat' (first
      | with_reducible exact Only.refl _ _ | with_reducible refine (releaseChannel_frame _ _).after (by decide) ?_
      | with_reducible refine (freeSink_frame _ _).after (by decide) ?_ | with_reducible refine (freeLf_frame _ _).after (by decide) ?_
      | with_reducible refine Only.ite ?_ ?_ | with_reducible refine Only.foldl _ (fun s a => ?_) _ ?_)
end Sys2Proof.Machine
end

