-- ==== Sys2Proof/Laws/Channels.lean ====
section
/-! SUPPORT. What each operation of Machine/Channels.lean leaves as it is: one law per operation, which names the parts of the state it may change. -/

namespace Sys2Proof.Machine

theorem limpInForce_frame (s : State) : Only [.anvil, .time, .qf, .free] s (limpInForce s) := by
  unfold limpInForce; repeat' (first
      | with_reducible exact Only.refl _ _ | with_reducible refine (limpAll_frame _).after (by decide) ?_
      | with_reducible refine (enterLimp_frame _ _).after (by decide) ?_ | with_reducible refine Only.ite ?_ ?_
      | with_reducible refine Only.foldl _ (fun s a => ?_) _ ?_)

theorem chSetSpec_frame (r : Req) (s : State) : Only [.com, .light] s (chSetSpec.run r s).st := by
  unfold chSetSpec; repeat' (first
      | with_reducible exact Only.refl _ _ | with_reducible refine (lightDirect_frame _ _ _ _ _).after (by decide) ?_
      | with_reducible refine (onCom_frame _ _).after (by decide) ?_)

theorem putChCfg_frame (n : Nat) (c : Rec) (s : State) : Only [.com] s (putChCfg n c s) := by
  unfold putChCfg; with_reducible exact (onCom_frame _ _).sub (by decide)

theorem chConfigRun_frame (r : Req) (s : State) : Only [.roles, .com] s (chConfigRun r s).st := by
  unfold chConfigRun; repeat' (first
      | with_reducible exact Only.refl _ _ | with_reducible refine (onCom_frame _ _).after (by decide) ?_
      | with_reducible refine (reassign_frame _ _ _).after (by decide) ?_ | with_reducible refine (putChCfg_frame _ _ _).after (by decide) ?_
      | with_reducible refine Only.ite ?_ ?_)

theorem chConfigSpec_frame (r : Req) (s : State) : Only [.roles, .com] s (chConfigSpec.run r s).st := by
  unfold chConfigSpec; with_reducible exact (chConfigRun_frame _ _).sub (by decide)

theorem chStatusSpec_frame (r : Req) (s : State) : Only [] s (chStatusSpec.run r s).st := by
  exact Only.refl _ _

theorem onChanBoth_frame (n : Nat) (f : Chan → Chan) (s : State) : Only [.anvil, .rep] s (onChanBoth n f s) := by
  intro p hp; cases p <;> first | rfl | exact absurd (by decide) hp

theorem chClearDiagSpec_frame (r : Req) (s : State) : Only [.anvil, .rep] s (chClearDiagSpec.run r s).st := by
  unfold chClearDiagSpec; with_reducible exact (onChanBoth_frame _ _ _).sub (by decide)

theorem lhConfigSpec_frame (r : Req) (s : State) : Only [.com] s (lhConfigSpec.run r s).st := by
  unfold lhConfigSpec; with_reducible exact (onCom_frame _ _).sub (by decide)

theorem lhStatusSpec_frame (r : Req) (s : State) : Only [] s (lhStatusSpec.run r s).st := by
  exact Only.refl _ _

theorem execLampPeriodStart_frame (x0 : Nat) (x1 : Option Nat) (x2 : State) : Answers (execLampPeriodStart x0 x1 x2) (Only [.anvil, .time, .qf, .free] x2) := by
  have h (k : Nat) (p : Nat × Bool) : Only [.anvil, .time, .qf, .free] x2 (lampTake x0 p x1 (lampSettle x0 (atTickA k x2))) :=
    (lampTake_frame _ _ _ _).after (by decide) ((lampSettle_frame _ _).after (by decide) ((atTickA_frame _ _).sub (by decide)))
  unfold execLampPeriodStart
  exact Answers.ite (Answers.ite (Answers.next ((pinOff_frame _ _ _).after (by decide) (h _ _))) (Answers.next ((onChan_frame _ _ _).after (by decide)
    (Only.ite (h _ _) ((pinOn_frame _ _ _).after (by decide) (h _ _)))))) (Answers.next (Only.refl _ _))

theorem latchDiag_frame (n i : Nat) (s : State) : Only [.anvil, .time, .ctxs, .qf, .flt, .light, .bus, .pwr, .ces, .acc, .free] s (latchDiag n i s) := by
  unfold latchDiag; repeat' (first
      | with_reducible exact Only.refl _ _ | with_reducible refine (onChan_frame _ _ _).after (by decide) ?_
      | with_reducible refine (raise_frame _ _ _).after (by decide) ?_ | with_reducible refine (notify_frame _ _ _ _).after (by decide) ?_
      | with_reducible refine Only.ite ?_ ?_)

theorem openOnCheck_frame (n : Nat) (s : State) : Only [.anvil, .time, .ctxs, .qf, .flt, .light, .bus, .pwr, .ces, .acc, .free] s (openOnCheck n s) := by
  unfold openOnCheck; repeat' (first
      | with_reducible exact Only.refl _ _ | with_reducible refine (onChan_frame _ _ _).after (by decide) ?_
      | with_reducible refine (latchDiag_frame _ _ _).after (by decide) ?_ | with_reducible refine Only.ite ?_ ?_)

theorem pinApply_frame (n : Nat) (lv : Bool) (s : State) : Only [.anvil, .qf, .free] s (pinApply n lv s) := by
  unfold pinApply; repeat' (first
      | with_reducible exact Only.refl _ _ | with_reducible refine (pinOn_frame _ _ _).after (by decide) ?_
      | with_reducible refine (pinOff_frame _ _ _).after (by decide) ?_ | with_reducible refine Only.ite ?_ ?_)

theorem execOffDiagStepB_frame (x0 x1 : Nat) (x2 : State) :
    Answers (execOffDiagStepB x0 x1 x2) (Only [.anvil, .time, .ctxs, .qf, .flt, .light, .bus, .pwr, .ces, .acc, .free] x2) := by
  have h (f g : Chan → Chan) : Only [.anvil, .time, .ctxs, .qf, .flt, .light, .bus, .pwr, .ces, .acc, .free] x2 (onChan x0 g (onChan x0 f (atTickA 10000 x2))) :=
    (onChan_frame _ _ _).after (by decide) ((onChan_frame _ _ _).after (by decide) ((atTickA_frame _ _).sub (by decide)))
  unfold execOffDiagStepB
  exact Answers.ite (Answers.ite (Answers.next (Only.ite ((latchDiag_frame _ _ _).after (by decide) (h _ _)) (h _ _))) (Answers.next (h _ _))) (Answers.next (Only.refl _ _))

theorem limpRelease_frame (s : State) : Only [.anvil] s (limpRelease s) := by
  unfold limpRelease; repeat' (first
      | with_reducible exact Only.refl _ _ | with_reducible refine (flashClock_frame _).after (by decide) ?_
      | with_reducible refine (onChan_frame _ _ _).after (by decide) ?_ | with_reducible refine Only.ite ?_ ?_
      | with_reducible refine Only.foldl _ (fun s a => ?_) _ ?_)

theorem execLhNChange_frame (high : Bool) (s : State) : Answers (execLhNChange high s) (Only [.anvil, .time, .qf, .free] s) := by
  unfold execLhNChange; repeat' (first
      | with_reducible refine Answers.next ?_ | with_reducible exact Only.refl _ _ | with_reducible refine (onAnvil_frame _ _).after (by decide) ?_
      | with_reducible refine (limpRelease_frame _).after (by decide) ?_ | with_reducible refine (limpInForce_frame _).after (by decide) ?_
      | with_reducible refine Answers.ite ?_ ?_ | with_reducible refine Only.ite ?_ ?_)

theorem offDiagA_frame (was : Com) (n vout : Nat) (s : State) :
    Only [.anvil, .time, .ctxs, .qf, .flt, .light, .bus, .pwr, .ces, .acc, .free] s (offDiagA was n vout s) := by
  unfold offDiagA; repeat' (first
      | with_reducible exact Only.refl _ _ | with_reducible refine (onChan_frame _ _ _).after (by decide) ?_
      | with_reducible refine (latchDiag_frame _ _ _).after (by decide) ?_ | with_reducible refine Only.ite ?_ ?_)

theorem pinFollow_frame (n : Nat) (s : State) : Only [.anvil, .qf, .free] s (pinFollow n s) := by
  unfold pinFollow; repeat' (first
      | with_reducible exact Only.refl _ _ | with_reducible refine (onChan_frame _ _ _).after (by decide) ?_
      | with_reducible refine (pinApply_frame _ _ _).after (by decide) ?_ | with_reducible refine Only.ite ?_ ?_)

theorem execDirEdge_frame (x0 : Nat) (x1 : Bool) (x2 : State) : Answers (execDirEdge x0 x1 x2) (Only [.anvil, .time, .qf, .free] x2) := by
  have h (b : Tb) (l : List Nat) (p : State × Nat) (hp : Only [.anvil, .time, .qf, .free] x2 p.1) : Only [.anvil, .time, .qf, .free] x2
      (l.foldl (fun (p : State × Nat) n => (pinFollow n (advTo (b + BitVec.ofNat 48 (15 * p.2 / 2)) p.1), p.2 + 1)) p).1 := by
    induction l generalizing p with
    | nil => exact hp
    | cons n l ih => exact ih _ ((pinFollow_frame _ _).after (by decide) ((advTo_frame _ _).after (by decide) hp))
  unfold execDirEdge
  exact Answers.next ((tmrDirEdge_frame _ _ _).after (by decide) (h _ _ _ ((onAnvil_frame _ _).sub (by decide))))

theorem execLhinChange_frame (i : Nat) (high : Bool) (s : State) : Answers (execLhinChange i high s) (Only [.anvil, .time, .qf, .free] s) := by
  unfold execLhinChange; repeat' (first
      | with_reducible refine Answers.next ?_ | with_reducible exact Only.refl _ _ | with_reducible refine (limpAll_frame _).after (by decide) ?_
      | with_reducible refine (onAnvil_frame _ _).after (by decide) ?_)

theorem adoptHeld_frame (s : State) : Only [.com] s (adoptHeld s) := by
  unfold adoptHeld; repeat' (first
      | with_reducible exact Only.refl _ _ | with_reducible refine (onCom_frame _ _).after (by decide) ?_ | with_reducible refine Only.ite ?_ ?_
      | with_reducible refine Only.foldl _ (fun s a => ?_) _ ?_)

theorem adoptLimp_frame (s : State) : Only [.com, .anvil, .rep, .qf] s (adoptLimp s) := by
  unfold adoptLimp; repeat' (first
      | with_reducible exact Only.refl _ _ | with_reducible refine (onCom_frame _ _).after (by decide) ?_
      | with_reducible refine (onChanBoth_frame _ _ _).after (by decide) ?_ | with_reducible refine (notify_frame _ _ _ _).after (by decide) ?_
      | with_reducible refine Only.foldl _ (fun s a => ?_) _ ?_ | split)

theorem execFlashToggle_frame (s : State) : Answers (execFlashToggle s) (Only [.anvil, .time, .qf, .free] s) := by
  unfold execFlashToggle; repeat' (first
      | with_reducible refine Answers.next ?_ | with_reducible exact Only.refl _ _ | with_reducible refine (limpAll_frame _).after (by decide) ?_
      | with_reducible refine (onAnvil_frame _ _).after (by decide) ?_ | with_reducible refine (advTo_frame _ _).after (by decide) ?_
      | with_reducible refine Answers.ite ?_ ?_ | with_reducible refine Only.ite ?_ ?_)

theorem execPinEdgeDeferred_frame (n : Nat) (s : State) : Answers (execPinEdgeDeferred n s) (Only [.anvil, .time, .qf, .free] s) := by
  unfold execPinEdgeDeferred; repeat' (first
      | with_reducible refine Answers.next ?_ | with_reducible exact Only.refl _ _ | with_reducible refine (onChan_frame _ _ _).after (by decide) ?_
      | with_reducible refine (advTo_frame _ _).after (by decide) ?_ | with_reducible refine (pinApply_frame _ _ _).after (by decide) ?_
      | with_reducible refine Answers.ite ?_ ?_ | with_reducible refine Only.ite ?_ ?_ | split)
end Sys2Proof.Machine
end

