-- ==== Sys2Proof/Laws/Protection.lean ====
section
/-! SUPPORT. What each operation of Machine/Protection.lean leaves as it is: one law per operation, which names the parts of the state it may change. -/

namespace Sys2Proof.Machine

theorem zoneFrame_frame (sinks : Nat) (s : State) : Only [.anvil, .time, .ctxs, .qf, .flt, .light, .bus, .pwr, .ces, .acc, .free] s (zoneFrame sinks s) := by
  unfold zoneFrame; repeat' (first
      | with_reducible exact Only.refl _ _ | with_reducible refine (onAnvil_frame _ _).after (by decide) ?_
      | with_reducible refine (raise_frame _ _ _).after (by decide) ?_ | with_reducible refine Only.ite ?_ ?_
      | with_reducible refine Only.foldl _ (fun s a => ?_) _ ?_)

theorem chProtConfigSpec_frame (r : Req) (s : State) : Only [.com] s (chProtConfigSpec.run r s).st := by
  unfold chProtConfigSpec; with_reducible exact (onCom_frame _ _).sub (by decide)

theorem commitClear_frame (n x1 : Nat) (s : State) : Only [.com, .rep] s (commitClear n x1 s) := by
  unfold commitClear; repeat' (first | with_reducible exact Only.refl _ _ | with_reducible refine (onCom_frame _ _).after (by decide) ?_ | (refine Only.upd (Only.refl _ s) ?_; intro p hp; cases p <;> first | exact absurd (by decide) hp | (dsimp only [Part.same]; done); done))

theorem chClearProtSpec_frame (r : Req) (s : State) : Only [.com, .rep] s (chClearProtSpec.run r s).st := by
  unfold chClearProtSpec; with_reducible exact (commitClear_frame _ _ _).sub (by decide)

theorem chProtStatusSpec_frame (r : Req) (s : State) : Only [] s (chProtStatusSpec.run r s).st := by
  exact Only.refl _ _

theorem supplyStatusSpec_frame (r : Req) (s : State) : Only [] s (supplyStatusSpec.run r s).st := by
  exact Only.refl _ _

theorem protFree_frame (n : Nat) (s : State) : Only [.anvil, .time, .qf, .free] s (protFree n s) := by
  unfold protFree; repeat' (first
      | with_reducible exact Only.refl _ _ | with_reducible refine (limpAll_frame _).after (by decide) ?_ | with_reducible refine Only.ite ?_ ?_)

theorem execTsdClear_frame (n : Nat) (tj : Int) (s : State) : Answers (execTsdClear n tj s) (Only [.anvil, .time, .qf, .free] s) := by
  unfold execTsdClear; repeat' (first
      | with_reducible refine Answers.next ?_ | with_reducible exact Only.refl _ _ | with_reducible refine (protFree_frame _ _).after (by decide) ?_
      | with_reducible refine (onChan_frame _ _ _).after (by decide) ?_ | with_reducible refine Answers.ite ?_ ?_ | with_reducible refine Only.ite ?_ ?_)

theorem onSup_frame (f : Supply → Supply) (s : State) : Only [.anvil] s (onSup f s) := by
  intro p hp; cases p <;> first | rfl | exact absurd (by decide) hp

theorem vbatsRead_frame (v : Int) (s : State) : Only [.anvil] s (vbatsRead v s) := by
  unfold vbatsRead; with_reducible exact (onSup_frame _ _).sub (by decide)

theorem execRetryRestore_frame (n : Nat) (s : State) : Answers (execRetryRestore n s) (Only [.anvil, .time, .qf] s) := by
  unfold execRetryRestore; repeat' (first
      | with_reducible refine Answers.next ?_ | with_reducible exact Only.refl _ _ | with_reducible refine (advTo_frame _ _).after (by decide) ?_
      | with_reducible refine (onChan_frame _ _ _).after (by decide) ?_ | with_reducible refine Only.foldl _ (fun s a => ?_) _ ?_ | split)

theorem execVbatsOvEnd_frame (v : Int) (s : State) : Answers (execVbatsOvEnd v s) (Only [.anvil, .time, .qf, .free] s) := by
  unfold execVbatsOvEnd; repeat' (first
      | with_reducible refine Answers.next ?_ | with_reducible exact Only.refl _ _ | with_reducible refine (vbatsRead_frame _ _).after (by decide) ?_
      | with_reducible refine (limpAll_frame _).after (by decide) ?_ | with_reducible refine (onSup_frame _ _).after (by decide) ?_
      | with_reducible refine Answers.ite ?_ ?_ | with_reducible refine Only.ite ?_ ?_)

theorem execInrushWindowEnd_frame (n : Nat) (s : State) : Answers (execInrushWindowEnd n s) (Only [.anvil, .time, .qf] s) := by
  unfold execInrushWindowEnd; repeat' (first
      | with_reducible refine Answers.next ?_ | with_reducible exact Only.refl _ _ | with_reducible refine (onChan_frame _ _ _).after (by decide) ?_
      | with_reducible refine (advTo_frame _ _).after (by decide) ?_ | split)

theorem bridgeLost_frame (b : Nat) (s : State) : Only [.anvil, .time, .ctxs, .qf, .flt, .light, .bus, .pwr, .ces, .acc, .free] s (bridgeLost b s) := by
  unfold bridgeLost; repeat' (first
      | with_reducible exact Only.refl _ _ | with_reducible refine (brEvent_frame _ _ _).after (by decide) ?_
      | with_reducible refine (raise_frame _ _ _).after (by decide) ?_ | with_reducible refine (onBridge_frame _ _ _).after (by decide) ?_
      | with_reducible refine Only.ite ?_ ?_)

theorem protOffAll_frame (ns : List Nat) (i cause : Nat) (s : State) :
    Only [.anvil, .time, .ctxs, .qf, .flt, .light, .bus, .pwr, .ces, .acc, .free] s (protOffAll ns i cause s) := by
  unfold protOffAll; repeat' (first
      | with_reducible exact Only.refl _ _ | with_reducible refine (onChan_frame _ _ _).after (by decide) ?_
      | with_reducible refine (bridgeLost_frame _ _).after (by decide) ?_ | with_reducible refine (cutChannel_frame _ _).after (by decide) ?_
      | with_reducible refine Only.ite ?_ ?_ | with_reducible refine Only.foldl _ (fun s a => ?_) _ ?_)

theorem protOff_frame (n i cause : Nat) (s : State) : Only [.anvil, .time, .ctxs, .qf, .flt, .light, .bus, .pwr, .ces, .acc, .free] s (protOff n i cause s) := by
  unfold protOff; with_reducible exact (protOffAll_frame _ _ _ _).sub (by decide)

theorem coolDone_frame (n : Nat) (s : State) : Only [.anvil] s (coolDone n s) := by
  unfold coolDone; with_reducible exact (onChan_frame _ _ _).sub (by decide)

theorem execCoolDownExpiry_frame (n : Nat) (s : State) : Answers (execCoolDownExpiry n s) (Only [.anvil, .time, .qf, .free] s) := by
  unfold execCoolDownExpiry; repeat' (first
      | with_reducible refine Answers.next ?_ | with_reducible exact Only.refl _ _ | with_reducible refine (advTo_frame _ _).after (by decide) ?_
      | with_reducible refine (coolDone_frame _ _).after (by decide) ?_ | with_reducible refine (limpAll_frame _).after (by decide) ?_
      | with_reducible refine Only.foldl _ (fun s a => ?_) _ ?_ | split)

theorem tempOff_frame (n flag cause ev src : Nat) (s : State) :
    Only [.anvil, .time, .ctxs, .qf, .flt, .light, .bus, .pwr, .ces, .acc, .free] s (tempOff n flag cause ev src s) := by
  unfold tempOff; repeat' (first
      | with_reducible exact Only.refl _ _ | with_reducible refine (protOff_frame _ _ _ _).after (by decide) ?_
      | with_reducible refine (onChan_frame _ _ _).after (by decide) ?_ | with_reducible refine (protEventFree_frame _ _ _).after (by decide) ?_
      | with_reducible refine (raise_frame _ _ _).after (by decide) ?_ | with_reducible refine Only.ite ?_ ?_
      | with_reducible refine Only.foldl _ (fun s a => ?_) _ ?_)

theorem execDtjEvaluation_frame (n : Nat) (tj : Int) (areas : List Int) (s : State) :
    Answers (execDtjEvaluation n tj areas s) (Only [.anvil, .time, .ctxs, .qf, .flt, .light, .bus, .pwr, .ces, .acc, .free] s) := by
  unfold execDtjEvaluation; repeat' (first
      | with_reducible refine Answers.next ?_ | with_reducible exact Only.refl _ _ | with_reducible refine (onChan_frame _ _ _).after (by decide) ?_
      | with_reducible refine (protFree_frame _ _).after (by decide) ?_ | with_reducible refine (tempOff_frame _ _ _ _ _ _).after (by decide) ?_
      | with_reducible refine Answers.ite ?_ ?_ | with_reducible refine Only.ite ?_ ?_ | split | dsimp only)

theorem clearProt_frame (n x1 : Nat) (s : State) : Only [.anvil, .time, .qf, .free] s (clearProt n x1 s) := by
  unfold clearProt; repeat' (first
      | with_reducible exact Only.refl _ _ | with_reducible refine (onChan_frame _ _ _).after (by decide) ?_
      | with_reducible refine (protFree_frame _ _).after (by decide) ?_ | with_reducible refine Only.ite ?_ ?_
      | with_reducible refine Only.foldl _ (fun s a => ?_) _ ?_)

theorem runClears_frame (s : State) : Only [.anvil, .time, .qf, .free] s (runClears s) := by
  unfold runClears; repeat' (first
      | with_reducible exact Only.refl _ _ | with_reducible refine (clearProt_frame _ _ _).after (by decide) ?_
      | with_reducible refine (onAnvil_frame _ _).after (by decide) ?_ | with_reducible refine Only.ite ?_ ?_
      | with_reducible refine Only.foldl _ (fun s a => ?_) _ ?_)

theorem fastTrip_frame (n i vout : Nat) (s : State) : Only [.anvil, .time, .ctxs, .qf, .flt, .light, .bus, .pwr, .ces, .acc, .free] s (fastTrip n i vout s) := by
  unfold fastTrip; repeat' (first
      | with_reducible exact Only.refl _ _ | with_reducible refine (onChan_frame _ _ _).after (by decide) ?_
      | with_reducible refine (protOffAll_frame _ _ _ _).after (by decide) ?_ | with_reducible refine (latchDiag_frame _ _ _).after (by decide) ?_
      | with_reducible refine (protEvent_frame _ _ _ _ _).after (by decide) ?_ | with_reducible refine (raise_frame _ _ _).after (by decide) ?_
      | with_reducible refine Only.ite ?_ ?_ | with_reducible refine Only.foldl _ (fun s a => ?_) _ ?_)

theorem execVbatsOv_frame (v : Int) (s : State) : Answers (execVbatsOv v s) (Only [.anvil, .time, .ctxs, .qf, .flt, .light, .bus, .pwr, .ces, .acc, .free] s) := by
  unfold execVbatsOv; repeat' (first
      | with_reducible refine Answers.next ?_ | with_reducible exact Only.refl _ _ | with_reducible refine (vbatsRead_frame _ _).after (by decide) ?_
      | with_reducible refine (raise_frame _ _ _).after (by decide) ?_ | with_reducible refine (onSup_frame _ _).after (by decide) ?_
      | with_reducible refine Answers.ite ?_ ?_ | with_reducible refine Only.ite ?_ ?_)

theorem wireFrame_frame (n isq : Nat) (s : State) : Only [.anvil, .time, .ctxs, .qf, .flt, .light, .bus, .pwr, .ces, .acc, .free] s (wireFrame n isq s) := by
  unfold wireFrame; repeat' (first
      | with_reducible exact Only.refl _ _ | with_reducible refine (onChan_frame _ _ _).after (by decide) ?_
      | with_reducible refine (protEvent_frame _ _ _ _ _).after (by decide) ?_ | with_reducible refine (raise_frame _ _ _).after (by decide) ?_
      | with_reducible refine (protOff_frame _ _ _ _).after (by decide) ?_ | with_reducible refine Only.ite ?_ ?_
      | with_reducible refine Only.foldl _ (fun s a => ?_) _ ?_)

theorem senseCheck_frame (n : Nat) (s : State) : Only [.anvil, .time, .ctxs, .qf, .flt, .light, .bus, .pwr, .ces, .acc, .free] s (senseCheck n s) := by
  unfold senseCheck; repeat' (first
      | with_reducible exact Only.refl _ _ | with_reducible refine (onChan_frame _ _ _).after (by decide) ?_
      | with_reducible refine (protEvent_frame _ _ _ _ _).after (by decide) ?_ | with_reducible refine (raise_frame _ _ _).after (by decide) ?_
      | with_reducible refine Only.ite ?_ ?_)

theorem execTsdTrip_frame (n : Nat) (tj : Int) (s : State) :
    Answers (execTsdTrip n tj s) (Only [.anvil, .time, .ctxs, .qf, .flt, .light, .bus, .pwr, .ces, .acc, .free] s) := by
  unfold execTsdTrip; repeat' (first
      | with_reducible refine Answers.next ?_ | with_reducible exact Only.refl _ _ | with_reducible refine (tempOff_frame _ _ _ _ _ _).after (by decide) ?_
      | with_reducible refine Answers.ite ?_ ?_ | with_reducible refine Only.ite ?_ ?_)

theorem execVdsTrip_frame (n vds i vout : Nat) (s : State) :
    Answers (execVdsTrip n vds i vout s) (Only [.anvil, .time, .ctxs, .qf, .flt, .light, .bus, .pwr, .ces, .acc, .free] s) := by
  unfold execVdsTrip; repeat' (first
      | with_reducible refine Answers.next ?_ | with_reducible exact Only.refl _ _ | with_reducible refine (fastTrip_frame _ _ _ _).after (by decide) ?_
      | with_reducible refine Answers.ite ?_ ?_ | with_reducible refine Only.ite ?_ ?_)

theorem execVbatsRecover_frame (v : Int) (s : State) : Answers (execVbatsRecover v s) (Only [.anvil] s) := by
  unfold execVbatsRecover; repeat' (first
      | with_reducible refine Answers.next ?_ | with_reducible exact Only.refl _ _ | with_reducible refine (vbatsRead_frame _ _).after (by decide) ?_
      | with_reducible refine (onSup_frame _ _).after (by decide) ?_ | with_reducible refine Answers.ite ?_ ?_
      | with_reducible refine Only.ite ?_ ?_ | split | dsimp only)

theorem execVbatsLow_frame (v : Int) (s : State) : Answers (execVbatsLow v s) (Only [.anvil] s) := by
  unfold execVbatsLow; repeat' (first
      | with_reducible refine Answers.next ?_ | with_reducible exact Only.refl _ _ | with_reducible refine (vbatsRead_frame _ _).after (by decide) ?_
      | with_reducible refine (onSup_frame _ _).after (by decide) ?_ | with_reducible refine Answers.ite ?_ ?_ | with_reducible refine Only.ite ?_ ?_)

theorem execCrankTimeout_frame (s : State) : Answers (execCrankTimeout s) (Only [.anvil, .time, .ctxs, .qf, .flt, .light, .bus, .pwr, .ces, .acc, .free] s) := by
  unfold execCrankTimeout; repeat' (first
      | with_reducible refine Answers.next ?_ | with_reducible exact Only.refl _ _ | with_reducible refine (onSup_frame _ _).after (by decide) ?_
      | with_reducible refine (advTo_frame _ _).after (by decide) ?_ | with_reducible refine (protOff_frame _ _ _ _).after (by decide) ?_
      | with_reducible refine (protEventFree_frame _ _ _).after (by decide) ?_ | with_reducible refine (raise_frame _ _ _).after (by decide) ?_
      | with_reducible refine Answers.ite ?_ ?_ | with_reducible refine Only.ite ?_ ?_ | with_reducible refine Only.foldl _ (fun s a => ?_) _ ?_ | split)

theorem execOcTrip_frame (n i vout : Nat) (s : State) :
    Answers (execOcTrip n i vout s) (Only [.anvil, .time, .ctxs, .qf, .flt, .light, .bus, .pwr, .ces, .acc, .free] s) := by
  unfold execOcTrip; repeat' (first
      | with_reducible refine Answers.next ?_ | with_reducible exact Only.refl _ _ | with_reducible refine (fastTrip_frame _ _ _ _).after (by decide) ?_
      | with_reducible refine Answers.ite ?_ ?_ | with_reducible refine Only.ite ?_ ?_)

theorem execCrankRelease_frame (v : Int) (s : State) : Answers (execCrankRelease v s) (Only [.anvil, .time, .qf, .free] s) := by
  unfold execCrankRelease; repeat' (first
      | with_reducible refine Answers.next ?_ | with_reducible exact Only.refl _ _ | with_reducible refine (vbatsRead_frame _ _).after (by decide) ?_
      | with_reducible refine (onSup_frame _ _).after (by decide) ?_ | with_reducible refine (limpAll_frame _).after (by decide) ?_
      | with_reducible refine (onChan_frame _ _ _).after (by decide) ?_ | with_reducible refine Answers.ite ?_ ?_ | with_reducible refine Only.ite ?_ ?_
      | with_reducible refine Only.foldl _ (fun s a => ?_) _ ?_)
end Sys2Proof.Machine
end

