-- ==== Sys2Proof/Laws/Inductive.lean ====
section
/-! SUPPORT. What each operation of Machine/Inductive.lean leaves as it is: one law per operation, which names the parts of the state it may change. -/

namespace Sys2Proof.Machine

theorem taTaken_frame (n : Nat) (s : State) : Only [.free] s (taTaken n s) := by
  unfold taTaken; repeat' (first
      | with_reducible exact Only.refl _ _ | with_reducible refine (useFree_frame _).after (by decide) ?_ | with_reducible refine Only.ite ?_ ?_)

theorem coilPark_frame (n : Nat) (s : State) : Only [.anvil, .free] s (coilPark n s) := by
  unfold coilPark; repeat' (first
      | with_reducible exact Only.refl _ _ | with_reducible refine (onCoil_frame _ _ _).after (by decide) ?_
      | with_reducible refine (taTaken_frame _ _).after (by decide) ?_ | with_reducible refine Only.ite ?_ ?_)

theorem onCoilBoth_frame (n : Nat) (f : Coil → Coil) (s : State) : Only [.anvil, .rep] s (onCoilBoth n f s) := by
  intro p hp; cases p <;> first | rfl | exact absurd (by decide) hp

theorem indClearSpec_frame (r : Req) (s : State) : Only [.anvil, .rep] s (indClearSpec.run r s).st := by
  unfold indClearSpec; with_reducible exact (onCoilBoth_frame _ _ _).sub (by decide)

theorem indConfigSpec_frame (r : Req) (s : State) : Only [.com, .anvil, .rep] s (indConfigSpec.run r s).st := by
  unfold indConfigSpec; repeat' (first
      | with_reducible exact Only.refl _ _ | with_reducible refine (onCoilBoth_frame _ _ _).after (by decide) ?_
      | with_reducible refine (onCom_frame _ _).after (by decide) ?_ | with_reducible refine Only.ite ?_ ?_)

theorem indSetSpec_frame (r : Req) (s : State) : Only [.com] s (indSetSpec.run r s).st := by
  unfold indSetSpec; with_reducible exact (onCom_frame _ _).sub (by decide)

theorem indStatusSpec_frame (r : Req) (s : State) : Only [] s (indStatusSpec.run r s).st := by
  exact Only.refl _ _

theorem coilDone_frame (n : Nat) (s : State) : Only [.anvil, .qf] s (coilDone n s) := by
  unfold coilDone; repeat' (first
      | with_reducible exact Only.refl _ _ | with_reducible refine (coilOneShotEnd_frame _ _ _).after (by decide) ?_ | with_reducible refine Only.ite ?_ ?_)

theorem execOneShotEnd_frame (n : Nat) (s : State) : Answers (execOneShotEnd n s) (Only [.anvil, .time, .qf] s) := by
  unfold execOneShotEnd; repeat' (first
      | with_reducible refine Answers.next ?_ | with_reducible exact Only.refl _ _ | with_reducible refine (coilDone_frame _ _).after (by decide) ?_
      | with_reducible refine (advTo_frame _ _).after (by decide) ?_ | with_reducible refine Answers.ite ?_ ?_ | with_reducible refine Only.ite ?_ ?_)

theorem coilFault_frame (n flag src ev : Nat) (s : State) :
    Only [.anvil, .time, .ctxs, .qf, .flt, .light, .bus, .pwr, .ces, .acc, .free] s (coilFault n flag src ev s) := by
  unfold coilFault; repeat' (first
      | with_reducible exact Only.refl _ _ | with_reducible refine (indEvent_frame _ _ _ _).after (by decide) ?_
      | with_reducible refine (raise_frame _ _ _).after (by decide) ?_ | with_reducible refine (onCoil_frame _ _ _).after (by decide) ?_
      | with_reducible refine (coilInterrupt_frame _ _).after (by decide) ?_)

theorem execCoilOpenCheck_frame (n i : Nat) (s : State) :
    Answers (execCoilOpenCheck n i s) (Only [.anvil, .time, .ctxs, .qf, .flt, .light, .bus, .pwr, .ces, .acc, .free] s) := by
  unfold execCoilOpenCheck; repeat' (first
      | with_reducible refine Answers.next ?_ | with_reducible exact Only.refl _ _ | with_reducible refine (advTo_frame _ _).after (by decide) ?_
      | with_reducible refine (coilFault_frame _ _ _ _ _).after (by decide) ?_ | with_reducible refine Answers.ite ?_ ?_ | with_reducible refine Only.ite ?_ ?_)

theorem closeTrend_frame (n t : Nat) (s : State) : Only [.anvil, .time, .ctxs, .qf, .flt, .light, .bus, .pwr, .ces, .acc, .free] s (closeTrend n t s) := by
  unfold closeTrend; repeat' (first
      | with_reducible exact Only.refl _ _ | with_reducible refine (onCoil_frame _ _ _).after (by decide) ?_
      | with_reducible refine (indEvent_frame _ _ _ _).after (by decide) ?_ | with_reducible refine (raise_frame _ _ _).after (by decide) ?_
      | with_reducible refine Only.ite ?_ ?_)

theorem coilEdge_frame (n : Nat) (only : Bool) (s : State) : Only [.anvil, .qf, .free] s (coilEdge n only s) := by
  unfold coilEdge; repeat' (first
      | with_reducible exact Only.refl _ _ | with_reducible refine (coilBegin_frame _ _ _).after (by decide) ?_
      | with_reducible refine (onChan_frame _ _ _).after (by decide) ?_ | with_reducible refine (coilOneShotEnd_frame _ _ _).after (by decide) ?_
      | with_reducible refine (coilRelease_frame _ _).after (by decide) ?_ | with_reducible refine (onCoil_frame _ _ _).after (by decide) ?_
      | with_reducible refine Only.ite ?_ ?_)

theorem adoptCoils_frame (s : State) : Only [.com] s (adoptCoils s) := by
  unfold adoptCoils; repeat' (first
      | with_reducible exact Only.refl _ _ | with_reducible refine (onCom_frame _ _).after (by decide) ?_ | with_reducible refine Only.ite ?_ ?_
      | with_reducible refine Only.foldl _ (fun s a => ?_) _ ?_)

theorem coilSync_frame (n : Nat) (s : State) : Only [.anvil] s (coilSync n s) := by
  unfold coilSync; with_reducible exact (onCoil_frame _ _ _).sub (by decide)

theorem coilFrame_frame (n u i cyc : Nat) (sat : Bool) (s : State) :
    Only [.anvil, .time, .ctxs, .qf, .flt, .light, .bus, .pwr, .ces, .acc, .free] s (coilFrame n u i cyc sat s) := by
  unfold coilFrame; repeat' (first
      | with_reducible exact Only.refl _ _ | with_reducible refine (coilSync_frame _ _).after (by decide) ?_
      | with_reducible refine (onCoil_frame _ _ _).after (by decide) ?_ | with_reducible refine (taTaken_frame _ _).after (by decide) ?_
      | with_reducible refine (raise_frame _ _ _).after (by decide) ?_ | with_reducible refine (coilFault_frame _ _ _ _ _).after (by decide) ?_
      | with_reducible refine (indEvent_frame _ _ _ _).after (by decide) ?_ | with_reducible refine (coilInterrupt_frame _ _).after (by decide) ?_
      | with_reducible refine (coilHot_frame _ _).after (by decide) ?_ | with_reducible refine Only.ite ?_ ?_)

theorem pullSat_frame (n : Nat) (s : State) : Only [.anvil, .time, .ctxs, .qf, .flt, .light, .bus, .pwr, .ces, .acc, .free] s (pullSat n s) := by
  unfold pullSat; repeat' (first
      | with_reducible exact Only.refl _ _ | with_reducible refine (raise_frame _ _ _).after (by decide) ?_
      | with_reducible refine (onCoil_frame _ _ _).after (by decide) ?_ | with_reducible refine Only.ite ?_ ?_)

theorem pullHeld_frame (n : Nat) (s : State) : Only [.anvil] s (pullHeld n s) := by
  unfold pullHeld; repeat' (first
      | with_reducible exact Only.refl _ _ | with_reducible refine (onCoil_frame _ _ _).after (by decide) ?_
      | with_reducible refine (coilRelease_frame _ _).after (by decide) ?_ | with_reducible refine Only.ite ?_ ?_)

theorem coilHold_frame (n : Nat) (s : State) : Only [.anvil] s (coilHold n s) := by
  unfold coilHold; with_reducible exact (onCoil_frame _ _ _).sub (by decide)

theorem execPullInEnd_frame (n : Nat) (s : State) : Answers (execPullInEnd n s) (Only [.anvil, .time, .ctxs, .qf, .flt, .light, .bus, .pwr, .ces, .acc, .free] s) := by
  unfold execPullInEnd; repeat' (first
      | with_reducible refine Answers.next ?_ | with_reducible exact Only.refl _ _ | with_reducible refine (coilSync_frame _ _).after (by decide) ?_
      | with_reducible refine (advTo_frame _ _).after (by decide) ?_ | with_reducible refine (onCoil_frame _ _ _).after (by decide) ?_
      | with_reducible refine (pullSat_frame _ _).after (by decide) ?_ | with_reducible refine (coilDone_frame _ _).after (by decide) ?_
      | with_reducible refine (pullHeld_frame _ _).after (by decide) ?_ | with_reducible refine (coilHold_frame _ _).after (by decide) ?_
      | with_reducible refine (raise_frame _ _ _).after (by decide) ?_ | with_reducible refine (indEvent_frame _ _ _ _).after (by decide) ?_
      | with_reducible refine Answers.ite ?_ ?_ | with_reducible refine Only.ite ?_ ?_)

theorem execIndReleaseEnd_frame (n : Nat) (s : State) : Answers (execIndReleaseEnd n s) (Only [.anvil, .qf] s) := by
  unfold execIndReleaseEnd; repeat' (first
      | with_reducible refine Answers.next ?_ | with_reducible exact Only.refl _ _ | with_reducible refine (indEvent_frame _ _ _ _).after (by decide) ?_
      | with_reducible refine (onChan_frame _ _ _).after (by decide) ?_ | with_reducible refine (onCoil_frame _ _ _).after (by decide) ?_
      | with_reducible refine Answers.ite ?_ ?_ | with_reducible refine Only.ite ?_ ?_)

theorem execClosingDetectionWindow_frame (n : Nat) (us is : List Nat) (sat : Bool) (s : State) :
    Answers (execClosingDetectionWindow n us is sat s) (Only [.anvil, .time, .ctxs, .qf, .flt, .light, .bus, .pwr, .ces, .acc, .free] s) := by
  unfold execClosingDetectionWindow; repeat' (first
      | with_reducible refine Answers.next ?_ | with_reducible exact Only.refl _ _ | with_reducible refine (coilSync_frame _ _).after (by decide) ?_
      | with_reducible refine (pullSat_frame _ _).after (by decide) ?_ | with_reducible refine (onCoil_frame _ _ _).after (by decide) ?_
      | with_reducible refine (coilFault_frame _ _ _ _ _).after (by decide) ?_ | with_reducible refine (closeTrend_frame _ _ _).after (by decide) ?_
      | with_reducible refine (indEvent_frame _ _ _ _).after (by decide) ?_ | with_reducible refine Answers.ite ?_ ?_ | with_reducible refine Only.ite ?_ ?_ | split)

theorem execIndIpReached_frame (n : Nat) (s : State) : Answers (execIndIpReached n s) (Only [.anvil] s) := by
  unfold execIndIpReached; repeat' (first
      | with_reducible refine Answers.next ?_ | with_reducible exact Only.refl _ _ | with_reducible refine (onCoil_frame _ _ _).after (by decide) ?_
      | with_reducible refine Answers.ite ?_ ?_ | with_reducible refine Only.ite ?_ ?_)
end Sys2Proof.Machine
end

