-- ==== Sys2Proof/Laws/Bridges.lean ====
section
/-! SUPPORT. What each operation of Machine/Bridges.lean leaves as it is: one law per operation, which names the parts of the state it may change. -/

namespace Sys2Proof.Machine

theorem brReport_frame (b d : Nat) (s : State) : Only [.anvil] s (brReport b d s) := by
  unfold brReport; with_reducible exact (onBridge_frame _ _ _).sub (by decide)

theorem finishStop_frame (b : Nat) (s : State) : Only [.anvil, .qf] s (finishStop b s) := by
  unfold finishStop; repeat' (first
      | with_reducible exact Only.refl _ _ | with_reducible refine (onBridge_frame _ _ _).after (by decide) ?_
      | with_reducible refine (brEvent_frame _ _ _).after (by decide) ?_ | with_reducible refine (brReport_frame _ _ _).after (by decide) ?_
      | with_reducible refine Only.ite ?_ ?_)

theorem onBridgeBoth_frame (n : Nat) (f : Bridge → Bridge) (s : State) : Only [.anvil, .rep] s (onBridgeBoth n f s) := by
  intro p hp; cases p <;> first | rfl | exact absurd (by decide) hp

theorem brClearSpec_frame (r : Req) (s : State) : Only [.anvil, .rep] s (brClearSpec.run r s).st := by
  unfold brClearSpec; with_reducible exact (onBridgeBoth_frame _ _ _).sub (by decide)

theorem brConfigSpec_frame (r : Req) (s : State) : Only [.com, .anvil, .rep] s (brConfigSpec.run r s).st := by
  unfold brConfigSpec; repeat' (first
      | with_reducible exact Only.refl _ _ | with_reducible refine (onBridgeBoth_frame _ _ _).after (by decide) ?_
      | with_reducible refine (onCom_frame _ _).after (by decide) ?_ | with_reducible refine Only.ite ?_ ?_)

theorem brSetSpec_frame (r : Req) (s : State) : Only [.com] s (brSetSpec.run r s).st := by
  unfold brSetSpec; with_reducible exact (onCom_frame _ _).sub (by decide)

theorem brStatusSpec_frame (r : Req) (s : State) : Only [] s (brStatusSpec.run r s).st := by
  exact Only.refl _ _

theorem brPosSetSpec_frame (r : Req) (s : State) : Only [.anvil, .rep] s (brPosSetSpec.run r s).st := by
  unfold brPosSetSpec; with_reducible exact (onBridgeBoth_frame _ _ _).sub (by decide)

theorem dirFollow_frame (n : Nat) (s : State) : Only [.anvil, .qf, .free] s (dirFollow n s) := by
  unfold dirFollow; repeat' (first
      | with_reducible exact Only.refl _ _ | with_reducible refine (onChan_frame _ _ _).after (by decide) ?_
      | with_reducible refine (pinOn_frame _ _ _).after (by decide) ?_)

theorem applyOn_frame (n : Nat) (v : ChVal) (vz : Option Nat) (only : Bool) (s : State) : Only [.anvil, .qf, .free] s (applyOn n v vz only s) := by
  unfold applyOn; repeat' (first
      | with_reducible exact Only.refl _ _ | with_reducible refine (flashClock_frame _).after (by decide) ?_
      | with_reducible refine (onChan_frame _ _ _).after (by decide) ?_ | with_reducible refine (dirFollow_frame _ _).after (by decide) ?_
      | with_reducible refine (lampTurnOn_frame _ _ _).after (by decide) ?_ | with_reducible refine (pinOn_frame _ _ _).after (by decide) ?_
      | with_reducible refine (pinOff_frame _ _ _).after (by decide) ?_ | with_reducible refine Only.ite ?_ ?_)

theorem onEdge_frame (n : Nat) (vz : Option Nat) (only : Bool) (s : State) : Only [.anvil, .qf, .free] s (onEdge n vz only s) := by
  unfold onEdge; repeat' (first
      | with_reducible exact Only.refl _ _ | with_reducible refine (onChan_frame _ _ _).after (by decide) ?_
      | with_reducible refine (lampTurnOn_frame _ _ _).after (by decide) ?_ | with_reducible refine (dirFollow_frame _ _).after (by decide) ?_
      | with_reducible refine (pinOn_frame _ _ _).after (by decide) ?_ | with_reducible refine (applyOn_frame _ _ _ _ _).after (by decide) ?_
      | with_reducible refine Only.ite ?_ ?_)

theorem drivePair_frame (b : Nat) (s : State) : Only [.anvil, .qf, .free] s (drivePair b s) := by
  unfold drivePair; repeat' (first
      | with_reducible exact Only.refl _ _ | with_reducible refine (resumeAt_frame _ _).after (by decide) ?_
      | with_reducible refine (onChan_frame _ _ _).after (by decide) ?_ | with_reducible refine (openInrush_frame _ _).after (by decide) ?_
      | with_reducible refine Only.ite ?_ ?_)

theorem setUncertain_frame (b : Nat) (s : State) : Only [.anvil, .time, .ctxs, .qf, .flt, .light, .bus, .pwr, .ces, .acc, .free] s (setUncertain b s) := by
  unfold setUncertain; repeat' (first
      | with_reducible exact Only.refl _ _ | with_reducible refine (brEvent_frame _ _ _).after (by decide) ?_
      | with_reducible refine (raise_frame _ _ _).after (by decide) ?_ | with_reducible refine (onBridge_frame _ _ _).after (by decide) ?_
      | with_reducible refine (rampTo_frame _ _ _).after (by decide) ?_ | with_reducible refine Only.ite ?_ ?_)

theorem brakeFor_frame (b ev : Nat) (s : State) : Only [.anvil, .qf] s (brakeFor b ev s) := by
  unfold brakeFor; repeat' (first
      | with_reducible exact Only.refl _ _ | with_reducible refine (onBridge_frame _ _ _).after (by decide) ?_
      | with_reducible refine (bridgeBrake_frame _ _).after (by decide) ?_ | with_reducible refine (finishStop_frame _ _).after (by decide) ?_
      | with_reducible refine Only.ite ?_ ?_)

theorem posCheck_frame (b : Nat) (s : State) : Only [.anvil, .qf] s (posCheck b s) := by
  unfold posCheck; repeat' (first
      | with_reducible exact Only.refl _ _ | with_reducible refine (brakeFor_frame _ _ _).after (by decide) ?_
      | with_reducible refine (brReport_frame _ _ _).after (by decide) ?_ | with_reducible refine (brEvent_frame _ _ _).after (by decide) ?_
      | with_reducible refine (onBridge_frame _ _ _).after (by decide) ?_ | with_reducible refine (bridgeBrake_frame _ _).after (by decide) ?_
      | with_reducible refine Only.ite ?_ ?_)

theorem movePos_frame (b : Nat) (d : Int) (s : State) : Only [.anvil, .time, .ctxs, .qf, .flt, .light, .bus, .pwr, .ces, .acc, .free] s (movePos b d s) := by
  unfold movePos; repeat' (first
      | with_reducible exact Only.refl _ _ | with_reducible refine (rampTo_frame _ _ _).after (by decide) ?_
      | with_reducible refine (onBridge_frame _ _ _).after (by decide) ?_ | with_reducible refine (setUncertain_frame _ _).after (by decide) ?_
      | with_reducible refine (posCheck_frame _ _).after (by decide) ?_ | with_reducible refine Only.ite ?_ ?_)

theorem execBridgeStall_frame (b : Nat) (s : State) :
    Answers (execBridgeStall b s) (Only [.anvil, .time, .ctxs, .qf, .flt, .light, .bus, .pwr, .ces, .acc, .free] s) := by
  unfold execBridgeStall; repeat' (first
      | with_reducible refine Answers.next ?_ | with_reducible exact Only.refl _ _ | with_reducible refine (advTo_frame _ _).after (by decide) ?_
      | with_reducible refine (onBridge_frame _ _ _).after (by decide) ?_ | with_reducible refine (bridgeBrake_frame _ _).after (by decide) ?_
      | with_reducible refine (brReport_frame _ _ _).after (by decide) ?_ | with_reducible refine (brEvent_frame _ _ _).after (by decide) ?_
      | with_reducible refine (raise_frame _ _ _).after (by decide) ?_ | with_reducible refine Answers.ite ?_ ?_
      | with_reducible refine Only.ite ?_ ?_ | split | dsimp only)

theorem execEncoderStep_frame (b : Nat) (x1 e : Bool) (s : State) :
    Answers (execEncoderStep b x1 e s) (Only [.anvil, .time, .ctxs, .qf, .flt, .light, .bus, .pwr, .ces, .acc, .free] s) := by
  unfold execEncoderStep; repeat' (first
      | with_reducible refine Answers.next ?_ | with_reducible exact Only.refl _ _ | with_reducible refine (onBridge_frame _ _ _).after (by decide) ?_
      | with_reducible refine (setUncertain_frame _ _).after (by decide) ?_ | with_reducible refine (movePos_frame _ _ _).after (by decide) ?_
      | with_reducible refine Answers.ite ?_ ?_ | with_reducible refine Only.ite ?_ ?_)

theorem startMotion_frame (b dir : Nat) (s : State) : Only [.anvil, .qf, .free] s (startMotion b dir s) := by
  unfold startMotion; repeat' (first
      | with_reducible exact Only.refl _ _ | with_reducible refine (onBridge_frame _ _ _).after (by decide) ?_
      | with_reducible refine (onChan_frame _ _ _).after (by decide) ?_ | with_reducible refine (drivePair_frame _ _).after (by decide) ?_
      | with_reducible refine Only.ite ?_ ?_)

theorem planMotion_frame (b : Nat) (w : BrVal) (s : State) : Only [.anvil, .qf, .free] s (planMotion b w s) := by
  unfold planMotion; repeat' (first
      | with_reducible exact Only.refl _ _ | with_reducible refine (rampTo_frame _ _ _).after (by decide) ?_
      | with_reducible refine (onBridge_frame _ _ _).after (by decide) ?_ | with_reducible refine (finishStop_frame _ _).after (by decide) ?_
      | with_reducible refine (brakeFor_frame _ _ _).after (by decide) ?_ | with_reducible refine (posCheck_frame _ _).after (by decide) ?_
      | with_reducible refine (startMotion_frame _ _ _).after (by decide) ?_ | with_reducible refine (drivePair_frame _ _).after (by decide) ?_
      | with_reducible refine Only.ite ?_ ?_)

theorem bridgeEdge_frame (b : Nat) (only : Bool) (s : State) : Only [.anvil, .qf, .free] s (bridgeEdge b only s) := by
  unfold bridgeEdge; repeat' (first
      | with_reducible exact Only.refl _ _ | with_reducible refine (posCheck_frame _ _).after (by decide) ?_
      | with_reducible refine (startMotion_frame _ _ _).after (by decide) ?_ | with_reducible refine (onBridge_frame _ _ _).after (by decide) ?_
      | with_reducible refine (planMotion_frame _ _ _).after (by decide) ?_ | with_reducible refine Only.ite ?_ ?_)

theorem execChannelStartEdge_frame (x0 : Nat) (x1 : Option Nat) (x2 : State) :
    Answers (execChannelStartEdge x0 x1 x2) (Only [.anvil, .time, .sched, .ctxs, .qf, .flt, .light, .bus, .pwr, .ces, .acc, .free] x2) := by
  have h (f : Chan → Chan) (t : Nat) : Only [.anvil, .time, .sched, .ctxs, .qf, .flt, .light, .bus, .pwr, .ces, .acc, .free] x2 (lampSettle x0 (onChan x0 f (atTickA t x2))) :=
    (lampSettle_frame _ _).after (by decide) ((onChan_frame _ _ _).after (by decide) ((atTickA_frame _ _).sub (by decide)))
  unfold execChannelStartEdge
  refine Answers.ite (Answers.next (Only.refl _ _)) (Answers.ite (Answers.next ((missEvent_frame _ _).after (by decide) ((onChan_frame _ _ _).sub (by decide)))) ?_)
  refine Answers.ite (Answers.next (h _ _)) (Answers.ite ?_ (Answers.ite ?_ (Answers.next ((onEdge_frame _ _ _ _).after (by decide) (h _ _)))))
  · exact Answers.ite (Answers.next (h _ _)) (Answers.ite (Answers.next (Only.ite ((coilSafeOn_frame _ _).after (by decide) (h _ _)) (h _ _)))
      (Answers.ite (Answers.next (h _ _)) (Answers.next ((coilEdge_frame _ _ _).after (by decide) (Only.ite (h _ _) ((onChan_frame _ _ _).after (by decide) (h _ _)))))))
  · exact Answers.ite (Answers.next (h _ _)) (Answers.next ((bridgeEdge_frame _ _ _).after (by decide) (h _ _)))

theorem adoptBridges_frame (s : State) : Only [.com, .anvil, .rep] s (adoptBridges s) := by
  unfold adoptBridges; repeat' (first
      | with_reducible exact Only.refl _ _ | with_reducible refine (onBridgeBoth_frame _ _ _).after (by decide) ?_
      | with_reducible refine (onCom_frame _ _).after (by decide) ?_ | with_reducible refine Only.foldl _ (fun s a => ?_) _ ?_ | split)

theorem rippleApply_frame (b : Nat) (s : State) : Only [.anvil, .time, .ctxs, .qf, .flt, .light, .bus, .pwr, .ces, .acc, .free] s (rippleApply b s) := by
  unfold rippleApply; repeat' (first
      | with_reducible exact Only.refl _ _ | with_reducible refine (rampTo_frame _ _ _).after (by decide) ?_
      | with_reducible refine (onBridge_frame _ _ _).after (by decide) ?_ | with_reducible refine (movePos_frame _ _ _).after (by decide) ?_
      | with_reducible refine (setUncertain_frame _ _).after (by decide) ?_ | with_reducible refine Only.ite ?_ ?_)

theorem pinchConfirmed_frame (b : Nat) (s : State) : Only [.anvil, .time, .ctxs, .qf, .flt, .light, .bus, .pwr, .ces, .acc, .free] s (pinchConfirmed b s) := by
  unfold pinchConfirmed; repeat' (first
      | with_reducible exact Only.refl _ _ | with_reducible refine (brakeFor_frame _ _ _).after (by decide) ?_
      | with_reducible refine (bridgeBrake_frame _ _).after (by decide) ?_ | with_reducible refine (onBridge_frame _ _ _).after (by decide) ?_
      | with_reducible refine (brEvent_frame _ _ _).after (by decide) ?_ | with_reducible refine (raise_frame _ _ _).after (by decide) ?_
      | with_reducible refine Only.ite ?_ ?_)

theorem bridgeFrame_frame (b i : Nat) (s : State) : Only [.anvil, .time, .ctxs, .qf, .flt, .light, .bus, .pwr, .ces, .acc, .free] s (bridgeFrame b i s) := by
  unfold bridgeFrame; repeat' (first
      | with_reducible exact Only.refl _ _ | with_reducible refine (bridgeLost_frame _ _).after (by decide) ?_
      | with_reducible refine (rampTo_frame _ _ _).after (by decide) ?_ | with_reducible refine (onBridge_frame _ _ _).after (by decide) ?_
      | with_reducible refine (pinchConfirmed_frame _ _).after (by decide) ?_ | with_reducible refine Only.ite ?_ ?_)

theorem execBridgeOpenPhase_frame (b : Nat) (s : State) :
    Answers (execBridgeOpenPhase b s) (Only [.anvil, .time, .ctxs, .qf, .flt, .light, .bus, .pwr, .ces, .acc, .free] s) := by
  unfold execBridgeOpenPhase; repeat' (first
      | with_reducible refine Answers.next ?_ | with_reducible exact Only.refl _ _ | with_reducible refine (advTo_frame _ _).after (by decide) ?_
      | with_reducible refine (onBridge_frame _ _ _).after (by decide) ?_ | with_reducible refine (bridgeLost_frame _ _).after (by decide) ?_
      | with_reducible refine (bridgeCoast_frame _ _).after (by decide) ?_ | with_reducible refine (brReport_frame _ _ _).after (by decide) ?_
      | with_reducible refine (brEvent_frame _ _ _).after (by decide) ?_ | with_reducible refine (raise_frame _ _ _).after (by decide) ?_ | split)

theorem execDwellEnd_frame (b : Nat) (s : State) : Answers (execDwellEnd b s) (Only [.anvil, .time, .qf] s) := by
  unfold execDwellEnd; repeat' (first
      | with_reducible refine Answers.next ?_ | with_reducible exact Only.refl _ _ | with_reducible refine (onBridge_frame _ _ _).after (by decide) ?_
      | with_reducible refine (advTo_frame _ _).after (by decide) ?_ | split)

theorem execBridgeStandstill_frame (b : Nat) (s : State) : Answers (execBridgeStandstill b s) (Only [.anvil, .time, .qf] s) := by
  unfold execBridgeStandstill; repeat' (first
      | with_reducible refine Answers.next ?_ | with_reducible exact Only.refl _ _ | with_reducible refine (rampTo_frame _ _ _).after (by decide) ?_
      | with_reducible refine (advTo_frame _ _).after (by decide) ?_ | with_reducible refine (onBridge_frame _ _ _).after (by decide) ?_
      | with_reducible refine (onChan_frame _ _ _).after (by decide) ?_ | with_reducible refine (finishStop_frame _ _).after (by decide) ?_
      | with_reducible refine Answers.ite ?_ ?_ | with_reducible refine Only.ite ?_ ?_ | with_reducible refine Only.foldl _ (fun s a => ?_) _ ?_)
end Sys2Proof.Machine
end

