-- ==== Sys2Proof/Laws/Lighting.lean ====
section
/-! SUPPORT. What each operation of Machine/Lighting.lean leaves as it is: one law per operation, which names the parts of the state it may change. -/

namespace Sys2Proof.Machine

theorem lsConfigSpec_frame (r : Req) (s : State) : Only [.roles, .com] s (lsConfigSpec.run r s).st := by
  unfold lsConfigSpec; repeat' (first
      | with_reducible exact Only.refl _ _ | with_reducible refine (reassign_frame _ _ _).after (by decide) ?_
      | with_reducible refine (onCom_frame _ _).after (by decide) ?_ | with_reducible refine Only.ite ?_ ?_)

theorem sinkCommanded_frame (n : Nat) (s : State) : Only [.anvil] s (sinkCommanded n s) := by
  unfold sinkCommanded; repeat' (first
      | with_reducible exact Only.refl _ _ | with_reducible refine (onSink_frame _ _ _).after (by decide) ?_ | with_reducible refine Only.ite ?_ ?_)

theorem lsSetSpec_frame (r : Req) (s : State) : Only [.com, .anvil, .light] s (lsSetSpec.run r s).st := by
  unfold lsSetSpec; repeat' (first
      | with_reducible exact Only.refl _ _ | with_reducible refine (lightDirect_frame _ _ _ _ _).after (by decide) ?_
      | with_reducible refine (onCom_frame _ _).after (by decide) ?_ | with_reducible refine (sinkCommanded_frame _ _).after (by decide) ?_)

theorem lsStatusSpec_frame (r : Req) (s : State) : Only [] s (lsStatusSpec.run r s).st := by
  exact Only.refl _ _

theorem lsClearSpec_frame (r : Req) (s : State) : Only [.anvil, .rep] s (lsClearSpec.run r s).st := by
  unfold lsClearSpec; repeat' (first | with_reducible exact Only.refl _ _ | with_reducible refine (onSink_frame _ _ _).after (by decide) ?_ | (refine Only.upd (Only.refl _ s) ?_; intro p hp; cases p <;> first | exact absurd (by decide) hp | (dsimp only [Part.same]; done); done))

theorem lightConfigSpec_frame (r : Req) (s : State) : Only [.com] s (lightConfigSpec.run r s).st := by
  unfold lightConfigSpec; with_reducible exact (onCom_frame _ _).sub (by decide)

theorem lightStageSpec_frame (r : Req) (s : State) : Only [.light] s (lightStageSpec.run r s).st := by
  unfold lightStageSpec; with_reducible exact (onLight_frame _ _).sub (by decide)

theorem lightDiscardSpec_frame (r : Req) (s : State) : Only [.light] s (lightDiscardSpec.run r s).st := by
  unfold lightDiscardSpec; with_reducible exact (onLight_frame _ _).sub (by decide)

theorem sendExt_frame (x0 : Nat) (x1 : List Rec) (x2 : State) : Only [.qf, .bus] x2 (sendExt x0 x1 x2).1 := by
  unfold sendExt
  suffices h : ∀ (l : List (Rec × Nat)) (a : State × List Nat), Only [.qf, .bus] x2 a.1 → Only [.qf, .bus] x2 (l.foldl (fun a e =>
      match leKind e.1 with
      | 3 =>
        let r := admitCells (lightQ (lePort e.1)) (canEntry (bit (rd e.1 3 1) 0) false (leGen e.1) (lightTag x0 e.2) (sub e.1 8 (leLen e.1))) a.1
        (r.1, a.2 ++ [if r.2.2 then 2 else 0])
      | 4 =>
        (onLin (lePort e.1) (fun p => { p with ext := p.ext.filter (fun x => x.1 ≠ rd e.1 3 1) ++ [(rd e.1 3 1, x0, e.2, sub e.1 8 (leLen e.1))] }) a.1, a.2 ++ [0])
      | _ => (a.1, a.2 ++ [9])) a).1 from h _ _ (Only.refl _ _)
  intro l
  induction l with
  | nil => exact fun _ h => h
  | cons e l ih =>
    intro a h
    rw [List.foldl_cons]
    refine ih _ ?_
    dsimp only
    split
    · exact (admitCells_frame _ _ _).after (by decide) h
    · exact (onLin_frame _ _ _).after (by decide) h
    · exact h

theorem lightCommitSpec_frame (r : Req) (s : State) : Only [.qf, .light, .bus] s (lightCommitSpec.run r s).st := by
  unfold lightCommitSpec; repeat' (first
      | with_reducible exact Only.refl _ _ | with_reducible refine (sendExt_frame _ _ _).after (by decide) ?_
      | with_reducible refine (onLight_frame _ _).after (by decide) ?_)

theorem lightStatusSpec_frame (r : Req) (s : State) : Only [] s (lightStatusSpec.run r s).st := by
  exact Only.refl _ _

theorem sinkOrphan_frame (n : Nat) (s : State) : Only [.anvil] s (sinkOrphan n s) := by
  unfold sinkOrphan; with_reducible exact (onSink_frame _ _ _).sub (by decide)

theorem sinkTake_frame (n v : Nat) (s : State) : Only [.anvil] s (sinkTake n v s) := by
  unfold sinkTake; with_reducible exact (onSink_frame _ _ _).sub (by decide)

theorem sinkFrameStart_frame (n : Nat) (s : State) : Only [.anvil] s (sinkFrameStart n s) := by
  unfold sinkFrameStart; repeat' (first
      | with_reducible exact Only.refl _ _ | with_reducible refine (onSink_frame _ _ _).after (by decide) ?_
      | with_reducible refine (sinkTake_frame _ _ _).after (by decide) ?_ | with_reducible refine Only.ite ?_ ?_)

theorem execSinkHoldExpiry_frame (n : Nat) (s : State) : Answers (execSinkHoldExpiry n s) (Only [.anvil, .time, .qf] s) := by
  unfold execSinkHoldExpiry; repeat' (first
      | with_reducible refine Answers.next ?_ | with_reducible exact Only.refl _ _ | with_reducible refine (onSink_frame _ _ _).after (by decide) ?_
      | with_reducible refine (advTo_frame _ _).after (by decide) ?_ | split)

theorem execLedPulsePeriodStart_frame (n : Nat) (s : State) : Answers (execLedPulsePeriodStart n s) (Only [.anvil, .time, .qf] s) := by
  unfold execLedPulsePeriodStart; repeat' (first
      | with_reducible refine Answers.next ?_ | with_reducible exact Only.refl _ _ | with_reducible refine (advTo_frame _ _).after (by decide) ?_
      | with_reducible refine (onSink_frame _ _ _).after (by decide) ?_ | with_reducible refine Answers.ite ?_ ?_ | with_reducible refine Only.ite ?_ ?_)

theorem withdrawExt_frame (p tag : Nat) (s : State) : Only [.qf] s (withdrawExt p tag s) := by
  unfold withdrawExt; repeat' (first
      | with_reducible exact Only.refl _ _ | with_reducible refine (onQueue_frame _ _ _).after (by decide) ?_ | with_reducible refine Only.ite ?_ ?_)

theorem lightDiscard_frame (c : Nat) (s : State) : Only [.qf, .light, .bus] s (lightDiscard c s) := by
  unfold lightDiscard; repeat' (first
      | with_reducible exact Only.refl _ _ | with_reducible refine (withdrawExt_frame _ _ _).after (by decide) ?_
      | with_reducible refine (onLin_frame _ _ _).after (by decide) ?_ | with_reducible refine (onLight_frame _ _).after (by decide) ?_
      | with_reducible refine Only.foldl _ (fun s a => ?_) _ ?_ | split)

theorem adoptSinks_frame (s : State) : Only [.com, .anvil, .rep] s (adoptSinks s) := by
  unfold adoptSinks; repeat' (first | with_reducible exact Only.refl _ _ | with_reducible refine (onCom_frame _ _).after (by decide) ?_ | with_reducible refine (onSink_frame _ _ _).after (by decide) ?_ | with_reducible refine Only.ite ?_ ?_ | with_reducible refine Only.foldl _ (fun s a => ?_) _ ?_ | (refine Only.upd (Only.refl _ s) ?_; intro p hp; cases p <;> first | exact absurd (by decide) hp | (dsimp only [Part.same]; done); done))

theorem landEntry_frame (c : Nat) (x : State × LightCommit) (e : (Rec × Nat) × Nat) : Only [.com, .anvil, .qf] x.1 (landEntry c x e).1 := by
  unfold landEntry
  dsimp only
  split
  · split
    · exact Only.refl _ _
    · exact (sinkCommanded_frame _ _).after (by decide) ((onCom_frame _ _).sub (by decide))
  · split
    · exact Only.refl _ _
    · exact (onCom_frame _ _).sub (by decide)
  · split
    · exact (withdrawExt_frame _ _ _).sub (by decide)
    · exact Only.refl _ _
  · exact Only.refl _ _

theorem landEntries_frame (c : Nat) (l : List ((Rec × Nat) × Nat)) (x : State × LightCommit) : Only [.com, .anvil, .qf] x.1 (l.foldl (landEntry c) x).1 := by
  induction l generalizing x with
  | nil => exact Only.refl _ _
  | cons e l ih => exact (landEntry_frame c x e).trans (ih _)

theorem lightLand_frame (x0 : State) : Only [.com, .anvil, .qf, .light] x0 (lightLand x0) := by
  unfold lightLand
  refine Only.foldl _ (fun s a => ?_) _ (Only.refl _ _)
  split
  · exact Only.refl _ _
  · split
    · exact (onLight_frame _ _).after (by decide) ((landEntries_frame _ _ _).sub (by decide))
    · exact Only.refl _ _

theorem execLightSync_frame (x0 : State) : Answers (execLightSync x0) (Only [.anvil, .time, .qf, .light] x0) := by
  unfold execLightSync
  dsimp only
  split
  · refine Answers.next ?_
    refine Only.foldl _ (fun s a => ?_) _ ?_
    · split
      · exact Only.refl _ _
      · exact (completion_frame _ _ _ _ _ _ _).after (by decide) ((onLight_frame _ _).sub (by decide))
    refine Only.foldl _ (fun s a => ?_) _ ?_
    · split
      · exact (admitEntry_frame _ _ _).sub (by decide)
      · exact Only.refl _ _
    refine (onLight_frame _ _).after (by decide) ((onAnvil_frame _ _).after (by decide) ?_)
    refine Only.foldl _ (fun s a => ?_) _ ?_
    · split
      · exact Only.refl _ _
      · exact (sinkTake_frame _ _ _).sub (by decide)
    exact (atTick_frame _ _).sub (by decide)
  · exact Answers.next (Only.refl _ _)

theorem sinkLatch_frame (n i src : Nat) (s : State) : Only [.anvil, .time, .ctxs, .qf, .flt, .light, .bus, .pwr, .ces, .acc, .free] s (sinkLatch n i src s) := by
  unfold sinkLatch; repeat' (first
      | with_reducible exact Only.refl _ _ | with_reducible refine (raise_frame _ _ _).after (by decide) ?_
      | with_reducible refine (onSink_frame _ _ _).after (by decide) ?_ | with_reducible refine (notify_frame _ _ _ _).after (by decide) ?_
      | with_reducible refine Only.ite ?_ ?_)

theorem sinkMonitor_frame (n i v : Nat) (q : Bool) (s : State) :
    Only [.anvil, .time, .ctxs, .qf, .flt, .light, .bus, .pwr, .ces, .acc, .free] s (sinkMonitor n i v q s) := by
  unfold sinkMonitor; repeat' (first
      | with_reducible exact Only.refl _ _ | with_reducible refine (onSink_frame _ _ _).after (by decide) ?_
      | with_reducible refine (raise_frame _ _ _).after (by decide) ?_ | with_reducible refine (sinkLatch_frame _ _ _ _).after (by decide) ?_
      | with_reducible refine Only.ite ?_ ?_)
end Sys2Proof.Machine
end

