-- ==== Sys2Proof/Laws/Can.lean ====
section
/-! SUPPORT. What each operation of Machine/Can.lean leaves as it is: one law per operation, which names the parts of the state it may change. -/

namespace Sys2Proof.Machine

theorem canConfigSpec_frame (r : Req) (s : State) : Only [.roles, .bus] s (canConfigSpec.run r s).st := by
  unfold canConfigSpec; repeat' (first
      | with_reducible exact Only.refl _ _ | with_reducible refine (reassign_frame _ _ _).after (by decide) ?_
      | with_reducible refine (onCan_frame _ _ _).after (by decide) ?_ | with_reducible refine Only.ite ?_ ?_)

theorem canWakeConfigSpec_frame (r : Req) (s : State) : Only [.bus] s (canWakeConfigSpec.run r s).st := by
  unfold canWakeConfigSpec; with_reducible exact (onCan_frame _ _ _).sub (by decide)

theorem canFiltWriteSpec_frame (r : Req) (s : State) : Only [.bus] s (canFiltWriteSpec.run r s).st := by
  unfold canFiltWriteSpec; with_reducible exact (onBus_frame _ _).sub (by decide)

theorem canFiltApplySpec_frame (r : Req) (s : State) : Only [.bus] s (canFiltApplySpec.run r s).st := by
  unfold canFiltApplySpec; with_reducible exact (onBus_frame _ _).sub (by decide)

theorem canControlSpec_frame (r : Req) (s : State) : Only [.bus] s (canControlSpec.run r s).st := by
  unfold canControlSpec; with_reducible exact (onCan_frame _ _ _).sub (by decide)

theorem canStatusSpec_frame (r : Req) (s : State) : Only [] s (canStatusSpec.run r s).st := by
  exact Only.refl _ _

theorem canStateNote_frame (p : Nat) (s : State) : Only [.qf] s (canStateNote p s) := by
  unfold canStateNote; with_reducible exact (notify_frame _ _ _ _).sub (by decide)

theorem canCount_frame (p : Nat) (f : CanPort → CanPort) (s : State) :
    Only [.anvil, .time, .ctxs, .qf, .flt, .light, .bus, .pwr, .ces, .acc, .free] s (canCount p f s) := by
  unfold canCount; repeat' (first
      | with_reducible exact Only.refl _ _ | with_reducible refine (onCan_frame _ _ _).after (by decide) ?_
      | with_reducible refine (canStateNote_frame _ _).after (by decide) ?_ | with_reducible refine (raise_frame _ _ _).after (by decide) ?_
      | with_reducible refine Only.ite ?_ ?_)

theorem canPlace_frame (p w d : Nat) (data : Rec) (s : State) :
    Only [.anvil, .time, .ctxs, .qf, .flt, .light, .bus, .pwr, .ces, .acc, .free] s (canPlace p w d data s) := by
  unfold canPlace; repeat' (first
      | with_reducible exact Only.refl _ _ | with_reducible refine (useFree_frame _).after (by decide) ?_
      | with_reducible refine (canCount_frame _ _ _).after (by decide) ?_ | with_reducible refine (onCan_frame _ _ _).after (by decide) ?_
      | with_reducible refine (admitCells_frame _ _ _).after (by decide) ?_ | with_reducible refine Only.ite ?_ ?_ | split | dsimp only)

theorem canComplete_frame (p i status n : Nat) (e : Rec) (s : State) : Only [.qf, .light, .bus] s (canComplete p i status n e s) := by
  unfold canComplete; repeat' (first
      | with_reducible exact Only.refl _ _ | with_reducible refine (onQueue_frame _ _ _).after (by decide) ?_
      | with_reducible refine (onCan_frame _ _ _).after (by decide) ?_ | with_reducible refine (extDone_frame _ _ _ _).after (by decide) ?_
      | with_reducible refine (admitEntry_frame _ _ _).after (by decide) ?_ | with_reducible refine Only.ite ?_ ?_)

theorem canFlushQ_frame (x0 x1 x2 : Nat) (x3 : State) : Only [.qf, .light, .bus] x3 (canFlushQ x0 x1 x2 x3) := by
  induction x2 generalizing x3 with
  | zero => exact Only.refl _ _
  | succ f ih =>
    unfold canFlushQ
    dsimp only
    repeat' (first | with_reducible exact Only.refl _ _ | (with_reducible refine Only.trans ?_ (ih _)) | with_reducible exact (onQueue_frame _ _ _).sub (by decide) | with_reducible exact (canComplete_frame _ _ _ _ _ _).sub (by decide) | split)

theorem canFlush_frame (p : Nat) (s : State) : Only [.qf, .light, .bus] s (canFlush p s) := by
  unfold canFlush; repeat' (first
      | with_reducible exact Only.refl _ _ | with_reducible refine (onQueue_frame _ _ _).after (by decide) ?_
      | with_reducible refine (canFlushQ_frame _ _ _ _).after (by decide) ?_ | with_reducible refine Only.foldl _ (fun s a => ?_) _ ?_)

theorem canWake_frame (p typ id : Nat) (s : State) : Only [.qf, .bus, .pwr] s (canWake p typ id s) := by
  unfold canWake; repeat' (first
      | with_reducible exact Only.refl _ _ | with_reducible refine (onCan_frame _ _ _).after (by decide) ?_
      | with_reducible refine (deviceWake_frame _ _ _ _ _ _).after (by decide) ?_ | with_reducible refine (notify_frame _ _ _ _).after (by decide) ?_
      | with_reducible refine Only.ite ?_ ?_)

theorem execCanWakeFrame_frame (p w dlc : Nat) (data : Rec) (bad : Bool) (s : State) :
    Answers (execCanWakeFrame p w dlc data bad s) (Only [.anvil, .time, .ctxs, .qf, .flt, .light, .bus, .pwr, .ces, .acc, .free] s) := by
  unfold execCanWakeFrame; repeat' (first
      | with_reducible refine Answers.next ?_ | with_reducible exact Only.refl _ _ | with_reducible refine (canWake_frame _ _ _ _).after (by decide) ?_
      | with_reducible refine (raise_frame _ _ _).after (by decide) ?_ | with_reducible refine (onCan_frame _ _ _).after (by decide) ?_
      | with_reducible refine Answers.ite ?_ ?_ | with_reducible refine Only.ite ?_ ?_)

theorem canStop_frame (p : Nat) (s : State) : Only [.bus] s (canStop p s) := by
  unfold canStop; with_reducible exact (onCan_frame _ _ _).sub (by decide)

theorem canSleep_frame (p : Nat) (s : State) : Only [.bus] s (canSleep p s) := by
  unfold canSleep; with_reducible exact (onCan_frame _ _ _).sub (by decide)

theorem canAfter_frame (p : Nat) (s : State) : Only [.bus] s (canAfter p s) := by
  unfold canAfter; repeat' (first
      | with_reducible exact Only.refl _ _ | with_reducible refine (canStop_frame _ _).after (by decide) ?_
      | with_reducible refine (canSleep_frame _ _).after (by decide) ?_ | split)

theorem canSuspend_frame (lost : Bool) (s : State) : Only [.bus] s (canSuspend lost s) := by
  unfold canSuspend; repeat' (first
      | with_reducible exact Only.refl _ _ | with_reducible refine (onCan_frame _ _ _).after (by decide) ?_
      | with_reducible refine (canAfter_frame _ _).after (by decide) ?_ | with_reducible refine Only.ite ?_ ?_
      | with_reducible refine Only.foldl _ (fun s a => ?_) _ ?_)

theorem canStart_frame (s : State) : Only [.qf, .bus] s (canStart s) := by
  unfold canStart; repeat' (first
      | with_reducible exact Only.refl _ _ | with_reducible refine (onCan_frame _ _ _).after (by decide) ?_
      | with_reducible refine (notify_frame _ _ _ _).after (by decide) ?_ | with_reducible refine Only.ite ?_ ?_
      | with_reducible refine Only.foldl _ (fun s a => ?_) _ ?_)

theorem canAct_frame (p x1 : Nat) (s : State) : Only [.qf, .light, .bus, .pwr] s (canAct p x1 s) := by
  unfold canAct; repeat' (first
      | with_reducible exact Only.refl _ _ | with_reducible refine (onCan_frame _ _ _).after (by decide) ?_
      | with_reducible refine (canStop_frame _ _).after (by decide) ?_ | with_reducible refine (canSleep_frame _ _).after (by decide) ?_
      | with_reducible refine (canWake_frame _ _ _ _).after (by decide) ?_ | with_reducible refine (canFlush_frame _ _).after (by decide) ?_ | split)

theorem canClean_frame (x0 x1 x2 : Nat) (x3 : State) : Only [.qf, .light, .bus] x3 (canClean x0 x1 x2 x3) := by
  induction x2 generalizing x3 with
  | zero => exact Only.refl _ _
  | succ f ih =>
    unfold canClean
    dsimp only
    repeat' (first | with_reducible exact Only.refl _ _ | (with_reducible refine Only.trans ?_ (ih _)) | with_reducible exact (onQueue_frame _ _ _).sub (by decide) | with_reducible exact (canComplete_frame _ _ _ _ _ _).sub (by decide) | split)

theorem canCleanAll_frame (p : Nat) (s : State) : Only [.qf, .light, .bus] s (canCleanAll p s) := by
  unfold canCleanAll; repeat' (first
      | with_reducible exact Only.refl _ _ | with_reducible refine (canClean_frame _ _ _ _).after (by decide) ?_ | with_reducible refine Only.ite ?_ ?_
      | with_reducible refine Only.foldl _ (fun s a => ?_) _ ?_)

theorem canFrameStart_frame (s : State) : Only [.qf, .light, .bus, .pwr] s (canFrameStart s) := by
  unfold canFrameStart; repeat' (first
      | with_reducible exact Only.refl _ _ | with_reducible refine (onBus_frame _ _).after (by decide) ?_
      | with_reducible refine (canAct_frame _ _ _).after (by decide) ?_ | with_reducible refine (onCan_frame _ _ _).after (by decide) ?_
      | with_reducible refine (canCleanAll_frame _ _).after (by decide) ?_ | with_reducible refine Only.ite ?_ ?_
      | with_reducible refine Only.foldl _ (fun s a => ?_) _ ?_ | split)

theorem execCanWakePattern_frame (p : Nat) (s : State) : Answers (execCanWakePattern p s) (Only [.qf, .bus, .pwr] s) := by
  unfold execCanWakePattern; repeat' (first
      | with_reducible refine Answers.next ?_ | with_reducible exact Only.refl _ _ | with_reducible refine (canWake_frame _ _ _ _).after (by decide) ?_
      | with_reducible refine Answers.ite ?_ ?_ | with_reducible refine Only.ite ?_ ?_)

theorem canPark_frame (s : State) : Only [.bus] s (canPark s) := by
  unfold canPark; repeat' (first
      | with_reducible exact Only.refl _ _ | with_reducible refine (onCan_frame _ _ _).after (by decide) ?_
      | with_reducible refine Only.foldl _ (fun s a => ?_) _ ?_)

theorem execCanBusError_frame (p : Nat) (tx big : Bool) (s : State) :
    Answers (execCanBusError p tx big s) (Only [.anvil, .time, .ctxs, .qf, .flt, .light, .bus, .pwr, .ces, .acc, .free] s) := by
  unfold execCanBusError; repeat' (first
      | with_reducible refine Answers.next ?_ | with_reducible exact Only.refl _ _ | with_reducible refine (canAfter_frame _ _).after (by decide) ?_
      | with_reducible refine (canCount_frame _ _ _).after (by decide) ?_ | with_reducible refine Answers.ite ?_ ?_ | with_reducible refine Only.ite ?_ ?_)

theorem execCanTxdDom_frame (p : Nat) (s : State) : Answers (execCanTxdDom p s) (Only [.anvil, .time, .ctxs, .qf, .flt, .light, .bus, .pwr, .ces, .acc, .free] s) := by
  unfold execCanTxdDom; repeat' (first
      | with_reducible refine Answers.next ?_ | with_reducible exact Only.refl _ _ | with_reducible refine (raise_frame _ _ _).after (by decide) ?_
      | with_reducible refine (onCan_frame _ _ _).after (by decide) ?_ | with_reducible refine Answers.ite ?_ ?_ | with_reducible refine Only.ite ?_ ?_)

theorem execCanIntegrationDone_frame (p : Nat) (s : State) : Answers (execCanIntegrationDone p s) (Only [.bus] s) := by
  unfold execCanIntegrationDone; repeat' (first
      | with_reducible refine Answers.next ?_ | with_reducible exact Only.refl _ _ | with_reducible refine (onCan_frame _ _ _).after (by decide) ?_
      | with_reducible refine Answers.ite ?_ ?_ | with_reducible refine Only.ite ?_ ?_)

theorem execCanBusDom_frame (p : Nat) (s : State) : Answers (execCanBusDom p s) (Only [.anvil, .time, .ctxs, .qf, .flt, .light, .bus, .pwr, .ces, .acc, .free] s) := by
  unfold execCanBusDom; repeat' (first
      | with_reducible refine Answers.next ?_ | with_reducible exact Only.refl _ _ | with_reducible refine (raise_frame _ _ _).after (by decide) ?_
      | with_reducible refine (onCan_frame _ _ _).after (by decide) ?_ | with_reducible refine Answers.ite ?_ ?_ | with_reducible refine Only.ite ?_ ?_)

theorem execCanTxdReenable_frame (p : Nat) (s : State) : Answers (execCanTxdReenable p s) (Only [.bus] s) := by
  unfold execCanTxdReenable; repeat' (first
      | with_reducible refine Answers.next ?_ | with_reducible exact Only.refl _ _ | with_reducible refine (onCan_frame _ _ _).after (by decide) ?_
      | with_reducible refine Answers.ite ?_ ?_ | with_reducible refine Only.ite ?_ ?_)

theorem canReceive_frame (p w d : Nat) (data : Rec) (s : State) :
    Only [.anvil, .time, .ctxs, .qf, .flt, .light, .bus, .pwr, .ces, .acc, .free] s (canReceive p w d data s) := by
  unfold canReceive; repeat' (first
      | with_reducible exact Only.refl _ _ | with_reducible refine (canAfter_frame _ _).after (by decide) ?_
      | with_reducible refine (canPlace_frame _ _ _ _ _).after (by decide) ?_)

theorem execCanBusoffRecovery_frame (p : Nat) (s : State) : Answers (execCanBusoffRecovery p s) (Only [.qf, .bus] s) := by
  unfold execCanBusoffRecovery; repeat' (first
      | with_reducible refine Answers.next ?_ | with_reducible exact Only.refl _ _ | with_reducible refine (canStateNote_frame _ _).after (by decide) ?_
      | with_reducible refine (onCan_frame _ _ _).after (by decide) ?_ | with_reducible refine Answers.ite ?_ ?_ | with_reducible refine Only.ite ?_ ?_)

theorem execCanTxAttemptEnd_frame (p i err : Nat) (loop : Option Nat) (s : State) :
    Answers (execCanTxAttemptEnd p i err loop s) (Only [.anvil, .time, .ctxs, .qf, .flt, .light, .bus, .pwr, .ces, .acc, .free] s) := by
  unfold execCanTxAttemptEnd; repeat' (first
      | with_reducible refine Answers.next ?_ | with_reducible exact Only.refl _ _ | with_reducible refine (canClean_frame _ _ _ _).after (by decide) ?_
      | with_reducible refine (onCan_frame _ _ _).after (by decide) ?_ | with_reducible refine (canAfter_frame _ _).after (by decide) ?_
      | with_reducible refine (canComplete_frame _ _ _ _ _ _).after (by decide) ?_ | with_reducible refine (canCount_frame _ _ _).after (by decide) ?_
      | with_reducible refine Answers.ite ?_ ?_ | with_reducible refine Only.ite ?_ ?_ | split | dsimp only)
end Sys2Proof.Machine
end

