-- ==== Sys2Proof/Laws/Lin.lean ====
section
/-! SUPPORT. What each operation of Machine/Lin.lean leaves as it is: one law per operation, which names the parts of the state it may change. -/

namespace Sys2Proof.Machine

theorem linConfigSpec_frame (r : Req) (s : State) : Only [.roles, .bus] s (linConfigSpec.run r s).st := by
  unfold linConfigSpec; repeat' (first
      | with_reducible exact Only.refl _ _ | with_reducible refine (reassign_frame _ _ _).after (by decide) ?_
      | with_reducible refine (onLin_frame _ _ _).after (by decide) ?_ | with_reducible refine Only.ite ?_ ?_)

theorem linSetSpec_frame (r : Req) (s : State) : Only [.bus] s (linSetSpec.run r s).st := by
  unfold linSetSpec; with_reducible exact (onLin_frame _ _ _).sub (by decide)

theorem linControlSpec_frame (r : Req) (s : State) : Only [.bus] s (linControlSpec.run r s).st := by
  unfold linControlSpec; with_reducible exact (onLin_frame _ _ _).sub (by decide)

theorem linStatusSpec_frame (r : Req) (s : State) : Only [] s (linStatusSpec.run r s).st := by
  exact Only.refl _ _

theorem onGw_frame (q : Nat) (f : Gw → Gw) (s : State) : Only [.bus] s (onGw q f s) := by
  intro p hp; cases p <;> first | rfl | exact absurd (by decide) hp

theorem gwBindSpec_frame (r : Req) (s : State) : Only [.bus] s (gwBindSpec.run r s).st := by
  unfold gwBindSpec; repeat' (first
      | with_reducible exact Only.refl _ _ | with_reducible refine (onGw_frame _ _ _).after (by decide) ?_ | with_reducible refine Only.ite ?_ ?_)

theorem gwStatusSpec_frame (r : Req) (s : State) : Only [] s (gwStatusSpec.run r s).st := by
  exact Only.refl _ _

theorem linFinish_frame (n res : Nat) (data : Rec) (f : LinFrame) (s : State) :
    Only [.anvil, .time, .ctxs, .qf, .flt, .light, .bus, .pwr, .ces, .acc, .free] s (linFinish n res data f s) := by
  unfold linFinish; repeat' (first
      | with_reducible exact Only.refl _ _ | with_reducible refine (onLin_frame _ _ _).after (by decide) ?_
      | with_reducible refine (admitEntry_frame _ _ _).after (by decide) ?_ | with_reducible refine (linCellDone_frame _ _ _ _).after (by decide) ?_
      | with_reducible refine (extDone_frame _ _ _ _).after (by decide) ?_ | with_reducible refine (raise_frame _ _ _).after (by decide) ?_
      | with_reducible refine (linState_frame _ _ _).after (by decide) ?_ | split)

theorem linOver_frame (slack n : Nat) (s : State) : Only [.anvil, .time, .ctxs, .qf, .flt, .light, .bus, .pwr, .ces, .acc, .free] s (linOver slack n s) := by
  unfold linOver; repeat' (first | with_reducible exact Only.refl _ _ | with_reducible refine (linFinish_frame _ _ _ _ _).after (by decide) ?_ | split)

theorem linWake_frame (n typ : Nat) (s : State) : Only [.qf, .bus, .pwr] s (linWake n typ s) := by
  unfold linWake; repeat' (first
      | with_reducible exact Only.refl _ _ | with_reducible refine (onLin_frame _ _ _).after (by decide) ?_
      | with_reducible refine (deviceWake_frame _ _ _ _ _ _).after (by decide) ?_ | with_reducible refine (linState_frame _ _ _).after (by decide) ?_
      | with_reducible refine (notify_frame _ _ _ _).after (by decide) ?_ | with_reducible refine Only.ite ?_ ?_)

theorem linAct_frame (n x1 : Nat) (s : State) : Only [.ctxs, .qf, .light, .bus, .pwr] s (linAct n x1 s) := by
  unfold linAct; repeat' (first
      | with_reducible exact Only.refl _ _ | with_reducible refine (linEnter_frame _ _).after (by decide) ?_
      | with_reducible refine (onLin_frame _ _ _).after (by decide) ?_ | with_reducible refine (linState_frame _ _ _).after (by decide) ?_
      | with_reducible refine (linAbandon_frame _ _).after (by decide) ?_ | with_reducible refine (linWake_frame _ _ _).after (by decide) ?_
      | with_reducible refine Only.ite ?_ ?_ | split | dsimp only)

theorem linFrameStart_frame (s : State) : Only [.anvil, .time, .ctxs, .qf, .flt, .light, .bus, .pwr, .ces, .acc, .free] s (linFrameStart s) := by
  unfold linFrameStart; repeat' (first
      | with_reducible exact Only.refl _ _ | with_reducible refine (linOver_frame _ _ _).after (by decide) ?_
      | with_reducible refine (linAct_frame _ _ _).after (by decide) ?_ | with_reducible refine (onLin_frame _ _ _).after (by decide) ?_
      | with_reducible refine Only.foldl _ (fun s a => ?_) _ ?_)

theorem linSuspend_frame (lost : Bool) (s : State) : Only [.ctxs, .qf, .light, .bus] s (linSuspend lost s) := by
  unfold linSuspend; repeat' (first
      | with_reducible exact Only.refl _ _ | with_reducible refine (onLin_frame _ _ _).after (by decide) ?_
      | with_reducible refine (linState_frame _ _ _).after (by decide) ?_ | with_reducible refine (linAbandon_frame _ _).after (by decide) ?_
      | with_reducible refine (linEnter_frame _ _).after (by decide) ?_ | with_reducible refine Only.ite ?_ ?_
      | with_reducible refine Only.foldl _ (fun s a => ?_) _ ?_)

theorem linStart_frame (s : State) : Only [.qf, .bus] s (linStart s) := by
  unfold linStart; repeat' (first
      | with_reducible exact Only.refl _ _ | with_reducible refine (onLin_frame _ _ _).after (by decide) ?_
      | with_reducible refine (linState_frame _ _ _).after (by decide) ?_ | with_reducible refine (notify_frame _ _ _ _).after (by decide) ?_
      | with_reducible refine (linEnter_frame _ _).after (by decide) ?_ | with_reducible refine Only.ite ?_ ?_
      | with_reducible refine Only.foldl _ (fun s a => ?_) _ ?_)

theorem linTake_frame (n f : Nat) (e : LinEnt) (s : State) : Only [.qf, .bus] s (linTake n f e s).1 := by
  unfold linTake; repeat' (first
      | with_reducible exact Only.refl _ _ | with_reducible refine (onLin_frame _ _ _).after (by decide) ?_
      | with_reducible refine (onQueue_frame _ _ _).after (by decide) ?_ | with_reducible refine Only.ite ?_ ?_ | split | dsimp only)

theorem execLinHeaderStart_frame (n f : Nat) (s : State) :
    Answers (execLinHeaderStart n f s) (Only [.anvil, .time, .ctxs, .qf, .flt, .light, .bus, .pwr, .ces, .acc, .free] s) := by
  unfold execLinHeaderStart; repeat' (first
      | with_reducible refine Answers.next ?_ | with_reducible exact Only.refl _ _ | with_reducible refine (linOver_frame _ _ _).after (by decide) ?_
      | with_reducible refine (atTick_frame _ _).after (by decide) ?_ | with_reducible refine (linTake_frame _ _ _ _).after (by decide) ?_
      | with_reducible refine (onLin_frame _ _ _).after (by decide) ?_ | with_reducible refine Answers.ite ?_ ?_ | with_reducible refine Only.ite ?_ ?_ | split)

theorem execLinBusDom_frame (n : Nat) (s : State) : Answers (execLinBusDom n s) (Only [.anvil, .time, .ctxs, .qf, .flt, .light, .bus, .pwr, .ces, .acc, .free] s) := by
  unfold execLinBusDom; repeat' (first
      | with_reducible refine Answers.next ?_ | with_reducible exact Only.refl _ _ | with_reducible refine (raise_frame _ _ _).after (by decide) ?_
      | with_reducible refine (onLin_frame _ _ _).after (by decide) ?_ | with_reducible refine Answers.ite ?_ ?_ | with_reducible refine Only.ite ?_ ?_)

theorem execLinFrameEnd_frame (n res : Nat) (data : Rec) (s : State) :
    Answers (execLinFrameEnd n res data s) (Only [.anvil, .time, .ctxs, .qf, .flt, .light, .bus, .pwr, .ces, .acc, .free] s) := by
  unfold execLinFrameEnd; repeat' (first
      | with_reducible refine Answers.next ?_ | with_reducible exact Only.refl _ _ | with_reducible refine (linFinish_frame _ _ _ _ _).after (by decide) ?_
      | with_reducible refine Answers.ite ?_ ?_ | with_reducible refine Only.ite ?_ ?_ | split)

theorem execLinBusWake_frame (n : Nat) (s : State) : Answers (execLinBusWake n s) (Only [.qf, .bus, .pwr] s) := by
  unfold execLinBusWake; repeat' (first
      | with_reducible refine Answers.next ?_ | with_reducible exact Only.refl _ _ | with_reducible refine (linWake_frame _ _ _).after (by decide) ?_
      | with_reducible refine Answers.ite ?_ ?_ | with_reducible refine Only.ite ?_ ?_)
end Sys2Proof.Machine
end

