-- ==== Sys2Proof/Laws/Keys.lean ====
section
/-! SUPPORT. What each operation of Machine/Keys.lean leaves as it is: one law per operation, which names the parts of the state it may change. -/

namespace Sys2Proof.Machine

theorem onKey_frame (n : Nat) (f : KeySlot → KeySlot) (s : State) : Only [.keys] s (onKey n f s) := by
  intro p hp; cases p <;> first | rfl | exact absurd (by decide) hp

theorem takeUse_frame (n : Nat) (s : State) : Only [.qf, .keys] s (takeUse n s) := by
  unfold takeUse; repeat' (first
      | with_reducible exact Only.refl _ _ | with_reducible refine (onKey_frame _ _ _).after (by decide) ?_
      | with_reducible refine (notify_frame _ _ _ _).after (by decide) ?_ | with_reducible refine Only.ite ?_ ?_)

theorem storeKey_frame (n : Nat) (c : Rec) (s : State) : Only [.roles, .keys] s (storeKey n c s) := by
  unfold storeKey; repeat' (first
      | with_reducible exact Only.refl _ _ | with_reducible refine (reassign_frame _ _ _).after (by decide) ?_
      | with_reducible refine (onKey_frame _ _ _).after (by decide) ?_)

theorem keyWriteSpec_frame (r : Req) (s : State) : Only [.roles, .keys] s (keyWriteSpec.run r s).st := by
  unfold keyWriteSpec; with_reducible exact (storeKey_frame _ _ _).sub (by decide)

theorem keyGenkeySpec_frame (r : Req) (s : State) : Only [.roles, .keys, .free] s (keyGenkeySpec.run r s).st := by
  unfold keyGenkeySpec; repeat' (first
      | with_reducible exact Only.refl _ _ | with_reducible refine (keyWriteSpec_frame).after (by decide) ?_
      | with_reducible refine (storeKey_frame _ _ _).after (by decide) ?_ | with_reducible refine (useFree_frame _).after (by decide) ?_)

theorem keyInfoSpec_frame (r : Req) (s : State) : Only [] s (keyInfoSpec.run r s).st := by
  exact Only.refl _ _

theorem keyMacSpec_frame (r : Req) (s : State) : Only [.qf, .keys] s (keyMacSpec.run r s).st := by
  unfold keyMacSpec; with_reducible exact (takeUse_frame _ _).sub (by decide)

theorem keyCipherSpec_frame (r : Req) (s : State) : Only [.qf, .keys] s (keyCipherSpec.run r s).st := by
  unfold keyCipherSpec; with_reducible exact (takeUse_frame _ _).sub (by decide)

theorem keySignSpec_frame (r : Req) (s : State) : Only [.qf, .keys, .free] s (keySignSpec.run r s).st := by
  unfold keySignSpec; try simp only []; repeat' (first
      | with_reducible exact Only.refl _ _ | with_reducible refine (takeUse_frame _ _).after (by decide) ?_
      | with_reducible refine (useFree_frame _).after (by decide) ?_ | split)

theorem keyEcdhSpec_frame (r : Req) (s : State) : Only [.qf, .keys] s (keyEcdhSpec.run r s).st := by
  unfold keyEcdhSpec; with_reducible exact (takeUse_frame _ _).sub (by decide)

theorem keyAttestSpec_frame (r : Req) (s : State) : Only [] s (keyAttestSpec.run r s).st := by
  exact Only.refl _ _

theorem keysStart_frame (s : State) : Only [.keys] s (keysStart s) := by
  intro p hp; cases p <;> first | rfl | exact absurd (by decide) hp
end Sys2Proof.Machine
end

