-- ==== Sys2Proof/Laws/Eth.lean ====
section
/-! SUPPORT. What each operation of Machine/Eth.lean leaves as it is: one law per operation, which names the parts of the state it may change. -/

namespace Sys2Proof.Machine

theorem ethSendOne_frame (p c : Nat) (d : DevPkt) (s : State) : Only [.anvil, .time, .ctxs, .qf, .flt, .light, .bus, .pwr, .ces, .acc, .free] s (ethSendOne p c d s) := by
  unfold ethSendOne; repeat' (first
      | with_reducible exact Only.refl _ _ | with_reducible refine (onEth_frame _ _ _).after (by decide) ?_
      | with_reducible refine (onCtx_frame _ _ _).after (by decide) ?_ | with_reducible refine (raise_frame _ _ _).after (by decide) ?_
      | with_reducible refine Only.ite ?_ ?_)

theorem ethDrainCtx_frame (s : State) (c : Nat) : Only [.anvil, .time, .ctxs, .qf, .flt, .light, .bus, .pwr, .ces, .acc, .free] s (ethDrainCtx s c) := by
  unfold ethDrainCtx; repeat' (first
      | with_reducible exact Only.refl _ _ | with_reducible refine (ethSendOne_frame _ _ _ _).after (by decide) ?_
      | with_reducible refine (onCtx_frame _ _ _).after (by decide) ?_ | with_reducible refine Only.ite ?_ ?_
      | with_reducible refine Only.foldl _ (fun s a => ?_) _ ?_)

theorem ethInstall_frame (p : Nat) (old new : Rec) (s : State) :
    Only [.anvil, .time, .ctxs, .qf, .flt, .light, .bus, .pwr, .ces, .acc, .keys, .free] s (ethInstall p old new s) := by
  unfold ethInstall; repeat' (first
      | with_reducible exact Only.refl _ _ | with_reducible refine (takeUse_frame _ _).after (by decide) ?_
      | with_reducible refine (raise_frame _ _ _).after (by decide) ?_ | with_reducible refine (onEth_frame _ _ _).after (by decide) ?_
      | with_reducible refine Only.ite ?_ ?_ | with_reducible refine Only.foldl _ (fun s a => ?_) _ ?_)

theorem ethLost_frame (p : Nat) (s : State) : Only [.ctxs, .bus] s (ethLost p s) := by
  unfold ethLost; repeat' (first
      | with_reducible exact Only.refl _ _ | with_reducible refine (onEth_frame _ _ _).after (by decide) ?_
      | with_reducible refine (onCtx_frame _ _ _).after (by decide) ?_ | with_reducible refine (linkRestart_frame _ _ _).after (by decide) ?_
      | with_reducible refine Only.ite ?_ ?_ | with_reducible refine Only.foldl _ (fun s a => ?_) _ ?_)

theorem ethDown_frame (p : Nat) (s : State) : Only [.anvil, .time, .ctxs, .qf, .flt, .light, .bus, .pwr, .ces, .acc, .free] s (ethDown p s) := by
  unfold ethDown; repeat' (first
      | with_reducible exact Only.refl _ _ | with_reducible refine (ethLost_frame _ _).after (by decide) ?_
      | with_reducible refine (raise_frame _ _ _).after (by decide) ?_)

theorem ethConfigSpec_frame (r : Req) (s : State) :
    Only [.roles, .anvil, .time, .ctxs, .qf, .flt, .light, .bus, .pwr, .ces, .acc, .keys, .free] s (ethConfigSpec.run r s).st := by
  unfold ethConfigSpec; repeat' (first
      | with_reducible exact Only.refl _ _ | with_reducible refine (ethInstall_frame _ _ _ _).after (by decide) ?_
      | with_reducible refine (ethDown_frame _ _).after (by decide) ?_ | with_reducible refine (reassign_frame _ _ _).after (by decide) ?_
      | with_reducible refine Only.ite ?_ ?_)

theorem ethStatusSpec_frame (r : Req) (s : State) : Only [] s (ethStatusSpec.run r s).st := by
  exact Only.refl _ _

theorem ethDrain_frame (s : State) : Only [.anvil, .time, .ctxs, .qf, .flt, .light, .bus, .pwr, .ces, .acc, .free] s (ethDrain s) := by
  unfold ethDrain; repeat' (first
      | with_reducible exact Only.refl _ _ | with_reducible refine (ethDrainCtx_frame _ _).after (by decide) ?_
      | with_reducible refine (onEth_frame _ _ _).after (by decide) ?_ | with_reducible refine Only.foldl _ (fun s a => ?_) _ ?_)

theorem unboundPacket_frame (s : State) : Only [.anvil, .time, .ctxs, .hspi0, .hspi1, .qf, .flt, .light, .bus, .pwr, .ces, .acc, .free] s (unboundPacket s) := by
  unfold unboundPacket; repeat' (first | with_reducible exact Only.refl _ _ | with_reducible refine (onEth_frame _ _ _).after (by decide) ?_ | with_reducible refine (raise_frame _ _ _).after (by decide) ?_ | with_reducible refine (useFree_frame _).after (by decide) ?_ | with_reducible refine Only.ite ?_ ?_ | (refine Only.upd (Only.refl _ s) ?_; intro p hp; cases p <;> first | exact absurd (by decide) hp | (dsimp only [Part.same]; done); done))

theorem ethStart_frame (s : State) : Only [.bus] s (ethStart s) := by
  unfold ethStart; repeat' (first
      | with_reducible exact Only.refl _ _ | with_reducible refine (onEth_frame _ _ _).after (by decide) ?_
      | with_reducible refine Only.foldl _ (fun s a => ?_) _ ?_)

theorem execEthLinkDown_frame (p : Nat) (s : State) :
    Answers (execEthLinkDown p s) (Only [.anvil, .time, .ctxs, .qf, .flt, .light, .bus, .pwr, .ces, .acc, .free] s) := by
  unfold execEthLinkDown; repeat' (first
      | with_reducible refine Answers.next ?_ | with_reducible exact Only.refl _ _ | with_reducible refine (ethDown_frame _ _).after (by decide) ?_
      | with_reducible refine Answers.ite ?_ ?_ | with_reducible refine Only.ite ?_ ?_)

theorem execEthLinkUp_frame (p : Nat) (s : State) : Answers (execEthLinkUp p s) (Only [.anvil, .time, .ctxs, .qf, .flt, .light, .bus, .pwr, .ces, .acc, .free] s) := by
  unfold execEthLinkUp; repeat' (first
      | with_reducible refine Answers.next ?_ | with_reducible exact Only.refl _ _ | with_reducible refine (onEth_frame _ _ _).after (by decide) ?_
      | with_reducible refine (ethDrain_frame _).after (by decide) ?_ | with_reducible refine (onCtx_frame _ _ _).after (by decide) ?_
      | with_reducible refine (sendNtf_frame _ _ _).after (by decide) ?_ | with_reducible refine Answers.ite ?_ ?_ | with_reducible refine Only.ite ?_ ?_
      | with_reducible refine Only.foldl _ (fun s a => ?_) _ ?_ | split)
end Sys2Proof.Machine
end

