-- ==== Sys2Proof/Laws/Update.lean ====
section
/-! SUPPORT. What each operation of Machine/Update.lean leaves as it is: one law per operation, which names the parts of the state it may change. -/

namespace Sys2Proof.Machine

theorem updDone_frame (s : State) : Only [] s (updDone s).st := by
  intro p hp; cases p <;> first | rfl | exact absurd (by decide) hp

theorem setMark_frame (b x1 : Nat) (s : State) : Only [.upd] s (setMark b x1 s) := by
  unfold setMark; with_reducible exact (onUpd_frame _ _).sub (by decide)

theorem setBank_frame (b : Nat) (i : Tab Octet) (s : State) : Only [.upd] s (setBank b i s) := by
  unfold setBank; with_reducible exact (onUpd_frame _ _).sub (by decide)

theorem emptyInactive_frame (s : State) : Only [.upd] s (emptyInactive s) := by
  unfold emptyInactive; repeat' (first
      | with_reducible exact Only.refl _ _ | with_reducible refine (onUpd_frame _ _).after (by decide) ?_
      | with_reducible refine (setMark_frame _ _ _).after (by decide) ?_ | with_reducible refine (setBank_frame _ _ _).after (by decide) ?_)

theorem updBeginSpec_frame (r : Req) (s : State) : Only [.upd] s (updBeginSpec.run r s).st := by
  unfold updBeginSpec; try simp only [updShape]; repeat' (first | ((try lift_lets); intro y; first | (refine Only.cut y ?c1 (fun hy => ?c2); (case' c1 => dsimp only [y]); (case' c2 => clear_value y)) | (have _h : State → State := y; clear _h; subst y) | (have _h : State → _ → State := y; clear _h; subst y) | clear_value y) | with_reducible exact Only.refl _ _ | with_reducible assumption | with_reducible refine (updDone_frame _).after (by decide) ?_ | with_reducible refine (onUpd_frame _ _).after (by decide) ?_ | with_reducible refine (emptyInactive_frame _).after (by decide) ?_ | with_reducible refine Only.ite ?_ ?_ | with_reducible refine Only.foldl _ (fun s a => ?_) _ ?_ | split | dsimp only)

theorem endSession_frame (s : State) : Only [.upd] s (endSession s) := by
  unfold endSession; repeat' (first
      | with_reducible exact Only.refl _ _ | with_reducible refine (onUpd_frame _ _).after (by decide) ?_
      | with_reducible refine (emptyInactive_frame _).after (by decide) ?_)

theorem updWriteSpec_frame (r : Req) (s : State) : Only [.upd] s (updWriteSpec.run r s).st := by
  unfold updWriteSpec; try simp only [updShape]; repeat' (first | ((try lift_lets); intro y; first | (refine Only.cut y ?c1 (fun hy => ?c2); (case' c1 => dsimp only [y]); (case' c2 => clear_value y)) | (have _h : State → State := y; clear _h; subst y) | (have _h : State → _ → State := y; clear _h; subst y) | clear_value y) | with_reducible exact Only.refl _ _ | with_reducible assumption | with_reducible refine (onUpd_frame _ _).after (by decide) ?_ | with_reducible refine (setMark_frame _ _ _).after (by decide) ?_ | with_reducible refine (setBank_frame _ _ _).after (by decide) ?_ | with_reducible refine (endSession_frame _).after (by decide) ?_ | with_reducible refine Only.ite ?_ ?_ | with_reducible refine Only.foldl _ (fun s a => ?_) _ ?_ | split | dsimp only)

theorem copyCarry_frame (s : State) : Only [.upd] s (copyCarry s) := by
  unfold copyCarry; with_reducible exact (setBank_frame _ _ _).sub (by decide)

theorem updFinishSpec_frame (r : Req) (s : State) : Only [.upd] s (updFinishSpec.run r s).st := by
  unfold updFinishSpec; try simp only [updShape]; repeat' (first
      | with_reducible exact Only.refl _ _ | with_reducible refine (copyCarry_frame _).after (by decide) ?_
      | with_reducible refine (onUpd_frame _ _).after (by decide) ?_ | with_reducible refine (setMark_frame _ _ _).after (by decide) ?_
      | with_reducible refine (endSession_frame _).after (by decide) ?_ | split)

theorem updVerifySpec_frame (r : Req) (s : State) : Only [.upd] s (updVerifySpec.run r s).st := by
  unfold updVerifySpec; try simp only [updShape]; repeat' (first | with_reducible exact Only.refl _ _ | with_reducible refine (onUpd_frame _ _).after (by decide) ?_)

theorem updActivateSpec_frame (r : Req) (s : State) : Only [.upd] s (updActivateSpec.run r s).st := by
  unfold updActivateSpec; try simp only [updShape]; repeat' (first
      | with_reducible exact Only.refl _ _ | with_reducible refine (onUpd_frame _ _).after (by decide) ?_ | split)

theorem updCancelSpec_frame (r : Req) (s : State) : Only [.upd] s (updCancelSpec.run r s).st := by
  unfold updCancelSpec; try simp only [updShape]; repeat' (first | ((try lift_lets); intro y; first | (refine Only.cut y ?c1 (fun hy => ?c2); (case' c1 => dsimp only [y]); (case' c2 => clear_value y)) | (have _h : State → State := y; clear _h; subst y) | (have _h : State → _ → State := y; clear _h; subst y) | clear_value y) | with_reducible exact Only.refl _ _ | with_reducible assumption | with_reducible refine (updDone_frame _).after (by decide) ?_ | with_reducible refine (onUpd_frame _ _).after (by decide) ?_ | with_reducible refine (endSession_frame _).after (by decide) ?_ | with_reducible refine Only.ite ?_ ?_ | with_reducible refine Only.foldl _ (fun s a => ?_) _ ?_ | split | dsimp only)

theorem updResult_frame (d : Rec) (s : State) : Only [.qf] s (updResult d s) := by
  unfold updResult; repeat' (first
      | with_reducible exact Only.refl _ _ | with_reducible refine (notify_frame _ _ _ _).after (by decide) ?_ | with_reducible refine Only.ite ?_ ?_
      | with_reducible refine Only.foldl _ (fun s a => ?_) _ ?_)

theorem updConfirmSpec_frame (r : Req) (s : State) : Only [.qf, .upd] s (updConfirmSpec.run r s).st := by
  unfold updConfirmSpec; try simp only [updShape]; repeat' (first
      | with_reducible exact Only.refl _ _ | with_reducible refine (setMark_frame _ _ _).after (by decide) ?_
      | with_reducible refine (onUpd_frame _ _).after (by decide) ?_ | with_reducible refine (updDone_frame _).after (by decide) ?_
      | with_reducible refine (updResult_frame _ _).after (by decide) ?_)

theorem updRollbackSpec_frame (r : Req) (s : State) : Only [.upd] s (updRollbackSpec.run r s).st := by
  unfold updRollbackSpec; try simp only [updShape]; repeat' (first
      | with_reducible exact Only.refl _ _ | with_reducible refine (updDone_frame _).after (by decide) ?_
      | with_reducible refine (onUpd_frame _ _).after (by decide) ?_)

theorem updServiceSpec_frame (r : Req) (s : State) : Only [.upd] s (updServiceSpec.run r s).st := by
  unfold updServiceSpec; try simp only [updShape]; repeat' (first
      | with_reducible exact Only.refl _ _ | with_reducible refine (updDone_frame _).after (by decide) ?_
      | with_reducible refine (onUpd_frame _ _).after (by decide) ?_)

theorem updStatusSpec_frame (r : Req) (s : State) : Only [] s (updStatusSpec.run r s).st := by
  exact Only.refl _ _

theorem schedCheckSpec_frame (r : Req) (s : State) : Only [.sched] s (schedCheckSpec.run r s).st := by
  unfold schedCheckSpec; with_reducible exact (onSched_frame _ _).sub (by decide)

theorem finishChecks_frame (s : State) : Only [.sched, .qf, .upd] s (finishChecks s) := by
  unfold finishChecks; repeat' (first
      | with_reducible exact Only.refl _ _ | with_reducible refine (completion_frame _ _ _ _ _ _ _).after (by decide) ?_
      | with_reducible refine (onSched_frame _ _).after (by decide) ?_ | with_reducible refine (onUpd_frame _ _).after (by decide) ?_
      | with_reducible refine Only.ite ?_ ?_ | split | dsimp only)
end Sys2Proof.Machine
end

