-- ==== Sys2Proof/Laws/Inputs.lean ====
section
/-! SUPPORT. What each operation of Machine/Inputs.lean leaves as it is: one law per operation, which names the parts of the state it may change. -/

namespace Sys2Proof.Machine

theorem onMon_frame (f : Mon → Mon) (s : State) : Only [.anvil] s (onMon f s) := by
  intro p hp; cases p <;> first | rfl | exact absurd (by decide) hp

theorem inChange_frame (n : Nat) (v : Bool) (s : State) : Only [.qf] s (inChange n v s) := by
  unfold inChange; repeat' (first
      | with_reducible exact Only.refl _ _ | with_reducible refine (notify_frame _ _ _ _).after (by decide) ?_ | with_reducible refine Only.ite ?_ ?_
      | with_reducible refine Only.foldl _ (fun s a => ?_) _ ?_)

theorem inputEdge_frame (x0 : Nat) (x1 : Bool) (x2 : State) : Only [.anvil, .time, .qf, .pwr] x2 (inputEdge x0 x1 x2).1 := by
  unfold inputEdge
  dsimp only
  split
  · split
    · exact Only.refl _ _
    · exact Only.ite ((deviceWake_frame _ _ _ _ _ _).after (by decide) ((onMon_frame _ _).sub (by decide))) ((onMon_frame _ _).sub (by decide))
  · split
    · exact Only.refl _ _
    · refine (inChange_frame _ _ _).after (by decide) (Only.ite ((deviceWake_frame _ _ _ _ _ _).after (by decide) ?_) ?_) <;>
        exact (onMon_frame _ _).after (by decide) ((atTickA_frame _ _).sub (by decide))

theorem inConfigSpec_frame (r : Req) (s : State) : Only [.com] s (inConfigSpec.run r s).st := by
  unfold inConfigSpec; with_reducible exact (onCom_frame _ _).sub (by decide)

theorem inGlobalSpec_frame (r : Req) (s : State) : Only [.com] s (inGlobalSpec.run r s).st := by
  unfold inGlobalSpec; with_reducible exact (onCom_frame _ _).sub (by decide)

theorem inStatusSpec_frame (r : Req) (s : State) : Only [] s (inStatusSpec.run r s).st := by
  exact Only.refl _ _

theorem inCfgReadSpec_frame (r : Req) (s : State) : Only [] s (inCfgReadSpec.run r s).st := by
  exact Only.refl _ _

theorem monReadSpec_frame (r : Req) (s : State) : Only [] s (monReadSpec.run r s).st := by
  exact Only.refl _ _

theorem hearthSensors_frame (x0 : List Int) (x1 : List Nat) (x2 : Nat) (x3 : State) :
    Only [.anvil, .time, .ctxs, .qf, .flt, .light, .bus, .pwr, .ces, .acc, .hmon, .free] x3 (hearthSensors x0 x1 x2 x3) := by
  have step (x : HMon) (s t : State) (h : Only [.anvil, .time, .ctxs, .qf, .flt, .light, .bus, .pwr, .ces, .acc, .hmon, .free] s t) : Only [.anvil, .time, .ctxs, .qf, .flt, .light, .bus, .pwr, .ces, .acc, .hmon, .free] s { t with hmon := x } :=
    Only.upd h (by intro p hp; cases p <;> first | exact absurd (by decide) hp | rfl)
  unfold hearthSensors
  refine Only.foldl _ (fun s a => ?_) _ ?_
  · with_reducible refine Only.ite ?_ ?_
    · exact (raise_frame _ _ _).sub (by decide)
    · exact Only.refl _ _
  refine step _ _ _ (step _ _ _ ?_)
  have h : Only [.anvil, .time, .ctxs, .qf, .flt, .light, .bus, .pwr, .ces, .acc, .hmon, .free] x3 ((List.range 8).foldl (fun (s : State) (i : Nat) =>
    let k := tget tsDef s.hmon.temp i
    let k' := sensorStep s.tbNow (x0.getD i k.v) false (fun _ => false) k
    let s := { s with hmon := { s.hmon with temp := tput tsDef s.hmon.temp i k' } }
    let s := if k'.bad && !k.bad then raise 0x1C2 (12 + i) s else s
    if 1120 ≤ k'.v ∧ k.v < 1120 then raise 0x1C1 (12 + i) s else s) x3) := by
    refine Only.foldl _ (fun s i => ?_) _ (Only.refl _ _)
    dsimp only
    repeat' (first | with_reducible exact step _ _ _ (Only.refl _ _) | with_reducible refine (raise_frame _ _ _).after (by decide) ?_ | with_reducible refine Only.ite ?_ ?_)
  repeat' (first | exact h | with_reducible refine (raise_frame _ _ _).after (by decide) ?_ | with_reducible refine Only.ite ?_ ?_)

theorem inputsRestart_frame (was : Com) (f : Fn) (s : State) : Only [.anvil] s (inputsRestart was f s) := by
  unfold inputsRestart; repeat' (first
      | with_reducible exact Only.refl _ _ | with_reducible refine (onMon_frame _ _).after (by decide) ?_ | with_reducible refine Only.ite ?_ ?_)

theorem areaStep_frame (x0 : Nat) (v : Int) (bad : Bool) (s : State) :
    Only [.anvil, .time, .ctxs, .qf, .flt, .light, .bus, .pwr, .ces, .acc, .free] s (areaStep x0 v bad s) := by
  unfold areaStep; repeat' (first
      | with_reducible exact Only.refl _ _ | with_reducible refine (onMon_frame _ _).after (by decide) ?_
      | with_reducible refine (onAnvil_frame _ _).after (by decide) ?_ | with_reducible refine (raise_frame _ _ _).after (by decide) ?_
      | with_reducible refine Only.ite ?_ ?_)

theorem condStep_frame (x0 : Nat → Bool) (s : State) : Only [.anvil] s (condStep x0 s) := by
  unfold condStep; with_reducible exact (onMon_frame _ _).sub (by decide)

theorem tjStep_frame (n : Nat) (bad : Bool) (s : State) : Only [.anvil, .time, .ctxs, .qf, .flt, .light, .bus, .pwr, .ces, .acc, .free] s (tjStep n bad s) := by
  unfold tjStep; repeat' (first
      | with_reducible exact Only.refl _ _ | with_reducible refine (onMon_frame _ _).after (by decide) ?_
      | with_reducible refine (raise_frame _ _ _).after (by decide) ?_ | with_reducible refine Only.ite ?_ ?_)

theorem execDroopDetectorTrip_frame (i : Nat) (s : State) : Answers (execDroopDetectorTrip i s) (Only [.link] s) := by
  unfold execDroopDetectorTrip; repeat' (first
      | with_reducible refine Answers.next ?_ | with_reducible exact Only.refl _ _ | with_reducible refine (onLink_frame _ _).after (by decide) ?_
      | with_reducible refine Answers.ite ?_ ?_ | with_reducible refine Only.ite ?_ ?_)

theorem inputsWake_frame (s : State) : Only [.anvil] s (inputsWake s) := by
  unfold inputsWake; with_reducible exact (onMon_frame _ _).sub (by decide)

theorem execDroopClear_frame (i : Nat) (s : State) : Answers (execDroopClear i s) (Only [.link] s) := by
  unfold execDroopClear; repeat' (first
      | with_reducible refine Answers.next ?_ | with_reducible exact Only.refl _ _ | with_reducible refine (onLink_frame _ _).after (by decide) ?_)
end Sys2Proof.Machine
end

