-- ==== Sys2Proof/Laws/Cesyn.lean ====
section
/-! SUPPORT. What each operation of Machine/Cesyn.lean leaves as it is: one law per operation, which names the parts of the state it may change. -/

namespace Sys2Proof.Machine

theorem endTrap_frame (c cause : Nat) (s : State) : Only [.anvil, .time, .sched, .ctxs, .qf, .flt, .light, .bus, .pwr, .ces, .acc, .free] s (endTrap c cause s) := by
  unfold endTrap; repeat' (first
      | with_reducible exact Only.refl _ _ | with_reducible refine (onCore_frame _ _ _).after (by decide) ?_
      | with_reducible refine (onTask_frame _ _ _).after (by decide) ?_ | with_reducible refine (notify_frame _ _ _ _).after (by decide) ?_
      | with_reducible refine (onSched_frame _ _).after (by decide) ?_ | with_reducible refine (raise_frame _ _ _).after (by decide) ?_
      | with_reducible refine Only.ite ?_ ?_ | split | dsimp only)

theorem safeTrap_frame (c : Nat) (s : State) : Only [.anvil, .time, .sched, .ctxs, .qf, .flt, .light, .bus, .pwr, .ces, .acc, .free] s (safeTrap c s) := by
  unfold safeTrap; repeat' (first
      | with_reducible exact Only.refl _ _ | with_reducible refine (endTrap_frame _ _ _).after (by decide) ?_
      | with_reducible refine (onTask_frame _ _ _).after (by decide) ?_ | with_reducible refine (onCore_frame _ _ _).after (by decide) ?_
      | with_reducible refine Only.ite ?_ ?_ | split | dsimp only)

theorem coreDo_frame (op : CoreOp) (rep last : Bool) (f : CoreEnv → Core → Eff) (s : State) :
    Only [.anvil, .time, .sched, .ctxs, .qf, .flt, .light, .bus, .pwr, .ces, .acc, .free] s (coreDo op rep last f s) := by
  unfold coreDo; repeat' (first
      | with_reducible exact Only.refl _ _ | with_reducible refine (safeTrap_frame _ _).after (by decide) ?_
      | with_reducible refine (endTrap_frame _ _ _).after (by decide) ?_ | with_reducible refine (onCore_frame _ _ _).after (by decide) ?_
      | with_reducible refine Only.ite ?_ ?_ | split | dsimp only)

theorem coreFree_frame (op : CoreOp) (f : CoreEnv → Core → Eff) (s : State) :
    Only [.anvil, .time, .sched, .ctxs, .qf, .flt, .light, .bus, .pwr, .ces, .acc, .free] s (coreFree op f s) := by
  unfold coreFree; repeat' (first
      | with_reducible exact Only.refl _ _ | with_reducible refine (useFree_frame _).after (by decide) ?_
      | with_reducible refine (coreDo_frame _ _ _ _ _).after (by decide) ?_)
end Sys2Proof.Machine
end

