-- ==== Sys2Proof/Laws/CesynCmds.lean ====
section
/-! SUPPORT. What each operation of Machine/CesynCmds.lean leaves as it is: one law per operation, which names the parts of the state it may change. -/

namespace Sys2Proof.Machine

theorem execAdc_frame (op : CoreOp) (dd da db : Nat) (s : State) :
    Answers (execAdc op dd da db s) (Only [.anvil, .time, .sched, .ctxs, .qf, .flt, .light, .bus, .pwr, .ces, .acc, .free] s) := by
  unfold execAdc; repeat' (first
      | with_reducible refine Answers.next ?_ | with_reducible exact Only.refl _ _ | with_reducible refine (coreDo_frame _ _ _ _ _).after (by decide) ?_)

theorem execSt_frame (op : CoreOp) (code ea : Nat) (ext : W24) (s : State) :
    Answers (execSt op code ea ext s) (Only [.anvil, .time, .sched, .ctxs, .qf, .flt, .light, .bus, .pwr, .ces, .acc, .free] s) := by
  unfold execSt; repeat' (first
      | with_reducible refine Answers.next ?_ | with_reducible exact Only.refl _ _ | with_reducible refine (coreDo_frame _ _ _ _ _).after (by decide) ?_)

theorem execTaskEndGuard_frame (c : Nat) (s : State) :
    Answers (execTaskEndGuard c s) (Only [.anvil, .time, .sched, .ctxs, .qf, .flt, .light, .bus, .pwr, .ces, .acc, .free] s) := by
  unfold execTaskEndGuard; repeat' (first
      | with_reducible refine Answers.next ?_ | with_reducible exact Only.refl _ _ | with_reducible refine (endTrap_frame _ _ _).after (by decide) ?_
      | with_reducible refine (atTick_frame _ _).after (by decide) ?_ | with_reducible refine Answers.ite ?_ ?_ | with_reducible refine Only.ite ?_ ?_)

theorem execAdd_frame (op : CoreOp) (dd da db : Nat) (s : State) :
    Answers (execAdd op dd da db s) (Only [.anvil, .time, .sched, .ctxs, .qf, .flt, .light, .bus, .pwr, .ces, .acc, .free] s) := by
  unfold execAdd; repeat' (first
      | with_reducible refine Answers.next ?_ | with_reducible exact Only.refl _ _ | with_reducible refine (coreDo_frame _ _ _ _ _).after (by decide) ?_)

theorem execMsu_frame (op : CoreOp) (aa da db : Nat) (s : State) :
    Answers (execMsu op aa da db s) (Only [.anvil, .time, .sched, .ctxs, .qf, .flt, .light, .bus, .pwr, .ces, .acc, .free] s) := by
  unfold execMsu; repeat' (first
      | with_reducible refine Answers.next ?_ | with_reducible exact Only.refl _ _ | with_reducible refine (coreDo_frame _ _ _ _ _).after (by decide) ?_)

theorem execPsub_frame (op : CoreOp) (dd da db : Nat) (s : State) :
    Answers (execPsub op dd da db s) (Only [.anvil, .time, .sched, .ctxs, .qf, .flt, .light, .bus, .pwr, .ces, .acc, .free] s) := by
  unfold execPsub; repeat' (first
      | with_reducible refine Answers.next ?_ | with_reducible exact Only.refl _ _ | with_reducible refine (coreFree_frame _ _ _).after (by decide) ?_)

theorem execMpyf_frame (op : CoreOp) (aa da db : Nat) (s : State) :
    Answers (execMpyf op aa da db s) (Only [.anvil, .time, .sched, .ctxs, .qf, .flt, .light, .bus, .pwr, .ces, .acc, .free] s) := by
  unfold execMpyf; repeat' (first
      | with_reducible refine Answers.next ?_ | with_reducible exact Only.refl _ _ | with_reducible refine (coreDo_frame _ _ _ _ _).after (by decide) ?_)

theorem execAbs_frame (op : CoreOp) (aa : Nat) (s : State) :
    Answers (execAbs op aa s) (Only [.anvil, .time, .sched, .ctxs, .qf, .flt, .light, .bus, .pwr, .ces, .acc, .free] s) := by
  unfold execAbs; repeat' (first
      | with_reducible refine Answers.next ?_ | with_reducible exact Only.refl _ _ | with_reducible refine (coreDo_frame _ _ _ _ _).after (by decide) ?_)

theorem execNeg_frame (op : CoreOp) (aa : Nat) (s : State) :
    Answers (execNeg op aa s) (Only [.anvil, .time, .sched, .ctxs, .qf, .flt, .light, .bus, .pwr, .ces, .acc, .free] s) := by
  unfold execNeg; repeat' (first
      | with_reducible refine Answers.next ?_ | with_reducible exact Only.refl _ _ | with_reducible refine (coreDo_frame _ _ _ _ _).after (by decide) ?_)

theorem execAsr_frame (op : CoreOp) (dd da n : Nat) (s : State) :
    Answers (execAsr op dd da n s) (Only [.anvil, .time, .sched, .ctxs, .qf, .flt, .light, .bus, .pwr, .ces, .acc, .free] s) := by
  unfold execAsr; repeat' (first
      | with_reducible refine Answers.next ?_ | with_reducible exact Only.refl _ _ | with_reducible refine (coreDo_frame _ _ _ _ _).after (by decide) ?_)

theorem execRnd_frame (op : CoreOp) (aa : Nat) (s : State) :
    Answers (execRnd op aa s) (Only [.anvil, .time, .sched, .ctxs, .qf, .flt, .light, .bus, .pwr, .ces, .acc, .free] s) := by
  unfold execRnd; repeat' (first
      | with_reducible refine Answers.next ?_ | with_reducible exact Only.refl _ _ | with_reducible refine (coreDo_frame _ _ _ _ _).after (by decide) ?_)

theorem execQueuePortRelease_frame (op : CoreOp) (p : Nat) (s : State) :
    Answers (execQueuePortRelease op p s) (Only [.anvil, .time, .sched, .ctxs, .qf, .flt, .light, .bus, .pwr, .ces, .acc, .free] s) := by
  unfold execQueuePortRelease; repeat' (first
      | with_reducible refine Answers.next ?_ | with_reducible exact Only.refl _ _ | with_reducible refine (coreDo_frame _ _ _ _ _).after (by decide) ?_)

theorem execSbc_frame (op : CoreOp) (dd da db : Nat) (s : State) :
    Answers (execSbc op dd da db s) (Only [.anvil, .time, .sched, .ctxs, .qf, .flt, .light, .bus, .pwr, .ces, .acc, .free] s) := by
  unfold execSbc; repeat' (first
      | with_reducible refine Answers.next ?_ | with_reducible exact Only.refl _ _ | with_reducible refine (coreDo_frame _ _ _ _ _).after (by decide) ?_)

theorem execQueuePortWordWrite_frame (op : CoreOp) (p w : Nat) (v : W24) (s : State) :
    Answers (execQueuePortWordWrite op p w v s) (Only [.anvil, .time, .sched, .ctxs, .qf, .flt, .light, .bus, .pwr, .ces, .acc, .free] s) := by
  unfold execQueuePortWordWrite; repeat' (first
      | with_reducible refine Answers.next ?_ | with_reducible exact Only.refl _ _ | with_reducible refine (coreDo_frame _ _ _ _ _).after (by decide) ?_)

theorem execRet_frame (op : CoreOp) (s : State) : Answers (execRet op s) (Only [.anvil, .time, .sched, .ctxs, .qf, .flt, .light, .bus, .pwr, .ces, .acc, .free] s) := by
  unfold execRet; repeat' (first
      | with_reducible refine Answers.next ?_ | with_reducible exact Only.refl _ _ | with_reducible refine (coreDo_frame _ _ _ _ _).after (by decide) ?_)

theorem execPmacu_frame (op : CoreOp) (aa da db : Nat) (s : State) :
    Answers (execPmacu op aa da db s) (Only [.anvil, .time, .sched, .ctxs, .qf, .flt, .light, .bus, .pwr, .ces, .acc, .free] s) := by
  unfold execPmacu; repeat' (first
      | with_reducible refine Answers.next ?_ | with_reducible exact Only.refl _ _ | with_reducible refine (coreDo_frame _ _ _ _ _).after (by decide) ?_)

theorem execQueuePortMark_frame (op : CoreOp) (p : Nat) (s : State) :
    Answers (execQueuePortMark op p s) (Only [.anvil, .time, .sched, .ctxs, .qf, .flt, .light, .bus, .pwr, .ces, .acc, .free] s) := by
  unfold execQueuePortMark; repeat' (first
      | with_reducible refine Answers.next ?_ | with_reducible exact Only.refl _ _ | with_reducible refine (coreDo_frame _ _ _ _ _).after (by decide) ?_)

theorem execRol_frame (op : CoreOp) (dd da n : Nat) (s : State) :
    Answers (execRol op dd da n s) (Only [.anvil, .time, .sched, .ctxs, .qf, .flt, .light, .bus, .pwr, .ces, .acc, .free] s) := by
  unfold execRol; repeat' (first
      | with_reducible refine Answers.next ?_ | with_reducible exact Only.refl _ _ | with_reducible refine (coreDo_frame _ _ _ _ _).after (by decide) ?_)

theorem execMpy_frame (op : CoreOp) (aa da db : Nat) (s : State) :
    Answers (execMpy op aa da db s) (Only [.anvil, .time, .sched, .ctxs, .qf, .flt, .light, .bus, .pwr, .ces, .acc, .free] s) := by
  unfold execMpy; repeat' (first
      | with_reducible refine Answers.next ?_ | with_reducible exact Only.refl _ _ | with_reducible refine (coreDo_frame _ _ _ _ _).after (by decide) ?_)

theorem execMac_frame (op : CoreOp) (aa da db : Nat) (s : State) :
    Answers (execMac op aa da db s) (Only [.anvil, .time, .sched, .ctxs, .qf, .flt, .light, .bus, .pwr, .ces, .acc, .free] s) := by
  unfold execMac; repeat' (first
      | with_reducible refine Answers.next ?_ | with_reducible exact Only.refl _ _ | with_reducible refine (coreDo_frame _ _ _ _ _).after (by decide) ?_)

theorem execPadd_frame (op : CoreOp) (dd da db : Nat) (s : State) :
    Answers (execPadd op dd da db s) (Only [.anvil, .time, .sched, .ctxs, .qf, .flt, .light, .bus, .pwr, .ces, .acc, .free] s) := by
  unfold execPadd; repeat' (first
      | with_reducible refine Answers.next ?_ | with_reducible exact Only.refl _ _ | with_reducible refine (coreFree_frame _ _ _).after (by decide) ?_)

theorem execNop_frame (op : CoreOp) (s : State) : Answers (execNop op s) (Only [.anvil, .time, .sched, .ctxs, .qf, .flt, .light, .bus, .pwr, .ces, .acc, .free] s) := by
  unfold execNop; repeat' (first
      | with_reducible refine Answers.next ?_ | with_reducible exact Only.refl _ _ | with_reducible refine (coreDo_frame _ _ _ _ _).after (by decide) ?_)

theorem execAsha_frame (op : CoreOp) (aa am : Nat) (n : Int) (s : State) :
    Answers (execAsha op aa am n s) (Only [.anvil, .time, .sched, .ctxs, .qf, .flt, .light, .bus, .pwr, .ces, .acc, .free] s) := by
  unfold execAsha; repeat' (first
      | with_reducible refine Answers.next ?_ | with_reducible exact Only.refl _ _ | with_reducible refine (coreDo_frame _ _ _ _ _).after (by decide) ?_)

theorem execShl_frame (op : CoreOp) (dd da n : Nat) (s : State) :
    Answers (execShl op dd da n s) (Only [.anvil, .time, .sched, .ctxs, .qf, .flt, .light, .bus, .pwr, .ces, .acc, .free] s) := by
  unfold execShl; repeat' (first
      | with_reducible refine Answers.next ?_ | with_reducible exact Only.refl _ _ | with_reducible refine (coreDo_frame _ _ _ _ _).after (by decide) ?_)

theorem execMacx_frame (op : CoreOp) (mcode aa mx px my py : Nat) (s : State) :
    Answers (execMacx op mcode aa mx px my py s) (Only [.anvil, .time, .sched, .ctxs, .qf, .flt, .light, .bus, .pwr, .ces, .acc, .free] s) := by
  unfold execMacx; repeat' (first
      | with_reducible refine Answers.next ?_ | with_reducible exact Only.refl _ _ | with_reducible refine (coreDo_frame _ _ _ _ _).after (by decide) ?_)

theorem execOr_frame (op : CoreOp) (dd da db : Nat) (s : State) :
    Answers (execOr op dd da db s) (Only [.anvil, .time, .sched, .ctxs, .qf, .flt, .light, .bus, .pwr, .ces, .acc, .free] s) := by
  unfold execOr; repeat' (first
      | with_reducible refine Answers.next ?_ | with_reducible exact Only.refl _ _ | with_reducible refine (coreFree_frame _ _ _).after (by decide) ?_)

theorem execXor_frame (op : CoreOp) (dd da db : Nat) (s : State) :
    Answers (execXor op dd da db s) (Only [.anvil, .time, .sched, .ctxs, .qf, .flt, .light, .bus, .pwr, .ces, .acc, .free] s) := by
  unfold execXor; repeat' (first
      | with_reducible refine Answers.next ?_ | with_reducible exact Only.refl _ _ | with_reducible refine (coreFree_frame _ _ _).after (by decide) ?_)

theorem execQueuePortRead_frame (op : CoreOp) (p : Nat) (s : State) :
    Answers (execQueuePortRead op p s) (Only [.anvil, .time, .sched, .ctxs, .qf, .flt, .light, .bus, .pwr, .ces, .acc, .free] s) := by
  unfold execQueuePortRead; repeat' (first
      | with_reducible refine Answers.next ?_ | with_reducible exact Only.refl _ _ | with_reducible refine (coreDo_frame _ _ _ _ _).after (by decide) ?_)

theorem execLd_frame (op : CoreOp) (code ea : Nat) (ext : W24) (s : State) :
    Answers (execLd op code ea ext s) (Only [.anvil, .time, .sched, .ctxs, .qf, .flt, .light, .bus, .pwr, .ces, .acc, .free] s) := by
  unfold execLd; repeat' (first
      | with_reducible refine Answers.next ?_ | with_reducible exact Only.refl _ _ | with_reducible refine (coreDo_frame _ _ _ _ _).after (by decide) ?_)

theorem execClr_frame (op : CoreOp) (aa : Nat) (s : State) :
    Answers (execClr op aa s) (Only [.anvil, .time, .sched, .ctxs, .qf, .flt, .light, .bus, .pwr, .ces, .acc, .free] s) := by
  unfold execClr; repeat' (first
      | with_reducible refine Answers.next ?_ | with_reducible exact Only.refl _ _ | with_reducible refine (coreDo_frame _ _ _ _ _).after (by decide) ?_)

theorem execSafeTrap_frame (c : Nat) (s : State) :
    Answers (execSafeTrap c s) (Only [.anvil, .time, .sched, .ctxs, .qf, .flt, .light, .bus, .pwr, .ces, .acc, .free] s) := by
  unfold execSafeTrap; repeat' (first
      | with_reducible refine Answers.next ?_ | with_reducible exact Only.refl _ _ | with_reducible refine (safeTrap_frame _ _).after (by decide) ?_
      | with_reducible refine Answers.ite ?_ ?_ | with_reducible refine Only.ite ?_ ?_)

theorem execJmp_frame (op : CoreOp) (target : BitVec 16) (s : State) :
    Answers (execJmp op target s) (Only [.anvil, .time, .sched, .ctxs, .qf, .flt, .light, .bus, .pwr, .ces, .acc, .free] s) := by
  unfold execJmp; repeat' (first
      | with_reducible refine Answers.next ?_ | with_reducible exact Only.refl _ _ | with_reducible refine (coreDo_frame _ _ _ _ _).after (by decide) ?_)

theorem execMsuf_frame (op : CoreOp) (aa da db : Nat) (s : State) :
    Answers (execMsuf op aa da db s) (Only [.anvil, .time, .sched, .ctxs, .qf, .flt, .light, .bus, .pwr, .ces, .acc, .free] s) := by
  unfold execMsuf; repeat' (first
      | with_reducible refine Answers.next ?_ | with_reducible exact Only.refl _ _ | with_reducible refine (coreDo_frame _ _ _ _ _).after (by decide) ?_)

theorem execRett_frame (op : CoreOp) (s : State) : Answers (execRett op s) (Only [.anvil, .time, .sched, .ctxs, .qf, .flt, .light, .bus, .pwr, .ces, .acc, .free] s) := by
  unfold execRett; repeat' (first
      | with_reducible refine Answers.next ?_ | with_reducible exact Only.refl _ _ | with_reducible refine (coreDo_frame _ _ _ _ _).after (by decide) ?_)

theorem execQueuePortRewind_frame (op : CoreOp) (p : Nat) (s : State) :
    Answers (execQueuePortRewind op p s) (Only [.anvil, .time, .sched, .ctxs, .qf, .flt, .light, .bus, .pwr, .ces, .acc, .free] s) := by
  unfold execQueuePortRewind; repeat' (first
      | with_reducible refine Answers.next ?_ | with_reducible exact Only.refl _ _ | with_reducible refine (coreDo_frame _ _ _ _ _).after (by decide) ?_)

theorem execAdda_frame (op : CoreOp) (aa am : Nat) (s : State) :
    Answers (execAdda op aa am s) (Only [.anvil, .time, .sched, .ctxs, .qf, .flt, .light, .bus, .pwr, .ces, .acc, .free] s) := by
  unfold execAdda; repeat' (first
      | with_reducible refine Answers.next ?_ | with_reducible exact Only.refl _ _ | with_reducible refine (coreDo_frame _ _ _ _ _).after (by decide) ?_)

theorem execPmacs_frame (op : CoreOp) (aa da db : Nat) (s : State) :
    Answers (execPmacs op aa da db s) (Only [.anvil, .time, .sched, .ctxs, .qf, .flt, .light, .bus, .pwr, .ces, .acc, .free] s) := by
  unfold execPmacs; repeat' (first
      | with_reducible refine Answers.next ?_ | with_reducible exact Only.refl _ _ | with_reducible refine (coreDo_frame _ _ _ _ _).after (by decide) ?_)

theorem execRep_frame (op : CoreOp) (reg : Bool) (dn count : Nat) (s : State) :
    Answers (execRep op reg dn count s) (Only [.anvil, .time, .sched, .ctxs, .qf, .flt, .light, .bus, .pwr, .ces, .acc, .free] s) := by
  unfold execRep; repeat' (first
      | with_reducible refine Answers.next ?_ | with_reducible exact Only.refl _ _ | with_reducible refine (coreDo_frame _ _ _ _ _).after (by decide) ?_)

theorem execBr_frame (op : CoreOp) (cond : Nat) (off : Int) (s : State) :
    Answers (execBr op cond off s) (Only [.anvil, .time, .sched, .ctxs, .qf, .flt, .light, .bus, .pwr, .ces, .acc, .free] s) := by
  unfold execBr; repeat' (first
      | with_reducible refine Answers.next ?_ | with_reducible exact Only.refl _ _ | with_reducible refine (coreDo_frame _ _ _ _ _).after (by decide) ?_)

theorem execSuba_frame (op : CoreOp) (aa am : Nat) (s : State) :
    Answers (execSuba op aa am s) (Only [.anvil, .time, .sched, .ctxs, .qf, .flt, .light, .bus, .pwr, .ces, .acc, .free] s) := by
  unfold execSuba; repeat' (first
      | with_reducible refine Answers.next ?_ | with_reducible exact Only.refl _ _ | with_reducible refine (coreDo_frame _ _ _ _ _).after (by decide) ?_)

theorem execBmov_frame (op : CoreOp) (two : Bool) (ps pd dn : Nat) (cut : Option Nat) (s : State) :
    Answers (execBmov op two ps pd dn cut s) (Only [.anvil, .time, .sched, .ctxs, .qf, .flt, .light, .bus, .pwr, .ces, .acc, .free] s) := by
  unfold execBmov; repeat' (first
      | with_reducible refine Answers.next ?_ | with_reducible exact Only.refl _ _ | with_reducible refine (coreDo_frame _ _ _ _ _).after (by decide) ?_)

theorem execTfra_frame (op : CoreOp) (aa am : Nat) (s : State) :
    Answers (execTfra op aa am s) (Only [.anvil, .time, .sched, .ctxs, .qf, .flt, .light, .bus, .pwr, .ces, .acc, .free] s) := by
  unfold execTfra; repeat' (first
      | with_reducible refine Answers.next ?_ | with_reducible exact Only.refl _ _ | with_reducible refine (coreDo_frame _ _ _ _ _).after (by decide) ?_)

theorem execCmp_frame (op : CoreOp) (da db : Nat) (s : State) :
    Answers (execCmp op da db s) (Only [.anvil, .time, .sched, .ctxs, .qf, .flt, .light, .bus, .pwr, .ces, .acc, .free] s) := by
  unfold execCmp; repeat' (first
      | with_reducible refine Answers.next ?_ | with_reducible exact Only.refl _ _ | with_reducible refine (coreDo_frame _ _ _ _ _).after (by decide) ?_)

theorem execMov_frame (op : CoreOp) (dst src : Nat) (s : State) :
    Answers (execMov op dst src s) (Only [.anvil, .time, .sched, .ctxs, .qf, .flt, .light, .bus, .pwr, .ces, .acc, .free] s) := by
  unfold execMov; repeat' (first
      | with_reducible refine Answers.next ?_ | with_reducible exact Only.refl _ _ | with_reducible refine (coreDo_frame _ _ _ _ _).after (by decide) ?_)

theorem execShr_frame (op : CoreOp) (dd da n : Nat) (s : State) :
    Answers (execShr op dd da n s) (Only [.anvil, .time, .sched, .ctxs, .qf, .flt, .light, .bus, .pwr, .ces, .acc, .free] s) := by
  unfold execShr; repeat' (first
      | with_reducible refine Answers.next ?_ | with_reducible exact Only.refl _ _ | with_reducible refine (coreDo_frame _ _ _ _ _).after (by decide) ?_)

theorem execBudgetTrap_frame (c : Nat) (s : State) :
    Answers (execBudgetTrap c s) (Only [.anvil, .time, .sched, .ctxs, .qf, .flt, .light, .bus, .pwr, .ces, .acc, .free] s) := by
  unfold execBudgetTrap; repeat' (first
      | with_reducible refine Answers.next ?_ | with_reducible exact Only.refl _ _ | with_reducible refine (endTrap_frame _ _ _).after (by decide) ?_
      | with_reducible refine Answers.ite ?_ ?_ | with_reducible refine Only.ite ?_ ?_)

theorem execAnd_frame (op : CoreOp) (dd da db : Nat) (s : State) :
    Answers (execAnd op dd da db s) (Only [.anvil, .time, .sched, .ctxs, .qf, .flt, .light, .bus, .pwr, .ces, .acc, .free] s) := by
  unfold execAnd; repeat' (first
      | with_reducible refine Answers.next ?_ | with_reducible exact Only.refl _ _ | with_reducible refine (coreFree_frame _ _ _).after (by decide) ?_)

theorem execDo_frame (op : CoreOp) (reg : Bool) (dn count : Nat) (lend : BitVec 16) (s : State) :
    Answers (execDo op reg dn count lend s) (Only [.anvil, .time, .sched, .ctxs, .qf, .flt, .light, .bus, .pwr, .ces, .acc, .free] s) := by
  unfold execDo; repeat' (first
      | with_reducible refine Answers.next ?_ | with_reducible exact Only.refl _ _ | with_reducible refine (coreDo_frame _ _ _ _ _).after (by decide) ?_)

theorem execQueuePortClearMark_frame (op : CoreOp) (p : Nat) (s : State) :
    Answers (execQueuePortClearMark op p s) (Only [.anvil, .time, .sched, .ctxs, .qf, .flt, .light, .bus, .pwr, .ces, .acc, .free] s) := by
  unfold execQueuePortClearMark; repeat' (first
      | with_reducible refine Answers.next ?_ | with_reducible exact Only.refl _ _ | with_reducible refine (coreDo_frame _ _ _ _ _).after (by decide) ?_)

theorem execMacf_frame (op : CoreOp) (aa da db : Nat) (s : State) :
    Answers (execMacf op aa da db s) (Only [.anvil, .time, .sched, .ctxs, .qf, .flt, .light, .bus, .pwr, .ces, .acc, .free] s) := by
  unfold execMacf; repeat' (first
      | with_reducible refine Answers.next ?_ | with_reducible exact Only.refl _ _ | with_reducible refine (coreDo_frame _ _ _ _ _).after (by decide) ?_)

theorem execTblRead_frame (op : CoreOp) (dn : Nat) (s : State) :
    Answers (execTblRead op dn s) (Only [.anvil, .time, .sched, .ctxs, .qf, .flt, .light, .bus, .pwr, .ces, .acc, .free] s) := by
  unfold execTblRead; repeat' (first
      | with_reducible refine Answers.next ?_ | with_reducible exact Only.refl _ _ | with_reducible refine (coreDo_frame _ _ _ _ _).after (by decide) ?_)

theorem execSub_frame (op : CoreOp) (dd da db : Nat) (s : State) :
    Answers (execSub op dd da db s) (Only [.anvil, .time, .sched, .ctxs, .qf, .flt, .light, .bus, .pwr, .ces, .acc, .free] s) := by
  unfold execSub; repeat' (first
      | with_reducible refine Answers.next ?_ | with_reducible exact Only.refl _ _ | with_reducible refine (coreDo_frame _ _ _ _ _).after (by decide) ?_)

theorem execBfly_frame (op : CoreOp) (dn : Nat) (scale : Bool) (cut : Option Nat) (s : State) :
    Answers (execBfly op dn scale cut s) (Only [.anvil, .time, .sched, .ctxs, .qf, .flt, .light, .bus, .pwr, .ces, .acc, .free] s) := by
  unfold execBfly; repeat' (first
      | with_reducible refine Answers.next ?_ | with_reducible exact Only.refl _ _ | with_reducible refine (coreDo_frame _ _ _ _ _).after (by decide) ?_)

theorem execCall_frame (op : CoreOp) (target : BitVec 16) (s : State) :
    Answers (execCall op target s) (Only [.anvil, .time, .sched, .ctxs, .qf, .flt, .light, .bus, .pwr, .ces, .acc, .free] s) := by
  unfold execCall; repeat' (first
      | with_reducible refine Answers.next ?_ | with_reducible exact Only.refl _ _ | with_reducible refine (coreDo_frame _ _ _ _ _).after (by decide) ?_)

theorem execQueuePortPush_frame (op : CoreOp) (p : Nat) (s : State) :
    Answers (execQueuePortPush op p s) (Only [.anvil, .time, .sched, .ctxs, .qf, .flt, .light, .bus, .pwr, .ces, .acc, .free] s) := by
  unfold execQueuePortPush; repeat' (first
      | with_reducible refine Answers.next ?_ | with_reducible exact Only.refl _ _ | with_reducible refine (coreDo_frame _ _ _ _ _).after (by decide) ?_)
end Sys2Proof.Machine
end

