-- ==== Sys2Proof/Laws/Tasks.lean ====
section
/-! SUPPORT. What each operation of Machine/Tasks.lean leaves as it is: one law per operation, which names the parts of the state it may change. -/

namespace Sys2Proof.Machine

theorem recordGens_frame (t : Nat) (s : State) : Only [.ces] s (recordGens t s) := by
  unfold recordGens; with_reducible exact (onTask_frame _ _ _).sub (by decide)

theorem taskControlSpec_frame (r : Req) (s : State) : Only [.qf, .ces] s (taskControlSpec.run r s).st := by
  unfold taskControlSpec; repeat' (first
      | with_reducible exact Only.refl _ _ | with_reducible refine (onTask_frame _ _ _).after (by decide) ?_
      | with_reducible refine (recordGens_frame _ _).after (by decide) ?_ | with_reducible refine (closeProducer_frame _ _ _).after (by decide) ?_
      | with_reducible refine Only.ite ?_ ?_)

theorem taskStatusSpec_frame (r : Req) (s : State) : Only [] s (taskStatusSpec.run r s).st := by
  exact Only.refl _ _

theorem taskParamSpec_frame (r : Req) (s : State) : Only [.ces] s (taskParamSpec.run r s).st := by
  unfold taskParamSpec; try simp only []; repeat' (first | with_reducible exact Only.refl _ _ | with_reducible refine (onCore_frame _ _ _).after (by decide) ?_ | split)

theorem coreStatusSpec_frame (r : Req) (s : State) : Only [] s (coreStatusSpec.run r s).st := by
  exact Only.refl _ _

theorem applyPort_frame (x0 : Port) (s : State) : Only [.qf] s (applyPort x0 s) := by
  unfold applyPort; repeat' (first | with_reducible exact Only.refl _ _ | with_reducible refine (onQueue_frame _ _ _).after (by decide) ?_ | split)

theorem taskCommand_frame (x0 x1 x2 : Nat) (x3 : List (Nat × Nat × W24)) (x4 : State) :
    Only [.com, .anvil, .time, .ctxs, .qf, .flt, .light, .bus, .pwr, .ces, .acc, .free] x4 (taskCommand x0 x1 x2 x3 x4) := by
  unfold taskCommand
  split
  · exact Only.refl _ _
  · rename_i o ho
    have hk : ∀ o ∈ setSpecs, ∀ r s, Only [.com, .anvil, .time, .ctxs, .qf, .flt, .light, .bus, .pwr, .ces, .acc, .free] s (o.run r s).st := by
      intro o h
      simp only [setSpecs, List.mem_cons, List.not_mem_nil, or_false] at h
      rcases h with rfl | rfl | rfl | rfl
      · exact fun r s => (chSetSpec_frame r s).sub (by decide)
      · exact fun r s => (indSetSpec_frame r s).sub (by decide)
      · exact fun r s => (brSetSpec_frame r s).sub (by decide)
      · exact fun r s => (lsSetSpec_frame r s).sub (by decide)
    have hr := hk o (List.mem_of_find?_eq_some ho)
    dsimp only
    split
    · exact hr _ _
    · split
      · exact (raise_frame _ _ _).after (by decide) ((onTask_frame _ _ _).sub (by decide))
      · exact (raiseD_frame _ _ _ _).after (by decide) ((onTask_frame _ _ _).sub (by decide))

theorem cesynStart_frame (s : State) : Only [.qf, .ces] s (cesynStart s) := by
  unfold cesynStart; repeat' (first
      | with_reducible exact Only.refl _ _ | with_reducible refine (closeProducer_frame _ _ _).after (by decide) ?_
      | with_reducible refine (onCes_frame _ _).after (by decide) ?_)

theorem endTask_frame (c t : Nat) (s : State) : Only [.qf, .ces] s (endTask c t s) := by
  unfold endTask; repeat' (first
      | with_reducible exact Only.refl _ _ | with_reducible refine (onTask_frame _ _ _).after (by decide) ?_
      | with_reducible refine (applyPort_frame _ _).after (by decide) ?_ | with_reducible refine (onCore_frame _ _ _).after (by decide) ?_
      | with_reducible refine (onCes_frame _ _).after (by decide) ?_ | with_reducible refine Only.foldl _ (fun s a => ?_) _ ?_)

theorem coresFrameStart_frame (s : State) : Only [.ces] s (coresFrameStart s) := by
  unfold coresFrameStart; repeat' (first
      | with_reducible exact Only.refl _ _ | with_reducible refine (onCore_frame _ _ _).after (by decide) ?_
      | with_reducible refine Only.foldl _ (fun s a => ?_) _ ?_)

theorem pushCells_frame (x0 : Nat) (x1 : List Cell) (x2 : State) : Only [.qf] x2 (pushCells x0 x1 x2) := by
  induction x1 generalizing x2 with
  | nil => exact Only.refl _ _
  | cons c t ih =>
    unfold pushCells
    exact Only.trans ((qNotices_frame _ _ _).after (by decide) ((onQueue_frame _ _ _).after (by decide) (Only.ite ((closeQueue_frame _ _ _).sub (by decide)) (Only.refl _ _)))) (ih _)

theorem taskPush_frame (s : State) (e : Nat × List Cell) : Only [.qf] s (taskPush s e) := by
  unfold taskPush; repeat' (first
      | with_reducible exact Only.refl _ _ | with_reducible refine (pushCells_frame _ _ _).after (by decide) ?_ | with_reducible refine Only.ite ?_ ?_)

theorem applyStaged_frame (x0 : Staged) (s : State) : Only [.com, .anvil, .time, .ctxs, .qf, .flt, .light, .bus, .pwr, .ces, .acc, .free] s (applyStaged x0 s) := by
  unfold applyStaged; repeat' (first
      | with_reducible exact Only.refl _ _ | with_reducible refine (taskCommand_frame _ _ _ _ _).after (by decide) ?_
      | with_reducible refine (onCom_frame _ _).after (by decide) ?_ | with_reducible refine (taskPush_frame _ _).after (by decide) ?_
      | with_reducible refine Only.foldl _ (fun s a => ?_) _ ?_)

theorem applyTasks_frame (s : State) : Only [.com, .anvil, .time, .ctxs, .qf, .flt, .light, .bus, .pwr, .ces, .acc, .free] s (applyTasks s) := by
  unfold applyTasks; repeat' (first
      | with_reducible exact Only.refl _ _ | with_reducible refine (onCes_frame _ _).after (by decide) ?_
      | with_reducible refine (applyStaged_frame _ _).after (by decide) ?_ | with_reducible refine Only.foldl _ (fun s a => ?_) _ ?_)

theorem autoGens_frame (s : State) : Only [.ces] s (autoGens s) := by
  unfold autoGens; repeat' (first
      | with_reducible exact Only.refl _ _ | with_reducible refine (recordGens_frame _ _).after (by decide) ?_ | with_reducible refine Only.ite ?_ ?_
      | with_reducible refine Only.foldl _ (fun s a => ?_) _ ?_)

theorem execTend_frame (op : CoreOp) (s : State) : Answers (execTend op s) (Only [.anvil, .time, .sched, .ctxs, .qf, .flt, .light, .bus, .pwr, .ces, .acc, .free] s) := by
  unfold execTend; repeat' (first
      | with_reducible refine Answers.next ?_ | with_reducible exact Only.refl _ _ | with_reducible refine (safeTrap_frame _ _).after (by decide) ?_
      | with_reducible refine (endTrap_frame _ _ _).after (by decide) ?_ | with_reducible refine (onCore_frame _ _ _).after (by decide) ?_
      | with_reducible refine (endTask_frame _ _ _).after (by decide) ?_ | with_reducible refine Answers.ite ?_ ?_
      | with_reducible refine Only.ite ?_ ?_ | split | dsimp only)
end Sys2Proof.Machine
end

