-- ==== Sys2Proof/Laws/Access.lean ====
section
/-! SUPPORT. What each operation of Machine/Access.lean leaves as it is: one law per operation, which names the parts of the state it may change. -/

namespace Sys2Proof.Machine

theorem onAcc_frame (f : Acc → Acc) (s : State) : Only [.acc] s (onAcc f s) := by
  intro p hp; cases p <;> first | rfl | exact absurd (by decide) hp

theorem onAtt_frame (f : Attempt → Attempt) (s : State) : Only [.acc] s (onAtt f s) := by
  intro p hp; cases p <;> first | rfl | exact absurd (by decide) hp

theorem attMerge_frame (f : Attempt → Attempt) (s : State) : Only [.acc] s (attMerge f s) := by
  unfold attMerge; repeat' (first
      | with_reducible exact Only.refl _ _ | with_reducible refine (onAcc_frame _ _).after (by decide) ?_
      | with_reducible refine (onAtt_frame _ _).after (by decide) ?_ | with_reducible refine Only.ite ?_ ?_)

theorem attPlace_frame (x0 : Attempt) (s : State) : Only [.acc] s (attPlace x0 s) := by
  unfold attPlace; repeat' (first | with_reducible exact Only.refl _ _ | with_reducible refine (onAcc_frame _ _).after (by decide) ?_ | split)

theorem accTrigger_frame (s : State) : Only [.acc] s (accTrigger s) := by
  unfold accTrigger; repeat' (first
      | with_reducible exact Only.refl _ _ | with_reducible refine (onAcc_frame _ _).after (by decide) ?_
      | with_reducible refine (attMerge_frame _ _).after (by decide) ?_ | with_reducible refine (attPlace_frame _ _).after (by decide) ?_
      | with_reducible refine Only.ite ?_ ?_ | split)

theorem execDebouncedEdge_frame (n : Nat) (v : Bool) (s : State) : Answers (execDebouncedEdge n v s) (Only [.anvil, .time, .qf, .pwr, .acc] s) := by
  unfold execDebouncedEdge; repeat' (first
      | with_reducible refine Answers.next ?_ | with_reducible exact Only.refl _ _ | with_reducible refine (inputEdge_frame _ _ _).after (by decide) ?_
      | with_reducible refine (onAcc_frame _ _).after (by decide) ?_ | with_reducible refine (accTrigger_frame _).after (by decide) ?_
      | with_reducible refine Answers.ite ?_ ?_ | with_reducible refine Only.ite ?_ ?_)

theorem onImmo_frame (f : Immo → Immo) (s : State) : Only [.acc] s (onImmo f s) := by
  intro p hp; cases p <;> first | rfl | exact absurd (by decide) hp

theorem immoSend_frame (o : Nat) (fd : Bool) (dlc : Nat) (data : Rec) (s : State) : Only [.qf] s (immoSend o fd dlc data s) := by
  unfold immoSend; repeat' (first
      | with_reducible exact Only.refl _ _ | with_reducible refine (admitEntry_frame _ _ _).after (by decide) ?_ | with_reducible refine Only.ite ?_ ?_)

theorem immoRelease_frame (st : Nat) (s : State) : Only [.qf, .acc] s (immoRelease st s) := by
  unfold immoRelease; repeat' (first
      | with_reducible exact Only.refl _ _ | with_reducible refine (onImmo_frame _ _).after (by decide) ?_
      | with_reducible refine (immoSend_frame _ _ _ _ _).after (by decide) ?_)

theorem accNotify_frame (kind : Nat) (data : Rec) (s : State) : Only [.qf] s (accNotify kind data s) := by
  unfold accNotify; repeat' (first
      | with_reducible exact Only.refl _ _ | with_reducible refine (notify_frame _ _ _ _).after (by decide) ?_ | with_reducible refine Only.ite ?_ ?_
      | with_reducible refine Only.foldl _ (fun s a => ?_) _ ?_)

theorem accDecision_frame (e : Rec) (s : State) : Only [.qf, .acc] s (accDecision e s) := by
  unfold accDecision; repeat' (first
      | with_reducible exact Only.refl _ _ | with_reducible refine (accNotify_frame _ _ _).after (by decide) ?_
      | with_reducible refine (admitEntry_frame _ _ _).after (by decide) ?_ | with_reducible refine (onAcc_frame _ _).after (by decide) ?_)

theorem onLock_frame (kind id : Nat) (f : LockRec → LockRec) (s : State) : Only [.acc] s (onLock kind id f s) := by
  intro p hp; cases p <;> first | rfl | exact absurd (by decide) hp

theorem accFail_frame (path : Nat) (ident : Option (Nat × Nat)) (s : State) :
    Only [.anvil, .time, .ctxs, .qf, .flt, .light, .bus, .pwr, .ces, .acc, .free] s (accFail path ident s) := by
  unfold accFail; repeat' (first
      | with_reducible exact Only.refl _ _ | with_reducible refine (onAcc_frame _ _).after (by decide) ?_
      | with_reducible refine (onLock_frame _ _ _ _).after (by decide) ?_ | with_reducible refine (raise_frame _ _ _).after (by decide) ?_
      | with_reducible refine (onAtt_frame _ _).after (by decide) ?_ | split)

theorem accValid_frame (kind id : Nat) (s : State) : Only [.acc] s (accValid kind id s) := by
  unfold accValid; with_reducible exact (onLock_frame _ _ _ _).sub (by decide)

theorem immoEvent_frame (ev cause : Nat) (s : State) : Only [.qf] s (immoEvent ev cause s) := by
  unfold immoEvent; with_reducible exact (accNotify_frame _ _ _).sub (by decide)

theorem immoPair_frame (s : State) : Only [.qf, .acc] s (immoPair s) := by
  unfold immoPair; repeat' (first
      | with_reducible exact Only.refl _ _ | with_reducible refine (immoSend_frame _ _ _ _ _).after (by decide) ?_
      | with_reducible refine (onImmo_frame _ _).after (by decide) ?_)

theorem immoBegin_frame (s : State) : Only [.qf, .acc] s (immoBegin s) := by
  unfold immoBegin; repeat' (first
      | with_reducible exact Only.refl _ _ | with_reducible refine (onImmo_frame _ _).after (by decide) ?_
      | with_reducible refine (immoEvent_frame _ _ _).after (by decide) ?_ | with_reducible refine (immoPair_frame _).after (by decide) ?_
      | with_reducible refine Only.ite ?_ ?_)

theorem immoEnd_frame (cause : Nat) (s : State) : Only [.qf, .acc] s (immoEnd cause s) := by
  unfold immoEnd; repeat' (first
      | with_reducible exact Only.refl _ _ | with_reducible refine (onImmo_frame _ _).after (by decide) ?_
      | with_reducible refine (immoRelease_frame _ _).after (by decide) ?_ | with_reducible refine (immoEvent_frame _ _ _).after (by decide) ?_
      | with_reducible refine Only.ite ?_ ?_)

theorem lfQuiet_frame (s : State) : Only [.acc] s (lfQuiet s) := by
  unfold lfQuiet; with_reducible exact (onAcc_frame _ _).sub (by decide)

theorem attEnd_frame (s : State) : Only [.acc] s (attEnd s) := by
  unfold attEnd; with_reducible exact (onAcc_frame _ _).sub (by decide)

theorem attComplete_frame (x0 : Attempt) (e : Rec) (s : State) : Only [.qf] s (attComplete x0 e s) := by
  unfold attComplete; repeat' (first
      | with_reducible exact Only.refl _ _ | with_reducible refine (completion_frame _ _ _ _ _ _ _).after (by decide) ?_ | with_reducible refine Only.ite ?_ ?_)

theorem attAbort_frame (cause : Nat) (s : State) : Only [.qf, .acc] s (attAbort cause s) := by
  unfold attAbort; repeat' (first
      | with_reducible exact Only.refl _ _ | with_reducible refine (lfQuiet_frame _).after (by decide) ?_
      | with_reducible refine (attEnd_frame _).after (by decide) ?_ | with_reducible refine (attComplete_frame _ _ _).after (by decide) ?_
      | with_reducible refine (accDecision_frame _ _).after (by decide) ?_ | with_reducible refine (completion_frame _ _ _ _ _ _ _).after (by decide) ?_
      | with_reducible refine (onAcc_frame _ _).after (by decide) ?_ | with_reducible refine Only.ite ?_ ?_ | split)

theorem accLinkLost_frame (s : State) : Only [.qf, .acc] s (accLinkLost s) := by
  unfold accLinkLost; repeat' (first
      | with_reducible exact Only.refl _ _ | with_reducible refine (attAbort_frame _ _).after (by decide) ?_ | with_reducible refine Only.ite ?_ ?_)

theorem accRejoined_frame (s : State) : Only [.qf, .acc] s (accRejoined s) := by
  unfold accRejoined; repeat' (first
      | with_reducible exact Only.refl _ _ | with_reducible refine (accDecision_frame _ _).after (by decide) ?_
      | with_reducible refine (onAcc_frame _ _).after (by decide) ?_ | with_reducible refine (immoEvent_frame _ _ _).after (by decide) ?_
      | with_reducible refine (accTrigger_frame _).after (by decide) ?_ | with_reducible refine Only.ite ?_ ?_ | split)

theorem immoNonce_frame (ne : Rec) (s : State) : Only [.qf, .acc, .keys, .free] s (immoNonce ne s) := by
  unfold immoNonce; repeat' (first
      | with_reducible exact Only.refl _ _ | with_reducible refine (takeUse_frame _ _).after (by decide) ?_
      | with_reducible refine (useFree_frame _).after (by decide) ?_ | with_reducible refine (onImmo_frame _ _).after (by decide) ?_
      | with_reducible refine (immoEvent_frame _ _ _).after (by decide) ?_ | with_reducible refine (immoRelease_frame _ _).after (by decide) ?_
      | with_reducible refine (immoSend_frame _ _ _ _ _).after (by decide) ?_ | with_reducible refine Only.ite ?_ ?_)

theorem execLockRepeatReset_frame (kind id : Nat) (s : State) : Answers (execLockRepeatReset kind id s) (Only [.time, .qf, .acc] s) := by
  unfold execLockRepeatReset; repeat' (first
      | with_reducible refine Answers.next ?_ | with_reducible exact Only.refl _ _ | with_reducible refine (onLock_frame _ _ _ _).after (by decide) ?_
      | with_reducible refine (advTo_frame _ _).after (by decide) ?_ | with_reducible refine Answers.ite ?_ ?_
      | with_reducible refine Only.ite ?_ ?_ | split | dsimp only)

theorem execImmoAbsentTimeout_frame (s : State) : Answers (execImmoAbsentTimeout s) (Only [.time, .qf, .acc] s) := by
  unfold execImmoAbsentTimeout; repeat' (first
      | with_reducible refine Answers.next ?_ | with_reducible exact Only.refl _ _ | with_reducible refine (immoEnd_frame _ _).after (by decide) ?_
      | with_reducible refine (advTo_frame _ _).after (by decide) ?_ | split)

theorem execImmoReqRetry_frame (s : State) : Answers (execImmoReqRetry s) (Only [.anvil, .time, .ctxs, .qf, .flt, .light, .bus, .pwr, .ces, .acc, .free] s) := by
  unfold execImmoReqRetry; repeat' (first
      | with_reducible refine Answers.next ?_ | with_reducible exact Only.refl _ _ | with_reducible refine (advTo_frame _ _).after (by decide) ?_
      | with_reducible refine (immoSend_frame _ _ _ _ _).after (by decide) ?_ | with_reducible refine (onImmo_frame _ _).after (by decide) ?_
      | with_reducible refine (immoEvent_frame _ _ _).after (by decide) ?_ | with_reducible refine (raise_frame _ _ _).after (by decide) ?_
      | with_reducible refine Answers.ite ?_ ?_ | with_reducible refine Only.ite ?_ ?_)

theorem accStart_frame (s : State) : Only [.acc] s (accStart s) := by
  unfold accStart; with_reducible exact (onAcc_frame _ _).sub (by decide)

theorem execLfPlanStart_frame (s : State) : Answers (execLfPlanStart s) (Only [.qf, .acc] s) := by
  unfold execLfPlanStart; repeat' (first
      | with_reducible refine Answers.next ?_ | with_reducible exact Only.refl _ _ | with_reducible refine (attAbort_frame _ _).after (by decide) ?_
      | with_reducible refine (onAtt_frame _ _).after (by decide) ?_ | with_reducible refine Answers.ite ?_ ?_ | with_reducible refine Only.ite ?_ ?_ | split)

theorem accModeSwitch_frame (old new : Nat) (s : State) : Only [.qf, .acc] s (accModeSwitch old new s) := by
  unfold accModeSwitch; repeat' (first
      | with_reducible exact Only.refl _ _ | with_reducible refine (attAbort_frame _ _).after (by decide) ?_
      | with_reducible refine (onAtt_frame _ _).after (by decide) ?_ | with_reducible refine Only.ite ?_ ?_ | split | dsimp only)

theorem accFrameStart_frame (s : State) : Only [.qf, .acc] s (accFrameStart s) := by
  unfold accFrameStart; repeat' (first
      | with_reducible exact Only.refl _ _ | with_reducible refine (onAcc_frame _ _).after (by decide) ?_
      | with_reducible refine (attEnd_frame _).after (by decide) ?_ | with_reducible refine (attAbort_frame _ _).after (by decide) ?_
      | with_reducible refine (lfQuiet_frame _).after (by decide) ?_ | with_reducible refine Only.ite ?_ ?_ | split)

theorem immoTake_frame (s : State) : Only [.qf, .acc, .keys, .free] s (immoTake s) := by
  unfold immoTake; repeat' (first
      | with_reducible exact Only.refl _ _ | with_reducible refine (onQueue_frame _ _ _).after (by decide) ?_
      | with_reducible refine (immoNonce_frame _ _).after (by decide) ?_ | with_reducible refine Only.ite ?_ ?_
      | with_reducible refine Only.foldl _ (fun s a => ?_) _ ?_)

theorem calDone_frame (s : State) : Only [.anvil, .time, .ctxs, .qf, .flt, .light, .bus, .pwr, .ces, .acc, .free] s (calDone s) := by
  unfold calDone; repeat' (first
      | with_reducible exact Only.refl _ _ | with_reducible refine (onAcc_frame _ _).after (by decide) ?_
      | with_reducible refine (completion_frame _ _ _ _ _ _ _).after (by decide) ?_ | with_reducible refine (raise_frame _ _ _).after (by decide) ?_
      | with_reducible refine Only.ite ?_ ?_ | split)

theorem execLfAerialFault_frame (n : Nat) (short : Bool) (s : State) :
    Answers (execLfAerialFault n short s) (Only [.anvil, .time, .ctxs, .qf, .flt, .light, .bus, .pwr, .ces, .acc, .free] s) := by
  unfold execLfAerialFault; repeat' (first
      | with_reducible refine Answers.next ?_ | with_reducible exact Only.refl _ _ | with_reducible refine (onAcc_frame _ _).after (by decide) ?_
      | with_reducible refine (onAtt_frame _ _).after (by decide) ?_ | with_reducible refine (raise_frame _ _ _).after (by decide) ?_
      | with_reducible refine Answers.ite ?_ ?_ | with_reducible refine Only.ite ?_ ?_)

theorem execResweepStart_frame (s : State) : Answers (execResweepStart s) (Only [.time, .qf, .acc] s) := by
  unfold execResweepStart; repeat' (first
      | with_reducible refine Answers.next ?_ | with_reducible exact Only.refl _ _ | with_reducible refine (lfQuiet_frame _).after (by decide) ?_
      | with_reducible refine (advTo_frame _ _).after (by decide) ?_ | with_reducible refine (onAtt_frame _ _).after (by decide) ?_ | split)

theorem judge_frame (x0 : Attempt) (t : Tb) (x2 : Nat) (p : Rec) (s : State) :
    Only [.anvil, .time, .ctxs, .qf, .flt, .light, .bus, .pwr, .ces, .acc, .keys, .free] s (judge x0 t x2 p s) := by
  unfold judge; repeat' (first
      | with_reducible exact Only.refl _ _ | with_reducible refine (accFail_frame _ _ _).after (by decide) ?_
      | with_reducible refine (raise_frame _ _ _).after (by decide) ?_ | with_reducible refine (onAtt_frame _ _).after (by decide) ?_
      | with_reducible refine (takeUse_frame _ _).after (by decide) ?_ | with_reducible refine (accValid_frame _ _ _).after (by decide) ?_
      | with_reducible refine Only.ite ?_ ?_ | split)

theorem execUhfReply_frame (t : Tb) (p : Option Rec) (s : State) :
    Answers (execUhfReply t p s) (Only [.anvil, .time, .ctxs, .qf, .flt, .light, .bus, .pwr, .ces, .acc, .keys, .free] s) := by
  unfold execUhfReply; repeat' (first
      | with_reducible refine Answers.next ?_ | with_reducible exact Only.refl _ _ | with_reducible refine (advTo_frame _ _).after (by decide) ?_
      | with_reducible refine (onAtt_frame _ _).after (by decide) ?_ | with_reducible refine (onAcc_frame _ _).after (by decide) ?_
      | with_reducible refine (judge_frame _ _ _ _ _).after (by decide) ?_ | with_reducible refine Answers.ite ?_ ?_
      | with_reducible refine Only.ite ?_ ?_ | split | dsimp only)

theorem accPor_frame (s : State) : Only [.acc] s (accPor s) := by
  unfold accPor; with_reducible exact (onAcc_frame _ _).sub (by decide)

theorem execCalRepeat_frame (s : State) : Answers (execCalRepeat s) (Only [.time, .qf, .acc] s) := by
  unfold execCalRepeat; repeat' (first
      | with_reducible refine Answers.next ?_ | with_reducible exact Only.refl _ _ | with_reducible refine (advTo_frame _ _).after (by decide) ?_
      | with_reducible refine (onAcc_frame _ _).after (by decide) ?_ | with_reducible refine Answers.ite ?_ ?_ | with_reducible refine Only.ite ?_ ?_)

theorem execLoopbackMeasurement_frame (d : Int) (s : State) :
    Answers (execLoopbackMeasurement d s) (Only [.anvil, .time, .ctxs, .qf, .flt, .light, .bus, .pwr, .ces, .acc, .free] s) := by
  unfold execLoopbackMeasurement; repeat' (first
      | with_reducible refine Answers.next ?_ | with_reducible exact Only.refl _ _ | with_reducible refine (onAcc_frame _ _).after (by decide) ?_
      | with_reducible refine (calDone_frame _).after (by decide) ?_ | split)

theorem decide__frame (x0 : Attempt) (s : State) : Only [.qf, .acc] s (decide_ x0 s) := by
  unfold decide_; repeat' (first
      | with_reducible exact Only.refl _ _ | with_reducible refine (attComplete_frame _ _ _).after (by decide) ?_
      | with_reducible refine (accDecision_frame _ _).after (by decide) ?_ | with_reducible refine (immoBegin_frame _).after (by decide) ?_
      | with_reducible refine (onImmo_frame _ _).after (by decide) ?_ | with_reducible refine (onAtt_frame _ _).after (by decide) ?_
      | with_reducible refine (attEnd_frame _).after (by decide) ?_ | with_reducible refine Only.ite ?_ ?_ | split)

theorem execLockExpiry_frame (kind id : Nat) (s : State) : Answers (execLockExpiry kind id s) (Only [.time, .qf, .acc] s) := by
  unfold execLockExpiry; repeat' (first
      | with_reducible refine Answers.next ?_ | with_reducible exact Only.refl _ _ | with_reducible refine (onLock_frame _ _ _ _).after (by decide) ?_
      | with_reducible refine (advTo_frame _ _).after (by decide) ?_ | split)

theorem pollDone_frame (x0 : Attempt) (s : State) : Only [.acc] s (pollDone x0 s) := by
  unfold pollDone; repeat' (first
      | with_reducible exact Only.refl _ _ | with_reducible refine (attEnd_frame _).after (by decide) ?_
      | with_reducible refine (onImmo_frame _ _).after (by decide) ?_ | with_reducible refine Only.ite ?_ ?_)

theorem execLfStepStart_frame (s : State) : Answers (execLfStepStart s) (Only [.time, .qf, .acc, .free] s) := by
  unfold execLfStepStart; repeat' (first
      | with_reducible refine Answers.next ?_ | with_reducible exact Only.refl _ _ | with_reducible refine (attAbort_frame _ _).after (by decide) ?_
      | with_reducible refine (advTo_frame _ _).after (by decide) ?_ | with_reducible refine (lfQuiet_frame _).after (by decide) ?_
      | with_reducible refine (onAtt_frame _ _).after (by decide) ?_ | with_reducible refine (onAcc_frame _ _).after (by decide) ?_
      | with_reducible refine (useFree_frame _).after (by decide) ?_ | split)

theorem execCanFrameReceived_frame (p w d : Nat) (data : Rec) (s : State) :
    Answers (execCanFrameReceived p w d data s) (Only [.anvil, .time, .ctxs, .qf, .flt, .light, .bus, .pwr, .ces, .acc, .keys, .free] s) := by
  unfold execCanFrameReceived; repeat' (first
      | with_reducible refine Answers.next ?_ | with_reducible exact Only.refl _ _ | with_reducible refine (canReceive_frame _ _ _ _ _).after (by decide) ?_
      | with_reducible refine (immoTake_frame _).after (by decide) ?_ | with_reducible refine Answers.ite ?_ ?_ | with_reducible refine Only.ite ?_ ?_)

theorem execAccessDecision_frame (s : State) : Answers (execAccessDecision s) (Only [.anvil, .time, .ctxs, .qf, .flt, .light, .bus, .pwr, .ces, .acc, .free] s) := by
  unfold execAccessDecision; repeat' (first
      | with_reducible refine Answers.next ?_ | with_reducible exact Only.refl _ _ | with_reducible refine (lfQuiet_frame _).after (by decide) ?_
      | with_reducible refine (advTo_frame _ _).after (by decide) ?_ | with_reducible refine (attAbort_frame _ _).after (by decide) ?_
      | with_reducible refine (pollDone_frame _ _).after (by decide) ?_ | with_reducible refine (attEnd_frame _).after (by decide) ?_
      | with_reducible refine (calDone_frame _).after (by decide) ?_ | with_reducible refine (onAcc_frame _ _).after (by decide) ?_
      | with_reducible refine (onAtt_frame _ _).after (by decide) ?_ | with_reducible refine (decide__frame _ _).after (by decide) ?_
      | with_reducible refine Answers.ite ?_ ?_ | with_reducible refine Only.ite ?_ ?_ | split)

theorem execPresencePoll_frame (s : State) : Answers (execPresencePoll s) (Only [.time, .qf, .acc] s) := by
  unfold execPresencePoll; repeat' (first
      | with_reducible refine Answers.next ?_ | with_reducible exact Only.refl _ _ | with_reducible refine (onImmo_frame _ _).after (by decide) ?_
      | with_reducible refine (advTo_frame _ _).after (by decide) ?_ | with_reducible refine (onAcc_frame _ _).after (by decide) ?_
      | with_reducible refine Answers.ite ?_ ?_ | with_reducible refine Only.ite ?_ ?_)

theorem execImmoReleasePeriod_frame (s : State) : Answers (execImmoReleasePeriod s) (Only [.time, .qf, .acc] s) := by
  unfold execImmoReleasePeriod; repeat' (first
      | with_reducible refine Answers.next ?_ | with_reducible exact Only.refl _ _ | with_reducible refine (advTo_frame _ _).after (by decide) ?_
      | with_reducible refine (immoPair_frame _).after (by decide) ?_ | with_reducible refine (immoRelease_frame _ _).after (by decide) ?_
      | with_reducible refine (onImmo_frame _ _).after (by decide) ?_ | with_reducible refine Answers.ite ?_ ?_ | with_reducible refine Only.ite ?_ ?_)
end Sys2Proof.Machine
end

