-- ==== Sys2Proof/Laws/AccessCmds.lean ====
section
/-! SUPPORT. What each operation of Machine/AccessCmds.lean leaves as it is: one law per operation, which names the parts of the state it may change. -/

namespace Sys2Proof.Machine

theorem accPresenceSpec_frame (r : Req) (s : State) : Only [.qf, .acc, .keys] s (accPresenceSpec.run r s).st := by
  unfold accPresenceSpec; repeat' (first
      | with_reducible exact Only.refl _ _ | with_reducible refine (takeUse_frame _ _).after (by decide) ?_
      | with_reducible refine (onImmo_frame _ _).after (by decide) ?_ | with_reducible refine Only.ite ?_ ?_)

theorem accRes_frame (s : State) : Only [] s (accRes s).st := by
  intro p hp; cases p <;> first | rfl | exact absurd (by decide) hp

theorem accConfigSpec_frame (r : Req) (s : State) : Only [.acc] s (accConfigSpec.run r s).st := by
  unfold accConfigSpec; repeat' (first
      | with_reducible exact Only.refl _ _ | with_reducible refine (accRes_frame _).after (by decide) ?_
      | with_reducible refine (onAcc_frame _ _).after (by decide) ?_)

theorem accStartSpec_frame (r : Req) (s : State) : Only [.acc] s (accStartSpec.run r s).st := by
  unfold accStartSpec; repeat' (first
      | with_reducible exact Only.refl _ _ | with_reducible refine (attMerge_frame _ _).after (by decide) ?_
      | with_reducible refine (attPlace_frame _ _).after (by decide) ?_ | with_reducible refine Only.ite ?_ ?_)

theorem accCalibrateSpec_frame (r : Req) (s : State) : Only [.acc] s (accCalibrateSpec.run r s).st := by
  unfold accCalibrateSpec; repeat' (first
      | with_reducible exact Only.refl _ _ | with_reducible refine (onAcc_frame _ _).after (by decide) ?_ | with_reducible refine Only.ite ?_ ?_)

theorem setExch_frame (e : Nat) (x1 : Option Exch) (s : State) : Only [.acc] s (setExch e x1 s) := by
  unfold setExch; with_reducible exact (onAcc_frame _ _).sub (by decide)

theorem accHelloSpec_frame (r : Req) (s : State) : Only [.acc, .free] s (accHelloSpec.run r s).st := by
  unfold accHelloSpec; repeat' (first
      | with_reducible exact Only.refl _ _ | with_reducible refine (useFree_frame _).after (by decide) ?_
      | with_reducible refine (setExch_frame _ _ _).after (by decide) ?_)

theorem phoneDecide_frame (ex : Nat) (x1 : Exch) (dec cause zone : Nat) (seq : BitVec 16) (s : State) :
    Only [.qf, .acc] s (phoneDecide ex x1 dec cause zone seq s).1 := by
  unfold phoneDecide; repeat' (first
      | with_reducible exact Only.refl _ _ | with_reducible refine (accDecision_frame _ _).after (by decide) ?_
      | with_reducible refine (setExch_frame _ _ _).after (by decide) ?_)

theorem accResponseSpec_frame (r : Req) (s : State) :
    Only [.anvil, .time, .ctxs, .qf, .flt, .light, .bus, .pwr, .ces, .acc, .keys, .free] s (accResponseSpec.run r s).st := by
  unfold accResponseSpec; try simp only []; repeat' (first
      | with_reducible exact Only.refl _ _ | with_reducible refine (accRes_frame _).after (by decide) ?_
      | with_reducible refine (takeUse_frame _ _).after (by decide) ?_ | with_reducible refine (raise_frame _ _ _).after (by decide) ?_
      | with_reducible refine (phoneDecide_frame _ _ _ _ _ _ _).after (by decide) ?_ | with_reducible refine (accFail_frame _ _ _).after (by decide) ?_
      | with_reducible refine (accValid_frame _ _ _).after (by decide) ?_ | with_reducible refine (immoBegin_frame _).after (by decide) ?_
      | with_reducible refine (onImmo_frame _ _).after (by decide) ?_ | split)

theorem immoStartSpec_frame (r : Req) (s : State) : Only [.qf, .acc] s (immoStartSpec.run r s).st := by
  unfold immoStartSpec; repeat' (first | ((try lift_lets); intro y; first | (refine Only.cut y ?c1 (fun hy => ?c2); (case' c1 => dsimp only [y]); (case' c2 => clear_value y)) | (have _h : State → State := y; clear _h; subst y) | (have _h : State → _ → State := y; clear _h; subst y) | clear_value y) | with_reducible exact Only.refl _ _ | with_reducible assumption | with_reducible refine (accRes_frame _).after (by decide) ?_ | with_reducible refine (onImmo_frame _ _).after (by decide) ?_ | with_reducible refine (immoBegin_frame _).after (by decide) ?_ | with_reducible refine (attPlace_frame _ _).after (by decide) ?_ | with_reducible refine Only.ite ?_ ?_ | with_reducible refine Only.foldl _ (fun s a => ?_) _ ?_ | split | dsimp only)

theorem immoRevokeSpec_frame (r : Req) (s : State) : Only [.qf, .acc] s (immoRevokeSpec.run r s).st := by
  unfold immoRevokeSpec; repeat' (first
      | with_reducible exact Only.refl _ _ | with_reducible refine (immoStartSpec_frame).after (by decide) ?_
      | with_reducible refine (accRes_frame _).after (by decide) ?_ | with_reducible refine (immoEnd_frame _ _).after (by decide) ?_)

theorem accStatusSpec_frame (r : Req) (s : State) : Only [] s (accStatusSpec.run r s).st := by
  exact Only.refl _ _

theorem accClearSpec_frame (r : Req) (s : State) : Only [.acc] s (accClearSpec.run r s).st := by
  unfold accClearSpec; repeat' (first
      | with_reducible exact Only.refl _ _ | with_reducible refine (accRes_frame _).after (by decide) ?_
      | with_reducible refine (onAcc_frame _ _).after (by decide) ?_)

theorem accLockClearSpec_frame (r : Req) (s : State) : Only [.acc] s (accLockClearSpec.run r s).st := by
  unfold accLockClearSpec; repeat' (first
      | with_reducible exact Only.refl _ _ | with_reducible refine (accRes_frame _).after (by decide) ?_
      | with_reducible refine (onLock_frame _ _ _ _).after (by decide) ?_)

theorem accLockStatusSpec_frame (r : Req) (s : State) : Only [] s (accLockStatusSpec.run r s).st := by
  exact Only.refl _ _

theorem accCtxReset_frame (s : State) : Only [.qf, .acc] s (accCtxReset s) := by
  unfold accCtxReset; repeat' (first
      | with_reducible exact Only.refl _ _ | with_reducible refine (phoneDecide_frame _ _ _ _ _ _ _).after (by decide) ?_
      | with_reducible refine Only.foldl _ (fun s a => ?_) _ ?_ | split)

theorem execPhoneExchangeTimeout_frame (e : Nat) (s : State) :
    Answers (execPhoneExchangeTimeout e s) (Only [.anvil, .time, .ctxs, .qf, .flt, .light, .bus, .pwr, .ces, .acc, .free] s) := by
  unfold execPhoneExchangeTimeout; repeat' (first
      | with_reducible refine Answers.next ?_ | with_reducible exact Only.refl _ _ | with_reducible refine (advTo_frame _ _).after (by decide) ?_
      | with_reducible refine (phoneDecide_frame _ _ _ _ _ _ _).after (by decide) ?_ | with_reducible refine (accFail_frame _ _ _).after (by decide) ?_ | split)
end Sys2Proof.Machine
end

