-- ==== Sys2Proof/Laws/Power.lean ====
section
/-! SUPPORT. What each operation of Machine/Power.lean leaves as it is: one law per operation, which names the parts of the state it may change. -/

namespace Sys2Proof.Machine

theorem parkTo_frame (pt : Nat) (s : State) : Only [.time] s (parkTo pt s) := by
  unfold parkTo; with_reducible exact (onTime_frame _ _).sub (by decide)

theorem execParkModelUpdate_frame (s : State) : Answers (execParkModelUpdate s) (Only [.anvil, .time, .pwr, .free] s) := by
  unfold execParkModelUpdate; repeat' (first
      | with_reducible refine Answers.next ?_ | with_reducible exact Only.refl _ _ | with_reducible refine (onPwr_frame _ _).after (by decide) ?_
      | with_reducible refine (parkTo_frame _ _).after (by decide) ?_ | with_reducible refine (coilPark_frame _ _).after (by decide) ?_
      | with_reducible refine (onChan_frame _ _ _).after (by decide) ?_ | with_reducible refine Answers.ite ?_ ?_ | with_reducible refine Only.ite ?_ ?_
      | with_reducible refine Only.foldl _ (fun s a => ?_) _ ?_)

theorem snsRails_frame (s : State) : Only [.anvil] s (snsRails s) := by
  unfold snsRails; with_reducible exact (onMon_frame _ _).sub (by decide)

theorem pwrConfigSpec_frame (r : Req) (s : State) : Only [.anvil, .pwr] s (pwrConfigSpec.run r s).st := by
  unfold pwrConfigSpec; try simp only [pwrShape]; repeat' (first
      | with_reducible exact Only.refl _ _ | with_reducible refine (snsRails_frame _).after (by decide) ?_
      | with_reducible refine (onPwr_frame _ _).after (by decide) ?_)

theorem pwrSetSpec_frame (r : Req) (s : State) : Only [.pwr] s (pwrSetSpec.run r s).st := by
  unfold pwrSetSpec; try simp only [pwrShape]; repeat' (first | ((try lift_lets); intro y; first | (refine Only.cut y ?c1 (fun hy => ?c2); (case' c1 => dsimp only [y]); (case' c2 => clear_value y)) | (have _h : State → State := y; clear _h; subst y) | (have _h : State → _ → State := y; clear _h; subst y) | clear_value y) | with_reducible exact Only.refl _ _ | with_reducible assumption | with_reducible refine (onPwr_frame _ _).after (by decide) ?_ | with_reducible refine Only.ite ?_ ?_ | with_reducible refine Only.foldl _ (fun s a => ?_) _ ?_ | split | dsimp only)

theorem pwrStatusSpec_frame (r : Req) (s : State) : Only [] s (pwrStatusSpec.run r s).st := by
  exact Only.refl _ _

theorem padReleaseSpec_frame (r : Req) (s : State) : Only [.pwr] s (padReleaseSpec.run r s).st := by
  unfold padReleaseSpec; try simp only [pwrShape]; repeat' (first | with_reducible exact Only.refl _ _ | with_reducible refine (onPwr_frame _ _).after (by decide) ?_)

theorem pwrWakeListSpec_frame (r : Req) (s : State) : Only [] s (pwrWakeListSpec.run r s).st := by
  exact Only.refl _ _

theorem hearthRestartSpec_frame (r : Req) (s : State) : Only [.pwr] s (hearthRestartSpec.run r s).st := by
  unfold hearthRestartSpec; try simp only [pwrShape]; repeat' (first | with_reducible exact Only.refl _ _ | with_reducible refine (onPwr_frame _ _).after (by decide) ?_)

theorem parkAbandon_frame (s : State) : Only [.anvil, .time, .ctxs, .qf, .flt, .light, .bus, .pwr, .ces, .acc, .free] s (parkAbandon s) := by
  unfold parkAbandon; repeat' (first
      | with_reducible exact Only.refl _ _ | with_reducible refine (onPwr_frame _ _).after (by decide) ?_
      | with_reducible refine (onCan_frame _ _ _).after (by decide) ?_ | with_reducible refine (linEnter_frame _ _).after (by decide) ?_
      | with_reducible refine (notify_frame _ _ _ _).after (by decide) ?_ | with_reducible refine (raise_frame _ _ _).after (by decide) ?_
      | with_reducible refine (useFree_frame _).after (by decide) ?_ | with_reducible refine (completion_frame _ _ _ _ _ _ _).after (by decide) ?_
      | with_reducible refine Only.ite ?_ ?_ | with_reducible refine Only.foldl _ (fun s a => ?_) _ ?_ | split)

theorem execXtal32Stop_frame (s : State) : Answers (execXtal32Stop s) (Only [.anvil, .time, .ctxs, .qf, .flt, .light, .bus, .pwr, .ces, .acc, .free] s) := by
  unfold execXtal32Stop; repeat' (first
      | with_reducible refine Answers.next ?_ | with_reducible exact Only.refl _ _ | with_reducible refine (raise_frame _ _ _).after (by decide) ?_
      | with_reducible refine (onPwr_frame _ _).after (by decide) ?_ | with_reducible refine Answers.ite ?_ ?_ | with_reducible refine Only.ite ?_ ?_)

theorem anvilPark_frame (s : State) : Only [.anvil, .acc] s (anvilPark s) := by
  unfold anvilPark; repeat' (first
      | with_reducible exact Only.refl _ _ | with_reducible refine (onBridge_frame _ _ _).after (by decide) ?_
      | with_reducible refine (bridgeCoast_frame _ _).after (by decide) ?_ | with_reducible refine (onSink_frame _ _ _).after (by decide) ?_
      | with_reducible refine (lfQuiet_frame _).after (by decide) ?_ | with_reducible refine Only.ite ?_ ?_
      | with_reducible refine Only.foldl _ (fun s a => ?_) _ ?_)

theorem execParkAp3_frame (x0 : State) : Answers (execParkAp3 x0) (Only [.blk, .anvil, .time, .qf, .link, .snaps, .pwr, .acc] x0) := by
  unfold execParkAp3
  dsimp only
  split
  · refine Answers.next ((clockSource_frame _).after (by decide) ((snsRails_frame _).after (by decide) ((onPwr_frame _ _).after (by decide)
      ((onTime_frame _ _).after (by decide) (Only.upd (t := ?t) ?g ?k)))))
    case k => intro p hp; cases p <;> first | exact absurd (by decide) hp | (dsimp only [Part.same]; try with_reducible exact Eq.refl _)
    exact (onAcc_frame _ _).after (by decide) ((onMon_frame _ _).after (by decide) ((anvilPark_frame _).after (by decide) ((onQf_frame _ _).sub (by decide))))
  · exact Answers.next (Only.refl _ _)

theorem execParkAp2_frame (pt : Nat) (s : State) : Answers (execParkAp2 pt s) (Only [.time, .pwr] s) := by
  unfold execParkAp2; repeat' (first
      | with_reducible refine Answers.next ?_ | with_reducible exact Only.refl _ _ | with_reducible refine (onTime_frame _ _).after (by decide) ?_
      | with_reducible refine (parkTo_frame _ _).after (by decide) ?_ | with_reducible refine (onPwr_frame _ _).after (by decide) ?_
      | with_reducible refine Answers.ite ?_ ?_ | with_reducible refine Only.ite ?_ ?_)

theorem execWakeEvent_frame (code ix pt : Nat) (s : State) : Answers (execWakeEvent code ix pt s) (Only [.anvil, .time, .pwr] s) := by
  unfold execWakeEvent; repeat' (first
      | with_reducible refine Answers.next ?_ | with_reducible exact Only.refl _ _ | with_reducible refine (parkTo_frame _ _).after (by decide) ?_
      | with_reducible refine (onMon_frame _ _).after (by decide) ?_ | with_reducible refine (deviceWake_frame _ _ _ _ _ _).after (by decide) ?_ | split)

theorem idleBegin_frame (s : State) : Only [.pwr] s (idleBegin s) := by
  unfold idleBegin; repeat' (first | with_reducible exact Only.refl _ _ | with_reducible refine (onPwr_frame _ _).after (by decide) ?_ | split)

theorem execSnsRetry_frame (x0 : Nat) (s : State) : Answers (execSnsRetry x0 s) (Only [.anvil, .pwr] s) := by
  unfold execSnsRetry; repeat' (first
      | with_reducible refine Answers.next ?_ | with_reducible exact Only.refl _ _ | with_reducible refine (snsRails_frame _).after (by decide) ?_
      | with_reducible refine (onPwr_frame _ _).after (by decide) ?_ | with_reducible refine Answers.ite ?_ ?_ | with_reducible refine Only.ite ?_ ?_)

theorem idleEnd_frame (s : State) : Only [.pwr] s (idleEnd s) := by
  unfold idleEnd; repeat' (first
      | with_reducible exact Only.refl _ _ | with_reducible refine (onPwr_frame _ _).after (by decide) ?_ | with_reducible refine Only.ite ?_ ?_)

theorem execParkDeepen_frame (s : State) : Answers (execParkDeepen s) (Only [.time, .pwr] s) := by
  unfold execParkDeepen; repeat' (first
      | with_reducible refine Answers.next ?_ | with_reducible exact Only.refl _ _ | with_reducible refine (onPwr_frame _ _).after (by decide) ?_
      | with_reducible refine (parkTo_frame _ _).after (by decide) ?_ | with_reducible refine Answers.ite ?_ ?_ | with_reducible refine Only.ite ?_ ?_)

theorem linPark_frame (s : State) : Only [.ctxs, .qf, .light, .bus] s (linPark s) := by
  unfold linPark; repeat' (first
      | with_reducible exact Only.refl _ _ | with_reducible refine (linState_frame _ _ _).after (by decide) ?_
      | with_reducible refine (linAbandon_frame _ _).after (by decide) ?_ | with_reducible refine Only.ite ?_ ?_
      | with_reducible refine Only.foldl _ (fun s a => ?_) _ ?_)

theorem execParkEntryTimeout_frame (s : State) : Answers (execParkEntryTimeout s) (Only [.pwr] s) := by
  unfold execParkEntryTimeout; repeat' (first
      | with_reducible refine Answers.next ?_ | with_reducible exact Only.refl _ _ | with_reducible refine (deviceWake_frame _ _ _ _ _ _).after (by decide) ?_
      | with_reducible refine Answers.ite ?_ ?_ | with_reducible refine Only.ite ?_ ?_)

theorem linFlush_frame (s : State) : Only [.qf] s (linFlush s) := by
  unfold linFlush; repeat' (first
      | with_reducible exact Only.refl _ _ | with_reducible refine (onQueue_frame _ _ _).after (by decide) ?_ | with_reducible refine Only.ite ?_ ?_
      | with_reducible refine Only.foldl _ (fun s a => ?_) _ ?_)

theorem execParkEntryBegin_frame (s : State) : Answers (execParkEntryBegin s) (Only [.qf, .light, .bus, .pwr] s) := by
  unfold execParkEntryBegin; repeat' (first
      | with_reducible refine Answers.next ?_ | with_reducible exact Only.refl _ _ | with_reducible refine (linFlush_frame _).after (by decide) ?_
      | with_reducible refine (canFlush_frame _ _).after (by decide) ?_ | with_reducible refine (onPwr_frame _ _).after (by decide) ?_
      | with_reducible refine Only.foldl _ (fun s a => ?_) _ ?_ | split)

theorem parkNotice_frame (s : State) : Only [.qf] s (parkNotice s) := by
  unfold parkNotice; repeat' (first
      | with_reducible exact Only.refl _ _ | with_reducible refine (notify_frame _ _ _ _).after (by decide) ?_ | with_reducible refine Only.ite ?_ ?_
      | with_reducible refine Only.foldl _ (fun s a => ?_) _ ?_)

theorem execParkTimerExpiry_frame (s : State) : Answers (execParkTimerExpiry s) (Only [.time, .pwr] s) := by
  unfold execParkTimerExpiry; repeat' (first
      | with_reducible refine Answers.next ?_ | with_reducible exact Only.refl _ _ | with_reducible refine (parkTo_frame _ _).after (by decide) ?_
      | with_reducible refine (deviceWake_frame _ _ _ _ _ _).after (by decide) ?_ | with_reducible refine (onPwr_frame _ _).after (by decide) ?_
      | with_reducible refine Answers.ite ?_ ?_ | with_reducible refine Only.ite ?_ ?_)

theorem execParkAp1_frame (s : State) : Answers (execParkAp1 s) (Only [.time, .ctxs, .qf, .light, .bus, .pwr] s) := by
  unfold execParkAp1; repeat' (first
      | with_reducible refine Answers.next ?_ | with_reducible exact Only.refl _ _ | with_reducible refine (atTick_frame _ _).after (by decide) ?_
      | with_reducible refine (linPark_frame _).after (by decide) ?_ | with_reducible refine (canPark_frame _).after (by decide) ?_
      | with_reducible refine (onPwr_frame _ _).after (by decide) ?_ | with_reducible refine Answers.ite ?_ ?_ | with_reducible refine Only.ite ?_ ?_)

theorem execSnsFault_frame (x0 : Nat) (s : State) : Answers (execSnsFault x0 s) (Only [.anvil, .time, .ctxs, .qf, .flt, .light, .bus, .pwr, .ces, .acc, .free] s) := by
  unfold execSnsFault; repeat' (first
      | with_reducible refine Answers.next ?_ | with_reducible exact Only.refl _ _ | with_reducible refine (raise_frame _ _ _).after (by decide) ?_
      | with_reducible refine (snsRails_frame _).after (by decide) ?_ | with_reducible refine (onPwr_frame _ _).after (by decide) ?_
      | with_reducible refine Answers.ite ?_ ?_ | with_reducible refine Only.ite ?_ ?_)
end Sys2Proof.Machine
end

