-- ==== Sys2Proof/Laws/Activation.lean ====
section
/-! SUPPORT. What each operation of Machine/Activation.lean leaves as it is: one law per operation, which names the parts of the state it may change. -/

namespace Sys2Proof.Machine

theorem activate_frame (t x1 : Nat) (d : Rec) (adc : List (Bool × Bool × List Nat)) (s : State) : Only [.ces, .free] s (activate t x1 d adc s) := by
  unfold activate; repeat' (first
      | with_reducible exact Only.refl _ _ | with_reducible refine (onCore_frame _ _ _).after (by decide) ?_
      | with_reducible refine (useFree_frame _).after (by decide) ?_ | with_reducible refine (onTask_frame _ _ _).after (by decide) ?_)

theorem execTaskActivation_frame (t : Nat) (adc : List (Bool × Bool × List Nat)) (s : State) :
    Answers (execTaskActivation t adc s) (Only [.time, .qf, .ces, .free] s) := by
  unfold execTaskActivation; repeat' (first
      | with_reducible refine Answers.next ?_ | with_reducible exact Only.refl _ _ | with_reducible refine (activate_frame _ _ _ _ _).after (by decide) ?_
      | with_reducible refine (atTick_frame _ _).after (by decide) ?_ | split)
end Sys2Proof.Machine
end

