-- ==== Sys2Proof/Laws/Boot.lean ====
section
/-! SUPPORT. What each operation of Machine/Boot.lean leaves as it is: one law per operation, which names the parts of the state it may change. -/

namespace Sys2Proof.Machine

theorem bindCtxs_frame (s : State) : Only [.ctxs] s (bindCtxs s) := by
  unfold bindCtxs; repeat' (first
      | with_reducible exact Only.refl _ _ | with_reducible refine (onCtx_frame _ _ _).after (by decide) ?_
      | with_reducible refine Only.foldl _ (fun s a => ?_) _ ?_)

theorem migrate_frame (s : State) : Only [.roles, .com, .ctxs, .qf, .bus, .pwr, .acc, .upd] s (migrate s) := by
  unfold migrate; repeat' (first
      | with_reducible exact Only.refl _ _ | with_reducible refine (reassign_frame _ _ _).after (by decide) ?_
      | with_reducible refine (onCom_frame _ _).after (by decide) ?_ | with_reducible refine (onQueue_frame _ _ _).after (by decide) ?_
      | with_reducible refine (bindCtxs_frame _).after (by decide) ?_ | with_reducible refine (onCan_frame _ _ _).after (by decide) ?_
      | with_reducible refine (onLin_frame _ _ _).after (by decide) ?_ | with_reducible refine (onEth_frame _ _ _).after (by decide) ?_
      | with_reducible refine (onPwr_frame _ _).after (by decide) ?_ | with_reducible refine (onAcc_frame _ _).after (by decide) ?_
      | with_reducible refine (onUpd_frame _ _).after (by decide) ?_ | with_reducible refine Only.ite ?_ ?_
      | with_reducible refine Only.foldl _ (fun s a => ?_) _ ?_)

theorem rereadCom_frame (w : Tab (Option Octet)) (s : State) : Only [.com] s (rereadCom w s) := by
  unfold rereadCom; with_reducible exact (onCom_frame _ _).sub (by decide)

theorem execResetStuck_frame (s : State) : Answers (execResetStuck s) (Only [.anvil, .time, .ctxs, .qf, .flt, .light, .bus, .pwr, .ces, .acc, .free] s) := by
  unfold execResetStuck; repeat' (first
      | with_reducible refine Answers.next ?_ | with_reducible exact Only.refl _ _ | with_reducible refine (advTo_frame _ _).after (by decide) ?_
      | with_reducible refine (raise_frame _ _ _).after (by decide) ?_ | with_reducible refine (limpInForce_frame _).after (by decide) ?_
      | with_reducible refine (onAnvil_frame _ _).after (by decide) ?_ | split)

theorem rereadRoles_frame (x0 : Tab (Option Octet)) (x1 : State) : Only [.roles] x1 (rereadRoles x0 x1) := by
  unfold rereadRoles
  intro p hp; cases p <;> first | (dsimp only [Part.same]; done) | exact absurd (by decide) hp

theorem dropBatches_frame (c : Nat) (s : State) : Only [.ctxs] s (dropBatches c s) := by
  unfold dropBatches; with_reducible exact (onCtx_frame _ _ _).sub (by decide)

theorem hearthHalt_frame (x0 : State) : Only [.blk, .time, .ctxs, .link, .closed, .snaps, .bus, .pwr] x0 (hearthHalt x0) := by
  unfold hearthHalt
  split
  · exact Only.refl _ _
  · lift_lets
    intro a
    have ha : Only [.blk, .time, .ctxs, .link, .closed, .snaps, .bus, .pwr] x0 a :=
      Only.foldl _ (fun s n => by split; exact (ethLost_frame _ _).sub (by decide); exact Only.refl _ _) _ (Only.refl _ _)
    clear_value a
    intro b
    have hb : Only [.blk, .time, .ctxs, .link, .closed, .snaps, .bus, .pwr] x0 b := Only.foldl _ (fun s n => (dropBatches_frame _ _).sub (by decide)) _ ha
    clear_value b
    refine (edgeGaps_frame _).after (by decide) ((onTime_frame _ _).after (by decide) ((clockSource_frame _).after (by decide) ((onPwr_frame _ _).after (by decide) (Only.upd hb ?_))))
    intro p hp; cases p <;> first | exact absurd (by decide) hp | rfl

theorem execResetNAssert_frame (s : State) : Answers (execResetNAssert s) (Only [.blk, .anvil, .time, .ctxs, .link, .closed, .snaps, .bus, .pwr] s) := by
  unfold execResetNAssert; repeat' (first
      | with_reducible refine Answers.next ?_ | with_reducible exact Only.refl _ _ | with_reducible refine (onMon_frame _ _).after (by decide) ?_
      | with_reducible refine (onPwr_frame _ _).after (by decide) ?_ | with_reducible refine (hearthHalt_frame _).after (by decide) ?_
      | with_reducible refine Answers.ite ?_ ?_ | with_reducible refine Only.ite ?_ ?_)

theorem restartNote_frame (cause : Nat) (s : State) : Only [.anvil, .time, .ctxs, .qf, .flt, .light, .bus, .pwr, .ces, .acc, .free] s (restartNote cause s) := by
  unfold restartNote; repeat' (first
      | with_reducible exact Only.refl _ _ | with_reducible refine (raise_frame _ _ _).after (by decide) ?_
      | with_reducible refine (onPwr_frame _ _).after (by decide) ?_)

theorem restorePorts_frame (b : Bus) (s : State) : Only [.bus] s (restorePorts b s) := by
  unfold restorePorts; repeat' (first
      | with_reducible exact Only.refl _ _ | with_reducible refine (onCan_frame _ _ _).after (by decide) ?_
      | with_reducible refine (onLin_frame _ _ _).after (by decide) ?_ | with_reducible refine (onEth_frame _ _ _).after (by decide) ?_
      | with_reducible refine (onBus_frame _ _).after (by decide) ?_ | with_reducible refine Only.foldl _ (fun s a => ?_) _ ?_)

theorem restoreSettings_frame (p : Settings) (s : State) : Only [.roles, .com, .ctxs, .qf, .bus, .pwr, .ces, .acc] s (restoreSettings p s) := by
  unfold restoreSettings; repeat' (first | with_reducible exact Only.refl _ _ | with_reducible refine (bindCtxs_frame _).after (by decide) ?_ | with_reducible refine (restorePorts_frame _ _).after (by decide) ?_ | with_reducible refine (onPwr_frame _ _).after (by decide) ?_ | with_reducible refine (onAcc_frame _ _).after (by decide) ?_ | with_reducible refine (onCes_frame _ _).after (by decide) ?_ | with_reducible refine (onQueue_frame _ _ _).after (by decide) ?_ | with_reducible refine Only.ite ?_ ?_ | with_reducible refine Only.foldl _ (fun s a => ?_) _ ?_ | (refine Only.upd (Only.refl _ s) ?_; intro p hp; cases p <;> first | exact absurd (by decide) hp | (dsimp only [Part.same]; done); done))

theorem fallBack_frame (s : State) :
    Only [.roles, .com, .blk, .anvil, .time, .ctxs, .qf, .link, .closed, .snaps, .flt, .light, .bus, .pwr, .ces, .acc, .upd, .free] s (fallBack s) := by
  unfold fallBack; repeat' (first
      | with_reducible exact Only.refl _ _ | with_reducible refine (raise_frame _ _ _).after (by decide) ?_
      | with_reducible refine (onUpd_frame _ _).after (by decide) ?_ | with_reducible refine (setMark_frame _ _ _).after (by decide) ?_
      | with_reducible refine (restoreSettings_frame _ _).after (by decide) ?_ | with_reducible refine (restartNote_frame _ _).after (by decide) ?_
      | with_reducible refine (hearthHalt_frame _).after (by decide) ?_ | split)

theorem bootFailed_frame (s : State) :
    Only [.roles, .com, .blk, .anvil, .time, .ctxs, .qf, .link, .closed, .snaps, .flt, .light, .bus, .pwr, .ces, .acc, .upd, .free] s (bootFailed s) := by
  unfold bootFailed; repeat' (first
      | with_reducible exact Only.refl _ _ | with_reducible refine (onUpd_frame _ _).after (by decide) ?_
      | with_reducible refine (fallBack_frame _).after (by decide) ?_ | with_reducible refine Only.ite ?_ ?_)

theorem hearthRestart_frame (cause : Nat) (s : State) :
    Only [.roles, .com, .blk, .anvil, .time, .ctxs, .qf, .link, .closed, .snaps, .flt, .light, .bus, .pwr, .ces, .acc, .upd, .free] s (hearthRestart cause s) := by
  unfold hearthRestart; repeat' (first
      | with_reducible exact Only.refl _ _ | with_reducible refine (restartNote_frame _ _).after (by decide) ?_
      | with_reducible refine (hearthHalt_frame _).after (by decide) ?_ | with_reducible refine (bootFailed_frame _).after (by decide) ?_
      | with_reducible refine Only.ite ?_ ?_)

theorem activate__frame (s : State) :
    Only [.roles, .com, .blk, .anvil, .time, .ctxs, .qf, .link, .closed, .snaps, .flt, .light, .bus, .pwr, .ces, .acc, .upd, .free] s (activate_ s) := by
  unfold activate_; repeat' (first
      | with_reducible exact Only.refl _ _ | with_reducible refine (onUpd_frame _ _).after (by decide) ?_
      | with_reducible refine (hearthRestart_frame _ _).after (by decide) ?_)

theorem execUpdActivationTick_frame (s : State) :
    Answers (execUpdActivationTick s) (Only [.roles, .com, .blk, .anvil, .time, .ctxs, .qf, .link, .closed, .snaps, .flt, .light, .bus, .pwr, .ces, .acc, .upd, .free] s) := by
  unfold execUpdActivationTick; repeat' (first
      | with_reducible refine Answers.next ?_ | with_reducible exact Only.refl _ _ | with_reducible refine (advTo_frame _ _).after (by decide) ?_
      | with_reducible refine (onUpd_frame _ _).after (by decide) ?_ | with_reducible refine (activate__frame _).after (by decide) ?_
      | with_reducible refine Answers.ite ?_ ?_ | with_reducible refine Only.ite ?_ ?_)

theorem execFailedBootTimeout_frame (s : State) :
    Answers (execFailedBootTimeout s) (Only [.roles, .com, .blk, .anvil, .time, .ctxs, .qf, .link, .closed, .snaps, .flt, .light, .bus, .pwr, .ces, .acc, .upd, .free] s) := by
  unfold execFailedBootTimeout; repeat' (first
      | with_reducible refine Answers.next ?_ | with_reducible exact Only.refl _ _ | with_reducible refine (bootFailed_frame _).after (by decide) ?_
      | with_reducible refine (onUpd_frame _ _).after (by decide) ?_ | with_reducible refine (advTo_frame _ _).after (by decide) ?_
      | with_reducible refine Answers.ite ?_ ?_ | with_reducible refine Only.ite ?_ ?_)

theorem fltStart_frame (s : State) : Only [.flt] s (fltStart s) := by
  unfold fltStart; with_reducible exact (onFlt_frame _ _).sub (by decide)

theorem rereadPorts_frame (w : Tab (Option Octet)) (s : State) : Only [.ctxs, .bus] s (rereadPorts w s) := by
  unfold rereadPorts; repeat' (first
      | with_reducible exact Only.refl _ _ | with_reducible refine (onCtx_frame _ _ _).after (by decide) ?_
      | with_reducible refine (onCan_frame _ _ _).after (by decide) ?_ | with_reducible refine (onLin_frame _ _ _).after (by decide) ?_
      | with_reducible refine (onEth_frame _ _ _).after (by decide) ?_ | with_reducible refine Only.foldl _ (fun s a => ?_) _ ?_)

theorem rereadQueues_frame (w : Tab (Option Octet)) (s : State) : Only [.qf] s (rereadQueues w s) := by
  unfold rereadQueues; repeat' (first
      | with_reducible exact Only.refl _ _ | with_reducible refine (onQueue_frame _ _ _).after (by decide) ?_
      | with_reducible refine Only.foldl _ (fun s a => ?_) _ ?_)

theorem rereadStore_frame (s : State) : Only [.roles, .com, .ctxs, .qf, .bus, .pwr, .acc, .upd] s (rereadStore s) := by
  unfold rereadStore; repeat' (first
      | with_reducible exact Only.refl _ _ | with_reducible refine (rereadPorts_frame _ _).after (by decide) ?_
      | with_reducible refine (rereadQueues_frame _ _).after (by decide) ?_ | with_reducible refine (rereadCom_frame _ _).after (by decide) ?_
      | with_reducible refine (onUpd_frame _ _).after (by decide) ?_ | with_reducible refine (rereadRoles_frame _ _).after (by decide) ?_
      | with_reducible refine (onPwr_frame _ _).after (by decide) ?_ | with_reducible refine (onAcc_frame _ _).after (by decide) ?_
      | with_reducible refine Only.ite ?_ ?_)

theorem bootService_frame (s : State) : Only [.upd] s (bootService s) := by
  unfold bootService; repeat' (first
      | with_reducible exact Only.refl _ _ | with_reducible refine (onUpd_frame _ _).after (by decide) ?_ | with_reducible refine Only.ite ?_ ?_)

theorem bootSchedule_frame (s : State) : Only [.com, .sched] s (bootSchedule s) := by
  unfold bootSchedule; repeat' (first
      | with_reducible exact Only.refl _ _ | with_reducible refine (onSched_frame _ _).after (by decide) ?_
      | with_reducible refine (onCom_frame _ _).after (by decide) ?_ | with_reducible refine Only.ite ?_ ?_)

theorem busQueuesStart_frame (s : State) : Only [.qf] s (busQueuesStart s) := by
  unfold busQueuesStart; with_reducible exact (onQf_frame _ _).sub (by decide)

theorem keysVerify_frame (bad : List Nat) (s : State) : Only [.anvil, .time, .ctxs, .qf, .flt, .light, .bus, .pwr, .ces, .acc, .keys, .free] s (keysVerify bad s) := by
  unfold keysVerify; repeat' (first
      | with_reducible exact Only.refl _ _ | with_reducible refine (onKey_frame _ _ _).after (by decide) ?_
      | with_reducible refine (raise_frame _ _ _).after (by decide) ?_ | with_reducible refine Only.ite ?_ ?_
      | with_reducible refine Only.foldl _ (fun s a => ?_) _ ?_)

theorem restartDone_frame (s : State) : Only [.qf, .pwr] s (restartDone s) := by
  unfold restartDone; repeat' (first
      | with_reducible exact Only.refl _ _ | with_reducible refine (completion_frame _ _ _ _ _ _ _).after (by decide) ?_
      | with_reducible refine (onPwr_frame _ _).after (by decide) ?_ | split)

theorem serviceBind_frame (s : State) : Only [.ctxs] s (serviceBind s) := by
  unfold serviceBind; repeat' (first
      | with_reducible exact Only.refl _ _ | with_reducible refine (onCtx_frame _ _ _).after (by decide) ?_ | with_reducible refine Only.ite ?_ ?_)

theorem hearthStart_frame (x0 : List Nat) (x1 : State) :
    Only [.roles, .com, .blk, .anvil, .clk, .time, .sched, .ctxs, .qf, .link, .closed, .snaps, .flt, .light, .bus, .pwr, .ces, .acc, .keys, .upd, .hmon, .free] x1 (hearthStart x0 x1) := by
  have h1 : Only [.roles, .com, .blk, .anvil, .clk, .time, .sched, .ctxs, .qf, .link, .closed, .snaps, .flt, .light, .bus, .pwr, .ces, .acc, .keys, .upd, .hmon, .free] x1 (rereadStore (bootService x1)) := (rereadStore_frame _).after (by decide) ((bootService_frame _).sub (by decide))
  unfold hearthStart
  dsimp only
  generalize rereadStore (bootService x1) = a at h1 ⊢
  have h2 : Only [.roles, .com, .blk, .anvil, .clk, .time, .sched, .ctxs, .qf, .link, .closed, .snaps, .flt, .light, .bus, .pwr, .ces, .acc, .keys, .upd, .hmon, .free] x1 (if a.upd.newBank then migrate a else a) := Only.ite ((migrate_frame _).after (by decide) h1) h1
  generalize (if a.upd.newBank then migrate a else a) = b at h2 ⊢
  have h3 : Only [.roles, .com, .blk, .anvil, .clk, .time, .sched, .ctxs, .qf, .link, .closed, .snaps, .flt, .light, .bus, .pwr, .ces, .acc, .keys, .upd, .hmon, .free] x1 (if b.upd.st = 1 then endSession b else b) := Only.ite ((endSession_frame _).after (by decide) h2) h2
  generalize (if b.upd.st = 1 then endSession b else b) = c at h3 ⊢
  refine (restartDone_frame _).after (by decide) ((serviceBind_frame _).after (by decide) ((clockSource_frame _).after (by decide)
    ((onPwr_frame _ _).after (by decide) (Only.upd (t := ?t) ?g ?k))))
  case k => intro p hp; cases p <;> first | exact absurd (by decide) hp | (dsimp only [Part.same]; try with_reducible exact Eq.refl _)
  refine (onMon_frame _ _).after (by decide) ((onLink_frame _ _).after (by decide) ((onLink_frame _ _).after (by decide) ((onLight_frame _ _).after (by decide) ?_)))
  refine (accStart_frame _).after (by decide) ((ethStart_frame _).after (by decide) ((linStart_frame _).after (by decide) ((canStart_frame _).after (by decide) ((cesynStart_frame _).after (by decide) ?_))))
  refine (fltStart_frame _).after (by decide) ((keysVerify_frame _ _).after (by decide) ((keysStart_frame _).after (by decide) ?_))
  refine Only.foldl _ (fun s u => ?_) _ ?_
  · exact Only.ite (Only.refl _ _) ((onLin_frame _ _ _).sub (by decide))
  refine (onBus_frame _ _).after (by decide) ((busQueuesStart_frame _).after (by decide) ?_)
  have h4 (d : State) (h : Only [.roles, .com, .blk, .anvil, .clk, .time, .sched, .ctxs, .qf, .link, .closed, .snaps, .flt, .light, .bus, .pwr, .ces, .acc, .keys, .upd, .hmon, .free] x1 d) : Only [.roles, .com, .blk, .anvil, .clk, .time, .sched, .ctxs, .qf, .link, .closed, .snaps, .flt, .light, .bus, .pwr, .ces, .acc, .keys, .upd, .hmon, .free] x1 (if d.link.lost then linSuspend false (canSuspend false d) else d) :=
    Only.ite ((linSuspend_frame _ _).after (by decide) ((canSuspend_frame _ _).after (by decide) h)) h
  exact h4 _ ((bootSchedule_frame _).after (by decide) ((onUpd_frame _ _).after (by decide) h3))

theorem execUpdBootVerifyDone_frame (bad : List Nat) (s : State) :
    Answers (execUpdBootVerifyDone bad s) (Only [.roles, .com, .blk, .anvil, .clk, .time, .sched, .ctxs, .qf, .link, .closed, .snaps, .flt, .light, .bus, .pwr, .ces, .acc, .keys, .upd, .hmon, .free] s) := by
  unfold execUpdBootVerifyDone; repeat' (first
      | with_reducible refine Answers.next ?_ | with_reducible exact Only.refl _ _ | with_reducible refine (setMark_frame _ _ _).after (by decide) ?_
      | with_reducible refine (onUpd_frame _ _).after (by decide) ?_ | with_reducible refine (onCes_frame _ _).after (by decide) ?_
      | with_reducible refine (hearthStart_frame _ _).after (by decide) ?_ | with_reducible refine (raise_frame _ _ _).after (by decide) ?_
      | with_reducible refine Answers.ite ?_ ?_ | with_reducible refine Only.ite ?_ ?_)

theorem activationDue_frame (s : State) :
    Only [.roles, .com, .blk, .anvil, .time, .ctxs, .qf, .link, .closed, .snaps, .flt, .light, .bus, .pwr, .ces, .acc, .upd, .free] s (activationDue s) := by
  unfold activationDue; repeat' (first
      | with_reducible exact Only.refl _ _ | with_reducible refine (activate__frame _).after (by decide) ?_ | with_reducible refine Only.ite ?_ ?_)

theorem relimp_frame (s : State) : Only [.anvil, .time, .qf, .free] s (relimp s) := by
  unfold relimp; repeat' (first
      | with_reducible exact Only.refl _ _ | with_reducible refine (limpInForce_frame _).after (by decide) ?_ | with_reducible refine Only.ite ?_ ?_)

theorem execUpdDeferTimeout_frame (s : State) :
    Answers (execUpdDeferTimeout s) (Only [.roles, .com, .blk, .anvil, .time, .ctxs, .qf, .link, .closed, .snaps, .flt, .light, .bus, .pwr, .ces, .acc, .upd, .free] s) := by
  unfold execUpdDeferTimeout; repeat' (first
      | with_reducible refine Answers.next ?_ | with_reducible exact Only.refl _ _ | with_reducible refine (activate__frame _).after (by decide) ?_ | split)

theorem restoreSave_frame (s : State) : Only [.com, .clk, .time, .ctxs, .qf, .link, .pwr] s (restoreSave s) := by
  unfold restoreSave; repeat' (first | with_reducible exact Only.refl _ _ | with_reducible refine (onQf_frame _ _).after (by decide) ?_ | with_reducible refine (onTime_frame _ _).after (by decide) ?_ | with_reducible refine (onLink_frame _ _).after (by decide) ?_ | with_reducible refine (onPwr_frame _ _).after (by decide) ?_ | with_reducible refine (onClk_frame _ _).after (by decide) ?_ | with_reducible refine Only.ite ?_ ?_ | (refine Only.upd (Only.refl _ s) ?_; intro p hp; cases p <;> first | exact absurd (by decide) hp | (dsimp only [Part.same]; done); done) | split | dsimp only)

theorem execRailFault_frame (r mv : Nat) (s : State) :
    Answers (execRailFault r mv s) (Only [.roles, .com, .blk, .anvil, .time, .ctxs, .qf, .link, .closed, .snaps, .flt, .light, .bus, .pwr, .ces, .acc, .upd, .free] s) := by
  unfold execRailFault; repeat' (first
      | with_reducible refine Answers.next ?_ | with_reducible exact Only.refl _ _ | with_reducible refine (hearthRestart_frame _ _).after (by decide) ?_
      | with_reducible refine (raise_frame _ _ _).after (by decide) ?_ | with_reducible refine (onMon_frame _ _).after (by decide) ?_
      | with_reducible refine Answers.ite ?_ ?_ | with_reducible refine Only.ite ?_ ?_)

theorem powerLost_frame (x0 : State) : Only [.blk, .anvil, .time, .ctxs, .link, .closed, .snaps, .bus, .pwr, .upd] x0 (powerLost x0) := by
  unfold powerLost
  refine (onPwr_frame _ _).after (by decide) ((onSup_frame _ _).after (by decide) (Only.upd (t := ?t) ?g ?k))
  case k => intro p hp; cases p <;> first | exact absurd (by decide) hp | (dsimp only [Part.same]; try with_reducible exact Eq.refl _)
  exact Only.ite ((onUpd_frame _ _).after (by decide) ((hearthHalt_frame _).sub (by decide))) ((hearthHalt_frame _).sub (by decide))

theorem execAnvilPorAssert_frame (v : Int) (s : State) :
    Answers (execAnvilPorAssert v s) (Only [.blk, .anvil, .time, .ctxs, .link, .closed, .snaps, .bus, .pwr, .upd] s) := by
  unfold execAnvilPorAssert; repeat' (first
      | with_reducible refine Answers.next ?_ | with_reducible exact Only.refl _ _ | with_reducible refine (vbatsRead_frame _ _).after (by decide) ?_
      | with_reducible refine (powerLost_frame _).after (by decide) ?_ | with_reducible refine Answers.ite ?_ ?_ | with_reducible refine Only.ite ?_ ?_)

theorem execResetNRelease_frame (s : State) : Answers (execResetNRelease s) (Only [.anvil, .time, .ctxs, .qf, .flt, .light, .bus, .pwr, .ces, .acc, .free] s) := by
  unfold execResetNRelease; repeat' (first
      | with_reducible refine Answers.next ?_ | with_reducible exact Only.refl _ _ | with_reducible refine (onMon_frame _ _).after (by decide) ?_
      | with_reducible refine (onPwr_frame _ _).after (by decide) ?_ | with_reducible refine (deviceWake_frame _ _ _ _ _ _).after (by decide) ?_
      | with_reducible refine (restartNote_frame _ _).after (by decide) ?_ | with_reducible refine Answers.ite ?_ ?_ | with_reducible refine Only.ite ?_ ?_)

theorem restoreTb_frame (pt : Nat) (s : State) : Only [.clk, .time] s (restoreTb pt s) := by
  unfold restoreTb; repeat' (first
      | with_reducible exact Only.refl _ _ | with_reducible refine (onTime_frame _ _).after (by decide) ?_
      | with_reducible refine (onClk_frame _ _).after (by decide) ?_)

theorem execBellowsWatchdog_frame (s : State) :
    Answers (execBellowsWatchdog s) (Only [.roles, .com, .blk, .anvil, .time, .ctxs, .qf, .link, .closed, .snaps, .flt, .light, .bus, .pwr, .ces, .acc, .upd, .free] s) := by
  unfold execBellowsWatchdog; repeat' (first
      | with_reducible refine Answers.next ?_ | with_reducible exact Only.refl _ _ | with_reducible refine (onAnvil_frame _ _).after (by decide) ?_
      | with_reducible refine (hearthRestart_frame _ _).after (by decide) ?_ | with_reducible refine Answers.ite ?_ ?_ | with_reducible refine Only.ite ?_ ?_)

theorem resafe_frame (s : State) : Only [.anvil, .time, .ctxs, .qf, .light, .bus, .acc, .free] s (resafe s) := by
  unfold resafe; repeat' (first
      | with_reducible exact Only.refl _ _ | with_reducible refine (safeUnit_frame _ _).after (by decide) ?_
      | with_reducible refine Only.foldl _ (fun s a => ?_) _ ?_)

theorem execAnvilPorRelease_frame (v : Int) (test : Bool) (s : State) :
    Answers (execAnvilPorRelease v test s) (Only [.com, .anvil, .rep, .bound, .chM, .repM, .clk, .time, .ctxs, .hspi0, .hspi1, .qf, .link, .flt, .light, .bus, .pwr, .ces, .acc, .upd, .free] s) := by
  unfold execAnvilPorRelease; repeat' (first | ((try lift_lets); intro y; first | (refine Answers.cut y ?c1 (fun hy => ?c2); (case' c1 => dsimp only [y]); (case' c2 => clear_value y)) | (refine Only.cut y ?c1 (fun hy => ?c2); (case' c1 => dsimp only [y]); (case' c2 => clear_value y)) | (have _h : State → State := y; clear _h; subst y) | (have _h : State → _ → State := y; clear _h; subst y) | clear_value y) | with_reducible refine Answers.next ?_ | with_reducible refine Answers.ite ?_ ?_ | with_reducible exact Only.refl _ _ | with_reducible assumption | with_reducible refine (accPor_frame _).after (by decide) ?_ | with_reducible refine (onQf_frame _ _).after (by decide) ?_ | with_reducible refine (onCoil_frame _ _ _).after (by decide) ?_ | with_reducible refine (taTaken_frame _ _).after (by decide) ?_ | with_reducible refine (onUpd_frame _ _).after (by decide) ?_ | with_reducible refine (onPwr_frame _ _).after (by decide) ?_ | with_reducible refine (onFlt_frame _ _).after (by decide) ?_ | with_reducible refine (relimp_frame _).after (by decide) ?_ | with_reducible refine (resafe_frame _).after (by decide) ?_ | with_reducible refine (raise_frame _ _ _).after (by decide) ?_ | with_reducible refine Only.ite ?_ ?_ | with_reducible refine Only.foldl _ (fun s a => ?_) _ ?_ | (refine Only.upd (t := y) (by assumption) ?_; intro p hp; cases p <;> first | exact absurd (by decide) hp | (dsimp only [Part.same]; done); done) | (refine Only.upd hy ?_; intro p hp; cases p <;> first | exact absurd (by decide) hp | (dsimp only [Part.same]; done); done) | (refine Only.upd (Only.refl _ s) ?_; intro p hp; cases p <;> first | exact absurd (by decide) hp | (dsimp only [Part.same]; done); done) | (refine Only.upd (Only.refl _ s) ?_; intro p hp; cases p <;> first | exact absurd (by decide) hp | (dsimp only [Part.same]; done); done) | (refine Only.upd (t := ?t0) ?g0 ?k0; (case k0 => intro p hp; cases p <;> first | exact absurd (by decide) hp | (dsimp only [Part.same]; with_reducible exact Eq.refl _))) | split | dsimp only)

theorem execReverseBattery_frame (v : Int) (s : State) :
    Answers (execReverseBattery v s) (Only [.blk, .anvil, .time, .ctxs, .link, .closed, .snaps, .bus, .pwr, .upd] s) := by
  unfold execReverseBattery; repeat' (first
      | with_reducible refine Answers.next ?_ | with_reducible exact Only.refl _ _ | with_reducible refine (onSup_frame _ _).after (by decide) ?_
      | with_reducible refine (powerLost_frame _).after (by decide) ?_ | with_reducible refine Answers.ite ?_ ?_ | with_reducible refine Only.ite ?_ ?_)

theorem encWake_frame (enc : Nat) (s : State) : Only [.anvil, .time, .ctxs, .qf, .flt, .light, .bus, .pwr, .ces, .acc, .free] s (encWake enc s) := by
  unfold encWake; repeat' (first
      | with_reducible exact Only.refl _ _ | with_reducible refine (onBridge_frame _ _ _).after (by decide) ?_
      | with_reducible refine (setUncertain_frame _ _).after (by decide) ?_ | with_reducible refine Only.ite ?_ ?_
      | with_reducible refine Only.foldl _ (fun s a => ?_) _ ?_)

theorem execHearthResetRelease_frame (pt enc : Nat) (bad : List Nat) (s : State) :
    Answers (execHearthResetRelease pt enc bad s) (Only [.roles, .com, .blk, .anvil, .clk, .time, .sched, .ctxs, .qf, .link, .closed, .snaps, .flt, .light, .bus, .pwr, .ces, .acc, .keys, .upd, .hmon, .free] s) := by
  unfold execHearthResetRelease; repeat' (first
      | with_reducible refine Answers.next ?_ | with_reducible exact Only.refl _ _ | with_reducible refine (encWake_frame _ _).after (by decide) ?_
      | with_reducible refine (hearthStart_frame _ _).after (by decide) ?_ | with_reducible refine (inputsWake_frame _).after (by decide) ?_
      | with_reducible refine (restoreSave_frame _).after (by decide) ?_ | with_reducible refine (restoreTb_frame _ _).after (by decide) ?_
      | with_reducible refine Answers.ite ?_ ?_ | with_reducible refine Only.ite ?_ ?_)

theorem execMgmtWatchdog_frame (s : State) :
    Answers (execMgmtWatchdog s) (Only [.roles, .com, .blk, .anvil, .time, .ctxs, .qf, .link, .closed, .snaps, .flt, .light, .bus, .pwr, .ces, .acc, .upd, .free] s) := by
  unfold execMgmtWatchdog; repeat' (first
      | with_reducible refine Answers.next ?_ | with_reducible exact Only.refl _ _ | with_reducible refine (hearthRestart_frame _ _).after (by decide) ?_
      | with_reducible refine Answers.ite ?_ ?_ | with_reducible refine Only.ite ?_ ?_)

theorem execXtal25Stop_frame (s : State) :
    Answers (execXtal25Stop s) (Only [.blk, .anvil, .time, .ctxs, .qf, .link, .closed, .snaps, .flt, .light, .bus, .pwr, .ces, .acc, .free] s) := by
  unfold execXtal25Stop; repeat' (first
      | with_reducible refine Answers.next ?_ | with_reducible exact Only.refl _ _ | with_reducible refine (raise_frame _ _ _).after (by decide) ?_
      | with_reducible refine (clockSource_frame _).after (by decide) ?_ | with_reducible refine (onPwr_frame _ _).after (by decide) ?_
      | with_reducible refine (hearthHalt_frame _).after (by decide) ?_ | with_reducible refine Answers.ite ?_ ?_ | with_reducible refine Only.ite ?_ ?_)

theorem execSequencerWatchdog_frame (s : State) :
    Answers (execSequencerWatchdog s) (Only [.blk, .anvil, .bound, .time, .ctxs, .qf, .link, .flt, .light, .bus, .pwr, .ces, .acc, .free] s) := by
  unfold execSequencerWatchdog; repeat' (first | with_reducible refine Answers.next ?_ | with_reducible exact Only.refl _ _ | with_reducible refine (raise_frame _ _ _).after (by decide) ?_ | with_reducible refine (accLinkLost_frame _).after (by decide) ?_ | with_reducible refine (relimp_frame _).after (by decide) ?_ | with_reducible refine (resafe_frame _).after (by decide) ?_ | with_reducible refine (onLink_frame _ _).after (by decide) ?_ | with_reducible refine Answers.ite ?_ ?_ | with_reducible refine Only.ite ?_ ?_ | (refine Only.upd (Only.refl _ s) ?_; intro p hp; cases p <;> first | exact absurd (by decide) hp | (dsimp only [Part.same]; done); done))

theorem execXtal25Restored_frame (s : State) : Answers (execXtal25Restored s) (Only [.anvil, .time, .ctxs, .qf, .flt, .light, .bus, .pwr, .ces, .acc, .free] s) := by
  unfold execXtal25Restored; repeat' (first
      | with_reducible refine Answers.next ?_ | with_reducible exact Only.refl _ _ | with_reducible refine (restartNote_frame _ _).after (by decide) ?_
      | with_reducible refine (onPwr_frame _ _).after (by decide) ?_ | with_reducible refine Answers.ite ?_ ?_ | with_reducible refine Only.ite ?_ ?_)
end Sys2Proof.Machine
end

