-- ==== Sys2Proof/Laws/Link.lean ====
section
/-! SUPPORT. What each operation of Machine/Link.lean leaves as it is: one law per operation, which names the parts of the state it may change. -/

namespace Sys2Proof.Machine

theorem recvSeq_frame (toAnvil : Bool) (q : BitVec 8) (typ : Nat) (s : State) : Only [.link] s (recvSeq toAnvil q typ s).1 := by
  unfold recvSeq; repeat' (first | with_reducible exact Only.refl _ _ | with_reducible assumption | with_reducible refine (flitLeft_frame _ _ _).after (by decide) ?_ | with_reducible refine (onDir_frame _ _ _).after (by decide) ?_ | with_reducible refine Only.ite ?_ ?_ | with_reducible refine Only.foldl _ (fun s a => ?_) _ ?_ | ((try lift_lets); intro y; first | (refine Only.cut y ?c1 (fun hy => ?c2); (case' c1 => dsimp only [y]); (case' c2 => clear_value y)) | (have _h : State → State := y; clear _h; subst y) | (have _h : State → _ → State := y; clear _h; subst y) | clear_value y) | split | dsimp only)

theorem onFlit_frame (m : List Part) (hm : Part.link ∈ m) (b : Bool) (q : BitVec 8) (typ : Nat) (f : State → State) (s : State) (h : ∀ t, Only m t (f t)) :
    Answers (onFlit b q typ f s) (Only m s) := by
  have hr : Only m s (recvSeq b q typ s).1 := (recvSeq_frame b q typ s).sub (by simpa using hm)
  unfold onFlit
  refine Answers.next ?_
  split
  · exact hr.trans (h _)
  · exact hr

theorem rejoinStart_frame (s : State) : Only [.clk, .link] s (rejoinStart s) := by
  unfold rejoinStart; repeat' (first
      | with_reducible exact Only.refl _ _ | with_reducible refine (onLink_frame _ _).after (by decide) ?_
      | with_reducible refine (onClk_frame _ _).after (by decide) ?_ | with_reducible refine Only.ite ?_ ?_)

theorem execEpochRejectFlit_frame (seq : BitVec 8) (s : State) : Answers (execEpochRejectFlit seq s) (Only [.clk, .link] s) := by
  unfold execEpochRejectFlit; refine Answers.ite (Answers.next (Only.refl _ _)) ?_; refine onFlit_frame _ (by decide) _ _ _ _ _ (fun t => ?_); repeat' (first
      | with_reducible refine Answers.next ?_ | with_reducible exact Only.refl _ _ | with_reducible refine (onLink_frame _ _).after (by decide) ?_
      | with_reducible refine (rejoinStart_frame _).after (by decide) ?_ | with_reducible refine Answers.ite ?_ ?_
      | with_reducible refine Only.ite ?_ ?_ | split | dsimp only)

theorem repFrom_frame (x0 : Anvil) (s : State) : Only [.rep] s (repFrom x0 s) := by
  intro p hp; cases p <;> first | rfl | exact absurd (by decide) hp

theorem execEventFlit_frame (seq : BitVec 8) (s : State) : Answers (execEventFlit seq s) (Only [.rep, .link] s) := by
  unfold execEventFlit; refine onFlit_frame _ (by decide) _ _ _ _ _ (fun t => ?_); repeat' (first
      | with_reducible refine Answers.next ?_ | with_reducible exact Only.refl _ _ | with_reducible refine (repFrom_frame _ _).after (by decide) ?_)

theorem rejoinSend_frame (s : State) : Only [.link] s (rejoinSend s) := by
  unfold rejoinSend; repeat' (first
      | with_reducible exact Only.refl _ _ | with_reducible refine (onLink_frame _ _).after (by decide) ?_ | with_reducible refine Only.ite ?_ ?_)

theorem execDumpFlit_frame (seq : BitVec 8) (last : Bool) (s : State) : Answers (execDumpFlit seq last s) (Only [.com, .rep, .link] s) := by
  unfold execDumpFlit; refine onFlit_frame _ (by decide) _ _ _ _ _ (fun t => ?_); repeat' (first
      | with_reducible refine Answers.next ?_ | with_reducible exact Only.refl _ _ | with_reducible refine (onLink_frame _ _).after (by decide) ?_
      | with_reducible refine (onCom_frame _ _).after (by decide) ?_ | with_reducible refine (repFrom_frame _ _).after (by decide) ?_
      | with_reducible refine (rejoinSend_frame _).after (by decide) ?_ | with_reducible refine Answers.ite ?_ ?_ | with_reducible refine Only.ite ?_ ?_ | split)

theorem linkLost_frame (x0 : Bool) (x1 : State) : Only [.anvil, .time, .ctxs, .qf, .link, .flt, .light, .bus, .pwr, .ces, .acc, .free] x1 (linkLost x0 x1) := by
  have h (f : Link → Link) : Only [.anvil, .time, .ctxs, .qf, .link, .flt, .light, .bus, .pwr, .ces, .acc, .free] x1 (clockSource (onLink f x1)) := (clockSource_frame _).after (by decide) ((onLink_frame _ _).sub (by decide))
  unfold linkLost
  exact Only.ite (Only.refl _ _) ((raiseDie_frame _ _ _ _ _).after (by decide) (Only.ite ((edgeGaps_frame _).after (by decide) ((accLinkLost_frame _).after (by decide)
    ((linSuspend_frame _ _).after (by decide) ((canSuspend_frame _ _).after (by decide) (h _))))) (h _)))

theorem linkReturn_frame (s : State) : Only [.ctxs, .qf, .link, .flt, .light, .bus] s (linkReturn s) := by
  unfold linkReturn; repeat' (first
      | with_reducible exact Only.refl _ _ | with_reducible refine (onLink_frame _ _).after (by decide) ?_
      | with_reducible refine (linSuspend_frame _ _).after (by decide) ?_ | with_reducible refine (canSuspend_frame _ _).after (by decide) ?_
      | with_reducible refine (onFlt_frame _ _).after (by decide) ?_ | with_reducible refine Only.ite ?_ ?_)

theorem imageStart_frame (f : Fn) (s : State) : Only [.com, .anvil, .time, .sched, .ctxs, .qf, .flt, .light, .bus, .pwr, .ces, .acc, .free] s (imageStart f s) := by
  unfold imageStart; repeat' (first
      | with_reducible exact Only.refl _ _ | with_reducible refine (switchMode_frame _ _ _).after (by decide) ?_
      | with_reducible refine (onSched_frame _ _).after (by decide) ?_ | with_reducible refine (raise_frame _ _ _).after (by decide) ?_
      | with_reducible refine Only.foldl _ (fun s a => ?_) _ ?_ | split)

theorem rejoinDone_frame (s : State) : Only [.com, .anvil, .time, .sched, .ctxs, .qf, .link, .flt, .light, .bus, .pwr, .ces, .acc, .upd, .free] s (rejoinDone s) := by
  unfold rejoinDone; repeat' (first
      | with_reducible exact Only.refl _ _ | with_reducible refine (onLink_frame _ _).after (by decide) ?_
      | with_reducible refine (imageStart_frame _ _).after (by decide) ?_ | with_reducible refine (onPwr_frame _ _).after (by decide) ?_
      | with_reducible refine (onUpd_frame _ _).after (by decide) ?_ | with_reducible refine (updResult_frame _ _).after (by decide) ?_
      | with_reducible refine (notify_frame _ _ _ _).after (by decide) ?_ | with_reducible refine (accRejoined_frame _).after (by decide) ?_
      | with_reducible refine Only.foldl _ (fun s a => ?_) _ ?_ | split)

theorem execReportFlit_frame (seq : BitVec 8) (s : State) :
    Answers (execReportFlit seq s) (Only [.com, .anvil, .rep, .clk, .time, .sched, .ctxs, .qf, .link, .flt, .light, .bus, .pwr, .ces, .acc, .upd, .free] s) := by
  unfold execReportFlit; refine Answers.ite (Answers.next (Only.refl _ _)) ?_; refine onFlit_frame _ (by decide) _ _ _ _ _ (fun t => ?_); repeat' (first
      | with_reducible refine Answers.next ?_ | with_reducible exact Only.refl _ _ | with_reducible refine (linkLost_frame _ _).after (by decide) ?_
      | with_reducible refine (linkReturn_frame _).after (by decide) ?_ | with_reducible refine (repFrom_frame _ _).after (by decide) ?_
      | with_reducible refine (onLink_frame _ _).after (by decide) ?_ | with_reducible refine (rejoinStart_frame _).after (by decide) ?_
      | with_reducible refine (rejoinDone_frame _).after (by decide) ?_ | with_reducible refine (rejoinSend_frame _).after (by decide) ?_
      | with_reducible refine Answers.ite ?_ ?_ | with_reducible refine Only.ite ?_ ?_ | split | dsimp only)

theorem execSampleFlit_frame (seq : BitVec 8) (s : State) : Answers (execSampleFlit seq s) (Only [.rep, .repM, .link] s) := by
  unfold execSampleFlit; refine onFlit_frame _ (by decide) _ _ _ _ _ (fun t => ?_); repeat' (first | with_reducible refine Answers.next ?_ | with_reducible exact Only.refl _ _ | (refine Only.upd (Only.refl _ t) ?_; intro p hp; cases p <;> first | exact absurd (by decide) hp | (dsimp only [Part.same]; done); done))

theorem rejects_frame (s : State) : Only [.link] s (rejects s) := by
  unfold rejects; with_reducible exact (onLink_frame _ _).sub (by decide)

theorem execRejoinFlit_frame (seq : BitVec 8) (ep : BitVec 16) (f : Fn) (dig : BitVec 64) (s : State) :
    Answers (execRejoinFlit seq ep f dig s) (Only [.anvil, .link, .pwr] s) := by
  unfold execRejoinFlit; refine onFlit_frame _ (by decide) _ _ _ _ _ (fun t => ?_); repeat' (first
      | with_reducible refine Answers.next ?_ | with_reducible exact Only.refl _ _ | with_reducible refine (onAnvil_frame _ _).after (by decide) ?_
      | with_reducible refine (onLink_frame _ _).after (by decide) ?_ | with_reducible refine (onPwr_frame _ _).after (by decide) ?_
      | with_reducible refine (rejects_frame _).after (by decide) ?_ | with_reducible refine Answers.ite ?_ ?_ | with_reducible refine Only.ite ?_ ?_)

theorem execBusFlitTimeout_frame (s : State) : Answers (execBusFlitTimeout s) (Only [.link] s) := by
  unfold execBusFlitTimeout; repeat' (first
      | with_reducible refine Answers.next ?_ | with_reducible exact Only.refl _ _ | with_reducible refine (onLink_frame _ _).after (by decide) ?_)

theorem execBusFlit_frame (toAnvil : Bool) (lines : BusLines) (s : State) : Answers (execBusFlit toAnvil lines s) (Only [.link] s) := by
  unfold execBusFlit; repeat' (first
      | with_reducible refine Answers.next ?_ | with_reducible exact Only.refl _ _ | with_reducible refine (onLink_frame _ _).after (by decide) ?_
      | with_reducible refine Answers.ite ?_ ?_ | with_reducible refine Only.ite ?_ ?_)

theorem execLaneRetrain_frame (toAnvil : Bool) (lane : Nat) (s : State) : Answers (execLaneRetrain toAnvil lane s) (Only [.link] s) := by
  unfold execLaneRetrain; repeat' (first
      | with_reducible refine Answers.next ?_ | with_reducible exact Only.refl _ _ | with_reducible refine (onDir_frame _ _ _).after (by decide) ?_
      | with_reducible refine Answers.ite ?_ ?_ | with_reducible refine Only.ite ?_ ?_)

theorem flitLost_frame (toAnvil : Bool) (t : Nat) (q : BitVec 8) (s : State) : Only [.link, .flt] s (flitLost toAnvil t q s) := by
  unfold flitLost; repeat' (first
      | with_reducible exact Only.refl _ _ | with_reducible refine (flitLeft_frame _ _ _).after (by decide) ?_
      | with_reducible refine (onDir_frame _ _ _).after (by decide) ?_ | with_reducible refine (onLink_frame _ _).after (by decide) ?_
      | with_reducible refine (onFlt_frame _ _).after (by decide) ?_ | with_reducible refine Only.ite ?_ ?_)

theorem execReportTimeout_frame (s : State) : Answers (execReportTimeout s) (Only [.anvil, .time, .ctxs, .qf, .link, .flt, .light, .bus, .pwr, .ces, .acc, .free] s) := by
  unfold execReportTimeout; repeat' (first
      | with_reducible refine Answers.next ?_ | with_reducible exact Only.refl _ _ | with_reducible refine (linkLost_frame _ _).after (by decide) ?_
      | with_reducible refine Answers.ite ?_ ?_ | with_reducible refine Only.ite ?_ ?_)

theorem execQuenchReqFlit_frame (s : State) :
    Answers (execQuenchReqFlit s) (Only [.anvil, .time, .ctxs, .qf, .link, .flt, .light, .bus, .ces, .acc, .free] s) := by
  unfold execQuenchReqFlit; repeat' (first
      | with_reducible refine Answers.next ?_ | with_reducible exact Only.refl _ _ | with_reducible refine (recvSeq_frame _ _ _ _).after (by decide) ?_
      | with_reducible refine (onFlt_frame _ _).after (by decide) ?_ | with_reducible refine (reactAt_frame _ _ _).after (by decide) ?_
      | with_reducible refine Answers.ite ?_ ?_ | with_reducible refine Only.ite ?_ ?_ | split)

theorem laneBoundary_frame (s : State) : Only [.ctxs, .qf, .link, .flt, .light, .bus] s (laneBoundary s) := by
  unfold laneBoundary; repeat' (first
      | with_reducible exact Only.refl _ _ | with_reducible refine (onDir_frame _ _ _).after (by decide) ?_
      | with_reducible refine (linkReturn_frame _).after (by decide) ?_ | with_reducible refine (clockSource_frame _).after (by decide) ?_
      | with_reducible refine Only.ite ?_ ?_)

theorem execMsgFlit_frame (x0 : Bool) (x1 : BitVec 8) (x2 : State) : Answers (execMsgFlit x0 x1 x2) (Only [.link] x2) :=
  onFlit_frame _ (by decide) _ _ _ _ _ (fun t => Only.refl _ t)

theorem execTrainFlit_frame (toAnvil : Bool) (lane : Nat) (s : State) : Answers (execTrainFlit toAnvil lane s) (Only [.link] s) := by
  unfold execTrainFlit; repeat' (first
      | with_reducible refine Answers.next ?_ | with_reducible exact Only.refl _ _ | with_reducible refine (onDir_frame _ _ _).after (by decide) ?_
      | with_reducible refine Answers.ite ?_ ?_ | with_reducible refine Only.ite ?_ ?_)

theorem blockFlitSent_frame (total : Nat) (s : State) : Only [.link] s (blockFlitSent total s) := by
  unfold blockFlitSent; with_reducible exact (onLink_frame _ _).sub (by decide)

theorem execBlockFlit_frame (seq : BitVec 8) (seg total : Nat) (crcOk : Bool) (s : State) : Answers (execBlockFlit seq seg total crcOk s) (Only [.anvil, .link] s) := by
  unfold execBlockFlit; refine onFlit_frame _ (by decide) _ _ _ _ _ (fun t => ?_); repeat' (first
      | with_reducible refine Answers.next ?_ | with_reducible exact Only.refl _ _ | with_reducible refine (blockFlitSent_frame _ _).after (by decide) ?_
      | with_reducible refine (rejects_frame _).after (by decide) ?_ | with_reducible refine (onAnvil_frame _ _).after (by decide) ?_
      | with_reducible refine Answers.ite ?_ ?_ | with_reducible refine Only.ite ?_ ?_ | split)

theorem laneError_frame (toAnvil : Bool) (lane : Nat) (s : State) : Only [.link] s (laneError toAnvil lane s) := by
  unfold laneError; with_reducible exact (onDir_frame _ _ _).sub (by decide)

theorem laneFail_frame (toAnvil : Bool) (lane : Nat) (s : State) :
    Only [.anvil, .time, .ctxs, .qf, .link, .flt, .light, .bus, .pwr, .ces, .acc, .free] s (laneFail toAnvil lane s) := by
  unfold laneFail; repeat' (first
      | with_reducible exact Only.refl _ _ | with_reducible refine (onDir_frame _ _ _).after (by decide) ?_
      | with_reducible refine (raiseDie_frame _ _ _ _ _).after (by decide) ?_ | with_reducible refine (clockSource_frame _).after (by decide) ?_
      | with_reducible refine (linkLost_frame _ _).after (by decide) ?_ | with_reducible refine Only.ite ?_ ?_)

theorem execFlitCrcError_frame (toAnvil : Bool) (lane : Nat) (bad : BadFlit) (s : State) :
    Answers (execFlitCrcError toAnvil lane bad s) (Only [.anvil, .time, .ctxs, .qf, .link, .flt, .light, .bus, .pwr, .ces, .acc, .free] s) := by
  unfold execFlitCrcError; repeat' (first
      | with_reducible refine Answers.next ?_ | with_reducible exact Only.refl _ _ | with_reducible refine (laneError_frame _ _ _).after (by decide) ?_
      | with_reducible refine (onLink_frame _ _).after (by decide) ?_ | with_reducible refine (flitLost_frame _ _ _ _).after (by decide) ?_
      | with_reducible refine (laneFail_frame _ _ _).after (by decide) ?_ | with_reducible refine Answers.ite ?_ ?_ | with_reducible refine Only.ite ?_ ?_ | split)

theorem execDumpReqFlit_frame (seq : BitVec 8) (full : Bool) (s : State) : Answers (execDumpReqFlit seq full s) (Only [.link] s) := by
  unfold execDumpReqFlit; refine onFlit_frame _ (by decide) _ _ _ _ _ (fun t => ?_); repeat' (first
      | with_reducible refine Answers.next ?_ | with_reducible exact Only.refl _ _ | with_reducible refine (onLink_frame _ _).after (by decide) ?_)

theorem execNakFlit_frame (toAnvil : Bool) (seq want : BitVec 8) (s : State) : Answers (execNakFlit toAnvil seq want s) (Only [.link] s) := by
  unfold execNakFlit; refine Answers.ite (Answers.next (Only.refl _ _)) ?_; refine onFlit_frame _ (by decide) _ _ _ _ _ (fun t => ?_); repeat' (first
      | with_reducible refine Answers.next ?_ | with_reducible exact Only.refl _ _ | with_reducible refine (onDir_frame _ _ _).after (by decide) ?_)
end Sys2Proof.Machine
end

