-- ==== Sys2Proof/Laws/Memory.lean ====
section
/-! SUPPORT. What each operation of Machine/Memory.lean leaves as it is: one law per operation, which names the parts of the state it may change. -/

namespace Sys2Proof.Machine

theorem memReadSpec_frame (r : Req) (s : State) : Only [] s (memReadSpec.run r s).st := by
  exact Only.refl _ _

theorem memPut_frame (r : MemRegion) (off addr : Nat) (b : Rec) (s : State) : Only [.ces, .upd] s (memPut r off addr b s) := by
  unfold memPut; repeat' (first
      | with_reducible exact Only.refl _ _ | with_reducible refine (onUpd_frame _ _).after (by decide) ?_
      | with_reducible refine (onCore_frame _ _ _).after (by decide) ?_ | split)

theorem memWriteSpec_frame (r : Req) (s : State) : Only [.ces, .upd] s (memWriteSpec.run r s).st := by
  unfold memWriteSpec; try simp only []; repeat' (first
      | with_reducible exact Only.refl _ _ | with_reducible refine (memPut_frame _ _ _ _ _).after (by decide) ?_ | split)
end Sys2Proof.Machine
end

