-- ==== Sys2Proof/Laws/OpTable.lean ====
section
/-! SUPPORT. What each operation of Machine/OpTable.lean leaves as it is: one law per operation, which names the parts of the state it may change. -/

namespace Sys2Proof.Machine

/-- What an opcode may change: an execution leaves the block on the link, the snapshots, the batches, the pins of the ports and the command queue alone. -/
def OpSpec.Keeps (o : OpSpec) : Prop := ∀ r s, Only [.roles, .com, .anvil, .rep, .time, .sched, .ctxs, .qf, .flt, .light, .bus, .pwr, .ces, .acc, .keys, .upd, .free] s (o.run r s).st
/-- Every opcode of a table keeps to that. -/
def TabKeeps (tab : Nat → Option OpSpec) : Prop := ∀ c o, tab c = some o → o.Keeps

theorem specsSysCmds_keep : ∀ o ∈ specsSysCmds, o.Keeps :=
  List.forall_mem_cons.2 ⟨fun r s => (pingSpec_frame r s).sub (by decide), List.forall_mem_cons.2 ⟨fun r s => (getInfoSpec_frame r s).sub (by decide), List.forall_mem_cons.2 ⟨fun r s => (ctxResetSpec_frame r s).sub (by decide), List.forall_mem_cons.2 ⟨fun r s => (unitClaimSpec_frame r s).sub (by decide), List.forall_mem_cons.2 ⟨fun r s => (ctxConfigSpec_frame r s).sub (by decide), List.forall_mem_nil _⟩⟩⟩⟩⟩

theorem specsMemory_keep : ∀ o ∈ specsMemory, o.Keeps :=
  List.forall_mem_cons.2 ⟨fun r s => (memReadSpec_frame r s).sub (by decide), List.forall_mem_cons.2 ⟨fun r s => (memWriteSpec_frame r s).sub (by decide), List.forall_mem_nil _⟩⟩

theorem specsSchedCmds_keep : ∀ o ∈ specsSchedCmds, o.Keeps :=
  List.forall_mem_cons.2 ⟨fun r s => (modeSelectSpec_frame r s).sub (by decide), List.forall_mem_cons.2 ⟨fun r s => (schedStatusSpec_frame r s).sub (by decide), List.forall_mem_cons.2 ⟨fun r s => (schedUnitSpec_frame r s).sub (by decide), List.forall_mem_nil _⟩⟩⟩

theorem specsQueueCmds_keep : ∀ o ∈ specsQueueCmds, o.Keeps :=
  List.forall_mem_cons.2 ⟨fun r s => (qConfigSpec_frame r s).sub (by decide), List.forall_mem_cons.2 ⟨fun r s => (qPushSpec_frame r s).sub (by decide), List.forall_mem_cons.2 ⟨fun r s => (qReadSpec_frame r s).sub (by decide), List.forall_mem_cons.2 ⟨fun r s => (qMarkSpec_frame r s).sub (by decide), List.forall_mem_cons.2 ⟨fun r s => (qRewindSpec_frame r s).sub (by decide), List.forall_mem_cons.2 ⟨fun r s => (qReleaseSpec_frame r s).sub (by decide), List.forall_mem_cons.2 ⟨fun r s => (qStatusSpec_frame r s).sub (by decide), List.forall_mem_cons.2 ⟨fun r s => (qAuditSpec_frame r s).sub (by decide), List.forall_mem_nil _⟩⟩⟩⟩⟩⟩⟩⟩

theorem specsChannels_keep : ∀ o ∈ specsChannels, o.Keeps :=
  List.forall_mem_cons.2 ⟨fun r s => (chConfigSpec_frame r s).sub (by decide), List.forall_mem_cons.2 ⟨fun r s => (chSetSpec_frame r s).sub (by decide), List.forall_mem_cons.2 ⟨fun r s => (chStatusSpec_frame r s).sub (by decide), List.forall_mem_cons.2 ⟨fun r s => (chClearDiagSpec_frame r s).sub (by decide), List.forall_mem_cons.2 ⟨fun r s => (lhConfigSpec_frame r s).sub (by decide), List.forall_mem_cons.2 ⟨fun r s => (lhStatusSpec_frame r s).sub (by decide), List.forall_mem_nil _⟩⟩⟩⟩⟩⟩

theorem specsProtection_keep : ∀ o ∈ specsProtection, o.Keeps :=
  List.forall_mem_cons.2 ⟨fun r s => (chProtConfigSpec_frame r s).sub (by decide), List.forall_mem_cons.2 ⟨fun r s => (chClearProtSpec_frame r s).sub (by decide), List.forall_mem_cons.2 ⟨fun r s => (chProtStatusSpec_frame r s).sub (by decide), List.forall_mem_cons.2 ⟨fun r s => (supplyStatusSpec_frame r s).sub (by decide), List.forall_mem_nil _⟩⟩⟩⟩

theorem specsInductive_keep : ∀ o ∈ specsInductive, o.Keeps :=
  List.forall_mem_cons.2 ⟨fun r s => (indConfigSpec_frame r s).sub (by decide), List.forall_mem_cons.2 ⟨fun r s => (indSetSpec_frame r s).sub (by decide), List.forall_mem_cons.2 ⟨fun r s => (indStatusSpec_frame r s).sub (by decide), List.forall_mem_cons.2 ⟨fun r s => (indClearSpec_frame r s).sub (by decide), List.forall_mem_nil _⟩⟩⟩⟩

theorem specsBridges_keep : ∀ o ∈ specsBridges, o.Keeps :=
  List.forall_mem_cons.2 ⟨fun r s => (brConfigSpec_frame r s).sub (by decide), List.forall_mem_cons.2 ⟨fun r s => (brSetSpec_frame r s).sub (by decide), List.forall_mem_cons.2 ⟨fun r s => (brStatusSpec_frame r s).sub (by decide), List.forall_mem_cons.2 ⟨fun r s => (brClearSpec_frame r s).sub (by decide), List.forall_mem_cons.2 ⟨fun r s => (brPosSetSpec_frame r s).sub (by decide), List.forall_mem_nil _⟩⟩⟩⟩⟩

theorem specsLighting_keep : ∀ o ∈ specsLighting, o.Keeps :=
  List.forall_mem_cons.2 ⟨fun r s => (lsConfigSpec_frame r s).sub (by decide), List.forall_mem_cons.2 ⟨fun r s => (lsSetSpec_frame r s).sub (by decide), List.forall_mem_cons.2 ⟨fun r s => (lsStatusSpec_frame r s).sub (by decide), List.forall_mem_cons.2 ⟨fun r s => (lsClearSpec_frame r s).sub (by decide), List.forall_mem_cons.2 ⟨fun r s => (lightConfigSpec_frame r s).sub (by decide), List.forall_mem_cons.2 ⟨fun r s => (lightStageSpec_frame r s).sub (by decide), List.forall_mem_cons.2 ⟨fun r s => (lightDiscardSpec_frame r s).sub (by decide), List.forall_mem_cons.2 ⟨fun r s => (lightCommitSpec_frame r s).sub (by decide), List.forall_mem_cons.2 ⟨fun r s => (lightStatusSpec_frame r s).sub (by decide), List.forall_mem_nil _⟩⟩⟩⟩⟩⟩⟩⟩⟩

theorem specsTasks_keep : ∀ o ∈ specsTasks, o.Keeps :=
  List.forall_mem_cons.2 ⟨fun r s => (taskControlSpec_frame r s).sub (by decide), List.forall_mem_cons.2 ⟨fun r s => (taskStatusSpec_frame r s).sub (by decide), List.forall_mem_cons.2 ⟨fun r s => (taskParamSpec_frame r s).sub (by decide), List.forall_mem_cons.2 ⟨fun r s => (coreStatusSpec_frame r s).sub (by decide), List.forall_mem_nil _⟩⟩⟩⟩

theorem specsCan_keep : ∀ o ∈ specsCan, o.Keeps :=
  List.forall_mem_cons.2 ⟨fun r s => (canConfigSpec_frame r s).sub (by decide), List.forall_mem_cons.2 ⟨fun r s => (canWakeConfigSpec_frame r s).sub (by decide), List.forall_mem_cons.2 ⟨fun r s => (canFiltWriteSpec_frame r s).sub (by decide), List.forall_mem_cons.2 ⟨fun r s => (canFiltApplySpec_frame r s).sub (by decide), List.forall_mem_cons.2 ⟨fun r s => (canControlSpec_frame r s).sub (by decide), List.forall_mem_cons.2 ⟨fun r s => (canStatusSpec_frame r s).sub (by decide), List.forall_mem_nil _⟩⟩⟩⟩⟩⟩

theorem specsLin_keep : ∀ o ∈ specsLin, o.Keeps :=
  List.forall_mem_cons.2 ⟨fun r s => (linConfigSpec_frame r s).sub (by decide), List.forall_mem_cons.2 ⟨fun r s => (linSetSpec_frame r s).sub (by decide), List.forall_mem_cons.2 ⟨fun r s => (linControlSpec_frame r s).sub (by decide), List.forall_mem_cons.2 ⟨fun r s => (linStatusSpec_frame r s).sub (by decide), List.forall_mem_cons.2 ⟨fun r s => (gwBindSpec_frame r s).sub (by decide), List.forall_mem_cons.2 ⟨fun r s => (gwStatusSpec_frame r s).sub (by decide), List.forall_mem_nil _⟩⟩⟩⟩⟩⟩

theorem specsEth_keep : ∀ o ∈ specsEth, o.Keeps :=
  List.forall_mem_cons.2 ⟨fun r s => (ethConfigSpec_frame r s).sub (by decide), List.forall_mem_cons.2 ⟨fun r s => (ethStatusSpec_frame r s).sub (by decide), List.forall_mem_nil _⟩⟩

theorem specsAccessCmds_keep : ∀ o ∈ specsAccessCmds, o.Keeps :=
  List.forall_mem_cons.2 ⟨fun r s => (accConfigSpec_frame r s).sub (by decide), List.forall_mem_cons.2 ⟨fun r s => (accStartSpec_frame r s).sub (by decide), List.forall_mem_cons.2 ⟨fun r s => (accCalibrateSpec_frame r s).sub (by decide), List.forall_mem_cons.2 ⟨fun r s => (accHelloSpec_frame r s).sub (by decide), List.forall_mem_cons.2 ⟨fun r s => (accResponseSpec_frame r s).sub (by decide), List.forall_mem_cons.2 ⟨fun r s => (accPresenceSpec_frame r s).sub (by decide), List.forall_mem_cons.2 ⟨fun r s => (immoStartSpec_frame r s).sub (by decide), List.forall_mem_cons.2 ⟨fun r s => (immoRevokeSpec_frame r s).sub (by decide), List.forall_mem_cons.2 ⟨fun r s => (accStatusSpec_frame r s).sub (by decide), List.forall_mem_cons.2 ⟨fun r s => (accClearSpec_frame r s).sub (by decide), List.forall_mem_cons.2 ⟨fun r s => (accLockClearSpec_frame r s).sub (by decide), List.forall_mem_cons.2 ⟨fun r s => (accLockStatusSpec_frame r s).sub (by decide), List.forall_mem_nil _⟩⟩⟩⟩⟩⟩⟩⟩⟩⟩⟩⟩

theorem specsKeys_keep : ∀ o ∈ specsKeys, o.Keeps :=
  List.forall_mem_cons.2 ⟨fun r s => (keyWriteSpec_frame r s).sub (by decide), List.forall_mem_cons.2 ⟨fun r s => (keyGenkeySpec_frame r s).sub (by decide), List.forall_mem_cons.2 ⟨fun r s => (keyInfoSpec_frame r s).sub (by decide), List.forall_mem_cons.2 ⟨fun r s => (keyMacSpec_frame r s).sub (by decide), List.forall_mem_cons.2 ⟨fun r s => (keyCipherSpec_frame r s).sub (by decide), List.forall_mem_cons.2 ⟨fun r s => (keySignSpec_frame r s).sub (by decide), List.forall_mem_cons.2 ⟨fun r s => (keyEcdhSpec_frame r s).sub (by decide), List.forall_mem_cons.2 ⟨fun r s => (keyAttestSpec_frame r s).sub (by decide), List.forall_mem_nil _⟩⟩⟩⟩⟩⟩⟩⟩

theorem specsFaults_keep : ∀ o ∈ specsFaults, o.Keeps :=
  List.forall_mem_cons.2 ⟨fun r s => (fltConfigSpec_frame r s).sub (by decide), List.forall_mem_cons.2 ⟨fun r s => (fltStatusSpec_frame r s).sub (by decide), List.forall_mem_cons.2 ⟨fun r s => (fltHistorySpec_frame r s).sub (by decide), List.forall_mem_cons.2 ⟨fun r s => (fltStickySpec_frame r s).sub (by decide), List.forall_mem_cons.2 ⟨fun r s => (fltClearSpec_frame r s).sub (by decide), List.forall_mem_cons.2 ⟨fun r s => (fltGlobalSpec_frame r s).sub (by decide), List.forall_mem_nil _⟩⟩⟩⟩⟩⟩

theorem specsPower_keep : ∀ o ∈ specsPower, o.Keeps :=
  List.forall_mem_cons.2 ⟨fun r s => (pwrConfigSpec_frame r s).sub (by decide), List.forall_mem_cons.2 ⟨fun r s => (pwrSetSpec_frame r s).sub (by decide), List.forall_mem_cons.2 ⟨fun r s => (pwrStatusSpec_frame r s).sub (by decide), List.forall_mem_cons.2 ⟨fun r s => (padReleaseSpec_frame r s).sub (by decide), List.forall_mem_cons.2 ⟨fun r s => (pwrWakeListSpec_frame r s).sub (by decide), List.forall_mem_cons.2 ⟨fun r s => (hearthRestartSpec_frame r s).sub (by decide), List.forall_mem_nil _⟩⟩⟩⟩⟩⟩

theorem specsUpdate_keep : ∀ o ∈ specsUpdate, o.Keeps :=
  List.forall_mem_cons.2 ⟨fun r s => (updBeginSpec_frame r s).sub (by decide), List.forall_mem_cons.2 ⟨fun r s => (updWriteSpec_frame r s).sub (by decide), List.forall_mem_cons.2 ⟨fun r s => (updFinishSpec_frame r s).sub (by decide), List.forall_mem_cons.2 ⟨fun r s => (updVerifySpec_frame r s).sub (by decide), List.forall_mem_cons.2 ⟨fun r s => (updActivateSpec_frame r s).sub (by decide), List.forall_mem_cons.2 ⟨fun r s => (updCancelSpec_frame r s).sub (by decide), List.forall_mem_cons.2 ⟨fun r s => (updConfirmSpec_frame r s).sub (by decide), List.forall_mem_cons.2 ⟨fun r s => (updRollbackSpec_frame r s).sub (by decide), List.forall_mem_cons.2 ⟨fun r s => (updServiceSpec_frame r s).sub (by decide), List.forall_mem_cons.2 ⟨fun r s => (updStatusSpec_frame r s).sub (by decide), List.forall_mem_cons.2 ⟨fun r s => (schedCheckSpec_frame r s).sub (by decide), List.forall_mem_nil _⟩⟩⟩⟩⟩⟩⟩⟩⟩⟩⟩

theorem specsInputs_keep : ∀ o ∈ specsInputs, o.Keeps :=
  List.forall_mem_cons.2 ⟨fun r s => (inConfigSpec_frame r s).sub (by decide), List.forall_mem_cons.2 ⟨fun r s => (inGlobalSpec_frame r s).sub (by decide), List.forall_mem_cons.2 ⟨fun r s => (inStatusSpec_frame r s).sub (by decide), List.forall_mem_cons.2 ⟨fun r s => (inCfgReadSpec_frame r s).sub (by decide), List.forall_mem_cons.2 ⟨fun r s => (monReadSpec_frame r s).sub (by decide), List.forall_mem_nil _⟩⟩⟩⟩⟩

theorem specsTimeBase_keep : ∀ o ∈ specsTimeBase, o.Keeps :=
  List.forall_mem_cons.2 ⟨fun r s => (tbReadSpec_frame r s).sub (by decide), List.forall_mem_cons.2 ⟨fun r s => (timeAnchorSpec_frame r s).sub (by decide), List.forall_mem_cons.2 ⟨fun r s => (cmpSetSpec_frame r s).sub (by decide), List.forall_mem_cons.2 ⟨fun r s => (cmpStatusSpec_frame r s).sub (by decide), List.forall_mem_cons.2 ⟨fun r s => (tmrConfigSpec_frame r s).sub (by decide), List.forall_mem_cons.2 ⟨fun r s => (tmrStatusSpec_frame r s).sub (by decide), List.forall_mem_nil _⟩⟩⟩⟩⟩⟩

theorem allSpecs_keep :
    ∀ o ∈ allSpecs, o.Keeps := (List.forall_mem_append.2 ⟨(List.forall_mem_append.2 ⟨(List.forall_mem_append.2 ⟨(List.forall_mem_append.2 ⟨(List.forall_mem_append.2 ⟨(List.forall_mem_append.2 ⟨(List.forall_mem_append.2 ⟨(List.forall_mem_append.2 ⟨(List.forall_mem_append.2 ⟨(List.forall_mem_append.2 ⟨(List.forall_mem_append.2 ⟨(List.forall_mem_append.2 ⟨(List.forall_mem_append.2 ⟨(List.forall_mem_append.2 ⟨(List.forall_mem_append.2 ⟨(List.forall_mem_append.2 ⟨(List.forall_mem_append.2 ⟨(List.forall_mem_append.2 ⟨(List.forall_mem_append.2 ⟨specsSysCmds_keep, specsMemory_keep⟩), specsSchedCmds_keep⟩), specsQueueCmds_keep⟩), specsChannels_keep⟩), specsProtection_keep⟩), specsInductive_keep⟩), specsBridges_keep⟩), specsLighting_keep⟩), specsTasks_keep⟩), specsCan_keep⟩), specsLin_keep⟩), specsEth_keep⟩), specsAccessCmds_keep⟩), specsKeys_keep⟩), specsFaults_keep⟩), specsPower_keep⟩), specsUpdate_keep⟩), specsInputs_keep⟩), specsTimeBase_keep⟩)

theorem opSpec_keeps : TabKeeps opSpec := fun _ o h => allSpecs_keep o (List.mem_of_find?_eq_some h)

theorem acceptOne_frame (o : OpSpec) (hk : o.Keeps) (p : Pkt) (s : State) :
    Only [.roles, .com, .anvil, .rep, .time, .sched, .ctxs, .qf, .closed, .flt, .light, .bus, .pwr, .ces, .acc, .keys, .upd, .free] s (acceptOne o p s) := by
  unfold acceptOne
  dsimp only
  split
  · exact (respond_frame _ _ _ _ _ _ _).sub (by decide)
  · split
    · exact (respond_frame _ _ _ _ _ _ _).sub (by decide)
    · exact (respond_frame _ _ _ _ _ _ _).sub (by decide)
    · exact (respond_frame _ _ _ _ _ _ _).after (by decide) (((hk _ _).sub (by decide)).after (fun _ h => h) ((hostWake_frame _ _ _).sub (by decide)))
    · refine Only.upd (t := hostWake o p.h.ctx s) ((hostWake_frame _ _ _).sub (by decide)) ?_
      intro p hp; cases p <;> first | exact absurd (by decide) hp | rfl

theorem releaseRoom_frame (tab : Nat → Option OpSpec) (c : Nat) (ms : List Pkt) (s : State) : Only [.ctxs] s (releaseRoom tab c ms s) := by
  unfold releaseRoom; with_reducible exact (onCtx_frame _ _ _).sub (by decide)

theorem acceptMember_frame (tab : Nat → Option OpSpec) (p : Pkt) (s : State) : Only [.ctxs, .qf, .closed, .pwr] s (acceptMember tab p s) := by
  unfold acceptMember
  lift_lets
  intro x b e v f m a
  have ha : Only [.ctxs, .qf, .closed, .pwr] s a := by
    dsimp only [a]
    split
    · exact (hostWake_frame _ _ _).sub (by decide)
    · exact Only.refl _ _
  clear_value a f
  split
  · exact (onCtx_frame _ _ _).after (by decide) ha
  · dsimp only
    split
    · exact (failReplies_frame _ _ _ _).after (by decide) ((releaseRoom_frame _ _ _ _).after (by decide) ((onCtx_frame _ _ _).after (by decide) ha))
    · refine Only.upd (t := ?t) ?g ?k
      case k => intro p hp; cases p <;> first | exact absurd (by decide) hp | (dsimp only [Part.same]; try with_reducible exact Eq.refl _)
      exact (onCtx_frame _ _ _).after (by decide) ha

theorem acceptPkt_frame (tab : Nat → Option OpSpec) (hk : TabKeeps tab) (p : Pkt) (s : State) :
    Only [.roles, .com, .anvil, .rep, .time, .sched, .ctxs, .qf, .closed, .flt, .light, .bus, .pwr, .ces, .acc, .keys, .upd, .free] s (acceptPkt tab p s) := by
  unfold acceptPkt
  dsimp only
  split
  · refine (onCtx_frame _ _ _).after (by decide) (Only.foldl _ (fun s q => (refuseEarly_frame _ _ _ _).sub (by decide)) _ ?_)
    exact (onCtx_frame _ _ _).after (by decide) ((refuseEarly_frame _ _ _ _).sub (by decide))
  · split
    · exact (acceptMember_frame _ _ _).after (by decide) ((onCtx_frame _ _ _).after (by decide) ((onCtx_frame _ _ _).sub (by decide)))
    · split
      · exact (respond_frame _ _ _ _ _ _ _).after (by decide) ((onCtx_frame _ _ _).sub (by decide))
      · rename_i o ho
        exact (acceptOne_frame o (hk _ o ho) _ _).after (fun _ h => h) ((onCtx_frame _ _ _).sub (by decide))

theorem tryAccept_frame (tab : Nat → Option OpSpec) (hk : TabKeeps tab) (c : Nat) (s : State) :
    Only [.roles, .com, .anvil, .rep, .time, .sched, .ctxs, .qf, .closed, .flt, .light, .bus, .pwr, .ces, .acc, .keys, .upd, .free] s (tryAccept tab c s) := by
  unfold tryAccept
  dsimp only
  split
  · exact Only.refl _ _
  · split
    · exact (acceptPkt_frame tab hk _ _).after (fun _ h => h) ((onCtx_frame _ _ _).sub (by decide))
    · exact Only.ite ((acceptPkt_frame tab hk _ _).after (fun _ h => h) ((chargeShare_frame _ _ _).after (by decide) ((onCtx_frame _ _ _).sub (by decide)))) (Only.refl _ _)

theorem deliver_frame (tab : Nat → Option OpSpec) (hk : TabKeeps tab) (p : Pkt) (s : State) :
    Only [.roles, .com, .anvil, .rep, .time, .sched, .ctxs, .qf, .closed, .flt, .light, .bus, .pwr, .ces, .acc, .keys, .upd, .free] s (deliver tab p s) := by
  have ha : Only [.roles, .com, .anvil, .rep, .time, .sched, .ctxs, .qf, .closed, .flt, .light, .bus, .pwr, .ces, .acc, .keys, .upd, .free] s (arrive p s).1 := (arrive_frame p s).sub (by decide)
  unfold deliver
  dsimp only
  split
  · exact (refuseEarly_frame _ _ _ _).sub (by decide)
  · split
    · exact (refuseEarly_frame _ _ _ _).sub (by decide)
    · split
      · rename_i h; rw [h] at ha; exact ha
      · rename_i h; rw [h] at ha
        split
        · refine (tryAccept_frame tab hk _ _).after (fun _ h => h) ?_
          have hb : ∀ g, Only [.roles, .com, .anvil, .rep, .time, .sched, .ctxs, .qf, .closed, .flt, .light, .bus, .pwr, .ces, .acc, .keys, .upd, .free] s (onCtx p.h.ctx g (arrive p s).1) := fun g => (onCtx_frame _ _ _).after (by decide) (by rw [h]; exact ha)
          simp only [h] at hb
          exact Only.ite (hb _) ((onCtx_frame _ _ _).after (by decide) (hb _))
        · exact (onCtx_frame _ _ _).after (by decide) ((onCtx_frame _ _ _).after (by decide) ha)

theorem submit_frame (o : OpSpec) (h : Hdr) (b : Rec) (tab : Nat → Option OpSpec) (hk : TabKeeps tab) (s : State) :
    Only [.roles, .com, .anvil, .rep, .time, .sched, .ctxs, .hspi0, .hspi1, .qf, .closed, .flt, .light, .bus, .pwr, .ces, .acc, .keys, .upd, .free] s (submit o h b tab s) := by
  unfold submit
  repeat' (first | exact Only.refl _ _ | exact (unboundPacket_frame _).sub (by decide) | exact (deliver_frame tab hk _ _).sub (by decide) | split)

theorem commitMembers_frame (tab : Nat → Option OpSpec) (hk : TabKeeps tab) (e : Fn) (m : Option Nat) (cf : List Nat) (tg : Bool) (ps : List Pkt) (s : State)
    (acc : List (Pkt × Status × Nat × Rec)) (t : State) (rs : List (Pkt × Status × Nat × Rec)) (h : commitMembers tab e m cf tg ps s acc = .ok (t, rs)) :
    Only [.roles, .com, .anvil, .rep, .time, .sched, .ctxs, .qf, .flt, .light, .bus, .pwr, .ces, .acc, .keys, .upd, .free] s t := by
  induction ps generalizing s acc with
  | nil =>
    unfold commitMembers at h
    cases h
    exact Only.refl _ _
  | cons p ps ih =>
    unfold commitMembers at h
    dsimp only at h
    split at h
    · cases h
    · rename_i o ho
      split at h
      · cases h
      · exact Only.trans ((onCom_frame _ _).after (by decide) (hk _ o ho _ _)) (ih _ _ h)

theorem commitReplies_frame (tab : Nat → Option OpSpec) (e : Fn) (v : State) (rs : List (Pkt × Status × Nat × Rec)) (s : State) :
    Only [.ctxs, .qf] s (commitReplies tab e v rs s) := by
  induction rs generalizing s with
  | nil => exact Only.refl _ _
  | cons a t ih => exact Only.trans (respond_frame _ _ _ _ _ _ _) (ih _)

theorem commitBatch_frame (tab : Nat → Option OpSpec) (hk : TabKeeps tab) (b : ClosedBatch) (s : State) :
    Only [.roles, .com, .anvil, .rep, .time, .sched, .ctxs, .qf, .flt, .light, .bus, .pwr, .ces, .acc, .keys, .upd, .free] s (commitBatch tab b s) := by
  have room (t : State) (h : Only [.roles, .com, .anvil, .rep, .time, .sched, .ctxs, .qf, .flt, .light, .bus, .pwr, .ces, .acc, .keys, .upd, .free] s t) : Only [.roles, .com, .anvil, .rep, .time, .sched, .ctxs, .qf, .flt, .light, .bus, .pwr, .ces, .acc, .keys, .upd, .free] s (if 2 ≤ b.members.length then releaseRoom tab b.ctx b.members t else t) :=
    Only.ite ((releaseRoom_frame _ _ _ _).after (by decide) h) h
  unfold commitBatch
  dsimp only
  split
  · rename_i h
    exact (commitReplies_frame _ _ _ _ _).after (by decide) (room _ (commitMembers_frame tab hk _ _ _ _ _ _ _ _ _ h))
  · exact (failReplies_frame _ _ _ _).after (by decide) (room _ (Only.refl _ _))

theorem takePacket_frame (tab : Nat → Option OpSpec) (hk : TabKeeps tab) (bd : Option Nat) (b : Rec) (m : List Part) (hm : ∀ p ∈ [.roles, .com, .anvil, .rep, .time, .sched, .ctxs, .qf, .closed, .flt, .light, .bus, .pwr, .ces, .acc, .keys, .upd, .free], p ∈ m) (un : State → State)
    (hu : ∀ s, Only m s (un s)) (s : State) : Only m s (takePacket tab bd b un s) := by
  unfold takePacket
  dsimp only
  have hr (p : Pkt) (st : Status) (d : Nat) : Only m s (refuseEarly p st d s) := ((refuseEarly_frame p st d s).sub (m := [.roles, .com, .anvil, .rep, .time, .sched, .ctxs, .qf, .closed, .flt, .light, .bus, .pwr, .ces, .acc, .keys, .upd, .free]) (by decide)).sub hm
  repeat' (first | exact Only.refl _ _ | exact hu _ | exact hr _ _ _ | exact (deliver_frame tab hk _ _).sub hm | split)

theorem takePackets_frame (tab : Nat → Option OpSpec) (hk : TabKeeps tab) (bd : Option Nat) (m : List Part) (hm : ∀ p ∈ [.roles, .com, .anvil, .rep, .time, .sched, .ctxs, .qf, .closed, .flt, .light, .bus, .pwr, .ces, .acc, .keys, .upd, .free], p ∈ m) (un : State → State)
    (hu : ∀ s, Only m s (un s)) (pad : Bool) (cause n : Nat) (b : Rec) (s : State) : Only m s (takePackets tab bd un pad cause n b s) := by
  induction n generalizing b s with
  | zero => exact Only.refl _ _
  | succ n ih =>
    unfold takePackets
    dsimp only
    split
    · exact Only.refl _ _
    · split
      · split
        · exact ((linkRestart_frame _ _ _).sub (m := [.roles, .com, .anvil, .rep, .time, .sched, .ctxs, .qf, .closed, .flt, .light, .bus, .pwr, .ces, .acc, .keys, .upd, .free]) (by decide)).sub hm
        · exact Only.refl _ _
      · exact Only.trans (takePacket_frame tab hk _ _ m hm un hu _) (ih _ _)

theorem ethReceive_frame (tab : Nat → Option OpSpec) (hk : TabKeeps tab) (p : Nat) (f : EthFrame) (s : State) :
    Only [.roles, .com, .anvil, .rep, .time, .sched, .ctxs, .qf, .closed, .flt, .light, .bus, .pwr, .ces, .acc, .keys, .upd, .free] s (ethReceive tab p f s) := by
  have he (g : EthPort → EthPort) (s t : State) (h : Only [.roles, .com, .anvil, .rep, .time, .sched, .ctxs, .qf, .closed, .flt, .light, .bus, .pwr, .ces, .acc, .keys, .upd, .free] s t) : Only [.roles, .com, .anvil, .rep, .time, .sched, .ctxs, .qf, .closed, .flt, .light, .bus, .pwr, .ces, .acc, .keys, .upd, .free] s (onEth p g t) := (onEth_frame _ _ _).after (by decide) h
  have hr (n : Nat) (s t : State) (h : Only [.roles, .com, .anvil, .rep, .time, .sched, .ctxs, .qf, .closed, .flt, .light, .bus, .pwr, .ces, .acc, .keys, .upd, .free] s t) : Only [.roles, .com, .anvil, .rep, .time, .sched, .ctxs, .qf, .closed, .flt, .light, .bus, .pwr, .ces, .acc, .keys, .upd, .free] s (raise n p t) := (raise_frame _ _ _).after (by decide) h
  unfold ethReceive
  dsimp only
  split
  · exact Only.refl _ _
  · split
    · exact he _ _ _ (Only.refl _ _)
    · split
      · split
        · exact hr _ _ _ (he _ _ _ (Only.refl _ _))
        · exact he _ _ _ (Only.refl _ _)
      · rename_i sa hx
        clear hx
        split
        · refine he _ _ _ ?_
          split
          · exact he _ _ _ (Only.refl _ _)
          · exact he _ _ _ (Only.refl _ _)
          · exact Only.refl _ _
        · refine (takePackets_frame tab hk _ _ (fun _ h => h) _ ?_ _ _ _ _ _).after (fun _ h => h) (he _ _ _ ?_)
          · intro u
            exact (raise_frame _ _ _).after (by decide) (he _ _ _ (Only.refl _ _))
          split
          · exact he _ _ _ (Only.refl _ _)
          · exact he _ _ _ (Only.refl _ _)
          · exact Only.refl _ _
end Sys2Proof.Machine
end

