-- ==== Sys2Proof/Laws/Commit.lean ====
section
/-! SUPPORT. What each operation of Machine/Commit.lean leaves as it is: one law per operation, which names the parts of the state it may change. -/

namespace Sys2Proof.Machine

theorem commitDue_frame (n : Nat) (s : State) :
    Only [.roles, .com, .anvil, .rep, .time, .sched, .ctxs, .qf, .closed, .flt, .light, .bus, .pwr, .ces, .acc, .keys, .upd, .free] s (commitDue n s) := by
  induction n generalizing s with
  | zero => exact Only.refl _ _
  | succ n ih =>
    unfold commitDue
    split
    · exact Only.refl _ _
    · refine Only.trans ((commitBatch_frame opSpec opSpec_keeps _ _).after (by decide) (Only.upd (t := s) (Only.refl _ _) ?_)) (ih _)
      intro p hp; cases p <;> first | exact absurd (by decide) hp | rfl

theorem linToLimbo_frame (c : Nat) (s : State) : Only [.bus] s (linToLimbo c s) := by
  unfold linToLimbo; repeat' (first
      | with_reducible exact Only.refl _ _ | with_reducible refine (onLin_frame _ _ _).after (by decide) ?_ | with_reducible refine Only.ite ?_ ?_
      | with_reducible refine Only.foldl _ (fun s a => ?_) _ ?_)

theorem batchTimeout_frame (x0 : Nat) (x1 : State) :
    Only [.roles, .com, .anvil, .rep, .time, .sched, .ctxs, .qf, .flt, .light, .bus, .pwr, .ces, .acc, .keys, .upd, .free] x1 (batchTimeout x0 x1) := by
  unfold batchTimeout
  split
  · exact Only.refl _ _
  · refine Only.ite (Only.refl _ _) (Only.foldl _ (fun s p => ?_) _ ((releaseRoom_frame _ _ _ _).after (by decide) ((onCtx_frame _ _ _).sub (by decide))))
    split
    · exact Only.ite ((respond_frame _ _ _ _ _ _ _).sub (by decide)) ((respond_frame _ _ _ _ _ _ _).sub (by decide))
    · exact (respond_frame _ _ _ _ _ _ _).sub (by decide)

theorem execBatchTimeout_frame (c : Nat) (s : State) :
    Answers (execBatchTimeout c s) (Only [.roles, .com, .anvil, .rep, .time, .sched, .ctxs, .qf, .flt, .light, .bus, .pwr, .ces, .acc, .keys, .upd, .free] s) := by
  unfold execBatchTimeout; repeat' (first
      | with_reducible refine Answers.next ?_ | with_reducible exact Only.refl _ _ | with_reducible refine (ethDrain_frame _).after (by decide) ?_
      | with_reducible refine (batchTimeout_frame _ _).after (by decide) ?_ | with_reducible refine (atTick_frame _ _).after (by decide) ?_ | split)

theorem gwSend_frame (c q x2 : Nat) (s : State) : Only [.ctxs, .qf, .bus] s (gwSend c q x2 s).1 := by
  unfold gwSend; repeat' (first | ((try lift_lets); intro y; first | (refine Only.cut y ?c1 (fun hy => ?c2); (case' c1 => dsimp only [y]); (case' c2 => clear_value y)) | (have _h : State → State := y; clear _h; subst y) | (have _h : State → _ → State := y; clear _h; subst y) | clear_value y) | with_reducible exact Only.refl _ _ | with_reducible assumption | with_reducible refine (onQueue_frame _ _ _).after (by decide) ?_ | with_reducible refine (onGw_frame _ _ _).after (by decide) ?_ | with_reducible refine (onCtx_frame _ _ _).after (by decide) ?_ | with_reducible refine (sendNtf_frame _ _ _).after (by decide) ?_ | with_reducible refine Only.ite ?_ ?_ | with_reducible refine Only.foldl _ (fun s a => ?_) _ ?_ | split | dsimp only)

theorem gwForward_frame (c q : Nat) (s : State) : Only [.ctxs, .qf, .bus] s (gwForward c q s) := by
  unfold gwForward; repeat' (first
      | with_reducible exact Only.refl _ _ | with_reducible refine (gwSend_frame _ _ _ _).after (by decide) ?_ | with_reducible refine Only.ite ?_ ?_)

theorem resetQueue_frame (c q : Nat) (s : State) : Only [.qf] s (resetQueue c q s) := by
  unfold resetQueue; repeat' (first
      | with_reducible exact Only.refl _ _ | with_reducible refine (onQueue_frame _ _ _).after (by decide) ?_
      | with_reducible refine (closeQueue_frame _ _ _).after (by decide) ?_ | with_reducible refine Only.ite ?_ ?_)

theorem resetUnit_frame (x0 : Nat) (s : State) : Only [.roles, .com, .anvil, .time, .qf, .bus, .free] s (resetUnit x0 s) := by
  unfold resetUnit; repeat' (first
      | with_reducible exact Only.refl _ _ | with_reducible refine (handQueue_frame _ _ _).after (by decide) ?_
      | with_reducible refine (giveUnit_frame _ _ _ _).after (by decide) ?_ | with_reducible refine (bridgeRampDown_frame _ _).after (by decide) ?_
      | with_reducible refine (onCom_frame _ _).after (by decide) ?_ | with_reducible refine (holdStart_frame _ _).after (by decide) ?_
      | with_reducible refine (holdExpire_frame _ _).after (by decide) ?_ | with_reducible refine (sinkOrphan_frame _ _).after (by decide) ?_
      | with_reducible refine Only.ite ?_ ?_)

theorem resetStart_frame (c : Nat) (s : State) : Only [.roles, .com, .anvil, .time, .ctxs, .qf, .closed, .light, .bus, .acc, .upd, .free] s (resetStart c s) := by
  unfold resetStart; repeat' (first | with_reducible exact Only.refl _ _ | with_reducible refine (onCtx_frame _ _ _).after (by decide) ?_ | with_reducible refine (resetQueue_frame _ _ _).after (by decide) ?_ | with_reducible refine (refuseEarly_frame _ _ _ _).after (by decide) ?_ | with_reducible refine (linToLimbo_frame _ _).after (by decide) ?_ | with_reducible refine (resetUnit_frame _ _).after (by decide) ?_ | with_reducible refine (lightDiscard_frame _ _).after (by decide) ?_ | with_reducible refine (accCtxReset_frame _).after (by decide) ?_ | with_reducible refine (endSession_frame _).after (by decide) ?_ | with_reducible refine (onBus_frame _ _).after (by decide) ?_ | with_reducible refine Only.ite ?_ ?_ | with_reducible refine Only.foldl _ (fun s a => ?_) _ ?_ | (refine Only.upd (Only.refl _ s) ?_; intro p hp; cases p <;> first | exact absurd (by decide) hp | (dsimp only [Part.same]; done); done) | split | dsimp only)

theorem resetStarts_frame (s : State) : Only [.roles, .com, .anvil, .time, .ctxs, .qf, .closed, .light, .bus, .acc, .upd, .free] s (resetStarts s) := by
  unfold resetStarts; repeat' (first
      | with_reducible exact Only.refl _ _ | with_reducible refine (resetStart_frame _ _).after (by decide) ?_
      | with_reducible refine Only.foldl _ (fun s a => ?_) _ ?_)

theorem buildVersion_frame (s : State) :
    Only [.roles, .com, .anvil, .rep, .time, .sched, .ctxs, .qf, .closed, .flt, .light, .bus, .pwr, .ces, .acc, .keys, .upd, .free] s (buildVersion s) := by
  unfold buildVersion; repeat' (first
      | with_reducible exact Only.refl _ _ | with_reducible refine (onCom_frame _ _).after (by decide) ?_
      | with_reducible refine (resetStarts_frame _).after (by decide) ?_ | with_reducible refine (batchTimeout_frame _ _).after (by decide) ?_
      | with_reducible refine (adoptSinks_frame _).after (by decide) ?_ | with_reducible refine (adoptBridges_frame _).after (by decide) ?_
      | with_reducible refine (adoptCoils_frame _).after (by decide) ?_ | with_reducible refine (adoptHeld_frame _).after (by decide) ?_
      | with_reducible refine (adoptLimp_frame _).after (by decide) ?_ | with_reducible refine (commitDue_frame _ _).after (by decide) ?_
      | with_reducible refine (applyTasks_frame _).after (by decide) ?_ | with_reducible refine (autoGens_frame _).after (by decide) ?_
      | with_reducible refine (lightLand_frame _).after (by decide) ?_ | with_reducible refine (idleEnd_frame _).after (by decide) ?_
      | with_reducible refine Only.foldl _ (fun s a => ?_) _ ?_)

theorem packNtf_frame (x0 x1 : Nat) (x2 : Rec) (x3 : State) : Only [.qf, .pwr] x3 (packNtf x0 x1 x2 x3).2 := by
  induction x1 generalizing x2 x3 with
  | zero => exact Only.refl _ _
  | succ n ih =>
    unfold packNtf
    split
    · exact Only.refl _ _
    · dsimp only
      split
      · exact Only.refl _ _
      · refine Only.trans ?_ (ih _ _)
        exact Only.ite ((onPwr_frame _ _).after (by decide) ((onQueue_frame _ _ _).sub (by decide))) ((onQueue_frame _ _ _).sub (by decide))

theorem forwardNtf_frame (x0 x1 : Nat) (x2 : State) : Only [.ctxs, .qf, .pwr] x2 (forwardNtf x0 x1 x2) := by
  induction x1 generalizing x2 with
  | zero => exact Only.refl _ _
  | succ n ih =>
    have hp : Only [.ctxs, .qf, .pwr] x2 (packNtf x0 ((x2.queue (32 + x0)).cells.length) [] x2).2 := (packNtf_frame _ _ _ _).sub (by decide)
    unfold forwardNtf
    split
    · rename_i h; rw [h] at hp; exact hp
    · rename_i h; rw [h] at hp
      exact Only.trans ((onCtx_frame _ _ _).after (by decide) ((sendNtf_frame _ _ _).after (by decide) hp)) (ih _)

theorem forwardCtx_frame (s : State) (c : Nat) : Only [.ctxs, .qf, .bus, .pwr] s (forwardCtx s c) := by
  unfold forwardCtx; repeat' (first
      | with_reducible exact Only.refl _ _ | with_reducible refine (forwardNtf_frame _ _ _).after (by decide) ?_
      | with_reducible refine (gwForward_frame _ _ _).after (by decide) ?_ | with_reducible refine Only.ite ?_ ?_
      | with_reducible refine Only.foldl _ (fun s a => ?_) _ ?_)

theorem handBlock_frame (s : State) : Only [.blk, .link] s (handBlock s) := by
  unfold handBlock; repeat' (first | with_reducible exact Only.refl _ _ | with_reducible refine (onLink_frame _ _).after (by decide) ?_ | (refine Only.upd (Only.refl _ s) ?_; intro p hp; cases p <;> first | exact absurd (by decide) hp | (dsimp only [Part.same]; done); done))

theorem execCommitPoint_frame (s : State) :
    Answers (execCommitPoint s) (Only [.roles, .com, .blk, .anvil, .rep, .clk, .time, .sched, .ctxs, .qf, .link, .closed, .snaps, .flt, .light, .bus, .pwr, .ces, .acc, .keys, .upd, .free] s) := by
  unfold execCommitPoint; repeat' (first
      | with_reducible refine Answers.next ?_ | with_reducible exact Only.refl _ _ | with_reducible refine (buildVersion_frame _).after (by decide) ?_
      | with_reducible refine (onClk_frame _ _).after (by decide) ?_ | with_reducible refine (atTick_frame _ _).after (by decide) ?_
      | with_reducible refine (forwardCtx_frame _ _).after (by decide) ?_ | with_reducible refine (parkNotice_frame _).after (by decide) ?_
      | with_reducible refine (serviceBind_frame _).after (by decide) ?_ | with_reducible refine (parkAbandon_frame _).after (by decide) ?_
      | with_reducible refine (hearthRestart_frame _ _).after (by decide) ?_ | with_reducible refine (fallBack_frame _).after (by decide) ?_
      | with_reducible refine (ethDrain_frame _).after (by decide) ?_ | with_reducible refine (handBlock_frame _).after (by decide) ?_
      | with_reducible refine Answers.ite ?_ ?_ | with_reducible refine Only.ite ?_ ?_ | with_reducible refine Only.foldl _ (fun s a => ?_) _ ?_)

theorem execCtxResetDone_frame (c : Nat) (s : State) :
    Answers (execCtxResetDone c s) (Only [.com, .anvil, .time, .ctxs, .qf, .flt, .light, .bus, .pwr, .ces, .acc, .free] s) := by
  unfold execCtxResetDone; repeat' (first
      | with_reducible refine Answers.next ?_ | with_reducible exact Only.refl _ _ | with_reducible refine (onCtx_frame _ _ _).after (by decide) ?_
      | with_reducible refine (sendNtf_frame _ _ _).after (by decide) ?_ | with_reducible refine (completion_frame _ _ _ _ _ _ _).after (by decide) ?_
      | with_reducible refine (ethDrain_frame _).after (by decide) ?_ | with_reducible refine (applyCtxCfg_frame _ _).after (by decide) ?_
      | with_reducible refine Only.foldl _ (fun s a => ?_) _ ?_ | split)
end Sys2Proof.Machine
end

