-- ==== Sys2Proof/Laws/Frame.lean ====
section
/-! SUPPORT. What each operation of Machine/Frame.lean leaves as it is: one law per operation, which names the parts of the state it may change. -/

namespace Sys2Proof.Machine

theorem orphanChannel_frame (n : Nat) (s : State) : Only [.anvil, .time, .qf, .free] s (orphanChannel n s) := by
  unfold orphanChannel; repeat' (first
      | with_reducible exact Only.refl _ _ | with_reducible refine (onChan_frame _ _ _).after (by decide) ?_
      | with_reducible refine (holdExpire_frame _ _).after (by decide) ?_ | with_reducible refine Only.ite ?_ ?_)

theorem orphanEntry_frame (s : State) : Only [.anvil, .time, .qf, .link, .acc, .free] s (orphanEntry s) := by
  unfold orphanEntry; repeat' (first
      | with_reducible exact Only.refl _ _ | with_reducible refine (onAnvil_frame _ _).after (by decide) ?_
      | with_reducible refine (orphanChannel_frame _ _).after (by decide) ?_ | with_reducible refine (bridgeRampDown_frame _ _).after (by decide) ?_
      | with_reducible refine (sinkOrphan_frame _ _).after (by decide) ?_ | with_reducible refine (onLink_frame _ _).after (by decide) ?_
      | with_reducible refine (accLinkLost_frame _).after (by decide) ?_ | with_reducible refine Only.ite ?_ ?_
      | with_reducible refine Only.foldl _ (fun s a => ?_) _ ?_)

theorem anvilFrame.anvilHold_frame (f : Fn) (s : State) :
    Only [.anvil, .time, .ctxs, .qf, .link, .flt, .light, .bus, .pwr, .ces, .acc, .free] s (anvilFrame.anvilHold f s) := by
  unfold anvilFrame.anvilHold; repeat' (first
      | with_reducible exact Only.refl _ _ | with_reducible refine (onAnvil_frame _ _).after (by decide) ?_
      | with_reducible refine (raise_frame _ _ _).after (by decide) ?_ | with_reducible refine (orphanEntry_frame _).after (by decide) ?_
      | with_reducible refine Only.ite ?_ ?_)

theorem switchStart_frame (s : State) : Only [.sched, .qf, .ces, .acc] s (switchStart s) := by
  unfold switchStart; repeat' (first
      | with_reducible exact Only.refl _ _ | with_reducible refine (onSched_frame _ _).after (by decide) ?_
      | with_reducible refine (accModeSwitch_frame _ _ _).after (by decide) ?_ | with_reducible refine (onCes_frame _ _).after (by decide) ?_ | split)

theorem execHearthFrameStart_frame (x0 : List Int) (x1 : List Nat) (x2 : Nat) (x3 : State) :
    Answers (execHearthFrameStart x0 x1 x2 x3) (Only [.roles, .com, .blk, .anvil, .clk, .time, .sched, .ctxs, .qf, .link, .closed, .snaps, .flt, .light, .bus, .pwr, .ces, .acc, .upd, .hmon, .free] x3) := by
  have step (x : List Snap) (s t : State) (h : Only [.roles, .com, .blk, .anvil, .clk, .time, .sched, .ctxs, .qf, .link, .closed, .snaps, .flt, .light, .bus, .pwr, .ces, .acc, .upd, .hmon, .free] s t) : Only [.roles, .com, .blk, .anvil, .clk, .time, .sched, .ctxs, .qf, .link, .closed, .snaps, .flt, .light, .bus, .pwr, .ces, .acc, .upd, .hmon, .free] s { t with snaps := x } :=
    Only.upd h (by intro p hp; cases p <;> first | exact absurd (by decide) hp | rfl)
  unfold execHearthFrameStart
  refine Answers.ite (Answers.next (Only.refl _ _)) ?_
  refine Answers.next ((ethDrain_frame _).after (by decide) ((activationDue_frame _).after (by decide) (step _ _ _ ?_)))
  refine (accFrameStart_frame _).after (by decide) ((linFrameStart_frame _).after (by decide) ((canFrameStart_frame _).after (by decide) ((tmrFrameStart_frame _).after (by decide)
    ((cmpFrameStart_frame _).after (by decide) ((coresFrameStart_frame _).after (by decide) ((finishChecks_frame _).after (by decide) ?_))))))
  have go : ∀ t, Only [.roles, .com, .blk, .anvil, .clk, .time, .sched, .ctxs, .qf, .link, .closed, .snaps, .flt, .light, .bus, .pwr, .ces, .acc, .upd, .hmon, .free] x3 t → Only [.roles, .com, .blk, .anvil, .clk, .time, .sched, .ctxs, .qf, .link, .closed, .snaps, .flt, .light, .bus, .pwr, .ces, .acc, .upd, .hmon, .free] x3 (if (qfAudit t).2 then raise 0x020 0 (qfAudit t).1 else (qfAudit t).1) := fun t h =>
    Only.ite ((raise_frame _ _ _).after (by decide) ((qfAudit_frame _).after (by decide) h)) ((qfAudit_frame _).after (by decide) h)
  refine go _ (Only.foldl _ (fun s c => (resetShare_frame _ _).sub (by decide)) _ (step _ _ _ ?_))
  exact (degradeAct_frame _ _ _).after (by decide) ((sendAlerts_frame _).after (by decide) ((idleBegin_frame _).after (by decide) ((switchStart_frame _).after (by decide)
      ((hearthSensors_frame _ _ _ _).after (by decide) ((onLink_frame _ _).after (by decide) ((onClk_frame _ _).after (by decide) ((advTo_frame _ _).sub (by decide))))))))

theorem anvilFrame_frame (s : State) : Only [.anvil, .time, .sched, .ctxs, .qf, .link, .flt, .light, .bus, .pwr, .ces, .acc, .free] s (anvilFrame s) := by
  unfold anvilFrame; repeat' (first
      | with_reducible exact Only.refl _ _ | with_reducible refine (onAnvil_frame _ _).after (by decide) ?_
      | with_reducible refine (inputsRestart_frame _ _ _).after (by decide) ?_ | with_reducible refine (onSched_frame _ _).after (by decide) ?_
      | with_reducible refine (releaseAnvil_frame _).after (by decide) ?_ | with_reducible refine (degradeAct_frame _ _ _).after (by decide) ?_
      | with_reducible refine (runClears_frame _).after (by decide) ?_ | with_reducible refine (sinkFrameStart_frame _ _).after (by decide) ?_
      | with_reducible refine (rippleApply_frame _ _).after (by decide) ?_ | with_reducible refine (anvilFrame.anvilHold_frame _ _).after (by decide) ?_
      | with_reducible refine Only.ite ?_ ?_ | with_reducible refine Only.foldl _ (fun s a => ?_) _ ?_ | split | dsimp only)

theorem closeChannel_frame (n : Nat) (s : State) : Only [.anvil] s (closeChannel n s) := by
  unfold closeChannel; with_reducible exact (onChan_frame _ _ _).sub (by decide)

theorem takeChannels_frame (x0 : FrameMeas) (s : State) : Only [.anvil, .chM] s (takeChannels x0 s) := by
  unfold takeChannels; repeat' (first | ((try lift_lets); intro y; first | (refine Only.cut y ?c1 (fun hy => ?c2); (case' c1 => dsimp only [y]); (case' c2 => clear_value y)) | (have _h : State → State := y; clear _h; subst y) | (have _h : State → _ → State := y; clear _h; subst y) | clear_value y) | with_reducible exact Only.refl _ _ | with_reducible assumption | with_reducible refine (lampSettle_frame _ _).after (by decide) ?_ | with_reducible refine Only.ite ?_ ?_ | with_reducible refine Only.foldl _ (fun s a => ?_) _ ?_ | (refine Only.upd (t := y) (by assumption) ?_; intro p hp; cases p <;> first | exact absurd (by decide) hp | (dsimp only [Part.same]; done); done) | (refine Only.upd hy ?_; intro p hp; cases p <;> first | exact absurd (by decide) hp | (dsimp only [Part.same]; done); done) | (refine Only.upd (Only.refl _ s) ?_; intro p hp; cases p <;> first | exact absurd (by decide) hp | (dsimp only [Part.same]; done); done) | (refine Only.upd (Only.refl _ s) ?_; intro p hp; cases p <;> first | exact absurd (by decide) hp | (dsimp only [Part.same]; done); done) | (refine Only.upd (t := ?t0) ?g0 ?k0; (case k0 => intro p hp; cases p <;> first | exact absurd (by decide) hp | (dsimp only [Part.same]; with_reducible exact Eq.refl _))) | split | dsimp only)

theorem takeVoltages_frame (x0 : FrameMeas) (s : State) : Only [.anvil] s (takeVoltages x0 s) := by
  unfold takeVoltages; repeat' (first
      | with_reducible exact Only.refl _ _ | with_reducible refine (onSup_frame _ _).after (by decide) ?_
      | with_reducible refine (onMon_frame _ _).after (by decide) ?_)

theorem endChannels_frame (s : State) : Only [.anvil, .time, .ctxs, .qf, .flt, .light, .bus, .pwr, .ces, .acc, .free] s (endChannels s) := by
  unfold endChannels; repeat' (first
      | with_reducible exact Only.refl _ _ | with_reducible refine (closeChannel_frame _ _).after (by decide) ?_
      | with_reducible refine (openOnCheck_frame _ _).after (by decide) ?_ | with_reducible refine (senseCheck_frame _ _).after (by decide) ?_
      | with_reducible refine (wireFrame_frame _ _ _).after (by decide) ?_ | with_reducible refine Only.foldl _ (fun s a => ?_) _ ?_)

theorem frameEnd_frame (x0 : FrameMeas) (s : State) : Only [.anvil, .chM, .time, .sched, .ctxs, .qf, .flt, .light, .bus, .pwr, .ces, .acc, .free] s (frameEnd x0 s) := by
  unfold frameEnd; repeat' (first
      | with_reducible exact Only.refl _ _ | with_reducible refine (takeVoltages_frame _ _).after (by decide) ?_
      | with_reducible refine (takeChannels_frame _ _).after (by decide) ?_ | with_reducible refine (condStep_frame _ _).after (by decide) ?_
      | with_reducible refine (onMon_frame _ _).after (by decide) ?_ | with_reducible refine (missEvent_frame _ _).after (by decide) ?_
      | with_reducible refine (raise_frame _ _ _).after (by decide) ?_ | with_reducible refine (areaStep_frame _ _ _ _).after (by decide) ?_
      | with_reducible refine (tjStep_frame _ _ _).after (by decide) ?_ | with_reducible refine (endChannels_frame _).after (by decide) ?_
      | with_reducible refine (zoneFrame_frame _ _).after (by decide) ?_ | with_reducible refine (coilFrame_frame _ _ _ _ _ _).after (by decide) ?_
      | with_reducible refine (bridgeFrame_frame _ _ _).after (by decide) ?_ | with_reducible refine (sinkMonitor_frame _ _ _ _ _).after (by decide) ?_
      | with_reducible refine Only.foldl _ (fun s a => ?_) _ ?_ | split)

theorem execFrameBoundary_frame (x0 : FrameMeas) (x1 : State) :
    Answers (execFrameBoundary x0 x1) (Only [.anvil, .bound, .chM, .clk, .time, .sched, .ctxs, .qf, .link, .flt, .light, .bus, .pwr, .ces, .acc, .free] x1) := by
  unfold execFrameBoundary
  refine Answers.ite (Answers.next (Only.refl _ _)) ?_
  have h0 : ∀ f g, Only [.anvil, .bound, .chM, .clk, .time, .sched, .ctxs, .qf, .link, .flt, .light, .bus, .pwr, .ces, .acc, .free] x1 (onTime f (onClk g (advTo (x1.time.anvilTb + 50000) x1))) := fun f g => (onTime_frame _ _).after (by decide) ((onClk_frame _ _).after (by decide) ((advTo_frame _ _).sub (by decide)))
  refine Answers.ite (Answers.next ?_) (Answers.next ?_)
  · refine Only.foldl _ (fun s n => ?_) _ ((takeChannels_frame _ _).after (by decide) (h0 _ _))
    exact (closeChannel_frame _ _).after (by decide) (Only.ite ((wireFrame_frame _ _ _).sub (by decide)) (Only.refl _ _))
  · refine Only.upd (t := ?t) ?g ?k
    case k => intro p hp; cases p <;> first | exact absurd (by decide) hp | (dsimp only [Part.same]; try with_reducible exact Eq.refl _)
    refine Only.foldl _ (fun s e => Only.ite ((offDiagA_frame _ _ _ _).sub (by decide)) (Only.refl _ _)) _ ?_
    have go : ∀ t, Only [.anvil, .bound, .chM, .clk, .time, .sched, .ctxs, .qf, .link, .flt, .light, .bus, .pwr, .ces, .acc, .free] x1 t → Only [.anvil, .bound, .chM, .clk, .time, .sched, .ctxs, .qf, .link, .flt, .light, .bus, .pwr, .ces, .acc, .free] x1 (if t.anvil.epoch = 0 then t else anvilFrame t) := fun t h =>
      Only.ite h ((anvilFrame_frame _).after (by decide) h)
    exact go _ ((onLink_frame _ _).after (by decide) ((laneBoundary_frame _).after (by decide) ((frameEnd_frame _ _).after (by decide) (h0 _ _))))

theorem execActHoldLapse_frame (s : State) : Answers (execActHoldLapse s) (Only [.anvil, .time, .qf] s) := by
  unfold execActHoldLapse; repeat' (first
      | with_reducible refine Answers.next ?_ | with_reducible exact Only.refl _ _ | with_reducible refine (onAnvil_frame _ _).after (by decide) ?_
      | with_reducible refine (advTo_frame _ _).after (by decide) ?_ | split)

theorem execOrphanHoldExpiry_frame (n : Nat) (s : State) : Answers (execOrphanHoldExpiry n s) (Only [.anvil, .time, .qf, .free] s) := by
  unfold execOrphanHoldExpiry; repeat' (first
      | with_reducible refine Answers.next ?_ | with_reducible exact Only.refl _ _ | with_reducible refine (holdExpire_frame _ _).after (by decide) ?_
      | with_reducible refine (advTo_frame _ _).after (by decide) ?_ | split)
end Sys2Proof.Machine
end

