-- ==== Sys2Proof/Laws/Hspi.lean ====
section
/-! SUPPORT. What each operation of Machine/Hspi.lean leaves as it is: one law per operation, which names the parts of the state it may change. -/

namespace Sys2Proof.Machine

theorem onHspi_frame (n : Nat) (f : Hspi → Hspi) (s : State) : Only [.hspi0, .hspi1] s (onHspi n f s) := by
  unfold onHspi; repeat' (first | with_reducible exact Only.refl _ _ | with_reducible refine Only.ite ?_ ?_ | (refine Only.upd (Only.refl _ s) ?_; intro p hp; cases p <;> first | exact absurd (by decide) hp | (dsimp only [Part.same]; done); done))

theorem csRise_frame (n : Nat) (s : State) : Only [.ctxs, .hspi0, .hspi1] s (csRise n s) := by
  unfold csRise; repeat' (first
      | with_reducible exact Only.refl _ _ | with_reducible refine (onHspi_frame _ _ _).after (by decide) ?_
      | with_reducible refine (linkRestart_frame _ _ _).after (by decide) ?_ | with_reducible refine Only.ite ?_ ?_ | split | dsimp only)

theorem execHspiCsRise_frame (n : Nat) (s : State) : Answers (execHspiCsRise n s) (Only [.ctxs, .hspi0, .hspi1] s) := by
  unfold execHspiCsRise; repeat' (first
      | with_reducible refine Answers.next ?_ | with_reducible exact Only.refl _ _ | with_reducible refine (csRise_frame _ _).after (by decide) ?_
      | with_reducible refine Answers.ite ?_ ?_ | with_reducible refine Only.ite ?_ ?_)

theorem execPacketAccept_frame (c : Nat) (s : State) :
    Answers (execPacketAccept c s) (Only [.roles, .com, .anvil, .rep, .time, .sched, .ctxs, .qf, .closed, .flt, .light, .bus, .pwr, .ces, .acc, .keys, .upd, .free] s) := by
  unfold execPacketAccept
  refine Answers.next ?_
  split
  · exact Only.refl _ _
  · exact (ethDrain_frame _).after (by decide) (tryAccept_frame opSpec opSpec_keeps _ _)

theorem hspiUnbound_frame (n : Nat) (s : State) : Only [.anvil, .time, .ctxs, .hspi0, .hspi1, .qf, .flt, .light, .bus, .pwr, .ces, .acc, .free] s (hspiUnbound n s) := by
  unfold hspiUnbound; repeat' (first
      | with_reducible exact Only.refl _ _ | with_reducible refine (raise_frame _ _ _).after (by decide) ?_
      | with_reducible refine (onHspi_frame _ _ _).after (by decide) ?_)

theorem execHspiWrite_frame (n len : Nat) (b : Rec) (s : State) :
    Answers (execHspiWrite n len b s) (Only [.roles, .com, .anvil, .rep, .time, .sched, .ctxs, .hspi0, .hspi1, .qf, .closed, .flt, .light, .bus, .pwr, .ces, .acc, .keys, .upd, .free] s) := by
  unfold execHspiWrite
  dsimp only
  split
  · exact Answers.next (Only.refl _ _)
  · refine Answers.next ((ethDrain_frame _).after (by decide) ((onHspi_frame _ _ _).after (by decide) ?_))
    exact (takePackets_frame opSpec opSpec_keeps _ _ (by decide) _ (fun s => (hspiUnbound_frame _ _).sub (by decide)) _ _ _ _ _).after (fun _ h => h)
      ((csRise_frame _ _).sub (by decide))

theorem execHspiStatus_frame (n : Nat) (s : State) : Answers (execHspiStatus n s) (Only [.ctxs, .hspi0, .hspi1] s) := by
  unfold execHspiStatus; repeat' (first
      | with_reducible refine Answers.next ?_ | with_reducible exact Only.refl _ _ | with_reducible refine (csRise_frame _ _).after (by decide) ?_
      | with_reducible refine (onHspi_frame _ _ _).after (by decide) ?_ | with_reducible refine Answers.ite ?_ ?_
      | with_reducible refine Only.ite ?_ ?_ | split | dsimp only)

theorem execHspiRead_frame (n len clocked : Nat) (s : State) : Answers (execHspiRead n len clocked s) (Only [.ctxs, .hspi0, .hspi1] s) := by
  unfold execHspiRead; repeat' (first
      | with_reducible refine Answers.next ?_ | with_reducible exact Only.refl _ _ | with_reducible refine (csRise_frame _ _).after (by decide) ?_
      | with_reducible refine (onHspi_frame _ _ _).after (by decide) ?_ | with_reducible refine (onCtx_frame _ _ _).after (by decide) ?_
      | with_reducible refine Answers.ite ?_ ?_ | with_reducible refine Only.ite ?_ ?_ | split | dsimp only)

theorem execEthFrameReceived_frame (p : Nat) (f : EthFrame) (s : State) :
    Answers (execEthFrameReceived p f s) (Only [.roles, .com, .anvil, .rep, .time, .sched, .ctxs, .qf, .closed, .flt, .light, .bus, .pwr, .ces, .acc, .keys, .upd, .free] s) :=
  Answers.next ((ethDrain_frame _).after (by decide) (ethReceive_frame opSpec opSpec_keeps p f s))
end Sys2Proof.Machine
end

