-- ==== Sys2Proof/Laws/HostCmds.lean ====
section
/-! SUPPORT. What each operation of Machine/HostCmds.lean leaves as it is: one law per operation, which names the parts of the state it may change. -/

namespace Sys2Proof.Machine

theorem hostPacket_frame (o : OpSpec) (h : Hdr) (b : Rec) (s : State) :
    Only [.roles, .com, .anvil, .rep, .time, .sched, .ctxs, .hspi0, .hspi1, .qf, .closed, .flt, .light, .bus, .pwr, .ces, .acc, .keys, .upd, .free] s (hostPacket o h b s) :=
  (ethDrain_frame _).after (by decide) (submit_frame o h b opSpec opSpec_keeps s)

theorem execMemRead_frame (h : Hdr) (b : Rec) (s : State) :
    Answers (execMemRead h b s) (Only [.roles, .com, .anvil, .rep, .time, .sched, .ctxs, .hspi0, .hspi1, .qf, .closed, .flt, .light, .bus, .pwr, .ces, .acc, .keys, .upd, .free] s) := by
  unfold execMemRead; repeat' (first
      | with_reducible refine Answers.next ?_ | with_reducible exact Only.refl _ _ | with_reducible refine (hostPacket_frame _ _ _ _).after (by decide) ?_
      | with_reducible refine (memReadSpec_frame).after (by decide) ?_)

theorem execChClearProt_frame (h : Hdr) (b : Rec) (s : State) :
    Answers (execChClearProt h b s) (Only [.roles, .com, .anvil, .rep, .time, .sched, .ctxs, .hspi0, .hspi1, .qf, .closed, .flt, .light, .bus, .pwr, .ces, .acc, .keys, .upd, .free] s) := by
  unfold execChClearProt; repeat' (first
      | with_reducible refine Answers.next ?_ | with_reducible exact Only.refl _ _ | with_reducible refine (hostPacket_frame _ _ _ _).after (by decide) ?_
      | with_reducible refine (chClearProtSpec_frame).after (by decide) ?_)

theorem execLinControlStart_frame (h : Hdr) (b : Rec) (s : State) :
    Answers (execLinControlStart h b s) (Only [.roles, .com, .anvil, .rep, .time, .sched, .ctxs, .hspi0, .hspi1, .qf, .closed, .flt, .light, .bus, .pwr, .ces, .acc, .keys, .upd, .free] s) := by
  unfold execLinControlStart; repeat' (first
      | with_reducible refine Answers.next ?_ | with_reducible exact Only.refl _ _ | with_reducible refine (hostPacket_frame _ _ _ _).after (by decide) ?_
      | with_reducible refine (linControlSpec_frame).after (by decide) ?_)

theorem execHearthRestart_frame (h : Hdr) (b : Rec) (s : State) :
    Answers (execHearthRestart h b s) (Only [.roles, .com, .anvil, .rep, .time, .sched, .ctxs, .hspi0, .hspi1, .qf, .closed, .flt, .light, .bus, .pwr, .ces, .acc, .keys, .upd, .free] s) := by
  unfold execHearthRestart; repeat' (first
      | with_reducible refine Answers.next ?_ | with_reducible exact Only.refl _ _ | with_reducible refine (hostPacket_frame _ _ _ _).after (by decide) ?_
      | with_reducible refine (hearthRestartSpec_frame).after (by decide) ?_)

theorem execUpdBegin_frame (h : Hdr) (b : Rec) (s : State) :
    Answers (execUpdBegin h b s) (Only [.roles, .com, .anvil, .rep, .time, .sched, .ctxs, .hspi0, .hspi1, .qf, .closed, .flt, .light, .bus, .pwr, .ces, .acc, .keys, .upd, .free] s) := by
  unfold execUpdBegin; repeat' (first
      | with_reducible refine Answers.next ?_ | with_reducible exact Only.refl _ _ | with_reducible refine (hostPacket_frame _ _ _ _).after (by decide) ?_
      | with_reducible refine (updBeginSpec_frame).after (by decide) ?_)

theorem execAccPhHello_frame (h : Hdr) (b : Rec) (s : State) :
    Answers (execAccPhHello h b s) (Only [.roles, .com, .anvil, .rep, .time, .sched, .ctxs, .hspi0, .hspi1, .qf, .closed, .flt, .light, .bus, .pwr, .ces, .acc, .keys, .upd, .free] s) := by
  unfold execAccPhHello; repeat' (first
      | with_reducible refine Answers.next ?_ | with_reducible exact Only.refl _ _ | with_reducible refine (hostPacket_frame _ _ _ _).after (by decide) ?_
      | with_reducible refine (accHelloSpec_frame).after (by decide) ?_)

theorem execKeyMacGen_frame (h : Hdr) (b : Rec) (s : State) :
    Answers (execKeyMacGen h b s) (Only [.roles, .com, .anvil, .rep, .time, .sched, .ctxs, .hspi0, .hspi1, .qf, .closed, .flt, .light, .bus, .pwr, .ces, .acc, .keys, .upd, .free] s) := by
  unfold execKeyMacGen; repeat' (first
      | with_reducible refine Answers.next ?_ | with_reducible exact Only.refl _ _ | with_reducible refine (hostPacket_frame _ _ _ _).after (by decide) ?_
      | with_reducible refine (keyMacSpec_frame).after (by decide) ?_)

theorem execIndStatus_frame (h : Hdr) (b : Rec) (s : State) :
    Answers (execIndStatus h b s) (Only [.roles, .com, .anvil, .rep, .time, .sched, .ctxs, .hspi0, .hspi1, .qf, .closed, .flt, .light, .bus, .pwr, .ces, .acc, .keys, .upd, .free] s) := by
  unfold execIndStatus; repeat' (first
      | with_reducible refine Answers.next ?_ | with_reducible exact Only.refl _ _ | with_reducible refine (hostPacket_frame _ _ _ _).after (by decide) ?_
      | with_reducible refine (indStatusSpec_frame).after (by decide) ?_)

theorem execQMarkClear_frame (h : Hdr) (b : Rec) (s : State) :
    Answers (execQMarkClear h b s) (Only [.roles, .com, .anvil, .rep, .time, .sched, .ctxs, .hspi0, .hspi1, .qf, .closed, .flt, .light, .bus, .pwr, .ces, .acc, .keys, .upd, .free] s) := by
  unfold execQMarkClear; repeat' (first
      | with_reducible refine Answers.next ?_ | with_reducible exact Only.refl _ _ | with_reducible refine (hostPacket_frame _ _ _ _).after (by decide) ?_
      | with_reducible refine (qMarkSpec_frame).after (by decide) ?_)

theorem execCmpSetDisarm_frame (h : Hdr) (b : Rec) (s : State) :
    Answers (execCmpSetDisarm h b s) (Only [.roles, .com, .anvil, .rep, .time, .sched, .ctxs, .hspi0, .hspi1, .qf, .closed, .flt, .light, .bus, .pwr, .ces, .acc, .keys, .upd, .free] s) := by
  unfold execCmpSetDisarm; repeat' (first
      | with_reducible refine Answers.next ?_ | with_reducible exact Only.refl _ _ | with_reducible refine (hostPacket_frame _ _ _ _).after (by decide) ?_
      | with_reducible refine (cmpSetSpec_frame).after (by decide) ?_)

theorem execAccLockClear_frame (h : Hdr) (b : Rec) (s : State) :
    Answers (execAccLockClear h b s) (Only [.roles, .com, .anvil, .rep, .time, .sched, .ctxs, .hspi0, .hspi1, .qf, .closed, .flt, .light, .bus, .pwr, .ces, .acc, .keys, .upd, .free] s) := by
  unfold execAccLockClear; repeat' (first
      | with_reducible refine Answers.next ?_ | with_reducible exact Only.refl _ _ | with_reducible refine (hostPacket_frame _ _ _ _).after (by decide) ?_
      | with_reducible refine (accLockClearSpec_frame).after (by decide) ?_)

theorem execFltStatus_frame (h : Hdr) (b : Rec) (s : State) :
    Answers (execFltStatus h b s) (Only [.roles, .com, .anvil, .rep, .time, .sched, .ctxs, .hspi0, .hspi1, .qf, .closed, .flt, .light, .bus, .pwr, .ces, .acc, .keys, .upd, .free] s) := by
  unfold execFltStatus; repeat' (first
      | with_reducible refine Answers.next ?_ | with_reducible exact Only.refl _ _ | with_reducible refine (hostPacket_frame _ _ _ _).after (by decide) ?_
      | with_reducible refine (fltStatusSpec_frame).after (by decide) ?_)

theorem execLinStatus_frame (h : Hdr) (b : Rec) (s : State) :
    Answers (execLinStatus h b s) (Only [.roles, .com, .anvil, .rep, .time, .sched, .ctxs, .hspi0, .hspi1, .qf, .closed, .flt, .light, .bus, .pwr, .ces, .acc, .keys, .upd, .free] s) := by
  unfold execLinStatus; repeat' (first
      | with_reducible refine Answers.next ?_ | with_reducible exact Only.refl _ _ | with_reducible refine (hostPacket_frame _ _ _ _).after (by decide) ?_
      | with_reducible refine (linStatusSpec_frame).after (by decide) ?_)

theorem execLhStatus_frame (h : Hdr) (b : Rec) (s : State) :
    Answers (execLhStatus h b s) (Only [.roles, .com, .anvil, .rep, .time, .sched, .ctxs, .hspi0, .hspi1, .qf, .closed, .flt, .light, .bus, .pwr, .ces, .acc, .keys, .upd, .free] s) := by
  unfold execLhStatus; repeat' (first
      | with_reducible refine Answers.next ?_ | with_reducible exact Only.refl _ _ | with_reducible refine (hostPacket_frame _ _ _ _).after (by decide) ?_
      | with_reducible refine (lhStatusSpec_frame).after (by decide) ?_)

theorem execCanControlWake_frame (h : Hdr) (b : Rec) (s : State) :
    Answers (execCanControlWake h b s) (Only [.roles, .com, .anvil, .rep, .time, .sched, .ctxs, .hspi0, .hspi1, .qf, .closed, .flt, .light, .bus, .pwr, .ces, .acc, .keys, .upd, .free] s) := by
  unfold execCanControlWake; repeat' (first
      | with_reducible refine Answers.next ?_ | with_reducible exact Only.refl _ _ | with_reducible refine (hostPacket_frame _ _ _ _).after (by decide) ?_
      | with_reducible refine (canControlSpec_frame).after (by decide) ?_)

theorem execCanControlStart_frame (h : Hdr) (b : Rec) (s : State) :
    Answers (execCanControlStart h b s) (Only [.roles, .com, .anvil, .rep, .time, .sched, .ctxs, .hspi0, .hspi1, .qf, .closed, .flt, .light, .bus, .pwr, .ces, .acc, .keys, .upd, .free] s) := by
  unfold execCanControlStart; repeat' (first
      | with_reducible refine Answers.next ?_ | with_reducible exact Only.refl _ _ | with_reducible refine (hostPacket_frame _ _ _ _).after (by decide) ?_
      | with_reducible refine (canControlSpec_frame).after (by decide) ?_)

theorem execLinControlSleep_frame (h : Hdr) (b : Rec) (s : State) :
    Answers (execLinControlSleep h b s) (Only [.roles, .com, .anvil, .rep, .time, .sched, .ctxs, .hspi0, .hspi1, .qf, .closed, .flt, .light, .bus, .pwr, .ces, .acc, .keys, .upd, .free] s) := by
  unfold execLinControlSleep; repeat' (first
      | with_reducible refine Answers.next ?_ | with_reducible exact Only.refl _ _ | with_reducible refine (hostPacket_frame _ _ _ _).after (by decide) ?_
      | with_reducible refine (linControlSpec_frame).after (by decide) ?_)

theorem execAccClear_frame (h : Hdr) (b : Rec) (s : State) :
    Answers (execAccClear h b s) (Only [.roles, .com, .anvil, .rep, .time, .sched, .ctxs, .hspi0, .hspi1, .qf, .closed, .flt, .light, .bus, .pwr, .ces, .acc, .keys, .upd, .free] s) := by
  unfold execAccClear; repeat' (first
      | with_reducible refine Answers.next ?_ | with_reducible exact Only.refl _ _ | with_reducible refine (hostPacket_frame _ _ _ _).after (by decide) ?_
      | with_reducible refine (accClearSpec_frame).after (by decide) ?_)

theorem execKeySign_frame (h : Hdr) (b : Rec) (s : State) :
    Answers (execKeySign h b s) (Only [.roles, .com, .anvil, .rep, .time, .sched, .ctxs, .hspi0, .hspi1, .qf, .closed, .flt, .light, .bus, .pwr, .ces, .acc, .keys, .upd, .free] s) := by
  unfold execKeySign; repeat' (first
      | with_reducible refine Answers.next ?_ | with_reducible exact Only.refl _ _ | with_reducible refine (hostPacket_frame _ _ _ _).after (by decide) ?_
      | with_reducible refine (keySignSpec_frame).after (by decide) ?_)

theorem execFltGlobal_frame (h : Hdr) (b : Rec) (s : State) :
    Answers (execFltGlobal h b s) (Only [.roles, .com, .anvil, .rep, .time, .sched, .ctxs, .hspi0, .hspi1, .qf, .closed, .flt, .light, .bus, .pwr, .ces, .acc, .keys, .upd, .free] s) := by
  unfold execFltGlobal; repeat' (first
      | with_reducible refine Answers.next ?_ | with_reducible exact Only.refl _ _ | with_reducible refine (hostPacket_frame _ _ _ _).after (by decide) ?_
      | with_reducible refine (fltGlobalSpec_frame).after (by decide) ?_)

theorem execAccCalibrate_frame (h : Hdr) (b : Rec) (s : State) :
    Answers (execAccCalibrate h b s) (Only [.roles, .com, .anvil, .rep, .time, .sched, .ctxs, .hspi0, .hspi1, .qf, .closed, .flt, .light, .bus, .pwr, .ces, .acc, .keys, .upd, .free] s) := by
  unfold execAccCalibrate; repeat' (first
      | with_reducible refine Answers.next ?_ | with_reducible exact Only.refl _ _ | with_reducible refine (hostPacket_frame _ _ _ _).after (by decide) ?_
      | with_reducible refine (accCalibrateSpec_frame).after (by decide) ?_)

theorem execPing_frame (h : Hdr) (b : Rec) (s : State) :
    Answers (execPing h b s) (Only [.roles, .com, .anvil, .rep, .time, .sched, .ctxs, .hspi0, .hspi1, .qf, .closed, .flt, .light, .bus, .pwr, .ces, .acc, .keys, .upd, .free] s) := by
  unfold execPing; repeat' (first
      | with_reducible refine Answers.next ?_ | with_reducible exact Only.refl _ _ | with_reducible refine (hostPacket_frame _ _ _ _).after (by decide) ?_
      | with_reducible refine (pingSpec_frame).after (by decide) ?_)

theorem execKeyEcdh_frame (h : Hdr) (b : Rec) (s : State) :
    Answers (execKeyEcdh h b s) (Only [.roles, .com, .anvil, .rep, .time, .sched, .ctxs, .hspi0, .hspi1, .qf, .closed, .flt, .light, .bus, .pwr, .ces, .acc, .keys, .upd, .free] s) := by
  unfold execKeyEcdh; repeat' (first
      | with_reducible refine Answers.next ?_ | with_reducible exact Only.refl _ _ | with_reducible refine (hostPacket_frame _ _ _ _).after (by decide) ?_
      | with_reducible refine (keyEcdhSpec_frame).after (by decide) ?_)

theorem execUpdWrite_frame (h : Hdr) (b : Rec) (s : State) :
    Answers (execUpdWrite h b s) (Only [.roles, .com, .anvil, .rep, .time, .sched, .ctxs, .hspi0, .hspi1, .qf, .closed, .flt, .light, .bus, .pwr, .ces, .acc, .keys, .upd, .free] s) := by
  unfold execUpdWrite; repeat' (first
      | with_reducible refine Answers.next ?_ | with_reducible exact Only.refl _ _ | with_reducible refine (hostPacket_frame _ _ _ _).after (by decide) ?_
      | with_reducible refine (updWriteSpec_frame).after (by decide) ?_)

theorem execGwStatus_frame (h : Hdr) (b : Rec) (s : State) :
    Answers (execGwStatus h b s) (Only [.roles, .com, .anvil, .rep, .time, .sched, .ctxs, .hspi0, .hspi1, .qf, .closed, .flt, .light, .bus, .pwr, .ces, .acc, .keys, .upd, .free] s) := by
  unfold execGwStatus; repeat' (first
      | with_reducible refine Answers.next ?_ | with_reducible exact Only.refl _ _ | with_reducible refine (hostPacket_frame _ _ _ _).after (by decide) ?_
      | with_reducible refine (gwStatusSpec_frame).after (by decide) ?_)

theorem execPwrSetIdle_frame (h : Hdr) (b : Rec) (s : State) :
    Answers (execPwrSetIdle h b s) (Only [.roles, .com, .anvil, .rep, .time, .sched, .ctxs, .hspi0, .hspi1, .qf, .closed, .flt, .light, .bus, .pwr, .ces, .acc, .keys, .upd, .free] s) := by
  unfold execPwrSetIdle; repeat' (first
      | with_reducible refine Answers.next ?_ | with_reducible exact Only.refl _ _ | with_reducible refine (hostPacket_frame _ _ _ _).after (by decide) ?_
      | with_reducible refine (pwrSetSpec_frame).after (by decide) ?_)

theorem execAccPhResponse_frame (h : Hdr) (b : Rec) (s : State) :
    Answers (execAccPhResponse h b s) (Only [.roles, .com, .anvil, .rep, .time, .sched, .ctxs, .hspi0, .hspi1, .qf, .closed, .flt, .light, .bus, .pwr, .ces, .acc, .keys, .upd, .free] s) := by
  unfold execAccPhResponse; repeat' (first
      | with_reducible refine Answers.next ?_ | with_reducible exact Only.refl _ _ | with_reducible refine (hostPacket_frame _ _ _ _).after (by decide) ?_
      | with_reducible refine (accResponseSpec_frame).after (by decide) ?_)

theorem execChClearDiag_frame (h : Hdr) (b : Rec) (s : State) :
    Answers (execChClearDiag h b s) (Only [.roles, .com, .anvil, .rep, .time, .sched, .ctxs, .hspi0, .hspi1, .qf, .closed, .flt, .light, .bus, .pwr, .ces, .acc, .keys, .upd, .free] s) := by
  unfold execChClearDiag; repeat' (first
      | with_reducible refine Answers.next ?_ | with_reducible exact Only.refl _ _ | with_reducible refine (hostPacket_frame _ _ _ _).after (by decide) ?_
      | with_reducible refine (chClearDiagSpec_frame).after (by decide) ?_)

theorem execInStatus_frame (h : Hdr) (b : Rec) (s : State) :
    Answers (execInStatus h b s) (Only [.roles, .com, .anvil, .rep, .time, .sched, .ctxs, .hspi0, .hspi1, .qf, .closed, .flt, .light, .bus, .pwr, .ces, .acc, .keys, .upd, .free] s) := by
  unfold execInStatus; repeat' (first
      | with_reducible refine Answers.next ?_ | with_reducible exact Only.refl _ _ | with_reducible refine (hostPacket_frame _ _ _ _).after (by decide) ?_
      | with_reducible refine (inStatusSpec_frame).after (by decide) ?_)

theorem execChConfig_frame (h : Hdr) (b : Rec) (s : State) :
    Answers (execChConfig h b s) (Only [.roles, .com, .anvil, .rep, .time, .sched, .ctxs, .hspi0, .hspi1, .qf, .closed, .flt, .light, .bus, .pwr, .ces, .acc, .keys, .upd, .free] s) := by
  unfold execChConfig; repeat' (first
      | with_reducible refine Answers.next ?_ | with_reducible exact Only.refl _ _ | with_reducible refine (hostPacket_frame _ _ _ _).after (by decide) ?_
      | with_reducible refine (chConfigSpec_frame).after (by decide) ?_)

theorem execKeyWrite_frame (h : Hdr) (b : Rec) (s : State) :
    Answers (execKeyWrite h b s) (Only [.roles, .com, .anvil, .rep, .time, .sched, .ctxs, .hspi0, .hspi1, .qf, .closed, .flt, .light, .bus, .pwr, .ces, .acc, .keys, .upd, .free] s) := by
  unfold execKeyWrite; repeat' (first
      | with_reducible refine Answers.next ?_ | with_reducible exact Only.refl _ _ | with_reducible refine (hostPacket_frame _ _ _ _).after (by decide) ?_
      | with_reducible refine (keyWriteSpec_frame).after (by decide) ?_)

theorem execSupplyStatus_frame (h : Hdr) (b : Rec) (s : State) :
    Answers (execSupplyStatus h b s) (Only [.roles, .com, .anvil, .rep, .time, .sched, .ctxs, .hspi0, .hspi1, .qf, .closed, .flt, .light, .bus, .pwr, .ces, .acc, .keys, .upd, .free] s) := by
  unfold execSupplyStatus; repeat' (first
      | with_reducible refine Answers.next ?_ | with_reducible exact Only.refl _ _ | with_reducible refine (hostPacket_frame _ _ _ _).after (by decide) ?_
      | with_reducible refine (supplyStatusSpec_frame).after (by decide) ?_)

theorem execUpdFinish_frame (h : Hdr) (b : Rec) (s : State) :
    Answers (execUpdFinish h b s) (Only [.roles, .com, .anvil, .rep, .time, .sched, .ctxs, .hspi0, .hspi1, .qf, .closed, .flt, .light, .bus, .pwr, .ces, .acc, .keys, .upd, .free] s) := by
  unfold execUpdFinish; repeat' (first
      | with_reducible refine Answers.next ?_ | with_reducible exact Only.refl _ _ | with_reducible refine (hostPacket_frame _ _ _ _).after (by decide) ?_
      | with_reducible refine (updFinishSpec_frame).after (by decide) ?_)

theorem execSchedStatus_frame (h : Hdr) (b : Rec) (s : State) :
    Answers (execSchedStatus h b s) (Only [.roles, .com, .anvil, .rep, .time, .sched, .ctxs, .hspi0, .hspi1, .qf, .closed, .flt, .light, .bus, .pwr, .ces, .acc, .keys, .upd, .free] s) := by
  unfold execSchedStatus; repeat' (first
      | with_reducible refine Answers.next ?_ | with_reducible exact Only.refl _ _ | with_reducible refine (hostPacket_frame _ _ _ _).after (by decide) ?_
      | with_reducible refine (schedStatusSpec_frame).after (by decide) ?_)

theorem execKeyCipherEnc_frame (h : Hdr) (b : Rec) (s : State) :
    Answers (execKeyCipherEnc h b s) (Only [.roles, .com, .anvil, .rep, .time, .sched, .ctxs, .hspi0, .hspi1, .qf, .closed, .flt, .light, .bus, .pwr, .ces, .acc, .keys, .upd, .free] s) := by
  unfold execKeyCipherEnc; repeat' (first
      | with_reducible refine Answers.next ?_ | with_reducible exact Only.refl _ _ | with_reducible refine (hostPacket_frame _ _ _ _).after (by decide) ?_
      | with_reducible refine (keyCipherSpec_frame).after (by decide) ?_)

theorem execKeyCipherDec_frame (h : Hdr) (b : Rec) (s : State) :
    Answers (execKeyCipherDec h b s) (Only [.roles, .com, .anvil, .rep, .time, .sched, .ctxs, .hspi0, .hspi1, .qf, .closed, .flt, .light, .bus, .pwr, .ces, .acc, .keys, .upd, .free] s) := by
  unfold execKeyCipherDec; repeat' (first
      | with_reducible refine Answers.next ?_ | with_reducible exact Only.refl _ _ | with_reducible refine (hostPacket_frame _ _ _ _).after (by decide) ?_
      | with_reducible refine (keyCipherSpec_frame).after (by decide) ?_)

theorem execCanControlListen_frame (h : Hdr) (b : Rec) (s : State) :
    Answers (execCanControlListen h b s) (Only [.roles, .com, .anvil, .rep, .time, .sched, .ctxs, .hspi0, .hspi1, .qf, .closed, .flt, .light, .bus, .pwr, .ces, .acc, .keys, .upd, .free] s) := by
  unfold execCanControlListen; repeat' (first
      | with_reducible refine Answers.next ?_ | with_reducible exact Only.refl _ _ | with_reducible refine (hostPacket_frame _ _ _ _).after (by decide) ?_
      | with_reducible refine (canControlSpec_frame).after (by decide) ?_)

theorem execCmpSetArm_frame (h : Hdr) (b : Rec) (s : State) :
    Answers (execCmpSetArm h b s) (Only [.roles, .com, .anvil, .rep, .time, .sched, .ctxs, .hspi0, .hspi1, .qf, .closed, .flt, .light, .bus, .pwr, .ces, .acc, .keys, .upd, .free] s) := by
  unfold execCmpSetArm; repeat' (first
      | with_reducible refine Answers.next ?_ | with_reducible exact Only.refl _ _ | with_reducible refine (hostPacket_frame _ _ _ _).after (by decide) ?_
      | with_reducible refine (cmpSetSpec_frame).after (by decide) ?_)

theorem execCoreStatus_frame (h : Hdr) (b : Rec) (s : State) :
    Answers (execCoreStatus h b s) (Only [.roles, .com, .anvil, .rep, .time, .sched, .ctxs, .hspi0, .hspi1, .qf, .closed, .flt, .light, .bus, .pwr, .ces, .acc, .keys, .upd, .free] s) := by
  unfold execCoreStatus; repeat' (first
      | with_reducible refine Answers.next ?_ | with_reducible exact Only.refl _ _ | with_reducible refine (hostPacket_frame _ _ _ _).after (by decide) ?_
      | with_reducible refine (coreStatusSpec_frame).after (by decide) ?_)

theorem execLinConfig_frame (h : Hdr) (b : Rec) (s : State) :
    Answers (execLinConfig h b s) (Only [.roles, .com, .anvil, .rep, .time, .sched, .ctxs, .hspi0, .hspi1, .qf, .closed, .flt, .light, .bus, .pwr, .ces, .acc, .keys, .upd, .free] s) := by
  unfold execLinConfig; repeat' (first
      | with_reducible refine Answers.next ?_ | with_reducible exact Only.refl _ _ | with_reducible refine (hostPacket_frame _ _ _ _).after (by decide) ?_
      | with_reducible refine (linConfigSpec_frame).after (by decide) ?_)

theorem execMemWrite_frame (h : Hdr) (b : Rec) (s : State) :
    Answers (execMemWrite h b s) (Only [.roles, .com, .anvil, .rep, .time, .sched, .ctxs, .hspi0, .hspi1, .qf, .closed, .flt, .light, .bus, .pwr, .ces, .acc, .keys, .upd, .free] s) := by
  unfold execMemWrite; repeat' (first
      | with_reducible refine Answers.next ?_ | with_reducible exact Only.refl _ _ | with_reducible refine (hostPacket_frame _ _ _ _).after (by decide) ?_
      | with_reducible refine (memWriteSpec_frame).after (by decide) ?_)

theorem execUpdStatus_frame (h : Hdr) (b : Rec) (s : State) :
    Answers (execUpdStatus h b s) (Only [.roles, .com, .anvil, .rep, .time, .sched, .ctxs, .hspi0, .hspi1, .qf, .closed, .flt, .light, .bus, .pwr, .ces, .acc, .keys, .upd, .free] s) := by
  unfold execUpdStatus; repeat' (first
      | with_reducible refine Answers.next ?_ | with_reducible exact Only.refl _ _ | with_reducible refine (hostPacket_frame _ _ _ _).after (by decide) ?_
      | with_reducible refine (updStatusSpec_frame).after (by decide) ?_)

theorem execFltClear_frame (h : Hdr) (b : Rec) (s : State) :
    Answers (execFltClear h b s) (Only [.roles, .com, .anvil, .rep, .time, .sched, .ctxs, .hspi0, .hspi1, .qf, .closed, .flt, .light, .bus, .pwr, .ces, .acc, .keys, .upd, .free] s) := by
  unfold execFltClear; repeat' (first
      | with_reducible refine Answers.next ?_ | with_reducible exact Only.refl _ _ | with_reducible refine (hostPacket_frame _ _ _ _).after (by decide) ?_
      | with_reducible refine (fltClearSpec_frame).after (by decide) ?_)

theorem execLightConfig_frame (h : Hdr) (b : Rec) (s : State) :
    Answers (execLightConfig h b s) (Only [.roles, .com, .anvil, .rep, .time, .sched, .ctxs, .hspi0, .hspi1, .qf, .closed, .flt, .light, .bus, .pwr, .ces, .acc, .keys, .upd, .free] s) := by
  unfold execLightConfig; repeat' (first
      | with_reducible refine Answers.next ?_ | with_reducible exact Only.refl _ _ | with_reducible refine (hostPacket_frame _ _ _ _).after (by decide) ?_
      | with_reducible refine (lightConfigSpec_frame).after (by decide) ?_)

theorem execChSet_frame (h : Hdr) (b : Rec) (s : State) :
    Answers (execChSet h b s) (Only [.roles, .com, .anvil, .rep, .time, .sched, .ctxs, .hspi0, .hspi1, .qf, .closed, .flt, .light, .bus, .pwr, .ces, .acc, .keys, .upd, .free] s) := by
  unfold execChSet; repeat' (first
      | with_reducible refine Answers.next ?_ | with_reducible exact Only.refl _ _ | with_reducible refine (hostPacket_frame _ _ _ _).after (by decide) ?_
      | with_reducible refine (chSetSpec_frame).after (by decide) ?_)

theorem execLightStatus_frame (h : Hdr) (b : Rec) (s : State) :
    Answers (execLightStatus h b s) (Only [.roles, .com, .anvil, .rep, .time, .sched, .ctxs, .hspi0, .hspi1, .qf, .closed, .flt, .light, .bus, .pwr, .ces, .acc, .keys, .upd, .free] s) := by
  unfold execLightStatus; repeat' (first
      | with_reducible refine Answers.next ?_ | with_reducible exact Only.refl _ _ | with_reducible refine (hostPacket_frame _ _ _ _).after (by decide) ?_
      | with_reducible refine (lightStatusSpec_frame).after (by decide) ?_)

theorem execLsSet_frame (h : Hdr) (b : Rec) (s : State) :
    Answers (execLsSet h b s) (Only [.roles, .com, .anvil, .rep, .time, .sched, .ctxs, .hspi0, .hspi1, .qf, .closed, .flt, .light, .bus, .pwr, .ces, .acc, .keys, .upd, .free] s) := by
  unfold execLsSet; repeat' (first
      | with_reducible refine Answers.next ?_ | with_reducible exact Only.refl _ _ | with_reducible refine (hostPacket_frame _ _ _ _).after (by decide) ?_
      | with_reducible refine (lsSetSpec_frame).after (by decide) ?_)

theorem execIndSet_frame (h : Hdr) (b : Rec) (s : State) :
    Answers (execIndSet h b s) (Only [.roles, .com, .anvil, .rep, .time, .sched, .ctxs, .hspi0, .hspi1, .qf, .closed, .flt, .light, .bus, .pwr, .ces, .acc, .keys, .upd, .free] s) := by
  unfold execIndSet; repeat' (first
      | with_reducible refine Answers.next ?_ | with_reducible exact Only.refl _ _ | with_reducible refine (hostPacket_frame _ _ _ _).after (by decide) ?_
      | with_reducible refine (indSetSpec_frame).after (by decide) ?_)

theorem execIndConfig_frame (h : Hdr) (b : Rec) (s : State) :
    Answers (execIndConfig h b s) (Only [.roles, .com, .anvil, .rep, .time, .sched, .ctxs, .hspi0, .hspi1, .qf, .closed, .flt, .light, .bus, .pwr, .ces, .acc, .keys, .upd, .free] s) := by
  unfold execIndConfig; repeat' (first
      | with_reducible refine Answers.next ?_ | with_reducible exact Only.refl _ _ | with_reducible refine (hostPacket_frame _ _ _ _).after (by decide) ?_
      | with_reducible refine (indConfigSpec_frame).after (by decide) ?_)

theorem execQRewind_frame (h : Hdr) (b : Rec) (s : State) :
    Answers (execQRewind h b s) (Only [.roles, .com, .anvil, .rep, .time, .sched, .ctxs, .hspi0, .hspi1, .qf, .closed, .flt, .light, .bus, .pwr, .ces, .acc, .keys, .upd, .free] s) := by
  unfold execQRewind; repeat' (first
      | with_reducible refine Answers.next ?_ | with_reducible exact Only.refl _ _ | with_reducible refine (hostPacket_frame _ _ _ _).after (by decide) ?_
      | with_reducible refine (qRewindSpec_frame).after (by decide) ?_)

theorem execUpdCancel_frame (h : Hdr) (b : Rec) (s : State) :
    Answers (execUpdCancel h b s) (Only [.roles, .com, .anvil, .rep, .time, .sched, .ctxs, .hspi0, .hspi1, .qf, .closed, .flt, .light, .bus, .pwr, .ces, .acc, .keys, .upd, .free] s) := by
  unfold execUpdCancel; repeat' (first
      | with_reducible refine Answers.next ?_ | with_reducible exact Only.refl _ _ | with_reducible refine (hostPacket_frame _ _ _ _).after (by decide) ?_
      | with_reducible refine (updCancelSpec_frame).after (by decide) ?_)

theorem execLsStatus_frame (h : Hdr) (b : Rec) (s : State) :
    Answers (execLsStatus h b s) (Only [.roles, .com, .anvil, .rep, .time, .sched, .ctxs, .hspi0, .hspi1, .qf, .closed, .flt, .light, .bus, .pwr, .ces, .acc, .keys, .upd, .free] s) := by
  unfold execLsStatus; repeat' (first
      | with_reducible refine Answers.next ?_ | with_reducible exact Only.refl _ _ | with_reducible refine (hostPacket_frame _ _ _ _).after (by decide) ?_
      | with_reducible refine (lsStatusSpec_frame).after (by decide) ?_)

theorem execChProtStatus_frame (h : Hdr) (b : Rec) (s : State) :
    Answers (execChProtStatus h b s) (Only [.roles, .com, .anvil, .rep, .time, .sched, .ctxs, .hspi0, .hspi1, .qf, .closed, .flt, .light, .bus, .pwr, .ces, .acc, .keys, .upd, .free] s) := by
  unfold execChProtStatus; repeat' (first
      | with_reducible refine Answers.next ?_ | with_reducible exact Only.refl _ _ | with_reducible refine (hostPacket_frame _ _ _ _).after (by decide) ?_
      | with_reducible refine (chProtStatusSpec_frame).after (by decide) ?_)

theorem execKeyInfo_frame (h : Hdr) (b : Rec) (s : State) :
    Answers (execKeyInfo h b s) (Only [.roles, .com, .anvil, .rep, .time, .sched, .ctxs, .hspi0, .hspi1, .qf, .closed, .flt, .light, .bus, .pwr, .ces, .acc, .keys, .upd, .free] s) := by
  unfold execKeyInfo; repeat' (first
      | with_reducible refine Answers.next ?_ | with_reducible exact Only.refl _ _ | with_reducible refine (hostPacket_frame _ _ _ _).after (by decide) ?_
      | with_reducible refine (keyInfoSpec_frame).after (by decide) ?_)

theorem execLsConfig_frame (h : Hdr) (b : Rec) (s : State) :
    Answers (execLsConfig h b s) (Only [.roles, .com, .anvil, .rep, .time, .sched, .ctxs, .hspi0, .hspi1, .qf, .closed, .flt, .light, .bus, .pwr, .ces, .acc, .keys, .upd, .free] s) := by
  unfold execLsConfig; repeat' (first
      | with_reducible refine Answers.next ?_ | with_reducible exact Only.refl _ _ | with_reducible refine (hostPacket_frame _ _ _ _).after (by decide) ?_
      | with_reducible refine (lsConfigSpec_frame).after (by decide) ?_)

theorem execPwrStatus_frame (h : Hdr) (b : Rec) (s : State) :
    Answers (execPwrStatus h b s) (Only [.roles, .com, .anvil, .rep, .time, .sched, .ctxs, .hspi0, .hspi1, .qf, .closed, .flt, .light, .bus, .pwr, .ces, .acc, .keys, .upd, .free] s) := by
  unfold execPwrStatus; repeat' (first
      | with_reducible refine Answers.next ?_ | with_reducible exact Only.refl _ _ | with_reducible refine (hostPacket_frame _ _ _ _).after (by decide) ?_
      | with_reducible refine (pwrStatusSpec_frame).after (by decide) ?_)

theorem execPadRelease_frame (h : Hdr) (b : Rec) (s : State) :
    Answers (execPadRelease h b s) (Only [.roles, .com, .anvil, .rep, .time, .sched, .ctxs, .hspi0, .hspi1, .qf, .closed, .flt, .light, .bus, .pwr, .ces, .acc, .keys, .upd, .free] s) := by
  unfold execPadRelease; repeat' (first
      | with_reducible refine Answers.next ?_ | with_reducible exact Only.refl _ _ | with_reducible refine (hostPacket_frame _ _ _ _).after (by decide) ?_
      | with_reducible refine (padReleaseSpec_frame).after (by decide) ?_)

theorem execChProtConfig_frame (h : Hdr) (b : Rec) (s : State) :
    Answers (execChProtConfig h b s) (Only [.roles, .com, .anvil, .rep, .time, .sched, .ctxs, .hspi0, .hspi1, .qf, .closed, .flt, .light, .bus, .pwr, .ces, .acc, .keys, .upd, .free] s) := by
  unfold execChProtConfig; repeat' (first
      | with_reducible refine Answers.next ?_ | with_reducible exact Only.refl _ _ | with_reducible refine (hostPacket_frame _ _ _ _).after (by decide) ?_
      | with_reducible refine (chProtConfigSpec_frame).after (by decide) ?_)

theorem execBrStatus_frame (h : Hdr) (b : Rec) (s : State) :
    Answers (execBrStatus h b s) (Only [.roles, .com, .anvil, .rep, .time, .sched, .ctxs, .hspi0, .hspi1, .qf, .closed, .flt, .light, .bus, .pwr, .ces, .acc, .keys, .upd, .free] s) := by
  unfold execBrStatus; repeat' (first
      | with_reducible refine Answers.next ?_ | with_reducible exact Only.refl _ _ | with_reducible refine (hostPacket_frame _ _ _ _).after (by decide) ?_
      | with_reducible refine (brStatusSpec_frame).after (by decide) ?_)

theorem execBrConfig_frame (h : Hdr) (b : Rec) (s : State) :
    Answers (execBrConfig h b s) (Only [.roles, .com, .anvil, .rep, .time, .sched, .ctxs, .hspi0, .hspi1, .qf, .closed, .flt, .light, .bus, .pwr, .ces, .acc, .keys, .upd, .free] s) := by
  unfold execBrConfig; repeat' (first
      | with_reducible refine Answers.next ?_ | with_reducible exact Only.refl _ _ | with_reducible refine (hostPacket_frame _ _ _ _).after (by decide) ?_
      | with_reducible refine (brConfigSpec_frame).after (by decide) ?_)

theorem execEthStatus_frame (h : Hdr) (b : Rec) (s : State) :
    Answers (execEthStatus h b s) (Only [.roles, .com, .anvil, .rep, .time, .sched, .ctxs, .hspi0, .hspi1, .qf, .closed, .flt, .light, .bus, .pwr, .ces, .acc, .keys, .upd, .free] s) := by
  unfold execEthStatus; repeat' (first
      | with_reducible refine Answers.next ?_ | with_reducible exact Only.refl _ _ | with_reducible refine (hostPacket_frame _ _ _ _).after (by decide) ?_
      | with_reducible refine (ethStatusSpec_frame).after (by decide) ?_)

theorem execKeyMacVer_frame (h : Hdr) (b : Rec) (s : State) :
    Answers (execKeyMacVer h b s) (Only [.roles, .com, .anvil, .rep, .time, .sched, .ctxs, .hspi0, .hspi1, .qf, .closed, .flt, .light, .bus, .pwr, .ces, .acc, .keys, .upd, .free] s) := by
  unfold execKeyMacVer; repeat' (first
      | with_reducible refine Answers.next ?_ | with_reducible exact Only.refl _ _ | with_reducible refine (hostPacket_frame _ _ _ _).after (by decide) ?_
      | with_reducible refine (keyMacSpec_frame).after (by decide) ?_)

theorem execBrSet_frame (h : Hdr) (b : Rec) (s : State) :
    Answers (execBrSet h b s) (Only [.roles, .com, .anvil, .rep, .time, .sched, .ctxs, .hspi0, .hspi1, .qf, .closed, .flt, .light, .bus, .pwr, .ces, .acc, .keys, .upd, .free] s) := by
  unfold execBrSet; repeat' (first
      | with_reducible refine Answers.next ?_ | with_reducible exact Only.refl _ _ | with_reducible refine (hostPacket_frame _ _ _ _).after (by decide) ?_
      | with_reducible refine (brSetSpec_frame).after (by decide) ?_)

theorem execInConfig_frame (h : Hdr) (b : Rec) (s : State) :
    Answers (execInConfig h b s) (Only [.roles, .com, .anvil, .rep, .time, .sched, .ctxs, .hspi0, .hspi1, .qf, .closed, .flt, .light, .bus, .pwr, .ces, .acc, .keys, .upd, .free] s) := by
  unfold execInConfig; repeat' (first
      | with_reducible refine Answers.next ?_ | with_reducible exact Only.refl _ _ | with_reducible refine (hostPacket_frame _ _ _ _).after (by decide) ?_
      | with_reducible refine (inConfigSpec_frame).after (by decide) ?_)

theorem execCanControlStop_frame (h : Hdr) (b : Rec) (s : State) :
    Answers (execCanControlStop h b s) (Only [.roles, .com, .anvil, .rep, .time, .sched, .ctxs, .hspi0, .hspi1, .qf, .closed, .flt, .light, .bus, .pwr, .ces, .acc, .keys, .upd, .free] s) := by
  unfold execCanControlStop; repeat' (first
      | with_reducible refine Answers.next ?_ | with_reducible exact Only.refl _ _ | with_reducible refine (hostPacket_frame _ _ _ _).after (by decide) ?_
      | with_reducible refine (canControlSpec_frame).after (by decide) ?_)

theorem execCanFiltApply_frame (h : Hdr) (b : Rec) (s : State) :
    Answers (execCanFiltApply h b s) (Only [.roles, .com, .anvil, .rep, .time, .sched, .ctxs, .hspi0, .hspi1, .qf, .closed, .flt, .light, .bus, .pwr, .ces, .acc, .keys, .upd, .free] s) := by
  unfold execCanFiltApply; repeat' (first
      | with_reducible refine Answers.next ?_ | with_reducible exact Only.refl _ _ | with_reducible refine (hostPacket_frame _ _ _ _).after (by decide) ?_
      | with_reducible refine (canFiltApplySpec_frame).after (by decide) ?_)

theorem execIndClear_frame (h : Hdr) (b : Rec) (s : State) :
    Answers (execIndClear h b s) (Only [.roles, .com, .anvil, .rep, .time, .sched, .ctxs, .hspi0, .hspi1, .qf, .closed, .flt, .light, .bus, .pwr, .ces, .acc, .keys, .upd, .free] s) := by
  unfold execIndClear; repeat' (first
      | with_reducible refine Answers.next ?_ | with_reducible exact Only.refl _ _ | with_reducible refine (hostPacket_frame _ _ _ _).after (by decide) ?_
      | with_reducible refine (indClearSpec_frame).after (by decide) ?_)

theorem execCmpStatus_frame (h : Hdr) (b : Rec) (s : State) :
    Answers (execCmpStatus h b s) (Only [.roles, .com, .anvil, .rep, .time, .sched, .ctxs, .hspi0, .hspi1, .qf, .closed, .flt, .light, .bus, .pwr, .ces, .acc, .keys, .upd, .free] s) := by
  unfold execCmpStatus; repeat' (first
      | with_reducible refine Answers.next ?_ | with_reducible exact Only.refl _ _ | with_reducible refine (hostPacket_frame _ _ _ _).after (by decide) ?_
      | with_reducible refine (cmpStatusSpec_frame).after (by decide) ?_)

theorem execLinControlWake_frame (h : Hdr) (b : Rec) (s : State) :
    Answers (execLinControlWake h b s) (Only [.roles, .com, .anvil, .rep, .time, .sched, .ctxs, .hspi0, .hspi1, .qf, .closed, .flt, .light, .bus, .pwr, .ces, .acc, .keys, .upd, .free] s) := by
  unfold execLinControlWake; repeat' (first
      | with_reducible refine Answers.next ?_ | with_reducible exact Only.refl _ _ | with_reducible refine (hostPacket_frame _ _ _ _).after (by decide) ?_
      | with_reducible refine (linControlSpec_frame).after (by decide) ?_)

theorem execFltConfig_frame (h : Hdr) (b : Rec) (s : State) :
    Answers (execFltConfig h b s) (Only [.roles, .com, .anvil, .rep, .time, .sched, .ctxs, .hspi0, .hspi1, .qf, .closed, .flt, .light, .bus, .pwr, .ces, .acc, .keys, .upd, .free] s) := by
  unfold execFltConfig; repeat' (first
      | with_reducible refine Answers.next ?_ | with_reducible exact Only.refl _ _ | with_reducible refine (hostPacket_frame _ _ _ _).after (by decide) ?_
      | with_reducible refine (fltConfigSpec_frame).after (by decide) ?_)

theorem execSchedUnit_frame (h : Hdr) (b : Rec) (s : State) :
    Answers (execSchedUnit h b s) (Only [.roles, .com, .anvil, .rep, .time, .sched, .ctxs, .hspi0, .hspi1, .qf, .closed, .flt, .light, .bus, .pwr, .ces, .acc, .keys, .upd, .free] s) := by
  unfold execSchedUnit; repeat' (first
      | with_reducible refine Answers.next ?_ | with_reducible exact Only.refl _ _ | with_reducible refine (hostPacket_frame _ _ _ _).after (by decide) ?_
      | with_reducible refine (schedUnitSpec_frame).after (by decide) ?_)

theorem execImmoStart_frame (h : Hdr) (b : Rec) (s : State) :
    Answers (execImmoStart h b s) (Only [.roles, .com, .anvil, .rep, .time, .sched, .ctxs, .hspi0, .hspi1, .qf, .closed, .flt, .light, .bus, .pwr, .ces, .acc, .keys, .upd, .free] s) := by
  unfold execImmoStart; repeat' (first
      | with_reducible refine Answers.next ?_ | with_reducible exact Only.refl _ _ | with_reducible refine (hostPacket_frame _ _ _ _).after (by decide) ?_
      | with_reducible refine (immoStartSpec_frame).after (by decide) ?_)

theorem execAccPhPresence_frame (h : Hdr) (b : Rec) (s : State) :
    Answers (execAccPhPresence h b s) (Only [.roles, .com, .anvil, .rep, .time, .sched, .ctxs, .hspi0, .hspi1, .qf, .closed, .flt, .light, .bus, .pwr, .ces, .acc, .keys, .upd, .free] s) := by
  unfold execAccPhPresence; repeat' (first
      | with_reducible refine Answers.next ?_ | with_reducible exact Only.refl _ _ | with_reducible refine (hostPacket_frame _ _ _ _).after (by decide) ?_
      | with_reducible refine (accPresenceSpec_frame).after (by decide) ?_)

theorem execQAudit_frame (h : Hdr) (b : Rec) (s : State) :
    Answers (execQAudit h b s) (Only [.roles, .com, .anvil, .rep, .time, .sched, .ctxs, .hspi0, .hspi1, .qf, .closed, .flt, .light, .bus, .pwr, .ces, .acc, .keys, .upd, .free] s) := by
  unfold execQAudit; repeat' (first
      | with_reducible refine Answers.next ?_ | with_reducible exact Only.refl _ _ | with_reducible refine (hostPacket_frame _ _ _ _).after (by decide) ?_
      | with_reducible refine (qAuditSpec_frame).after (by decide) ?_)

theorem execUpdActivateNow_frame (h : Hdr) (b : Rec) (s : State) :
    Answers (execUpdActivateNow h b s) (Only [.roles, .com, .anvil, .rep, .time, .sched, .ctxs, .hspi0, .hspi1, .qf, .closed, .flt, .light, .bus, .pwr, .ces, .acc, .keys, .upd, .free] s) := by
  unfold execUpdActivateNow; repeat' (first
      | with_reducible refine Answers.next ?_ | with_reducible exact Only.refl _ _ | with_reducible refine (hostPacket_frame _ _ _ _).after (by decide) ?_
      | with_reducible refine (updActivateSpec_frame).after (by decide) ?_)

theorem execChStatus_frame (h : Hdr) (b : Rec) (s : State) :
    Answers (execChStatus h b s) (Only [.roles, .com, .anvil, .rep, .time, .sched, .ctxs, .hspi0, .hspi1, .qf, .closed, .flt, .light, .bus, .pwr, .ces, .acc, .keys, .upd, .free] s) := by
  unfold execChStatus; repeat' (first
      | with_reducible refine Answers.next ?_ | with_reducible exact Only.refl _ _ | with_reducible refine (hostPacket_frame _ _ _ _).after (by decide) ?_
      | with_reducible refine (chStatusSpec_frame).after (by decide) ?_)

theorem execTmrStatus_frame (h : Hdr) (b : Rec) (s : State) :
    Answers (execTmrStatus h b s) (Only [.roles, .com, .anvil, .rep, .time, .sched, .ctxs, .hspi0, .hspi1, .qf, .closed, .flt, .light, .bus, .pwr, .ces, .acc, .keys, .upd, .free] s) := by
  unfold execTmrStatus; repeat' (first
      | with_reducible refine Answers.next ?_ | with_reducible exact Only.refl _ _ | with_reducible refine (hostPacket_frame _ _ _ _).after (by decide) ?_
      | with_reducible refine (tmrStatusSpec_frame).after (by decide) ?_)

theorem execLsClear_frame (h : Hdr) (b : Rec) (s : State) :
    Answers (execLsClear h b s) (Only [.roles, .com, .anvil, .rep, .time, .sched, .ctxs, .hspi0, .hspi1, .qf, .closed, .flt, .light, .bus, .pwr, .ces, .acc, .keys, .upd, .free] s) := by
  unfold execLsClear; repeat' (first
      | with_reducible refine Answers.next ?_ | with_reducible exact Only.refl _ _ | with_reducible refine (hostPacket_frame _ _ _ _).after (by decide) ?_
      | with_reducible refine (lsClearSpec_frame).after (by decide) ?_)

theorem execCanControlFlush_frame (h : Hdr) (b : Rec) (s : State) :
    Answers (execCanControlFlush h b s) (Only [.roles, .com, .anvil, .rep, .time, .sched, .ctxs, .hspi0, .hspi1, .qf, .closed, .flt, .light, .bus, .pwr, .ces, .acc, .keys, .upd, .free] s) := by
  unfold execCanControlFlush; repeat' (first
      | with_reducible refine Answers.next ?_ | with_reducible exact Only.refl _ _ | with_reducible refine (hostPacket_frame _ _ _ _).after (by decide) ?_
      | with_reducible refine (canControlSpec_frame).after (by decide) ?_)

theorem execBrClear_frame (h : Hdr) (b : Rec) (s : State) :
    Answers (execBrClear h b s) (Only [.roles, .com, .anvil, .rep, .time, .sched, .ctxs, .hspi0, .hspi1, .qf, .closed, .flt, .light, .bus, .pwr, .ces, .acc, .keys, .upd, .free] s) := by
  unfold execBrClear; repeat' (first
      | with_reducible refine Answers.next ?_ | with_reducible exact Only.refl _ _ | with_reducible refine (hostPacket_frame _ _ _ _).after (by decide) ?_
      | with_reducible refine (brClearSpec_frame).after (by decide) ?_)

theorem execModeSelect_frame (h : Hdr) (b : Rec) (s : State) :
    Answers (execModeSelect h b s) (Only [.roles, .com, .anvil, .rep, .time, .sched, .ctxs, .hspi0, .hspi1, .qf, .closed, .flt, .light, .bus, .pwr, .ces, .acc, .keys, .upd, .free] s) := by
  unfold execModeSelect; repeat' (first
      | with_reducible refine Answers.next ?_ | with_reducible exact Only.refl _ _ | with_reducible refine (hostPacket_frame _ _ _ _).after (by decide) ?_
      | with_reducible refine (modeSelectSpec_frame).after (by decide) ?_)

theorem execLightCommit_frame (h : Hdr) (b : Rec) (s : State) :
    Answers (execLightCommit h b s) (Only [.roles, .com, .anvil, .rep, .time, .sched, .ctxs, .hspi0, .hspi1, .qf, .closed, .flt, .light, .bus, .pwr, .ces, .acc, .keys, .upd, .free] s) := by
  unfold execLightCommit; repeat' (first
      | with_reducible refine Answers.next ?_ | with_reducible exact Only.refl _ _ | with_reducible refine (hostPacket_frame _ _ _ _).after (by decide) ?_
      | with_reducible refine (lightCommitSpec_frame).after (by decide) ?_)

theorem execTaskParam_frame (h : Hdr) (b : Rec) (s : State) :
    Answers (execTaskParam h b s) (Only [.roles, .com, .anvil, .rep, .time, .sched, .ctxs, .hspi0, .hspi1, .qf, .closed, .flt, .light, .bus, .pwr, .ces, .acc, .keys, .upd, .free] s) := by
  unfold execTaskParam; repeat' (first
      | with_reducible refine Answers.next ?_ | with_reducible exact Only.refl _ _ | with_reducible refine (hostPacket_frame _ _ _ _).after (by decide) ?_
      | with_reducible refine (taskParamSpec_frame).after (by decide) ?_)

theorem execCanConfig_frame (h : Hdr) (b : Rec) (s : State) :
    Answers (execCanConfig h b s) (Only [.roles, .com, .anvil, .rep, .time, .sched, .ctxs, .hspi0, .hspi1, .qf, .closed, .flt, .light, .bus, .pwr, .ces, .acc, .keys, .upd, .free] s) := by
  unfold execCanConfig; repeat' (first
      | with_reducible refine Answers.next ?_ | with_reducible exact Only.refl _ _ | with_reducible refine (hostPacket_frame _ _ _ _).after (by decide) ?_
      | with_reducible refine (canConfigSpec_frame).after (by decide) ?_)

theorem execAccStart_frame (h : Hdr) (b : Rec) (s : State) :
    Answers (execAccStart h b s) (Only [.roles, .com, .anvil, .rep, .time, .sched, .ctxs, .hspi0, .hspi1, .qf, .closed, .flt, .light, .bus, .pwr, .ces, .acc, .keys, .upd, .free] s) := by
  unfold execAccStart; repeat' (first
      | with_reducible refine Answers.next ?_ | with_reducible exact Only.refl _ _ | with_reducible refine (hostPacket_frame _ _ _ _).after (by decide) ?_
      | with_reducible refine (accStartSpec_frame).after (by decide) ?_)

theorem execKeyGenkey_frame (h : Hdr) (b : Rec) (s : State) :
    Answers (execKeyGenkey h b s) (Only [.roles, .com, .anvil, .rep, .time, .sched, .ctxs, .hspi0, .hspi1, .qf, .closed, .flt, .light, .bus, .pwr, .ces, .acc, .keys, .upd, .free] s) := by
  unfold execKeyGenkey; repeat' (first
      | with_reducible refine Answers.next ?_ | with_reducible exact Only.refl _ _ | with_reducible refine (hostPacket_frame _ _ _ _).after (by decide) ?_
      | with_reducible refine (keyGenkeySpec_frame).after (by decide) ?_)

theorem execEthConfig_frame (h : Hdr) (b : Rec) (s : State) :
    Answers (execEthConfig h b s) (Only [.roles, .com, .anvil, .rep, .time, .sched, .ctxs, .hspi0, .hspi1, .qf, .closed, .flt, .light, .bus, .pwr, .ces, .acc, .keys, .upd, .free] s) := by
  unfold execEthConfig; repeat' (first
      | with_reducible refine Answers.next ?_ | with_reducible exact Only.refl _ _ | with_reducible refine (hostPacket_frame _ _ _ _).after (by decide) ?_
      | with_reducible refine (ethConfigSpec_frame).after (by decide) ?_)

theorem execLinSet_frame (h : Hdr) (b : Rec) (s : State) :
    Answers (execLinSet h b s) (Only [.roles, .com, .anvil, .rep, .time, .sched, .ctxs, .hspi0, .hspi1, .qf, .closed, .flt, .light, .bus, .pwr, .ces, .acc, .keys, .upd, .free] s) := by
  unfold execLinSet; repeat' (first
      | with_reducible refine Answers.next ?_ | with_reducible exact Only.refl _ _ | with_reducible refine (hostPacket_frame _ _ _ _).after (by decide) ?_
      | with_reducible refine (linSetSpec_frame).after (by decide) ?_)

theorem execTimeAnchorClear_frame (h : Hdr) (b : Rec) (s : State) :
    Answers (execTimeAnchorClear h b s) (Only [.roles, .com, .anvil, .rep, .time, .sched, .ctxs, .hspi0, .hspi1, .qf, .closed, .flt, .light, .bus, .pwr, .ces, .acc, .keys, .upd, .free] s) := by
  unfold execTimeAnchorClear; repeat' (first
      | with_reducible refine Answers.next ?_ | with_reducible exact Only.refl _ _ | with_reducible refine (hostPacket_frame _ _ _ _).after (by decide) ?_
      | with_reducible refine (timeAnchorSpec_frame).after (by decide) ?_)

theorem execFltHistory_frame (h : Hdr) (b : Rec) (s : State) :
    Answers (execFltHistory h b s) (Only [.roles, .com, .anvil, .rep, .time, .sched, .ctxs, .hspi0, .hspi1, .qf, .closed, .flt, .light, .bus, .pwr, .ces, .acc, .keys, .upd, .free] s) := by
  unfold execFltHistory; repeat' (first
      | with_reducible refine Answers.next ?_ | with_reducible exact Only.refl _ _ | with_reducible refine (hostPacket_frame _ _ _ _).after (by decide) ?_
      | with_reducible refine (fltHistorySpec_frame).after (by decide) ?_)

theorem execInGlobal_frame (h : Hdr) (b : Rec) (s : State) :
    Answers (execInGlobal h b s) (Only [.roles, .com, .anvil, .rep, .time, .sched, .ctxs, .hspi0, .hspi1, .qf, .closed, .flt, .light, .bus, .pwr, .ces, .acc, .keys, .upd, .free] s) := by
  unfold execInGlobal; repeat' (first
      | with_reducible refine Answers.next ?_ | with_reducible exact Only.refl _ _ | with_reducible refine (hostPacket_frame _ _ _ _).after (by decide) ?_
      | with_reducible refine (inGlobalSpec_frame).after (by decide) ?_)

theorem execCmpSetKeep_frame (h : Hdr) (b : Rec) (s : State) :
    Answers (execCmpSetKeep h b s) (Only [.roles, .com, .anvil, .rep, .time, .sched, .ctxs, .hspi0, .hspi1, .qf, .closed, .flt, .light, .bus, .pwr, .ces, .acc, .keys, .upd, .free] s) := by
  unfold execCmpSetKeep; repeat' (first
      | with_reducible refine Answers.next ?_ | with_reducible exact Only.refl _ _ | with_reducible refine (hostPacket_frame _ _ _ _).after (by decide) ?_
      | with_reducible refine (cmpSetSpec_frame).after (by decide) ?_)

theorem execFltSticky_frame (h : Hdr) (b : Rec) (s : State) :
    Answers (execFltSticky h b s) (Only [.roles, .com, .anvil, .rep, .time, .sched, .ctxs, .hspi0, .hspi1, .qf, .closed, .flt, .light, .bus, .pwr, .ces, .acc, .keys, .upd, .free] s) := by
  unfold execFltSticky; repeat' (first
      | with_reducible refine Answers.next ?_ | with_reducible exact Only.refl _ _ | with_reducible refine (hostPacket_frame _ _ _ _).after (by decide) ?_
      | with_reducible refine (fltStickySpec_frame).after (by decide) ?_)

theorem execCanStatus_frame (h : Hdr) (b : Rec) (s : State) :
    Answers (execCanStatus h b s) (Only [.roles, .com, .anvil, .rep, .time, .sched, .ctxs, .hspi0, .hspi1, .qf, .closed, .flt, .light, .bus, .pwr, .ces, .acc, .keys, .upd, .free] s) := by
  unfold execCanStatus; repeat' (first
      | with_reducible refine Answers.next ?_ | with_reducible exact Only.refl _ _ | with_reducible refine (hostPacket_frame _ _ _ _).after (by decide) ?_
      | with_reducible refine (canStatusSpec_frame).after (by decide) ?_)

theorem execLhConfig_frame (h : Hdr) (b : Rec) (s : State) :
    Answers (execLhConfig h b s) (Only [.roles, .com, .anvil, .rep, .time, .sched, .ctxs, .hspi0, .hspi1, .qf, .closed, .flt, .light, .bus, .pwr, .ces, .acc, .keys, .upd, .free] s) := by
  unfold execLhConfig; repeat' (first
      | with_reducible refine Answers.next ?_ | with_reducible exact Only.refl _ _ | with_reducible refine (hostPacket_frame _ _ _ _).after (by decide) ?_
      | with_reducible refine (lhConfigSpec_frame).after (by decide) ?_)

theorem execCtxReset_frame (h : Hdr) (b : Rec) (s : State) :
    Answers (execCtxReset h b s) (Only [.roles, .com, .anvil, .rep, .time, .sched, .ctxs, .hspi0, .hspi1, .qf, .closed, .flt, .light, .bus, .pwr, .ces, .acc, .keys, .upd, .free] s) := by
  unfold execCtxReset; repeat' (first
      | with_reducible refine Answers.next ?_ | with_reducible exact Only.refl _ _ | with_reducible refine (hostPacket_frame _ _ _ _).after (by decide) ?_
      | with_reducible refine (ctxResetSpec_frame).after (by decide) ?_)

theorem execCanControlSleep_frame (h : Hdr) (b : Rec) (s : State) :
    Answers (execCanControlSleep h b s) (Only [.roles, .com, .anvil, .rep, .time, .sched, .ctxs, .hspi0, .hspi1, .qf, .closed, .flt, .light, .bus, .pwr, .ces, .acc, .keys, .upd, .free] s) := by
  unfold execCanControlSleep; repeat' (first
      | with_reducible refine Answers.next ?_ | with_reducible exact Only.refl _ _ | with_reducible refine (hostPacket_frame _ _ _ _).after (by decide) ?_
      | with_reducible refine (canControlSpec_frame).after (by decide) ?_)

theorem execKeySignVerify_frame (h : Hdr) (b : Rec) (s : State) :
    Answers (execKeySignVerify h b s) (Only [.roles, .com, .anvil, .rep, .time, .sched, .ctxs, .hspi0, .hspi1, .qf, .closed, .flt, .light, .bus, .pwr, .ces, .acc, .keys, .upd, .free] s) := by
  unfold execKeySignVerify; repeat' (first
      | with_reducible refine Answers.next ?_ | with_reducible exact Only.refl _ _ | with_reducible refine (hostPacket_frame _ _ _ _).after (by decide) ?_
      | with_reducible refine (keySignSpec_frame).after (by decide) ?_)

theorem execTmrConfig_frame (h : Hdr) (b : Rec) (s : State) :
    Answers (execTmrConfig h b s) (Only [.roles, .com, .anvil, .rep, .time, .sched, .ctxs, .hspi0, .hspi1, .qf, .closed, .flt, .light, .bus, .pwr, .ces, .acc, .keys, .upd, .free] s) := by
  unfold execTmrConfig; repeat' (first
      | with_reducible refine Answers.next ?_ | with_reducible exact Only.refl _ _ | with_reducible refine (hostPacket_frame _ _ _ _).after (by decide) ?_
      | with_reducible refine (tmrConfigSpec_frame).after (by decide) ?_)

theorem execMonRead_frame (h : Hdr) (b : Rec) (s : State) :
    Answers (execMonRead h b s) (Only [.roles, .com, .anvil, .rep, .time, .sched, .ctxs, .hspi0, .hspi1, .qf, .closed, .flt, .light, .bus, .pwr, .ces, .acc, .keys, .upd, .free] s) := by
  unfold execMonRead; repeat' (first
      | with_reducible refine Answers.next ?_ | with_reducible exact Only.refl _ _ | with_reducible refine (hostPacket_frame _ _ _ _).after (by decide) ?_
      | with_reducible refine (monReadSpec_frame).after (by decide) ?_)

theorem execUpdVerify_frame (h : Hdr) (b : Rec) (s : State) :
    Answers (execUpdVerify h b s) (Only [.roles, .com, .anvil, .rep, .time, .sched, .ctxs, .hspi0, .hspi1, .qf, .closed, .flt, .light, .bus, .pwr, .ces, .acc, .keys, .upd, .free] s) := by
  unfold execUpdVerify; repeat' (first
      | with_reducible refine Answers.next ?_ | with_reducible exact Only.refl _ _ | with_reducible refine (hostPacket_frame _ _ _ _).after (by decide) ?_
      | with_reducible refine (updVerifySpec_frame).after (by decide) ?_)

theorem execCanControlRecover_frame (h : Hdr) (b : Rec) (s : State) :
    Answers (execCanControlRecover h b s) (Only [.roles, .com, .anvil, .rep, .time, .sched, .ctxs, .hspi0, .hspi1, .qf, .closed, .flt, .light, .bus, .pwr, .ces, .acc, .keys, .upd, .free] s) := by
  unfold execCanControlRecover; repeat' (first
      | with_reducible refine Answers.next ?_ | with_reducible exact Only.refl _ _ | with_reducible refine (hostPacket_frame _ _ _ _).after (by decide) ?_
      | with_reducible refine (canControlSpec_frame).after (by decide) ?_)

theorem execImmoRevoke_frame (h : Hdr) (b : Rec) (s : State) :
    Answers (execImmoRevoke h b s) (Only [.roles, .com, .anvil, .rep, .time, .sched, .ctxs, .hspi0, .hspi1, .qf, .closed, .flt, .light, .bus, .pwr, .ces, .acc, .keys, .upd, .free] s) := by
  unfold execImmoRevoke; repeat' (first
      | with_reducible refine Answers.next ?_ | with_reducible exact Only.refl _ _ | with_reducible refine (hostPacket_frame _ _ _ _).after (by decide) ?_
      | with_reducible refine (immoRevokeSpec_frame).after (by decide) ?_)

theorem execQRead_frame (h : Hdr) (b : Rec) (s : State) :
    Answers (execQRead h b s) (Only [.roles, .com, .anvil, .rep, .time, .sched, .ctxs, .hspi0, .hspi1, .qf, .closed, .flt, .light, .bus, .pwr, .ces, .acc, .keys, .upd, .free] s) := by
  unfold execQRead; repeat' (first
      | with_reducible refine Answers.next ?_ | with_reducible exact Only.refl _ _ | with_reducible refine (hostPacket_frame _ _ _ _).after (by decide) ?_
      | with_reducible refine (qReadSpec_frame).after (by decide) ?_)

theorem execBrPosSet_frame (h : Hdr) (b : Rec) (s : State) :
    Answers (execBrPosSet h b s) (Only [.roles, .com, .anvil, .rep, .time, .sched, .ctxs, .hspi0, .hspi1, .qf, .closed, .flt, .light, .bus, .pwr, .ces, .acc, .keys, .upd, .free] s) := by
  unfold execBrPosSet; repeat' (first
      | with_reducible refine Answers.next ?_ | with_reducible exact Only.refl _ _ | with_reducible refine (hostPacket_frame _ _ _ _).after (by decide) ?_
      | with_reducible refine (brPosSetSpec_frame).after (by decide) ?_)

theorem execKeyAttest_frame (h : Hdr) (b : Rec) (s : State) :
    Answers (execKeyAttest h b s) (Only [.roles, .com, .anvil, .rep, .time, .sched, .ctxs, .hspi0, .hspi1, .qf, .closed, .flt, .light, .bus, .pwr, .ces, .acc, .keys, .upd, .free] s) := by
  unfold execKeyAttest; repeat' (first
      | with_reducible refine Answers.next ?_ | with_reducible exact Only.refl _ _ | with_reducible refine (hostPacket_frame _ _ _ _).after (by decide) ?_
      | with_reducible refine (keyAttestSpec_frame).after (by decide) ?_)

theorem execLightStage_frame (h : Hdr) (b : Rec) (s : State) :
    Answers (execLightStage h b s) (Only [.roles, .com, .anvil, .rep, .time, .sched, .ctxs, .hspi0, .hspi1, .qf, .closed, .flt, .light, .bus, .pwr, .ces, .acc, .keys, .upd, .free] s) := by
  unfold execLightStage; repeat' (first
      | with_reducible refine Answers.next ?_ | with_reducible exact Only.refl _ _ | with_reducible refine (hostPacket_frame _ _ _ _).after (by decide) ?_
      | with_reducible refine (lightStageSpec_frame).after (by decide) ?_)

theorem execQConfig_frame (h : Hdr) (b : Rec) (s : State) :
    Answers (execQConfig h b s) (Only [.roles, .com, .anvil, .rep, .time, .sched, .ctxs, .hspi0, .hspi1, .qf, .closed, .flt, .light, .bus, .pwr, .ces, .acc, .keys, .upd, .free] s) := by
  unfold execQConfig; repeat' (first
      | with_reducible refine Answers.next ?_ | with_reducible exact Only.refl _ _ | with_reducible refine (hostPacket_frame _ _ _ _).after (by decide) ?_
      | with_reducible refine (qConfigSpec_frame).after (by decide) ?_)

theorem execUnitClaim_frame (h : Hdr) (b : Rec) (s : State) :
    Answers (execUnitClaim h b s) (Only [.roles, .com, .anvil, .rep, .time, .sched, .ctxs, .hspi0, .hspi1, .qf, .closed, .flt, .light, .bus, .pwr, .ces, .acc, .keys, .upd, .free] s) := by
  unfold execUnitClaim; repeat' (first
      | with_reducible refine Answers.next ?_ | with_reducible exact Only.refl _ _ | with_reducible refine (hostPacket_frame _ _ _ _).after (by decide) ?_
      | with_reducible refine (unitClaimSpec_frame).after (by decide) ?_)

theorem execQRelease_frame (h : Hdr) (b : Rec) (s : State) :
    Answers (execQRelease h b s) (Only [.roles, .com, .anvil, .rep, .time, .sched, .ctxs, .hspi0, .hspi1, .qf, .closed, .flt, .light, .bus, .pwr, .ces, .acc, .keys, .upd, .free] s) := by
  unfold execQRelease; repeat' (first
      | with_reducible refine Answers.next ?_ | with_reducible exact Only.refl _ _ | with_reducible refine (hostPacket_frame _ _ _ _).after (by decide) ?_
      | with_reducible refine (qReleaseSpec_frame).after (by decide) ?_)

theorem execAccLockStatus_frame (h : Hdr) (b : Rec) (s : State) :
    Answers (execAccLockStatus h b s) (Only [.roles, .com, .anvil, .rep, .time, .sched, .ctxs, .hspi0, .hspi1, .qf, .closed, .flt, .light, .bus, .pwr, .ces, .acc, .keys, .upd, .free] s) := by
  unfold execAccLockStatus; repeat' (first
      | with_reducible refine Answers.next ?_ | with_reducible exact Only.refl _ _ | with_reducible refine (hostPacket_frame _ _ _ _).after (by decide) ?_
      | with_reducible refine (accLockStatusSpec_frame).after (by decide) ?_)

theorem execPwrSetPark_frame (h : Hdr) (b : Rec) (deep : Bool) (s : State) :
    Answers (execPwrSetPark h b deep s) (Only [.roles, .com, .anvil, .rep, .time, .sched, .ctxs, .hspi0, .hspi1, .qf, .closed, .flt, .light, .bus, .pwr, .ces, .acc, .keys, .upd, .free] s) := by
  unfold execPwrSetPark; repeat' (first
      | with_reducible refine Answers.next ?_ | with_reducible exact Only.refl _ _ | with_reducible refine (hostPacket_frame _ _ _ _).after (by decide) ?_
      | with_reducible refine (pwrSetSpec_frame).after (by decide) ?_)

theorem execGwBind_frame (h : Hdr) (b : Rec) (s : State) :
    Answers (execGwBind h b s) (Only [.roles, .com, .anvil, .rep, .time, .sched, .ctxs, .hspi0, .hspi1, .qf, .closed, .flt, .light, .bus, .pwr, .ces, .acc, .keys, .upd, .free] s) := by
  unfold execGwBind; repeat' (first
      | with_reducible refine Answers.next ?_ | with_reducible exact Only.refl _ _ | with_reducible refine (hostPacket_frame _ _ _ _).after (by decide) ?_
      | with_reducible refine (gwBindSpec_frame).after (by decide) ?_)

theorem execQPush_frame (h : Hdr) (b : Rec) (s : State) :
    Answers (execQPush h b s) (Only [.roles, .com, .anvil, .rep, .time, .sched, .ctxs, .hspi0, .hspi1, .qf, .closed, .flt, .light, .bus, .pwr, .ces, .acc, .keys, .upd, .free] s) := by
  unfold execQPush; repeat' (first
      | with_reducible refine Answers.next ?_ | with_reducible exact Only.refl _ _ | with_reducible refine (hostPacket_frame _ _ _ _).after (by decide) ?_
      | with_reducible refine (qPushSpec_frame).after (by decide) ?_)

theorem execCanWakeConfig_frame (h : Hdr) (b : Rec) (s : State) :
    Answers (execCanWakeConfig h b s) (Only [.roles, .com, .anvil, .rep, .time, .sched, .ctxs, .hspi0, .hspi1, .qf, .closed, .flt, .light, .bus, .pwr, .ces, .acc, .keys, .upd, .free] s) := by
  unfold execCanWakeConfig; repeat' (first
      | with_reducible refine Answers.next ?_ | with_reducible exact Only.refl _ _ | with_reducible refine (hostPacket_frame _ _ _ _).after (by decide) ?_
      | with_reducible refine (canWakeConfigSpec_frame).after (by decide) ?_)

theorem execCtxConfig_frame (h : Hdr) (b : Rec) (s : State) :
    Answers (execCtxConfig h b s) (Only [.roles, .com, .anvil, .rep, .time, .sched, .ctxs, .hspi0, .hspi1, .qf, .closed, .flt, .light, .bus, .pwr, .ces, .acc, .keys, .upd, .free] s) := by
  unfold execCtxConfig; repeat' (first
      | with_reducible refine Answers.next ?_ | with_reducible exact Only.refl _ _ | with_reducible refine (hostPacket_frame _ _ _ _).after (by decide) ?_
      | with_reducible refine (ctxConfigSpec_frame).after (by decide) ?_)

theorem execTaskControl_frame (h : Hdr) (b : Rec) (s : State) :
    Answers (execTaskControl h b s) (Only [.roles, .com, .anvil, .rep, .time, .sched, .ctxs, .hspi0, .hspi1, .qf, .closed, .flt, .light, .bus, .pwr, .ces, .acc, .keys, .upd, .free] s) := by
  unfold execTaskControl; repeat' (first
      | with_reducible refine Answers.next ?_ | with_reducible exact Only.refl _ _ | with_reducible refine (hostPacket_frame _ _ _ _).after (by decide) ?_
      | with_reducible refine (taskControlSpec_frame).after (by decide) ?_)

theorem execCanFiltWrite_frame (h : Hdr) (b : Rec) (s : State) :
    Answers (execCanFiltWrite h b s) (Only [.roles, .com, .anvil, .rep, .time, .sched, .ctxs, .hspi0, .hspi1, .qf, .closed, .flt, .light, .bus, .pwr, .ces, .acc, .keys, .upd, .free] s) := by
  unfold execCanFiltWrite; repeat' (first
      | with_reducible refine Answers.next ?_ | with_reducible exact Only.refl _ _ | with_reducible refine (hostPacket_frame _ _ _ _).after (by decide) ?_
      | with_reducible refine (canFiltWriteSpec_frame).after (by decide) ?_)

theorem execTaskStatus_frame (h : Hdr) (b : Rec) (s : State) :
    Answers (execTaskStatus h b s) (Only [.roles, .com, .anvil, .rep, .time, .sched, .ctxs, .hspi0, .hspi1, .qf, .closed, .flt, .light, .bus, .pwr, .ces, .acc, .keys, .upd, .free] s) := by
  unfold execTaskStatus; repeat' (first
      | with_reducible refine Answers.next ?_ | with_reducible exact Only.refl _ _ | with_reducible refine (hostPacket_frame _ _ _ _).after (by decide) ?_
      | with_reducible refine (taskStatusSpec_frame).after (by decide) ?_)

theorem execAccConfig_frame (h : Hdr) (b : Rec) (s : State) :
    Answers (execAccConfig h b s) (Only [.roles, .com, .anvil, .rep, .time, .sched, .ctxs, .hspi0, .hspi1, .qf, .closed, .flt, .light, .bus, .pwr, .ces, .acc, .keys, .upd, .free] s) := by
  unfold execAccConfig; repeat' (first
      | with_reducible refine Answers.next ?_ | with_reducible exact Only.refl _ _ | with_reducible refine (hostPacket_frame _ _ _ _).after (by decide) ?_
      | with_reducible refine (accConfigSpec_frame).after (by decide) ?_)

theorem execPwrWakeList_frame (h : Hdr) (b : Rec) (s : State) :
    Answers (execPwrWakeList h b s) (Only [.roles, .com, .anvil, .rep, .time, .sched, .ctxs, .hspi0, .hspi1, .qf, .closed, .flt, .light, .bus, .pwr, .ces, .acc, .keys, .upd, .free] s) := by
  unfold execPwrWakeList; repeat' (first
      | with_reducible refine Answers.next ?_ | with_reducible exact Only.refl _ _ | with_reducible refine (hostPacket_frame _ _ _ _).after (by decide) ?_
      | with_reducible refine (pwrWakeListSpec_frame).after (by decide) ?_)

theorem execSchedCheck_frame (h : Hdr) (b : Rec) (s : State) :
    Answers (execSchedCheck h b s) (Only [.roles, .com, .anvil, .rep, .time, .sched, .ctxs, .hspi0, .hspi1, .qf, .closed, .flt, .light, .bus, .pwr, .ces, .acc, .keys, .upd, .free] s) := by
  unfold execSchedCheck; repeat' (first
      | with_reducible refine Answers.next ?_ | with_reducible exact Only.refl _ _ | with_reducible refine (hostPacket_frame _ _ _ _).after (by decide) ?_
      | with_reducible refine (schedCheckSpec_frame).after (by decide) ?_)

theorem execUpdService_frame (h : Hdr) (b : Rec) (s : State) :
    Answers (execUpdService h b s) (Only [.roles, .com, .anvil, .rep, .time, .sched, .ctxs, .hspi0, .hspi1, .qf, .closed, .flt, .light, .bus, .pwr, .ces, .acc, .keys, .upd, .free] s) := by
  unfold execUpdService; repeat' (first
      | with_reducible refine Answers.next ?_ | with_reducible exact Only.refl _ _ | with_reducible refine (hostPacket_frame _ _ _ _).after (by decide) ?_
      | with_reducible refine (updServiceSpec_frame).after (by decide) ?_)

theorem execInCfgRead_frame (h : Hdr) (b : Rec) (s : State) :
    Answers (execInCfgRead h b s) (Only [.roles, .com, .anvil, .rep, .time, .sched, .ctxs, .hspi0, .hspi1, .qf, .closed, .flt, .light, .bus, .pwr, .ces, .acc, .keys, .upd, .free] s) := by
  unfold execInCfgRead; repeat' (first
      | with_reducible refine Answers.next ?_ | with_reducible exact Only.refl _ _ | with_reducible refine (hostPacket_frame _ _ _ _).after (by decide) ?_
      | with_reducible refine (inCfgReadSpec_frame).after (by decide) ?_)

theorem execGetInfo_frame (h : Hdr) (b : Rec) (s : State) :
    Answers (execGetInfo h b s) (Only [.roles, .com, .anvil, .rep, .time, .sched, .ctxs, .hspi0, .hspi1, .qf, .closed, .flt, .light, .bus, .pwr, .ces, .acc, .keys, .upd, .free] s) := by
  unfold execGetInfo; repeat' (first
      | with_reducible refine Answers.next ?_ | with_reducible exact Only.refl _ _ | with_reducible refine (hostPacket_frame _ _ _ _).after (by decide) ?_
      | with_reducible refine (getInfoSpec_frame).after (by decide) ?_)

theorem execAccStatus_frame (h : Hdr) (b : Rec) (s : State) :
    Answers (execAccStatus h b s) (Only [.roles, .com, .anvil, .rep, .time, .sched, .ctxs, .hspi0, .hspi1, .qf, .closed, .flt, .light, .bus, .pwr, .ces, .acc, .keys, .upd, .free] s) := by
  unfold execAccStatus; repeat' (first
      | with_reducible refine Answers.next ?_ | with_reducible exact Only.refl _ _ | with_reducible refine (hostPacket_frame _ _ _ _).after (by decide) ?_
      | with_reducible refine (accStatusSpec_frame).after (by decide) ?_)

theorem execLinControlStop_frame (h : Hdr) (b : Rec) (s : State) :
    Answers (execLinControlStop h b s) (Only [.roles, .com, .anvil, .rep, .time, .sched, .ctxs, .hspi0, .hspi1, .qf, .closed, .flt, .light, .bus, .pwr, .ces, .acc, .keys, .upd, .free] s) := by
  unfold execLinControlStop; repeat' (first
      | with_reducible refine Answers.next ?_ | with_reducible exact Only.refl _ _ | with_reducible refine (hostPacket_frame _ _ _ _).after (by decide) ?_
      | with_reducible refine (linControlSpec_frame).after (by decide) ?_)

theorem execQStatus_frame (h : Hdr) (b : Rec) (s : State) :
    Answers (execQStatus h b s) (Only [.roles, .com, .anvil, .rep, .time, .sched, .ctxs, .hspi0, .hspi1, .qf, .closed, .flt, .light, .bus, .pwr, .ces, .acc, .keys, .upd, .free] s) := by
  unfold execQStatus; repeat' (first
      | with_reducible refine Answers.next ?_ | with_reducible exact Only.refl _ _ | with_reducible refine (hostPacket_frame _ _ _ _).after (by decide) ?_
      | with_reducible refine (qStatusSpec_frame).after (by decide) ?_)

theorem execTimeAnchorSet_frame (h : Hdr) (b : Rec) (s : State) :
    Answers (execTimeAnchorSet h b s) (Only [.roles, .com, .anvil, .rep, .time, .sched, .ctxs, .hspi0, .hspi1, .qf, .closed, .flt, .light, .bus, .pwr, .ces, .acc, .keys, .upd, .free] s) := by
  unfold execTimeAnchorSet; repeat' (first
      | with_reducible refine Answers.next ?_ | with_reducible exact Only.refl _ _ | with_reducible refine (hostPacket_frame _ _ _ _).after (by decide) ?_
      | with_reducible refine (timeAnchorSpec_frame).after (by decide) ?_)

theorem execQReleaseToLimit_frame (h : Hdr) (b : Rec) (s : State) :
    Answers (execQReleaseToLimit h b s) (Only [.roles, .com, .anvil, .rep, .time, .sched, .ctxs, .hspi0, .hspi1, .qf, .closed, .flt, .light, .bus, .pwr, .ces, .acc, .keys, .upd, .free] s) := by
  unfold execQReleaseToLimit; repeat' (first
      | with_reducible refine Answers.next ?_ | with_reducible exact Only.refl _ _ | with_reducible refine (hostPacket_frame _ _ _ _).after (by decide) ?_
      | with_reducible refine (qReleaseSpec_frame).after (by decide) ?_)

theorem execQMarkSet_frame (h : Hdr) (b : Rec) (s : State) :
    Answers (execQMarkSet h b s) (Only [.roles, .com, .anvil, .rep, .time, .sched, .ctxs, .hspi0, .hspi1, .qf, .closed, .flt, .light, .bus, .pwr, .ces, .acc, .keys, .upd, .free] s) := by
  unfold execQMarkSet; repeat' (first
      | with_reducible refine Answers.next ?_ | with_reducible exact Only.refl _ _ | with_reducible refine (hostPacket_frame _ _ _ _).after (by decide) ?_
      | with_reducible refine (qMarkSpec_frame).after (by decide) ?_)

theorem execUpdRollback_frame (h : Hdr) (b : Rec) (s : State) :
    Answers (execUpdRollback h b s) (Only [.roles, .com, .anvil, .rep, .time, .sched, .ctxs, .hspi0, .hspi1, .qf, .closed, .flt, .light, .bus, .pwr, .ces, .acc, .keys, .upd, .free] s) := by
  unfold execUpdRollback; repeat' (first
      | with_reducible refine Answers.next ?_ | with_reducible exact Only.refl _ _ | with_reducible refine (hostPacket_frame _ _ _ _).after (by decide) ?_
      | with_reducible refine (updRollbackSpec_frame).after (by decide) ?_)

theorem execPwrSetRun_frame (h : Hdr) (b : Rec) (s : State) :
    Answers (execPwrSetRun h b s) (Only [.roles, .com, .anvil, .rep, .time, .sched, .ctxs, .hspi0, .hspi1, .qf, .closed, .flt, .light, .bus, .pwr, .ces, .acc, .keys, .upd, .free] s) := by
  unfold execPwrSetRun; repeat' (first
      | with_reducible refine Answers.next ?_ | with_reducible exact Only.refl _ _ | with_reducible refine (hostPacket_frame _ _ _ _).after (by decide) ?_
      | with_reducible refine (pwrSetSpec_frame).after (by decide) ?_)

theorem execTbRead_frame (h : Hdr) (b : Rec) (s : State) :
    Answers (execTbRead h b s) (Only [.roles, .com, .anvil, .rep, .time, .sched, .ctxs, .hspi0, .hspi1, .qf, .closed, .flt, .light, .bus, .pwr, .ces, .acc, .keys, .upd, .free] s) := by
  unfold execTbRead; repeat' (first
      | with_reducible refine Answers.next ?_ | with_reducible exact Only.refl _ _ | with_reducible refine (hostPacket_frame _ _ _ _).after (by decide) ?_
      | with_reducible refine (tbReadSpec_frame).after (by decide) ?_)

theorem execPwrConfig_frame (h : Hdr) (b : Rec) (s : State) :
    Answers (execPwrConfig h b s) (Only [.roles, .com, .anvil, .rep, .time, .sched, .ctxs, .hspi0, .hspi1, .qf, .closed, .flt, .light, .bus, .pwr, .ces, .acc, .keys, .upd, .free] s) := by
  unfold execPwrConfig; repeat' (first
      | with_reducible refine Answers.next ?_ | with_reducible exact Only.refl _ _ | with_reducible refine (hostPacket_frame _ _ _ _).after (by decide) ?_
      | with_reducible refine (pwrConfigSpec_frame).after (by decide) ?_)

theorem execUpdActivateAt_frame (h : Hdr) (b : Rec) (s : State) :
    Answers (execUpdActivateAt h b s) (Only [.roles, .com, .anvil, .rep, .time, .sched, .ctxs, .hspi0, .hspi1, .qf, .closed, .flt, .light, .bus, .pwr, .ces, .acc, .keys, .upd, .free] s) := by
  unfold execUpdActivateAt; repeat' (first
      | with_reducible refine Answers.next ?_ | with_reducible exact Only.refl _ _ | with_reducible refine (hostPacket_frame _ _ _ _).after (by decide) ?_
      | with_reducible refine (updActivateSpec_frame).after (by decide) ?_)

theorem execUpdConfirm_frame (h : Hdr) (b : Rec) (s : State) :
    Answers (execUpdConfirm h b s) (Only [.roles, .com, .anvil, .rep, .time, .sched, .ctxs, .hspi0, .hspi1, .qf, .closed, .flt, .light, .bus, .pwr, .ces, .acc, .keys, .upd, .free] s) := by
  unfold execUpdConfirm; repeat' (first
      | with_reducible refine Answers.next ?_ | with_reducible exact Only.refl _ _ | with_reducible refine (hostPacket_frame _ _ _ _).after (by decide) ?_
      | with_reducible refine (updConfirmSpec_frame).after (by decide) ?_)

theorem execLightDiscard_frame (h : Hdr) (b : Rec) (s : State) :
    Answers (execLightDiscard h b s) (Only [.roles, .com, .anvil, .rep, .time, .sched, .ctxs, .hspi0, .hspi1, .qf, .closed, .flt, .light, .bus, .pwr, .ces, .acc, .keys, .upd, .free] s) := by
  unfold execLightDiscard; repeat' (first
      | with_reducible refine Answers.next ?_ | with_reducible exact Only.refl _ _ | with_reducible refine (hostPacket_frame _ _ _ _).after (by decide) ?_
      | with_reducible refine (lightDiscardSpec_frame).after (by decide) ?_)
end Sys2Proof.Machine
end

