-- ==== Sys2Proof/Laws/Table.lean ====
section
/-! SUPPORT. The laws of tables: what a write leaves readable at its own key and at every other, and that a write keeps the canonical form. -/

namespace Sys2Proof.Machine

variable {α : Type}

theorem tget_tins_same (d : Nat → α) (t : Tab α) (i : Nat) (v : α) : tget d (tins i v t) i = v := by
  induction t with
  | nil => simp [tins, tget]
  | cons e r ih =>
    obtain ⟨j, w⟩ := e
    unfold tins
    split
    · simp [tget]
    · split
      · simp [tget]
      · rename_i h; simp [tget, h, ih]

theorem tget_tins_other (d : Nat → α) (t : Tab α) {i k : Nat} (v : α) (h : k ≠ i) : tget d (tins i v t) k = tget d t k := by
  induction t with
  | nil => simp [tins, tget, h]
  | cons e r ih =>
    obtain ⟨j, w⟩ := e
    unfold tins
    split
    · simp [tget, h]
    · split
      · rename_i hj; subst hj; simp [tget, h]
      · simp [tget, ih]

theorem tget_tdel_other (d : Nat → α) (t : Tab α) {i k : Nat} (h : k ≠ i) : tget d (tdel i t) k = tget d t k := by
  induction t with
  | nil => rfl
  | cons e r ih =>
    obtain ⟨j, w⟩ := e
    unfold tdel
    split
    · rename_i hj; subst hj; simp [tget, h, ih]
    · simp [tget, ih]

theorem tget_tdel_same (d : Nat → α) (t : Tab α) (i : Nat) : tget d (tdel i t) i = d i := by
  induction t with
  | nil => rfl
  | cons e r ih =>
    obtain ⟨j, w⟩ := e
    unfold tdel
    split
    · exact ih
    · rename_i hj; simp [tget, hj, ih]

theorem tsorted_weaken {t : Tab α} {lo m : Nat} (h : tsorted lo t = true) (hm : m ≤ lo) : tsorted m t = true := by
  cases t with
  | nil => rfl
  | cons e r =>
    simp only [tsorted, Bool.and_eq_true, decide_eq_true_eq] at h ⊢
    exact ⟨by omega, h.2⟩

theorem tsorted_tins {t : Tab α} {lo i : Nat} (v : α) (h : tsorted lo t = true) (hi : lo ≤ i) : tsorted lo (tins i v t) = true := by
  induction t generalizing lo with
  | nil => simp [tins, tsorted, hi]
  | cons e r ih =>
    obtain ⟨j, w⟩ := e
    simp only [tsorted, Bool.and_eq_true, decide_eq_true_eq] at h
    unfold tins
    split
    · simp only [tsorted, Bool.and_eq_true, decide_eq_true_eq]; exact ⟨hi, by omega, h.2⟩
    · split
      · rename_i hj; subst hj; simp only [tsorted, Bool.and_eq_true, decide_eq_true_eq]; exact ⟨hi, h.2⟩
      · simp only [tsorted, Bool.and_eq_true, decide_eq_true_eq]; exact ⟨h.1, ih h.2 (by omega)⟩

theorem tsorted_tdel {t : Tab α} {lo : Nat} (i : Nat) (h : tsorted lo t = true) : tsorted lo (tdel i t) = true := by
  induction t generalizing lo with
  | nil => rfl
  | cons e r ih =>
    obtain ⟨j, w⟩ := e
    simp only [tsorted, Bool.and_eq_true, decide_eq_true_eq] at h
    unfold tdel
    split
    · exact tsorted_weaken (ih h.2) (by omega)
    · simp only [tsorted, Bool.and_eq_true, decide_eq_true_eq]; exact ⟨h.1, ih h.2⟩

theorem mem_tins {t : Tab α} {i : Nat} {v : α} {e : Nat × α} (h : e ∈ tins i v t) : e = (i, v) ∨ e ∈ t := by
  induction t with
  | nil => simpa [tins] using h
  | cons a r ih =>
    obtain ⟨j, w⟩ := a
    unfold tins at h
    split at h
    · simpa using h
    · split at h
      · simp only [List.mem_cons] at h ⊢; exact h.elim .inl (fun h => .inr (.inr h))
      · simp only [List.mem_cons] at h ⊢
        exact h.elim (fun h => .inr (.inl h)) (fun h => (ih h).elim .inl (fun h => .inr (.inr h)))

theorem mem_tdel {t : Tab α} {i : Nat} {e : Nat × α} (h : e ∈ tdel i t) : e ∈ t := by
  induction t with
  | nil => exact h
  | cons a r ih =>
    obtain ⟨j, w⟩ := a
    unfold tdel at h
    split at h
    · exact List.mem_cons_of_mem _ (ih h)
    · simp only [List.mem_cons] at h ⊢; exact h.elim .inl (fun h => .inr (ih h))

variable [DecidableEq α]

theorem tsorted_tput (d : Nat → α) {t : Tab α} (i : Nat) (v : α) (h : tsorted 0 t = true) : tsorted 0 (tput d t i v) = true := by
  unfold tput
  split
  · exact tsorted_tdel i h
  · exact tsorted_tins v h (Nat.zero_le _)

theorem tget_tput_same (d : Nat → α) (t : Tab α) (i : Nat) (v : α) : tget d (tput d t i v) i = v := by
  unfold tput
  split
  · rename_i hv; rw [tget_tdel_same d t, hv]
  · exact tget_tins_same d t i v

theorem tget_tput_other (d : Nat → α) (t : Tab α) {i k : Nat} (v : α) (h : k ≠ i) : tget d (tput d t i v) k = tget d t k := by
  unfold tput
  split
  · exact tget_tdel_other d t h
  · exact tget_tins_other d t v h

theorem tget_tmod_same (d : Nat → α) (t : Tab α) (i : Nat) (f : α → α) : tget d (tmod d t i f) i = f (tget d t i) :=
  tget_tput_same d t i _

theorem tget_tmod_other (d : Nat → α) (t : Tab α) {i k : Nat} (f : α → α) (h : k ≠ i) : tget d (tmod d t i f) k = tget d t k :=
  tget_tput_other d t _ h

/-- A write keeps the canonical form. -/
theorem twf_tput (d : Nat → α) {t : Tab α} (i : Nat) (v : α) (h : twf d t = true) : twf d (tput d t i v) = true := by
  simp only [twf, Bool.and_eq_true, List.all_eq_true, decide_eq_true_eq] at h ⊢
  refine ⟨tsorted_tput d i v h.1, fun e he => ?_⟩
  unfold tput at he
  split at he
  · exact h.2 e (mem_tdel he)
  · rename_i hv
    rcases mem_tins he with rfl | he
    · exact hv
    · exact h.2 e he

theorem twf_tmod (d : Nat → α) {t : Tab α} (i : Nat) (f : α → α) (h : twf d t = true) : twf d (tmod d t i f) = true := twf_tput d i _ h

end Sys2Proof.Machine
end

