-- ==== Sys2Proof/Laws/State.lean ====
section
/-! SUPPORT. The lifts of Machine/Ops.lean, field by field: the part a lift changes, every other part as it was, and what an indexed lift leaves readable. -/

namespace Sys2Proof.Machine

@[simp] theorem onCom_pending (f : Com → Com) (s : State) : (onCom f s).pending = s.pending := rfl
@[simp] theorem onCom_roles (f : Com → Com) (s : State) : (onCom f s).roles = s.roles := rfl
@[simp] theorem onCom_com (f : Com → Com) (s : State) : (onCom f s).com = f s.com := rfl
@[simp] theorem onCom_blk (f : Com → Com) (s : State) : (onCom f s).blk = s.blk := rfl
@[simp] theorem onCom_anvil (f : Com → Com) (s : State) : (onCom f s).anvil = s.anvil := rfl
@[simp] theorem onCom_rep (f : Com → Com) (s : State) : (onCom f s).rep = s.rep := rfl
@[simp] theorem onCom_bound (f : Com → Com) (s : State) : (onCom f s).bound = s.bound := rfl
@[simp] theorem onCom_chM (f : Com → Com) (s : State) : (onCom f s).chM = s.chM := rfl
@[simp] theorem onCom_repM (f : Com → Com) (s : State) : (onCom f s).repM = s.repM := rfl
@[simp] theorem onCom_clk (f : Com → Com) (s : State) : (onCom f s).clk = s.clk := rfl
@[simp] theorem onCom_time (f : Com → Com) (s : State) : (onCom f s).time = s.time := rfl
@[simp] theorem onCom_sched (f : Com → Com) (s : State) : (onCom f s).sched = s.sched := rfl
@[simp] theorem onCom_ctxs (f : Com → Com) (s : State) : (onCom f s).ctxs = s.ctxs := rfl
@[simp] theorem onCom_hspi0 (f : Com → Com) (s : State) : (onCom f s).hspi0 = s.hspi0 := rfl
@[simp] theorem onCom_hspi1 (f : Com → Com) (s : State) : (onCom f s).hspi1 = s.hspi1 := rfl
@[simp] theorem onCom_qf (f : Com → Com) (s : State) : (onCom f s).qf = s.qf := rfl
@[simp] theorem onCom_link (f : Com → Com) (s : State) : (onCom f s).link = s.link := rfl
@[simp] theorem onCom_closed (f : Com → Com) (s : State) : (onCom f s).closed = s.closed := rfl
@[simp] theorem onCom_snaps (f : Com → Com) (s : State) : (onCom f s).snaps = s.snaps := rfl
@[simp] theorem onCom_flt (f : Com → Com) (s : State) : (onCom f s).flt = s.flt := rfl
@[simp] theorem onCom_light (f : Com → Com) (s : State) : (onCom f s).light = s.light := rfl
@[simp] theorem onCom_bus (f : Com → Com) (s : State) : (onCom f s).bus = s.bus := rfl
@[simp] theorem onCom_pwr (f : Com → Com) (s : State) : (onCom f s).pwr = s.pwr := rfl
@[simp] theorem onCom_ces (f : Com → Com) (s : State) : (onCom f s).ces = s.ces := rfl
@[simp] theorem onCom_acc (f : Com → Com) (s : State) : (onCom f s).acc = s.acc := rfl
@[simp] theorem onCom_keys (f : Com → Com) (s : State) : (onCom f s).keys = s.keys := rfl
@[simp] theorem onCom_upd (f : Com → Com) (s : State) : (onCom f s).upd = s.upd := rfl
@[simp] theorem onCom_hmon (f : Com → Com) (s : State) : (onCom f s).hmon = s.hmon := rfl
@[simp] theorem onCom_free (f : Com → Com) (s : State) : (onCom f s).free = s.free := rfl

@[simp] theorem onAnvil_pending (f : Anvil → Anvil) (s : State) : (onAnvil f s).pending = s.pending := rfl
@[simp] theorem onAnvil_roles (f : Anvil → Anvil) (s : State) : (onAnvil f s).roles = s.roles := rfl
@[simp] theorem onAnvil_com (f : Anvil → Anvil) (s : State) : (onAnvil f s).com = s.com := rfl
@[simp] theorem onAnvil_blk (f : Anvil → Anvil) (s : State) : (onAnvil f s).blk = s.blk := rfl
@[simp] theorem onAnvil_anvil (f : Anvil → Anvil) (s : State) : (onAnvil f s).anvil = f s.anvil := rfl
@[simp] theorem onAnvil_rep (f : Anvil → Anvil) (s : State) : (onAnvil f s).rep = s.rep := rfl
@[simp] theorem onAnvil_bound (f : Anvil → Anvil) (s : State) : (onAnvil f s).bound = s.bound := rfl
@[simp] theorem onAnvil_chM (f : Anvil → Anvil) (s : State) : (onAnvil f s).chM = s.chM := rfl
@[simp] theorem onAnvil_repM (f : Anvil → Anvil) (s : State) : (onAnvil f s).repM = s.repM := rfl
@[simp] theorem onAnvil_clk (f : Anvil → Anvil) (s : State) : (onAnvil f s).clk = s.clk := rfl
@[simp] theorem onAnvil_time (f : Anvil → Anvil) (s : State) : (onAnvil f s).time = s.time := rfl
@[simp] theorem onAnvil_sched (f : Anvil → Anvil) (s : State) : (onAnvil f s).sched = s.sched := rfl
@[simp] theorem onAnvil_ctxs (f : Anvil → Anvil) (s : State) : (onAnvil f s).ctxs = s.ctxs := rfl
@[simp] theorem onAnvil_hspi0 (f : Anvil → Anvil) (s : State) : (onAnvil f s).hspi0 = s.hspi0 := rfl
@[simp] theorem onAnvil_hspi1 (f : Anvil → Anvil) (s : State) : (onAnvil f s).hspi1 = s.hspi1 := rfl
@[simp] theorem onAnvil_qf (f : Anvil → Anvil) (s : State) : (onAnvil f s).qf = s.qf := rfl
@[simp] theorem onAnvil_link (f : Anvil → Anvil) (s : State) : (onAnvil f s).link = s.link := rfl
@[simp] theorem onAnvil_closed (f : Anvil → Anvil) (s : State) : (onAnvil f s).closed = s.closed := rfl
@[simp] theorem onAnvil_snaps (f : Anvil → Anvil) (s : State) : (onAnvil f s).snaps = s.snaps := rfl
@[simp] theorem onAnvil_flt (f : Anvil → Anvil) (s : State) : (onAnvil f s).flt = s.flt := rfl
@[simp] theorem onAnvil_light (f : Anvil → Anvil) (s : State) : (onAnvil f s).light = s.light := rfl
@[simp] theorem onAnvil_bus (f : Anvil → Anvil) (s : State) : (onAnvil f s).bus = s.bus := rfl
@[simp] theorem onAnvil_pwr (f : Anvil → Anvil) (s : State) : (onAnvil f s).pwr = s.pwr := rfl
@[simp] theorem onAnvil_ces (f : Anvil → Anvil) (s : State) : (onAnvil f s).ces = s.ces := rfl
@[simp] theorem onAnvil_acc (f : Anvil → Anvil) (s : State) : (onAnvil f s).acc = s.acc := rfl
@[simp] theorem onAnvil_keys (f : Anvil → Anvil) (s : State) : (onAnvil f s).keys = s.keys := rfl
@[simp] theorem onAnvil_upd (f : Anvil → Anvil) (s : State) : (onAnvil f s).upd = s.upd := rfl
@[simp] theorem onAnvil_hmon (f : Anvil → Anvil) (s : State) : (onAnvil f s).hmon = s.hmon := rfl
@[simp] theorem onAnvil_free (f : Anvil → Anvil) (s : State) : (onAnvil f s).free = s.free := rfl

@[simp] theorem onClk_pending (f : Clk → Clk) (s : State) : (onClk f s).pending = s.pending := rfl
@[simp] theorem onClk_roles (f : Clk → Clk) (s : State) : (onClk f s).roles = s.roles := rfl
@[simp] theorem onClk_com (f : Clk → Clk) (s : State) : (onClk f s).com = s.com := rfl
@[simp] theorem onClk_blk (f : Clk → Clk) (s : State) : (onClk f s).blk = s.blk := rfl
@[simp] theorem onClk_anvil (f : Clk → Clk) (s : State) : (onClk f s).anvil = s.anvil := rfl
@[simp] theorem onClk_rep (f : Clk → Clk) (s : State) : (onClk f s).rep = s.rep := rfl
@[simp] theorem onClk_bound (f : Clk → Clk) (s : State) : (onClk f s).bound = s.bound := rfl
@[simp] theorem onClk_chM (f : Clk → Clk) (s : State) : (onClk f s).chM = s.chM := rfl
@[simp] theorem onClk_repM (f : Clk → Clk) (s : State) : (onClk f s).repM = s.repM := rfl
@[simp] theorem onClk_clk (f : Clk → Clk) (s : State) : (onClk f s).clk = f s.clk := rfl
@[simp] theorem onClk_time (f : Clk → Clk) (s : State) : (onClk f s).time = s.time := rfl
@[simp] theorem onClk_sched (f : Clk → Clk) (s : State) : (onClk f s).sched = s.sched := rfl
@[simp] theorem onClk_ctxs (f : Clk → Clk) (s : State) : (onClk f s).ctxs = s.ctxs := rfl
@[simp] theorem onClk_hspi0 (f : Clk → Clk) (s : State) : (onClk f s).hspi0 = s.hspi0 := rfl
@[simp] theorem onClk_hspi1 (f : Clk → Clk) (s : State) : (onClk f s).hspi1 = s.hspi1 := rfl
@[simp] theorem onClk_qf (f : Clk → Clk) (s : State) : (onClk f s).qf = s.qf := rfl
@[simp] theorem onClk_link (f : Clk → Clk) (s : State) : (onClk f s).link = s.link := rfl
@[simp] theorem onClk_closed (f : Clk → Clk) (s : State) : (onClk f s).closed = s.closed := rfl
@[simp] theorem onClk_snaps (f : Clk → Clk) (s : State) : (onClk f s).snaps = s.snaps := rfl
@[simp] theorem onClk_flt (f : Clk → Clk) (s : State) : (onClk f s).flt = s.flt := rfl
@[simp] theorem onClk_light (f : Clk → Clk) (s : State) : (onClk f s).light = s.light := rfl
@[simp] theorem onClk_bus (f : Clk → Clk) (s : State) : (onClk f s).bus = s.bus := rfl
@[simp] theorem onClk_pwr (f : Clk → Clk) (s : State) : (onClk f s).pwr = s.pwr := rfl
@[simp] theorem onClk_ces (f : Clk → Clk) (s : State) : (onClk f s).ces = s.ces := rfl
@[simp] theorem onClk_acc (f : Clk → Clk) (s : State) : (onClk f s).acc = s.acc := rfl
@[simp] theorem onClk_keys (f : Clk → Clk) (s : State) : (onClk f s).keys = s.keys := rfl
@[simp] theorem onClk_upd (f : Clk → Clk) (s : State) : (onClk f s).upd = s.upd := rfl
@[simp] theorem onClk_hmon (f : Clk → Clk) (s : State) : (onClk f s).hmon = s.hmon := rfl
@[simp] theorem onClk_free (f : Clk → Clk) (s : State) : (onClk f s).free = s.free := rfl

@[simp] theorem onTime_pending (f : Time → Time) (s : State) : (onTime f s).pending = s.pending := rfl
@[simp] theorem onTime_roles (f : Time → Time) (s : State) : (onTime f s).roles = s.roles := rfl
@[simp] theorem onTime_com (f : Time → Time) (s : State) : (onTime f s).com = s.com := rfl
@[simp] theorem onTime_blk (f : Time → Time) (s : State) : (onTime f s).blk = s.blk := rfl
@[simp] theorem onTime_anvil (f : Time → Time) (s : State) : (onTime f s).anvil = s.anvil := rfl
@[simp] theorem onTime_rep (f : Time → Time) (s : State) : (onTime f s).rep = s.rep := rfl
@[simp] theorem onTime_bound (f : Time → Time) (s : State) : (onTime f s).bound = s.bound := rfl
@[simp] theorem onTime_chM (f : Time → Time) (s : State) : (onTime f s).chM = s.chM := rfl
@[simp] theorem onTime_repM (f : Time → Time) (s : State) : (onTime f s).repM = s.repM := rfl
@[simp] theorem onTime_clk (f : Time → Time) (s : State) : (onTime f s).clk = s.clk := rfl
@[simp] theorem onTime_time (f : Time → Time) (s : State) : (onTime f s).time = f s.time := rfl
@[simp] theorem onTime_sched (f : Time → Time) (s : State) : (onTime f s).sched = s.sched := rfl
@[simp] theorem onTime_ctxs (f : Time → Time) (s : State) : (onTime f s).ctxs = s.ctxs := rfl
@[simp] theorem onTime_hspi0 (f : Time → Time) (s : State) : (onTime f s).hspi0 = s.hspi0 := rfl
@[simp] theorem onTime_hspi1 (f : Time → Time) (s : State) : (onTime f s).hspi1 = s.hspi1 := rfl
@[simp] theorem onTime_qf (f : Time → Time) (s : State) : (onTime f s).qf = s.qf := rfl
@[simp] theorem onTime_link (f : Time → Time) (s : State) : (onTime f s).link = s.link := rfl
@[simp] theorem onTime_closed (f : Time → Time) (s : State) : (onTime f s).closed = s.closed := rfl
@[simp] theorem onTime_snaps (f : Time → Time) (s : State) : (onTime f s).snaps = s.snaps := rfl
@[simp] theorem onTime_flt (f : Time → Time) (s : State) : (onTime f s).flt = s.flt := rfl
@[simp] theorem onTime_light (f : Time → Time) (s : State) : (onTime f s).light = s.light := rfl
@[simp] theorem onTime_bus (f : Time → Time) (s : State) : (onTime f s).bus = s.bus := rfl
@[simp] theorem onTime_pwr (f : Time → Time) (s : State) : (onTime f s).pwr = s.pwr := rfl
@[simp] theorem onTime_ces (f : Time → Time) (s : State) : (onTime f s).ces = s.ces := rfl
@[simp] theorem onTime_acc (f : Time → Time) (s : State) : (onTime f s).acc = s.acc := rfl
@[simp] theorem onTime_keys (f : Time → Time) (s : State) : (onTime f s).keys = s.keys := rfl
@[simp] theorem onTime_upd (f : Time → Time) (s : State) : (onTime f s).upd = s.upd := rfl
@[simp] theorem onTime_hmon (f : Time → Time) (s : State) : (onTime f s).hmon = s.hmon := rfl
@[simp] theorem onTime_free (f : Time → Time) (s : State) : (onTime f s).free = s.free := rfl

@[simp] theorem onSched_pending (f : Sched → Sched) (s : State) : (onSched f s).pending = s.pending := rfl
@[simp] theorem onSched_roles (f : Sched → Sched) (s : State) : (onSched f s).roles = s.roles := rfl
@[simp] theorem onSched_com (f : Sched → Sched) (s : State) : (onSched f s).com = s.com := rfl
@[simp] theorem onSched_blk (f : Sched → Sched) (s : State) : (onSched f s).blk = s.blk := rfl
@[simp] theorem onSched_anvil (f : Sched → Sched) (s : State) : (onSched f s).anvil = s.anvil := rfl
@[simp] theorem onSched_rep (f : Sched → Sched) (s : State) : (onSched f s).rep = s.rep := rfl
@[simp] theorem onSched_bound (f : Sched → Sched) (s : State) : (onSched f s).bound = s.bound := rfl
@[simp] theorem onSched_chM (f : Sched → Sched) (s : State) : (onSched f s).chM = s.chM := rfl
@[simp] theorem onSched_repM (f : Sched → Sched) (s : State) : (onSched f s).repM = s.repM := rfl
@[simp] theorem onSched_clk (f : Sched → Sched) (s : State) : (onSched f s).clk = s.clk := rfl
@[simp] theorem onSched_time (f : Sched → Sched) (s : State) : (onSched f s).time = s.time := rfl
@[simp] theorem onSched_sched (f : Sched → Sched) (s : State) : (onSched f s).sched = f s.sched := rfl
@[simp] theorem onSched_ctxs (f : Sched → Sched) (s : State) : (onSched f s).ctxs = s.ctxs := rfl
@[simp] theorem onSched_hspi0 (f : Sched → Sched) (s : State) : (onSched f s).hspi0 = s.hspi0 := rfl
@[simp] theorem onSched_hspi1 (f : Sched → Sched) (s : State) : (onSched f s).hspi1 = s.hspi1 := rfl
@[simp] theorem onSched_qf (f : Sched → Sched) (s : State) : (onSched f s).qf = s.qf := rfl
@[simp] theorem onSched_link (f : Sched → Sched) (s : State) : (onSched f s).link = s.link := rfl
@[simp] theorem onSched_closed (f : Sched → Sched) (s : State) : (onSched f s).closed = s.closed := rfl
@[simp] theorem onSched_snaps (f : Sched → Sched) (s : State) : (onSched f s).snaps = s.snaps := rfl
@[simp] theorem onSched_flt (f : Sched → Sched) (s : State) : (onSched f s).flt = s.flt := rfl
@[simp] theorem onSched_light (f : Sched → Sched) (s : State) : (onSched f s).light = s.light := rfl
@[simp] theorem onSched_bus (f : Sched → Sched) (s : State) : (onSched f s).bus = s.bus := rfl
@[simp] theorem onSched_pwr (f : Sched → Sched) (s : State) : (onSched f s).pwr = s.pwr := rfl
@[simp] theorem onSched_ces (f : Sched → Sched) (s : State) : (onSched f s).ces = s.ces := rfl
@[simp] theorem onSched_acc (f : Sched → Sched) (s : State) : (onSched f s).acc = s.acc := rfl
@[simp] theorem onSched_keys (f : Sched → Sched) (s : State) : (onSched f s).keys = s.keys := rfl
@[simp] theorem onSched_upd (f : Sched → Sched) (s : State) : (onSched f s).upd = s.upd := rfl
@[simp] theorem onSched_hmon (f : Sched → Sched) (s : State) : (onSched f s).hmon = s.hmon := rfl
@[simp] theorem onSched_free (f : Sched → Sched) (s : State) : (onSched f s).free = s.free := rfl

@[simp] theorem onQf_pending (f : Qf → Qf) (s : State) : (onQf f s).pending = s.pending := rfl
@[simp] theorem onQf_roles (f : Qf → Qf) (s : State) : (onQf f s).roles = s.roles := rfl
@[simp] theorem onQf_com (f : Qf → Qf) (s : State) : (onQf f s).com = s.com := rfl
@[simp] theorem onQf_blk (f : Qf → Qf) (s : State) : (onQf f s).blk = s.blk := rfl
@[simp] theorem onQf_anvil (f : Qf → Qf) (s : State) : (onQf f s).anvil = s.anvil := rfl
@[simp] theorem onQf_rep (f : Qf → Qf) (s : State) : (onQf f s).rep = s.rep := rfl
@[simp] theorem onQf_bound (f : Qf → Qf) (s : State) : (onQf f s).bound = s.bound := rfl
@[simp] theorem onQf_chM (f : Qf → Qf) (s : State) : (onQf f s).chM = s.chM := rfl
@[simp] theorem onQf_repM (f : Qf → Qf) (s : State) : (onQf f s).repM = s.repM := rfl
@[simp] theorem onQf_clk (f : Qf → Qf) (s : State) : (onQf f s).clk = s.clk := rfl
@[simp] theorem onQf_time (f : Qf → Qf) (s : State) : (onQf f s).time = s.time := rfl
@[simp] theorem onQf_sched (f : Qf → Qf) (s : State) : (onQf f s).sched = s.sched := rfl
@[simp] theorem onQf_ctxs (f : Qf → Qf) (s : State) : (onQf f s).ctxs = s.ctxs := rfl
@[simp] theorem onQf_hspi0 (f : Qf → Qf) (s : State) : (onQf f s).hspi0 = s.hspi0 := rfl
@[simp] theorem onQf_hspi1 (f : Qf → Qf) (s : State) : (onQf f s).hspi1 = s.hspi1 := rfl
@[simp] theorem onQf_qf (f : Qf → Qf) (s : State) : (onQf f s).qf = f s.qf := rfl
@[simp] theorem onQf_link (f : Qf → Qf) (s : State) : (onQf f s).link = s.link := rfl
@[simp] theorem onQf_closed (f : Qf → Qf) (s : State) : (onQf f s).closed = s.closed := rfl
@[simp] theorem onQf_snaps (f : Qf → Qf) (s : State) : (onQf f s).snaps = s.snaps := rfl
@[simp] theorem onQf_flt (f : Qf → Qf) (s : State) : (onQf f s).flt = s.flt := rfl
@[simp] theorem onQf_light (f : Qf → Qf) (s : State) : (onQf f s).light = s.light := rfl
@[simp] theorem onQf_bus (f : Qf → Qf) (s : State) : (onQf f s).bus = s.bus := rfl
@[simp] theorem onQf_pwr (f : Qf → Qf) (s : State) : (onQf f s).pwr = s.pwr := rfl
@[simp] theorem onQf_ces (f : Qf → Qf) (s : State) : (onQf f s).ces = s.ces := rfl
@[simp] theorem onQf_acc (f : Qf → Qf) (s : State) : (onQf f s).acc = s.acc := rfl
@[simp] theorem onQf_keys (f : Qf → Qf) (s : State) : (onQf f s).keys = s.keys := rfl
@[simp] theorem onQf_upd (f : Qf → Qf) (s : State) : (onQf f s).upd = s.upd := rfl
@[simp] theorem onQf_hmon (f : Qf → Qf) (s : State) : (onQf f s).hmon = s.hmon := rfl
@[simp] theorem onQf_free (f : Qf → Qf) (s : State) : (onQf f s).free = s.free := rfl

@[simp] theorem onLink_pending (f : Link → Link) (s : State) : (onLink f s).pending = s.pending := rfl
@[simp] theorem onLink_roles (f : Link → Link) (s : State) : (onLink f s).roles = s.roles := rfl
@[simp] theorem onLink_com (f : Link → Link) (s : State) : (onLink f s).com = s.com := rfl
@[simp] theorem onLink_blk (f : Link → Link) (s : State) : (onLink f s).blk = s.blk := rfl
@[simp] theorem onLink_anvil (f : Link → Link) (s : State) : (onLink f s).anvil = s.anvil := rfl
@[simp] theorem onLink_rep (f : Link → Link) (s : State) : (onLink f s).rep = s.rep := rfl
@[simp] theorem onLink_bound (f : Link → Link) (s : State) : (onLink f s).bound = s.bound := rfl
@[simp] theorem onLink_chM (f : Link → Link) (s : State) : (onLink f s).chM = s.chM := rfl
@[simp] theorem onLink_repM (f : Link → Link) (s : State) : (onLink f s).repM = s.repM := rfl
@[simp] theorem onLink_clk (f : Link → Link) (s : State) : (onLink f s).clk = s.clk := rfl
@[simp] theorem onLink_time (f : Link → Link) (s : State) : (onLink f s).time = s.time := rfl
@[simp] theorem onLink_sched (f : Link → Link) (s : State) : (onLink f s).sched = s.sched := rfl
@[simp] theorem onLink_ctxs (f : Link → Link) (s : State) : (onLink f s).ctxs = s.ctxs := rfl
@[simp] theorem onLink_hspi0 (f : Link → Link) (s : State) : (onLink f s).hspi0 = s.hspi0 := rfl
@[simp] theorem onLink_hspi1 (f : Link → Link) (s : State) : (onLink f s).hspi1 = s.hspi1 := rfl
@[simp] theorem onLink_qf (f : Link → Link) (s : State) : (onLink f s).qf = s.qf := rfl
@[simp] theorem onLink_link (f : Link → Link) (s : State) : (onLink f s).link = f s.link := rfl
@[simp] theorem onLink_closed (f : Link → Link) (s : State) : (onLink f s).closed = s.closed := rfl
@[simp] theorem onLink_snaps (f : Link → Link) (s : State) : (onLink f s).snaps = s.snaps := rfl
@[simp] theorem onLink_flt (f : Link → Link) (s : State) : (onLink f s).flt = s.flt := rfl
@[simp] theorem onLink_light (f : Link → Link) (s : State) : (onLink f s).light = s.light := rfl
@[simp] theorem onLink_bus (f : Link → Link) (s : State) : (onLink f s).bus = s.bus := rfl
@[simp] theorem onLink_pwr (f : Link → Link) (s : State) : (onLink f s).pwr = s.pwr := rfl
@[simp] theorem onLink_ces (f : Link → Link) (s : State) : (onLink f s).ces = s.ces := rfl
@[simp] theorem onLink_acc (f : Link → Link) (s : State) : (onLink f s).acc = s.acc := rfl
@[simp] theorem onLink_keys (f : Link → Link) (s : State) : (onLink f s).keys = s.keys := rfl
@[simp] theorem onLink_upd (f : Link → Link) (s : State) : (onLink f s).upd = s.upd := rfl
@[simp] theorem onLink_hmon (f : Link → Link) (s : State) : (onLink f s).hmon = s.hmon := rfl
@[simp] theorem onLink_free (f : Link → Link) (s : State) : (onLink f s).free = s.free := rfl

@[simp] theorem onLight_pending (f : Light → Light) (s : State) : (onLight f s).pending = s.pending := rfl
@[simp] theorem onLight_roles (f : Light → Light) (s : State) : (onLight f s).roles = s.roles := rfl
@[simp] theorem onLight_com (f : Light → Light) (s : State) : (onLight f s).com = s.com := rfl
@[simp] theorem onLight_blk (f : Light → Light) (s : State) : (onLight f s).blk = s.blk := rfl
@[simp] theorem onLight_anvil (f : Light → Light) (s : State) : (onLight f s).anvil = s.anvil := rfl
@[simp] theorem onLight_rep (f : Light → Light) (s : State) : (onLight f s).rep = s.rep := rfl
@[simp] theorem onLight_bound (f : Light → Light) (s : State) : (onLight f s).bound = s.bound := rfl
@[simp] theorem onLight_chM (f : Light → Light) (s : State) : (onLight f s).chM = s.chM := rfl
@[simp] theorem onLight_repM (f : Light → Light) (s : State) : (onLight f s).repM = s.repM := rfl
@[simp] theorem onLight_clk (f : Light → Light) (s : State) : (onLight f s).clk = s.clk := rfl
@[simp] theorem onLight_time (f : Light → Light) (s : State) : (onLight f s).time = s.time := rfl
@[simp] theorem onLight_sched (f : Light → Light) (s : State) : (onLight f s).sched = s.sched := rfl
@[simp] theorem onLight_ctxs (f : Light → Light) (s : State) : (onLight f s).ctxs = s.ctxs := rfl
@[simp] theorem onLight_hspi0 (f : Light → Light) (s : State) : (onLight f s).hspi0 = s.hspi0 := rfl
@[simp] theorem onLight_hspi1 (f : Light → Light) (s : State) : (onLight f s).hspi1 = s.hspi1 := rfl
@[simp] theorem onLight_qf (f : Light → Light) (s : State) : (onLight f s).qf = s.qf := rfl
@[simp] theorem onLight_link (f : Light → Light) (s : State) : (onLight f s).link = s.link := rfl
@[simp] theorem onLight_closed (f : Light → Light) (s : State) : (onLight f s).closed = s.closed := rfl
@[simp] theorem onLight_snaps (f : Light → Light) (s : State) : (onLight f s).snaps = s.snaps := rfl
@[simp] theorem onLight_flt (f : Light → Light) (s : State) : (onLight f s).flt = s.flt := rfl
@[simp] theorem onLight_light (f : Light → Light) (s : State) : (onLight f s).light = f s.light := rfl
@[simp] theorem onLight_bus (f : Light → Light) (s : State) : (onLight f s).bus = s.bus := rfl
@[simp] theorem onLight_pwr (f : Light → Light) (s : State) : (onLight f s).pwr = s.pwr := rfl
@[simp] theorem onLight_ces (f : Light → Light) (s : State) : (onLight f s).ces = s.ces := rfl
@[simp] theorem onLight_acc (f : Light → Light) (s : State) : (onLight f s).acc = s.acc := rfl
@[simp] theorem onLight_keys (f : Light → Light) (s : State) : (onLight f s).keys = s.keys := rfl
@[simp] theorem onLight_upd (f : Light → Light) (s : State) : (onLight f s).upd = s.upd := rfl
@[simp] theorem onLight_hmon (f : Light → Light) (s : State) : (onLight f s).hmon = s.hmon := rfl
@[simp] theorem onLight_free (f : Light → Light) (s : State) : (onLight f s).free = s.free := rfl

@[simp] theorem onBus_pending (f : Bus → Bus) (s : State) : (onBus f s).pending = s.pending := rfl
@[simp] theorem onBus_roles (f : Bus → Bus) (s : State) : (onBus f s).roles = s.roles := rfl
@[simp] theorem onBus_com (f : Bus → Bus) (s : State) : (onBus f s).com = s.com := rfl
@[simp] theorem onBus_blk (f : Bus → Bus) (s : State) : (onBus f s).blk = s.blk := rfl
@[simp] theorem onBus_anvil (f : Bus → Bus) (s : State) : (onBus f s).anvil = s.anvil := rfl
@[simp] theorem onBus_rep (f : Bus → Bus) (s : State) : (onBus f s).rep = s.rep := rfl
@[simp] theorem onBus_bound (f : Bus → Bus) (s : State) : (onBus f s).bound = s.bound := rfl
@[simp] theorem onBus_chM (f : Bus → Bus) (s : State) : (onBus f s).chM = s.chM := rfl
@[simp] theorem onBus_repM (f : Bus → Bus) (s : State) : (onBus f s).repM = s.repM := rfl
@[simp] theorem onBus_clk (f : Bus → Bus) (s : State) : (onBus f s).clk = s.clk := rfl
@[simp] theorem onBus_time (f : Bus → Bus) (s : State) : (onBus f s).time = s.time := rfl
@[simp] theorem onBus_sched (f : Bus → Bus) (s : State) : (onBus f s).sched = s.sched := rfl
@[simp] theorem onBus_ctxs (f : Bus → Bus) (s : State) : (onBus f s).ctxs = s.ctxs := rfl
@[simp] theorem onBus_hspi0 (f : Bus → Bus) (s : State) : (onBus f s).hspi0 = s.hspi0 := rfl
@[simp] theorem onBus_hspi1 (f : Bus → Bus) (s : State) : (onBus f s).hspi1 = s.hspi1 := rfl
@[simp] theorem onBus_qf (f : Bus → Bus) (s : State) : (onBus f s).qf = s.qf := rfl
@[simp] theorem onBus_link (f : Bus → Bus) (s : State) : (onBus f s).link = s.link := rfl
@[simp] theorem onBus_closed (f : Bus → Bus) (s : State) : (onBus f s).closed = s.closed := rfl
@[simp] theorem onBus_snaps (f : Bus → Bus) (s : State) : (onBus f s).snaps = s.snaps := rfl
@[simp] theorem onBus_flt (f : Bus → Bus) (s : State) : (onBus f s).flt = s.flt := rfl
@[simp] theorem onBus_light (f : Bus → Bus) (s : State) : (onBus f s).light = s.light := rfl
@[simp] theorem onBus_bus (f : Bus → Bus) (s : State) : (onBus f s).bus = f s.bus := rfl
@[simp] theorem onBus_pwr (f : Bus → Bus) (s : State) : (onBus f s).pwr = s.pwr := rfl
@[simp] theorem onBus_ces (f : Bus → Bus) (s : State) : (onBus f s).ces = s.ces := rfl
@[simp] theorem onBus_acc (f : Bus → Bus) (s : State) : (onBus f s).acc = s.acc := rfl
@[simp] theorem onBus_keys (f : Bus → Bus) (s : State) : (onBus f s).keys = s.keys := rfl
@[simp] theorem onBus_upd (f : Bus → Bus) (s : State) : (onBus f s).upd = s.upd := rfl
@[simp] theorem onBus_hmon (f : Bus → Bus) (s : State) : (onBus f s).hmon = s.hmon := rfl
@[simp] theorem onBus_free (f : Bus → Bus) (s : State) : (onBus f s).free = s.free := rfl

@[simp] theorem onPwr_pending (f : Power → Power) (s : State) : (onPwr f s).pending = s.pending := rfl
@[simp] theorem onPwr_roles (f : Power → Power) (s : State) : (onPwr f s).roles = s.roles := rfl
@[simp] theorem onPwr_com (f : Power → Power) (s : State) : (onPwr f s).com = s.com := rfl
@[simp] theorem onPwr_blk (f : Power → Power) (s : State) : (onPwr f s).blk = s.blk := rfl
@[simp] theorem onPwr_anvil (f : Power → Power) (s : State) : (onPwr f s).anvil = s.anvil := rfl
@[simp] theorem onPwr_rep (f : Power → Power) (s : State) : (onPwr f s).rep = s.rep := rfl
@[simp] theorem onPwr_bound (f : Power → Power) (s : State) : (onPwr f s).bound = s.bound := rfl
@[simp] theorem onPwr_chM (f : Power → Power) (s : State) : (onPwr f s).chM = s.chM := rfl
@[simp] theorem onPwr_repM (f : Power → Power) (s : State) : (onPwr f s).repM = s.repM := rfl
@[simp] theorem onPwr_clk (f : Power → Power) (s : State) : (onPwr f s).clk = s.clk := rfl
@[simp] theorem onPwr_time (f : Power → Power) (s : State) : (onPwr f s).time = s.time := rfl
@[simp] theorem onPwr_sched (f : Power → Power) (s : State) : (onPwr f s).sched = s.sched := rfl
@[simp] theorem onPwr_ctxs (f : Power → Power) (s : State) : (onPwr f s).ctxs = s.ctxs := rfl
@[simp] theorem onPwr_hspi0 (f : Power → Power) (s : State) : (onPwr f s).hspi0 = s.hspi0 := rfl
@[simp] theorem onPwr_hspi1 (f : Power → Power) (s : State) : (onPwr f s).hspi1 = s.hspi1 := rfl
@[simp] theorem onPwr_qf (f : Power → Power) (s : State) : (onPwr f s).qf = s.qf := rfl
@[simp] theorem onPwr_link (f : Power → Power) (s : State) : (onPwr f s).link = s.link := rfl
@[simp] theorem onPwr_closed (f : Power → Power) (s : State) : (onPwr f s).closed = s.closed := rfl
@[simp] theorem onPwr_snaps (f : Power → Power) (s : State) : (onPwr f s).snaps = s.snaps := rfl
@[simp] theorem onPwr_flt (f : Power → Power) (s : State) : (onPwr f s).flt = s.flt := rfl
@[simp] theorem onPwr_light (f : Power → Power) (s : State) : (onPwr f s).light = s.light := rfl
@[simp] theorem onPwr_bus (f : Power → Power) (s : State) : (onPwr f s).bus = s.bus := rfl
@[simp] theorem onPwr_pwr (f : Power → Power) (s : State) : (onPwr f s).pwr = f s.pwr := rfl
@[simp] theorem onPwr_ces (f : Power → Power) (s : State) : (onPwr f s).ces = s.ces := rfl
@[simp] theorem onPwr_acc (f : Power → Power) (s : State) : (onPwr f s).acc = s.acc := rfl
@[simp] theorem onPwr_keys (f : Power → Power) (s : State) : (onPwr f s).keys = s.keys := rfl
@[simp] theorem onPwr_upd (f : Power → Power) (s : State) : (onPwr f s).upd = s.upd := rfl
@[simp] theorem onPwr_hmon (f : Power → Power) (s : State) : (onPwr f s).hmon = s.hmon := rfl
@[simp] theorem onPwr_free (f : Power → Power) (s : State) : (onPwr f s).free = s.free := rfl

@[simp] theorem onCtx_pending (c : Nat) (f : Ctx → Ctx) (s : State) : (onCtx c f s).pending = s.pending := rfl
@[simp] theorem onCtx_roles (c : Nat) (f : Ctx → Ctx) (s : State) : (onCtx c f s).roles = s.roles := rfl
@[simp] theorem onCtx_com (c : Nat) (f : Ctx → Ctx) (s : State) : (onCtx c f s).com = s.com := rfl
@[simp] theorem onCtx_blk (c : Nat) (f : Ctx → Ctx) (s : State) : (onCtx c f s).blk = s.blk := rfl
@[simp] theorem onCtx_anvil (c : Nat) (f : Ctx → Ctx) (s : State) : (onCtx c f s).anvil = s.anvil := rfl
@[simp] theorem onCtx_rep (c : Nat) (f : Ctx → Ctx) (s : State) : (onCtx c f s).rep = s.rep := rfl
@[simp] theorem onCtx_bound (c : Nat) (f : Ctx → Ctx) (s : State) : (onCtx c f s).bound = s.bound := rfl
@[simp] theorem onCtx_chM (c : Nat) (f : Ctx → Ctx) (s : State) : (onCtx c f s).chM = s.chM := rfl
@[simp] theorem onCtx_repM (c : Nat) (f : Ctx → Ctx) (s : State) : (onCtx c f s).repM = s.repM := rfl
@[simp] theorem onCtx_clk (c : Nat) (f : Ctx → Ctx) (s : State) : (onCtx c f s).clk = s.clk := rfl
@[simp] theorem onCtx_time (c : Nat) (f : Ctx → Ctx) (s : State) : (onCtx c f s).time = s.time := rfl
@[simp] theorem onCtx_sched (c : Nat) (f : Ctx → Ctx) (s : State) : (onCtx c f s).sched = s.sched := rfl
@[simp] theorem onCtx_ctxs (c : Nat) (f : Ctx → Ctx) (s : State) : (onCtx c f s).ctxs = tmod ctxDef s.ctxs c f := rfl
@[simp] theorem onCtx_hspi0 (c : Nat) (f : Ctx → Ctx) (s : State) : (onCtx c f s).hspi0 = s.hspi0 := rfl
@[simp] theorem onCtx_hspi1 (c : Nat) (f : Ctx → Ctx) (s : State) : (onCtx c f s).hspi1 = s.hspi1 := rfl
@[simp] theorem onCtx_qf (c : Nat) (f : Ctx → Ctx) (s : State) : (onCtx c f s).qf = s.qf := rfl
@[simp] theorem onCtx_link (c : Nat) (f : Ctx → Ctx) (s : State) : (onCtx c f s).link = s.link := rfl
@[simp] theorem onCtx_closed (c : Nat) (f : Ctx → Ctx) (s : State) : (onCtx c f s).closed = s.closed := rfl
@[simp] theorem onCtx_snaps (c : Nat) (f : Ctx → Ctx) (s : State) : (onCtx c f s).snaps = s.snaps := rfl
@[simp] theorem onCtx_flt (c : Nat) (f : Ctx → Ctx) (s : State) : (onCtx c f s).flt = s.flt := rfl
@[simp] theorem onCtx_light (c : Nat) (f : Ctx → Ctx) (s : State) : (onCtx c f s).light = s.light := rfl
@[simp] theorem onCtx_bus (c : Nat) (f : Ctx → Ctx) (s : State) : (onCtx c f s).bus = s.bus := rfl
@[simp] theorem onCtx_pwr (c : Nat) (f : Ctx → Ctx) (s : State) : (onCtx c f s).pwr = s.pwr := rfl
@[simp] theorem onCtx_ces (c : Nat) (f : Ctx → Ctx) (s : State) : (onCtx c f s).ces = s.ces := rfl
@[simp] theorem onCtx_acc (c : Nat) (f : Ctx → Ctx) (s : State) : (onCtx c f s).acc = s.acc := rfl
@[simp] theorem onCtx_keys (c : Nat) (f : Ctx → Ctx) (s : State) : (onCtx c f s).keys = s.keys := rfl
@[simp] theorem onCtx_upd (c : Nat) (f : Ctx → Ctx) (s : State) : (onCtx c f s).upd = s.upd := rfl
@[simp] theorem onCtx_hmon (c : Nat) (f : Ctx → Ctx) (s : State) : (onCtx c f s).hmon = s.hmon := rfl
@[simp] theorem onCtx_free (c : Nat) (f : Ctx → Ctx) (s : State) : (onCtx c f s).free = s.free := rfl

/-- A lift of one context is read back from that context, the table of contexts being in order. -/
theorem onCtx_same (c : Nat) (f : Ctx → Ctx) (s : State) : (onCtx c f s).cx c = f (s.cx c) :=
  tget_tmod_same ctxDef _ c f

theorem onCtx_other {c d : Nat} (f : Ctx → Ctx) (s : State) (h : d ≠ c) : (onCtx c f s).cx d = s.cx d := tget_tmod_other ctxDef s.ctxs f h

theorem onQueue_same (q : Nat) (f : Queue → Queue) (s : State) : (onQueue q f s).queue q = f (s.queue q) :=
  tget_tmod_same queueDef _ q f

theorem onQueue_other {q r : Nat} (f : Queue → Queue) (s : State) (h : r ≠ q) : (onQueue q f s).queue r = s.queue r :=
  tget_tmod_other queueDef s.qf.queues f h

theorem onChan_same (n : Nat) (f : Chan → Chan) (s : State) : (onChan n f s).chan n = f (s.chan n) :=
  tget_tmod_same chanDef _ n f

theorem onChan_other {n m : Nat} (f : Chan → Chan) (s : State) (h : m ≠ n) : (onChan n f s).chan m = s.chan m :=
  tget_tmod_other chanDef s.anvil.ch f h

/-- A reassignment is read back from its unit, and leaves every other unit as it is. -/
theorem reassign_same (t i : Nat) (s : State) :
    (reassign t i s).role (ukey t i) = { s.role (ukey t i) with gen := nextGen (s.role (ukey t i)).gen } :=
  tget_tput_same roleDef _ (ukey t i) _

theorem reassign_other (t i : Nat) (s : State) {k : Nat} (h : k ≠ ukey t i) : (reassign t i s).role k = s.role k :=
  tget_tput_other roleDef s.roles _ h

theorem giveUnit_same (t i o : Nat) (s : State) :
    (giveUnit t i o s).role (ukey t i) = { owner := o, gen := nextGen (s.role (ukey t i)).gen } :=
  tget_tput_same roleDef _ (ukey t i) _

theorem giveUnit_other (t i o : Nat) (s : State) {k : Nat} (h : k ≠ ukey t i) : (giveUnit t i o s).role k = s.role k :=
  tget_tput_other roleDef s.roles _ h

theorem nextGen_ne_zero (g : BitVec 16) : nextGen g ≠ 0 := by
  unfold nextGen
  split
  · decide
  · rename_i h
    intro k
    exact h (by bv_omega)

end Sys2Proof.Machine
end

