-- ==== Sys2Proof/Laws/Accept.lean ====
section
/-! SUPPORT. A packet from its arrival to its outcome: the law of acceptance (submit_accepted), and what Waits, Tells and Acts rest on. -/

namespace Sys2Proof.Machine

theorem ctxEnabled_congr {x y : Ctx} (h : x.cfg = y.cfg) : ctxEnabled x = ctxEnabled y := by
  unfold ctxEnabled ctxTransport; rw [h]

/-- The admission by a context's share reads its context, the schedule and the mode. -/
theorem shareAdmits_congr (c n : Nat) (s t : State) (h1 : (t.cx c).sharePkts = (s.cx c).sharePkts) (h2 : (t.cx c).shareOct = (s.cx c).shareOct)
    (h3 : (t.cx c).shareDebt = (s.cx c).shareDebt) (h4 : t.sched = s.sched) (h5 : t.modeNow = s.modeNow) : shareAdmits c n t = shareAdmits c n s := by
  unfold shareAdmits
  dsimp only
  rw [h1, h2, h3, h4, h5]

/-! ### The law of acceptance -/

/-- A packet that arrives whole, in sequence and with room for it, is accepted at once on the state `entered`. -/
theorem submit_arrives (o : OpSpec) (h : Hdr) (b : Rec) (s : State) (ho : opSpec o.code = some o) (a : Arrives o h b s) (hb : h.batch = false)
    (hn : (s.cx h.ctx).batch = none) : submit o h b opSpec s = acceptOne o { h := h, op := o.code, body := b } (entered o h b s) := by
  obtain ⟨h1, h2, h3, h4, h5, h6, h7, h8, h9, h10, h11⟩ := a
  have e1 : ctxEnabled (s.cx h.ctx) = true := h2
  unfold submit
  rw [if_neg (by simp [h3]), if_neg (by simp [h1, h2])]
  unfold deliver
  dsimp only
  rw [if_neg (by simp [h5]), if_neg (by omega)]
  unfold arrive
  dsimp only
  rw [if_neg (by simp [h6]), if_neg (by omega)]
  dsimp only
  generalize hs1 : onCtx h.ctx (fun y => { y with arrSeq := y.arrSeq + 1, inPut := y.inPut + pktCells { h := h, op := o.code, body := b } }) s = s1
  have c1 : s1.cx h.ctx = { s.cx h.ctx with arrSeq := (s.cx h.ctx).arrSeq + 1, inPut := (s.cx h.ctx).inPut + pktCells { h := h, op := o.code, body := b } } := by
    rw [← hs1]; exact onCtx_same _ _ _
  generalize hs2 : onCtx h.ctx (fun x => { x with waiting := x.waiting ++ [{ h := h, op := o.code, body := b }] }) s1 = s2
  have c2 : s2.cx h.ctx = { s1.cx h.ctx with waiting := (s1.cx h.ctx).waiting ++ [{ h := h, op := o.code, body := b }] } := by
    rw [← hs2]; exact onCtx_same _ _ _
  have w2 : (s2.cx h.ctx).waiting = [{ h := h, op := o.code, body := b }] := by rw [c2, c1]; simp [h8]
  have sa : shareAdmits h.ctx (20 + b.length) s2 = true := by
    rw [← h10]
    refine shareAdmits_congr _ _ _ _ (by rw [c2, c1]) (by rw [c2, c1]) (by rw [c2, c1]) ?_ ?_
    · rw [← hs2, ← hs1]; rfl
    · rw [← hs2, ← hs1]; rfl
  have rs2 : ctxResetting (s2.cx h.ctx) = false := by rw [← h9, c2, c1]; rfl
  rw [if_pos (by rw [w2]; rfl), if_pos (by simp [sa])]
  unfold tryAccept
  simp only [w2]
  rw [if_neg (by simp [rs2])]
  have ru : ctxReplyUsed (s2.cx h.ctx) + (s2.cx h.ctx).resv + replyRoom opSpec { h := h, op := o.code, body := b } ≤ 256 := by
    have : replyRoom opSpec { h := h, op := o.code, body := b } = cellsOf (32 + o.maxData b) := by unfold replyRoom; simp only [ho]
    rw [this, c2, c1]; exact h11
  rw [if_pos (by simp [sa, ru])]
  have he : onCtx h.ctx (fun y =>
        { y with ntfCredit := y.ntfCredit + h.creditRet, accSeq := h.seq + 1,
                 last := some { seq := h.seq, crc := pktCrc { h := h, op := o.code, body := b }, reply := none } })
      (chargeShare h.ctx (20 + b.length) (onCtx h.ctx (fun y => { y with waiting := [] }) s2)) = entered o h b s := by
    rw [← hs2, ← hs1]; rfl
  generalize hs3 : onCtx h.ctx (fun y => { y with waiting := [] }) s2 = s3 at he ⊢
  have c3 : s3.cx h.ctx = { s2.cx h.ctx with waiting := [] } := by
    rw [← hs3]; exact onCtx_same _ _ _
  have en3 : ctxEnabled (s3.cx h.ctx) = true := (ctxEnabled_congr (by rw [c3, c2, c1])).trans e1
  generalize hs4 : chargeShare h.ctx (20 + b.length) s3 = s4 at he ⊢
  have c4 : (s4.cx h.ctx).reset = (s.cx h.ctx).reset ∧ (s4.cx h.ctx).batch = (s.cx h.ctx).batch ∧ (s4.cx h.ctx).cfg = (s.cx h.ctx).cfg := by
    rw [← hs4]
    unfold chargeShare
    rw [onCtx_same _ _ _, c3, c2, c1]
    exact ⟨rfl, rfl, rfl⟩
  unfold acceptPkt
  dsimp only
  rw [if_neg (by rw [show ctxResetting (s4.cx h.ctx) = false from by rw [← h9]; unfold ctxResetting; rw [c4.1]]; simp)]
  rw [if_neg (by rw [c4.2.1]; simp [hb, hn])]
  simp only [ho]
  rw [he]

/-! ### The state after acceptance -/

theorem entered_frame (o : OpSpec) (h : Hdr) (b : Rec) (s : State) : Only [.ctxs] s (entered o h b s) := by
  unfold entered
  dsimp only
  refine (onCtx_frame _ _ _).after (by decide) ((chargeShare_frame _ _ _).after (by decide) ?_)
  exact (onCtx_frame _ _ _).after (by decide) ((onCtx_frame _ _ _).after (by decide) (onCtx_frame _ _ _))

/-- The context of the packet on the state `entered`. -/
theorem entered_cx (o : OpSpec) (h : Hdr) (b : Rec) (s : State) :
    ∃ sp so sd, (entered o h b s).cx h.ctx =
      { s.cx h.ctx with arrSeq := (s.cx h.ctx).arrSeq + 1, accSeq := h.seq + 1, inPut := (s.cx h.ctx).inPut + pktCells { h := h, op := o.code, body := b },
                        last := some { seq := h.seq, crc := pktCrc { h := h, op := o.code, body := b }, reply := none },
                        waiting := [], ntfCredit := (s.cx h.ctx).ntfCredit + h.creditRet, sharePkts := sp, shareOct := so, shareDebt := sd } := by
  unfold entered
  dsimp only
  have en {t : State} (f : Ctx → Ctx) (k : (f (t.cx h.ctx)).cfg = (s.cx h.ctx).cfg) : (onCtx h.ctx f t).cx h.ctx = f (t.cx h.ctx) :=
    onCtx_same _ _ _
  have c1 := en (t := s) (fun y => { y with arrSeq := y.arrSeq + 1, inPut := y.inPut + pktCells { h := h, op := o.code, body := b } }) rfl
  generalize onCtx h.ctx (fun y => { y with arrSeq := y.arrSeq + 1, inPut := y.inPut + pktCells { h := h, op := o.code, body := b } }) s = s1 at c1 ⊢
  have c2 := en (t := s1) (fun x => { x with waiting := x.waiting ++ [{ h := h, op := o.code, body := b }] }) (by rw [c1])
  generalize onCtx h.ctx (fun x => { x with waiting := x.waiting ++ [{ h := h, op := o.code, body := b }] }) s1 = s2 at c2 ⊢
  have c3 := en (t := s2) (fun y => { y with waiting := [] }) (by rw [c2, c1])
  generalize onCtx h.ctx (fun y => { y with waiting := [] }) s2 = s3 at c3 ⊢
  have c4 : ∃ sp so sd, (chargeShare h.ctx (20 + b.length) s3).cx h.ctx = { s3.cx h.ctx with sharePkts := sp, shareOct := so, shareDebt := sd } := by
    unfold chargeShare
    rw [en]
    · exact ⟨_, _, _, rfl⟩
    · rw [c3, c2, c1]
  obtain ⟨sp, so, sd, c4⟩ := c4
  generalize chargeShare h.ctx (20 + b.length) s3 = s4 at c4 ⊢
  rw [en _ (by rw [c4, c3, c2, c1]), c4, c3, c2, c1]
  exact ⟨sp, so, sd, rfl⟩

theorem entered_other (o : OpSpec) (h : Hdr) (b : Rec) (s : State) {c : Nat} (hc : c ≠ h.ctx) : (entered o h b s).cx c = s.cx c := by
  unfold entered chargeShare
  dsimp only
  repeat rw [onCtx_other _ _ hc]

theorem effectFrame_time (s t : State) (h : t.time = s.time) (k : t.clk = s.clk) (f : Fn) : effectFrame t f = effectFrame s f := by
  unfold effectFrame State.tick State.fn
  rw [h, k]

theorem readFrame_clk (s t : State) (h : t.clk = s.clk) (f : Fn) : readFrame t f = readFrame s f := by
  unfold readFrame State.fn
  rw [h]

theorem entered_entered (o : OpSpec) (h : Hdr) (b : Rec) (s : State) (a : Arrives o h b s) :
    Entered h { h := h, op := o.code, body := b } s (entered o h b s) := by
  obtain ⟨sp, so, sd, e⟩ := entered_cx o h b s
  refine ⟨by rw [e]; show (s.cx h.ctx).arrSeq + 1 = _; rw [← a.2.2.2.2.2.1], by rw [e], by rw [e], by rw [e], ⟨none, by rw [e]⟩, fun c hc => entered_other o h b s hc⟩

/-- What a packet that passes its checks comes to, by the kind of its opcode. -/
theorem acceptOne_passed (o : OpSpec) (h : Hdr) (b : Rec) (e : State) (k : checks o (decide (o.kind = .commit)) (reqOf h b e) e = none) :
    acceptOne o { h := h, op := o.code, body := b } e =
      (let p : Pkt := { h := h, op := o.code, body := b }
       match o.kind with
       | .read =>
         let x := o.run (reqOf h b e) (e.readView (readFrame e h.targetFn).2)
         respond p o.data x.status x.detail (if x.status = .ok then (readFrame e h.targetFn).2 else e.fn) x.data e
       | .live => let x := o.run (reqOf h b e) e; respond p o.data x.status x.detail e.fn x.data e
       | .now => let x := o.run (reqOf h b e) (hostWake o h.ctx e); respond p o.data x.status x.detail e.fn x.data x.st
       | .commit =>
         { hostWake o h.ctx e with closed := (hostWake o h.ctx e).closed
             ++ [{ ctx := h.ctx, eff := (effectFrame e h.targetFn).2, targeted := decide (h.targetFn ≠ 0), members := [p] }] }) := by
  have k' : checks o (decide (o.kind = .commit)) { h := h, b := b, eff := (effectFrame e h.targetFn).2 } e = none := k
  unfold acceptOne
  dsimp only
  rw [k']
  dsimp only
  cases o.kind <;> rfl

theorem le_length (n v : Nat) : (le n v).length = n := by
  induction n generalizing v with
  | zero => rfl
  | succ n ih => simp [le, ih]

theorem rd_skip (a b : Rec) (off n : Nat) (h : a.length ≤ off) : rd (a ++ b) off n = rd b (off - a.length) n := by
  unfold rd
  rw [List.drop_append, List.drop_eq_nil_of_le h]; rfl

theorem rd_le (k v n : Nat) (b : Rec) (h : n = k) : rd (le k v ++ b) 0 n = v % 256 ^ k := by
  subst h
  unfold rd
  induction n generalizing v with
  | zero => simp [Nat.mod_one]
  | succ n ih =>
    have := ih (v / 256)
    simp only [List.drop_zero, le, List.cons_append, List.take_succ_cons, List.foldr_cons] at this ⊢
    rw [this, BitVec.toNat_ofNat]
    show v % 256 + 256 * (v / 256 % 256 ^ n) = v % 256 ^ (n + 1)
    rw [@Nat.pow_succ 256 n, Nat.mul_comm (256 ^ n) 256, Nat.mod_mul]

theorem statusCode_lt (st : Status) : statusCode st < 65536 := by cases st <;> decide

/-- The prefix of a reply (R72). -/
theorem replyPayload_isReply (d : DevPkt) (s : State) (c op : Nat) (seq : BitVec 16) (st : Status) (detail : Nat) (fn : Fn) (data : Rec)
    (ho : d.op = op) (hr : d.reply = true) (hp : d.payload = replyPayload s c seq st detail fn data) : IsReply d op seq st detail fn data := by
  refine ⟨ho, hr, ?_, ?_, ?_, ?_, ?_⟩ <;> rw [hp] <;> unfold replyPayload
  · rw [List.append_assoc, List.append_assoc, List.append_assoc, List.append_assoc, rd_le 2 _ 2 _ rfl]
    exact Nat.mod_eq_of_lt seq.isLt
  · rw [List.append_assoc, List.append_assoc, List.append_assoc, List.append_assoc, rd_skip _ _ _ _ (by simp [le_length]), le_length, rd_le 2 _ 2 _ rfl]
    exact Nat.mod_eq_of_lt (statusCode_lt st)
  · rw [List.append_assoc, List.append_assoc, List.append_assoc, rd_skip _ _ _ _ (by simp [le_length]), List.length_append, le_length, le_length, rd_le 2 _ 2 _ rfl]
    all_goals rfl
  · rw [List.append_assoc, rd_skip _ _ _ _ (by simp [le_length])]
    simp only [List.length_append, le_length]
    rw [rd_le 4 _ 4 _ rfl]
    exact Nat.mod_eq_of_lt fn.isLt
  · rw [List.drop_append_of_le_length (by simp [le_length]), List.drop_eq_nil_of_le (by simp [le_length])]; rfl

/-! ### Replies -/

/-- What changes of a context when a packet of it is answered: its output, what it has returned, its last reply. -/
structure Kept (x y : Ctx) : Prop where
  cfg : y.cfg = x.cfg
  arrSeq : y.arrSeq = x.arrSeq
  accSeq : y.accSeq = x.accSeq
  ntfCredit : y.ntfCredit = x.ntfCredit
  inPut : y.inPut = x.inPut

theorem sendDev_cx (c op : Nat) (payload : Rec) (s : State) :
    Kept (s.cx c) ((sendDev c op payload s).cx c) ∧ ((sendDev c op payload s).cx c).inRel = (s.cx c).inRel
      ∧ ((sendDev c op payload s).cx c).last = (s.cx c).last ∧ ∀ d, d ≠ c → (sendDev c op payload s).cx d = s.cx d := by
  unfold sendDev
  rw [onCtx_same _ _ _]
  exact ⟨⟨rfl, rfl, rfl, rfl, rfl⟩, rfl, rfl, fun d k => onCtx_other _ _ k⟩

/-- The reply of the last accepted packet is kept (R64). -/
theorem keepReply_cx (p : Pkt) (d : DevPkt) (s : State) (hl : LastIs p (s.cx p.h.ctx)) :
    (keepReply p d s).cx p.h.ctx = { s.cx p.h.ctx with last := some { seq := p.h.seq, crc := pktCrc p, reply := some d } } := by
  obtain ⟨r, e⟩ := hl
  unfold keepReply
  rw [onCtx_same]
  simp [e]

theorem sendReply_cx (p : Pkt) (st : Status) (detail : Nat) (fn : Fn) (data : Rec) (s : State) (hl : LastIs p (s.cx p.h.ctx)) :
    Kept (s.cx p.h.ctx) ((sendReply p st detail fn data s).cx p.h.ctx) ∧ ((sendReply p st detail fn data s).cx p.h.ctx).inRel = (s.cx p.h.ctx).inRel
      ∧ Replied p st detail fn data (sendReply p st detail fn data s) ∧ ∀ c, c ≠ p.h.ctx → (sendReply p st detail fn data s).cx c = s.cx c := by
  unfold sendReply
  dsimp only
  have key (t : State) (hl : LastIs p (t.cx p.h.ctx)) (ht : Kept (s.cx p.h.ctx) (t.cx p.h.ctx)) (hi : (t.cx p.h.ctx).inRel = (s.cx p.h.ctx).inRel) (hc : ∀ c, c ≠ p.h.ctx → t.cx c = s.cx c)
      (d : DevPkt) (hd : IsReply d p.op p.h.seq st detail fn data) (v : State)
      (hv : v = keepReply p d t) :
      Kept (s.cx p.h.ctx) (v.cx p.h.ctx) ∧ (v.cx p.h.ctx).inRel = (s.cx p.h.ctx).inRel ∧ Replied p st detail fn data v ∧ ∀ c, c ≠ p.h.ctx → v.cx c = s.cx c := by
    subst hv
    unfold Replied
    rw [keepReply_cx p d t hl]
    exact ⟨⟨ht.cfg, ht.arrSeq, ht.accSeq, ht.ntfCredit, ht.inPut⟩, hi, ⟨d, rfl, hd⟩, fun c k => (onCtx_other _ _ k).trans (hc c k)⟩
  have hd : IsReply { seq := (s.cx p.h.ctx).devSeq, op := p.op, creditRet := 0, payload := replyPayload s p.h.ctx p.h.seq st detail fn data, reply := true }
      p.op p.h.seq st detail fn data := replyPayload_isReply _ s p.h.ctx _ _ _ _ _ _ rfl rfl rfl
  cases s.portDown p.h.ctx with
  | true => exact key s hl ⟨rfl, rfl, rfl, rfl, rfl⟩ rfl (fun _ _ => rfl) _ hd _ rfl
  | false =>
    have sd := sendDev_cx p.h.ctx p.op (replyPayload s p.h.ctx p.h.seq st detail fn data) s
    exact key _ (by unfold LastIs; rw [sd.2.2.1]; exact hl) sd.1 sd.2.1 sd.2.2.2 _ hd _ rfl

theorem freeCells_cx (p : Pkt) (s : State) :
    Kept (s.cx p.h.ctx) ((freeCells p s).cx p.h.ctx) ∧ Freed p s (freeCells p s) ∧ ((freeCells p s).cx p.h.ctx).last = (s.cx p.h.ctx).last ∧ ∀ c, c ≠ p.h.ctx → (freeCells p s).cx c = s.cx c := by
  unfold freeCells Freed
  rw [onCtx_same _ _ _]
  exact ⟨⟨rfl, rfl, rfl, rfl, rfl⟩, rfl, rfl, fun c k => onCtx_other _ _ k⟩

theorem onQueue_congr (q : Nat) (f : Queue → Queue) (s t : State) (hq : t.qf = s.qf) : (onQueue q f t).qf = (onQueue q f s).qf := by
  unfold onQueue onQf
  dsimp only
  rw [hq]

theorem notify_congr (c kind : Nat) (data : Rec) (s t : State) (hq : t.qf = s.qf) (ht : t.time = s.time) (hk : t.clk = s.clk) (hc : (t.cx c).cfg = (s.cx c).cfg) :
    (notify c kind data t).qf = (notify c kind data s).qf := by
  unfold notify notifyAt
  have e1 : ctxEnabled (t.cx c) = ctxEnabled (s.cx c) := ctxEnabled_congr hc
  have e2 : t.tbNow = s.tbNow := by unfold State.tbNow; rw [ht]
  have e3 (x : Tb) : t.fnOf x = s.fnOf x := by unfold State.fnOf State.fn; rw [hk]
  have e4 : ctxNtfLimit (t.cx c) = ctxNtfLimit (s.cx c) := by unfold ctxNtfLimit; rw [hc]
  rw [e1, e2, e3, e4]
  split
  · exact hq
  · dsimp only
    exact onQueue_congr _ _ _ _ hq

/-- What a packet's outcome leaves. -/
theorem respond_cx (p : Pkt) (rdat : Bool) (st : Status) (detail : Nat) (fn : Fn) (data : Rec) (s : State) (hl : LastIs p (s.cx p.h.ctx)) :
    LastIs p ((respond p rdat st detail fn data s).cx p.h.ctx) ∧ Kept (s.cx p.h.ctx) ((respond p rdat st detail fn data s).cx p.h.ctx) ∧ Freed p s (respond p rdat st detail fn data s)
      ∧ (∀ c, c ≠ p.h.ctx → (respond p rdat st detail fn data s).cx c = s.cx c)
      ∧ (p.h.notifyOnly = false → Only [.ctxs] s (respond p rdat st detail fn data s)
          ∧ (rdat = true ∨ p.h.wantReply = true ∨ (st ≠ .ok ∧ st ≠ .pending) → Replied p st detail fn data (respond p rdat st detail fn data s)))
      ∧ (p.h.notifyOnly = true → (respond p rdat st detail fn data s).qf = (completion p.h.ctx p.h.seq p.op st detail data s).qf) := by
  unfold respond
  dsimp only
  obtain ⟨k, fr, fl, ot⟩ := freeCells_cx p s
  have ff := freeCells_frame p s
  generalize freeCells p s = t at k fr fl ot ff ⊢
  have tl : LastIs p (t.cx p.h.ctx) := by unfold LastIs; rw [fl]; exact hl
  by_cases hn : p.h.notifyOnly = true
  · rw [if_pos hn]
    have cf := completion_frame p.h.ctx p.h.seq p.op st detail data t
    have cx (c : Nat) : (completion p.h.ctx p.h.seq p.op st detail data t).cx c = t.cx c := by
      show tget ctxDef _ c = _
      rw [cf .ctxs (by decide)]; rfl
    refine ⟨by rw [cx]; exact tl, by rw [cx]; exact k, by unfold Freed at fr ⊢; rw [cx]; exact fr, fun c h => (cx c).trans (ot c h),
      fun h => absurd h (by simp [hn]), fun _ => ?_⟩
    show (completion p.h.ctx p.h.seq p.op st detail data t).qf = _
    exact notify_congr _ _ _ _ _ (ff .qf (by decide)) (ff .time (by decide)) (ff .clk (by decide)) k.cfg
  · rw [if_neg hn]
    split
    · obtain ⟨r1, r2, r3, r4⟩ := sendReply_cx p st detail fn data t tl
      refine ⟨r3.imp' some (fun d h => h.1), ⟨r1.cfg.trans k.cfg, r1.arrSeq.trans k.arrSeq, r1.accSeq.trans k.accSeq, r1.ntfCredit.trans k.ntfCredit, r1.inPut.trans k.inPut⟩, r2.trans fr,
        fun c h => (r4 c h).trans (ot c h), fun _ => ⟨(sendReply_frame _ _ _ _ _ _).after (by decide) ff, fun _ => r3⟩, fun h => absurd h hn⟩
    · rename_i hc
      refine ⟨tl, k, fr, ot, fun _ => ⟨ff, fun h => absurd h ?_⟩, fun h => absurd h hn⟩
      simp at hc
      obtain ⟨⟨c1, c2⟩, c3⟩ := hc
      rintro (h | h | ⟨h, h'⟩)
      · simp [c2] at h
      · simp [c1] at h
      · exact h' (c3 h)

/-! ### The three outcomes -/

theorem waits_of (o : OpSpec) (cmd : Hdr → Rec → Instr) (f : Rec → Rec) (ho : opSpec o.code = some o) (hk : o.kind = .commit)
    (he : ∀ h b s, exec (cmd h b) s = .next (hostPacket o h (f b) s)) : Waits o cmd f := by
  intro h b s ⟨a, hb, hn, k⟩
  refine ⟨submit o h (f b) opSpec s, he h b s, ?_⟩
  rw [submit_arrives o h (f b) s ho a hb hn, acceptOne_passed o h (f b) _ k]
  simp only [hk]
  have fr := entered_frame o h (f b) s
  have fw := hostWake_frame o h.ctx (entered o h (f b) s)
  have ht : (entered o h (f b) s).time = s.time := fr .time (by decide)
  have hk' : (entered o h (f b) s).clk = s.clk := fr .clk (by decide)
  have hc : (hostWake o h.ctx (entered o h (f b) s)).closed = s.closed := (fw .closed (by decide)).trans (fr .closed (by decide))
  have hx : (hostWake o h.ctx (entered o h (f b) s)).ctxs = (entered o h (f b) s).ctxs := fw .ctxs (by decide)
  have hcx (c : Nat) : State.cx { hostWake o h.ctx (entered o h (f b) s) with closed := (hostWake o h.ctx (entered o h (f b) s)).closed
      ++ [{ ctx := h.ctx, eff := (effectFrame (entered o h (f b) s) h.targetFn).2, targeted := decide (h.targetFn ≠ 0), members := [{ h := h, op := o.code, body := f b }] }] } c
      = (entered o h (f b) s).cx c := by
    show tget ctxDef (hostWake o h.ctx (entered o h (f b) s)).ctxs c = _
    rw [hx]; rfl
  have en := entered_entered o h (f b) s a
  refine ⟨?_, ?_, ?_, ?_⟩
  · show (hostWake o h.ctx (entered o h (f b) s)).closed ++ _ = _
    rw [hc, effectFrame_time _ _ ht hk']
  · unfold Entered at en ⊢
    simp only [hcx]
    exact en
  · rw [hcx]
    obtain ⟨sp, so, sd, e⟩ := entered_cx o h (f b) s
    rw [e]
  · refine Only.upd (t := hostWake o h.ctx (entered o h (f b) s)) (fw.after (by decide) (fr.sub (by decide))) ?_
    intro p hp; cases p <;> first | exact absurd (by decide) hp | rfl

/-- A check that passes refuses NOTIFY_ONLY where data is returned (R681). -/
theorem checks_notify {o : OpSpec} {closing : Bool} {r : Req} {s : State} (h : checks o closing r s = none) (hd : o.data = true) : r.h.notifyOnly = false := by
  unfold checks orElse at h
  split at h
  · simp at h
  · split at h
    · simp at h
    · rename_i h8
      unfold step8 at h8
      split at h8
      · simp at h8
      · rename_i hn
        simpa [hd] using hn

/-- The law of a reading opcode. -/
theorem tells_of (o : OpSpec) (cmd : Hdr → Rec → Instr) (f : Rec → Rec) (ho : opSpec o.code = some o) (hk : o.kind = .read ∨ o.kind = .live)
    (hd : o.data = true) (he : ∀ h b s, exec (cmd h b) s = .next (hostPacket o h (f b) s)) : Tells o cmd f := by
  intro h b s ⟨a, hb, hn, k⟩
  refine ⟨submit o h (f b) opSpec s, he h b s, ?_⟩
  rw [submit_arrives o h (f b) s ho a hb hn, acceptOne_passed o h (f b) _ k]
  have hno : h.notifyOnly = false := checks_notify k hd
  have fr := entered_frame o h (f b) s
  have ht : (entered o h (f b) s).time = s.time := fr .time (by decide)
  have hk' : (entered o h (f b) s).clk = s.clk := fr .clk (by decide)
  have en := entered_entered o h (f b) s a
  obtain ⟨sp, so, sd, ec⟩ := entered_cx o h (f b) s
  have hfn : (entered o h (f b) s).fn = s.fn := by unfold State.fn; rw [hk']
  have ei : ((entered o h (f b) s).cx h.ctx).inRel = (s.cx h.ctx).inRel := by rw [ec]
  have fin (st : Status) (d : Nat) (fn : Fn) (data : Rec) :
      let p : Pkt := { h := h, op := o.code, body := f b }
      let u := respond p o.data st d fn data (entered o h (f b) s)
      Entered h p s u ∧ Freed p s u ∧ Only [.ctxs] s u ∧ Replied p st d fn data u := by
    intro p u
    obtain ⟨n1, n2, n3, n4, nl, n5⟩ := en
    obtain ⟨rl, r1, r2, r3, r4, -⟩ := respond_cx p o.data st d fn data (entered o h (f b) s) nl
    refine ⟨⟨r1.arrSeq.trans n1, r1.accSeq.trans n2, r1.ntfCredit.trans n3, r1.inPut.trans n4, rl, fun c hc => (r3 c hc).trans (n5 c hc)⟩, ?_,
      (r4 hno).1.after (by decide) fr, (r4 hno).2 (.inl hd)⟩
    unfold Freed at r2 ⊢
    exact r2.trans (by show ((entered o h (f b) s).cx h.ctx).inRel + _ = _; rw [ei])
  rcases hk with hk | hk
  · simp only [hk, true_and, if_true]
    rw [readFrame_clk _ _ hk', hfn]
    exact fin _ _ _ _
  · simp only [hk]
    rw [hfn]
    exact fin _ _ _ _

/-- The law of an opcode executed at acceptance. -/
theorem acts_of (o : OpSpec) (cmd : Hdr → Rec → Instr) (f : Rec → Rec) (ho : opSpec o.code = some o) (hk : o.kind = .now)
    (hr : ∀ r s, (o.run r s).st.ctxs = s.ctxs) (he : ∀ h b s, exec (cmd h b) s = .next (hostPacket o h (f b) s)) : Acts o cmd f := by
  intro h b s ⟨a, hb, hn, k⟩
  refine ⟨submit o h (f b) opSpec s, he h b s, ?_⟩
  rw [submit_arrives o h (f b) s ho a hb hn, acceptOne_passed o h (f b) _ k]
  simp only [hk]
  have fr := entered_frame o h (f b) s
  have ht : (entered o h (f b) s).time = s.time := fr .time (by decide)
  have hk' : (entered o h (f b) s).clk = s.clk := fr .clk (by decide)
  obtain ⟨n1, n2, n3, n4, nl, n5⟩ := entered_entered o h (f b) s a
  obtain ⟨sp, so, sd, ec⟩ := entered_cx o h (f b) s
  have hfn : (entered o h (f b) s).fn = s.fn := by unfold State.fn; rw [hk']
  have ei : ((entered o h (f b) s).cx h.ctx).inRel = (s.cx h.ctx).inRel := by rw [ec]
  have xc (c : Nat) : (ranAt o h (f b) s).st.cx c = (entered o h (f b) s).cx c := by
    show tget ctxDef (ranAt o h (f b) s).st.ctxs c = _
    unfold ranAt
    rw [hr, hostWake_frame o h.ctx (entered o h (f b) s) .ctxs (by decide)]; rfl
  rw [hfn]
  obtain ⟨rl, r1, r2, r3, r4, r5⟩ := respond_cx { h := h, op := o.code, body := f b } o.data (ranAt o h (f b) s).status (ranAt o h (f b) s).detail s.fn
    (ranAt o h (f b) s).data (ranAt o h (f b) s).st (by show LastIs _ (State.cx _ h.ctx); rw [xc]; exact nl)
  rw [show ({ h := h, op := o.code, body := f b } : Pkt).h.ctx = h.ctx from rfl, xc] at r1
  refine ⟨⟨r1.arrSeq.trans n1, r1.accSeq.trans n2, r1.ntfCredit.trans n3, r1.inPut.trans n4, rl, fun c hc => (r3 c hc).trans ((xc c).trans (n5 c hc))⟩, ?_,
    respond_frame _ _ _ _ _ _ _, r4, r5⟩
  unfold Freed at r2 ⊢
  refine r2.trans ?_
  show ((ranAt o h (f b) s).st.cx h.ctx).inRel + _ = _
  rw [xc, ei]

end Sys2Proof.Machine
end

