-- ==== Sys2Proof/Laws/Canonical.lean ====
section
/-! SUPPORT. Every operation on an addressed memory keeps its canonical form: the words of the cores, the octets of the banks, of the filter table and of the settings store. -/

namespace Sys2Proof.Machine

/-- A fold of steps that each keep a form keeps it. -/
theorem foldl_keeps {α β : Type} (P : α → Prop) (f : α → β → α) (hf : ∀ a b, P a → P (f a b)) (l : List β) (a : α) (h : P a) : P (l.foldl f a) := by
  induction l generalizing a with
  | nil => exact h
  | cons b l ih => exact ih _ (hf a b h)

theorem Core.memWf_iff (k : Core) : k.memWf = true ↔ Memory.wf k.prog = true ∧ Memory.wf k.data = true ∧ Memory.wf k.snap = true ∧ Memory.wf k.stag = true := by
  simp [Core.memWf, and_assoc]

theorem wf_put {m : Tab W24} (i : Nat) (v : W24) (h : Memory.wf m = true) : Memory.wf (tput wordDef m i v) = true := twf_tput wordDef i v h

theorem wf_putWordOctet {m : Tab W24} (j : Nat) (o : Octet) (h : Memory.wf m = true) : Memory.wf (putWordOctet m j o) = true := twf_tmod wordDef _ _ h

theorem wf_putWords (ws : List W24) (o : Nat) (m : Tab W24) (h : Memory.wf m = true) : Memory.wf (putWords o ws m) = true := by
  induction ws generalizing o m with
  | nil => exact h
  | cons v ws ih => exact ih _ _ (wf_put o v h)

theorem wf_snapWords (t : Nat) (s : State) (ds : List Rec) (adc : List (Bool × Bool × List Nat)) (m : Tab W24) (h : Memory.wf m = true) :
    Memory.wf (snapWords t s ds adc m) = true := by
  induction ds generalizing adc m with
  | nil => exact h
  | cons d ds ih => exact ih _ _ (wf_putWords _ _ _ h)

/-- A write of the data address space by an instruction. -/
theorem memWf_dWrite (e : CoreEnv) (k : Core) (a : Nat) (v : W24) (r : Core × Nat) (hr : dWrite e k a v = some r) (h : k.memWf = true) : r.1.memWf = true := by
  rw [Core.memWf_iff] at h ⊢
  obtain ⟨hp, hd, hs, ht⟩ := h
  simp only [dWrite] at hr
  split at hr
  · cases hr; exact ⟨hp, wf_put _ _ hd, hs, ht⟩
  · split at hr
    · cases hr; exact ⟨hp, hd, hs, wf_put _ _ ht⟩
    · split at hr
      · split at hr
        · cases hr; exact ⟨hp, hd, hs, ht⟩
        · split at hr
          · cases hr; exact ⟨hp, hd, hs, ht⟩
          · split at hr
            · cases hr; exact ⟨hp, hd, hs, ht⟩
            · cases hr
      · cases hr

/-- Pushes. -/
theorem memWf_pushAll (vs : List W24) (k r : Core) (hr : pushAll k vs = .ok r) (h : k.memWf = true) : r.memWf = true := by
  induction vs generalizing k with
  | nil => cases hr; exact h
  | cons v vs ih =>
    simp only [pushAll] at hr
    split at hr
    · cases hr
    · split at hr
      · cases hr
      · refine ih _ hr ?_
        rw [Core.memWf_iff] at h ⊢
        exact ⟨h.1, wf_put _ _ h.2.1, h.2.2⟩

/-- MEM_WRITE on every core, in whatever region it lands. -/
theorem memWf_memPut (g : MemRegion) (off addr : Nat) (b : Rec) (s : State) (h : ∀ c, (s.core c).memWf = true) (c : Nat) : ((memPut g off addr b s).core c).memWf = true := by
  have key : ∀ (n : Nat) (f : Core → Core), (∀ k : Core, k.memWf = true → (f k).memWf = true) → ((onCore n f s).core c).memWf = true := by
    intro n f hf
    by_cases hc : c = n
    · subst hc
      simp only [State.core, onCore, onCes, tget_tmod_same]
      exact hf _ (h c)
    · simp only [State.core, onCore, onCes, tget_tmod_other coreDef _ _ hc]
      exact h c
  unfold memPut
  split
  · exact h c
  · refine key _ _ (fun k hk => ?_)
    rw [Core.memWf_iff] at hk ⊢
    exact ⟨foldl_keeps (fun m => Memory.wf m = true) _ (fun m _ hm => wf_putWordOctet _ _ hm) _ _ hk.1, hk.2⟩
  · refine key _ _ (fun k hk => ?_)
    rw [Core.memWf_iff] at hk ⊢
    exact ⟨hk.1, foldl_keeps (fun m => Memory.wf m = true) _ (fun m _ hm => wf_putWordOctet _ _ hm) _ _ hk.2.1, hk.2.2⟩
  · exact h c

/-- The memories of a core that no CORE_PROG has loaded. -/
theorem memWf_initial : Core.initial.memWf = true := rfl

/-- The octets a MEM_WRITE puts into the settings store, a segment into the filter table's staging buffer, UPD_WRITE and the copy of a component into a bank. -/
theorem twf_putOctets (b : List (Octet × Nat)) (f : Nat → Nat) (t : Tab Octet) (h : twf octDef t = true) : twf octDef (b.foldl (fun t e => tput octDef t (f e.2) e.1) t) = true :=
  foldl_keeps (fun t => twf octDef t = true) _ (fun _ e ht => twf_tput octDef (f e.2) e.1 ht) b t h

theorem twf_putStored (b : List (Octet × Nat)) (f : Nat → Nat) (t : Tab (Option Octet)) (h : twf storeDef t = true) :
    twf storeDef (b.foldl (fun t e => tput storeDef t (f e.2) (some e.1)) t) = true :=
  foldl_keeps (fun t => twf storeDef t = true) _ (fun _ e ht => twf_tput storeDef (f e.2) (some e.1) ht) b t h

theorem twf_writeOctets (b : Rec) (t : Tab Octet) (o : Nat) (h : twf octDef t = true) : twf octDef (b.foldl (fun t o => (tput octDef t.1 t.2 o, t.2 + 1)) (t, o)).1 = true :=
  foldl_keeps (fun p : Tab Octet × Nat => twf octDef p.1 = true) _ (fun p o hp => twf_tput octDef p.2 o hp) b (t, o) h

theorem twf_copyOctets (l : List Nat) (f : Nat → Nat) (g : Nat → Octet) (t : Tab Octet) (h : twf octDef t = true) : twf octDef (l.foldl (fun t k => tput octDef t (f k) (g k)) t) = true :=
  foldl_keeps (fun t => twf octDef t = true) _ (fun _ k ht => twf_tput octDef (f k) (g k) ht) l t h

theorem wf_wordsAt (i : Tab Octet) (o n : Nat) : Memory.wf (wordsAt i o n) = true :=
  foldl_keeps (fun m => Memory.wf m = true) _ (fun _ _ hm => wf_put _ _ hm) _ _ rfl

/-- What a Hearth start loads from CORE_PROG. -/
theorem wf_coreImage (i : Tab Octet) (n : Nat) : Memory.wf (coreImage i n).1 = true ∧ Memory.wf (coreImage i n).2 = true := by
  unfold coreImage
  split
  · exact ⟨rfl, rfl⟩
  · exact ⟨wf_wordsAt _ _ _, wf_wordsAt _ _ _⟩

end Sys2Proof.Machine
end

