-- ==== Sys2Proof/Tests/Slice0.lean ====
section
/-! SUPPORT. Tests: every opcode accepts a request in a state of its own, witnesses of the hypotheses of the statements, well-formedness, decoding, and values the spec or a standard gives. -/

set_option maxRecDepth 100000

namespace Sys2Proof.Machine
/-- A header of context 1. -/
def tHdr : Hdr := { ctx := 1, seq := 0, batch := false, wantReply := true, notifyOnly := false, creditRet := 0, targetFn := 0 }
/-- Context 1 on HSPI0 at PRIV with every attribute. -/
def tCtx : Ctx := { Ctx.initial with cfg := [1, 0x23, 7, 0, 0, 0, 0, 0, 0, 0, 0, 0, 64, 0, 64, 0] }
/-- Hearth runs from a good bank, the link is up, context 1 is configured and owns the units `us`. -/
def tState (us : List Nat) : State :=
  { State.reset with pwr := { State.reset.pwr with up := true }, link := { State.reset.link with lost := false, step := .idle }, ctxs := [(1, tCtx)],
                     upd := { State.reset.upd with service := 0 }, roles := us.map (fun k => (k, { owner := 1, gen := 1 })) }
/-- A record of `n` octets, 0 but for the fields given by offset, length and value. -/
def tB (n : Nat) (fs : List (Nat × Nat × Nat)) : Rec := fs.foldl (fun b f => putAt b f.1 (le f.2.1 f.2.2)) (zeros n)
/-- The same behind the UNIT_REF of unit `i` of type `t`. -/
def tU (t i n : Nat) (fs : List (Nat × Nat × Nat)) : Rec := tB n ([(0, 1, t), (2, 2, i), (4, 2, 1)] ++ fs)
/-- An image with one LIN entry: port 0, identifier 1, frame 0, 5 slots. -/
def tLinImg : Tab Octet := [(6, 1), (24, 1), (64, 9), (66, 1), (68, 100), (101, 1), (103, 5), (104, 1)]
/-- An LF entry at its offset: plan 0, step, frame, slots, aerials. -/
def tLf (o step frame slots aerials : Nat) : Tab Octet :=
  [(o + 1, BitVec.ofNat 8 step), (o + 3, BitVec.ofNat 8 slots), (o + 4, BitVec.ofNat 8 frame), (o + 6, BitVec.ofNat 8 aerials)]
/-- LF entries of whole frames that follow one another. -/
def tLfRun (o step frame n aerials : Nat) : Tab Octet := (List.range n).flatMap (fun k => tLf (o + 8 * k) step (frame + k) 250 aerials)
/-- An image with a plan 0 that can serve as LF_PLAN (R503, R504): WAKE of 3 frames, CHALLENGE of 17, eight bursts, REPLY of 17, CONFIRM of 14. -/
def tLfImg : Tab Octet :=
  [(6, 1), (24, 1), (64, 0x0A), (66, 59), (68, 100)] ++ tLfRun 100 0 0 3 1 ++ tLfRun 124 1 3 17 1
    ++ (List.range 8).flatMap (fun a => tLf (260 + 8 * a) (2 + a) (20 + a) 250 (2 ^ a)) ++ tLfRun 324 10 28 17 0 ++ tLfRun 460 11 48 14 1
/-- A bank with a CORE_PROG container that holds task 2 on core 0. -/
def tBank : Tab Octet :=
  [(0, 0x54), (1, 0x5A), (2, 0x4D), (3, 0x46), (9, 16), (164, 1), (4102, 1), (4160, 2), (4162, 16), (4170, 0), (4171, 16), (4179, 4)]
def onTx (f : Ctx → Ctx) (s : State) : State := onCtx 1 f s
/-- Queue 2048 in MODE 1 with context 1 as its producer or its consumer. -/
def tQ (p c : Nat) (s : State) : State :=
  onQueue 2048 (fun x => { x with markSet := true, cfg := tB 16 [(0, 2, 2048), (2, 1, 1), (4, 2, 0x1001 * p), (6, 2, 0x1001 * c), (8, 2, 4), (13, 1, 1)] }) s
/-- A channel in a mode. -/
def tMode (n m : Nat) (s : State) : State := onCom (fun c => { c with chCfg := [(n, putAt (chCfgReset n) 1 [BitVec.ofNat 8 m])] }) s
/-- A key slot of a type and usage. -/
def tKey (n ty use : Nat) (s : State) : State := onKey n (fun k => { k with rec_ := tB 48 [(0, 1, n), (1, 1, ty), (2, 1, use), (16, 4, 9)] }) s
/-- Newt configured, calibrated, with a usable plan, context 1 told of its decisions. -/
def tAcc (s : State) : State :=
  onSched (fun x => { x with img := some tLfImg }) (onAcc (fun a => { a with cal := some 100, cfg := putAt (putAt accCfgReset 0 [7]) 30 [2] }) s)
/-- An image whose CHANNEL section gives channel `n` DISP 1, PERIOD 1 in mode 0. -/
def tChImg (n : Nat) : Tab Octet := [(6, 1), (24, 1), (64, 5), (66, 64), (68, 100), (100 + 8 * n, 1), (102 + 8 * n, 1)]
def tCh (n : Nat) (s : State) : State := onSched (fun x => { x with img := some (tChImg n) }) s
def tCoil (n : Nat) : Rec := tB 32 [(0, 1, n), (2, 2, 10), (4, 2, 10), (6, 2, 10), (8, 1, 2), (14, 2, 100), (18, 1, if chClass n = 1 then 50 else 0), (19, 1, 100), (20, 1, 1), (22, 2, 10), (24, 2, 10), (26, 2, 10), (28, 2, 10)]
def tS : State := tState []
/-- Frame 10 in progress at tick `k`. -/
def tTick (k : Nat) (s : State) : State := onTime (fun t => { t with tb := 500000 + BitVec.ofNat 48 k, anvilTb := 500000 }) (onClk (fun _ => { fn := 10, frameTb := 500000, commitFn := none }) s)
/-- Channel `n` in mode `m` at Anvil. -/
def tModeA (n m : Nat) (s : State) : State := onAnvil (fun a => { a with vals := { a.vals with chCfg := [(n, putAt (chCfgReset n) 1 [BitVec.ofNat 8 m])] } }) s
/-- Channel `n` driven on, of mode `m` at Anvil, in frame 10 at tick `k`. -/
def tDriven (n m k : Nat) : State := onChan n (fun c => { c with drive := true, level := true }) (tModeA n m (tTick k tS))
/-- Coil 8 in phase `p`, of an actuation by the profile of tCoil. -/
def tKoil (p : Nat) (f : Coil → Coil) : State := onCoil 8 (fun k => f { k with phase := p, prof := tCoil 8, startTb := 500000 }) (tModeA 8 3 (tTick 0 tS))
/-- Bridge 0 in mode BRIDGE at Anvil with a BR_CFG. -/
def tBr (cfg : Rec) (f : Bridge → Bridge) : State :=
  onBridge 0 f (onAnvil (fun a => { a with vals := { a.vals with brCfg := [(0, cfg)] } }) (tModeA 48 4 (tTick 0 tS)))
def tCanSt0 (s : State) : State := onCan 0 (fun k => { k with st := 2 }) s
def tPw (n : Nat) : State := onPwr (fun p => { p with state := n }) tS
/-- An image whose TASK section gives task 2 PERIOD 1 and BUDGET 256 in mode 0. -/
def tTaskImg : Tab Octet := [(6, 1), (24, 1), (64, 8), (66, 1), (68, 100), (100, 2), (103, 1), (107, 1)]
def tOp : CoreOp := { core := 0, ecc := 0 }
/-- Core 0 before task 2, whose descriptor is in bank A. -/
def tTask : State := onSched (fun x => { x with img := some tTaskImg }) (onUpd (fun u => { u with bankA := tBank }) tS)
/-- Core 0 running task 2. -/
def tK (f : Core → Core) : State := onCore 0 (fun k => f { k with run := some 2, stackTop := 0x1000, sp := 0x1000, sb := 16, pc := 10 }) tTask
/-- What makes a core of task 2 ready. -/
def tReady (s : State) : Prop :=
  (s.core 0).rep = none ∧ (s.core 0).cycles < (coreEnv s 0).budget ∧ (s.core 0).run = some 2 ∧ ((s.core 0).safe = 1 → ((s.taskDesc 2).map tdSafe).getD 65535 = 65535)

/-! ### Every opcode accepts a request -/
theorem test_accept_sys : ∀ e ∈ ([(pingSpec, [], tState []),
    (getInfoSpec, [], tState []),
    (ctxResetSpec, [1, 0, 0, 0], tState []),
    (unitClaimSpec, tU 1 2 8 [(6, 1, 1)], tState [ukey 1 2]),
    (ctxConfigSpec, [2, 0x24, 0, 0, 0, 0, 0, 0, 0, 0, 0, 0, 8, 0, 8, 0], tState [])] : List (OpSpec × Rec × State)), Accepted e.1 tHdr e.2.1 e.2.2 := by
  unfold Accepted Arrives
  decide
theorem test_accept_mem : ∀ e ∈ ([(memReadSpec, [0, 0, 0, 1], tState []),
    (memWriteSpec, [0, 0, 0x14, 1] ++ zeros 16, tState [])] : List (OpSpec × Rec × State)), Accepted e.1 tHdr e.2.1 e.2.2 := by
  unfold Accepted Arrives
  decide
theorem test_accept_sched : ∀ e ∈ ([(modeSelectSpec, [0, 0, 0, 0], onSched (fun x => { x with img := some tLinImg }) (tState [])),
    (schedStatusSpec, [], tState []),
    (schedUnitSpec, tU 1 2 8 [], onSched (fun x => { x with img := some tLinImg }) (tState []))] : List (OpSpec × Rec × State)), Accepted e.1 tHdr e.2.1 e.2.2 := by
  unfold Accepted Arrives
  decide
theorem test_accept_queue : ∀ e ∈ ([(qConfigSpec, tU 3 2048 8 [] ++ tB 16 [(0, 2, 2048), (2, 1, 1), (4, 2, 0x1001), (6, 2, 0), (8, 2, 4), (13, 1, 1)], tState [ukey 3 2048]),
    (qPushSpec, tU 3 2048 8 [(6, 2, 3)] ++ [1, 2, 3], tQ 1 0 (tState [ukey 3 2048])),
    (qReadSpec, tU 3 2048 8 [(6, 1, 1)], tQ 0 1 (tState [ukey 3 2048])),
    (qMarkSpec, tU 3 2048 8 [], tQ 0 1 (tState [ukey 3 2048])),
    (qRewindSpec, tU 3 2048 8 [], tQ 0 1 (tState [ukey 3 2048])),
    (qReleaseSpec, tU 3 2048 12 [(10, 1, 1)], tQ 0 1 (tState [ukey 3 2048]))] : List (OpSpec × Rec × State)), Accepted e.1 tHdr e.2.1 e.2.2 := by
  unfold Accepted Arrives
  decide
theorem test_accept_queue_2 : ∀ e ∈ ([(qStatusSpec, tU 3 2048 6 [], tState [ukey 3 2048]),
    (qAuditSpec, [], tState [])] : List (OpSpec × Rec × State)), Accepted e.1 tHdr e.2.1 e.2.2 := by
  unfold Accepted Arrives
  decide
theorem test_accept_chan : ∀ e ∈ ([(chConfigSpec, tU 1 2 8 [] ++ chCfgReset 2, tState [ukey 1 2]),
    (chSetSpec, tU 1 2 12 [(6, 1, 1)], tCh 2 (tMode 2 0 (tState [ukey 1 2]))),
    (chStatusSpec, tU 1 2 6 [], tState [ukey 1 2]),
    (chClearDiagSpec, tU 1 2 8 [(6, 1, 1)], tState [ukey 1 2]),
    (lhConfigSpec, zeros 64, tState []),
    (lhStatusSpec, [], tState [])] : List (OpSpec × Rec × State)), Accepted e.1 tHdr e.2.1 e.2.2 := by
  unfold Accepted Arrives
  decide
theorem test_accept_prot : ∀ e ∈ ([(chProtConfigSpec, tU 1 2 8 [] ++ protCfgReset 2, tState [ukey 1 2]),
    (chClearProtSpec, tU 1 2 8 [(6, 1, 8)], tMode 2 0 (tState [ukey 1 2])),
    (chProtStatusSpec, tU 1 2 6 [], tMode 2 0 (tState [ukey 1 2])),
    (supplyStatusSpec, [], tState [])] : List (OpSpec × Rec × State)), Accepted e.1 tHdr e.2.1 e.2.2 := by
  unfold Accepted Arrives
  decide
theorem test_accept_ind : ∀ e ∈ ([(indConfigSpec, tU 1 8 8 [] ++ tCoil 8, tMode 8 3 (tState [ukey 1 8])),
    (indSetSpec, tU 1 8 8 [], tCh 8 (tMode 8 3 (tState [ukey 1 8]))),
    (indStatusSpec, tU 1 8 6 [], tMode 8 3 (tState [ukey 1 8])),
    (indClearSpec, tU 1 8 8 [(6, 2, 256)], tMode 8 3 (tState [ukey 1 8]))] : List (OpSpec × Rec × State)), Accepted e.1 tHdr e.2.1 e.2.2 := by
  unfold Accepted Arrives
  decide
theorem test_accept_br : ∀ e ∈ ([(brConfigSpec, tU 1 48 8 [] ++ brCfgReset 0, tMode 48 4 (tState [ukey 1 48])),
    (brSetSpec, tU 1 48 16 [], tCh 48 (tMode 48 4 (tState [ukey 1 48]))),
    (brStatusSpec, tU 1 48 6 [], tMode 48 4 (tState [ukey 1 48])),
    (brClearSpec, tU 1 48 8 [(6, 2, 4)], tMode 48 4 (tState [ukey 1 48])),
    (brPosSetSpec, tU 1 48 10 [], tMode 48 4 (tState [ukey 1 48]))] : List (OpSpec × Rec × State)), Accepted e.1 tHdr e.2.1 e.2.2 := by
  unfold Accepted Arrives
  decide
theorem test_accept_light : ∀ e ∈ ([(lsConfigSpec, tU 2 2 8 [] ++ lsCfgReset 2, tState [ukey 2 2]),
    (lsSetSpec, tU 2 2 10 [(6, 2, 65535)], tState [ukey 2 2]),
    (lsStatusSpec, tU 2 2 6 [], tState [ukey 2 2]),
    (lsClearSpec, tU 2 2 8 [(6, 1, 6)], tState [ukey 2 2]),
    (lightConfigSpec, lightCfgReset, tState []),
    (lightStageSpec, [1, 0, 0, 0] ++ tB 16 [(0, 1, 1), (2, 2, 2), (4, 2, 1)], tState [ukey 2 2])] : List (OpSpec × Rec × State)), Accepted e.1 tHdr e.2.1 e.2.2 := by
  unfold Accepted Arrives
  decide
theorem test_accept_light_2 : ∀ e ∈ ([(lightDiscardSpec, zeros 4, tState []),
    (lightCommitSpec, zeros 4, onLight (fun x => { x with stages := [(1, [tB 16 [(0, 1, 2), (2, 2, 2), (4, 2, 1)]])] }) (tState [ukey 2 2])),
    (lightStatusSpec, [], tState [])] : List (OpSpec × Rec × State)), Accepted e.1 tHdr e.2.1 e.2.2 := by
  unfold Accepted Arrives
  decide
theorem test_accept_task : ∀ e ∈ ([(taskControlSpec, tU 5 2 8 [(6, 1, 1)], onUpd (fun u => { u with bankA := tBank }) (tState [ukey 5 2])),
    (taskStatusSpec, tU 5 2 6 [], onUpd (fun u => { u with bankA := tBank }) (tState [ukey 5 2])),
    (taskParamSpec, tU 5 2 11 [(7, 1, 1)], onUpd (fun u => { u with bankA := tBank }) (tState [ukey 5 2])),
    (coreStatusSpec, [3, 0, 0, 0], tState [])] : List (OpSpec × Rec × State)), Accepted e.1 tHdr e.2.1 e.2.2 := by
  unfold Accepted Arrives
  decide
theorem test_accept_can : ∀ e ∈ ([(canConfigSpec, tU 4 2 8 [] ++ tB 64 [(0, 1, 2), (2, 1, 2), (4, 2, 255), (6, 1, 64), (7, 1, 16)], tState [ukey 4 2]),
    (canWakeConfigSpec, tU 4 2 32 [(8, 1, 2), (10, 1, 5), (11, 1, 1), (12, 1, 1)], onCan 2 (fun k => { k with cfg := tB 64 [(0, 1, 2), (2, 1, 2), (4, 2, 255), (6, 1, 64), (7, 1, 16)] }) (tState [ukey 4 2])),
    (canFiltWriteSpec, [0, 0, 1, 0, 0], tState []),
    (canControlSpec, tU 4 2 8 [(6, 1, 2)], tState [ukey 4 2]),
    (canStatusSpec, tU 4 2 6 [], tState [ukey 4 2])] : List (OpSpec × Rec × State)), Accepted e.1 tHdr e.2.1 e.2.2 := by
  unfold Accepted Arrives
  decide
theorem test_accept_lin : ∀ e ∈ ([(linConfigSpec, tU 4 8 8 [] ++ tB 16 [(1, 2, 19200), (3, 1, 13)] ++ zeros 248, tState [ukey 4 8]),
    (linSetSpec, tU 4 8 16 [(6, 1, 1), (7, 1, 2)], onSched (fun x => { x with img := some tLinImg }) (onLin 0 (fun k => { k with table := zeros 4 ++ [1, 2, 0, 0] ++ zeros 240 }) (tState [ukey 4 8]))),
    (linControlSpec, tU 4 8 8 [(6, 1, 1)], tState [ukey 4 8]),
    (linStatusSpec, tU 4 8 6 [], tState [ukey 4 8]),
    (gwBindSpec, tU 3 256 8 [(7, 1, 1)], onQueue 256 (fun x => { x with cfg := tB 16 [(0, 2, 256), (2, 1, 1), (6, 2, 0x1001), (8, 2, 4), (13, 1, 1)] }) (tState [ukey 3 256])),
    (gwStatusSpec, tU 3 256 6 [], tState [ukey 3 256])] : List (OpSpec × Rec × State)), Accepted e.1 tHdr e.2.1 e.2.2 := by
  unfold Accepted Arrives
  decide
theorem test_accept_eth : ∀ e ∈ ([(ethStatusSpec, tU 4 20 6 [], tState [ukey 4 20])] : List (OpSpec × Rec × State)), Accepted e.1 tHdr e.2.1 e.2.2 := by
  unfold Accepted Arrives
  decide
theorem test_accept_ethConfigSpec : Accepted ethConfigSpec tHdr (tU 4 20 8 [] ++ ethCfgReset 0) (tState [ukey 4 20]) := by
  unfold Accepted Arrives checks step7 unitFault step9 step10 ethConfigSpec
  unfold  unitCount
  generalize Config.variantK = v
  revert v
  decide
theorem test_accept_acc : ∀ e ∈ ([(accStartSpec, [1, 0, 0, 0], tAcc (tState [])),
    (accCalibrateSpec, zeros 4, tAcc (tState [])),
    (accResponseSpec, zeros 112, onAcc (fun a => { a with exch := [(0, some { cred := 3, action := 1, mask := 1, reqSeq := 0, h := [], nD := zeros 16, kPh := [], chalTb := 0 })] }) (tState [])),
    (accPresenceSpec, zeros 112, onImmo (fun m => { m with st := 2, phone := some (0, zeros 16) }) (tState [])),
    (immoStartSpec, zeros 4, tAcc (tState [])),
    (immoRevokeSpec, zeros 4, tAcc (tState []))] : List (OpSpec × Rec × State)), Accepted e.1 tHdr e.2.1 e.2.2 := by
  unfold Accepted Arrives
  decide
theorem test_accept_acc_2 : ∀ e ∈ ([(accStatusSpec, [], tState []),
    (accClearSpec, [3, 0, 0, 0], tState [])] : List (OpSpec × Rec × State)), Accepted e.1 tHdr e.2.1 e.2.2 := by
  unfold Accepted Arrives
  decide
theorem test_accept_accConfigSpec : Accepted accConfigSpec tHdr (putAt accCfgReset 25 [1]) (tState []) := by
  unfold Accepted Arrives checks step7 unitFault step9 step10 accConfigSpec
  unfold keyOk unitCount
  generalize Config.variantK = v
  revert v
  decide
theorem test_accept_accHelloSpec : Accepted accHelloSpec tHdr ([0, 3, 1, 1] ++ be 32 0x6B17D1F2E12C4247F8BCE6E563A440F277037D812DEB33A0F4A13945D898C296 ++ be 32 0x4FE342E2FE1A7F9B8EE7EB4A7C0F9E162BCE33576B315ECECBB6406837BF51F5 ++ zeros 16) (tKey 3 4 0x20 (tAcc (tState []))) := by
  unfold Accepted Arrives checks step7 unitFault step9 step10 accHelloSpec
  unfold keyOk unitCount
  generalize Config.variantK = v
  revert v
  decide
theorem test_accept_accLockClearSpec : Accepted accLockClearSpec tHdr ([3, 0, 0, 0, 2, 0, 0, 0]) (tState []) := by
  unfold Accepted Arrives checks step7 unitFault step9 step10 accLockClearSpec
  unfold lockRange unitCount
  generalize Config.variantK = v
  revert v
  decide
theorem test_accept_accLockStatusSpec : Accepted accLockStatusSpec tHdr ([3, 0, 0, 0, 2, 0, 0, 0]) (tState []) := by
  unfold Accepted Arrives checks step7 unitFault step9 step10 accLockStatusSpec
  unfold lockRange unitCount
  generalize Config.variantK = v
  revert v
  decide
theorem test_accept_keyWriteSpec : Accepted keyWriteSpec tHdr (tU 6 2 8 [] ++ tB 48 [(0, 1, 2), (1, 1, 1), (2, 1, 4), (16, 4, 7)]) (tState [ukey 6 2]) := by
  unfold Accepted Arrives checks step7 unitFault step9 step10 keyWriteSpec
  unfold  unitCount
  generalize Config.variantK = v
  revert v
  decide
theorem test_accept_keyGenkeySpec : Accepted keyGenkeySpec tHdr (tU 6 2 8 [] ++ tB 48 [(0, 1, 2), (1, 1, 3), (2, 1, 0x20)]) (tState [ukey 6 2]) := by
  unfold Accepted Arrives checks step7 unitFault step9 step10 keyGenkeySpec
  unfold  unitCount
  generalize Config.variantK = v
  revert v
  decide
theorem test_accept_keyInfoSpec : Accepted keyInfoSpec tHdr (tU 6 2 6 []) (tState [ukey 6 2]) := by
  unfold Accepted Arrives checks step7 unitFault step9 step10 keyInfoSpec
  unfold  unitCount
  generalize Config.variantK = v
  revert v
  decide
theorem test_accept_keyMacSpec : Accepted keyMacSpec tHdr (tU 6 2 29 [(10, 2, 1)]) (tKey 2 1 0x9F (tState [ukey 6 2])) := by
  unfold Accepted Arrives checks step7 unitFault step9 step10 keyMacSpec
  unfold aesUse keyOk unitCount
  generalize Config.variantK = v
  revert v
  decide
theorem test_accept_keyCipherSpec : Accepted keyCipherSpec tHdr (tU 6 2 29 [(10, 2, 1)]) (tKey 2 1 0x1F (tState [ukey 6 2])) := by
  unfold Accepted Arrives checks step7 unitFault step9 step10 keyCipherSpec
  unfold aesUse keyOk unitCount
  generalize Config.variantK = v
  revert v
  decide
theorem test_accept_keySignSpec : Accepted keySignSpec tHdr (tU 6 2 108 []) (tKey 2 3 0x20 (tState [ukey 6 2])) := by
  unfold Accepted Arrives checks step7 unitFault step9 step10 keySignSpec
  unfold keyOk unitCount
  generalize Config.variantK = v
  revert v
  decide
theorem test_accept_keyEcdhSpec : Accepted keyEcdhSpec tHdr (tU 6 2 8 [] ++ be 32 0x6B17D1F2E12C4247F8BCE6E563A440F277037D812DEB33A0F4A13945D898C296 ++ be 32 0x4FE342E2FE1A7F9B8EE7EB4A7C0F9E162BCE33576B315ECECBB6406837BF51F5) (tKey 2 3 0x40 (tState [ukey 6 2])) := by
  unfold Accepted Arrives checks step7 unitFault step9 step10 keyEcdhSpec
  unfold keyOk unitCount
  generalize Config.variantK = v
  revert v
  decide
theorem test_accept_keyAttestSpec : Accepted keyAttestSpec tHdr (tU 6 2 22 []) (tKey 2 1 0x80 (tState [ukey 6 2])) := by
  unfold Accepted Arrives checks step7 unitFault step9 step10 keyAttestSpec
  unfold keyOk unitCount
  generalize Config.variantK = v
  revert v
  decide
theorem test_accept_flt : ∀ e ∈ ([(fltConfigSpec, fltCfgReset 0x60, tState []),
    (fltStatusSpec, [0x60, 0, 1, 0], tState []),
    (fltHistorySpec, [0, 1, 0, 0], tState []),
    (fltStickySpec, [], onFlt (fun f => { f with capture := 1 }) (tState [])),
    (fltClearSpec, [0x60, 0, 1, 0, 1, 0, 0, 0], tState []),
    (fltGlobalSpec, [1, 1, 0, 0], tState [])] : List (OpSpec × Rec × State)), Accepted e.1 tHdr e.2.1 e.2.2 := by
  unfold Accepted Arrives
  decide
theorem test_accept_pwr : ∀ e ∈ ([(pwrConfigSpec, pwrCfgReset, tState []),
    (pwrSetSpec, [1, 0, 0, 0], tState []),
    (pwrStatusSpec, [], tState []),
    (padReleaseSpec, zeros 4, tState []),
    (pwrWakeListSpec, [], tState []),
    (hearthRestartSpec, zeros 4, tState [])] : List (OpSpec × Rec × State)), Accepted e.1 tHdr e.2.1 e.2.2 := by
  unfold Accepted Arrives
  decide
theorem test_accept_upd : ∀ e ∈ ([(updBeginSpec, le 4 7 ++ le 4 552, tState []),
    (updWriteSpec, [0, 0, 0, 0, 0, 0, 1, 0, 0x54], onUpd (fun u => { u with st := 1, owner := 1, mlen := 552 }) (tState [])),
    (updFinishSpec, zeros 4, onUpd (fun u => { u with st := 1, owner := 1, mlen := 552 }) (tState [])),
    (updVerifySpec, zeros 4, onUpd (fun u => { u with st := 2 }) (tState [])),
    (updActivateSpec, tB 16 [(0, 1, 1)], onUpd (fun u => { u with st := 2 }) (tState [])),
    (updCancelSpec, zeros 4, onUpd (fun u => { u with st := 2 }) (tState []))] : List (OpSpec × Rec × State)), Accepted e.1 tHdr e.2.1 e.2.2 := by
  unfold Accepted Arrives
  decide
theorem test_accept_upd_2 : ∀ e ∈ ([(updConfirmSpec, zeros 4, onUpd (fun u => { u with st := 4 }) (tState [])),
    (updRollbackSpec, zeros 4, onUpd (fun u => { u with st := 4 }) (tState [])),
    (updServiceSpec, zeros 4, onUpd (fun u => { u with service := 3 }) (tState [])),
    (updStatusSpec, [], tState []),
    (schedCheckSpec, [1, 0, 0, 0], onSched (fun x => { x with img := some tLinImg }) (tState []))] : List (OpSpec × Rec × State)), Accepted e.1 tHdr e.2.1 e.2.2 := by
  unfold Accepted Arrives
  decide
theorem test_accept_inp : ∀ e ∈ ([(inConfigSpec, inCfgReset 5, tState []),
    (inGlobalSpec, zeros 8, tState []),
    (inStatusSpec, [], tState []),
    (inCfgReadSpec, [95, 0, 0, 0], tState []),
    (monReadSpec, [2, 0, 0, 0], tState [])] : List (OpSpec × Rec × State)), Accepted e.1 tHdr e.2.1 e.2.2 := by
  unfold Accepted Arrives
  decide
theorem test_accept_tb : ∀ e ∈ ([(tbReadSpec, [], tState []),
    (timeAnchorSpec, tB 24 [], tState []),
    (cmpSetSpec, tU 7 2 32 [], tState [ukey 7 2]),
    (cmpStatusSpec, tU 7 2 6 [], tState [ukey 7 2]),
    (tmrConfigSpec, tmrCfgReset 2, tState []),
    (tmrStatusSpec, [15, 0, 0, 0], tState [])] : List (OpSpec × Rec × State)), Accepted e.1 tHdr e.2.1 e.2.2 := by
  unfold Accepted Arrives
  decide
theorem crcBit_lt (c : Nat) (h : c < 2 ^ 32) : crcBit c < 2 ^ 32 := by
  unfold crcBit
  have : c / 2 < 2 ^ 32 := by omega
  split
  · exact Nat.xor_lt_two_pow this (by decide)
  · exact this
theorem crcOctet_lt (c : Nat) (o : Octet) (h : c < 2 ^ 32) : crcOctet c o < 2 ^ 32 := by
  have ho : o.toNat < 2 ^ 32 := by have := o.isLt; omega
  unfold crcOctet
  exact crcBit_lt _ (crcBit_lt _ (crcBit_lt _ (crcBit_lt _ (crcBit_lt _ (crcBit_lt _ (crcBit_lt _ (crcBit_lt _ (Nat.xor_lt_two_pow h ho))))))))
theorem crcFold_lt (b : Rec) (c : Nat) (h : c < 2 ^ 32) : b.foldl crcOctet c < 2 ^ 32 := by
  induction b generalizing c with
  | nil => exact h
  | cons o b ih => exact ih _ (crcOctet_lt c o h)
theorem crc32c_lt (b : Rec) : crc32c b < 2 ^ 32 := Nat.xor_lt_two_pow (crcFold_lt b _ (by decide)) (by decide)

theorem step10_check (o : OpSpec) (r : Req) (s : State) (h : step10 { o with check := noCheck } r s = none) (hc : o.check r s = none) : step10 o r s = none := by
  unfold step10 at *
  dsimp only at *
  split at h
  · cases h
  rename_i eg
  rw [eg]
  dsimp only
  split at h
  · cases h
  rename_i c1
  split at h
  · cases h
  rename_i c2
  rw [if_neg c1, if_neg c2]
  exact hc
theorem checks_check (o : OpSpec) (k : Bool) (r : Req) (s : State) (h : checks { o with check := noCheck } k r s = none)
    (hc : o.check { r with eff := (effectFrame s 0).2 } (arrivalView o (effectFrame s 0).2 s) = none) : checks o k r s = none := by
  unfold checks orElse at *
  have h7 : step7 { o with check := noCheck } r s = step7 o r s := rfl
  have h8 : step8 { o with check := noCheck } r = step8 o r := rfl
  have h9 : step9 { o with check := noCheck } k r s = step9 o k r s := rfl
  rw [h7, h8, h9] at h
  split at h
  · cases h
  split at h
  · cases h
  split at h
  · cases h
  exact step10_check o _ _ h hc
def tFiltBody : Rec := le 4 (crc32c (filtOctets [])) ++ []
def tFiltState : State := onBus (fun b => { b with filtWriter := 1 }) (tState [])
theorem filt_check (r : Req) (s : State) (hb : filtBusy r s = none) (h : crc32c (filtOctets s.bus.filtStage) = rd r.b 0 4) (ht : s.bus.filtStage = []) :
    canFiltApplySpec.check r s = none := by
  have h1 : filtReserved [] = false := by decide
  have h2 : filtMisplaced [] = none := by decide
  have h3 : filtTwice [] = none := by decide
  rw [ht] at h
  simp only [canFiltApplySpec, hb, ht, h, h1, h2, h3, ne_eq, not_true, if_false, Bool.false_eq_true, Option.map_none]
theorem test_accept_canFiltApply : Accepted canFiltApplySpec tHdr tFiltBody tFiltState := by
  refine ⟨by unfold Arrives; decide, by decide, by decide, checks_check _ _ _ _ (by decide) (filt_check _ _ (by decide) ?_ (by decide))⟩
  have ht : (arrivalView canFiltApplySpec (effectFrame (entered canFiltApplySpec tHdr tFiltBody tFiltState) 0).2 (entered canFiltApplySpec tHdr tFiltBody tFiltState)).bus.filtStage = [] := by decide
  have hr : rd tFiltBody 0 4 = crc32c (filtOctets []) := by
    unfold tFiltBody
    rw [rd_le 4 _ 4 [] rfl]
    exact Nat.mod_eq_of_lt (crc32c_lt _)
  rw [ht]
  exact hr.symm

/-! ### Witnesses of the hypotheses of the statements -/
theorem test_wit_IdleStepIsOneTick : State.reset.pending = [] := rfl
/-- FORMAT: a payload GET_INFO does not have. -/
theorem test_wit_RefusedPacketChangesOnlyItsContext : opSpec getInfoSpec.code = some getInfoSpec ∧ Arrives getInfoSpec tHdr [1] tS ∧ tHdr.batch = false ∧ (tS.cx tHdr.ctx).batch = none
    ∧ checks getInfoSpec (decide (getInfoSpec.kind = .commit)) (reqOf tHdr [1] (entered getInfoSpec tHdr [1] tS)) (entered getInfoSpec tHdr [1] tS) = some (.format, 8)
    ∧ Status.format ≠ .ok ∧ Status.format ≠ .pending := ⟨rfl, by unfold Arrives; decide, by decide, by decide, by decide, by decide, by decide⟩
def tPing : Pkt := { h := tHdr, op := 0x0001, body := [] }
def tReply : DevPkt := { seq := 0, op := 0x0001, creditRet := 0, payload := zeros 20, reply := true }
theorem test_wit_EarlyRefusalLeavesTheContext : tHdr.ctx ≠ 0 ∧ ctxEnabled (tS.cx tHdr.ctx) = true ∧ tS.hearthUp = true
    ∧ (let h := { tHdr with notifyOnly := true }; h.wantReply = true ∧ h.notifyOnly = true)
    ∧ (let h := { tHdr with seq := 0xFFFF }; (h.wantReply && h.notifyOnly) = false ∧ h.seq ≠ (tS.cx h.ctx).arrSeq ∧ (tS.cx h.ctx).last = none)
    ∧ (let s := onCtx 1 (fun x => { x with inPut := 64 }) tS; (tHdr.wantReply && tHdr.notifyOnly) = false ∧ tHdr.seq = (s.cx 1).arrSeq ∧ ctxFree (s.cx 1) < pktCells tPing) := by decide
theorem test_wit_RetransmissionRepeatsTheReply :
    let s := onCtx 1 (fun x => { x with arrSeq := 1, last := some { seq := 0, crc := pktCrc tPing, reply := some tReply } }) tS
    tHdr.ctx ≠ 0 ∧ ctxEnabled (s.cx 1) = true ∧ s.hearthUp = true ∧ (tHdr.wantReply && tHdr.notifyOnly) = false ∧ tPing.body.length ≤ 4076
      ∧ (s.cx 1).last = some { seq := tHdr.seq, crc := pktCrc tPing, reply := some tReply } ∧ (s.cx 1).arrSeq = tHdr.seq + 1 := ⟨by decide, by decide, by decide, by decide, by decide, rfl, by decide⟩
/-- The instants of R155 at its bounds: d of 0, 1 (with e = 2), 2^31, e, 60,000, 60,001 and 2^31 - 1. -/
theorem test_wit_TargetFrameOfABatch : pingSpec.solo = true ∧ unitClaimSpec.solo = false ∧ (254 : Nat) < 255
    ∧ (let s := tTick 40000 tS; ((10 : Fn) - s.fn).toNat = 0 ∧ (1 ≤ ((11 : Fn) - s.fn).toNat ∧ ((11 : Fn) - s.fn).toNat < ((effectFrame s 0).2 - s.fn).toNat)
        ∧ 2 ^ 31 ≤ ((0x8000000A : Fn) - s.fn).toNat)
    ∧ (let s := tTick 39999 tS; ((effectFrame s 0).2 - s.fn).toNat = ((11 : Fn) - s.fn).toNat ∧ ((60010 : Fn) - s.fn).toNat = 60000 ∧ ((60011 : Fn) - s.fn).toNat = 60001
        ∧ ((0x80000009 : Fn) - s.fn).toNat = 2 ^ 31 - 1) := by decide
/-- The bounds of R160: k - T of 3 and 4, T - k of 1, 2^31 - 1 and 2^31. -/
theorem test_wit_SnapshotOfARead : let k := (tTick 0 tS).fn
    (k - 7).toNat = 3 ∧ 3 < (k - 6).toNat ∧ 2 ^ 31 - 1 < ((6 : Fn) - k).toNat ∧ (3 < (k - 11).toNat ∧ 1 ≤ ((11 : Fn) - k).toNat)
      ∧ (3 < (k - 0x80000009).toNat ∧ ((0x80000009 : Fn) - k).toNat = 2 ^ 31 - 1) ∧ 2 ^ 31 - 1 < ((0x8000000A : Fn) - k).toNat := by decide
def tClaim : Pkt := { h := tHdr, op := 0x0010, body := tU 1 2 8 [(6, 1, 1)] }
theorem test_wit_BatchOfOneTakesEffect : opSpec unitClaimSpec.code = some unitClaimSpec
    ∧ (let s := tState [ukey 1 2]; let p := { tClaim with op := unitClaimSpec.code }; recheck unitClaimSpec (memberReq 1 false p) (recheckView (batchMode [p]) s.com.chCfgNow p s) = none) := ⟨rfl, by decide⟩
/-- The same after the generation of the unit has moved on. -/
theorem test_wit_BatchOfOneThatFails : opSpec unitClaimSpec.code = some unitClaimSpec
    ∧ (let s := { tS with roles := [(ukey 1 2, { owner := 1, gen := 5 })] }
       let p := { tClaim with op := unitClaimSpec.code }; recheck unitClaimSpec (memberReq 1 false p) (recheckView (batchMode [p]) s.com.chCfgNow p s) = some (.roleStale, 5)) := ⟨rfl, by decide⟩
def tClosed (e : Fn) : ClosedBatch := { ctx := 1, eff := e, targeted := false, members := [tClaim] }
theorem test_wit_CommitPointBuildsTheVersion : (∀ b ∈ tS.closed, dueNow tS b = false)
    ∧ (let s := { tS with closed := [tClosed 2, tClosed 1, tClosed 1] }
       s.closed = [tClosed 2] ++ tClosed 1 :: [tClosed 1] ∧ (∀ q ∈ [tClosed 2], dueNow s q = false) ∧ dueNow s (tClosed 1) = true)
    ∧ tS.hearthUp = true ∧ tS.clk.commitFn ≠ some tS.fn := by decide
def tReset (st : Bool) : CtxReset := { requester := 1, reqSeq := 0, op := 0x0030, started := st, returned := 0, cfg := none, more := [] }
theorem test_wit_ContextResetTakesEffect : (tS.cx 1).reset = none
    ∧ (let s := onCtx 1 (fun x => { x with reset := some (tReset false) }) (tState [ukey 1 2]); (1 : Nat) ≠ 0 ∧ twf roleDef s.roles = true ∧ (s.cx 1).reset = some (tReset false) ∧ (tReset false).started = false) := by decide
theorem test_wit_ContextResetEnds : let s := onCtx 1 (fun x => { x with reset := some (tReset true) }) tS
    (s.cx 1).reset = some (tReset true) ∧ (tReset true).started = true ∧ (tReset true).cfg = none ∧ ctxLimbo s (s.cx 1) = 0 ∧ limboDue s 1 = false ∧ s.hearthUp = true ∧ s.portDown 1 = false := by decide
def tOpen : Batch := { first := 0, members := [tClaim], failed := none }
theorem test_wit_WaitingPacketsAndOpenBatches :
    (let s := onClk (fun k => { k with fn := 1000 }) (onCtx 1 (fun x => { x with batch := some tOpen }) tS)
     (s.cx 1).batch = some tOpen ∧ s.hearthUp = true ∧ 1000 ≤ (s.fn - tOpen.first).toNat ∧ (s.fn - tOpen.first).toNat < 2 ^ 31)
    ∧ (let s := onCtx 1 (fun x => { x with waiting := [tPing] }) tS
       s.hearthUp = true ∧ (s.cx 1).waiting = tPing :: [] ∧ ctxResetting (s.cx 1) = false ∧ shareAdmits 1 (20 + tPing.body.length) s = true
         ∧ ctxReplyUsed (s.cx 1) + (s.cx 1).resv + replyRoom opSpec tPing ≤ 256)
    ∧ (let s := onCtx 1 (fun x => { x with waiting := [tPing], sharePkts := 64 }) tS
       s.hearthUp = true ∧ (s.cx 1).waiting = tPing :: [] ∧ ctxResetting (s.cx 1) = false ∧ shareAdmits 1 (20 + tPing.body.length) s = false) := by decide
theorem test_wit_HearthFrameStarts : tS.hearthUp = true ∧ tS.upd.defer = none := by decide
/-- CTX_CONFIG of a context that is disabled and of one that is enabled; a unit that is half of a bridge pair. -/
theorem test_wit_SystemOpcodes : ctxEnabled (tS.cx 2) = false ∧ ctxEnabled (tS.cx 1) = true := by decide
theorem test_wit_DiagnosticSpace : memRegion (memLine [0, 0, 0, 1]) (memCount [0, 0, 0, 1]) = some (0, .bank 0)
    ∧ (let b : Rec := [0xFF, 0xFF, 0x15, 1] ++ zeros 16; b.length = 4 + 16 * memCount b ∧ memRegion (memLine b) (memCount b) = some (0x140000, .settings 0)) := by decide
theorem test_wit_ScheduleOpcodes : (chanEnt (some ((tChImg 2).map (fun e => if e.1 = 116 then (116, 3) else e))) 0 2).disp = 3 ∧ rd (tU 1 2 8 []) 0 1 = 1 := by decide
theorem test_wit_QueueOpcodes : 48 ≤ unitIx (tU 3 48 8 []) ∧ ((tState []).qcfg 2048).length = 16 := by decide
theorem test_wit_MarkAndRewind : rd (tU 3 2048 8 []) 6 1 = 0 ∧ rd (tU 3 2048 8 [(6, 1, 1)]) 6 1 = 1 ∧ ((tQ 0 1 tS).queue 2048).markSet = true ∧ (tS.queue 2048).markSet = false := by decide
def tCell (l : Bool) : Cell := { kind := 0, first := true, last := l, fill := 1, admFn := 0, data := [7] }
/-- A queue of two entries of one cell, read up to the first. -/
def tQ2 (s : State) : State := onQueue 2048 (fun x => { x with cells := [tCell true, tCell true], put := 2, read := 1, markSet := false }) (tQ 0 1 s)
theorem test_wit_ReadAndRelease : ((tQ2 tS).queue 2048).posOk = true
    ∧ (let b := tU 3 2048 12 [(6, 4, 1)]; bit (rd b 10 1) 0 = false ∧ qReleaseSpec.check { h := tHdr, b := b, eff := 1 } (tQ2 tS) = none)
    ∧ bit (rd (tU 3 2048 12 [(10, 1, 1)]) 10 1) 0 = true := by decide
theorem test_wit_ItemsEnterQueues : let q := Queue.initial
    ([[1], [2]] : List Rec) ≠ [] ∧ ([[1], [2]] : List Rec).length ≤ 2 ∧ qCharged q + ([[1], [2]] : List Rec).length + 1 ≤ 3
      ∧ 1 < ([[1], [2]] : List Rec).length ∧ 1 ≤ qCharged q + 1 ∧ q.gapOpen = false ∧ { q with gapOpen := true }.gapOpen = true := by decide

/-- CH_CONFIG of a channel that is not half of a pair, and of one that is. -/
theorem test_wit_ChannelOpcodes : pairMoves tS 2 2 = false ∧ pairMoves tS 48 2 = false ∧ pairMoves tS 48 4 = true := by decide
theorem test_wit_SystemAndScheduleOpcodes : tS.owner 1 2 = 0 ∧ tS.owner 1 2 ≠ 1 ∧ memRegion (memLine [0, 0, 0x10, 1]) (memCount [0, 0, 0x10, 1]) ≠ none := by decide
theorem test_wit_ChannelEvents :
    (let s := tDriven 2 2 0; s.modeA 2 = 2 ∧ (s.chan 2).drive = true ∧ protHolds (s.chan 2).prot = false ∧ s.tickA + lampToNext s 2 < 50000)
    ∧ (let s := tDriven 2 2 0; ∀ n, n < 64 → followsDir s 0 n = false)
    ∧ (let s := onChan 2 (fun c => { c with fol := true }) (tDriven 2 1 0); followsDir s 0 2 = true ∧ (∀ m, m < 64 → m ≠ 2 → followsDir s 0 m = false) ∧ (s.chan 2).edgeAt = none
        ∧ isPast s.tbNow ((s.chan 2).lastEdge + 500) = true)
    ∧ (let s := onChan 2 (fun c => { c with fol := true, lastEdge := 500000 }) (tDriven 2 1 0); followsDir s 0 2 = true ∧ (s.chan 2).edgeAt = none
        ∧ isPast s.tbNow ((s.chan 2).lastEdge + 500) = false ∧ (bit (clrBit s.anvil.limp.dir 0) 0 != cfDirInv (s.cfA 2)) ≠ (s.chan 2).level)
    ∧ (let s := onChan 2 (fun c => { c with edgeAt := some 500500, level := false }) (tDriven 2 1 0); (s.chan 2).edgeAt = some 500500 ∧ dirLevel s 2 = (s.chan 2).level)
    ∧ (let s := onChan 2 (fun c => { c with edgeAt := some 500500, fol := true }) (tDriven 2 1 0); dirLevel s 2 ≠ (s.chan 2).level ∧ followsDir s (cfDirSel (s.cfA 2)) 2 = true)
    ∧ (let s := onChan 2 (fun c => { c with testing := true }) tS; (s.chan 2).testing = true ∧ (s.chan 2).offOpen = 0 ∧ (399 : Nat) < 400)
    ∧ (let s := onChan 2 (fun c => { c with testing := true, offOpen := 1 }) tS; (s.chan 2).testing = true ∧ (s.chan 2).offOpen ≠ 0) := by decide
/-- A limp-home table with one valid entry: channel 2, LHIN0, flashing. -/
def tLh (f : Limp → Limp) : State := onAnvil (fun a => { a with vals := { a.vals with lhCfg := [0x82, 0x10, 0, 0] ++ zeros 60 }, limp := f a.limp }) (tTick 0 tS)
theorem test_wit_LimpHomeAndHoldEvents :
    (let s := tLh id; s.anvil.limp.lhN = true ∧ lhValid s.anvil.vals.lhCfg 0 = true ∧ lhChannel s.anvil.vals.lhCfg 0 = 2)
    ∧ (let s := tLh (fun l => { l with lhN := false, stuck := true }); s.anvil.limp.lhN = false ∧ s.anvil.limp.stuck = true)
    ∧ (let s := onChan 2 (fun c => { c with limp := true }) (tLh (fun l => { l with lhN := false })); s.anvil.limp.lhN = false ∧ s.anvil.limp.stuck = false
        ∧ (s.chan 2).limp = true ∧ (s.chan 2).orphan ≠ 2 ∧ (s.chan 2).safe = false)
    ∧ (let s := onChan 2 (fun c => { c with limp := true }) (tLh (fun l => { l with flashRun := true, lhin := 1 })); s.anvil.limp.flashRun = true
        ∧ lhFlash s.anvil.vals.lhCfg 0 = true ∧ lhActive s.anvil.limp s.anvil.vals.lhCfg 0 = true ∧ (s.chan (lhChannel s.anvil.vals.lhCfg 0)).limp = true)
    ∧ (tLh id).anvil.limp.flashRun = false
    ∧ (let s := onChan 2 (fun c => { c with orphan := 1, holdEnd := some 5 }) (tLh id); (s.chan 2).holdEnd = some 5 ∧ (s.chan 2).orphan = 1 ∧ (lhEntry s.anvil.vals.lhCfg 2).isSome = true)
    ∧ (let s := onChan 2 (fun c => { c with orphan := 1, holdEnd := some 5 }) tS; (s.chan 2).orphan = 1 ∧ lhEntry s.anvil.vals.lhCfg 2 = none ∧ s.modeA 2 ≠ 3 ∧ s.modeA 2 ≠ 4
        ∧ safeAbove s 2 = false)
    ∧ (onAnvil (fun a => { a with actHoldEnd := some 5 }) tS).anvil.actHoldEnd = some 5
    ∧ ((onSink 2 (fun c => { c with holdEnd := some 5 }) tS).sink 2).holdEnd = some 5 := by decide
/-- A clear that Anvil has executed, and one, of OC_LATCH, that it has not. -/
theorem test_wit_ProtectionOpcodes :
    (let s := onAnvil (fun a => { a with vals := { a.vals with clrProt := [(2, (1, 2))] } }) tS
     s.anvil.vals.clrProt = [(2, (1, 2))] ∧ tget (fun _ => 0) s.anvil.clrDone 2 ≠ 1 ∧ (s.chan 2).limp = false)
    ∧ (let s := onAnvil (fun a => { a with vals := { a.vals with clrProt := [(2, (1, 2))] }, clrDone := [(2, 1)] }) tS; tget (fun _ => 0) s.anvil.clrDone 2 = 1)
    ∧ (let s := onChan 2 (fun c => { c with prot := 2 }) tS; (bit 2 1 && bit (s.chan 2).prot 1) = true ∧ 2 ∈ protGroup s 2) := by decide
theorem test_wit_ProtectionEvents :
    (let s := tDriven 2 0 0; (2 : Nat) < 64 ∧ s.dead = false ∧ switchesOn s 2 = true ∧ bit (s.chan 2).prot 6 = false ∧ 100 * limitInForce s 2 < 4001)
    ∧ (let s := tDriven 2 0 250; s.dead = false ∧ switchesOn s 2 = true ∧ 250 ≤ sinceEdge s 2)
    ∧ (let s := tDriven 2 0 0; s.modeA 2 ≠ 3 ∧ s.modeA 2 ≠ 4 ∧ (8 : Nat) < 9 ∧ protHolds (s.chan 2).prot = false)
    ∧ (let s := onChan 2 (fun c => { c with coolEnd := some 500500 }) (tDriven 2 0 0); (s.chan 2).coolEnd = some 500500 ∧ s.modeA 2 ≠ 4 ∧ (s.chan 2).limp = false)
    ∧ (let s := onChan 2 (fun c => { c with contSince := some 400000 }) (tDriven 2 0 0); (s.chan 2).contSince = some 400000 ∧ s.modeA 2 ≠ 4)
    ∧ (let s := onChan 2 (fun c => { c with inrushEnd := some 500500 }) (tDriven 2 0 0); (s.chan 2).inrushEnd = some 500500)
    ∧ (let s := tDriven 2 0 0; (1400 : Int) ≤ 1400 ∧ bit (s.chan 2).prot 4 = false)
    ∧ (let s := onChan 2 (fun c => { c with prot := 16 }) (tDriven 2 0 0); bit (s.chan 2).prot 4 = true ∧ (1280 : Int) ≤ 1280 ∧ (s.chan 2).limp = false)
    ∧ (let s := tDriven 2 0 0
       let lim : Int := pfDtj (s.pfA 2)
       trefOf [200, 200] s.anvil.areaFault 2 = some 200 ∧ bit (s.chan 2).prot 5 = false ∧ 8 * lim < (200 + 8 * lim + 1) - 200 ∧ (200 + 8 * lim) - 200 ≤ 8 * lim)
    ∧ (let s := onChan 2 (fun c => { c with prot := 32 }) (tDriven 2 0 0)
       let lim : Int := pfDtj (s.pfA 2)
       bit (s.chan 2).prot 5 = true ∧ (200 + 8 * (lim - 15)) - 200 ≤ 8 * (lim - 15) ∧ (s.chan 2).limp = false) := by decide
/-- A drain-source voltage that VDS_TRIP answers to exists whatever the on-resistance of Config is. -/
theorem test_wit_ProtectionEvents_vds : ∃ vds, limitInForce (tDriven 2 0 250) 2 * ronScaled 2 ((tDriven 2 0 250).chan 2).tjEval * 13 < vds * 500 * 800000 := by
  generalize limitInForce (tDriven 2 0 250) 2 * ronScaled 2 ((tDriven 2 0 250).chan 2).tjEval * 13 = x
  exact ⟨x + 1, by omega⟩
theorem test_wit_SupplyEvents :
    ((2999 : Int) < 3000 ∧ tS.dead = false ∧ tS.anvil.sup.crankEnd = none ∧ tS.anvil.sup.crankOff = false)
    ∧ (let s := onSup (fun x => { x with crankEnd := some 2500000 }) tS; s.anvil.sup.crankEnd = some 2500000 ∧ (3200 : Int) ≤ 3200 ∧ isPast s.tbNow 2500000 = false)
    ∧ (let s := onSup (fun x => { x with crankOff := true }) tS; s.anvil.sup.crankOff = true ∧ (3500 : Int) ≤ 3500)
    ∧ ((30000 : Int) < 30001 ∧ tS.anvil.sup.ovAbove = false ∧ (onSup (fun x => { x with ov := true, ovAbove := true }) tS).anvil.sup.ovAbove = true)
    ∧ (let s := onSup (fun x => { x with ov := true }) tS; (29000 : Int) ≤ 29000 ∧ s.anvil.sup.ov = true) := by decide
theorem test_wit_InductiveOpcodes : kinkChange (tCoil 8) (tCoil 8) = false ∧ kinkChange (tCoil 8) (zeros 32) = true ∧ kinkChange (tCoil 8) (putAt (tCoil 8) 1 [1]) = true := by decide
/-- A coil that waits at the tick of its start slot: its channel may be served; ENGAGE rises, cool and too hot; ENGAGE falls in RISE and in HOLD. -/
theorem test_wit_CoilStartEdge :
    (let s := onAnvil (fun a => { a with lastFn := 10 }) (tCh 8 (tKoil 0 id))
     let e := chanEnt s.sched.img s.sched.anvilMode 8
     e.disp ≠ 0 ∧ e.disp ≠ 3 ∧ startFrame e.period e.phase s.anvil.lastFn = true ∧ (s.chan 8).edgeFn ≠ some s.anvil.lastFn ∧ s.tickA < 200 * (e.slot + 1) ∧ s.modeA 8 = 3
       ∧ protHolds (s.chan 8).prot = false ∧ (s.chan 8).safe = false ∧ s.anvil.orphan = false ∧ (s.anvil.vals.chOf 8).held = false)
    ∧ (let s := onAnvil (fun a => { a with vals := { a.vals with ind := [(8, { engage := true, count := 1 })], coilCfg := [(8, tCoil 8)] } }) (tKoil 0 id)
       (s.coil 8).phase = 0 ∧ ovDefers s 8 = false ∧ (s.anvil.vals.indOf 8).engage = true ∧ (s.anvil.vals.indOf 8).count ≠ (s.coil 8).appCount ∧ coilCool (s.kfA 8) (s.coil 8).tc = true)
    ∧ (let s := onAnvil (fun a => { a with vals := { a.vals with ind := [(8, { engage := true, count := 1 })], coilCfg := [(8, tCoil 8)] } }) (tKoil 0 (fun k => { k with tc := 2000 }))
       (s.coil 8).phase = 0 ∧ ovDefers s 8 = false ∧ coilCool (s.kfA 8) (s.coil 8).tc = false)
    ∧ (let s := tKoil 1 (fun k => { k with appEngage := true }); (s.anvil.vals.indOf 8).engage = false ∧ (s.coil 8).appEngage = true ∧ 1 ≤ (s.coil 8).phase ∧ (s.coil 8).phase ≤ 3)
    ∧ (let s := tKoil 3 (fun k => { k with appEngage := true }); (s.anvil.vals.indOf 8).engage = false ∧ (s.coil 8).appEngage = true ∧ 1 ≤ (s.coil 8).phase ∧ (s.coil 8).phase ≤ 3) := by decide
theorem test_wit_ActuationEvents :
    (let s := tKoil 1 id; (s.coil 8).phase = 1 ∧ (s.coil 8).reached = false)
    ∧ (let s := tKoil 2 (fun k => { k with closeTb := some 600000, reached := true }); (s.coil 8).phase = 2 ∧ (s.coil 8).closeTb = some 600000 ∧ (s.coil 8).reached = true
        ∧ kfIh (s.coil 8).prof ≠ 0 ∧ (s.chan 8).orphan ≠ 3)
    ∧ (let s := tKoil 2 (fun k => { k with closeTb := some 600000, reached := true, prof := putAt (tCoil 8) 4 [0, 0] }); kfIh (s.coil 8).prof = 0 ∧ (s.chan 8).safe = false)
    ∧ (let s := tKoil 1 id; 100 * 0 < 5 * kfIp (s.coil 8).prof ∧ 5 * kfIp (s.coil 8).prof ≤ 100 * 1)
    ∧ (let s := onTime (fun t => { t with tb := 600000 }) (tKoil 2 (fun k => { k with wins := 1, u1 := some 1000, u2 := some 0, prof := putAt (putAt (tCoil 8) 9 [1]) 11 [10] }))
       let k := (coilSync 8 s).coil 8
       let u : Int := ([] : List Nat).sum
       k.phase = 2 ∧ k.wins ≠ 0 ∧ k.u1 = some 1000 ∧ k.u2 = some 0 ∧ kfThr k.prof ≠ 0 ∧ kfBlank k.prof * 50000 ≤ (s.tbNow - k.startTb).toNat ∧ k.closeTb = none
         ∧ (u - 2 * 1000 + 0) * 5 ≤ -(40 * (kfThr k.prof : Int)) ∧ u < 1000)
    ∧ (let s := tKoil 3 (fun k => { k with prof := putAt (tCoil 8) 12 [1, 0] }); (s.coil 8).phase = 3 ∧ kfHoldMs (s.coil 8).prof ≠ 0 ∧ (s.anvil.vals.indOf 8).engage = false)
    ∧ ((tKoil 4 id).coil 8).phase = 4 := by decide
theorem test_wit_BridgeOpcodes : bfPosSrc (brCfgReset 0) = bfPosSrc (tS.com.brCfgOf 0) ∧ bfPosSrc (putAt (brCfgReset 0) 1 [1]) ≠ bfPosSrc (tS.com.brCfgOf 0) := by decide
theorem test_wit_BridgeEvents :
    (let s := tBr (putAt (brCfgReset 0) 1 [1]) id; (0 : Nat) < 8 ∧ s.pwr.state < 2 ∧ bfPosSrc (s.bfA 0) = 1 ∧ s.modeA (brCh 0) = 4
      ∧ (encPlace false false + 4 - encPlace (s.bridge 0).encA (s.bridge 0).encB) % 4 = 0 ∧ (encPlace true false + 4 - encPlace (s.bridge 0).encA (s.bridge 0).encB) % 4 = 1
      ∧ (encPlace true true + 4 - encPlace (s.bridge 0).encA (s.bridge 0).encB) % 4 = 2 ∧ (encPlace false true + 4 - encPlace (s.bridge 0).encA (s.bridge 0).encB) % 4 = 3)
    ∧ (bfPosSrc ((tBr (brCfgReset 0) id).bfA 0) ≠ 1)
    ∧ (let s := tBr (brCfgReset 0) (fun k => { k with pos := 8388606 }); (1 : Int) ≠ 0 ∧ (s.bridge 0).want = 0 ∧ -8388608 ≤ (s.bridge 0).pos + 1 ∧ (s.bridge 0).pos + 1 ≤ 8388607)
    ∧ (let s := tBr (brCfgReset 0) (fun k => { k with st := 2, flags := 0, rampTb := 500000 })
       let k := (rampTo 0 s.tbNow s).bridge 0
       still k = false ∧ k.da = 0 ∧ k.frac = 0 ∧ k.want = 0 ∧ k.stopEv = 0 ∧ k.cut = false)
    ∧ (let s := tBr (brCfgReset 0) (fun k => { k with st := 2, want := 3, flags := 0, rampTb := 500000 })
       let k := (rampTo 0 s.tbNow s).bridge 0
       still k = false ∧ k.da = 0 ∧ k.frac = 0 ∧ k.want ≠ 0 ∧ k.st ≠ k.want ∧ k.cut = false ∧ k.dwell = none ∧ k.ready = false)
    ∧ ((tBr (brCfgReset 0) (fun k => { k with dwell := some 5 })).bridge 0).dwell = some 5
    ∧ (let s := tBr (brCfgReset 0) (fun k => { k with stallSince := some 5, goal := 3 }); (s.bridge 0).stallSince = some 5 ∧ (s.bridge 0).goal = 3)
    ∧ (let s := tBr (putAt (brCfgReset 0) 1 [8]) (fun k => { k with stallSince := some 5, mdir := 3 }); bfAutoHome (s.bfA 0) = true ∧ (s.bridge 0).goal ≠ 4
        ∧ (s.bridge 0).mdir = (if bfHomeDir (s.bfA 0) then 2 else 3))
    ∧ (let s := tBr (brCfgReset 0) (fun k => { k with stallSince := some 5 })
       ¬ ((s.bridge 0).goal = 3 ∨ (bfAutoHome (s.bfA 0) = true ∧ (s.bridge 0).goal ≠ 4 ∧ (s.bridge 0).mdir = (if bfHomeDir (s.bfA 0) then 2 else 3))) ∧ (s.bridge 0).goal ≠ 4
         ∧ pinching (s.bridge 0) = false)
    ∧ ((tBr (brCfgReset 0) (fun k => { k with openSince := some 5 })).bridge 0).openSince = some 5 := by decide
def tCommit (f : Option Fn) : LightCommit := { seq := 0, entries := [], ext := [], eff := 0, target := none, frame := f, applied := 0, stale := 0, dropped := 0 }
theorem test_wit_LightingEvents :
    (let s := onAnvil (fun a => { a with vals := { a.vals with lsStaged := [2], ls := [(2, 9)] } }) (onLight (fun x => { x with commits := [(1, some (tCommit (some 0)))] }) tS)
     ((s.lightCommit 1).bind (·.frame)) = some s.fn ∧ 2 ∈ s.anvil.vals.lsStaged ∧ (s.sink 2).safe = false ∧ (s.sink 2).shortOff = false ∧ 3 ∉ s.anvil.vals.lsStaged
       ∧ ((s.lightCommit 0).bind (·.frame)) ≠ some s.fn)
    ∧ (∀ c, c < 16 → ((tS.lightCommit c).bind (·.frame)) ≠ some tS.fn)
    ∧ (let s := onSink 2 (fun k => { k with b := 8191 }) (onAnvil (fun a => { a with vals := { a.vals with lsCfg := [(2, [2, 7, 255, 0, 0, 0, 0, 0])] } }) tS)
       let k := s.sink 2
       let p := pulseStart s 2 (if k.pulseTb = some s.tbNow then s.tbNow + 1 else s.tbNow)
       sfHybrid (s.sfA 2) = true ∧ sinkBranch (s.sfA 2) { k with b := k.next.getD k.b, next := none, pulseTb := some p.1 } = 2 ∧ pulseTicks (s.sfA 2) (k.next.getD k.b) p.2 ≠ 0) := by decide

theorem test_wit_CanOpcodes : (3 : Nat) < 4 ∧ (([0, 0, 1, 0, 7] : Rec).drop 4)[0]? = some 7 := by decide
/-- A mask filter that takes every frame of port 0 into its receive queue 3. -/
def tFilt : Tab Octet := [(16403, 0), (16408, 1), (16409, 0x83)]
def tCanSt (st : Nat) (f : CanPort → CanPort) (s : State) : State := onCan 0 (fun k => f { k with st := st }) s
def tCell8 : Cell := { kind := 0, first := true, last := true, fill := 8, admFn := 0, data := zeros 8 }
/-- A transmit queue of port 0 whose head is a data frame of no octets. -/
def tCanTx (s : State) : State := onQueue (canTxq 0 0) (fun x => { x with cfg := tB 16 [(0, 2, canTxq 0 0), (2, 1, 1), (8, 2, 4), (13, 1, 1)], put := 1, cells := [tCell8] }) s
theorem test_wit_CanFrames :
    (let s := tCanSt 3 id (onAcc (fun a => { a with cfg := putAt accCfgReset 24 [7] }) tS)
     (0 : Nat) < 8 ∧ (s.can 0).st = 3 ∧ 0 ≠ afPort s.acc.cfg ∧ (s.can 0).after = none ∧ canFilter s.bus.filt (1 % 2 ^ 29) (bit 1 29) 0 = none)
    ∧ (let s := onBus (fun b => { b with filt := tFilt }) (tCanSt 3 id (onAcc (fun a => { a with cfg := putAt accCfgReset 24 [7] }) tS))
       canFilter s.bus.filt (1 % 2 ^ 29) (bit 1 29) 0 = some (0x800, 0x83) ∧ bit 1 30 = false ∧ qMode (s.qcfg (256 + 128 * 0 + 0x83 % 64)) = 0)
    ∧ (let s := onQueue 259 (fun x => { x with cfg := tB 16 [(0, 2, 259), (2, 1, 1), (6, 2, 0x1001), (8, 2, 4), (13, 1, 1)] }) tS; qMode (s.qcfg (256 + 128 * 0 + 0x83 % 64)) ≠ 0)
    ∧ (let s := tCanTx (tCanSt 2 id tS)
       (0 : Nat) < 64 ∧ (6 : Nat) ≤ 6 ∧ (s.can 0).st = 2 ∧ qHead (s.queue (canTxq 0 0)) 0 = some (1, some (zeros 8)) ∧ canBadEntry (s.can 0).cfg (zeros 8) = false
         ∧ nfRetry (s.can 0).cfg 0 = 8 ∧ nfRetry (s.can 0).cfg 0 < (8, 0).1 + 1 ∧ (7, 0).1 + 1 ≤ nfRetry (s.can 0).cfg 0)
    ∧ (let s := tCanTx (tCanSt 2 (fun k => { k with tries := [(0, (8, 1))] }) tS)
       nfRetry (s.can 0).cfg 0 < (tget (fun _ => (0, 0)) (s.can 0).tries 0).1 + 1 ∧ ¬ (tget (fun _ => (0, 0)) (tS.can 0).tries 0).1 + 1 > nfRetry (s.can 0).cfg 0)
    ∧ (let s := tCanTx (tCanSt 4 id tS); (s.can 0).st = 4 ∧ (2 : Nat) ≤ 2 ∧ qHead (s.queue (canTxq 0 0)) 0 = some (1, some (zeros 8)))
    ∧ ((tCanSt 2 (fun k => { k with after := some 2 }) tS).can 0).after = some 2 ∧ ((tCanSt 2 (fun k => { k with after := some 3 }) tS).can 0).after = some 3 := by decide
/-- The counters at the bounds of error-passive and bus-off, from either side. -/
theorem test_wit_CanErrorsAndWake :
    ((tCanSt 2 id tS).can 0).st = 2 ∧ ((tCanSt 3 id tS).can 0).st = 3
    ∧ canErr { tS.can 0 with st := 2, tec := 127 } = 0 ∧ canErr { tS.can 0 with st := 2, tec := 128 } = 1 ∧ canErr { tS.can 0 with st := 2, tec := 255 } = 1
    ∧ canErr { tS.can 0 with st := 2, tec := 256 } = 2 ∧ canErr { tS.can 0 with st := 2, rec_ := 128 } = 1
    ∧ ((tCanSt 1 id tS).can 0).st = 1
    ∧ (let s := tCanSt 4 id tS; (s.can 0).st = 4 ∧ nfRecovery (s.can 0).cfg = false)
    ∧ (let s := tCanSt 4 (fun k => { k with recover := true, cfg := putAt (canCfgReset 0) 1 [16] }) tS; (s.can 0).st = 4 ∧ nfRecovery (s.can 0).cfg = true ∧ (s.can 0).recover = true)
    ∧ (let s := tCanSt 2 id tS; (s.can 0).st ≠ 0 ∧ (s.can 0).txd = false ∧ (s.can 0).dom = false)
    ∧ (let s := tCanSt 2 (fun k => { k with txd := true, dom := true }) tS; (s.can 0).st ≠ 0 ∧ (s.can 0).txd = true ∧ (s.can 0).dom = true)
    ∧ (let s := tCanSt 6 (fun k => { k with wake := tB 24 [(1, 1, 1)] }) tS; (s.can 0).st = 6 ∧ wfMode (s.can 0).wake = 1)
    ∧ (onPwr (fun p => { p with up := false }) tS).hearthUp = false
    ∧ (let s := tCanSt 6 (fun k => { k with wake := tB 24 [(1, 1, 6)], fdCnt := 31 }) tS
       (s.can 0).st = 6 ∧ wfMode (s.can 0).wake = 2 ∧ s.pwr.state ≠ 3 ∧ (s.can 0).woken = false ∧ bit 0x80000000 31 = true ∧ wfFdPassive (s.can 0).wake = true
         ∧ ¬ (bit 0 31 = true ∧ wfFdPassive (s.can 0).wake = true) ∧ (s.can 0).fdCnt < 32 ∧ bit 0 31 = false)
    ∧ (let s := tCanSt 6 (fun k => { k with wake := tB 24 [(1, 1, 2)], fdCnt := 32 }) tS
       ¬ (bit 0x80000000 31 = true ∧ wfFdPassive (s.can 0).wake = true) ∧ bit 0x80000000 31 = true ∧ 32 ≤ (s.can 0).fdCnt) := by decide
def tLinOn (t : Rec) (f : LinPort → LinPort) : State :=
  onSched (fun x => { x with img := some tLinImg }) (onLin 0 (fun k => f { k with st := 1, table := t }) tS)
def tLinFrame (d : Option Rec) : LinFrame := { id := 1, fn := 0, frames := 1, data := d, ext := none, goSleep := false, queued := false, limbo := none }
def tLinEnt : LinEnt := (linEnt (some tLinImg) 0 0 1).getD { port := 0, pid := 0, cycle := 0, offset := 0, slot := 0, frames := 0 }
theorem test_wit_LinPorts :
    (let b := tU 4 8 8 [] ++ (tS.lin 0).cfg ++ (tS.lin 0).table; (tS.lin 0).cfg = sub b 8 16 ∧ (tS.lin 0).table = sub b 24 248)
    ∧ (let s := tLinOn (zeros 4 ++ [2, 2, 0, 0] ++ zeros 240) id
       linEnt s.sched.img s.modeNow 0 1 = some tLinEnt ∧ startFrame tLinEnt.cycle tLinEnt.offset s.fn = true ∧ s.tick ≤ 200 * tLinEnt.slot ∧ (s.lin 0).st = 1 ∧ (s.lin 0).mute = none
         ∧ (s.lin 0).busy = none ∧ (s.lin 0).goSleep = false ∧ mtDir (s.lin 0).table 1 = 2)
    ∧ (let s := tLinOn (zeros 4 ++ [1, 2, 0, 0] ++ zeros 240) id; (s.lin 0).goSleep = false ∧ mtDir (s.lin 0).table 1 = 1 ∧ mtSource (s.lin 0).table 1 = 0 ∧ (s.lin 0).ext = [])
    ∧ (let i : Tab Octet := tLinImg.map (fun e => if e.1 = 101 then (101, 0x3C) else e)
       let s := onSched (fun x => { x with img := some i }) (onLin 0 (fun k => { k with st := 1, goSleep := true }) tS)
       (linEnt s.sched.img s.modeNow 0 0x3C).isSome = true ∧ startFrame tLinEnt.cycle tLinEnt.offset s.fn = true ∧ (s.lin 0).goSleep = true ∧ (s.lin 0).busy = none)
    ∧ (let f := tLinFrame none; let s := tLinOn (zeros 248) (fun k => { k with busy := some f })
       (s.lin 0).busy = some f ∧ linEndOk f (mtLen (s.lin 0).table f.id) 0 (zeros (mtLen (s.lin 0).table f.id)) = true ∧ linEndOk f (mtLen (s.lin 0).table f.id) 1 [] = true ∧ f.ext = none
         ∧ f.queued = false ∧ f.goSleep = false ∧ f.limbo = none ∧ mtReport (s.lin 0).table f.id = false)
    ∧ (let s := tLinOn (zeros 248) id; (s.lin 0).st ≠ 0 ∧ (s.lin 0).dom = false)
    ∧ (let s := onLin 0 (fun k => { k with st := 2, cfg := putAt k.cfg 4 [2] }) tS
       mfWakeEn (s.lin 0).cfg = true ∧ (s.lin 0).st = 2 ∧ (s.lin 0).woken = false ∧ s.hearthUp = true ∧ (s.lin 0).suspended = false ∧ (s.lin 0).held = false) := by decide
/-- Port 0 up, with station address 5. -/
def tEth (f : EthPort → EthPort) : State := onEth 0 (fun k => f { k with link := true, cfg := putAt (ethCfgReset 0) 4 [5] }) tS
def tFrame (d e : Nat) (sec : Option SecTag) : EthFrame := { dst := d, src := 0, vlan := 0, etype := e, sec := sec, payload := [] }
/-- Context 1 on ETH0, disabled else. -/
def tOnEth (r : Option Rec) : State := onCtx 1 (fun x => { x with cfg := putAt x.cfg 1 [0x21], restart := r }) tS
theorem test_wit_EthernetPorts :
    (efMacsec (ethCfgReset 0) = false ∧ rd (tS.eth 0).cfg 1 1 % 16 = rd (ethCfgReset 0) 1 1 % 16)
    ∧ (let s := tEth id; (s.eth 0).link = true ∧ s.hearthUp = true ∧ (tFrame 6 0x88B5 none).dst ≠ ethMac (s.eth 0).cfg ∧ (tFrame 5 0x88B5 none).dst = ethMac (s.eth 0).cfg
        ∧ efMacsec (s.eth 0).cfg = false ∧ (tFrame 5 0x88B4 none).etype ≠ efType (s.eth 0).cfg ∧ (tFrame 5 0x88B5 none).etype = efType (s.eth 0).cfg ∧ (tFrame 5 0x88B5 none).sec = none
        ∧ (tFrame 5 0x88B5 none).payload.length ≤ 9000)
    ∧ (∃ c, ctxTransport (tS.cx c) ≠ 0 + 1)
    ∧ (let s := tS; (s.eth 0).link = false ∧ s.hearthUp = true ∧ ctxTransport ((tOnEth none).cx 1) = 0 + 1 ∧ ((tOnEth none).cx 1).restart = none ∧ ((tOnEth (some [1])).cx 1).restart = some [1]) :=
  ⟨by decide, by decide, ⟨1, by decide⟩, by decide⟩
theorem test_wit_EthernetPorts_long : 9000 < (zeros 9001).length := by unfold zeros; rw [List.length_replicate]; decide
def tWire (ctx : Octet) : Rec := let h : Rec := [1, ctx, 0, 0, 1, 0, 2, 0, 0, 0, 0, 0, 0, 0, 0, 0]; h ++ le 4 (crc32c h)
theorem test_wit_HspiTransfers :
    (let s := tS; s.hearthUp = true ∧ (s.hspi 0).inPacket = false ∧ hspiBound 0 s = some 1 ∧ hspiBound 1 s = none)
    ∧ (let b := tWire 1; 20 ≤ b.length ∧ b.length = 20 + rd b 8 2 ∧ b.length ≤ 16384 ∧ crc32c (b.take (b.length - 4)) = rd b (b.length - 4) 4 ∧ hdrFault b = none ∧ (pktOf b).h.ctx = 1)
    ∧ (let b := putAt (tWire 1) 16 [0]; b.length = 20 + rd b 8 2 ∧ ¬ crc32c (b.take (b.length - 4)) = rd b (b.length - 4) 4)
    ∧ (let b := tWire 2; b.length = 20 + rd b 8 2 ∧ crc32c (b.take (b.length - 4)) = rd b (b.length - 4) 4 ∧ hdrFault b = none ∧ (pktOf b).h.ctx ≠ 1)
    ∧ (let s := onHspi 0 (fun h => { h with inPacket := true }) tS; (s.hspi 0).inPacket = true ∧ hspiBound 0 s = some 1)
    ∧ (1 : Nat) ≤ 16384 ∧ (tS.hspi 1).inPacket = false := by decide
/-- A slot that may serve and one that may not; a record with a window, inside it and beyond its end. -/
theorem test_wit_KeyOpcodes :
    (rd (tU 6 2 29 [(10, 2, 1)]) (krOff (tU 6 2 29 [(10, 2, 1)])) 1 ≠ 1 ∧ rd (tU 6 2 29 [(8, 1, 1), (10, 2, 1)]) (krOff (tU 6 2 29 [(8, 1, 1), (10, 2, 1)])) 1 = 1)
    ∧ krDepth (tU 6 2 29 []) = 0
    ∧ (let s := onCom (fun c => { c with anchor := some { utc := 9000000000, tb := 0, rate := 0 } }) (tKey 2 1 4 tS)
       let w := onKey 2 (fun k => { k with rec_ := putAt k.rec_ 8 (le 4 9 ++ le 4 9) }) s
       let c := (w.key 2).rec_
       (w.key 2).lost = false ∧ (w.key 2).bad = false ∧ kyType c ≠ 0 ∧ kyLife c ≠ 1 ∧ kyNotBefore c ≠ 0 ∧ kyNotAfter c ≠ 0 ∧ w.utcSec = some 9) := by decide
theorem test_wit_KeyOpcodes_ok : keyOk (tKey 2 1 4 tS) (unitIx (tU 6 2 29 [])) [1, 2] 2 = true ∧ keyOk tS (unitIx (tU 6 2 29 [])) [1, 2] 2 = false := by
  unfold keyOk unitCount
  generalize Config.variantK = v
  revert v
  decide
theorem test_wit_UpdateService :
    (let b : Rec := [1, 0, 0, 0, 0, 0, 1, 0, 0x54]; rd b 0 1 ≠ 0 ∧ (b.drop 8)[0]? = some 0x54)
    ∧ (let s := onUpd (fun u => { u with st := 3 }) tS; s.upd.st = 3 ∧ s.hearthUp = true ∧ s.upd.defer = none ∧ actBusy (advTo s.upd.v s) = false ∧ s.link.lost = false ∧ (advTo s.upd.v s).rejoining = false)
    ∧ (let s := onCoil 8 (fun k => { k with phase := 1 }) (onUpd (fun u => { u with st := 3 }) tS); actBusy (advTo s.upd.v s) = true)
    ∧ (let s := onClk (fun k => { k with fn := 1000 }) (onUpd (fun u => { u with st := 3, defer := some 0 }) tS)
       s.upd.defer = some 0 ∧ s.upd.st = 3 ∧ s.hearthUp = true ∧ s.link.lost = false ∧ s.rejoining = false ∧ 1000 ≤ (s.fn - 0).toNat ∧ (s.fn - 1).toNat < 1000)
    ∧ (let s := onPwr (fun p => { p with up := false }) (onUpd (fun u => { u with verifying := true }) tS)
       s.upd.verifying = true ∧ s.hearthUp = false ∧ s.pwr.resetLow = none ∧ s.pwr.xtal25 = true ∧ s.pwr.vpor = false)
    ∧ (let s := onUpd (fun u => { u with st := 4, failed := 1 }) tS; s.upd.st = 4 ∧ s.hearthUp = true ∧ s.upd.rejoined = false ∧ s.upd.failed < 2)
    ∧ (let s := onUpd (fun u => { u with st := 4, failed := 2 }) tS; s.upd.st = 4 ∧ s.upd.rejoined = false ∧ 2 ≤ s.upd.failed) := by decide
/-- Input 5 with PERIOD 1, DEB 3 and WAKE on a rising edge, frame `f` the last one Anvil executed. -/
def tIn (f : Fn) (s : State) : State := onAnvil (fun a => { a with lastFn := f, vals := { a.vals with inCfg := [(5, putAt (putAt (inCfgReset 5) 1 [0x20]) 4 [0, 3, 4])] } }) s
theorem test_wit_InputsAndMonitors :
    (let s := tIn 1000 tS; s.pwr.state < 2 ∧ bit s.anvil.mon.deb 5 = false ∧ bit s.anvil.mon.deb 5 ≠ true ∧ (1000 : Fn).toNat % qfPeriod (s.anvil.vals.inCfgOf 5) = 5 % qfPeriod (s.anvil.vals.inCfgOf 5)
        ∧ qfDeb (s.anvil.vals.inCfgOf 5) ≤ samplesFrom 5 (qfPeriod (s.anvil.vals.inCfgOf 5)) (tget debFromDef s.anvil.mon.debFrom 5) 1000)
    ∧ samplesFrom 5 1 (tget debFromDef tS.anvil.mon.debFrom 5) 1 < 3 ∧ samplesFrom 5 1 (tget debFromDef tS.anvil.mon.debFrom 5) 2 = 3
    ∧ (let s := onAnvil (fun a => { a with vals := { a.vals with inCfg := [(5, putAt (inCfgReset 5) 4 [1])] } }) tS
       (1000 : Fn).toNat % qfPeriod (s.anvil.vals.inCfgOf 5) ≠ 5 % qfPeriod (s.anvil.vals.inCfgOf 5))
    ∧ afTrigEn tS.acc.cfg = false ∧ tS.pwr.entry = 0 ∧ (onPwr (fun p => { p with entry := 1 }) tS).pwr.entry ≠ 0
    ∧ (let s := onAcc (fun a => { a with cfg := putAt (putAt accCfgReset 0 [7]) 18 [0x85] }) tS; afTrigEn s.acc.cfg = true ∧ afTrig s.acc.cfg = 5 ∧ afVid s.acc.cfg ≠ 0)
    ∧ (let s := onPwr (fun p => { p with state := 2 }) (tIn 1000 tS); s.parked = true ∧ bit s.anvil.mon.deb 5 ≠ true ∧ qfParkPer (s.anvil.vals.inCfgOf 5) ≠ 0)
    ∧ qfParkPer (tS.anvil.vals.inCfgOf 5) = 0
    ∧ (tS.link.stretched.getD 0 false = false ∧ tS.link.stretched.length = 7 ∧ tS.link.stretchCount.length = 7) := by decide
def tP (f : Power → Power) : State := onPwr f tS
theorem test_wit_PowerAndPark :
    (let s := onAnvil id tS; (blockers { s with link := { s.link with lost := true } }).any id = true ∧ entering s = false ∧ 2 ≤ rd ([2, 0, 0, 0] : Rec) 0 1)
    ∧ (let s := tP (fun p => { p with next := some (2, 0, 1, 0) }); s.pwr.next = some (2, 0, 1, 0) ∧ s.hearthUp = true ∧ (s.fn - 0).toNat < 2 ^ 31)
    ∧ (let s := tTick 40000 (tP (fun p => { p with entry := 1, entryFn := 10 })); s.pwr.entry = 1 ∧ s.pwr.abandon = none ∧ 40000 ≤ s.tick ∧ ap1Ready s = true)
    ∧ (let s := tP (fun p => { p with entry := 2 }); s.pwr.entry = 2 ∧ s.pwr.abandon = none)
    ∧ (let s := tP (fun p => { p with entry := 3, target := 2 }); s.pwr.entry = 3 ∧ s.pwr.abandon = none ∧ parkDrains s 48 = false)
    ∧ (let s := onClk (fun k => { k with fn := 2000 }) (tP (fun p => { p with entry := 1 })); s.pwr.entry = 1 ∧ s.pwr.abandon = none ∧ s.pwr.state < 2 ∧ 2000 ≤ (s.fn - s.pwr.entryFn).toNat)
    ∧ (let s := onClk (fun k => { k with fn := 1999 }) (tP (fun p => { p with entry := 1 })); (s.fn - s.pwr.entryFn).toNat < 2000)
    ∧ (let s := tP (fun p => { p with state := 2, cfg := putAt pwrCfgReset 8 [1] }); s.pwr.state = 2 ∧ pwDeepen s.pwr.cfg ≠ 0 ∧ s.pwr.waking = false)
    ∧ (let s := tP (fun p => { p with state := 3, cfg := putAt pwrCfgReset 6 [1] }); s.parked = true ∧ pwTimer s.pwr.cfg ≠ 0 ∧ s.conducting 2 = false)
    ∧ (let s := onPwr (fun p => { p with state := 2 }) (tDriven 2 0 0); s.parked = true ∧ s.conducting 2 = true) := by decide
theorem test_wit_WakesAndRestarts :
    (let s := tP (fun p => { p with state := 2, cfg := putAt pwrCfgReset 0 [8] }); (3 : Nat) < 4 ∧ s.parked = true ∧ s.pwr.waking = false ∧ bit (rd s.pwr.wakeRec 3 1) 3 = false ∧ pwPin s.pwr.cfg 3 = true)
    ∧ snsRail (tP (fun p => { p with cfg := putAt pwrCfgReset 10 [2] })) 1 ≠ 0 ∧ snsRail (tP (fun p => { p with cfg := putAt pwrCfgReset 10 [0] })) 1 = 0 ∧ railBad 0 3999 = true ∧ railBad 1 3400 = true
    ∧ (tP (fun p => { p with snsOff := [false, true] })).pwr.snsOff.getD 1 false = true
    ∧ tS.pwr.xtal32 = true ∧ tS.hearthUp = true
    ∧ (let s := onAnvil (fun a => { a with quiet := 20 }) tS; s.link.lost = false ∧ s.parked = false ∧ 20 ≤ s.anvil.quiet)
    ∧ (onAnvil (fun a => { a with quiet := 19 }) tS).anvil.quiet < 20
    ∧ (tS.pwr.state ≠ 4 ∧ tS.pwr.xtal25 = true ∧ tS.pwr.resetLow = none ∧ tS.parked = false) ∧ (tP (fun p => { p with xtal25 := false })).pwr.xtal25 = false
    ∧ (let s := tP (fun p => { p with resetLow := some 5 }); s.pwr.resetLow = some 5 ∧ s.parked = false ∧ s.anvil.limp.stuck = false)
    ∧ (let s := tP (fun p => { p with resetLow := some 5, state := 2 }); s.pwr.resetLow = some 5 ∧ s.parked = true ∧ s.pwr.waking = false)
    ∧ (let s := tP (fun p => { p with up := false }); s.hearthUp = false ∧ s.pwr.resetLow = none ∧ s.pwr.xtal25 = true ∧ s.pwr.vpor = false ∧ s.pwr.state ≠ 4 ∧ s.upd.verifying = false ∧ s.parked = false)
    ∧ (let s := tP (fun p => { p with up := false, state := 2 }); s.parked = true ∧ s.pwr.waking = false)
    ∧ (let s := tP (fun p => { p with up := false, state := 2, waking := true }); s.parked = true ∧ s.pwr.waking = true)
    ∧ (let v : Save := { com := .initial, epoch := 1, fn := 2, ctxs := [], ntf := [], time := .initial }; (tP (fun p => { p with save := some v })).pwr.save = some v) := by decide
theorem test_wit_AnvilResets : (2199 : Int) < 2200 ∧ (-2001 : Int) < -2000
    ∧ (let s := tP (fun p => { p with vpor := true }); (2600 : Int) ≤ 2600 ∧ s.pwr.vpor = true ∧ s.anvil.sup.revLatch = false) ∧ tS.pwr.state ≠ 4 := by decide
/-- An instance before its first event, within its window and one tick beyond it, and severe; N of source 062h is 1, of 064h 4. -/
theorem test_wit_FaultCollection :
    ((tS.fltInst 0x62 2).severe = false ∧ (tS.fltInst 0x62 2).count = 0 ∧ ffN (tS.fltCfgOf 0x62) ≤ 1 ∧ 1 < ffN (tS.fltCfgOf 0x64))
    ∧ (let s := onTime (fun t => { t with tb := 50000000 }) (onFltInst 0x64 2 (fun x => { x with count := 3 }) tS)
       (s.fltInst 0x64 2).severe = false ∧ (s.fltInst 0x64 2).count ≠ 0 ∧ (s.tbNow - (s.fltInst 0x64 2).winStart).toNat ≤ 50000 * ffW (s.fltCfgOf 0x64) ∧ ffN (s.fltCfgOf 0x64) ≤ 3 + 1)
    ∧ (let s := onTime (fun t => { t with tb := 50000001 }) (onFltInst 0x64 2 (fun x => { x with count := 3 }) tS)
       50000 * ffW (s.fltCfgOf 0x64) < (s.tbNow - (s.fltInst 0x64 2).winStart).toNat)
    ∧ ((onFltInst 0x62 2 (fun x => { x with severe := true }) tS).fltInst 0x62 2).severe = true
    ∧ (let b : Rec := [0x62, 0, 2, 0, 1, 0, 0, 0]; let s := onTime (fun t => { t with tb := 1 }) tS; rd b 2 2 ≠ 0xFFFF ∧ bit (rd b 4 1) 0 = true ∧ (s.fltInst (rd b 0 2) (rd b 2 2)).atTb ≠ s.tbNow)
    ∧ bit (rd ([0x62, 0, 2, 0, 2, 0, 0, 0] : Rec) 4 1) 0 = false := by decide

def tTmr (f : Timer → Timer) : State := onTmr 2 f tS
theorem test_wit_TimeBaseAndTimers_arm : cmpArm (tU 7 2 32 [(6, 1, 1), (16, 6, 9)]) = 1 ∧ timeRef tS (tU 7 2 32 [(6, 1, 1), (16, 6, 9)]) 12 = .ok 9 := ⟨by decide, rfl⟩
theorem test_wit_TimeBaseAndTimers :
    (rd ([0] : Rec) 0 1 = 0 ∧ rd ([1] : Rec) 0 1 ≠ 0)
    ∧ (cmpArm (tU 7 2 32 []) = 0 ∧ cmpArm (tU 7 2 32 [(6, 1, 2)]) = 2 ∧ cmpArm (tU 7 2 32 [(6, 1, 1)]) = 1)
    ∧ (let s := onCmpRun 2 (fun k => { k with armed := true, value := 9 }) (onCom (fun c => { c with cmp := [(2, { CmpCfg.initial with action := 4, timer := 3 })] }) tS)
       (s.cmpRun 2).armed = true ∧ s.hearthUp = true ∧ s.time.cmpHold = false ∧ (onTime (fun t => { t with cmpHold := true }) s).time.cmpHold = true ∧ (s.cmpRun 2).period = 0
         ∧ bit (s.inForce.com.cmpOf 2).action 2 = true)
    ∧ (let s := onCmpRun 2 (fun k => { k with armed := true, value := 9, period := 200 }) tS; (s.cmpRun 2).armed = true ∧ (s.cmpRun 2).period ≠ 0)
    ∧ (let s := onCmpRun 3 (fun k => { k with armed := true, value := 9 }) (onCmpRun 2 (fun k => { k with armed := true, value := 9 }) tS); cmpBefore s 3 = [2])
    ∧ (let s := tTmr (fun t => { t with running := true, count := 0xFFFFFF, cfg := putAt (tmrCfgReset 2) 11 [5] }); let t := s.tmr 2
       tmrClk t.cfg ≠ 1 ∧ t.running = true ∧ gateOpen s t.cfg = true ∧ t.count = tmrTop t.cfg ∧ tmrMatch t.cfg ≠ 0)
    ∧ (let s := tTmr (fun t => { t with running := true, count := 4, cfg := putAt (tmrCfgReset 2) 11 [5] }); let t := s.tmr 2
       tmrClk t.cfg ≠ 1 ∧ t.count + 1 = tmrMatch t.cfg ∧ t.count ≠ tmrTop t.cfg ∧ tmrMatch t.cfg < 16777216)
    ∧ (let s := tTmr (fun t => { t with running := true, cfg := putAt (tmrCfgReset 2) 1 [1] }); let t := s.tmr 2; tmrClk t.cfg = 1 ∧ t.running = true ∧ gateOpen s t.cfg = true
        ∧ tmrGives t s.tbNow false = true ∧ 2 ∉ ([] : List Nat))
    ∧ (let s := tTmr (fun t => { t with running := true, edges := [9], count := 4, cfg := putAt (tmrCfgReset 2) 1 [2] }); let t := s.tmr 2; tmrClk t.cfg = 2 ∧ gateOpen s t.cfg = true
        ∧ t.edges[tmrCountsTo t 5 - 1]? = some 9)
    ∧ (let s := onTime (fun t => { t with mev := [2] }) (tTmr (fun t => { t with running := true, count := 4, cfg := putAt (tmrCfgReset 2) 1 [3] })); let t := s.tmr 2; tmrClk t.cfg = 3
        ∧ gateOpen s t.cfg = true ∧ tmrCountsTo t 5 = 1 ∧ 2 ∈ s.time.mev)
    ∧ (tS.tmr 2).running = false ∧ gateOpen tS (putAt (tmrCfgReset 2) 6 [1]) = false
    ∧ (let s := onTime (fun t => { t with mev := [2] }) tS; 2 ∈ s.time.mev ∧ 3 ∉ s.time.mev)
    ∧ tmrSlave ((tTmr (fun t => { t with cfg := putAt (tmrCfgReset 2) 6 [2] })).tmr 2).cfg = 2 := by decide
def tL (f : Link → Link) : State := onLink f tS
theorem test_wit_TongsLink :
    (tS.linkOn = true ∧ dirUp (tS.dir true) = true ∧ dirUp (tS.dir false) = true ∧ (0 : BitVec 8) = (tS.dir true).rx ∧ (255 : BitVec 8) ≠ (tS.dir true).rx)
    ∧ ((recvSeq true 1 1 tS).2 = false ∧ (recvSeq false 1 2 tS).2 = false ∧ (recvSeq false 1 3 tS).2 = false ∧ (recvSeq false 1 4 tS).2 = false ∧ (recvSeq true 1 7 tS).2 = false
        ∧ (recvSeq false 1 8 tS).2 = false ∧ (recvSeq true 1 9 tS).2 = false ∧ (recvSeq false 1 0xA tS).2 = false ∧ (recvSeq true 1 0xB tS).2 = false)
    ∧ (tS.mayLeave true 0 1 = true ∧ tS.mayLeave true 1 1 = false ∧ (let s := onFlt (fun f => { f with heldReq := [(0x62, 2)] }) tS; s.mayLeave true 0 1 = false ∧ s.mayLeave true 0 0xD = true))
    ∧ (let s := onDir false (fun d => { d with rx := 5, gap := true, nak := some 5 }) (tL (fun l => { l with report := .waiting, reject := .waiting }))
       s.link.report ≠ .no ∧ s.link.reject ≠ .no ∧ (s.dir false).nak = some 5 ∧ (s.dir false).gap = true ∧ (recvSeq true 0 0xB s).2 = true)
    ∧ (let s := onDir true (fun d => { d with replay := [(0, 0xB)], tx := 1 }) tS; replays (s.dir true) 0 = true ∧ replays (tS.dir true) 0 = false ∧ (recvSeq true 0 0xB s).2 = true)
    ∧ ((tS.dir true).failed0 = false ∧ (tS.dir true).fails0 + 1 ≠ 16 ∧ flitCrcOk 0 = false ∧ flitCrcOk (flitBits { epochLo := 1, seq := 2, typ := 1, payload := 3 }) = true)
    ∧ (let s := onDir true (fun d => { d with fails0 := 15 }) tS; (s.dir true).failed0 = false ∧ (s.dir true).fails0 + 1 = 16)
    ∧ (let s := onDir true (fun d => { d with failed0 := true }) tS; s.linkOn = true ∧ (s.dir true).failed0 = true ∧ (s.dir true).retrain0 = none ∧ (onDir true (fun d => { d with training0 := true }) s |>.dir true).training0 = true)
    ∧ (let s := onAnvil (fun a => { a with lastFn := 63 }) (onDir true (fun d => { d with failed0 := true, retrain0 := some 0, train0 := 1023 }) tS)
       (s.dir true).failed0 = true ∧ (s.dir true).retrain0 = some 0 ∧ (s.anvil.lastFn - 0).toNat < 64 ∧ (s.dir true).retrain0.isSome = true ∧ 1024 ≤ (s.dir true).train0 + 1)
    ∧ (let s := tL (fun l => { l with repMiss := 3 }); s.hearthUp = true ∧ s.parked = false ∧ 3 ≤ s.link.repMiss) ∧ (tL (fun l => { l with repMiss := 2 })).link.repMiss < 3
    ∧ (let s := tCanSt0 tS; tS.link.lost = false ∧ tS.link.lostA = false ∧ tS.link.lostH = false ∧ (s.can 0).st ≠ 0 ∧ (s.can 0).st ≠ 6 ∧ (s.can 0).after = none) := by decide
theorem test_wit_BlocksReportsAndRejoin :
    (let s := { tS with blk := some (1, 0, 0, .initial) }; (recvSeq true 0 1 s).2 = true ∧ (1 : BitVec 4) ≠ (s.anvil.epoch.truncate 4 : BitVec 4))
    ∧ (let s := { tS with blk := some (0, 0, 0, .initial) }; (recvSeq true 0 1 s).2 = true ∧ (0 : BitVec 4) = (s.anvil.epoch.truncate 4 : BitVec 4) ∧ s.anvil.orphan = false ∧ s.anvil.segs = []
        ∧ (0 : Nat) < 1 ∧ (0 : Nat) + 1 < 2 ∧ (0 : Fn) = s.anvil.lastFn + 1 ∧ (s.tbNow - s.time.anvilTb).toNat < 49600)
    ∧ (let s := { tS with blk := some (16, 0, 0, .initial) }; (16 : BitVec 4) = (s.anvil.epoch.truncate 4 : BitVec 4) ∧ (16 : BitVec 16) ≠ s.anvil.epoch)
    ∧ ((recvSeq true 0 7 tS).2 = true ∧ ¬ ((2 : BitVec 16) = nextEpoch tS.anvil.epoch) ∧ (1 : BitVec 16) = nextEpoch tS.anvil.epoch ∧ tS.anvil.epoch = 0)
    ∧ ((recvSeq false 0 3 tS).2 = true ∧ (recvSeq false 0 4 tS).2 = true ∧ (recvSeq true 0 9 tS).2 = true)
    ∧ (let s := tL (fun l => { l with dump := some true, step := .dumpFull }); (recvSeq false 0 0xA s).2 = true ∧ s.link.dump = some true ∧ s.link.step = .dumpFull)
    ∧ (let s := tL (fun l => { l with dump := some false, step := .dumpChanged }); (recvSeq false 0 0xA s).2 = true ∧ s.link.dump = some false ∧ s.link.step = .dumpChanged)
    ∧ (let s := tL (fun l => { l with step := .sent, reject := .waiting }); (recvSeq false 0 8 s).2 = true ∧ s.link.step = .sent ∧ s.link.reject ≠ .no)
    ∧ (let s := tL (fun l => { l with reject := .waiting }); (recvSeq false 0 8 s).2 = true ∧ s.link.step = .idle)
    ∧ (let s := onAnvil (fun a => { a with epoch := 1 }) (tL (fun l => { l with report := .waiting, step := .sent })); (recvSeq false 0 2 s).2 = true ∧ s.link.lost = false ∧ s.link.report ≠ .no
        ∧ dirUp s.link.h2a = true ∧ s.link.step = .sent ∧ s.anvil.epoch = nextEpoch s.link.repEpoch)
    ∧ (let s := tL (fun l => { l with report := .waiting }); (recvSeq false 0 2 s).2 = true ∧ s.link.lost = false ∧ s.link.step = .idle ∧ s.anvil.epoch = s.link.epoch ∧ s.anvil.orphan = false) := by decide
theorem test_wit_BlocksReportsAndRejoin_more :
    (tL (fun l => { l with epoch := 1 })).anvil.epoch ≠ (tL (fun l => { l with epoch := 1 })).link.epoch
    ∧ (let s := onFlt (fun f => { f with heldReq := [(0x62, 2)] }) tS; s.flt.heldReq = (0x62, 2) :: [] ∧ s.flt.reqFlight = [] ∧ s.link.lost = false ∧ s.quenchSeq = 0 ∧ replays s.link.h2a 0 = false ∧ s.linkOn = true
        ∧ dirUp s.link.h2a = true ∧ s.mayLeave true 0 0xD = true ∧ (recvSeq true 0 0xD s).2 = true)
    ∧ (let s := onDir true (fun d => { d with rx := 5 }) (onFlt (fun f => { f with heldReq := [(0x62, 2)] }) tS); s.mayLeave true 0 0xD = true ∧ (recvSeq true 0 0xD s).2 = false)
    ∧ (let s := onDir true (fun d => { d with tx := 1, buf := [(0, 0xD)], replay := [(0, 0xD)] }) (onFlt (fun f => { f with reqFlight := [(0x62, 2)] }) tS)
       s.flt.reqFlight = (0x62, 2) :: [] ∧ s.quenchSeq = 0 ∧ replays s.link.h2a 0 = true ∧ 0 ≠ s.link.h2a.tx ∧ (recvSeq true 0 0xD s).2 = true)
    ∧ (tS.flt.heldReq = [] ∧ tS.flt.reqFlight = []) ∧ (onLink (fun l => { l with lost := true }) tS).link.lost = true := by decide
/-- The digest of a REJOIN that Anvil accepts is its own, whatever octets Config has for its image. -/
theorem test_wit_BlocksReportsAndRejoin_digest : ∃ d, d = tS.digest := ⟨_, rfl⟩
def tMeas : FrameMeas := { ch := [], sinks := [], coils := [], bridges := [], vbats := 12000, vbat := [12000, 12000, 12000, 12000], rails := [], ain := List.replicate 16 0, vBad := 0, areas := [], tjBad := [], convBad := [], vout0 := [], adc := [], missed := [] }
theorem test_wit_AnvilFrames :
    (tPw 4).pwr.state = 4 ∧ tS.pwr.state < 2 ∧ tMeas.vout0 = []
    ∧ (let s := onAnvil (fun a => { a with valid := some (0, .initial) }) tS; let a := orphanLeave s.anvil
       a.valid = some (0, .initial) ∧ (0 : Fn) = a.lastFn + 1 ∧ a.orphan = false ∧ Com.initial.mode = s.sched.anvilMode ∧ s.sched.imgNew = false)
    ∧ (orphanLeave tS.anvil).valid = none
    ∧ (let s := onAnvil (fun a => { a with vals := { a.vals with chCfg := [(2, putAt (chCfgReset 2) 1 [0, 3])] } }) tS; s.modeA 2 ≠ 7 ∧ s.modeA 2 ≠ 4
        ∧ (if s.anvil.actHold then max (100 * cfHold (s.cfA 2)) 500 else 100 * cfHold (s.cfA 2)) ≠ 0)
    ∧ (let a := { Anvil.initial with orphan := true, rejoinF := some 0 }; a.orphan = true ∧ a.rejoinF = some (a.lastFn + 1)) := by decide

theorem tReady_ready (s : State) (h : tReady s) : CoreReady tOp s := ⟨by decide, rfl, h.1, h.2.1, 2, h.2.2.1, h.2.2.2⟩
/-- A ready core in the middle of a task and in a loop; the shifts and the accumulator shifts at their bounds. -/
theorem test_wit_CesynArithmetic : (∀ s ∈ [tK id, tK (fun k => { k with st := 128, le_ := 20 }), tK (fun k => { k with cycles := 255 })], tReady s)
    ∧ InLine 1 ((tK id).core 0) ∧ InLine 1 ((tK (fun k => { k with st := 128, le_ := 12 })).core 0) ∧ (23 : Nat) < 24 ∧ (24 : Nat) ≤ 24
    ∧ (-24 : Int) ≤ -24 ∧ (24 : Int) ≤ 24 ∧ (-25 : Int) < -24 ∧ (24 : Int) < 25 := by unfold tReady InLine; decide
/-- Operands at the bounds of saturation, of a word and of a packed half. -/
theorem test_wit_CesynArithmetic_sat : let sat (d1 d2 : W24) := (tK (fun k => { k with st := 32, d := [(1, d1), (2, d2)] })).core 0
    (stBit (sat 0 0) fSat = true ∧ ((sat 0x800000 0xFFFFFF).dr 1).toInt + ((sat 0x800000 0xFFFFFF).dr 2).toInt < -8388608
      ∧ 8388607 < ((sat 0x7FFFFF 1).dr 1).toInt + ((sat 0x7FFFFF 1).dr 2).toInt ∧ stBit ((tK id).core 0) fSat = false)
    ∧ (((sat 0x800 0xFFF).dr 1).extractLsb' 0 12).toInt + (((sat 0x800 0xFFF).dr 2).extractLsb' 0 12).toInt < -2048
    ∧ 2047 < (((sat 0x7FF 1).dr 1).extractLsb' 0 12).toInt + (((sat 0x7FF 1).dr 2).extractLsb' 0 12).toInt := by decide
/-- A read of TBL and then of TBH; addresses at the bounds of the data space; the stack at its bounds. -/
theorem test_wit_CesynMemory : let k := (tK id).core 0
    let e := coreEnv (tK id) 0
    ((dRead e k 0x1B000).isSome = true ∧ (dRead e k 0x1B001).isSome = true ∧ 0x1B004 < 0x1B005 ∧ (0x18FFF : Nat) < 0x19000 ∧ (0x1A100 : Nat) ≤ 0x1A100 ∧ (0x17FFF : Nat) < 0x18000)
    ∧ (∀ s ∈ [tK id, tK (fun k => { k with sp := 16 })], tReady s)
    ∧ (let j := (tK (fun k => { k with sp := 16 })).core 0; j.sp.toNat < j.sb.toNat + 1) ∧ (let j := (tK (fun k => { k with sp := 17 })).core 0; j.sb.toNat + 1 ≤ j.sp.toNat)
    ∧ (let j := (tK (fun k => { k with sp := 0x18001 })).core 0; j.sb.toNat + 1 ≤ j.sp.toNat ∧ 0x18000 < j.sp.toNat) ∧ (let j := (tK (fun k => { k with sp := 0x18000 })).core 0; j.sp.toNat ≤ 0x18000)
    ∧ k.sp = k.stackTop ∧ (let j := (tK (fun k => { k with sp := 0xFFF })).core 0; j.sp ≠ j.stackTop ∧ j.sp.toNat < 0x18000 ∧ (match popAll j.stackTop { j with sp := j.sp + 1 } 0 with | .ok r => r.1.isEmpty | .error _ => false) = true)
    ∧ (let j := (tK (fun k => { k with sp := 0x18000 })).core 0; j.sp ≠ j.stackTop ∧ 0x18000 ≤ j.sp.toNat) := by unfold tReady; decide
/-- LD of an immediate, LD and ST through a pointer, MOV, MACX: every read and write is to be had. -/
theorem test_wit_CesynMemory_moves : let k := (tK id).core 0
    let e := coreEnv (tK id) 0
    ((57 / 8 % 8 = 7 ∧ 57 % 8 = 1) ∧ (regWrite k 51 (0xFFFF : W24)).isSome = true ∧ (0xFFFF : W24).toNat < 65536 ∧ regWrite k 51 (0x10000 : W24) = none ∧ (regWrite k 3 (9 : W24)).isSome = true)
    ∧ ((eaAddr k 8 0).isSome = true ∧ (dRead e k 0).isSome = true ∧ (regRead k 3).isSome = true ∧ (dWrite e k 0 9).isSome = true)
    ∧ (eaPtr k 1 0).isSome = true ∧ (eaPtr k 1 4).isSome = true
    ∧ (let j := (tK (fun k => { k with st := 32, a := [(1, 0x00800000000000)] })).core 0; stBit j fSat = true ∧ guardOvf (j.acc 1) = true) ∧ guardOvf (k.acc 1) = false ∧ stBit k fSat = false := by decide
/-- A consumer's port with a cell to read and with none, with and without a mark; the numbers of the port words. -/
theorem test_wit_CesynMemory_ports : let x : Port := { Port.initial with q := some 2048, view := [{ kind := 0, first := true, last := true, fill := 1, admFn := 0, data := [7] }] }
    x.q.isSome = true ∧ x.producer = false ∧ (x.view[x.read]?).isSome = true ∧ (({ x with read := 1 } : Port).view[1]?) = none ∧ x.mark = none ∧ ({ x with mark := some 0 } : Port).mark = some 0
      ∧ (15 : Nat) < 16 ∧ (7 : Nat) < 8 := by decide
abbrev tFree (k : Core) : Prop := stBit k fLoop = true → k.pc + 1 ≠ k.le_
abbrev tRoom (k : Core) (n : Nat) : Prop := k.sb.toNat + n ≤ k.sp.toNat ∧ k.sp.toNat ≤ 0x18000
abbrev tHeld (k : Core) (n : Nat) : Prop := ∀ i, i < n → k.sp + BitVec.ofNat 17 i ≠ k.stackTop ∧ (k.sp + BitVec.ofNat 17 i).toNat < 0x18000
abbrev tLast (k : Core) : Prop := stBit k fLoop = true ∧ k.pc + 1 = k.le_
def tAt (f : Core → Core) : Core := (tK f).core 0
theorem test_wit_CesynControl :
    (tFree (tAt id) ∧ condHolds (tAt id) 0 = some true ∧ condHolds (tAt id) 1 = some false ∧ (14 : Nat) ≤ 14 ∧ ¬ tFree (tAt (fun k => { k with st := 128, le_ := 11 })))
    ∧ tRoom (tAt (fun k => { k with sp := 17 })) 1 ∧ tHeld (tAt (fun k => { k with sp := 0xFFF })) 1 ∧ tHeld (tAt (fun k => { k with sp := 0xFFA })) 6
    ∧ ((12 : BitVec 16).toNat ≤ ((tAt id).pc + 2).toNat ∧ ((tAt id).pc + 2).toNat < (13 : BitVec 16).toNat ∧ stBit (tAt id) fLoop = false)
    ∧ (let k := tAt (fun k => { k with st := 128, le_ := 20, sp := 19 }); tFree k ∧ stBit k fLoop = true ∧ tRoom k 3)
    ∧ (let k := tAt (fun k => { k with st := 128, le_ := 20, lc := 2 }); (k.pc + 2).toNat < (20 : BitVec 16).toNat ∧ (20 : BitVec 16) = k.le_ ∧ (19 : BitVec 16) ≠ k.le_ ∧ 1 < k.lc.toNat)
    ∧ (let k := tAt (fun k => { k with st := 128, le_ := 12, lc := 2 }); tFree k ∧ stBit k fRes = false ∧ k.pc + 2 = k.le_ ∧ 1 < k.lc.toNat)
    ∧ (let k := tAt (fun k => { k with st := 64, rc := 0 }); tFree k ∧ stBit k fRes = true ∧ k.rc = 0 ∧ stBit k fLoop = false) := by decide
theorem test_wit_CesynControl_loops :
    (tLast (tAt (fun k => { k with st := 128, le_ := 11, lc := 2 })) ∧ 1 < (tAt (fun k => { k with lc := 2 })).lc.toNat)
    ∧ (let k := tAt (fun k => { k with st := 128, le_ := 11, lc := 1 }); tLast k ∧ k.lc.toNat ≤ 1 ∧ k.nest.headD false = false)
    ∧ (let k := tAt (fun k => { k with st := 128, le_ := 11, lc := 1, nest := [true, false], sp := 0xFFD }); tLast k ∧ k.lc.toNat ≤ 1 ∧ k.nest.headD false = true ∧ tHeld k 3)
    ∧ (let k := tAt (fun k => { k with st := 64, rc := 3 }); tFree k ∧ stBit k fRes = true ∧ k.rc ≠ 0) ∧ stBit (tAt id) fRes = false ∧ (4096 : Nat) > 4095 ∧ (tAt id).cut = false
    ∧ (let k := tAt (fun k => { k with rep := some 9, rc := 2 }); k.rep = some 9 ∧ InLine 1 k ∧ 1 < k.rc.toNat) ∧ (tAt (fun k => { k with rep := some 9, rc := 1 })).rc.toNat ≤ 1 := by
  unfold InLine
  decide
/-- BMOV of two elements whole, and cut after one; BFLY of one; one element of BMOV. -/
theorem test_wit_CesynControl_blocks : let s := tK (fun k => { k with d := [(0, 2)], n := [(0, 1), (1, 1)], p := [(1, 100)] })
    let k := s.core 0
    let e := coreEnv s 0
    let go (f : Nat → Core → Except Nat (Core × Nat)) (n : Nat) : Core × Nat × Nat × Option Nat := blockGo f n 0 0 0 { k with st := k.st &&& ~~~64#24, rc := BitVec.ofNat 24 (k.dr 0).toNat, cut := false }
    tReady s ∧ (k.dr 0).toNat ≤ 4095 ∧ min ((none : Option Nat).getD (k.dr 0).toNat) (k.dr 0).toNat = 2 ∧ min ((some 1).getD (k.dr 0).toNat) (k.dr 0).toNat = 1
      ∧ (∀ m ∈ [1, 2], let r := go (fun _ => bmovOne e false 0 1) m; r.2.1 = m ∧ r.2.2.2 = none ∧ stBit r.1 fLoop = stBit k fLoop ∧ r.1.le_ = k.le_)
      ∧ (let r := go (bflyOne e false) 2; r.2.1 = 2 ∧ r.2.2.2 = none ∧ stBit r.1 fLoop = stBit k fLoop ∧ r.1.le_ = k.le_)
      ∧ k.amc = 0 ∧ (k.ptr 0).toNat < 0x18000 ∧ (k.ptr 1).toNat < 0x18000 := by
  unfold tReady
  decide
theorem test_wit_CesynTasks :
    (taskEnt tTask.sched.img tTask.modeNow 2 = some (tTaskImg, 100) ∧ (tTask.taskDesc 2).isSome = true ∧ tTask.taskOn 2 = false)
    ∧ (let s := onTask 2 (fun t => { t with stored := some true }) tTask
       s.hearthUp = true ∧ s.taskOn 2 = true ∧ s.taskHeld 2 = false ∧ (s.core (tdCore ((s.taskDesc 2).getD []))).run = none ∧ startFrame (ird tTaskImg 103 1) (ird tTaskImg 104 1) s.fn = true)
    ∧ (tReady (tK id) ∧ ((tK id).core 0).run = some 2)
    ∧ (let s := tK (fun k => { k with safe := 1, sp := 22 }); let k := s.core 0; k.safe = 1 ∧ tdSafe ((s.taskDesc 2).getD []) ≠ 65535 ∧ k.sp.toNat ≤ 0x18000 ∧ k.sb.toNat + 6 ≤ k.sp.toNat)
    ∧ (let k := (tK (fun k => { k with safe := 1, sp := 16 })).core 0; k.sp.toNat < k.sb.toNat + 1)
    ∧ (((tK id).core 0).safe ≠ 1 ∧ ((tK id).core 0).cycles < (coreEnv (tK id) 0).budget ∧ (coreEnv (tK (fun k => { k with cycles := 256 })) 0).budget ≤ ((tK (fun k => { k with cycles := 256 })).core 0).cycles
        ∧ ((tK id).core 0).run ≠ none ∧ (tTask.core 0).run = none) := by
  unfold tReady
  decide
/-- Task 2 held by a severe fault of its own of class 2, and a running core. -/
theorem test_wit_CesynTasks_held : (onFltInst 0x0E1 2 (fun x => { x with severe := true, acted := true, cls := 2 }) tTask).taskHeld 2 = true := by decide

/-- tBank with ACCESS_TABLES of one token: TID 7, INDEX 3, key slot 2, which may start the engine. -/
def tAccBank : Tab Octet := tBank ++ [(260, 132), (8192, 1), (8196, 7), (8200, 3), (8201, 2), (8202, 1)]
def tAtt (f : Attempt → Attempt) : State := tAcc (onAcc (fun a => { a with att := some (f Attempt.initial), uhfEn := true }) (tTick 0 tS))
def tImmo (f : Immo → Immo) : State := onImmo f tS
def tExch : Exch := { cred := 1, action := 2, mask := 1, reqSeq := 5, h := zeros 32, nD := zeros 16, kPh := zeros 16, chalTb := 7 }
def tVt : ValidToken := { index := 3, immo := true, zone := 0, score := 9, slot := 3, sweep := 0, ks := [], nt := [], nv := [] }
/-- Requests and phones: an attempt may start, an exchange is open or not, a phone stands. -/
theorem test_wit_AccessAndImmobiliser_phone :
    (tImmo (fun m => { m with st := 1 })).acc.immo.st ≠ 0 ∧ tS.acc.att = none ∧ tS.acc.wait = none ∧ tS.exch 0 = none
      ∧ (onAcc (fun a => { a with exch := [(0, some tExch)] }) tS).exch 0 = some tExch
      ∧ (tImmo (fun m => { m with phone := some (7, zeros 16) })).acc.immo.phone = some (7, zeros 16) ∧ (1 : Nat) ≠ 0 := by decide
/-- Failures within 120 s and past them, of an identity locked before or never; locks that end. -/
theorem test_wit_AccessAndImmobiliser_locks : let t : Tb := 10000000000
    let k (old : Tb) (n : Nat) : LockRec := { LockRec.initial with fails := [t, t, t, old], repeats := n, dur := 180 }
    (∀ x ∈ [k 4000000000 0, k 4000000000 1, k 3999999999 0], lockedAt x t = false) ∧ (k 0 0).fails = [t, t, t] ++ [0] ∧ LockRec.initial.fails.length < 4
      ∧ (t - (4000000000 : Tb)).toNat ≤ 120 * 50000000 ∧ 120 * 50000000 < (t - (3999999999 : Tb)).toNat
      ∧ (let s := onLock 2 7 (fun _ => { LockRec.initial with lockEnd := some 99, repeats := 1, lastFail := some 9 }) tS
         (s.lock 2 7).lockEnd = some 99 ∧ (s.lock 2 7).lastFail = some 9 ∧ (s.lock 2 7).repeats ≠ 0) ∧ (tS.lock 2 7).lockEnd = none ∧ (tS.lock 2 7).repeats = 0 := by decide
/-- Plans: usable or not, in their frame; each step, an aerial on or off. -/
theorem test_wit_AccessAndImmobiliser_plans :
    (let s := tAtt id; s.hearthUp = true ∧ Attempt.initial.planFn = none ∧ ((0 : Fn) - s.fn).toInt ≤ 0 ∧ planUsable s.sched.img s.com.mode s.acc.cfg 0 0 = true ∧ planUsable none s.com.mode s.acc.cfg 0 0 = false)
    ∧ (∀ k ∈ List.range 11, let a := { Attempt.initial with planFn := some 10, step := if k = 0 then 255 else k - 1 }; ((nextStep (tAtt (fun _ => a)) a).map (·.1)) = some k)
    ∧ (let s := onAcc (fun a => { a with lfOn := 128 }) tS; bit s.acc.lfOn 7 = true ∧ bit s.acc.lfOn 6 = false ∧ ¬ (8 : Nat) ≤ 7) := by decide
/-- Replies: in a slot and in none; a known token in its slot, at 1 us from its start, answering a sweep and a re-sweep. -/
theorem test_wit_AccessAndImmobiliser_replies : let a : Attempt := { Attempt.initial with step := 10 }
    let s := tKey 2 1 16 (onUpd (fun u => { u with bankA := tAccBank }) (tAtt (fun _ => a)))
    let c := s.acc.cfg
    let at_ (k : Nat) (d : Nat) : Tb := BitVec.ofNat 48 (50 * (afDelay c + 2000 * k) + 50 + d)
    s.hearthUp = true ∧ s.acc.uhfEn = true ∧ slotOf c 0 (at_ 3 0) 8 100 = some 3 ∧ slotOf c 0 0 8 100 = none ∧ a.kind ≠ 2
      ∧ (slotDelta c 0 (at_ 3 50) 3 100).natAbs = 100 ∧ ((tokens s).find? (fun e => tkTid e = rd ([7, 0, 0, 0] ++ zeros 24) 0 4)).map tkIndex = some 3
      ∧ lockedFor s 7 a.first = false ∧ (tokens s).map tkSlot = [2] := by decide

theorem test_wit_AccessAndImmobiliser_key : keyOk (tKey 2 1 16 tS) 2 [1, 2] 4 = true := by
  unfold keyOk unitCount
  generalize Config.variantK = v
  revert v
  decide
/-- The MAC that token 7 answers nonces of zeros with, under the session key of slot 2. -/
def tMac : Rec :=
  let s := tKey 2 1 16 (tAtt id)
  let ks := cmac (kyMat (s.key 2).rec_) (zeros 8 ++ zeros 8 ++ ascii "SESS")
  (cmac ks (le 4 (afVid s.acc.cfg) ++ le 4 7 ++ zeros 8 ++ zeros 8 ++ zeros 8)).take 8
/-- A reply with the right MAC, and one without. -/
theorem test_wit_AccessAndImmobiliser_mac : let p (m : Rec) : Rec := [7, 0, 0, 0] ++ zeros 16 ++ m
    tMac.length = 8 ∧ sub (p tMac) 20 8 = tMac ∧ (sub (p (zeros 8)) 20 8 ≠ tMac ∨ sub (p (1 :: zeros 7)) 20 8 ≠ tMac) := by
  have h : tMac.length = 8 := by decide
  refine ⟨h, ?_, ?_⟩
  · generalize tMac = m at h
    simp only [sub, zeros]
    simp [h, List.take_of_length_le]
  · by_cases hz : sub ([7, 0, 0, 0] ++ zeros 16 ++ zeros 8) 20 8 = tMac
    · refine .inr ?_
      rw [← hz]
      decide
    · exact .inl hz
/-- A credential slot that serves a phone, whichever die it is. -/
theorem test_wit_AccessAndImmobiliser_credential : keyServes (tKey 2 4 32 tS) 2 [4] 5 = true := by
  unfold keyServes unitCount
  generalize Config.variantK = v
  revert v
  decide

/-- An image with a plan 1 that can serve as RESWEEP_PLAN. -/
def tRsImg : Tab Octet :=
  let run (o step frame n : Nat) (aerials : Nat → Nat) : Tab Octet := (List.range n).flatMap (fun k => (o + 8 * k, 1) :: tLf (o + 8 * k) (if step = 2 then 2 + k else step) (frame + k) 250 (aerials k))
  [(6, 1), (24, 1), (64, 0x0A), (66, 42), (68, 100)] ++ run 100 1 3 17 (fun _ => 1) ++ run 236 2 20 8 (2 ^ ·) ++ run 300 10 28 17 (fun _ => 0)
/-- The last REPLY step: aborted, a poll, an attempt with a garbled slot that a re-sweep takes, and one that is decided with a token or without. -/
theorem test_wit_AccessAndImmobiliser_decision : let a : Attempt := { Attempt.initial with step := 10 }
    let rs (s : State) : State := onUpd (fun u => { u with bankA := tAccBank }) (onAcc (fun x => { x with cfg := putAt (putAt x.cfg 6 [0x10]) 7 [0x10] }) (onSched (fun x => { x with img := some tRsImg }) s))
    (∀ b ∈ [{ a with abort := 4 }, { a with kind := 1 }, a, { a with valid := [tVt] }], (tAtt (fun _ => b)).acc.att = some b ∧ b.step = 10 ∧ b.decided = none ∧ (tAtt (fun _ => b)).hearthUp = true)
      ∧ (∀ b ∈ [a, { a with valid := [tVt] }], b.abort = 0 ∧ b.kind = 0 ∧ resweepIndex (lfQuiet (advTo b.stepEnd (tAtt (fun _ => b)))) b = none)
      ∧ authToken a.valid = none ∧ authToken [tVt] = some tVt
      ∧ (let b := { a with garbled := [3] }; let s := rs (tAtt (fun _ => b)); resweepIndex s b = some 3 ∧ (resweepIndex (lfQuiet (advTo b.stepEnd s)) b).isSome = true ∧ s.hearthUp = true) := by decide
/-- Calibration and the immobiliser: idle or not, each state of a session at the bound of its counters, a refresh that stands. -/
theorem test_wit_AccessAndImmobiliser_cal :
    (let c (n : Nat) : State := onAcc (fun a => { a with cfg := putAt a.cfg 32 [BitVec.ofNat 8 n] }) tS
     afCalPeriod (c 1).acc.cfg ≠ 0 ∧ afRef (c 1).acc.cfg = false ∧ accIdle (c 1) = true ∧ (c 1).hearthUp = true ∧ afCalPeriod (c 0).acc.cfg = 0)
    ∧ (∀ l ∈ [62, 63], let r : CalRun := { ctx := 1, seq := 5, reference := none, meas := List.replicate l 7, runs := 0 }
        (onAcc (fun a => { a with calRun := some r }) tS).acc.calRun = some r ∧ r.reference = none ∧ (63 ≤ r.meas.length ↔ l = 63))
    ∧ (∀ n ∈ [4, 5], (tImmo (fun m => { m with st := 1, tries := n })).hearthUp = true) ∧ (0xFFFFFFFE : Nat) < 0xFFFFFFFF ∧ (0xFFFFFFFF : Nat) ≤ 0xFFFFFFFF
    ∧ (let s := tImmo (fun m => { m with st := 2, lfIndex := 3, lf := some 9 }); s.acc.immo.st ≠ 0 ∧ s.acc.immo.lfIndex ≠ 255 ∧ (absentAt s).isSome = true ∧ s.acc.att = none)
    ∧ (let s := onImmo (fun m => { m with st := 2, lfIndex := 3 }) (onAcc (fun a => { a with att := some { Attempt.initial with kind := 1 } }) tS); s.acc.att ≠ none ∧ s.acc.immo.lfIndex ≠ 255)
    ∧ planUsable (tAcc tS).sched.img tS.com.mode (tAcc tS).acc.cfg 1 (afPoll (tAcc tS).acc.cfg) = true ∧ (tAcc tS).acc.att = none := by decide
/-- A Cesyn instruction at the bounds of its operands, and the words it encodes to. -/
theorem test_wit_CesynDecodeOfEncode : (Instr.add tOp 7 7 7).wf = true ∧ (encodeCesyn (.add tOp 7 7 7)).isSome = true ∧ (decodeCesyn tOp none 0 0).isSome = true := by decide
/-- Well-formed tables of generations: after reset, and one at the wrap. -/
theorem test_wit_RolesStayWellFormed : (twf roleDef tS.roles = true ∧ GensOk tS) ∧ twf roleDef (tState [7]).roles = true ∧ ({ owner := 1, gen := 0xFFFF } : Role).gen ≠ 0 :=
  ⟨⟨rfl, fun k => by unfold State.role; exact (by decide : Role.initial.gen ≠ 0)⟩, by decide⟩

/-! ### Values the spec or a standard it names gives -/
def tAns (o : Host.Outcome State Fault Refusal) (p : State → Bool) : Bool := match o with | .next t => p t | _ => false
/-- The check value of CRC-32C over "123456789" (its catalogue), and of the CRC of R502. -/
theorem test_crcs : crc32c (ascii "123456789") = 0xE3069283 ∧ crc16 (ascii "123456789") = 0x29B1 := by decide
/-- The check value of CRC-64/ECMA-182 over "123456789" (its catalogue). -/
theorem test_crc64 : crc64 (ascii "123456789") = 0x6C40DF5F0B497347 := by decide
/-- FIPS 197, appendix C.1. -/
theorem test_aes : aes ((List.range 16).map (BitVec.ofNat 8)) (be 16 0x00112233445566778899aabbccddeeff) = be 16 0x69c4e0d86a7b0430d8cdb78070b4c55a := by decide
/-- FIPS 180-4: SHA-256 of "abc". -/
theorem test_sha : sha256 (ascii "abc") = be 32 0xba7816bf8f01cfea414140de5dae2223b00361a396177a9cb410ff61f20015ad := by decide
/-- The base point of P-256 lies on the curve; twice it has the x that the standard's test vectors give. -/
theorem test_p256 : onCurve p256G = true ∧ (ecAdd (some p256G) (some p256G)).map (·.1) = some 0x7cf27b188d034f7e8a52380304b51ac3c08969e277f21b35a60b48fc47669978 := by decide
/-- The protected identifiers of LIN frames 3Ch and 3Dh are 3Ch and 7Dh. -/
theorem test_linPid : linPid 0x3C = 0x3C ∧ linPid 0x3D = 0x7D := by decide
/-- "Example: dimming curve of one sink": on-times at XOVER 3 over 41,667 ticks. -/
theorem test_dimming : [8191, 4096, 512, 64, 1].map (fun b => pulseTicks (tB 24 [(1, 1, 6)]) b 41667) = [41661, 20833, 2604, 325, 5] := by decide
/-- "Example: timing and filtering a body bus": base identifier 123h of CAN2 falls into bucket 307. -/
theorem test_canBucket : canBucket 0x123 false 2 = 307 := by decide
/-- "Example: reserving a LIN frame": 8, 2 and 4 octets at 19,200 bit/s with BREAK 13 need 10, 5 and 7 frames, at 9,600 bit/s 8 octets need 19. -/
theorem test_linFits : let c (r : Nat) : Rec := tB 16 [(1, 2, r), (3, 1, 13)]
    mfBitrate (c 19200) = 19200 ∧ mfBreak (c 19200) = 13 ∧ [(8, 10), (8, 9), (2, 5), (2, 4), (4, 7), (4, 6)].map (fun e => linFits (c 19200) e.1 e.2) = [true, false, true, false, true, false]
      ∧ linFits (c 9600) 8 18 = false ∧ linFits (c 9600) 8 19 = true := by decide
/-- "Example: compares across a long park": the time base at the wake, its error bound. -/
theorem test_parkTime : let s := restoreTb 1184648000 (onTime (fun t => { t with ptS := 5000000, tbS := 600000000000 }) (onPwr (fun p => { p with xtal32 := true, cfg := tB 20 [(4, 2, 20)] }) tS))
    pwPpm s.pwr.cfg = 20 ∧ s.tbNow = 2400000000000 ∧ s.time.errBound = 36003052 ∧ s.time.restored = true := by decide
/-- The same example: CMP6 fires late at tick 200 of frame F, misses 8,000 and is armed for 2,400,050,000,000. -/
theorem test_lateCompare : tAns (exec (.compareFire 6) (onCmpRun 6 (fun _ => { armed := true, value := 2000000000000, period := 50000000, late := true, fires := 0, missedTotal := 0 })
    (onTime (fun t => { t with tb := 2400001750000 }) (onClk (fun c => { c with frameTb := 2400001750000 }) tS))))
      (fun t => let x := t.cmpRun 6; x.armed && x.value = 2400050000000 && x.missedTotal = 8000 && x.fires = 1 && t.tbNow = 2400001750200) = true := by decide
/-- "Example: thermal cycling on a seat heater": the fifth shutdown in the window of 60 s is severe; one more than 60 s after WIN_START begins a window. -/
theorem test_faultWindow : let at_ (sec n : Nat) : FltInst := ((raise 0x068 17 (onFltInst 0x068 17 (fun x => { x with count := n, winStart := secTicks 63 }) (onTime (fun t => { t with tb := secTicks sec }) tS))).fltInst 0x068 17)
    (at_ 110 4).severe = true ∧ (at_ 95 3).severe = false ∧ (at_ 95 3).count = 4 ∧ (at_ 124 4).severe = false ∧ (at_ 124 4).count = 1 ∧ (at_ 124 4).winStart = secTicks 124 := by decide
/-- "Example: two tokens": with CAL_OFFSET 3.20 us tokens A and B answer 0.4 us late in slot 1 and 0.5 us early in slot 4 of T_END 28 ms. -/
theorem test_slots : let c : Rec := putAt accCfgReset 8 (le 2 1000)
    let us (n : Nat) : Tb := BitVec.ofNat 48 (n * 5)
    slotOf c (us 280000) (us 310036) 8 320 = some 1 ∧ slotDelta c (us 280000) (us 310036) 1 320 = 40 ∧ slotOf c (us 280000) (us 370027) 8 320 = some 4 ∧ slotDelta c (us 280000) (us 370027) 4 320 = -50 := by decide

/-! ### Well-formedness: one term per kind of check that it refuses -/
theorem test_wf_refuses_packets : ∀ i ∈ [Instr.ping { tHdr with ctx := 16 } [], .ping { tHdr with creditRet := 65536 } [], .qPush tHdr (zeros 4077), .ctxResetDone 16, .packetAccept 16,
    .hspiWrite 2 0 [], .hspiWrite 0 1 [0, 0], .hspiRead 0 65536 0, .busFlit true { BusLines.recessive with can := [] }, .flitCrcError true 2 { raw := 0, lost := none },
    .busFlit true { BusLines.recessive with edges := [1, 2, 3] :: List.replicate 7 [] }], i.wf = false := by decide
theorem test_wf_refuses_cesyn : ∀ i ∈ [Instr.nop { core := 4, ecc := 0 }, .nop { core := 0, ecc := 3 }, .br tOp 16 0, .br tOp 0 8192, .br tOp 0 (-8193), .loopDo tOp false 8 0 0,
    .loopDo tOp false 0 16384 0, .loopDo tOp true 0 1 0, .rep tOp false 0 4096, .bmov tOp false 8 0 0 none, .bfly tOp 8 false none, .ld tOp 64 0 0, .ld tOp 0 64 0, .st tOp 0 47 1, .mov tOp 64 0,
    .add tOp 8 0 0, .cmp tOp 0 8, .shl tOp 0 0 32, .mpy tOp 4 0 0, .clr tOp 4, .asha tOp 0 0 32, .macx tOp 0 0 0 4 0 4, .macx tOp 0 0 0 0 0 3, .queuePortWordWrite tOp 0 32 0], i.wf = false := by decide
theorem test_wf_refuses_events : ∀ i ∈ [Instr.taskActivation 64 [], .budgetTrap 4, .orphanHoldExpiry 64, .sinkHoldExpiry 36, .dirEdge 16 true, .lhinChange 8 true, .dtjEvaluation 0 0 [], .bridgeStall 8,
    .compareFire 256, .timerOverflow 16, .debouncedEdge 96 true, .canFrameReceived 0 (2 ^ 32) 0 [], .canFrameReceived 0 0 0 (zeros 65), .canTxAttemptEnd 0 64 0 none, .canWakeFrame 0 0 16 [] false,
    .linHeaderStart 0 64, .linFrameEnd 12 0 [], .lfAerialFault 8 true, .lockExpiry 4 0, .wakeEvent 7 0 0, .railFault 5 0, .snsFault 2, .droopClear 7, .ledPulsePeriodStart 36], i.wf = false := by decide
/-! ### Words written out bit by bit from R414 -/
/-- The word of bits [23:0], the most significant first. -/
def tBits (s : String) : Nat := (s.toList.filter (fun c => c = '0' || c = '1')).foldl (fun a c => 2 * a + (if c = '1' then 1 else 0)) 0
def tDec (s : String) (ext : W24) : Option Instr := decodeCesyn tOp none (tBits s) ext
theorem test_decode_flow : tDec "000000 000001 000000000000" 0 = some (.tend tOp) ∧ tDec "000000 000011 000000000000" 0 = some (.rett tOp) ∧ tDec "000000 000100 000000000000" 0 = none
    ∧ tDec "000001 0010 11111111111110" 0 = some (.br tOp 2 (-2)) ∧ tDec "000010 1 00000000000000000" 0x1234 = some (.call tOp 0x1234) ∧ tDec "000010 0 00000000000000001" 0 = none
    ∧ tDec "000011 0 000 00000000001000" 0x40 = some (.loopDo tOp false 0 8 0x40) ∧ tDec "000011 1 101 00000000000000" 0x40 = some (.loopDo tOp true 5 0 0x40)
    ∧ tDec "000100 0 000 00 000000010000" 0 = some (.rep tOp false 0 16) ∧ tDec "000101 1 000 001 011 00000000" 0 = some (.bmov tOp true 0 1 3 none)
    ∧ tDec "000110 111 1 00000000000000" 0 = some (.bfly tOp 7 true none) ∧ tDec "000111 000000000000000000" 0 = none := by decide
theorem test_decode_data : tDec "001000 000011 110001 000000" 9 = some (.ld tOp 3 49 9) ∧ tDec "001001 000011 001100 000000" 9 = some (.st tOp 3 12 0) ∧ tDec "001010 000001 100000 000000" 0 = some (.mov tOp 1 32)
    ∧ tDec "010000 0000 001 010 011 00000" 0 = some (.add tOp 1 2 3) ∧ tDec "010000 0001 001 010 011 00000" 0 = some (.sub tOp 1 2 3) ∧ tDec "010000 0101 000 010 011 00000" 0 = some (.cmp tOp 2 3)
    ∧ tDec "010000 1001 001 010 011 00000" 0 = some (.psub tOp 1 2 3) ∧ tDec "010000 1010 001 010 011 00000" 0 = none ∧ tDec "010001 010 001 010 10111 0000" 0 = some (.asr tOp 1 2 23)
    ∧ tDec "010010 0100 11 010 011 000000" 0 = some (.macf tOp 3 2 3) ∧ tDec "010011 0110 01 10 101000 0000" 0 = some (.asha tOp 1 2 (-24)) ∧ tDec "010011 0011 01 00 000000 0000" 0 = some (.rnd tOp 1)
    ∧ tDec "010100 100 00 001 00 010 00 000" 0 = some (.macx tOp 4 0 1 0 2 4) := by decide
/-! ### Results of R405 worked by hand -/
theorem test_add_wraps : tAns (exec (.add tOp 1 1 2) (tK (fun k => { k with d := [(1, 0x7FFFFF), (2, 1)] })))
    (fun t => let k := t.core 0; k.dr 1 = 0x800000 && stBit k fV && stBit k fN && !(stBit k fZ) && !(stBit k fC) && k.pc = 11 && k.cycles = 1) = true := by decide
theorem test_add_saturates : tAns (exec (.add tOp 1 1 2) (tK (fun k => { k with st := 32, d := [(1, 0x7FFFFF), (2, 1)] })))
    (fun t => let k := t.core 0; k.dr 1 = 0x7FFFFF && stBit k fV && stBit k fL) = true := by decide
theorem test_mpy_signs : tAns (exec (.mpy tOp 1 1 2) (tK (fun k => { k with d := [(1, 0xFFFFFE), (2, 3)] }))) (fun t => ((t.core 0).acc 1).toInt = -6) = true
    ∧ tAns (exec (.pmacu tOp 1 1 2) (tK (fun k => { k with d := [(1, 0x002FFF), (2, 0x003FFF)] }))) (fun t => ((t.core 0).acc 1).toInt = 6 + 4095 * 4095) = true := by decide
theorem test_asr : tAns (exec (.asr tOp 1 2 4) (tK (fun k => { k with d := [(2, 0x800010)] }))) (fun t => (t.core 0).dr 1 = 0xF80001) = true
    ∧ tAns (exec (.rol tOp 1 2 4) (tK (fun k => { k with d := [(2, 0x800010)] }))) (fun t => (t.core 0).dr 1 = 0x000108) = true := by decide
theorem test_taken_branch : tAns (exec (.br tOp 0 (-2)) (tK id)) (fun t => (t.core 0).pc = 9 && (t.core 0).cycles = 2) = true := by decide
/-! ### The step -/
theorem test_step_empty : tAns (step tS) (fun t => t.tbNow = tS.tbNow + 1 && t.pending = []) = true := by decide
theorem test_step_takes_front : tAns (step { tS with pending := [.lhNChange false, .flashToggle] }) (fun t => t.pending = [.flashToggle]) = true := by decide

end Sys2Proof.Machine
end

namespace Sys2Proof.Machine

/-! ### Directions and sequenced flits (R32, R36) -/

@[simp] theorem onDir_same (d : Bool) (f : Dir → Dir) (s : State) : (onDir d f s).dir d = f (s.dir d) := by cases d <;> rfl

@[simp] theorem onDir_other (d : Bool) (f : Dir → Dir) (s : State) : (onDir d f s).dir (!d) = s.dir (!d) := by cases d <;> rfl

@[simp] theorem onDir_flip (d : Bool) (f : Dir → Dir) (s : State) : (onDir (!d) f s).dir d = s.dir d := by cases d <;> rfl

theorem onDir_congr (d : Bool) (f g : Dir → Dir) (s : State) (h : f (s.dir d) = g (s.dir d)) : onDir d f s = onDir d g s := by
  cases d
  · exact congrArg (fun x => onLink (fun l => { l with a2h := x }) s) h
  · exact congrArg (fun x => onLink (fun l => { l with h2a := x }) s) h

/-- A change of the link that leaves both directions as they are. -/
theorem onLink_dir (f : Link → Link) (s : State) (d : Bool) (h : (f s.link).h2a = s.link.h2a) (k : (f s.link).a2h = s.link.a2h) : (onLink f s).dir d = s.dir d := by
  cases d
  · exact k
  · exact h

/-- What a sender's part changes of a direction: its next SEQ, its replay buffer and the list of those to be replayed. -/
theorem sendSeq_fields (q : BitVec 8) (typ : Nat) (d : Dir) : ∃ t b r, sendSeq q typ d = { d with tx := t, buf := b, replay := r } := by
  unfold sendSeq
  split
  · split
    · exact ⟨_, _, _, rfl⟩
    · split <;> exact ⟨_, _, _, rfl⟩
  · split <;> exact ⟨_, _, _, rfl⟩

/-- A fresh flit takes its place in the replay buffer. -/
theorem sendSeq_fresh (q : BitVec 8) (typ : Nat) (d : Dir) (hr : replays d q = false) (hq : q = d.tx) :
    sendSeq q typ d = { d with tx := d.tx + 1, buf := (d.buf ++ [(q, typ)]).drop (d.buf.length - 127) } := by
  unfold replays at hr
  unfold sendSeq
  split
  · rename_i r _ _ e
    rw [e] at hr
    rw [if_neg (by simpa using hr), if_pos hq]
  · rw [if_pos hq]

/-- The place that a flit takes as it leaves is that of its own TYPE: the waiting NAK of the other direction, or a flag of the link. -/
theorem flitLeft_dir (d : Bool) (typ : Nat) (s : State) : (flitLeft d typ s).dir d = s.dir d := by
  unfold flitLeft
  cases d <;> dsimp only <;> (repeat' split) <;> rfl

theorem flitLeft_other (d : Bool) (typ : Nat) (s : State) :
    (flitLeft d typ s).dir (!d) = if typ = 0xB then { s.dir (!d) with nak := none } else s.dir (!d) := by
  unfold flitLeft
  cases d <;> dsimp only <;> (repeat' split) <;> rfl

/-- The sender's part in a sequenced flit: it takes its SEQ and its place. -/
def flitSent (d : Bool) (q : BitVec 8) (typ : Nat) (s : State) : State := flitLeft d typ (onDir d (sendSeq q typ) s)

theorem flitSent_frame (d : Bool) (q : BitVec 8) (typ : Nat) (s : State) : Only [.link] s (flitSent d q typ s) :=
  (flitLeft_frame d typ _).after (fun _ h => h) (onDir_frame d _ s)

theorem flitSent_dir (d : Bool) (q : BitVec 8) (typ : Nat) (s : State) : (flitSent d q typ s).dir d = sendSeq q typ (s.dir d) := by
  unfold flitSent
  rw [flitLeft_dir, onDir_same]

theorem flitSent_other (d : Bool) (q : BitVec 8) (typ : Nat) (s : State) :
    (flitSent d q typ s).dir (!d) = if typ = 0xB then { s.dir (!d) with nak := none } else s.dir (!d) := by
  unfold flitSent
  rw [flitLeft_other, onDir_other]

/-- The receiver's part in a flit of the SEQ expected. -/
def Dir.accept (y : Dir) : Dir := { y with rx := y.rx + 1, gap := false, nak := none }

/-- The receiver's part in another: the first of a gap is answered with a NAK. -/
def Dir.discard (y : Dir) : Dir := { y with gap := true, nak := if y.gap then y.nak else some y.rx }

/-- Of three conditions that do not all hold, one fails. -/
theorem oneFalse_of_not_all {a b c : Bool} (h : ¬ (a = true ∧ b = true ∧ c = true)) : a = false ∨ b = false ∨ c = false := by
  cases a with
  | false => exact .inl rfl
  | true =>
    cases b with
    | false => exact .inr (.inl rfl)
    | true => exact .inr (.inr (Bool.eq_false_iff.mpr fun hc => h ⟨rfl, rfl, hc⟩))

theorem recvSeq_none (d : Bool) (q : BitVec 8) (typ : Nat) (s : State) (h : s.linkOn = false ∨ dirUp (s.dir d) = false ∨ s.mayLeave d q typ = false) :
    recvSeq d q typ s = (s, false) := by
  unfold recvSeq
  rw [if_pos (by rcases h with h | h | h <;> simp [h])]

theorem recvSeq_arrives (d : Bool) (q : BitVec 8) (typ : Nat) (s : State) (hl : s.linkOn = true) (hd : dirUp (s.dir d) = true) (hm : s.mayLeave d q typ = true) :
    recvSeq d q typ s = if q = (s.dir d).rx then (onDir d Dir.accept (flitSent d q typ s), true) else (onDir d Dir.discard (flitSent d q typ s), false) := by
  obtain ⟨_, _, _, e⟩ := sendSeq_fields q typ (s.dir d)
  have hx : ((flitSent d q typ s).dir d).rx = (s.dir d).rx := by rw [flitSent_dir, e]
  unfold recvSeq
  rw [if_neg (by simp [hl, hd, hm])]
  show (if q = ((flitSent d q typ s).dir d).rx then _ else _) = _
  rw [hx]
  rfl

/-- An accepted flit has left and found the link up, and is of the SEQ expected. -/
theorem recvSeq_accepted {d : Bool} {q : BitVec 8} {typ : Nat} {s : State} (h : (recvSeq d q typ s).2 = true) :
    s.linkOn = true ∧ dirUp (s.dir d) = true ∧ s.mayLeave d q typ = true ∧ (recvSeq d q typ s).1 = onDir d Dir.accept (flitSent d q typ s) := by
  by_cases k : s.linkOn = true ∧ dirUp (s.dir d) = true ∧ s.mayLeave d q typ = true
  · obtain ⟨hl, hd, hm⟩ := k
    refine ⟨hl, hd, hm, ?_⟩
    rw [recvSeq_arrives d q typ s hl hd hm] at h ⊢
    split
    · rfl
    · rename_i hq
      rw [if_neg hq] at h
      exact absurd h Bool.false_ne_true
  · rw [recvSeq_none d q typ s (oneFalse_of_not_all k)] at h
    exact absurd h Bool.false_ne_true

theorem recvSeq_other (d : Bool) (q : BitVec 8) (typ : Nat) (s : State) (hl : s.linkOn = true) (hd : dirUp (s.dir d) = true) (hm : s.mayLeave d q typ = true) :
    (recvSeq d q typ s).1.dir (!d) = if typ = 0xB then { s.dir (!d) with nak := none } else s.dir (!d) := by
  rw [recvSeq_arrives d q typ s hl hd hm]
  split
  · rw [onDir_other, flitSent_other]
  · rw [onDir_other, flitSent_other]

/-- A flit of the SEQ expected is accepted, and the next SEQ is expected (R32). -/
theorem recvSeq_expected (d : Bool) (q : BitVec 8) (typ : Nat) (s : State) (hl : s.linkOn = true) (hd : dirUp (s.dir d) = true) (hm : s.mayLeave d q typ = true)
    (hq : q = (s.dir d).rx) :
    (recvSeq d q typ s).2 = true ∧ ((recvSeq d q typ s).1.dir d).rx = q + 1 ∧ ((recvSeq d q typ s).1.dir d).nak = none := by
  obtain ⟨_, _, _, e⟩ := sendSeq_fields q typ (s.dir d)
  rw [recvSeq_arrives d q typ s hl hd hm, if_pos hq]
  refine ⟨rfl, ?_, ?_⟩ <;> rw [onDir_same]
  · rw [flitSent_dir, e, hq]; rfl
  · rfl

/-- A flit of another SEQ is discarded; the first of a gap is answered with a NAK that names the SEQ expected (R32). -/
theorem recvSeq_gap (d : Bool) (q : BitVec 8) (typ : Nat) (s : State) (hl : s.linkOn = true) (hd : dirUp (s.dir d) = true) (hm : s.mayLeave d q typ = true)
    (hq : q ≠ (s.dir d).rx) :
    (recvSeq d q typ s).2 = false ∧ ((recvSeq d q typ s).1.dir d).rx = (s.dir d).rx ∧ ((recvSeq d q typ s).1.dir d).gap = true
      ∧ ((recvSeq d q typ s).1.dir d).nak = (if (s.dir d).gap then (s.dir d).nak else some (s.dir d).rx) := by
  obtain ⟨_, _, _, e⟩ := sendSeq_fields q typ (s.dir d)
  rw [recvSeq_arrives d q typ s hl hd hm, if_neg hq]
  refine ⟨rfl, ?_, ?_, ?_⟩ <;> rw [onDir_same, flitSent_dir, e] <;> rfl

/-- `t` is `s` but for the two directions of the link and the notes of what waits to be sent. -/
def LinkMoved (s t : State) : Prop :=
  ∃ h a rj dr rc rp, t = onLink (fun l => { l with h2a := h, a2h := a, rejoin := rj, dumpReq := dr, reject := rc, report := rp }) s

theorem LinkMoved.refl (s : State) : LinkMoved s s := ⟨_, _, _, _, _, _, rfl⟩

theorem LinkMoved.onDir {s t : State} (m : LinkMoved s t) (d : Bool) (f : Dir → Dir) : LinkMoved s (onDir d f t) := by
  obtain ⟨_, _, _, _, _, _, rfl⟩ := m
  cases d <;> exact ⟨_, _, _, _, _, _, rfl⟩

theorem LinkMoved.flitLeft {s t : State} (m : LinkMoved s t) (d : Bool) (typ : Nat) : LinkMoved s (flitLeft d typ t) := by
  have key (u : State) (k : LinkMoved s u) : LinkMoved s
      (if d then
        if typ = 7 then onLink (fun l => { l with rejoin := l.rejoin.leave }) u
        else if typ = 9 then onLink (fun l => { l with dumpReq := l.dumpReq.leave }) u else u
      else if typ = 8 then onLink (fun l => { l with reject := l.reject.leave }) u
      else if typ = 2 then onLink (fun l => { l with report := l.report.leave }) u else u) := by
    obtain ⟨_, _, _, _, _, _, rfl⟩ := k
    repeat' split
    all_goals exact ⟨_, _, _, _, _, _, rfl⟩
  refine key _ ?_
  split
  · exact m.onDir _ _
  · exact m

/-- An arriving flit moves the link alone. -/
theorem recvSeq_moved (d : Bool) (q : BitVec 8) (typ : Nat) (s : State) : LinkMoved s (recvSeq d q typ s).1 := by
  by_cases k : s.linkOn = true ∧ dirUp (s.dir d) = true ∧ s.mayLeave d q typ = true
  · obtain ⟨hl, hd, hm⟩ := k
    have sent : LinkMoved s (flitSent d q typ s) := ((LinkMoved.refl s).onDir d _).flitLeft d typ
    rw [recvSeq_arrives d q typ s hl hd hm]
    split
    · exact sent.onDir d _
    · exact sent.onDir d _
  · rw [recvSeq_none d q typ s (oneFalse_of_not_all k)]
    exact LinkMoved.refl s

/-! ### Flits that act where they are accepted -/

theorem onFlit_discarded {d : Bool} {q : BitVec 8} {typ : Nat} {s : State} (f : State → State) (h : (recvSeq d q typ s).2 = false) :
    onFlit d q typ f s = .next (recvSeq d q typ s).1 := by
  unfold onFlit
  dsimp only
  rw [h]
  rfl

theorem onFlit_accepted {d : Bool} {q : BitVec 8} {typ : Nat} {s : State} (f : State → State) (h : (recvSeq d q typ s).2 = true) :
    onFlit d q typ f s = .next (f (recvSeq d q typ s).1) := by
  unfold onFlit
  dsimp only
  rw [h]
  rfl

/-! ### Clauses of the flits that are discarded or lost -/

theorem flitLost_waits (d : Bool) (t : Nat) (q : BitVec 8) (s : State) (hm : s.mayLeave d q t = false) : flitLost d t q s = s := by
  unfold flitLost
  rw [if_pos (by simp [hm])]

/-- The sender has used the SEQ of a flit that neither lane brings. -/
theorem flitLost_dir (d : Bool) (t : Nat) (q : BitVec 8) (s : State) (hm : s.mayLeave d q t = true) : (flitLost d t q s).dir d = sendSeq q t (s.dir d) := by
  unfold flitLost
  rw [if_neg (by simp [hm])]
  show (if (d && decide (t = 1)) = true then onLink (fun l => { l with block := .sent }) (flitSent d q t s)
    else if (d && decide (t = 0xD)) = true then onFlt (fun f => { f with reqFlight := f.reqFlight ++ f.heldReq.take 1, heldReq := f.heldReq.drop 1 }) (flitSent d q t s)
    else flitSent d q t s).dir d = _
  rw [← flitSent_dir]
  split
  · exact onLink_dir _ _ d rfl rfl
  · split <;> rfl

/-- A flit that may leave and is not one to be replayed carries the next SEQ. -/
theorem mayLeave_fresh {s : State} {d : Bool} {q : BitVec 8} {t : Nat} (hm : s.mayLeave d q t = true) (hr : replays (s.dir d) q = false) : q = (s.dir d).tx := by
  unfold State.mayLeave at hm
  simp only [hr, Bool.false_or, Bool.and_eq_true, decide_eq_true_eq] at hm
  exact hm.1

theorem getLast?_append_drop {α : Type} (l : List α) (a : α) (n : Nat) : ((l ++ [a]).drop (l.length - n)).getLast? = some a := by
  rw [List.drop_append_of_le_length (by omega)]
  simp

theorem flitLost_fresh (d : Bool) (t : Nat) (q : BitVec 8) (s : State) (hm : s.mayLeave d q t = true) (hr : replays (s.dir d) q = false) :
    ((flitLost d t q s).dir d).tx = (s.dir d).tx + 1 ∧ ((flitLost d t q s).dir d).buf.getLast? = some (q, t) ∧ ((flitLost d t q s).dir d).rx = (s.dir d).rx := by
  rw [flitLost_dir d t q s hm, sendSeq_fresh q t _ hr (mayLeave_fresh hm hr)]
  refine ⟨rfl, ?_, rfl⟩
  dsimp only
  exact getLast?_append_drop (s.dir d).buf (q, t) 127

theorem nakFlit_discarded (d : Bool) (q w : BitVec 8) (s : State) (h : (recvSeq d q 0xB s).2 = false) (hn : (s.dir (!d)).nak = some w) :
    exec (.nakFlit d q w) s = .next (recvSeq d q 0xB s).1 := by
  show execNakFlit d q w s = _
  unfold execNakFlit
  rw [if_neg (by simp [hn])]
  exact onFlit_discarded _ h

/-- A NAK that is due has the other direction replay from the SEQ it names (R32). -/
theorem nakFlit_replays (d : Bool) (q w : BitVec 8) (s : State) (h : (recvSeq d q 0xB s).2 = true) (hn : (s.dir (!d)).nak = some w ∨ replays (s.dir d) q = true) :
    ∃ u, exec (.nakFlit d q w) s = .next u ∧ (u.dir (!d)).replay = (s.dir (!d)).buf.dropWhile (fun e => decide (e.1 ≠ w)) ∧ (u.dir (!d)).buf = (s.dir (!d)).buf
      ∧ Only [.link] s u := by
  have run : exec (.nakFlit d q w) s = .next (onDir (!d) (fun y => { y with replay := y.buf.dropWhile (fun e => e.1 ≠ w) }) (recvSeq d q 0xB s).1) := by
    show execNakFlit d q w s = _
    unfold execNakFlit
    rw [if_neg (by rcases hn with hn | hn <;> simp [hn])]
    exact onFlit_accepted _ h
  obtain ⟨hl, hd, hm, -⟩ := recvSeq_accepted h
  refine ⟨_, run, ?_, ?_, (onDir_frame _ _ _).after (fun _ h => h) (recvSeq_frame d q 0xB s)⟩ <;> rw [onDir_same, recvSeq_other d q 0xB s hl hd hm] <;> rfl

/-! ### Line states (R33 to R35) -/

theorem busFlit_carries (d : Bool) (x : BusLines) (s : State) (hl : s.linkOn = true) (hd : dirUp (s.dir d) = true) :
    exec (.busFlit d x) s = .next (onLink (fun l => if d then { l with toAnvil := x, txRecessive := false } else { l with toHearth := x }) s) := by
  show execBusFlit d x s = _
  unfold execBusFlit
  rw [if_neg (by simp [hl, hd])]

/-! ### Lanes (R37 to R39) -/

/-- The state of one lane of a direction. -/
def Dir.failed (l : Nat) (y : Dir) : Bool := if l = 0 then y.failed0 else y.failed1
def Dir.fails (l : Nat) (y : Dir) : Nat := if l = 0 then y.fails0 else y.fails1
def Dir.train (l : Nat) (y : Dir) : Nat := if l = 0 then y.train0 else y.train1
def Dir.training (l : Nat) (y : Dir) : Bool := if l = 0 then y.training0 else y.training1
def Dir.restore (l : Nat) (y : Dir) : Bool := if l = 0 then y.restore0 else y.restore1
def Dir.retrain (l : Nat) (y : Dir) : Option Fn := if l = 0 then y.retrain0 else y.retrain1

/-- A CRC failure on a working lane, and on one in training. -/
def Dir.countFail (l : Nat) (y : Dir) : Dir := if l = 0 then { y with fails0 := y.fails0 + 1 } else { y with fails1 := y.fails1 + 1 }
def Dir.untrain (l : Nat) (y : Dir) : Dir := if l = 0 then { y with train0 := 0, restore0 := false } else { y with train1 := 0, restore1 := false }

theorem Dir.fails_countFail (l : Nat) (y : Dir) : (y.countFail l).fails l = y.fails l + 1 := by
  unfold Dir.countFail Dir.fails
  split <;> rfl

theorem laneError_working (d : Bool) (l : Nat) (s : State) (h : (s.dir d).failed l = false) : laneError d l s = onDir d (Dir.countFail l) s := by
  refine onDir_congr d _ _ s ?_
  unfold Dir.failed at h
  unfold Dir.countFail
  split at h <;> simp_all

theorem laneError_failed (d : Bool) (l : Nat) (s : State) (h : (s.dir d).failed l = true) : laneError d l s = onDir d (Dir.untrain l) s := by
  refine onDir_congr d _ _ s ?_
  unfold Dir.failed at h
  unfold Dir.untrain
  split at h <;> simp_all

/-- What the loss of the flit does where no other copy of it arrived. -/
def badFlitLost (d : Bool) (x : BadFlit) (s : State) : State :=
  match x.lost with
  | none => s
  | some (t, q) => if t = 6 then onLink (fun k => if d then { k with toAnvil := .recessive } else { k with toHearth := .recessive }) s else flitLost d t q s

theorem badFlitLost_lanes (d : Bool) (l : Nat) (x : BadFlit) (s : State) :
    ((badFlitLost d x s).dir d).failed l = (s.dir d).failed l ∧ ((badFlitLost d x s).dir d).fails l = (s.dir d).fails l := by
  unfold badFlitLost
  split
  · exact ⟨rfl, rfl⟩
  · rename_i t q _
    split
    · rw [onLink_dir _ _ d (by cases d <;> rfl) (by cases d <;> rfl)]
      exact ⟨rfl, rfl⟩
    · cases hm : s.mayLeave d q t with
      | false => rw [flitLost_waits d t q s hm]; exact ⟨rfl, rfl⟩
      | true =>
        obtain ⟨_, _, _, e⟩ := sendSeq_fields q t (s.dir d)
        rw [flitLost_dir d t q s hm, e]
        exact ⟨rfl, rfl⟩

theorem flitCrcError_intact (d : Bool) (l : Nat) (x : BadFlit) (s : State) (hc : flitCrcOk x.raw = true) : exec (.flitCrcError d l x) s = .next s := by
  show execFlitCrcError d l x s = _
  unfold execFlitCrcError
  dsimp only
  rw [if_pos (by simp [hc])]

theorem flitCrcError_failed (d : Bool) (l : Nat) (x : BadFlit) (s : State) (hl : l < 2) (hon : s.linkOn = true) (hc : flitCrcOk x.raw = false) (hf : (s.dir d).failed l = true) :
    exec (.flitCrcError d l x) s = .next (onDir d (Dir.untrain l) s) := by
  rw [← laneError_failed d l s hf]
  show execFlitCrcError d l x s = _
  unfold execFlitCrcError
  dsimp only
  rw [if_neg (by simp [hon, hc]; omega)]
  exact if_pos hf

/-- A failure on a working lane counts; the 16th of a frame fails the lane (R37). -/
theorem flitCrcError_working (d : Bool) (l : Nat) (x : BadFlit) (s : State) (hl : l < 2) (hon : s.linkOn = true) (hc : flitCrcOk x.raw = false) (hf : (s.dir d).failed l = false) :
    exec (.flitCrcError d l x) s = .next
      (if (s.dir d).fails l + 1 = 16 then laneFail d l (onDir d (Dir.countFail l) (badFlitLost d x s)) else onDir d (Dir.countFail l) (badFlitLost d x s)) := by
  obtain ⟨bf, bn⟩ := badFlitLost_lanes d l x s
  have n : ((onDir d (Dir.countFail l) (badFlitLost d x s)).dir d).fails l = (s.dir d).fails l + 1 := by
    rw [onDir_same, Dir.fails_countFail, bn]
  rw [← n, ← laneError_working d l _ (bf.trans hf)]
  show execFlitCrcError d l x s = _
  unfold execFlitCrcError
  dsimp only
  rw [if_neg (by simp [hon, hc]; omega)]
  refine (if_neg (fun h => Bool.false_ne_true (hf.symm.trans h))).trans ?_
  rfl

/-- A failed lane may be retrained: never before, or 64 frames ago (R38). -/
def retrainDue (s : State) (t : Option Fn) : Bool := match t with | none => true | some f => decide (64 ≤ (s.anvil.lastFn - f).toNat)

theorem retrainDue_iff (s : State) (t : Option Fn) : retrainDue s t = true ↔ ∀ f, t = some f → 64 ≤ (s.anvil.lastFn - f).toNat := by
  cases t <;> simp [retrainDue]

def Dir.beginTrain (l : Nat) (f : Fn) (y : Dir) : Dir :=
  if l = 0 then { y with train0 := 0, training0 := true, retrain0 := some f } else { y with train1 := 0, training1 := true, retrain1 := some f }

def Dir.trained (l : Nat) (y : Dir) : Dir :=
  if l = 0 then { y with train0 := min 1024 (y.train0 + 1), restore0 := y.restore0 || decide (1024 ≤ y.train0 + 1) }
  else { y with train1 := min 1024 (y.train1 + 1), restore1 := y.restore1 || decide (1024 ≤ y.train1 + 1) }

theorem laneRetrain_eq (d : Bool) (l : Nat) (s : State) (hl : l < 2) (hon : s.linkOn = true) : exec (.laneRetrain d l) s = .next
    (if ((s.dir d).failed l && retrainDue s ((s.dir d).retrain l)) = true then onDir d (Dir.beginTrain l s.anvil.lastFn) s else s) := by
  show execLaneRetrain d l s = _
  unfold execLaneRetrain
  dsimp only
  rw [if_neg (by simp [hon])]
  cases hc : (s.dir d).failed l && retrainDue s ((s.dir d).retrain l) with
  | false =>
    have no : ∀ {b : Bool}, b = ((s.dir d).failed l && retrainDue s ((s.dir d).retrain l)) → ¬ b = true := fun e h => Bool.false_ne_true (hc.symm.trans (e.symm.trans h))
    obtain rfl | rfl : l = 0 ∨ l = 1 := by omega
    · exact (if_neg (no rfl)).trans (if_neg Bool.false_ne_true)
    · exact (if_neg Bool.false_ne_true).trans (if_neg (no rfl))
  | true =>
    obtain rfl | rfl : l = 0 ∨ l = 1 := by omega
    · exact if_pos hc
    · exact (if_neg Bool.false_ne_true).trans (if_pos hc)

theorem trainFlit_eq (d : Bool) (l : Nat) (s : State) (hl : l < 2) (hon : s.linkOn = true) (hf : (s.dir d).failed l = true) (ht : (s.dir d).training l = true) :
    exec (.trainFlit d l) s = .next (onDir d (Dir.trained l) s) := by
  show execTrainFlit d l s = _
  unfold execTrainFlit
  rw [if_neg (by simp [hon])]
  refine congrArg Host.Outcome.next (onDir_congr d _ _ s ?_)
  unfold Dir.failed at hf
  unfold Dir.training at ht
  unfold Dir.trained
  obtain rfl | rfl : l = 0 ∨ l = 1 := by omega
  · simp_all
  · simp_all

theorem laneRetrain_begins (d : Bool) (l : Nat) (s : State) (hl : l < 2) (hon : s.linkOn = true) (hf : (s.dir d).failed l = true)
    (hr : ∀ f, (s.dir d).retrain l = some f → 64 ≤ (s.anvil.lastFn - f).toNat) :
    exec (.laneRetrain d l) s = .next (onDir d (Dir.beginTrain l s.anvil.lastFn) s) := by
  rw [laneRetrain_eq d l s hl hon, if_pos (by rw [hf, (retrainDue_iff s _).mpr hr]; rfl)]

theorem laneRetrain_none (d : Bool) (l : Nat) (s : State) (f : Fn) (hl : l < 2) (hon : s.linkOn = true)
    (h : (s.dir d).failed l = false ∨ ((s.dir d).retrain l = some f ∧ (s.anvil.lastFn - f).toNat < 64)) : exec (.laneRetrain d l) s = .next s := by
  rw [laneRetrain_eq d l s hl hon, if_neg]
  simp only [Bool.and_eq_true, retrainDue_iff, not_and]
  intro hf hr
  rcases h with h | ⟨h, k⟩
  · exact Bool.false_ne_true (h.symm.trans hf)
  · exact absurd (hr f h) (by omega)

theorem beginTrain_fields (l : Nat) (f : Fn) (y : Dir) :
    (y.beginTrain l f).train l = 0 ∧ (y.beginTrain l f).training l = true ∧ (y.beginTrain l f).retrain l = some f := by
  unfold Dir.beginTrain Dir.train Dir.training Dir.retrain
  split <;> exact ⟨rfl, rfl, rfl⟩

theorem trained_fields (l : Nat) (y : Dir) :
    (y.trained l).train l = min 1024 (y.train l + 1) ∧ ((y.trained l).restore l = true ↔ y.restore l = true ∨ 1024 ≤ y.train l + 1) := by
  unfold Dir.trained Dir.train Dir.restore
  split <;> simp

/-! ### Link loss (R39, R45, R466) -/

theorem reportTimeout_eq (s : State) (hu : s.hearthUp = true) (hp : s.parked = false) :
    exec .reportTimeout s = .next (if 3 ≤ s.link.repMiss then linkLost false s else s) := by
  show execReportTimeout s = _
  unfold execReportTimeout
  simp only [hu, hp, Bool.not_false, Bool.true_and, decide_eq_true_eq]

/-- Over a list without repetition whose elements each act on their own, `Q` comes with the turn of `p` and stays. -/
theorem foldl_at {γ σ : Type} (P Q : σ → Prop) (f : σ → γ → σ) (p : γ) (hf : ∀ s, P s → Q (f s p)) (hP : ∀ s a, a ≠ p → P s → P (f s a)) (hQ : ∀ s a, a ≠ p → Q s → Q (f s a))
    (l : List γ) (hp : p ∈ l) (hn : l.Nodup) (s : σ) (h : P s) : Q (l.foldl f s) := by
  induction l generalizing s with
  | nil => exact absurd hp List.not_mem_nil
  | cons a l ih =>
    obtain ⟨ha, hl⟩ := List.nodup_cons.mp hn
    by_cases e : a = p
    · subst e
      exact List.foldlRecOn l f (hf s h) (fun t ht b hb => hQ t b (fun e => ha (e ▸ hb)) ht)
    · exact ih ((List.mem_cons.mp hp).resolve_left (Ne.symm e)) hl (f s a) (hP s a e h)

theorem onCan_same (p : Nat) (f : CanPort → CanPort) (s : State) : (onCan p f s).can p = f (s.can p) := tget_tmod_same CanPort.initial _ p f

theorem onCan_other {p q : Nat} (f : CanPort → CanPort) (s : State) (h : q ≠ p) : (onCan p f s).can q = s.can q := tget_tmod_other CanPort.initial s.bus.can f h

theorem canAfter_other {p q : Nat} (s : State) (h : q ≠ p) : (canAfter p s).can q = s.can q := by
  unfold canAfter
  split
  · rfl
  · split
    · exact onCan_other _ s h
    · exact onCan_other _ s h

theorem canAfter_none {p : Nat} {s : State} (h : (s.can p).after = none) : canAfter p s = s := by
  unfold canAfter
  rw [h]

/-- At link loss a CAN port that is neither off nor asleep, and has no STOP or SLEEP waiting, is suspended (R466). -/
theorem canSuspend_st (p : Nat) (s : State) (hp : p < 8) (h0 : (s.can p).st ≠ 0) (h6 : (s.can p).st ≠ 6) (ha : (s.can p).after = none) :
    ((canSuspend true s).can p).st = 5 := by
  refine foldl_at (fun t => t.can p = s.can p) (fun t => (t.can p).st = 5) _ p (fun t ht => ?_) (fun t q hq ht => ?_) (fun t q hq ht => ?_) (List.range 8) (List.mem_range.mpr hp)
    List.nodup_range s rfl
  · rw [canAfter_none (by rw [ht, ha]), onCan_same, ht]
    dsimp only
    rw [if_pos rfl, if_neg (by simp [h0, h6])]
  · exact (onCan_other _ _ (Ne.symm hq)).trans ((canAfter_other t (Ne.symm hq)).trans ht)
  · rw [onCan_other _ _ (Ne.symm hq), canAfter_other t (Ne.symm hq)]
    exact ht

theorem busCan_of_frame {l : List Part} {s t : State} (h : Only l s t) (k : Part.bus ∉ l) : t.bus.can = s.bus.can := congrArg Bus.can (h .bus k)

theorem linState_can (n st : Nat) (s : State) : (linState n st s).bus.can = s.bus.can := by
  unfold linState
  dsimp only
  split
  · rfl
  · split
    · exact (busCan_of_frame (notify_frame _ _ _ _) (by decide)).trans rfl
    · rfl

theorem linAbandon_can (n : Nat) (s : State) : (linAbandon n s).bus.can = s.bus.can := by
  unfold linAbandon
  split
  · rfl
  · rename_i f _
    have e : (linCellDone n f 0 (onLin n (fun k => { k with busy := none }) s)).bus.can = s.bus.can :=
      (busCan_of_frame (linCellDone_frame n f 0 _) (by decide)).trans rfl
    dsimp only
    split
    · exact (busCan_of_frame (extDone_frame _ _ _ _) (by decide)).trans e
    · exact e

theorem linSuspend_can (s : State) : (linSuspend true s).bus.can = s.bus.can := by
  refine foldl_keeps (fun t => t.bus.can = s.bus.can) _ (fun t n ht => ?_) _ s rfl
  dsimp only
  rw [if_pos rfl]
  split
  · exact (linState_can _ _ _).trans ((linAbandon_can _ _).trans ht)
  · exact ht

/-- What a die does at the loss of the link before it raises TONGS_LINK. -/
def linkLostFirst (d : Bool) (s : State) : State :=
  let t := clockSource (onLink (fun l => if d then { l with lost := true, lostA := true } else { l with lost := true, lostH := true }) s)
  if !s.link.lost then edgeGaps (accLinkLost (linSuspend true (canSuspend true t))) else t

theorem linkLost_eq (d : Bool) (s : State) (h : (if d then s.link.lostA else s.link.lostH) = false) : linkLost d s = raiseDie d 0x001 0 0 (linkLostFirst d s) := by
  unfold linkLost
  rw [if_neg (by rw [h]; decide)]
  rfl

theorem linkLostFirst_frame (d : Bool) (s : State) : Only [.time, .ctxs, .qf, .link, .light, .bus, .acc] s (linkLostFirst d s) := by
  have h (f : Link → Link) : Only [.time, .ctxs, .qf, .link, .light, .bus, .acc] s (clockSource (onLink f s)) :=
    (clockSource_frame _).after (by decide) ((onLink_frame _ _).sub (by decide))
  refine Only.ite ?_ (h _)
  exact (edgeGaps_frame _).after (by decide) ((accLinkLost_frame _).after (by decide) ((linSuspend_frame _ _).after (by decide) ((canSuspend_frame _ _).after (by decide) (h _))))

theorem linkLostFirst_lost (d : Bool) (s : State) :
    (linkLostFirst d s).link.lost = true ∧ (if d then (linkLostFirst d s).link.lostA else (linkLostFirst d s).link.lostH) = true := by
  have h (t : State) : (edgeGaps (accLinkLost (linSuspend true (canSuspend true t)))).link = t.link :=
    (edgeGaps_frame _ .link (by decide)).trans ((accLinkLost_frame _ .link (by decide)).trans ((linSuspend_frame true _ .link (by decide)).trans (canSuspend_frame true t .link (by decide))))
  unfold linkLostFirst
  dsimp only
  split
  · rw [h]
    cases d <;> exact ⟨rfl, rfl⟩
  · cases d <;> exact ⟨rfl, rfl⟩

/-- The first die that detects the loss suspends the CAN ports. -/
theorem linkLostFirst_can (d : Bool) (s : State) (hl : s.link.lost = false) (p : Nat) (hp : p < 8) (h0 : (s.can p).st ≠ 0) (h6 : (s.can p).st ≠ 6) (ha : (s.can p).after = none) :
    ((linkLostFirst d s).can p).st = 5 := by
  unfold linkLostFirst
  dsimp only
  rw [if_pos (by simp [hl])]
  generalize ht : clockSource (onLink _ s) = t
  have hb : t.bus = s.bus := by rw [← ht]; rfl
  have e : (edgeGaps (accLinkLost (linSuspend true (canSuspend true t)))).bus.can = (canSuspend true t).bus.can :=
    (congrArg Bus.can ((edgeGaps_frame _ .bus (by decide)).trans (accLinkLost_frame _ .bus (by decide)))).trans (linSuspend_can _)
  have hc : t.can p = s.can p := congrArg (fun b : Bus => tget CanPort.initial b.can p) hb
  show (tget CanPort.initial _ p).st = 5
  rw [e]
  exact canSuspend_st p t hp (by rw [hc]; exact h0) (by rw [hc]; exact h6) (by rw [hc]; exact ha)

/-- Settles O50: a flit's clauses come from recvSeq_arrives, a lane's from the lemmas about its direction, link loss from linkLost_eq. -/
theorem tongsLink : Obligations.TongsLink := by
  refine ⟨fun d q typ s => ⟨recvSeq_none d q typ s, fun hl hd hm => ⟨recvSeq_expected d q typ s hl hd hm, recvSeq_gap d q typ s hl hd hm, recvSeq_other d q typ s hl hd hm,
      recvSeq_frame d q typ s⟩⟩, fun q s h g n ok => show execBlockFlit q g n ok s = _ from onFlit_discarded _ h, fun q s => ?discarded, fun d q w s h hn => nakFlit_replays d q w s h hn, fun d x s hl hd => ?bus, fun s => ?timeout,
    fun d l x s hl hon => ?crc, fun d t q s => ?lost, fun d l s hl hon => ?lane, fun s hu hp => ?report, fun d s h => ?loss⟩
  case discarded =>
    refine ⟨fun h hr => ?_, fun h => show execSampleFlit q s = _ from onFlit_discarded _ h, fun h => onFlit_discarded _ h,
      fun e f g h => show execRejoinFlit q e f g s = _ from onFlit_discarded _ h, fun h hr => ?_, fun f h => onFlit_discarded _ h,
      fun l h => show execDumpFlit q l s = _ from onFlit_discarded _ h, fun d => ?_, fun d w h hn => nakFlit_discarded d q w s h hn⟩
    · exact (if_neg hr).trans (onFlit_discarded _ h)
    · exact (if_neg hr).trans (onFlit_discarded _ h)
    · exact congrArg Host.Outcome.next (ite_self _)
  case bus =>
    refine ⟨_, busFlit_carries d x s hl hd, ?_, onLink_frame _ _⟩
    cases d <;> exact ⟨rfl, rfl, rfl⟩
  case timeout => exact ⟨_, rfl, rfl, rfl, rfl, onLink_frame _ _⟩
  case crc =>
    refine ⟨flitCrcError_intact d l x s, fun hc hf => ?_, flitCrcError_failed d l x s hl hon⟩
    have run := flitCrcError_working d l x s hl hon hc hf
    exact ⟨fun hn => run.trans (congrArg Host.Outcome.next (if_neg hn)), fun hn => run.trans (congrArg Host.Outcome.next (if_pos hn))⟩
  case lost =>
    refine ⟨flitLost_waits d t q s, fun hm hr => ?_⟩
    obtain ⟨htx, hbuf, hrx⟩ := flitLost_fresh d t q s hm hr
    exact ⟨htx, hbuf, hrx, flitLost_frame d t q s⟩
  case lane =>
    refine ⟨fun hf hr => ⟨_, laneRetrain_begins d l s hl hon hf hr, ?_⟩, fun f h => laneRetrain_none d l s f hl hon h, fun hf ht => ⟨_, trainFlit_eq d l s hl hon hf ht, ?_⟩⟩
    · rw [onDir_same]
      obtain ⟨h1, h2, h3⟩ := beginTrain_fields l s.anvil.lastFn (s.dir d)
      exact ⟨h1, h2, h3, onDir_other _ _ _, onDir_frame _ _ _⟩
    · rw [onDir_same]
      obtain ⟨h1, h2⟩ := trained_fields l (s.dir d)
      exact ⟨h1, h2, onDir_other _ _ _, onDir_frame _ _ _⟩
  case report =>
    have run := reportTimeout_eq s hu hp
    exact ⟨fun h => run.trans (congrArg Host.Outcome.next (if_pos h)), fun h => run.trans (congrArg Host.Outcome.next (if_neg (by omega)))⟩
  case loss =>
    obtain ⟨hlost, hdie⟩ := linkLostFirst_lost d s
    exact ⟨_, linkLost_eq d s h, hlost, hdie, linkLostFirst_can d s, linkLostFirst_frame d s .pending (by decide), linkLostFirst_frame d s .com (by decide)⟩

end Sys2Proof.Machine

namespace Sys2Proof.Machine

/-! ### What an accepted flit does (R41, R51 to R55, R567) -/

theorem LinkMoved.frame {s t : State} (m : LinkMoved s t) : Only [.link] s t := by
  obtain ⟨_, _, _, _, _, _, rfl⟩ := m
  exact onLink_frame _ _

/-- An accepted flit acts on a state that differs from the one before in the bookkeeping of the link alone. -/
theorem onFlit_acts {d : Bool} {q : BitVec 8} {typ : Nat} {s : State} {f : State → State} {P : State → Prop} (h : (recvSeq d q typ s).2 = true)
    (k : ∀ t, LinkMoved s t → P (f t)) : ∃ u, onFlit d q typ f s = .next u ∧ P u :=
  ⟨_, onFlit_accepted f h, k _ (recvSeq_moved d q typ s)⟩

/-- What a BLOCK flit comes to at Anvil once it counts as sent: `v` is the state then. -/
theorem blockFlit_acts {q : BitVec 8} {g n : Nat} {ok : Bool} {ep : BitVec 16} {f : Fn} {z : Tb} {c : Com} {s : State} {P : State → Prop}
    (h : (recvSeq true q 1 s).2 = true) (hb : s.blk = some (ep, f, z, c))
    (k : ∀ v, Only [.link] s v → P (
      if ep.truncate 4 ≠ (s.anvil.epoch.truncate 4 : BitVec 4) then rejects v
      else if (s.anvil.orphan && s.anvil.rejoinF ≠ some f) || n ≤ g then v
      else
        let segs := if s.anvil.segs.contains g then s.anvil.segs else g :: s.anvil.segs
        if segs.length < n then onAnvil (fun a => { a with segs := segs }) v
        else
          let good := ok && decide (ep = s.anvil.epoch) && decide (f = s.anvil.lastFn + 1) && decide ((s.tbNow - s.time.anvilTb).toNat < 49600)
          let w := onAnvil (fun a => { a with segs := [], valid := if good then some (f, c) else s.anvil.valid }) v
          if ok && decide (ep ≠ s.anvil.epoch) then rejects w else w)) :
    ∃ u, exec (.blockFlit q g n ok) s = .next u ∧ P u := by
  show ∃ u, execBlockFlit q g n ok s = .next u ∧ P u
  unfold execBlockFlit
  refine onFlit_acts h (fun t m => ?_)
  have fr : Only [.link] s (blockFlitSent n t) := (blockFlitSent_frame _ _).after (by decide) m.frame
  have key := k (blockFlitSent n t) fr
  have ha : s.anvil = (blockFlitSent n t).anvil := (fr .anvil (by decide)).symm
  have ht : s.time = (blockFlitSent n t).time := (fr .time (by decide)).symm
  have tb : t.blk = some (ep, f, z, c) := (m.frame .blk (by decide)).trans hb
  simp only [tb]
  unfold State.tbNow at key
  rw [ha, ht] at key
  exact key

/-- A segment of another epoch's block is answered with an EPOCH_REJECT (R52). -/
theorem blockFlit_otherEpoch (q : BitVec 8) (g n : Nat) (ok : Bool) (ep : BitVec 16) (f : Fn) (z : Tb) (c : Com) (s : State) (h : (recvSeq true q 1 s).2 = true)
    (hb : s.blk = some (ep, f, z, c)) (he : ep.truncate 4 ≠ (s.anvil.epoch.truncate 4 : BitVec 4)) :
    ∃ u, exec (.blockFlit q g n ok) s = .next u ∧ u.link.reject = .waiting ∧ Only [.link] s u := by
  refine blockFlit_acts h hb (fun v fr => ?_)
  rw [if_pos he]
  exact ⟨rfl, (rejects_frame v).after (by decide) fr⟩

/-- A segment that Anvil awaits and does not have yet counts; the last one has the block validated (R42). -/
theorem blockFlit_segment (q : BitVec 8) (g n : Nat) (ok : Bool) (ep : BitVec 16) (f : Fn) (z : Tb) (c : Com) (s : State) (h : (recvSeq true q 1 s).2 = true)
    (hb : s.blk = some (ep, f, z, c)) (he : ep.truncate 4 = (s.anvil.epoch.truncate 4 : BitVec 4)) (ho : s.anvil.orphan = false ∨ s.anvil.rejoinF = some f) (hg : g < n)
    (hs : g ∉ s.anvil.segs) :
    ∃ u, exec (.blockFlit q g n ok) s = .next u ∧ Only [.anvil, .link] s u
      ∧ (s.anvil.segs.length + 1 < n → u.anvil = { s.anvil with segs := g :: s.anvil.segs })
      ∧ (n ≤ s.anvil.segs.length + 1 →
          u.anvil = { s.anvil with segs := [], valid := if ok = true ∧ ep = s.anvil.epoch ∧ f = s.anvil.lastFn + 1 ∧ (s.tbNow - s.time.anvilTb).toNat < 49600 then some (f, c) else s.anvil.valid }
          ∧ (ok = true → ep ≠ s.anvil.epoch → u.link.reject = .waiting)) := by
  refine blockFlit_acts h hb (fun v fr => ?_)
  have ha : v.anvil = s.anvil := fr .anvil (by decide)
  have fr2 (a : Anvil → Anvil) : Only [.anvil, .link] s (onAnvil a v) := (onAnvil_frame a v).after (by decide) (fr.sub (by decide))
  rw [if_neg (fun k => k he), if_neg (by rcases ho with ho | ho <;> simp [ho] <;> omega), show s.anvil.segs.contains g = false by simpa using hs]
  dsimp only
  rw [if_neg (c := false = true) Bool.false_ne_true]
  by_cases hn : s.anvil.segs.length + 1 < n
  · rw [List.length_cons, if_pos hn]
    exact ⟨fr2 _, fun _ => by rw [onAnvil_anvil, ha], fun k => absurd hn (by omega)⟩
  · rw [List.length_cons, if_neg hn]
    simp only [Bool.and_eq_true, decide_eq_true_eq, and_assoc]
    split
    · exact ⟨(rejects_frame _).after (by decide) (fr2 _), fun k => absurd k hn, fun _ => ⟨by rw [← ha]; rfl, fun _ _ => rfl⟩⟩
    · rename_i hr
      exact ⟨fr2 _, fun k => absurd k hn, fun _ => ⟨by rw [← ha]; rfl, fun h1 h2 => absurd ⟨h1, h2⟩ hr⟩⟩

/-- What an accepted REJOIN makes of Anvil (R55); `low` says that RESET_N is low. -/
def Anvil.rejoin (a : Anvil) (e : BitVec 16) (f : Fn) (low : Bool) : Anvil :=
  { a with epoch := e, lastFn := if a.epoch = 0 then f - 1 else a.lastFn, rejoinF := some f, quiet := 0, segs := [], valid := none, actHold := false, actHoldEnd := none,
           ch := a.ch.foldl (fun t e => tput chanDef t e.1 { e.2 with holdEnd := none }) [],
           sink := a.sink.foldl (fun t e => tput sinkDef t e.1 { e.2 with holdEnd := none }) [],
           limp := { a.limp with stuck := a.limp.stuck && low } }

/-- A REJOIN is one that Anvil accepts (R55): the next epoch, the next frame, Anvil's digest. -/
def rejoinOk (e : BitVec 16) (f : Fn) (dig : BitVec 64) (s : State) : Bool :=
  e = nextEpoch s.anvil.epoch && (s.anvil.epoch = 0 || decide (f = s.anvil.lastFn + 1)) && decide (dig = s.digest)

theorem rejoinOk_iff (e : BitVec 16) (f : Fn) (dig : BitVec 64) (s : State) :
    rejoinOk e f dig s = true ↔ e = nextEpoch s.anvil.epoch ∧ (s.anvil.epoch = 0 ∨ f = s.anvil.lastFn + 1) ∧ dig = s.digest := by
  simp [rejoinOk, and_assoc]

theorem rejoinFlit_acts {q : BitVec 8} {e : BitVec 16} {f : Fn} {dig : BitVec 64} {s : State} {P : State → Prop} (h : (recvSeq true q 7 s).2 = true)
    (k : ∀ t, Only [.link] s t → P (
      if rejoinOk e f dig s then
        let v := onLink (fun l => { l with report := .waiting }) (onAnvil (fun a => a.rejoin e f s.pwr.resetLow.isSome) t)
        if s.parked then onPwr (fun p => { p with state := 0 }) v else v
      else rejects t)) :
    ∃ u, exec (.rejoinFlit q e f dig) s = .next u ∧ P u := by
  show ∃ u, execRejoinFlit q e f dig s = .next u ∧ P u
  unfold execRejoinFlit
  refine onFlit_acts h (fun t m => ?_)
  have key := k t m.frame
  have hok : rejoinOk e f dig s = rejoinOk e f dig t := by
    unfold rejoinOk State.digest
    rw [m.frame .anvil (by decide), m.frame .acc (by decide)]
  have hp : s.pwr = t.pwr := (m.frame .pwr (by decide)).symm
  unfold State.parked at key
  rw [hok, hp] at key
  exact key

/-- A REJOIN that Anvil does not accept is answered with an EPOCH_REJECT alone (R52). -/
theorem rejoinFlit_refused (q : BitVec 8) (e : BitVec 16) (f : Fn) (dig : BitVec 64) (s : State) (h : (recvSeq true q 7 s).2 = true) (no : rejoinOk e f dig s = false) :
    ∃ u, exec (.rejoinFlit q e f dig) s = .next u ∧ u.link.reject = .waiting ∧ Only [.link] s u := by
  refine rejoinFlit_acts h (fun t fr => ?_)
  rw [no, if_neg Bool.false_ne_true]
  exact ⟨rfl, (rejects_frame t).after (by decide) fr⟩

/-- An accepted REJOIN gives Anvil the new epoch, is answered with a REPORT and ends park (R55). -/
theorem rejoinFlit_accepted (q : BitVec 8) (e : BitVec 16) (f : Fn) (dig : BitVec 64) (s : State) (h : (recvSeq true q 7 s).2 = true) (yes : rejoinOk e f dig s = true) :
    ∃ u, exec (.rejoinFlit q e f dig) s = .next u ∧ u.anvil = s.anvil.rejoin e f s.pwr.resetLow.isSome ∧ u.link.report = .waiting
      ∧ (s.parked = true → u.pwr.state = 0) ∧ (s.parked = false → u.pwr = s.pwr) := by
  refine rejoinFlit_acts h (fun t fr => ?_)
  rw [yes, if_pos rfl, ← fr .anvil (by decide), ← fr .pwr (by decide)]
  cases s.parked with
  | false => exact ⟨rfl, rfl, fun k => absurd k Bool.false_ne_true, fun _ => rfl⟩
  | true => exact ⟨rfl, rfl, fun _ => rfl, fun k => absurd k.symm Bool.false_ne_true⟩

/-! ### Copies of Anvil at Hearth (R159) -/

theorem sampleFlit_copies (q : BitVec 8) (s : State) (h : (recvSeq false q 3 s).2 = true) :
    ∃ u, exec (.sampleFlit q) s = .next u ∧ u.repM = s.chM ∧ u.rep.mon = s.anvil.mon ∧ u.rep.sup = s.anvil.sup ∧ u.rep.ch = s.rep.ch
      ∧ u.rep.limp.lhin = s.anvil.limp.lhin ∧ u.rep.limp.dir = s.anvil.limp.dir ∧ Only [.rep, .repM, .link] s u := by
  obtain ⟨u, run, fr⟩ := execSampleFlit_frame q s
  refine ⟨u, run, ?_⟩
  unfold execSampleFlit at run
  rw [onFlit_accepted _ h] at run
  obtain ⟨_, _, _, _, _, _, e⟩ := recvSeq_moved false q 3 s
  rw [e] at run
  injection run with run
  rw [← run] at fr ⊢
  exact ⟨rfl, rfl, rfl, rfl, rfl, rfl, fr⟩

theorem eventFlit_copies (q : BitVec 8) (s : State) (h : (recvSeq false q 4 s).2 = true) :
    ∃ u, exec (.eventFlit q) s = .next u ∧ u.rep = { s.anvil with mon := s.rep.mon } ∧ Only [.rep, .link] s u := by
  show ∃ u, execEventFlit q s = .next u ∧ _
  unfold execEventFlit
  refine onFlit_acts h (fun t m => ?_)
  have fr := m.frame
  obtain ⟨_, _, _, _, _, _, rfl⟩ := m
  exact ⟨rfl, (repFrom_frame _ _).after (by decide) (fr.sub (by decide))⟩

/-! ### Dumps (R54, R680) -/

theorem dumpReqFlit_notes (q : BitVec 8) (x : Bool) (s : State) (h : (recvSeq true q 9 s).2 = true) :
    ∃ u, exec (.dumpReqFlit q x) s = .next u ∧ u.link.dump = some x ∧ u.link.dumpReq = .no ∧ u.link.step = s.link.step ∧ Only [.link] s u := by
  show ∃ u, execDumpReqFlit q x s = .next u ∧ _
  unfold execDumpReqFlit
  refine onFlit_acts h (fun t m => ?_)
  have fr := m.frame
  obtain ⟨_, _, _, _, _, _, rfl⟩ := m
  exact ⟨rfl, rfl, rfl, (onLink_frame _ _).after (by decide) fr⟩

/-- A REJOIN that leaves changes of the link only the step of the rejoin. -/
theorem rejoinSend_link (s : State) : (rejoinSend s).link.dump = s.link.dump ∧ (rejoinSend s).link.adopted = s.link.adopted := by
  unfold rejoinSend
  split <;> exact ⟨rfl, rfl⟩

theorem dumpFlit_more (q : BitVec 8) (x : Bool) (s : State) (h : (recvSeq false q 0xA s).2 = true) (hd : s.link.dump = some x) :
    exec (.dumpFlit q false) s = .next (recvSeq false q 0xA s).1 := by
  show execDumpFlit q false s = _
  unfold execDumpFlit
  rw [onFlit_accepted _ h]
  obtain ⟨_, _, _, _, _, _, e⟩ := recvSeq_moved false q 0xA s
  rw [e]
  simp only [onLink_link, hd]
  rfl

/-- With the last flit of a dump that Hearth waits for it adopts the state (R54). -/
theorem dumpFlit_adopts (q : BitVec 8) (x : Bool) (s : State) (h : (recvSeq false q 0xA s).2 = true) (hd : s.link.dump = some x)
    (hs : s.link.step = if x then .dumpFull else .dumpChanged) :
    ∃ u, exec (.dumpFlit q true) s = .next u ∧ u.link.dump = none ∧ u.com = adoptCom (if x then s.bound else s.anvil) s.com
      ∧ u.rep = { (if x then s.bound else s.anvil) with mon := s.rep.mon } ∧ u.link.adopted = digestOf (if x then s.bound else s.anvil) s.acc ∧ Only [.com, .rep, .link] s u := by
  obtain ⟨u, run, fr⟩ := execDumpFlit_frame q true s
  refine ⟨u, run, ?_⟩
  unfold execDumpFlit at run
  rw [onFlit_accepted _ h] at run
  obtain ⟨_, _, _, _, _, _, e⟩ := recvSeq_moved false q 0xA s
  rw [e] at run
  simp only [onLink_link, hd] at run
  injection run with run
  have sent := (if_pos hs).symm.trans run
  rw [← sent] at fr ⊢
  exact ⟨(rejoinSend_link _).1, rejoinSend_frame _ .com (by decide), rejoinSend_frame _ .rep (by decide), (rejoinSend_link _).2, fr⟩

/-! ### Rejections and reports (R45, R52, R54) -/

theorem rejoinStart_link (s : State) : (rejoinStart s).link =
    { s.link with step := .dumpFull, dumpReq := .waiting, repEpoch := s.anvil.epoch, repL := s.anvil.lastFn, repOrphan := s.anvil.orphan } := by
  unfold rejoinStart
  dsimp only
  split <;> rfl

/-- Hearth's FN continues from Anvil's, whose epoch is not 0 (R54). -/
theorem rejoinStart_fn (s : State) (h : s.anvil.epoch ≠ 0) : (rejoinStart s).fn = s.anvil.lastFn := by
  unfold rejoinStart
  dsimp only
  rw [if_neg h]
  rfl

theorem epochRejectFlit_sent (q : BitVec 8) (s : State) (h : (recvSeq false q 8 s).2 = true) (hr : s.link.reject ≠ .no) (hs : s.link.step = .sent) :
    ∃ u, exec (.epochRejectFlit q) s = .next u ∧ u.link.step = .dumpChanged ∧ u.link.dumpReq = .waiting ∧ u.link.repEpoch = s.anvil.epoch ∧ u.link.repL = s.anvil.lastFn
      ∧ Only [.link] s u := by
  show ∃ u, execEpochRejectFlit q s = .next u ∧ _
  unfold execEpochRejectFlit
  rw [if_neg hr]
  refine onFlit_acts h (fun t m => ?_)
  have fr := m.frame
  obtain ⟨_, _, _, _, _, _, rfl⟩ := m
  dsimp only [onLink_link]
  rw [hs]
  exact ⟨rfl, rfl, rfl, rfl, (onLink_frame _ _).after (by decide) ((onLink_frame _ _).after (by decide) fr)⟩

theorem epochRejectFlit_idle (q : BitVec 8) (s : State) (h : (recvSeq false q 8 s).2 = true) (hr : s.link.reject ≠ .no) (hs : s.link.step = .idle ∨ s.link.step = .wantReport) :
    ∃ u, exec (.epochRejectFlit q) s = .next u ∧ u.link.step = .dumpFull ∧ (s.anvil.epoch ≠ 0 → u.fn = s.anvil.lastFn) ∧ Only [.clk, .link] s u := by
  obtain ⟨u, run, fr⟩ := execEpochRejectFlit_frame q s
  refine ⟨u, run, ?_⟩
  unfold execEpochRejectFlit at run
  rw [if_neg hr, onFlit_accepted _ h] at run
  obtain ⟨_, _, _, _, _, _, e⟩ := recvSeq_moved false q 8 s
  rw [e] at run
  injection run with run
  rcases hs with hs | hs
  all_goals
    simp only [onLink_link, hs] at run
    rw [← run] at fr ⊢
    exact ⟨congrArg Link.step (rejoinStart_link _), fun h0 => rejoinStart_fn _ h0, fr⟩

theorem linkReturn_up (s : State) (h : s.link.lost = false) : linkReturn s = s := by
  unfold linkReturn
  rw [if_neg (by simp [h])]

/-- A REPORT that Hearth has received, the link being up: its copy of Anvil's units, and the note of the frame. -/
def reportTaken (s : State) : State := repFrom s.anvil (onLink (fun l => { l with repSeen := true, repMiss := 0, report := .no }) s)

/-- What a REPORT means to Hearth, by the step of the rejoin (R54, R55). -/
def reportActs (s : State) : State :=
  match s.link.step with
  | .idle => if s.anvil.epoch ≠ s.link.epoch || (s.anvil.orphan && s.anvil.rejoinF.isNone) then rejoinStart s else s
  | .wantReport => rejoinStart s
  | .sent =>
    if s.anvil.epoch = nextEpoch s.link.repEpoch then rejoinDone s
    else if s.anvil.epoch = s.link.repEpoch && s.anvil.lastFn ≠ s.link.repL then rejoinSend (onLink (fun l => { l with step := .ready, repL := s.anvil.lastFn }) s)
    else s
  | _ => rejoinSend (onLink (fun l => { l with repEpoch := s.anvil.epoch, repL := s.anvil.lastFn, repOrphan := s.anvil.orphan }) s)

theorem reportActs_rejoined (s : State) (hs : s.link.step = .sent) (he : s.anvil.epoch = nextEpoch s.link.repEpoch) : reportActs s = rejoinDone s := by
  unfold reportActs
  rw [hs]
  exact if_pos he

theorem reportActs_known (s : State) (hs : s.link.step = .idle) (he : s.anvil.epoch = s.link.epoch) (ho : s.anvil.orphan = false ∨ s.anvil.rejoinF ≠ none) : reportActs s = s := by
  unfold reportActs
  rw [hs]
  exact if_neg (by rcases ho with ho | ho <;> simp [he, ho])

theorem reportActs_unknown (s : State) (hs : s.link.step = .idle) (he : s.anvil.epoch ≠ s.link.epoch) : reportActs s = rejoinStart s := by
  unfold reportActs
  rw [hs]
  exact if_pos (by simp [he])

/-- A REPORT that is owed reaches Hearth over a link that is up. -/
theorem reportFlit_taken (q : BitVec 8) (s : State) (h : (recvSeq false q 2 s).2 = true) (hr : s.link.report ≠ .no) (hl : s.link.lost = false) (hu : dirUp s.link.h2a = true) :
    ∃ t, LinkMoved s t ∧ exec (.reportFlit q) s = .next (reportActs (reportTaken t)) := by
  refine ⟨_, recvSeq_moved false q 2 s, ?_⟩
  obtain ⟨on, up, may, -⟩ := recvSeq_accepted h
  have h2a : (recvSeq false q 2 s).1.link.h2a = s.link.h2a := recvSeq_other false q 2 s on up may
  have lost : (recvSeq false q 2 s).1.link.lost = s.link.lost := by
    obtain ⟨_, _, _, _, _, _, e⟩ := recvSeq_moved false q 2 s
    rw [e]
    rfl
  have run : exec (.reportFlit q) s =
      .next (reportActs (linkReturn (reportTaken (if dirUp (recvSeq false q 2 s).1.link.h2a then (recvSeq false q 2 s).1 else linkLost false (recvSeq false q 2 s).1)))) :=
    (if_neg hr).trans (onFlit_accepted _ h)
  rw [run, if_pos (h2a ▸ hu), linkReturn_up (reportTaken _) (lost.trans hl)]

theorem reportTaken_frame (s : State) : Only [.rep, .link] s (reportTaken s) := (repFrom_frame _ _).after (by decide) ((onLink_frame _ _).sub (by decide))

/-- The REPORT of the new epoch ends the rejoin (R55). -/
theorem reportFlit_rejoined (q : BitVec 8) (s : State) (h : (recvSeq false q 2 s).2 = true) (hr : s.link.report ≠ .no) (hl : s.link.lost = false) (hu : dirUp s.link.h2a = true)
    (hs : s.link.step = .sent) (he : s.anvil.epoch = nextEpoch s.link.repEpoch) :
    ∃ b, exec (.reportFlit q) s = .next (rejoinDone b) ∧ b.rep = { s.anvil with mon := s.rep.mon } ∧ Only [.rep, .link] s b := by
  obtain ⟨t, m, run⟩ := reportFlit_taken q s h hr hl hu
  have fr : Only [.rep, .link] s (reportTaken t) := (reportTaken_frame t).after (by decide) (m.frame.sub (by decide))
  have acts := reportActs_rejoined (reportTaken t)
  obtain ⟨_, _, _, _, _, _, rfl⟩ := m
  exact ⟨_, run.trans (congrArg Host.Outcome.next (acts hs he)), rfl, fr⟩

/-- A REPORT of an idle Anvil that Hearth knows only updates its copy (R45). -/
theorem reportFlit_known (q : BitVec 8) (s : State) (h : (recvSeq false q 2 s).2 = true) (hr : s.link.report ≠ .no) (hl : s.link.lost = false) (hu : dirUp s.link.h2a = true)
    (hs : s.link.step = .idle) (he : s.anvil.epoch = s.link.epoch) (ho : s.anvil.orphan = false ∨ s.anvil.rejoinF ≠ none) :
    ∃ u, exec (.reportFlit q) s = .next u ∧ u.link.repSeen = true ∧ u.link.repMiss = 0 ∧ u.rep = { s.anvil with mon := s.rep.mon } ∧ u.link.step = .idle ∧ Only [.rep, .link] s u := by
  obtain ⟨t, m, run⟩ := reportFlit_taken q s h hr hl hu
  have fr : Only [.rep, .link] s (reportTaken t) := (reportTaken_frame t).after (by decide) (m.frame.sub (by decide))
  have acts := reportActs_known (reportTaken t)
  obtain ⟨_, _, _, _, _, _, rfl⟩ := m
  exact ⟨_, run.trans (congrArg Host.Outcome.next (acts hs he ho)), rfl, rfl, rfl, hs, fr⟩

/-- A REPORT of another epoch has Hearth ask for the full state (R54). -/
theorem reportFlit_unknown (q : BitVec 8) (s : State) (h : (recvSeq false q 2 s).2 = true) (hr : s.link.report ≠ .no) (hl : s.link.lost = false) (hu : dirUp s.link.h2a = true)
    (hs : s.link.step = .idle) (he : s.anvil.epoch ≠ s.link.epoch) :
    ∃ u, exec (.reportFlit q) s = .next u ∧ u.link.step = .dumpFull ∧ u.link.repEpoch = s.anvil.epoch ∧ Only [.clk, .rep, .link] s u := by
  obtain ⟨t, m, run⟩ := reportFlit_taken q s h hr hl hu
  have fr : Only [.clk, .rep, .link] s (reportTaken t) := (reportTaken_frame t).after (by decide) (m.frame.sub (by decide))
  have acts := reportActs_unknown (reportTaken t)
  obtain ⟨_, _, _, _, _, _, rfl⟩ := m
  exact ⟨_, run.trans (congrArg Host.Outcome.next (acts hs he)), congrArg Link.step (rejoinStart_link (reportTaken _)), congrArg Link.repEpoch (rejoinStart_link (reportTaken _)),
    (rejoinStart_frame _).after (by decide) fr⟩

/-! ### QUENCH_REQ (R567, R568) -/

theorem quenchReqFlit_none (s : State) (h : s.link.lost = true ∨ (s.flt.heldReq = [] ∧ s.flt.reqFlight = [])) : exec .quenchReqFlit s = .next s := by
  show execQuenchReqFlit s = _
  unfold execQuenchReqFlit
  rw [if_pos (by rcases h with h | ⟨h, k⟩ <;> simp [*])]

theorem onFlt_congr (f g : Flt → Flt) (s : State) (h : f s.flt = g s.flt) : onFlt f s = onFlt g s := by
  unfold onFlt
  rw [h]

/-- The reaction of a request that reaches Anvil acts where its source is still severe (R567). -/
def quenchReact (x i : Nat) (s : State) : State := if (s.fltInst x i).severe then reactAt x i s else s

theorem quenchReact_congr {x i : Nat} {s t : State} (h : t.flt.inst = s.flt.inst) : quenchReact x i t = if (s.fltInst x i).severe then reactAt x i t else t := by
  unfold quenchReact State.fltInst
  rw [h]

/-- What QUENCH_REQ_FLIT does where a request waits or is on its way: `t` is the state after the flit, `acc` whether it was accepted. -/
theorem quenchReqFlit_eq (s : State) (hl : s.link.lost = false) (hw : s.flt.reqFlight ≠ [] ∨ s.flt.heldReq ≠ []) :
    exec .quenchReqFlit s =
      (let r := recvSeq true s.quenchSeq 0xD s
       let t := if !(replays s.link.h2a s.quenchSeq) && r.1.link.h2a.tx ≠ s.link.h2a.tx then
         onFlt (fun f => { f with reqFlight := f.reqFlight ++ f.heldReq.take 1, heldReq := f.heldReq.drop 1 }) r.1 else r.1
       if r.2 then
         match t.flt.reqFlight with
         | (x, i) :: l => .next (quenchReact x i (onFlt (fun f => { f with reqFlight := l }) t))
         | [] => .next t
       else .next t) := by
  show execQuenchReqFlit s = _
  unfold execQuenchReqFlit
  rw [if_neg (by rcases hw with hw | hw <;> simp [hl, hw])]
  rfl

theorem recvSeq_tx (d : Bool) (q : BitVec 8) (typ : Nat) (s : State) (hl : s.linkOn = true) (hd : dirUp (s.dir d) = true) (hm : s.mayLeave d q typ = true)
    (hr : replays (s.dir d) q = false) : ((recvSeq d q typ s).1.dir d).tx = (s.dir d).tx + 1 := by
  rw [recvSeq_arrives d q typ s hl hd hm]
  split <;> rw [onDir_same, flitSent_dir, sendSeq_fresh q typ _ hr (mayLeave_fresh hm hr)] <;> rfl

/-- A fresh QUENCH_REQ takes the oldest request that waits on its way. -/
theorem quenchReqFlit_fresh (x i : Nat) (l : List (Nat × Nat)) (s : State) (hl : s.link.lost = false) (hh : s.flt.heldReq = (x, i) :: l) (hf : s.flt.reqFlight = [])
    (hr : replays s.link.h2a s.quenchSeq = false) (hon : s.linkOn = true) (hd : dirUp s.link.h2a = true) (hm : s.mayLeave true s.quenchSeq 0xD = true) :
    exec .quenchReqFlit s =
      (let r := recvSeq true s.quenchSeq 0xD s
       .next (if r.2 then quenchReact x i (onFlt (fun f => { f with heldReq := l }) r.1) else onFlt (fun f => { f with heldReq := l, reqFlight := [(x, i)] }) r.1)) := by
  have tx : (recvSeq true s.quenchSeq 0xD s).1.link.h2a.tx = s.link.h2a.tx + 1 := recvSeq_tx true _ _ s hon hd hm hr
  have flt : (recvSeq true s.quenchSeq 0xD s).1.flt = s.flt := recvSeq_frame true _ _ s .flt (by decide)
  rw [quenchReqFlit_eq s hl (.inr (by rw [hh]; exact List.cons_ne_nil _ _))]
  dsimp only
  generalize recvSeq true s.quenchSeq 0xD s = r at tx flt ⊢
  have moved : onFlt (fun f => { f with reqFlight := f.reqFlight ++ f.heldReq.take 1, heldReq := f.heldReq.drop 1 }) r.1 = onFlt (fun f => { f with heldReq := l, reqFlight := [(x, i)] }) r.1 :=
    onFlt_congr _ _ _ (by rw [flt, hf, hh]; rfl)
  have landed : onFlt (fun f => { f with reqFlight := [] }) (onFlt (fun f => { f with heldReq := l, reqFlight := [(x, i)] }) r.1) = onFlt (fun f => { f with heldReq := l }) r.1 :=
    onFlt_congr (fun f => { f with heldReq := l, reqFlight := [] }) (fun f => { f with heldReq := l }) r.1 (by rw [← hf, ← flt])
  have fresh : (!replays s.link.h2a s.quenchSeq && decide (r.1.link.h2a.tx ≠ s.link.h2a.tx)) = true := by rw [hr, tx]; simp
  rw [if_pos fresh, moved]
  cases r.2 with
  | false => rfl
  | true => exact congrArg (fun t => Host.Outcome.next (quenchReact x i t)) landed

/-- A QUENCH_REQ that is replayed brings the oldest request on its way. -/
theorem quenchReqFlit_replayed (x i : Nat) (l : List (Nat × Nat)) (s : State) (hl : s.link.lost = false) (hf : s.flt.reqFlight = (x, i) :: l)
    (hr : replays s.link.h2a s.quenchSeq = true) (ha : (recvSeq true s.quenchSeq 0xD s).2 = true) :
    exec .quenchReqFlit s = .next (quenchReact x i (onFlt (fun f => { f with reqFlight := l }) (recvSeq true s.quenchSeq 0xD s).1)) := by
  have flt : (recvSeq true s.quenchSeq 0xD s).1.flt = s.flt := recvSeq_frame true _ _ s .flt (by decide)
  rw [quenchReqFlit_eq s hl (.inl (by rw [hf]; exact List.cons_ne_nil _ _))]
  dsimp only
  rw [if_pos ha, if_neg (by rw [hr]; simp), flt, hf]

/-- Settles O51: each clause is the law of its flit above. -/
theorem blocksReportsAndRejoin : Obligations.BlocksReportsAndRejoin := by
  refine ⟨fun q g n ok ep f z c s h hb => ⟨blockFlit_otherEpoch q g n ok ep f z c s h hb, fun he ho hg hs => ?block⟩, fun q e f d s h => ⟨fun no => ?refused, fun yes => ?accepted⟩,
    sampleFlit_copies, eventFlit_copies, dumpReqFlit_notes, fun q x s h hd => ⟨dumpFlit_more q x s h hd, dumpFlit_adopts q x s h hd⟩,
    fun q s h hr => ⟨epochRejectFlit_sent q s h hr, epochRejectFlit_idle q s h hr⟩,
    fun q s h hr hl hu => ⟨reportFlit_rejoined q s h hr hl hu, reportFlit_known q s h hr hl hu, reportFlit_unknown q s h hr hl hu⟩, quenchReqFlit_none,
    fun x i l s hl => ⟨fun hh hf hr hon hd hm => ?fresh, fun hf hr _ ha => ?replayed⟩⟩
  case block => exact blockFlit_segment q g n ok ep f z c s h hb he ho hg hs
  case refused => exact rejoinFlit_refused q e f d s h (by rw [← Bool.not_eq_true, rejoinOk_iff]; exact no)
  case accepted =>
    obtain ⟨u, run, an, rep, park, run'⟩ := rejoinFlit_accepted q e f d s h ((rejoinOk_iff e f d s).mpr yes)
    exact ⟨u, run, by rw [an]; rfl, by rw [an]; rfl, by rw [an]; rfl, by rw [an]; rfl, by rw [an]; rfl, rep, park, run', by rw [an]; rfl⟩
  case fresh =>
    have run := quenchReqFlit_fresh x i l s hl hh hf hr hon hd hm
    have flt : (recvSeq true s.quenchSeq 0xD s).1.flt = s.flt := recvSeq_frame true _ _ s .flt (by decide)
    have inst : (onFlt (fun f => { f with heldReq := l }) (recvSeq true s.quenchSeq 0xD s).1).flt.inst = s.flt.inst := by rw [← flt]; rfl
    exact ⟨fun ha => run.trans (congrArg Host.Outcome.next ((if_pos ha).trans (quenchReact_congr inst))),
      fun ha => run.trans (congrArg Host.Outcome.next (if_neg (fun k => Bool.false_ne_true (ha.symm.trans k))))⟩
  case replayed =>
    have flt : (recvSeq true s.quenchSeq 0xD s).1.flt = s.flt := recvSeq_frame true _ _ s .flt (by decide)
    have inst : (onFlt (fun f => { f with reqFlight := l }) (recvSeq true s.quenchSeq 0xD s).1).flt.inst = s.flt.inst := by rw [← flt]; rfl
    exact (quenchReqFlit_replayed x i l s hl hf hr ha).trans (congrArg Host.Outcome.next (quenchReact_congr inst))

end Sys2Proof.Machine

namespace Sys2Proof.Machine

/-! ### Frames at Anvil (R43 to R49, R55) -/

theorem frameBoundary_off (m : FrameMeas) (s : State) (h : s.pwr.state = 4) : exec (.frameBoundary m) s = .next s := by
  show execFrameBoundary m s = _
  unfold execFrameBoundary
  rw [if_pos h]

/-- What FRAME_BOUNDARY sets before the frame that ends is looked at: the tick of the boundary, and Hearth's frame TB while Hearth is down. -/
def boundaryTime (s : State) : State :=
  let t := s.time.anvilTb + 50000
  onTime (fun x => { x with anvilTb := t }) (onClk (fun x => if s.hearthUp then x else { x with frameTb := t }) (advTo t s))

/-- The frame that ends at FRAME_BOUNDARY is closed, and a REPORT of it is due. -/
def boundaryEnd (m : FrameMeas) (s : State) : State :=
  onLink (fun l => { l with report := .waiting }) (laneBoundary (frameEnd m (boundaryTime s)))

/-- The frame that begins at FRAME_BOUNDARY: none is executed at epoch 0 (R51). -/
def boundaryStart (s : State) : State := if s.anvil.epoch = 0 then s else anvilFrame s

/-- What the off-state checks at the boundary do, after which Anvil's state is kept for a dump. -/
def boundaryKeep (m : FrameMeas) (was : Com) (s : State) : State :=
  let u := m.vout0.foldl (fun u e => if e.1 < 64 then offDiagA was e.1 e.2 u else u) s
  { u with bound := u.anvil }

theorem boundaryTime_pwr (s : State) : (boundaryTime s).pwr = s.pwr :=
  advTo_frame (s.time.anvilTb + 50000) s .pwr (by decide)

/-- FRAME_BOUNDARY outside park. -/
theorem frameBoundary_run (m : FrameMeas) (s : State) (h : s.pwr.state < 2) :
    exec (.frameBoundary m) s = .next (boundaryKeep m (boundaryTime s).anvil.vals (boundaryStart (boundaryEnd m s))) := by
  have hp : (boundaryTime s).parked = false := by
    unfold State.parked
    rw [boundaryTime_pwr]
    simp only [Bool.or_eq_false_iff, decide_eq_false_iff_not]
    omega
  show execFrameBoundary m s = _
  unfold execFrameBoundary
  rw [if_neg (by omega)]
  exact if_neg (fun h => Bool.false_ne_true (hp.symm.trans h))

theorem frameBoundary_frame (m : FrameMeas) (s u : State) (h : exec (.frameBoundary m) s = .next u) :
    Only [.anvil, .bound, .chM, .clk, .time, .sched, .ctxs, .qf, .link, .flt, .light, .bus, .pwr, .ces, .acc, .free] s u := by
  obtain ⟨t, ht, hf⟩ := execFrameBoundary_frame m s
  have e : u = t := by
    have : exec (.frameBoundary m) s = .next t := ht
    rw [h] at this
    injection this
  rw [e]
  exact hf

theorem boundaryKeep_nil (m : FrameMeas) (was : Com) (s : State) (h : m.vout0 = []) : boundaryKeep m was s = { s with bound := s.anvil } := by
  unfold boundaryKeep
  rw [h]
  rfl

/-- Anvil takes the values of frame `f` from a valid block (R43). -/
def Anvil.takeBlock (a : Anvil) (f : Fn) (com : Com) : Anvil :=
  { a with vals := com, lastFn := f, held := false, missed := 0, quiet := 0, actHold := a.actHold || com.actHold, valid := none, segs := [], rejoinF := none }

/-- A block of another mode, or the first of a new image, begins its mode at Anvil. -/
def anvilModeStart (f : Fn) (com : Com) (s : State) : State :=
  if com.mode = s.sched.anvilMode && !s.sched.imgNew then s else onSched (fun x => { x with anvilMode := com.mode, anvilModeFn := some f, imgNew := false }) s

/-- A release that Anvil has not carried out yet acts (R21). -/
def anvilRelease (com : Com) (s : State) : State :=
  if com.relFn = s.anvil.relDone then s else releaseAnvil (onAnvil (fun a => { a with relDone := com.relFn }) s)

/-- What the boundary of an executed frame does once its values stand: degrade reactions, clears, sinks and ripple counts. -/
def anvilUnits (com : Com) (s : State) : State :=
  (List.range 8).foldl (fun s b => rippleApply b s) ((List.range 36).foldl (fun s n => sinkFrameStart n s) (degradeAct false com.degrade (runClears s)))

theorem anvilFrame_eq (s : State) : anvilFrame s =
    (let t := onAnvil orphanLeave s
     let f := t.anvil.lastFn + 1
     match t.anvil.valid with
     | some (g, com) =>
       if g = f && !t.anvil.orphan then
         anvilUnits com (anvilRelease com (anvilModeStart f com (inputsRestart t.anvil.vals f (onAnvil (fun a => a.takeBlock f com) t))))
       else anvilFrame.anvilHold f t
     | none => anvilFrame.anvilHold f t) := by
  unfold anvilFrame
  rfl

theorem inputsRestart_relDone (was : Com) (f : Fn) (s : State) : (inputsRestart was f s).anvil.relDone = s.anvil.relDone := by
  unfold inputsRestart
  dsimp only
  split <;> rfl

theorem anvilModeStart_same (f : Fn) (com : Com) (s : State) (hm : com.mode = s.sched.anvilMode) (hi : s.sched.imgNew = false) : anvilModeStart f com s = s :=
  if_pos (by simp [hm, hi])

/-- A valid block for the next frame, of the mode Anvil runs, is executed (R43), with the clears and releases it carries (R21). -/
theorem anvilFrame_executed (s : State) (g : Fn) (com : Com) (hv : (orphanLeave s.anvil).valid = some (g, com)) (hg : g = (orphanLeave s.anvil).lastFn + 1)
    (ho : (orphanLeave s.anvil).orphan = false) (hm : com.mode = s.sched.anvilMode) (hi : s.sched.imgNew = false) :
    anvilFrame s = anvilUnits com
      (let b := inputsRestart (orphanLeave s.anvil).vals g (onAnvil (fun a => (orphanLeave a).takeBlock g com) s)
       if com.relFn = (orphanLeave s.anvil).relDone then b else releaseAnvil (onAnvil (fun x => { x with relDone := com.relFn }) b)) := by
  have hs : (inputsRestart (orphanLeave s.anvil).vals g (onAnvil (fun a => (orphanLeave a).takeBlock g com) s)).sched = s.sched :=
    inputsRestart_frame _ g _ .sched (by decide)
  have hr := inputsRestart_relDone (orphanLeave s.anvil).vals g (onAnvil (fun a => (orphanLeave a).takeBlock g com) s)
  rw [anvilFrame_eq]
  dsimp only [onAnvil_anvil]
  rw [hv]
  dsimp only
  subst hg
  refine (if_pos (by simp [ho])).trans ?_
  refine congrArg (anvilUnits com) ?_
  refine (congrArg (anvilRelease com) (anvilModeStart_same _ com _ (hm.trans (congrArg Sched.anvilMode hs).symm) ((congrArg Sched.imgNew hs).trans hi))).trans ?_
  exact ite_congr (congrArg (com.relFn = ·) hr) (fun _ => rfl) (fun _ => rfl)

theorem anvilFrame_none (s : State) (hv : (orphanLeave s.anvil).valid = none) :
    anvilFrame s = anvilFrame.anvilHold ((orphanLeave s.anvil).lastFn + 1) (onAnvil orphanLeave s) := by
  rw [anvilFrame_eq]
  dsimp only [onAnvil_anvil]
  rw [hv]

/-- A held frame (R44), the third in a row being orphan entry (R46). -/
theorem anvilFrame_held (s : State) (hv : (orphanLeave s.anvil).valid = none) :
    anvilFrame s =
      (let a := orphanLeave s.anvil
       let b := raise 0x002 0 { s with anvil := { a with lastFn := a.lastFn + 1, held := true, missed := min 3 (a.missed + 1), quiet := a.quiet + 1, valid := none, segs := [],
                                                         rejoinF := if a.rejoinF = some (a.lastFn + 1) then none else a.rejoinF } }
       if b.anvil.missed = 3 ∧ b.anvil.orphan = false then orphanEntry b else b) := by
  rw [anvilFrame_none s hv]
  unfold anvilFrame.anvilHold
  dsimp only
  simp only [Bool.and_eq_true, Bool.not_eq_true', decide_eq_true_eq]
  rfl

/-- The hold time in ms of a channel at orphan entry: 500 at least under ACT_HOLD (R623). -/
def orphanHold (n : Nat) (s : State) : Nat := if s.anvil.actHold then max (100 * cfHold (s.cfA n)) 500 else 100 * cfHold (s.cfA n)

/-- A channel that is held at orphan entry: its hold clock starts (R47). -/
theorem orphanChannel_holds (n : Nat) (s : State) (h7 : s.modeA n ≠ 7) (h4 : s.modeA n ≠ 4) (h0 : orphanHold n s ≠ 0) :
    orphanChannel n s = onChan n (fun c => { c with orphan := 1, holdEnd := some (s.tbNow + msTicks (orphanHold n s)) }) s := by
  unfold orphanChannel
  dsimp only
  rw [if_neg (by simp [h7, h4])]
  exact if_neg h0

theorem orphanLeave_rejoined (a : Anvil) (ho : a.orphan = true) (hr : a.rejoinF = some (a.lastFn + 1)) :
    (orphanLeave a).orphan = false ∧ (orphanLeave a).missed = 0 ∧ (orphanLeave a).lastFn = a.lastFn := by
  unfold orphanLeave
  rw [if_pos (by simp [ho, hr])]
  exact ⟨rfl, rfl, rfl⟩

/-- Settles O52: each clause is the law of its operation above; the frame is that of FRAME_BOUNDARY. -/
theorem anvilFrames : Obligations.AnvilFrames := by
  refine ⟨frameBoundary_off, fun m s h => ?_, fun g com s hv hg ho hm hi => anvilFrame_executed s g com hv hg ho hm hi, fun s hv => anvilFrame_held s hv,
    fun s => ⟨rfl, rfl, orphanEntry_frame s⟩, fun n s h7 h4 h0 => ?_, fun a ho hr => orphanLeave_rejoined a ho hr⟩
  · have run := frameBoundary_run m s h
    refine ⟨_, run, rfl, frameBoundary_frame m s _ run, fun hv => ?_⟩
    rw [boundaryKeep_nil m _ _ hv, boundaryStart]
    split <;> rename_i he
    · exact (if_pos he).symm
    · exact (if_neg he).symm
  · rw [orphanChannel_holds n s h7 h4 h0, onChan_same]
    exact ⟨rfl, rfl, fun k hk => onChan_other _ s hk, onChan_frame _ _ _⟩

end Sys2Proof.Machine

namespace Sys2Proof.Machine

/-! ### The commit point (R41, R144, R157) -/

theorem commitDue_none (n : Nat) (s : State) (h : ∀ b ∈ s.closed, dueNow s b = false) : commitDue n s = s := by
  cases n with
  | zero => rfl
  | succ n =>
    have e : s.closed.find? (dueNow s) = none := List.find?_eq_none.mpr (fun b hb => by simp [h b hb])
    unfold commitDue
    rw [e]

/-- The first batch that is due, in the order of closing, is applied before the others. -/
theorem commitDue_first (n : Nat) (s : State) (pre post : List ClosedBatch) (b : ClosedBatch) (hc : s.closed = pre ++ b :: post) (hp : ∀ q ∈ pre, dueNow s q = false)
    (hb : dueNow s b = true) : commitDue (n + 1) s = commitDue n (commitBatch opSpec b { s with closed := pre ++ post }) := by
  have found : s.closed.find? (dueNow s) = some b := by
    rw [hc, List.find?_append, List.find?_eq_none.mpr (fun q hq => by simp [hp q hq])]
    simp [hb]
  have gone : s.closed.erase b = pre ++ post := by
    rw [hc, List.erase_append_right _ (fun hm => by simp [hp b hm] at hb), List.erase_cons_head]
  rw [commitDue, found]
  show commitDue n (commitBatch opSpec b { s with closed := s.closed.erase b }) = _
  rw [gone]

theorem dueNow_congr {s t : State} (h : t.clk = s.clk) : dueNow t = dueNow s := by
  funext b
  unfold dueNow State.fn
  rw [h]

/-- Once as many batches as there are closed ones have been looked at, none that is due remains. -/
theorem commitDue_done (n : Nat) (s : State) (h : s.closed.length ≤ n) : ∀ b ∈ (commitDue n s).closed, dueNow s b = false := by
  induction n generalizing s with
  | zero =>
    show ∀ b ∈ s.closed, dueNow s b = false
    rw [List.length_eq_zero_iff.mp (Nat.le_zero.mp h)]
    exact fun b hb => absurd hb List.not_mem_nil
  | succ n ih =>
    unfold commitDue
    split
    · rename_i e
      exact fun b hb => by simpa using List.find?_eq_none.mp e b hb
    · rename_i b e
      have fr := commitBatch_frame opSpec opSpec_keeps b { s with closed := s.closed.erase b }
      have hc : (commitBatch opSpec b { s with closed := s.closed.erase b }).closed = s.closed.erase b := fr .closed (by decide)
      have hl := List.length_erase_of_mem (List.mem_of_find?_eq_some e)
      have key := ih (commitBatch opSpec b { s with closed := s.closed.erase b }) (by rw [hc, hl]; omega)
      rwa [dueNow_congr (s := s) (fr .clk (by decide))] at key

/-- No batch is closed on the way from `s` to `t`, and the rejoin stands where it stood. -/
structure NoneCloses (s t : State) : Prop where
  closed : t.closed.Sublist s.closed
  step : t.link.step = s.link.step
  epoch : t.link.epoch = s.link.epoch

theorem NoneCloses.refl (s : State) : NoneCloses s s := ⟨List.Sublist.refl _, rfl, rfl⟩

theorem NoneCloses.trans {s t u : State} (h : NoneCloses s t) (k : NoneCloses t u) : NoneCloses s u :=
  ⟨k.closed.trans h.closed, k.step.trans h.step, k.epoch.trans h.epoch⟩

theorem NoneCloses.of_frame {l : List Part} {s t : State} (h : Only l s t) (hc : Part.closed ∉ l) (hl : Part.link ∉ l) : NoneCloses s t := by
  have c : t.closed = s.closed := h .closed hc
  have k : t.link = s.link := h .link hl
  exact ⟨c ▸ List.Sublist.refl _, by rw [k], by rw [k]⟩

theorem NoneCloses.ite {s a b : State} {c : Prop} {_ : Decidable c} (h : NoneCloses s a) (k : NoneCloses s b) : NoneCloses s (if c then a else b) := by
  split <;> assumption

theorem hearthHalt_noneCloses (s : State) : NoneCloses s (hearthHalt s) := by
  have base : NoneCloses s ((List.range 16).foldl (fun s c => dropBatches c s) ((List.range 2).foldl (fun s p => if (s.eth p).link then ethLost p s else s) s)) :=
    .of_frame (l := [.ctxs, .bus]) (Only.foldl _ (fun s c => (dropBatches_frame c s).sub (by decide)) _
      (Only.foldl _ (fun s p => Only.ite (ethLost_frame p s) (Only.refl _ s)) _ (Only.refl _ s))) (by decide) (by decide)
  unfold hearthHalt
  refine NoneCloses.ite (NoneCloses.refl s) (NoneCloses.trans ?_ (.of_frame (edgeGaps_frame _) (by decide) (by decide)))
  generalize (List.range 16).foldl (fun s c => dropBatches c s) _ = t at base ⊢
  exact base.trans ⟨List.nil_sublist _, rfl, rfl⟩

theorem restartNote_noneCloses (cause : Nat) (s : State) : NoneCloses s (restartNote cause s) := .of_frame (restartNote_frame cause s) (by decide) (by decide)

theorem fallBack_noneCloses (s : State) : NoneCloses s (fallBack s) := by
  unfold fallBack
  dsimp only
  split
  · exact (NoneCloses.of_frame (onUpd_frame _ s) (by decide) (by decide)).trans (.of_frame (raise_frame _ _ _) (by decide) (by decide))
  · refine NoneCloses.trans (NoneCloses.trans ?_ (hearthHalt_noneCloses _)) (restartNote_noneCloses _ _)
    refine NoneCloses.trans ?_ (.of_frame (raise_frame _ _ _) (by decide) (by decide))
    have marked (f : Upd → Upd) : NoneCloses s (setMark s.upd.active 3 (onUpd f s)) :=
      .of_frame (l := [.upd]) ((setMark_frame _ _ _).after (by decide) (onUpd_frame f s)) (by decide) (by decide)
    split
    · exact (marked _).trans (.of_frame (restoreSettings_frame _ _) (by decide) (by decide))
    · exact marked _

theorem hearthRestart_noneCloses (s : State) : NoneCloses s (hearthRestart 6 s) := (hearthHalt_noneCloses s).trans (restartNote_noneCloses _ _)

/-- An operation that leaves the closed batches and the link alone closes none. -/
theorem NoneCloses.next {s t u : State} {m : List Part} (h : NoneCloses s t) (k : Only m t u) (hc : Part.closed ∉ m := by decide) (hl : Part.link ∉ m := by decide) :
    NoneCloses s u := h.trans (.of_frame k hc hl)

theorem NoneCloses.maybe {s t u : State} {m : List Part} {p : Prop} {_ : Decidable p} (h : NoneCloses s t) (k : Only m t u) (hc : Part.closed ∉ m := by decide)
    (hl : Part.link ∉ m := by decide) : NoneCloses s (if p then u else t) := NoneCloses.ite (h.next k hc hl) h

/-- A context reset closes no batch: it discards those of its context. -/
theorem resetStart_noneCloses (c : Nat) (s : State) : NoneCloses s (resetStart c s) := by
  unfold resetStart
  split
  · exact NoneCloses.refl s
  · refine NoneCloses.ite (NoneCloses.refl s) ?_
    have dropped : NoneCloses s { s with closed := s.closed.filter (fun q => q.ctx ≠ c) } := ⟨List.filter_sublist, rfl, rfl⟩
    have drained (f : Ctx → Ctx) (qs : List Nat) := (dropped.next (onCtx_frame c f _)).next (Only.foldl _ (fun s q => resetQueue_frame c q s) qs (Only.refl _ _))
    refine (((((NoneCloses.next ?_ (linToLimbo_frame c _)).next (Only.foldl _ (fun s k => resetUnit_frame k s) _ (Only.refl _ _))).next (lightDiscard_frame c _)).maybe
      (accCtxReset_frame _)).maybe (endSession_frame _)).maybe (onBus_frame _ _)
    split
    · exact drained _ _
    · exact ((drained _ _).next (onCtx_frame c _ _)).next (Only.foldl _ (fun s q => refuseEarly_frame q .busy 0 s) _ (Only.refl _ _))

theorem resetStarts_noneCloses (s : State) : NoneCloses s (resetStarts s) :=
  foldl_keeps (NoneCloses s) _ (fun t c h => h.trans (resetStart_noneCloses c t)) _ s (NoneCloses.refl s)

/-- The version under construction before the batches are applied: resets, batches that time out and adopted states. -/
def versionBegun (s : State) : State :=
  adoptSinks (adoptBridges (adoptCoils (adoptHeld (adoptLimp ((List.range 16).foldl (fun s c => batchTimeout c s)
    (resetStarts (onCom (fun c => { c with lsStaged := [], chCfgNow := [], allow := 0, rippleNew := [], actHold := actHoldNext s }) s)))))))

theorem versionBegun_frame (s : State) :
    Only [.roles, .com, .anvil, .rep, .time, .sched, .ctxs, .qf, .closed, .flt, .light, .bus, .pwr, .ces, .acc, .keys, .upd, .free] s (versionBegun s) :=
  (adoptSinks_frame _).after (by decide) ((adoptBridges_frame _).after (by decide) ((adoptCoils_frame _).after (by decide) ((adoptHeld_frame _).after (by decide)
    ((adoptLimp_frame _).after (by decide) (Only.foldl _ (fun s c => (batchTimeout_frame c s).sub (by decide)) _
      ((resetStarts_frame _).after (by decide) ((onCom_frame _ s).sub (by decide))))))))

/-- The version after the batches: resets again, what lands with it, and last the task outputs (R158). -/
def versionEnded (t : State) : State :=
  let t := resetStarts t
  onCom (fun c => { c with chCfgNow := [] }) (applyTasks (autoGens (lightLand (idleEnd (onCom (fun c => { c with degrade := degradeDue t }) t)))))

theorem versionEnded_noneCloses (t : State) : NoneCloses t (versionEnded t) := by
  have degraded := (resetStarts_noneCloses t).next (onCom_frame (fun c => { c with degrade := degradeDue (resetStarts t) }) _)
  have landed := ((degraded.next (idleEnd_frame _)).next (lightLand_frame _)).next (autoGens_frame _)
  exact (landed.next (applyTasks_frame _)).next (onCom_frame (fun c => { c with chCfgNow := [] }) _)

theorem buildVersion_eq (s : State) : buildVersion s = versionEnded (commitDue (versionBegun s).closed.length (versionBegun s)) := rfl

theorem buildVersion_done (s : State) : ∀ b ∈ (buildVersion s).closed, dueNow s b = false := by
  have done := commitDue_done _ (versionBegun s) (Nat.le_refl _)
  rw [dueNow_congr (versionBegun_frame s .clk (by decide))] at done
  rw [buildVersion_eq]
  exact fun b hb => done b ((versionEnded_noneCloses _).closed.mem hb)

/-- The state in which the version is built. -/
def commitBegun (s : State) : State := onClk (fun x => { x with commitFn := some s.fn }) (atTick 40000 s)

/-- What the commit point does behind the version. -/
def commitSent (t : State) : State := serviceBind (parkAbandon ((List.range 16).foldl forwardCtx (parkNotice t)))

theorem commitSent_frame (t : State) : Only [.anvil, .time, .ctxs, .qf, .flt, .light, .bus, .pwr, .ces, .acc, .free] t (commitSent t) :=
  (serviceBind_frame _).after (by decide) ((parkAbandon_frame _).after (by decide) (Only.foldl _ (fun s c => (forwardCtx_frame s c).sub (by decide)) _ ((parkNotice_frame t).sub (by decide))))

/-- The restart and the fall-back that wait for a commit point. -/
def commitStops (t : State) : State :=
  let t := if t.pwr.restart.isSome then hearthRestart 6 t else t
  if t.upd.rollback then fallBack t else t

theorem commitStops_frame (t : State) :
    Only [.roles, .com, .blk, .anvil, .time, .ctxs, .qf, .link, .closed, .snaps, .flt, .light, .bus, .pwr, .ces, .acc, .upd, .free] t (commitStops t) := by
  have r : Only [.roles, .com, .blk, .anvil, .time, .ctxs, .qf, .link, .closed, .snaps, .flt, .light, .bus, .pwr, .ces, .acc, .upd, .free] t
      (if t.pwr.restart.isSome then hearthRestart 6 t else t) := Only.ite (hearthRestart_frame 6 t) (Only.refl _ t)
  exact Only.ite ((fallBack_frame _).after (fun _ h => h) r) r

theorem commitStops_noneCloses (t : State) : NoneCloses t (commitStops t) := by
  have r : NoneCloses t (if t.pwr.restart.isSome then hearthRestart 6 t else t) := NoneCloses.ite (hearthRestart_noneCloses t) (NoneCloses.refl t)
  exact NoneCloses.ite (r.trans (fallBack_noneCloses _)) r

/-- The state whose block is handed over: the version is built, what goes out leaves, a restart or a fall-back that waits acts. -/
def commitVersion (s : State) : State := commitStops (commitSent (buildVersion (commitBegun s)))

theorem commitPoint_runs (s : State) (hu : s.hearthUp = true) (hc : s.clk.commitFn ≠ some s.fn) : exec .commitPoint s = .next (ethDrain (handBlock (commitVersion s))) := by
  show execCommitPoint s = _
  unfold execCommitPoint
  rw [if_neg (by simp [hu, hc])]
  rfl

theorem commitVersion_noneCloses (s : State) : NoneCloses (buildVersion (commitBegun s)) (commitVersion s) :=
  (NoneCloses.of_frame (commitSent_frame _) (by decide) (by decide)).trans (commitStops_noneCloses _)

theorem commitVersion_frame (s : State) :
    Only [.roles, .com, .blk, .anvil, .rep, .time, .sched, .ctxs, .qf, .closed, .snaps, .flt, .light, .bus, .pwr, .ces, .acc, .keys, .upd, .free, .link] (commitBegun s) (commitVersion s) :=
  (commitStops_frame _).after (by decide) ((commitSent_frame _).after (by decide) ((buildVersion_frame _).sub (by decide)))

theorem commitBegun_frame (s : State) : Only [.time, .qf, .clk] s (commitBegun s) := (onClk_frame _ _).after (by decide) ((atTick_frame 40000 s).sub (by decide))

theorem commitBegun_clk (s : State) : (commitBegun s).clk = { s.clk with commitFn := some s.fn } := by
  show { (atTick 40000 s).clk with commitFn := some s.fn } = _
  rw [atTick_frame 40000 s .clk (by decide)]

theorem commitVersion_done (s : State) : ∀ b ∈ (commitVersion s).closed, dueNow s b = false := by
  have done := buildVersion_done (commitBegun s)
  have due : dueNow (commitBegun s) = dueNow s := by
    funext b
    unfold dueNow State.fn
    rw [commitBegun_clk]
  rw [due] at done
  exact fun b hb => done b ((commitVersion_noneCloses s).closed.mem hb)

/-- The commit point leaves the step and the epoch of the rejoin as they are. -/
theorem commitVersion_link (s : State) : (commitVersion s).link.step = s.link.step ∧ (commitVersion s).link.epoch = s.link.epoch := by
  have k := commitVersion_noneCloses s
  have h : (buildVersion (commitBegun s)).link = s.link := (buildVersion_frame _ .link (by decide)).trans (commitBegun_frame s .link (by decide))
  exact ⟨k.step.trans (congrArg Link.step h), k.epoch.trans (congrArg Link.epoch h)⟩

/-- The block handed to Tongs, where Hearth runs and no rejoin is under way (R41, R54). -/
theorem handBlock_idle (v : State) (hu : v.hearthUp = true) (hs : v.link.step = .idle) :
    handBlock v = onLink (fun l => { l with block := .waiting, blockSent := 0 }) { v with blk := some (v.link.epoch, v.fn + 1, v.clk.frameTb + 50000, v.com) } := by
  unfold handBlock
  rw [hu, hs]
  rfl

theorem handBlock_none (v : State) (h : v.hearthUp = false ∨ v.link.step ≠ .idle) : handBlock v = onLink (fun l => { l with block := .no, blockSent := 0 }) { v with blk := none } := by
  have no : (v.hearthUp && decide (v.link.step = .idle)) = false := by rcases h with h | h <;> simp [h]
  unfold handBlock
  dsimp only
  rw [no]
  rfl

/-- Settles O11: the batches by commitDue_first and commitDue_done, the rest by what each part of the commit point leaves alone. -/
theorem commitPointBuildsTheVersion : Obligations.CommitPointBuildsTheVersion := by
  refine ⟨fun s n => ⟨commitDue_none n s, commitDue_first n s⟩, fun s hu hc => ?_⟩
  obtain ⟨step, epoch⟩ := commitVersion_link s
  have clk : (commitVersion s).clk = { s.clk with commitFn := some s.fn } := (commitVersion_frame s .clk (by decide)).trans (commitBegun_clk s)
  refine ⟨commitVersion s, handBlock (commitVersion s), commitPoint_runs s hu hc, clk, commitVersion_done s,
    ((commitVersion_frame s).sub (by decide)).after (fun _ h => h) ((commitBegun_frame s).sub (by decide)), step, epoch, handBlock_frame _, fun hv hs => ?_, fun hv => ?_⟩
  · rw [handBlock_idle _ hv (step.trans hs), epoch, State.fn, clk]
    exact ⟨rfl, rfl⟩
  · rw [handBlock_none _ (hv.imp_right (fun h => step ▸ h))]
    exact ⟨rfl, rfl⟩

end Sys2Proof.Machine

namespace Sys2Proof.Machine

/-! ### Debounced inputs (R634 to R638, R649) -/

/-- The debounced state of input `n` becomes `v`, at the instant of the state and with its sample history begun anew (R635 to R637). -/
def debounce (n : Nat) (v : Bool) (f : Fn) (s : State) : State :=
  onMon (fun m => { m with deb := if v then m.deb + 2 ^ n else m.deb - 2 ^ n, debTb := tput (fun _ => 0) m.debTb n s.tbNow, debFrom := tput debFromDef m.debFrom n (f + 1) }) s

/-- In park an input is sampled where PARK_PER is set; else in the frame Anvil executed last, the last of the DEB samples it needs (R635, R638). -/
def sampledNow (n : Nat) (s : State) : Bool :=
  let c := s.anvil.vals.inCfgOf n
  if s.parked then decide (qfParkPer c ≠ 0)
  else s.anvil.lastFn.toNat % qfPeriod c = n % qfPeriod c && decide (qfDeb c ≤ samplesFrom n (qfPeriod c) (tget debFromDef s.anvil.mon.debFrom n) s.anvil.lastFn)

/-- The wake source that an edge of input `n` is in park and during park entry (R634, R649). -/
def inputWake (n : Nat) (v : Bool) (s a : State) : State :=
  if s.parked || s.pwr.entry ≠ 0 then deviceWake 4 n 0 0 (wakeEdge (s.anvil.vals.inCfgOf n) v) a else a

theorem inputEdge_none (n : Nat) (v : Bool) (s : State) (h : bit s.anvil.mon.deb n = v ∨ sampledNow n s = false) : inputEdge n v s = (s, false) :=
  if_pos (.inr (h.imp_right .inr))

theorem debounce_deb (n : Nat) (v : Bool) (f : Fn) (s : State) : (debounce n v f s).anvil.mon.deb = if v then s.anvil.mon.deb + 2 ^ n else s.anvil.mon.deb - 2 ^ n := rfl

theorem debounce_ch (n : Nat) (v : Bool) (f : Fn) (s : State) : (debounce n v f s).anvil.ch = s.anvil.ch := rfl

theorem debounce_frame (n : Nat) (v : Bool) (f : Fn) (s : State) : Only [.anvil] s (debounce n v f s) := onMon_frame _ s

theorem anvil_atTickA (k : Nat) (s : State) : (atTickA k s).anvil = s.anvil := atTickA_frame k s .anvil (by decide)

theorem pwr_debounce_atTickA (k n : Nat) (v : Bool) (f : Fn) (s : State) : (debounce n v f (atTickA k s)).pwr = s.pwr := atTickA_frame k s .pwr (by decide)

/-- In RUN and IDLE the edge is told to the hosts. -/
theorem inputEdge_run (n : Nat) (v : Bool) (s : State) (hn : n < 96) (hs : s.pwr.state ≠ 4) (hp : s.parked = false) (hd : bit s.anvil.mon.deb n ≠ v) (hf : sampledNow n s = true) :
    inputEdge n v s = (inChange n v (inputWake n v s (debounce n v s.anvil.lastFn (atTickA 47900 s))), true) := by
  have edge : ¬ (96 ≤ n ∨ bit s.anvil.mon.deb n = v ∨ s.pwr.state = 4 ∨ sampledNow n s = false) := by simp [hd, hs, hf]; omega
  refine (if_neg edge).trans ?_
  unfold inputWake
  rw [hp, ← pwr_debounce_atTickA 47900 n v s.anvil.lastFn s]
  rfl

/-- In park it is a wake source alone. -/
theorem inputEdge_parked (n : Nat) (v : Bool) (s : State) (hn : n < 96) (hs : s.pwr.state ≠ 4) (hp : s.parked = true) (hd : bit s.anvil.mon.deb n ≠ v) (hf : sampledNow n s = true) :
    inputEdge n v s = (inputWake n v s (debounce n v s.anvil.lastFn s), true) := by
  have edge : ¬ (96 ≤ n ∨ bit s.anvil.mon.deb n = v ∨ s.pwr.state = 4 ∨ sampledNow n s = false) := by simp [hd, hs, hf]; omega
  refine (if_neg edge).trans ?_
  unfold inputWake
  rw [hp]
  rfl

/-- The input triggers passive access at this edge (R512). -/
def triggers (n : Nat) (v : Bool) (s : State) : Prop := v = true ∧ afTrigEn s.acc.cfg = true ∧ afTrig s.acc.cfg = n ∧ afVid s.acc.cfg ≠ 0

theorem debouncedEdge_none (n : Nat) (v : Bool) (s : State) (h : bit s.anvil.mon.deb n = v ∨ sampledNow n s = false) : exec (.debouncedEdge n v) s = .next s := by
  show execDebouncedEdge n v s = _
  unfold execDebouncedEdge
  rw [inputEdge_none n v s h]
  rfl

theorem debouncedEdge_plain (n : Nat) (v : Bool) (s a : State) (h : inputEdge n v s = (a, true))
    (k : v = false ∨ afTrigEn s.acc.cfg = false ∨ afTrig s.acc.cfg ≠ n ∨ afVid s.acc.cfg = 0) : exec (.debouncedEdge n v) s = .next a := by
  show execDebouncedEdge n v s = _
  unfold execDebouncedEdge
  rw [h]
  exact if_neg (by rcases k with k | k | k | k <;> simp [k])

theorem debouncedEdge_triggers (n : Nat) (v : Bool) (s a : State) (h : inputEdge n v s = (a, true)) (hv : v = true) (he : afTrigEn s.acc.cfg = true) (ht : afTrig s.acc.cfg = n)
    (hi : afVid s.acc.cfg ≠ 0) : exec (.debouncedEdge n v) s
      = .next (if s.parked then onAcc (fun x => { x with trigWait := x.trigWait || wakeEdge (s.anvil.vals.inCfgOf n) v }) a else accTrigger a) := by
  show execDebouncedEdge n v s = _
  unfold execDebouncedEdge
  rw [h]
  exact if_pos (by simp [hv, he, ht, hi])

/-! ### Droop (R24) -/

theorem droopDetectorTrip_none (i : Nat) (s : State) (h : i = 2 ∨ i = 5 ∨ i = 6 ∨ s.link.stretched.getD i false = true) : exec (.droopDetectorTrip i) s = .next s := by
  show execDroopDetectorTrip i s = _
  unfold execDroopDetectorTrip
  rw [if_neg]
  rcases h with rfl | rfl | rfl | h
  · simp [stretchable]
  · simp [stretchable]
  · simp [stretchable]
  · rw [h, Bool.not_true, Bool.and_false]
    exact Bool.false_ne_true

theorem getD_set_same {α : Type} (l : List α) (i : Nat) (a d : α) (h : i < l.length) : (l.set i a).getD i d = a := by simp [h]

theorem getD_set_other {α : Type} (l : List α) {i j : Nat} (a d : α) (h : j ≠ i) : (l.set i a).getD j d = l.getD j d := by simp [List.getD, List.getElem?_set_ne (Ne.symm h)]

/-- A droop of an island whose clock can be stretched, and is not, stretches it and counts. -/
theorem droopDetectorTrip_stretches (i : Nat) (s : State) (hi : i = 0 ∨ i = 1 ∨ i = 3 ∨ i = 4) (hs : s.link.stretched.getD i false = false) :
    exec (.droopDetectorTrip i) s
      = .next (onLink (fun l => { l with stretched := l.stretched.set i true, stretchCount := l.stretchCount.set i (l.stretchCount.getD i 0 + 1) }) s) := by
  have may : stretchable i = true := by rcases hi with rfl | rfl | rfl | rfl <;> decide
  show execDroopDetectorTrip i s = _
  unfold execDroopDetectorTrip
  rw [if_pos (by rw [may, hs]; rfl)]

theorem droopClear_ends (i : Nat) (s : State) : ∃ u, exec (.droopClear i) s = .next u ∧ u.link.stretched.getD i false = false
    ∧ (∀ j, j ≠ i → u.link.stretched.getD j false = s.link.stretched.getD j false) ∧ u.link.stretchCount = s.link.stretchCount ∧ Only [.link] s u := by
  refine ⟨_, rfl, ?_, fun j hj => getD_set_other _ _ _ hj, rfl, onLink_frame _ _⟩
  by_cases h : i < s.link.stretched.length
  · exact getD_set_same _ _ _ _ h
  · have short : (s.link.stretched.set i false).length ≤ i := by rw [List.length_set]; omega
    show (s.link.stretched.set i false).getD i false = false
    rw [List.getD_eq_getElem?_getD, List.getElem?_eq_none short]
    rfl

/-- Settles O44: the opcodes by the laws of acceptance, the edges by inputEdge_run and inputEdge_parked. -/
theorem inputsAndMonitors : Obligations.InputsAndMonitors := by
  refine ⟨waits_of _ _ _ rfl rfl (fun _ _ _ => rfl), tells_of _ _ _ rfl (.inl rfl) rfl (fun _ _ _ => rfl), waits_of _ _ _ rfl rfl (fun _ _ _ => rfl),
    tells_of _ _ _ rfl (.inl rfl) rfl (fun _ _ _ => rfl), tells_of _ _ _ rfl (.inl rfl) rfl (fun _ _ _ => rfl), fun r s => ?specs, fun n v s hn hs => ?run, fun n v s hn hp => ?park, fun i s => ?droop⟩
  case specs =>
    exact ⟨tget_tput_same _ _ _ _, fun m hm => tget_tput_other _ _ _ hm, rfl, rfl, rfl, rfl, inConfigSpec_frame r s, inGlobalSpec_frame r s⟩
  case run =>
    have hp : s.parked = false := by
      unfold State.parked
      simp only [Bool.or_eq_false_iff, decide_eq_false_iff_not]
      omega
    have sampled : sampledNow n s = true ↔ s.anvil.lastFn.toNat % qfPeriod (s.anvil.vals.inCfgOf n) = n % qfPeriod (s.anvil.vals.inCfgOf n)
        ∧ qfDeb (s.anvil.vals.inCfgOf n) ≤ samplesFrom n (qfPeriod (s.anvil.vals.inCfgOf n)) (tget debFromDef s.anvil.mon.debFrom n) s.anvil.lastFn := by
      simp [sampledNow, hp]
    refine ⟨fun h => debouncedEdge_none n v s (.inl h), fun h => debouncedEdge_none n v s (.inr ?_), fun hd hf hb => ?_⟩
    · rw [← Bool.not_eq_true, sampled]
      exact fun ⟨h1, h2⟩ => h.elim (fun k => k h1) (fun k => absurd h2 (by omega))
    · have edge := inputEdge_run n v s hn (by omega) hp hd (sampled.mpr ⟨hf, hb⟩)
      have wake : inputWake n v s = fun a => if s.pwr.entry ≠ 0 then deviceWake 4 n 0 0 (wakeEdge (s.anvil.vals.inCfgOf n) v) a else a := by
        funext a
        simp [inputWake, hp]
      rw [wake] at edge
      refine ⟨debounce n v s.anvil.lastFn (atTickA 47900 s), ?_, ?_, ?_, ?_, ?_, debouncedEdge_plain n v s _ edge, fun ⟨hv, he, ht, hi⟩ => ?_⟩
      · rw [debounce_deb, anvil_atTickA]
      · exact tget_tput_same _ _ _ _
      · exact tget_tput_same _ _ _ _
      · rw [debounce_ch, anvil_atTickA]
      · exact (debounce_frame n v s.anvil.lastFn _).after (by decide) ((atTickA_frame 47900 s).sub (by decide))
      · rw [debouncedEdge_triggers n v s _ edge hv he ht hi, hp]
        rfl
  case park =>
    have hs : s.pwr.state ≠ 4 := by
      intro h
      simp [State.parked, h] at hp
    have sampled : sampledNow n s = decide (qfParkPer (s.anvil.vals.inCfgOf n) ≠ 0) := by simp [sampledNow, hp]
    have wake (a : State) : inputWake n v s a = deviceWake 4 n 0 0 (wakeEdge (s.anvil.vals.inCfgOf n) v) a := by simp [inputWake, hp]
    refine ⟨fun h => debouncedEdge_none n v s (h.imp_right fun h => ?_), fun hd hc => ?_⟩
    · simp [sampled, h]
    · have edge := inputEdge_parked n v s hn hs hp hd (by simp [sampled, hc])
      rw [wake] at edge
      refine ⟨debounce n v s.anvil.lastFn s, _, rfl, rfl, rfl, debounce_frame n v s.anvil.lastFn s, debouncedEdge_plain n v s _ edge, fun ⟨hv, he, ht, hi⟩ => ?_⟩
      rw [debouncedEdge_triggers n v s _ edge hv he ht hi, hp]
      rfl
  case droop =>
    refine ⟨droopDetectorTrip_none i s, fun hi hs hl hc => ?_, droopClear_ends i s⟩
    refine ⟨_, droopDetectorTrip_stretches i s hi hs, getD_set_same _ _ _ _ (by omega), getD_set_same _ _ _ _ (by omega), fun j hj => ⟨getD_set_other _ _ _ hj, getD_set_other _ _ _ hj⟩, onLink_frame _ _⟩

end Sys2Proof.Machine

namespace Sys2Proof.Machine

/-! ### Contexts keep their configuration (R51, R602) -/

/-- Every context has in `t` the configuration it has in `s`. -/
def CfgsKept (s t : State) : Prop := ∀ c, (t.cx c).cfg = (s.cx c).cfg

theorem CfgsKept.trans {s t u : State} (h : CfgsKept s t) (k : CfgsKept t u) : CfgsKept s u := fun c => (k c).trans (h c)

theorem CfgsKept.of_frame {l : List Part} {s t : State} (h : Only l s t) (hc : Part.ctxs ∉ l) : CfgsKept s t := by
  intro c
  have e : t.ctxs = s.ctxs := h .ctxs hc
  unfold State.cx
  rw [e]

theorem onCtx_cfgsKept (c : Nat) (f : Ctx → Ctx) (s : State) (hf : (f (s.cx c)).cfg = (s.cx c).cfg) : CfgsKept s (onCtx c f s) := by
  intro d
  by_cases h : d = c
  · rw [h, onCtx_same, hf]
  · rw [onCtx_other f s h]

theorem linCellDone_cfgsKept (n : Nat) (f : LinFrame) (extra : Nat) (s : State) : CfgsKept s (linCellDone n f extra s) := by
  have freed : CfgsKept s (if f.queued then onQueue (1288 + 16 * n + mtTxq (s.lin n).table f.id) (fun q => { q with inFlight := q.inFlight - 1 }) s else s) :=
    .of_frame (Only.ite (onQueue_frame _ _ s) (Only.refl _ s)) (by decide)
  unfold linCellDone
  dsimp only
  generalize (if f.queued then _ else s) = t at freed ⊢
  split
  · exact freed
  · exact freed.trans (onCtx_cfgsKept _ _ _ rfl)

theorem linAbandon_cfgsKept (n : Nat) (s : State) : CfgsKept s (linAbandon n s) := by
  unfold linAbandon
  split
  · exact fun _ => rfl
  · next f _ =>
    have ended : CfgsKept s (linCellDone n f 0 (onLin n (fun k => { k with busy := none }) s)) := (CfgsKept.of_frame (onLin_frame n _ s) (by decide)).trans (linCellDone_cfgsKept n f 0 _)
    split
    · exact ended.trans (.of_frame (extDone_frame _ _ _ _) (by decide))
    · exact ended

theorem safeLin_cfgsKept (n : Nat) (s : State) : CfgsKept s (safeLin n s) := by
  have held : CfgsKept s (onLin n (fun k => { k with held := true }) s) := .of_frame (onLin_frame n _ s) (by decide)
  unfold safeLin
  dsimp only
  split
  · exact (held.trans (linAbandon_cfgsKept n _)).trans (.of_frame (linState_frame n 3 _) (by decide))
  · exact held

theorem safeUnit_cfgsKept (s : State) (u : SafeKind × Nat) : CfgsKept s (safeUnit s u) := by
  obtain ⟨k, n⟩ := u
  cases k with
  | channel => exact .of_frame (safeChannel_frame n s) (by decide)
  | bridge => exact .of_frame ((safeChannel_frame (brCh n + 1) _).after (by decide) (safeChannel_frame (brCh n) s)) (by decide)
  | sink => exact .of_frame (safeSink_frame n s) (by decide)
  | lf => exact .of_frame (safeLf_frame n s) (by decide)
  | can => exact .of_frame (safeCan_frame n s) (by decide)
  | lin => exact safeLin_cfgsKept n s
  | task => exact fun _ => rfl

theorem resafe_cfgsKept (s : State) : CfgsKept s (resafe s) :=
  foldl_keeps (CfgsKept s) _ (fun t u h => h.trans (safeUnit_cfgsKept t u)) _ s (fun _ => rfl)

/-- Contexts started anew with their configuration alone. -/
theorem tget_restarted (t : Tab Ctx) (c : Nat) : (tget ctxDef (t.map (fun e => (e.1, { Ctx.initial with cfg := e.2.cfg }))) c).cfg = (tget ctxDef t c).cfg := by
  induction t with
  | nil => rfl
  | cons e t ih =>
    rw [List.map_cons, tget, tget]
    split
    · rfl
    · exact ih

/-! ### Every output off (R57, R299) -/

/-- What holds of the default and of each value entered holds of every entry of a table made anew. -/
theorem tget_made {α β : Type} [DecidableEq α] (P : α → Prop) (d : Nat → α) (f : Nat × β → α) (t : Tab β) (hd : ∀ n, P (d n)) (hf : ∀ e, P (f e)) (n : Nat) :
    P (tget d (t.foldl (fun r e => tput d r e.1 (f e)) []) n) := by
  refine foldl_keeps (fun r => ∀ n, P (tget d r n)) _ (fun r e h m => ?_) t [] hd n
  by_cases k : m = e.1
  · rw [k, tget_tput_same]
    exact hf e
  · rw [tget_tput_other _ _ _ k]
    exact h m

theorem anvilOff_level (a : Anvil) (n : Nat) : (tget chanDef (anvilOff a).ch n).level = false :=
  tget_made (fun c => c.level = false) chanDef (fun e => { Chan.initial with theta := e.2.theta, tref := e.2.tref }) a.ch (fun _ => rfl) (fun _ => rfl) n

theorem anvilOff_phase (a : Anvil) (n : Nat) : (tget coilDef (anvilOff a).coil n).phase = 0 :=
  tget_made (fun k => k.phase = 0) coilDef (fun e => { Coil.initial with tc := e.2.tc, ts := e.2.ts }) a.coil (fun _ => rfl) (fun _ => rfl) n

/-- With every output off nothing conducts, but by reverse battery. -/
theorem anvilOff_conducting (a : Anvil) (tb : Tb) (n : Nat) (h : a.sup.revOn = false) : (anvilOff a).conducting tb n = false := by
  have coil := anvilOff_phase a n
  have pin := anvilOff_level a n
  have bridge : (tget bridgeDef (anvilOff a).br (brOfCh n)).st = 0 := rfl
  have off : (anvilOff a).sup.revOn = false := h
  unfold Anvil.conducting
  simp only [off, coil, pin, bridge]
  simp

/-- Reverse battery turns on the H and M classes, whatever drives them. -/
theorem conducting_reverse (a : Anvil) (tb : Tb) (n : Nat) (h : a.sup.revOn = true) : a.conducting tb n = decide (n < 32) := if_pos h

/-! ### Anvil's power (R297, R299) -/

theorem powerLost_off (s : State) : (powerLost s).pwr.state = 4 ∧ (powerLost s).pwr.vpor = true ∧ (powerLost s).hearthUp = false ∧ (powerLost s).blk = none
    ∧ (powerLost s).anvil.vals.ch = [] ∧ (powerLost s).anvil.epoch = Anvil.initial.epoch ∧ (powerLost s).anvil.sup.crankOff = false := ⟨rfl, rfl, rfl, rfl, rfl, rfl, rfl⟩

theorem anvilPorAssert_off (v : Int) (s : State) (h : v < 2200) : exec (.anvilPorAssert v) s = .next (vbatsRead v (powerLost s)) := if_pos h

theorem reverseBattery_latches (v : Int) (s : State) (h : v < -2000) :
    exec (.reverseBattery v) s = .next (onSup (fun x => { x with vbats := v, revLatch := true, revOn := true }) (powerLost s)) := if_pos h

/-- What ANVIL_POR_RELEASE leaves, where no reverse battery was latched. -/
structure PowerOn (test : Bool) (s u : State) : Prop where
  pwr : u.pwr.state = 0 ∧ u.hearthUp = false ∧ u.pwr.vpor = false ∧ u.pwr.cfg = s.pwr.cfg
  started : u.clk = .initial ∧ u.link = .initial
  com : u.com.ch = [] ∧ u.com.ind = [] ∧ u.com.br = [] ∧ u.com.ls = [] ∧ u.com.chCfg = s.com.chCfg ∧ u.com.anchor = none
  kept : u.roles = s.roles ∧ u.keys = s.keys ∧ u.pending = s.pending
  upd : u.upd.active = s.upd.active ∧ u.upd.testMode = test
  cfgs : CfgsKept s u

/-- The units and limp-home entries that act afterwards change nothing of it. -/
theorem PowerOn.settled {test : Bool} {s t : State} (h : PowerOn test s t) : PowerOn test s (relimp (resafe t)) := by
  obtain ⟨⟨state, up, vpor, cfg⟩, ⟨clk, link⟩, com, ⟨roles, keys, pending⟩, upd, cfgs⟩ := h
  have safe : Only [.anvil, .time, .ctxs, .qf, .light, .bus, .acc, .free] t (relimp (resafe t)) := (relimp_frame _).after (by decide) (resafe_frame t)
  have pwrSame : (relimp (resafe t)).pwr = t.pwr := safe .pwr (by decide)
  have comSame : (relimp (resafe t)).com = t.com := safe .com (by decide)
  have updSame : (relimp (resafe t)).upd = t.upd := safe .upd (by decide)
  refine ⟨?_, ⟨(safe .clk (by decide)).trans clk, (safe .link (by decide)).trans link⟩, ?_,
    ⟨(safe .roles (by decide)).trans roles, (safe .keys (by decide)).trans keys, (safe .pending (by decide)).trans pending⟩, ?_,
    cfgs.trans ((resafe_cfgsKept t).trans (.of_frame (relimp_frame _) (by decide)))⟩
  · unfold State.hearthUp
    rw [pwrSame]
    exact ⟨state, up, vpor, cfg⟩
  · rwa [comSame]
  · rwa [updSame]

theorem anvilPorRelease_starts (v : Int) (test : Bool) (s : State) (hv : 2600 ≤ v) (hp : s.pwr.vpor = true) (hr : s.anvil.sup.revLatch = false) :
    Answers (exec (.anvilPorRelease v test) s) (PowerOn test s) := by
  show Answers (execAnvilPorRelease v test s) _
  unfold execAnvilPorRelease
  rw [if_neg (by simp [hp]; omega)]
  extract_lets locks seen _ _ _ _ _ anvil _ _ cleared _ queues coils tested _ powered counted settled
  have fresh : seen = false := hr
  have coil (t : State) (n : Nat) (f : Coil → Coil) : Only [.anvil, .free] t (onCoil n f (taTaken n t)) := (onCoil_frame n f _).after (by decide) ((taTaken_frame n t).sub (by decide))
  have warm : Only [.anvil, .free] queues coils := Only.foldl _ (fun t n => Only.ite (coil t n _) (Only.refl _ t)) _ (Only.refl _ _)
  have com : coils.com = cleared.com := warm .com (by decide)
  have pwr : coils.pwr.cfg = s.pwr.cfg := congrArg Power.cfg (warm .pwr (by decide))
  have upd : coils.upd.active = s.upd.active := congrArg Upd.active (warm .upd (by decide))
  have cfgs : CfgsKept s coils := CfgsKept.trans (t := queues) (fun c => tget_restarted s.ctxs c) (.of_frame warm (by decide))
  have clk : coils.clk = .initial := warm .clk (by decide)
  have link : coils.link = .initial := warm .link (by decide)
  have roles : coils.roles = s.roles := warm .roles (by decide)
  have keys : coils.keys = s.keys := warm .keys (by decide)
  have pending : coils.pending = s.pending := warm .pending (by decide)
  have made : coils.com.ch = [] ∧ coils.com.ind = [] ∧ coils.com.br = [] ∧ coils.com.ls = [] ∧ coils.com.chCfg = s.com.chCfg ∧ coils.com.anchor = none := by
    rw [com]
    exact ⟨rfl, rfl, rfl, rfl, rfl, rfl⟩
  clear_value coils
  have later : Only [.upd, .pwr, .flt] coils counted := (onFlt_frame _ _).after (by decide) ((onPwr_frame _ _).after (by decide) ((onUpd_frame _ coils).sub (by decide)))
  have started : PowerOn test s counted :=
    { pwr := ⟨rfl, rfl, rfl, pwr⟩
      started := ⟨(later .clk (by decide)).trans clk, (later .link (by decide)).trans link⟩
      com := made
      kept := ⟨(later .roles (by decide)).trans roles, (later .keys (by decide)).trans keys, (later .pending (by decide)).trans pending⟩
      upd := ⟨upd, rfl⟩
      cfgs := cfgs.trans (.of_frame later (by decide)) }
  have run : (if seen = true then raise 110 0 settled else settled) = settled := if_neg (by rw [fresh]; exact Bool.false_ne_true)
  exact ⟨settled, congrArg _ run, started.settled⟩

/-- Settles O47: each reset by its own equation. -/
theorem anvilResets : Obligations.AnvilResets := by
  refine ⟨fun v s h => ?assert, fun v s h => ?reverse, fun v test s hv hp hr => ?release, fun s h => ?watchdog⟩
  case assert =>
    obtain ⟨state, vpor, up, blk, ch, epoch, _⟩ := powerLost_off s
    exact ⟨_, anvilPorAssert_off v s h, state, vpor, up, rfl, ch, epoch, blk, ((vbatsRead_frame v _).after (by decide) ((powerLost_frame s).sub (by decide)))⟩
  case reverse =>
    obtain ⟨state, vpor, up, blk, ch, epoch, crank⟩ := powerLost_off s
    exact ⟨_, reverseBattery_latches v s h, state, up, rfl, rfl, fun n => conducting_reverse _ _ n rfl, crank, rfl, ((onSup_frame _ _).after (by decide) ((powerLost_frame s).sub (by decide)))⟩
  case release =>
    obtain ⟨u, run, ⟨state, up, vpor, cfg⟩, ⟨clk, link⟩, ⟨ch, ind, br, ls, chCfg, anchor⟩, ⟨roles, keys, pending⟩, ⟨active, mode⟩, cfgs⟩ := anvilPorRelease_starts v test s hv hp hr
    exact ⟨u, run, state, up, vpor, cfg, clk, link, ch, ind, br, ls, chCfg, anchor, roles, keys, active, mode, cfgs, pending⟩
  case watchdog =>
    refine ⟨_, if_neg h, rfl, fun n => ?_⟩
    cases hr : s.anvil.sup.revOn with
    | true => exact .inr rfl
    | false => exact .inl (anvilOff_conducting s.anvil _ n hr)

end Sys2Proof.Machine

namespace Sys2Proof.Machine

/-! ### Early refusals and retransmissions (R63 to R65, R68) -/

theorem cx_of_frame {l : List Part} {s t : State} (h : Only l s t) (hc : Part.ctxs ∉ l) (c : Nat) : t.cx c = s.cx c := by
  unfold State.cx
  rw [h .ctxs hc]

/-- A packet that names an enabled context, while Hearth is up, is delivered to it. -/
theorem hostPacket_delivers (o : OpSpec) (h : Hdr) (b : Rec) (s : State) (hc : h.ctx ≠ 0) (he : ctxEnabled (s.cx h.ctx) = true) (hu : s.hearthUp = true) :
    hostPacket o h b s = ethDrain (deliver opSpec { h := h, op := o.code, body := b } s) := by
  unfold hostPacket submit
  rw [if_neg (by simp [hu]), if_neg (by simp [hc, he])]

theorem deliver_flags {tab : Nat → Option OpSpec} {p : Pkt} {s : State} (h : (p.h.wantReply && p.h.notifyOnly) = true) : deliver tab p s = refuseEarly p .format 6 s := if_pos h

theorem deliver_long {tab : Nat → Option OpSpec} {p : Pkt} {s : State} (hf : (p.h.wantReply && p.h.notifyOnly) = false) (hl : 4076 < p.body.length) :
    deliver tab p s = refuseEarly p .format 8 s := by
  unfold deliver
  rw [if_neg (by simp [hf]), if_pos hl]

/-- What step 3 or 4 turns away goes no further. -/
theorem deliver_turnedAway {tab : Nat → Option OpSpec} {p : Pkt} {s t : State} (hf : (p.h.wantReply && p.h.notifyOnly) = false) (hl : p.body.length ≤ 4076)
    (ha : arrive p s = (t, false)) : deliver tab p s = t := by
  unfold deliver
  rw [if_neg (by simp [hf]), if_neg (Nat.not_lt.mpr hl), ha]

theorem arrive_outOfSequence {p : Pkt} {s : State} (hs : p.h.seq ≠ (s.cx p.h.ctx).arrSeq) (hl : ∀ l, (s.cx p.h.ctx).last = some l → p.h.seq ≠ l.seq ∨ l.crc ≠ pktCrc p) :
    arrive p s = (refuseEarly p .sequence (s.cx p.h.ctx).arrSeq.toNat s, false) := by
  unfold arrive
  rw [if_pos hs]
  cases hx : (s.cx p.h.ctx).last with
  | none => rfl
  | some l => exact if_neg (fun ⟨seq, crc, _⟩ => (hl l hx).elim (· seq) (· crc))

theorem arrive_noCells {p : Pkt} {s : State} (hs : p.h.seq = (s.cx p.h.ctx).arrSeq) (hc : ctxFree (s.cx p.h.ctx) < pktCells p) :
    arrive p s = (refuseEarly p .credit (ctxFree (s.cx p.h.ctx)) s, false) := by
  unfold arrive
  rw [if_neg (not_not_intro hs), if_pos hc]

/-- The stored reply of context `c` goes out again (R63). -/
def sendAgain (c : Nat) (d : DevPkt) (s : State) : State :=
  onCtx c (fun y => { y with devSeq := y.devSeq + 1, rpPut := y.rpPut + cellsOf (devLen d), out := y.out ++ [{ d with seq := y.devSeq, creditRet := 0 }] }) s

theorem arrive_repeats {p : Pkt} {s : State} {r : Option DevPkt} (hl : (s.cx p.h.ctx).last = some { seq := p.h.seq, crc := pktCrc p, reply := r })
    (hs : (s.cx p.h.ctx).arrSeq = p.h.seq + 1) : arrive p s = (r.elim s (sendAgain p.h.ctx · s), false) := by
  have other : p.h.seq ≠ p.h.seq + 1 := by bv_omega
  unfold arrive
  dsimp only
  rw [hs, if_pos other, hl]
  dsimp only
  rw [if_pos ⟨rfl, rfl, rfl⟩]
  cases r <;> rfl

theorem sendDev_same (c op : Nat) (payload : Rec) (s : State) : (sendDev c op payload s).cx c =
    { s.cx c with devSeq := (s.cx c).devSeq + 1, creditRet := 0, rpPut := (s.cx c).rpPut + cellsOf (20 + payload.length),
                  out := (s.cx c).out ++ [{ seq := (s.cx c).devSeq, op := op, creditRet := (s.cx c).creditRet, payload := payload, reply := true }] } :=
  onCtx_same c _ s

theorem sendDev_other {c d : Nat} (op : Nat) (payload : Rec) (s : State) (h : d ≠ c) : (sendDev c op payload s).cx d = s.cx d := onCtx_other _ s h

/-- What a refusal at steps 2 to 4 changes of the sender's context: a reply in its output, numbered, with the credit it carries and the cells it takes. -/
theorem refuseEarly_same (p : Pkt) (st : Status) (d : Nat) (s : State) : ∃ seq cr put out, (refuseEarly p st d s).cx p.h.ctx =
      { s.cx p.h.ctx with devSeq := seq, creditRet := cr, rpPut := put, out := out }
    ∧ (out = (s.cx p.h.ctx).out ∨ ∃ r, out = (s.cx p.h.ctx).out ++ [r] ∧ IsReply r p.op p.h.seq st d s.fn [])
    ∧ (ctxReplyUsed (s.cx p.h.ctx) + (s.cx p.h.ctx).resv + 1 ≤ 256 → s.portDown p.h.ctx = false → out ≠ (s.cx p.h.ctx).out) := by
  unfold refuseEarly
  dsimp only
  split
  · refine ⟨_, _, _, _, sendDev_same _ _ _ _, .inr ⟨_, rfl, replyPayload_isReply _ s p.h.ctx _ _ _ _ _ _ rfl rfl rfl⟩, fun _ _ => by simp⟩
  · rename_i full
    exact ⟨_, _, _, _, rfl, .inl rfl, fun room up => absurd ⟨room, up⟩ full⟩

theorem refuseEarly_other (p : Pkt) (st : Status) (d : Nat) (s : State) {c : Nat} (h : c ≠ p.h.ctx) : (refuseEarly p st d s).cx c = s.cx c := by
  unfold refuseEarly
  dsimp only
  split
  · exact sendDev_other _ _ _ h
  · rfl

/-- Settles O5: each of the four refusals is `refuseEarly`, whose law says what it leaves. -/
theorem earlyRefusalLeavesTheContext : Obligations.EarlyRefusalLeavesTheContext := by
  intro o h b s hc he hu p x st d why
  have refuses : deliver opSpec p s = refuseEarly p st d s := by
    rcases why with ⟨hw, hn, rfl, rfl⟩ | ⟨hf, hl, rfl, rfl⟩ | ⟨hf, hl, hs, hr, rfl, rfl⟩ | ⟨hf, hl, hs, hx, rfl, rfl⟩
    · exact deliver_flags (by simp [p, hw, hn])
    · exact deliver_long hf hl
    · exact deliver_turnedAway hf hl (arrive_outOfSequence hs hr)
    · exact deliver_turnedAway hf hl (arrive_noCells hs hx)
  obtain ⟨seq, cr, put, out, same, reply, sent⟩ := refuseEarly_same p st d s
  refine ⟨refuseEarly p st d s, by rw [hostPacket_delivers o h b s hc he hu, refuses], refuseEarly_frame p st d s, fun c k => refuseEarly_other p st d s k, ?_⟩
  rw [show h.ctx = p.h.ctx from rfl, same]
  exact ⟨rfl, rfl, rfl, rfl, rfl, rfl, rfl, rfl, reply, sent⟩

/-- Settles O6: the repetition is recognised on arrival (R63), where only a stored reply goes out. -/
theorem retransmissionRepeatsTheReply : Obligations.RetransmissionRepeatsTheReply := by
  intro o h b s r hc he hu hf hl last seq
  have run : hostPacket o h b s = ethDrain (r.elim s (sendAgain h.ctx · s)) := by
    rw [hostPacket_delivers o h b s hc he hu, deliver_turnedAway hf hl (arrive_repeats last seq)]
  refine ⟨?_, ?_⟩
  · rintro rfl
    exact run
  · rintro d rfl
    refine ⟨sendAgain h.ctx d s, run, onCtx_frame _ _ _, fun c k => onCtx_other _ s k, ?_⟩
    unfold sendAgain
    rw [onCtx_same]
    exact ⟨rfl, rfl, rfl, rfl, rfl⟩

/-! ### Packets refused at steps 7 to 10 (R68, R74) -/

theorem acceptOne_refused (o : OpSpec) (h : Hdr) (b : Rec) (e : State) {st : Status} {d : Nat}
    (k : checks o (decide (o.kind = .commit)) (reqOf h b e) e = some (st, d)) :
    acceptOne o { h := h, op := o.code, body := b } e = respond { h := h, op := o.code, body := b } o.data st d e.fn [] e := by
  have k' : checks o (decide (o.kind = .commit)) { h := h, b := b, eff := (effectFrame e h.targetFn).2 } e = some (st, d) := k
  unfold acceptOne
  dsimp only
  rw [k']

/-- Acceptance followed by an outcome is Entered by what acceptance did. -/
theorem Entered.kept {h : Hdr} {p : Pkt} {s t u : State} (en : Entered h p s t) (hl : LastIs p (u.cx h.ctx)) (hk : Kept (t.cx h.ctx) (u.cx h.ctx))
    (ho : ∀ c, c ≠ h.ctx → u.cx c = t.cx c) : Entered h p s u := by
  obtain ⟨arr, acc, ntf, put, -, other⟩ := en
  exact ⟨hk.arrSeq.trans arr, hk.accSeq.trans acc, hk.ntfCredit.trans ntf, hk.inPut.trans put, hl, fun c k => (ho c k).trans (other c k)⟩

/-- Settles O4: what is refused is answered on the state that acceptance leaves. -/
theorem refusedPacketChangesOnlyItsContext : Obligations.RefusedPacketChangesOnlyItsContext := by
  intro o h b s st d ho a hb hn k hok hpend
  let p : Pkt := { h := h, op := o.code, body := b }
  let e := entered o h b s
  have fr : Only [.ctxs] s e := entered_frame o h b s
  have fn : e.fn = s.fn := congrArg Clk.fn (fr .clk (by decide))
  have en : Entered h p s e := entered_entered o h b s a
  obtain ⟨-, -, -, -, last, -⟩ := id en
  obtain ⟨kl, kept, freed, other, reply, -⟩ := respond_cx p o.data st d e.fn [] e last
  refine ⟨respond p o.data st d e.fn [] e, ?_, en.kept kl kept other, ?_, (respond_frame _ _ _ _ _ _ _).after (by decide) (fr.sub (by decide)), fun hno => ?_⟩
  · unfold hostPacket
    rw [submit_arrives o h b s ho a hb hn, acceptOne_refused o h b e k]
  · obtain ⟨sp, so, sd, cx⟩ := entered_cx o h b s
    have rel : (e.cx h.ctx).inRel = (s.cx h.ctx).inRel := by rw [cx]
    exact Eq.trans freed (congrArg (· + pktCells p) rel)
  · obtain ⟨only, replied⟩ := reply hno
    rw [← fn]
    exact ⟨only.after (by decide) fr, replied (.inr (.inr ⟨hok, hpend⟩))⟩

/-! ### Batches of one at their commit point (R70, R150, R157) -/

/-- Keeping a reply touches nothing of a context but its last reply. -/
theorem keepReply_same (p : Pkt) (d : DevPkt) (s : State) : ∃ l, (keepReply p d s).cx p.h.ctx = { s.cx p.h.ctx with last := l } := by
  unfold keepReply
  rw [onCtx_same]
  cases (s.cx p.h.ctx).last with
  | none => exact ⟨_, rfl⟩
  | some l =>
    dsimp only
    split
    · exact ⟨_, rfl⟩
    · exact ⟨_, rfl⟩

theorem keepReply_other (p : Pkt) (d : DevPkt) (s : State) {c : Nat} (h : c ≠ p.h.ctx) : (keepReply p d s).cx c = s.cx c := onCtx_other _ s h

theorem sendReply_up {p : Pkt} {s : State} (st : Status) (detail : Nat) (fn : Fn) (data : Rec) (hp : s.portDown p.h.ctx = false) :
    sendReply p st detail fn data s = keepReply p { seq := (s.cx p.h.ctx).devSeq, op := p.op, creditRet := 0, payload := replyPayload s p.h.ctx p.h.seq st detail fn data, reply := true }
      (sendDev p.h.ctx p.op (replyPayload s p.h.ctx p.h.seq st detail fn data) s) := by
  unfold sendReply
  dsimp only
  rw [if_neg (by simp [hp])]

theorem sendReply_down {p : Pkt} {s : State} (st : Status) (detail : Nat) (fn : Fn) (data : Rec) (hp : s.portDown p.h.ctx = true) :
    sendReply p st detail fn data s =
      keepReply p { seq := (s.cx p.h.ctx).devSeq, op := p.op, creditRet := 0, payload := replyPayload s p.h.ctx p.h.seq st detail fn data, reply := true } s := by
  unfold sendReply
  dsimp only
  rw [if_pos hp]

theorem sendReply_inRel (p : Pkt) (st : Status) (detail : Nat) (fn : Fn) (data : Rec) (s : State) :
    ((sendReply p st detail fn data s).cx p.h.ctx).inRel = (s.cx p.h.ctx).inRel := by
  have keeps (d : DevPkt) (t : State) (ht : (t.cx p.h.ctx).inRel = (s.cx p.h.ctx).inRel) : ((keepReply p d t).cx p.h.ctx).inRel = (s.cx p.h.ctx).inRel := by
    obtain ⟨l, e⟩ := keepReply_same p d t
    rw [e]
    exact ht
  cases hp : s.portDown p.h.ctx with
  | true =>
    rw [sendReply_down st detail fn data hp]
    exact keeps _ _ rfl
  | false =>
    rw [sendReply_up st detail fn data hp]
    exact keeps _ _ (by rw [sendDev_same])

theorem sendReply_other (p : Pkt) (st : Status) (detail : Nat) (fn : Fn) (data : Rec) (s : State) {c : Nat} (h : c ≠ p.h.ctx) :
    (sendReply p st detail fn data s).cx c = s.cx c := by
  unfold sendReply
  dsimp only
  rw [keepReply_other p _ _ h]
  split
  · rfl
  · exact sendDev_other _ _ _ h

theorem sendReply_answers (p : Pkt) (st : Status) (detail : Nat) (fn : Fn) (data : Rec) (s : State) : Answered p st detail fn data s (sendReply p st detail fn data s) := by
  refine ⟨fun hp => ?_, fun hl => ?_⟩
  · rw [sendReply_up st detail fn data hp]
    obtain ⟨l, e⟩ := keepReply_same p { seq := (s.cx p.h.ctx).devSeq, op := p.op, creditRet := 0, payload := replyPayload s p.h.ctx p.h.seq st detail fn data, reply := true }
      (sendDev p.h.ctx p.op (replyPayload s p.h.ctx p.h.seq st detail fn data) s)
    rw [e, sendDev_same]
    exact ⟨_, rfl, replyPayload_isReply _ s p.h.ctx _ _ _ _ _ _ rfl rfl rfl⟩
  · obtain ⟨-, -, replied, -⟩ := sendReply_cx p st detail fn data s hl
    exact replied

theorem portDown_congr {c : Nat} {s t : State} (hc : (t.cx c).cfg = (s.cx c).cfg) (hb : t.bus = s.bus) : t.portDown c = s.portDown c := by
  unfold State.portDown ctxTransport State.eth
  rw [hc, hb]

/-- The outcome of a packet frees its cells and touches no context but its own, whichever packet the context accepted last. -/
theorem respond_frees (p : Pkt) (rdat : Bool) (st : Status) (detail : Nat) (fn : Fn) (data : Rec) (s : State) :
    Freed p s (respond p rdat st detail fn data s) ∧ ∀ c, c ≠ p.h.ctx → (respond p rdat st detail fn data s).cx c = s.cx c := by
  obtain ⟨-, freed, -, other⟩ := freeCells_cx p s
  unfold respond Freed
  dsimp only
  split
  · have same := cx_of_frame (completion_frame p.h.ctx p.h.seq p.op st detail data (freeCells p s)) (by decide)
    exact ⟨by rw [same]; exact freed, fun c k => (same c).trans (other c k)⟩
  · split
    · exact ⟨(sendReply_inRel _ _ _ _ _ _).trans freed, fun c k => (sendReply_other _ _ _ _ _ _ k).trans (other c k)⟩
    · exact ⟨freed, other⟩

/-- Without NOTIFY_ONLY the outcome changes contexts only. -/
theorem respond_reply_frame (p : Pkt) (rdat : Bool) (st : Status) (detail : Nat) (fn : Fn) (data : Rec) (s : State) (hn : p.h.notifyOnly = false) :
    Only [.ctxs] s (respond p rdat st detail fn data s) := by
  unfold respond
  rw [if_neg (by simp [hn])]
  exact Only.ite ((sendReply_frame _ _ _ _ _ _).after (by decide) (freeCells_frame p s)) (freeCells_frame p s)

/-- A reply is due where data is returned, where one is asked for and where the packet fails (R70). -/
theorem respond_answers (p : Pkt) (rdat : Bool) (st : Status) (detail : Nat) (fn : Fn) (data : Rec) (s : State) (hn : p.h.notifyOnly = false)
    (due : rdat = true ∨ p.h.wantReply = true ∨ (st ≠ .ok ∧ st ≠ .pending)) : Answered p st detail fn data s (respond p rdat st detail fn data s) := by
  obtain ⟨kept, -, last, -⟩ := freeCells_cx p s
  have run : respond p rdat st detail fn data s = sendReply p st detail fn data (freeCells p s) := by
    unfold respond
    rw [if_neg (by simp [hn]), if_pos (by rcases due with h | h | ⟨h, k⟩ <;> simp [*])]
  obtain ⟨leaves, keeps⟩ := sendReply_answers p st detail fn data (freeCells p s)
  have out : ((freeCells p s).cx p.h.ctx).out = (s.cx p.h.ctx).out := by
    unfold freeCells
    rw [onCtx_same]
  rw [run]
  refine ⟨fun hp => ?_, fun hl => keeps (by unfold LastIs; rw [last]; exact hl)⟩
  rw [← out]
  exact leaves ((portDown_congr kept.cfg (freeCells_frame p s .bus (by decide))).trans hp)

/-- A batch of one whose recheck passes: the version its opcode leaves, with the octets of its records counted (R684), then its outcome. -/
theorem commitBatch_one {o : OpSpec} {p : Pkt} {e : Fn} {tg : Bool} {s : State} (ho : opSpec p.op = some o)
    (hr : recheck o (memberReq e tg p) (recheckView (batchMode [p]) s.com.chCfgNow p s) = none) :
    commitBatch opSpec { ctx := p.h.ctx, eff := e, targeted := tg, members := [p] } s =
      (let x := o.run (memberReq e tg p) s
       let v := onCom (fun c => { c with allow := c.allow + o.recs (memberReq e tg p) s }) x.st
       respond p o.data x.status x.detail e (o.fin { h := p.h, b := p.body, eff := e } v x.data) v) := by
  unfold commitBatch
  simp only [commitMembers, commitReplies, ho, hr, List.nil_append]
  rfl

/-- Settles O9: the version the opcode leaves, then the law of its outcome. -/
theorem batchOfOneTakesEffect : Obligations.BatchOfOneTakesEffect := by
  intro o h b e tg s p r ho hr x v u
  have run : u = respond p o.data x.status x.detail e (o.fin { h := h, b := b, eff := e } v x.data) v := commitBatch_one ho hr
  rw [run]
  obtain ⟨freed, other⟩ := respond_frees p o.data x.status x.detail e (o.fin { h := h, b := b, eff := e } v x.data) v
  exact ⟨respond_frame _ _ _ _ _ _ _, freed, other, fun hn => ⟨respond_reply_frame _ _ _ _ _ _ _ hn, fun due => respond_answers p _ _ _ _ _ v hn due⟩⟩

end Sys2Proof.Machine

namespace Sys2Proof.Machine

/-! ### The end of a context reset (R62, R104) -/

theorem sendNtf_same (c : Nat) (payload : Rec) (s : State) : (sendNtf c payload s).cx c =
    { s.cx c with devSeq := (s.cx c).devSeq + 1, creditRet := 0,
                  out := (s.cx c).out ++ [{ seq := (s.cx c).devSeq, op := 3, creditRet := (s.cx c).creditRet, payload := payload, reply := false }] } :=
  onCtx_same c _ s

theorem sendNtf_other {c d : Nat} (payload : Rec) (s : State) (h : d ≠ c) : (sendNtf c payload s).cx d = s.cx d := onCtx_other _ s h

theorem ntfEntry_kind (kind : Nat) (fn : Fn) (tb : Tb) (data : Rec) : rd (ntfEntry kind fn tb data) 0 2 = kind % 65536 := by
  unfold ntfEntry
  simp only [List.append_assoc]
  exact rd_le 2 kind 2 _ rfl

/-- The sequences of the context restart (step 6 of R104). -/
def resetCleared (c : Nat) (s : State) : State := onCtx c (fun x => { x with accSeq := 0, arrSeq := 0, devSeq := 0, last := none, reset := none }) s

/-- The entry CTX_RESET_DONE on the state with the sequences restarted. -/
def resetEntry (c : Nat) (r : CtxReset) (s : State) : Rec := ntfEntry 3 s.fn s.tbNow ([BitVec.ofNat 8 c, BitVec.ofNat 8 r.requester, 0, 0] ++ le 4 r.returned)

/-- The entry leaves, or waits for the context's Ethernet port; the notification credit is gone. -/
def resetAnnounced (c : Nat) (e : Rec) (s : State) : State :=
  onCtx c (fun x => { x with ntfCredit := 0 }) (if s.portDown c then onCtx c (fun x => { x with restart := some e }) s else sendNtf c e s)

/-- The requesters other than the context itself have their COMPLETION. -/
def resetTold (c : Nat) (r : CtxReset) (s : State) : State :=
  ((r.requester, r.reqSeq) :: r.more).foldl (fun s q => if q.1 = c then s else completion q.1 q.2 r.op .ok 0 [] s) s

theorem ctxResetDone_ends {c : Nat} {s : State} {r : CtxReset} (hr : (s.cx c).reset = some r) (hs : r.started = true) (hc : r.cfg = none) (hl : ctxLimbo s (s.cx c) = 0)
    (hd : limboDue s c = false) (hu : s.hearthUp = true) :
    exec (.ctxResetDone c) s = .next (ethDrain (resetTold c r (resetAnnounced c (resetEntry c r (resetCleared c s)) (resetCleared c s)))) := by
  show execCtxResetDone c s = _
  unfold execCtxResetDone
  rw [hr]
  dsimp only
  rw [if_neg (by simp [hs, hl, hd, hu]), hc]
  rfl

theorem resetTold_frame (c : Nat) (r : CtxReset) (s : State) : Only [.qf] s (resetTold c r s) :=
  Only.foldl _ (fun s _ => Only.ite (Only.refl _ s) (completion_frame _ _ _ _ _ _ s)) _ (Only.refl _ s)

theorem resetAnnounced_frame (c : Nat) (e : Rec) (s : State) : Only [.ctxs] s (resetAnnounced c e s) :=
  (onCtx_frame _ _ _).after (by decide) (Only.ite (onCtx_frame _ _ _) (sendNtf_frame _ _ _))

theorem resetAnnounced_other (c : Nat) (e : Rec) (s : State) {d : Nat} (h : d ≠ c) : (resetAnnounced c e s).cx d = s.cx d := by
  unfold resetAnnounced
  rw [onCtx_other _ _ h]
  split
  · exact onCtx_other _ s h
  · exact sendNtf_other e s h

theorem resetAnnounced_down {c : Nat} (e : Rec) {s : State} (hp : s.portDown c = true) : (resetAnnounced c e s).cx c = { s.cx c with restart := some e, ntfCredit := 0 } := by
  unfold resetAnnounced
  rw [onCtx_same, if_pos hp, onCtx_same]

theorem resetAnnounced_up {c : Nat} (e : Rec) {s : State} (hp : s.portDown c = false) : (resetAnnounced c e s).cx c = { (sendNtf c e s).cx c with ntfCredit := 0 } := by
  unfold resetAnnounced
  rw [onCtx_same, if_neg (by simp [hp])]

theorem resetCleared_same (c : Nat) (s : State) : (resetCleared c s).cx c = { s.cx c with accSeq := 0, arrSeq := 0, devSeq := 0, last := none, reset := none } := onCtx_same c _ s

/-- Settles O13: the sequences restart before the entry is numbered, so that it leaves under SEQ 0. -/
theorem contextResetEnds : Obligations.ContextResetEnds := by
  intro c s r hr hs hc hl hd hu
  let t := resetCleared c s
  let a := resetAnnounced c (resetEntry c r t) t
  have told := resetTold_frame c r a
  have cx (d : Nat) : (resetTold c r a).cx d = a.cx d := cx_of_frame told (by decide) d
  have port : t.portDown c = s.portDown c := portDown_congr (by rw [resetCleared_same]) rfl
  have cleared : (a.cx c).accSeq = 0 ∧ (a.cx c).arrSeq = 0 ∧ (a.cx c).last = none ∧ (a.cx c).reset = none ∧ (a.cx c).ntfCredit = 0 := by
    cases hp : t.portDown c with
    | true =>
      rw [resetAnnounced_down _ hp, resetCleared_same]
      exact ⟨rfl, rfl, rfl, rfl, rfl⟩
    | false =>
      rw [resetAnnounced_up _ hp, sendNtf_same, resetCleared_same]
      exact ⟨rfl, rfl, rfl, rfl, rfl⟩
  obtain ⟨acc, arr, last, reset, credit⟩ := cleared
  refine ⟨resetTold c r a, ctxResetDone_ends hr hs hc hl hd hu, ?_⟩
  rw [cx c]
  refine ⟨acc, arr, last, reset, credit, fun hp => ?_, fun d k => ?_, ?_⟩
  · rw [resetAnnounced_up _ (port.trans hp), sendNtf_same, resetCleared_same]
    exact ⟨_, rfl, rfl, rfl, ntfEntry_kind 3 _ _ _⟩
  · rw [cx d, resetAnnounced_other c _ t k]
    exact onCtx_other _ s k
  · exact told.after (by decide) ((resetAnnounced_frame c _ t).after (by decide) ((onCtx_frame c _ s).sub (by decide)))

end Sys2Proof.Machine

namespace Sys2Proof.Machine

/-! ### System opcodes (R67, R94, R96, R105, R106) -/

theorem pingSpec_run (r : Req) (s : State) : pingSpec.run r s = { st := s, status := .ok, detail := 0, data := le 6 s.tbNow.toNat ++ zeros 2 ++ r.b } := rfl

theorem ping_echoes (r : Req) (s : State) : rd (pingSpec.run r s).data 0 6 = s.tbNow.toNat ∧ (pingSpec.run r s).data.drop 8 = r.b := by
  rw [pingSpec_run]
  refine ⟨?_, List.drop_left' (by simp [le_length, zeros])⟩
  rw [List.append_assoc, rd_le 6 _ 6 _ rfl]
  exact Nat.mod_eq_of_lt s.tbNow.isLt

/-- A little-endian field behind octets of known number reads its value. -/
theorem rd_field (pre post : Rec) (k off v : Nat) (h : pre.length = off) (hv : v < 256 ^ k) : rd (pre ++ (le k v ++ post)) off k = v := by
  rw [rd_skip pre _ off k (Nat.le_of_eq h), h, Nat.sub_self, rd_le k v k _ rfl, Nat.mod_eq_of_lt hv]

/-- The octets of GET_INFO before the boot epoch (R5). -/
def infoHead (s : State) : Rec :=
  le 2 0x6418 ++ [if Config.variantK then 0x4B else 0x53, 1, Config.hearthRev, Config.anvilRev, 0, 0] ++ le 8 Config.uid.toNat ++ le 4 s.fwVer
    ++ [BitVec.ofNat 8 s.upd.active, BitVec.ofNat 8 s.com.mode]

/-- The octets of GET_INFO behind the TB of the frame. -/
def infoTail (r : Req) (s : State) : Rec :=
  [BitVec.ofNat 8 r.h.ctx, BitVec.ofNat 8 (ctxPriv (s.cx r.h.ctx))] ++ le 4 ((s.sched.img.map imgSchedId).getD 0) ++ le 2 (unitCount 6) ++ le 2 (ctxFree (s.cx r.h.ctx))

theorem getInfo_data (r : Req) (s : State) :
    (getInfoSpec.run r s).data = infoHead s ++ (le 2 s.link.epoch.toNat ++ (le 6 s.clk.frameTb.toNat ++ infoTail r s)) := by
  show _ ++ le 2 _ ++ _ ++ _ ++ _ ++ _ ++ _ = _
  simp only [infoHead, infoTail, List.append_assoc]

theorem infoHead_length (s : State) : (infoHead s).length = 22 := by simp [infoHead, le_length]

theorem getInfo_tells (r : Req) (s : State) :
    rd (getInfoSpec.run r s).data 0 2 = 0x6418 ∧ rd (getInfoSpec.run r s).data 22 2 = s.link.epoch.toNat ∧ rd (getInfoSpec.run r s).data 24 6 = s.clk.frameTb.toNat
      ∧ (getInfoSpec.run r s).data.length = 40 := by
  rw [getInfo_data]
  refine ⟨?_, rd_field _ _ 2 22 _ (infoHead_length s) s.link.epoch.isLt, ?_, by simp [infoHead_length, infoTail, le_length]⟩
  · simp only [infoHead, List.append_assoc]
    exact rd_le 2 0x6418 2 _ rfl
  · rw [← List.append_assoc]
    exact rd_field _ _ 6 24 _ (by simp [infoHead_length, le_length]) s.clk.frameTb.isLt

/-- A queue passes to another owner as any unit does (R120). -/
theorem handQueue_role (q o : Nat) (s : State) (k : Nat) : (handQueue q o s).role k = (giveUnit 3 q o s).role k := by
  unfold handQueue
  dsimp only
  split <;> rfl

theorem bridgePartner_ne {s : State} {t i p : Nat} (h : bridgePartner s t i = some p) : p ≠ i := by
  unfold bridgePartner at h
  split at h
  · rename_i pair
    split at h
    · injection h
      omega
    · injection h
      omega
  · cases h

theorem ukey_ne {t p i : Nat} (h : p ≠ i) : ukey t p ≠ ukey t i := by
  unfold ukey
  omega

theorem transferUnit_kept {t i o : Nat} {s : State} (h : s.owner t i = o) : transferUnit t i o s = s := if_pos h

/-- The unit itself passes (R96), a queue with its host endpoint (R120). -/
def unitHanded (t i o : Nat) (s : State) : State := if t = 3 then handQueue i o s else giveUnit t i o s

theorem unitHanded_role (t i o : Nat) (s : State) (k : Nat) : (unitHanded t i o s).role k = (giveUnit t i o s).role k := by
  unfold unitHanded
  split
  · rename_i h
    subst h
    exact handQueue_role i o s k
  · rfl

theorem transferUnit_moved {t i o : Nat} {s : State} (h : s.owner t i ≠ o) :
    transferUnit t i o s = (bridgePartner s t i).elim (unitHanded t i o s) (giveUnit t · o (unitHanded t i o s)) := by
  unfold transferUnit
  rw [if_neg h]
  cases bridgePartner s t i <;> rfl

/-- The role of the unit that passes. -/
theorem transferUnit_same {t i o : Nat} {s : State} (h : s.owner t i ≠ o) : (transferUnit t i o s).role (ukey t i) = { owner := o, gen := nextGen (s.gen t i) } := by
  have handed : (unitHanded t i o s).role (ukey t i) = { owner := o, gen := nextGen (s.gen t i) } := (unitHanded_role t i o s _).trans (giveUnit_same t i o s)
  rw [transferUnit_moved h]
  cases hp : bridgePartner s t i with
  | none => exact handed
  | some p => exact (giveUnit_other t p o _ (ukey_ne (bridgePartner_ne hp).symm)).trans handed

/-- Every unit but it and its bridge partner keeps its role. -/
theorem transferUnit_other (t i o : Nat) (s : State) {k : Nat} (hk : k ≠ ukey t i) (hp : ∀ p, bridgePartner s t i = some p → k ≠ ukey t p) :
    (transferUnit t i o s).role k = s.role k := by
  by_cases h : s.owner t i = o
  · rw [transferUnit_kept h]
  · have handed : (unitHanded t i o s).role k = s.role k := (unitHanded_role t i o s k).trans (giveUnit_other t i o s hk)
    rw [transferUnit_moved h]
    cases hb : bridgePartner s t i with
    | none => exact handed
    | some p => exact (giveUnit_other t p o _ (hp p hb)).trans handed

theorem unitClaim_gives (r : Req) (s : State) :
    let t := (unitClaimSpec.run r s).st
    let ty := rd r.b 0 1
    let i := unitIx r.b
    (s.owner ty i = rd r.b 6 1 → t = s) ∧ (t.role (ukey ty i)).owner = rd r.b 6 1
      ∧ (s.owner ty i ≠ rd r.b 6 1 → (t.role (ukey ty i)).gen = nextGen (s.gen ty i))
      ∧ (∀ k, k ≠ ukey ty i → (∀ p, bridgePartner s ty i = some p → k ≠ ukey ty p) → t.role k = s.role k) ∧ Only [.roles, .qf, .bus] s t := by
  intro t ty i
  have run : t = transferUnit ty i (rd r.b 6 1) s := rfl
  rw [run]
  refine ⟨transferUnit_kept, ?_, fun h => congrArg Role.gen (transferUnit_same h), fun k => transferUnit_other ty i _ s, transferUnit_frame _ _ _ s⟩
  by_cases h : s.owner ty i = rd r.b 6 1
  · rw [transferUnit_kept h]
    exact h
  · rw [transferUnit_same h]

theorem ctxConfig_disabled {r : Req} {s : State} (h : ctxEnabled (s.cx (rd r.b 0 1)) = false) :
    ctxConfigSpec.run r s = { st := applyCtxCfg r.b s, status := .ok, detail := 0, data := [] } := if_neg (by simp [h])

/-- The reset that a CTX_CONFIG of an enabled context notes (R106). -/
def configReset (r : Req) : CtxReset := { requester := r.h.ctx, reqSeq := r.h.seq, op := 0x0032, started := false, returned := 0, cfg := some r.b, more := [] }

theorem ctxConfig_enabled {r : Req} {s : State} (h : ctxEnabled (s.cx (rd r.b 0 1)) = true) :
    ctxConfigSpec.run r s = { st := onCtx (rd r.b 0 1) (fun x => { x with reset := some (configReset r) }) s, status := .pending, detail := 0, data := [] } := if_pos h

theorem applyCtxCfg_cx (b : Rec) (s : State) (c : Nat) : (applyCtxCfg b s).cx c = (onCtx (rd b 0 1) (fun x => { x with cfg := b }) s).cx c := rfl

theorem ctxConfig_takes (r : Req) (s : State) :
    let t := (ctxConfigSpec.run r s).st
    let c := rd r.b 0 1
    (ctxEnabled (s.cx c) = false → (t.cx c).cfg = r.b ∧ tget (fun _ => zeros 16) t.com.ctxCfg c = r.b ∧ (ctxConfigSpec.run r s).status = .ok)
      ∧ (ctxEnabled (s.cx c) = true → (∃ x, (t.cx c).reset = some x ∧ x.cfg = some r.b ∧ x.requester = r.h.ctx ∧ x.started = false) ∧ (ctxConfigSpec.run r s).status = .pending)
      ∧ ∀ d, d ≠ c → t.cx d = s.cx d := by
  intro t c
  refine ⟨fun h => ?_, fun h => ?_, fun d hd => ?_⟩
  · simp only [t, ctxConfig_disabled h, applyCtxCfg_cx, c, onCtx_same]
    exact ⟨trivial, tget_tput_same _ _ _ _, trivial⟩
  · simp only [t, ctxConfig_enabled h, c, onCtx_same]
    exact ⟨⟨_, rfl, rfl, rfl, rfl⟩, trivial⟩
  · cases h : ctxEnabled (s.cx c) with
    | false =>
      simp only [t, ctxConfig_disabled h, applyCtxCfg_cx]
      exact onCtx_other _ s hd
    | true =>
      simp only [t, ctxConfig_enabled h]
      exact onCtx_other _ s hd

/-- Settles O16: the laws of acceptance, and what each of the four opcodes does. -/
theorem systemOpcodes : Obligations.SystemOpcodes :=
  ⟨acts_of _ _ _ rfl rfl (fun _ _ => rfl) (fun _ _ _ => rfl), tells_of _ _ _ rfl (.inl rfl) rfl (fun _ _ _ => rfl), waits_of _ _ _ rfl rfl (fun _ _ _ => rfl),
    waits_of _ _ _ rfl rfl (fun _ _ _ => rfl), fun r s => ⟨rfl, rfl, ping_echoes r s⟩, fun r s => ⟨rfl, getInfo_tells r s⟩, unitClaim_gives, ctxConfig_takes⟩

end Sys2Proof.Machine

namespace Sys2Proof.Machine

/-! ### The diagnostic space (R100 to R103) -/

/-- Octets written one by one from an address on: each is read back from its place, and no other place changes. -/
theorem foldl_write {σ β : Type} (get : σ → Nat → β) (put : σ → Nat → Octet → σ) (v : Octet → β) (hs : ∀ t j o, get (put t j o) j = v o)
    (ho : ∀ t j o i, i ≠ j → get (put t j o) i = get t i) (off : Nat) (b : Rec) (k : Nat) (t : σ) :
    (∀ j, j < b.length → some (get ((b.zipIdx k).foldl (fun t e => put t (off + e.2) e.1) t) (off + k + j)) = b[j]?.map v)
      ∧ ∀ i, (i < off + k ∨ off + k + b.length ≤ i) → get ((b.zipIdx k).foldl (fun t e => put t (off + e.2) e.1) t) i = get t i := by
  induction b generalizing k t with
  | nil => exact ⟨fun j hj => absurd hj (Nat.not_lt_zero j), fun i _ => rfl⟩
  | cons o b ih =>
    obtain ⟨inside, outside⟩ := ih (k + 1) (put t (off + k) o)
    simp only [List.zipIdx_cons, List.foldl_cons, List.length_cons]
    refine ⟨fun j hj => ?_, fun i hi => ?_⟩
    · cases j with
      | zero =>
        rw [outside (off + k + 0) (.inl (by omega))]
        simp [hs]
      | succ j =>
        have at_ : off + k + (j + 1) = off + (k + 1) + j := by omega
        rw [at_, inside j (by omega)]
        rfl
    · rw [outside i (by omega), ho _ _ _ _ (by omega)]

theorem rd_three (x y z : Octet) : rd [x, y, z] 0 3 = x.toNat + 256 * (y.toNat + 256 * z.toNat) := rfl

/-- The octets of a word of three octets (R102). -/
theorem octet_ofNat_rd (l : Rec) (hl : l.length = 3) (m : Nat) (hm : m < 3) : some (((BitVec.ofNat 24 (rd l 0 3)) >>> (8 * m)).truncate 8) = l[m]? := by
  obtain ⟨x, y, z, rfl⟩ : ∃ x y z, l = [x, y, z] := match l, hl with | [x, y, z], _ => ⟨x, y, z, rfl⟩
  have hx := x.isLt
  have hy := y.isLt
  have hz := z.isLt
  rw [rd_three]
  match m, hm with
  | 0, _ => exact congrArg some (BitVec.eq_of_toNat_eq (by simp; omega))
  | 1, _ => exact congrArg some (BitVec.eq_of_toNat_eq (by simp [Nat.shiftRight_eq_div_pow]; omega))
  | 2, _ => exact congrArg some (BitVec.eq_of_toNat_eq (by simp [Nat.shiftRight_eq_div_pow]; omega))

theorem getElem?_le_three (w : W24) (m : Nat) (hm : m < 3) : (le 3 w.toNat)[m]? = some ((w >>> (8 * m)).truncate 8) := by
  match m, hm with
  | 0, _ => exact congrArg some (BitVec.eq_of_toNat_eq (by simp))
  | 1, _ => exact congrArg some (BitVec.eq_of_toNat_eq (by simp [Nat.shiftRight_eq_div_pow]))
  | 2, _ => exact congrArg some (BitVec.eq_of_toNat_eq (by simp [Nat.shiftRight_eq_div_pow]; omega))

theorem putAt_octet (l : Rec) (k : Nat) (o : Octet) (h : k < l.length) : putAt l k [o] = l.set k o := by
  unfold putAt
  rw [Nat.sub_eq_zero_of_le (Nat.le_of_lt h), List.replicate_zero, List.append_nil, List.set_eq_take_append_cons_drop, if_pos h, List.append_assoc]
  rfl

theorem setWordOctet_octet (w : W24) (k m : Nat) (o : Octet) (hk : k < 3) (hm : m < 3) :
    ((setWordOctet w k o) >>> (8 * m)).truncate 8 = if m = k then o else (w >>> (8 * m)).truncate 8 := by
  have len : ((le 3 w.toNat).set k o).length = 3 := by rw [List.length_set, le_length]
  apply Option.some.inj
  unfold setWordOctet
  rw [putAt_octet _ k o (by rw [le_length]; exact hk), octet_ofNat_rd _ len m hm, List.getElem?_set, le_length, getElem?_le_three w m hm]
  by_cases h : k = m
  · rw [if_pos h, if_pos hk, if_pos h.symm]
  · rw [if_neg h, if_neg (Ne.symm h)]

theorem putWordOctet_same (t : Tab W24) (j : Nat) (o : Octet) : wordOctet (putWordOctet t j o) j = o := by
  unfold wordOctet putWordOctet
  rw [tget_tmod_same, setWordOctet_octet _ _ _ _ (Nat.mod_lt j (by decide)) (Nat.mod_lt j (by decide)), if_pos rfl]

theorem putWordOctet_other (t : Tab W24) (j : Nat) (o : Octet) (i : Nat) (h : i ≠ j) : wordOctet (putWordOctet t j o) i = wordOctet t i := by
  unfold wordOctet putWordOctet
  by_cases word : i / 3 = j / 3
  · rw [word, tget_tmod_same, setWordOctet_octet _ _ _ _ (Nat.mod_lt j (by decide)) (Nat.mod_lt i (by decide)), if_neg (by omega)]
  · rw [tget_tmod_other _ _ _ word]

/-- A core memory with octets written from `off` on (R102). -/
def putWordOctets (off : Nat) (b : Rec) (t : Tab W24) : Tab W24 := (b.zipIdx).foldl (fun t e => putWordOctet t (off + e.2) e.1) t

theorem putWordOctets_inside (off : Nat) (b : Rec) (t : Tab W24) {j : Nat} (h : j < b.length) : some (wordOctet (putWordOctets off b t) (off + j)) = b[j]? := by
  obtain ⟨inside, -⟩ := foldl_write wordOctet putWordOctet id putWordOctet_same putWordOctet_other off b 0 t
  exact (inside j h).trans (by simp)

theorem putWordOctets_outside (off : Nat) (b : Rec) (t : Tab W24) {j : Nat} (h : j < off ∨ off + b.length ≤ j) :
    wordOctet (putWordOctets off b t) j = wordOctet t j := by
  obtain ⟨-, outside⟩ := foldl_write wordOctet putWordOctet id putWordOctet_same putWordOctet_other off b 0 t
  exact outside j h

/-- The octets of a settings write are read back from the store (R103). -/
theorem store_inside (addr : Nat) (b : Rec) (t : Tab (Option Octet)) {j : Nat} (h : j < b.length) :
    tget storeDef ((b.zipIdx).foldl (fun t e => tput storeDef t (addr + e.2) (some e.1)) t) (addr + j) = b[j]? := by
  obtain ⟨inside, -⟩ := foldl_write (tget storeDef) (fun t j o => tput storeDef t j (some o)) some (fun t j o => tget_tput_same storeDef t j _)
    (fun t j o i k => tget_tput_other storeDef t _ k) addr b 0 t
  have read := inside j h
  rw [List.getElem?_eq_getElem h] at read ⊢
  exact Option.some.inj read

theorem onCore_same (c : Nat) (f : Core → Core) (s : State) : (onCore c f s).core c = f (s.core c) := tget_tmod_same coreDef _ c f

theorem onCore_other {c d : Nat} (f : Core → Core) (s : State) (h : d ≠ c) : (onCore c f s).core d = s.core d := tget_tmod_other coreDef s.ces.cores f h

theorem memWrite_run {r : Req} {base : Nat} {g : MemRegion} (s : State) (h : memRegion (memLine r.b) (memCount r.b) = some (base, g)) :
    (memWriteSpec.run r s).st = memPut g (16 * (memLine r.b - base)) (16 * memLine r.b) (r.b.drop 4) s := by
  unfold memWriteSpec
  dsimp only
  rw [h]

theorem memPut_program (c off addr : Nat) (b : Rec) (s : State) :
    memPut (.program c) off addr b s = onCore c (fun k => { k with prog := putWordOctets off b k.prog }) s := rfl

theorem memPut_data (c off addr : Nat) (b : Rec) (s : State) :
    memPut (.data c) off addr b s = onCore c (fun k => { k with data := putWordOctets off b k.data }) s := rfl

theorem memRead_data {r : Req} {base : Nat} {g : MemRegion} (s : State) (h : memRegion (memLine r.b) (memCount r.b) = some (base, g)) :
    (memReadSpec.run r s).data = (List.range (16 * memCount r.b)).map (fun i => memOctet s s.fn g (16 * (memLine r.b - base) + i) (16 * memLine r.b + i)) := by
  unfold memReadSpec readSpec answer
  dsimp only
  rw [h]

/-- Settles O17: a region's octets are those of its range of places; what is written lies behind LINE and COUNT in the payload. -/
theorem diagnosticSpace : Obligations.DiagnosticSpace := by
  refine ⟨tells_of _ _ _ rfl (.inl rfl) rfl (fun _ _ _ => rfl), waits_of _ _ _ rfl rfl (fun _ _ _ => rfl), fun r s base g h => ?read, fun r s base c hl => ?write⟩
  case read =>
    rw [memRead_data s h]
    exact ⟨by simp, fun i hi => by simp [hi]⟩
  case write =>
    intro off t
    have len : (r.b.drop 4).length = 16 * memCount r.b := by rw [List.length_drop, hl, Nat.add_sub_cancel_left]
    have octet (j : Nat) : (r.b.drop 4)[j]? = r.b[4 + j]? := List.getElem?_drop
    refine ⟨fun h => ?_, fun h => ?_, fun h => ?_⟩
    · have run : t = onCore c (fun k => { k with prog := putWordOctets off (r.b.drop 4) k.prog }) s := (memWrite_run s h).trans (memPut_program c _ _ _ s)
      rw [run, onCore_same]
      exact ⟨fun j hj => (putWordOctets_inside _ _ _ (by rwa [len])).trans (octet j), fun j hj => putWordOctets_outside _ _ _ (by rwa [len]), rfl,
        fun d hd => onCore_other _ s hd, onCore_frame _ _ s⟩
    · have run : t = onCore c (fun k => { k with data := putWordOctets off (r.b.drop 4) k.data }) s := (memWrite_run s h).trans (memPut_data c _ _ _ s)
      rw [run, onCore_same]
      exact ⟨fun j hj => (putWordOctets_inside _ _ _ (by rwa [len])).trans (octet j), fun j hj => putWordOctets_outside _ _ _ (by rwa [len]), rfl,
        fun d hd => onCore_other _ s hd, onCore_frame _ _ s⟩
    · have run : t = memPut (.settings c) off (16 * memLine r.b) (r.b.drop 4) s := memWrite_run s h
      rw [run]
      exact ⟨fun j hj => (store_inside _ _ _ (by rwa [len])).trans (octet j), onUpd_frame _ s⟩

end Sys2Proof.Machine

namespace Sys2Proof.Machine

/-! ### ETH_CONFIG without MACsec (R487, R492) -/

theorem onEth_same (p : Nat) (f : EthPort → EthPort) (s : State) : (onEth p f s).eth p = f (s.eth p) := tget_tmod_same EthPort.initial _ p f

theorem onEth_other {p q : Nat} (f : EthPort → EthPort) (s : State) (h : q ≠ p) : (onEth p f s).eth q = s.eth q := tget_tmod_other EthPort.initial s.bus.eth f h

theorem eth_of_frame {l : List Part} {s t : State} (h : Only l s t) (hb : Part.bus ∉ l) (p : Nat) : t.eth p = s.eth p := by
  unfold State.eth
  rw [h .bus hb]

/-- Without MACsec a record installs no security association: it stands in force, and the port keeps its link and its transmit PN. -/
theorem ethInstall_plain (p : Nat) (old new : Rec) (s : State) (h : efMacsec new = false) : ∃ f : EthPort → EthPort, ethInstall p old new s = onEth p f s
    ∧ ∀ k, (f k).cfg = new ∧ (f k).link = k.link ∧ (f k).txPn = k.txPn := by
  have none_ : ethInstalls old new = [] := if_pos (by simp [h])
  unfold ethInstall
  simp only [none_, List.foldl_nil]
  exact ⟨_, rfl, fun k => ⟨rfl, rfl, rfl⟩⟩

theorem ethConfig_run {r : Req} {s : State} (hr : rd (s.eth (rd (sub r.b 8 40) 0 1)).cfg 1 1 % 16 = rd (sub r.b 8 40) 1 1 % 16) :
    (ethConfigSpec.run r s).st =
      (let c := sub r.b 8 40
       let p := rd c 0 1
       let t := ethInstall p (s.eth p).cfg c s
       if (s.eth p).cfg = c then t else reassign 4 (20 + p) t) := by
  unfold ethConfigSpec
  dsimp only
  simp only [hr, ne_eq, not_true_eq_false, false_and, if_false]

theorem ethConfig_takes (r : Req) (s : State) :
    let c := sub r.b 8 40
    let p := rd c 0 1
    let t := (ethConfigSpec.run r s).st
    efMacsec c = false → rd (s.eth p).cfg 1 1 % 16 = rd c 1 1 % 16 → (t.eth p).cfg = c ∧ (t.eth p).link = (s.eth p).link ∧ (t.eth p).txPn = (s.eth p).txPn
      ∧ t.gen 4 (20 + p) = (if (s.eth p).cfg = c then s.gen 4 (20 + p) else nextGen (s.gen 4 (20 + p))) ∧ t.owner 4 (20 + p) = s.owner 4 (20 + p)
      ∧ (∀ q, q ≠ p → t.eth q = s.eth q) ∧ (∀ k, k ≠ ukey 4 (20 + p) → t.role k = s.role k) ∧ Only [.roles, .bus] s t := by
  intro c p t hm hr
  obtain ⟨f, install, kept⟩ := ethInstall_plain p (s.eth p).cfg c s hm
  obtain ⟨cfg, link, pn⟩ := kept (s.eth p)
  have run : t = if (s.eth p).cfg = c then onEth p f s else reassign 4 (20 + p) (onEth p f s) := by rw [← install]; exact ethConfig_run hr
  have port (q : Nat) : t.eth q = (onEth p f s).eth q := by
    rw [run]
    split <;> rfl
  have role (k : Nat) (hk : k ≠ ukey 4 (20 + p)) : t.role k = s.role k := by
    rw [run]
    split
    · rfl
    · exact reassign_other 4 (20 + p) _ hk
  have own : t.role (ukey 4 (20 + p)) = { s.role (ukey 4 (20 + p)) with gen := if (s.eth p).cfg = c then s.gen 4 (20 + p) else nextGen (s.gen 4 (20 + p)) } := by
    rw [run]
    split
    · rfl
    · exact reassign_same 4 (20 + p) _
  have frame : Only [.roles, .bus] s t := by
    rw [run]
    have bus : Only [.roles, .bus] s (onEth p f s) := (onEth_frame p f s).sub (by decide)
    exact Only.ite bus ((reassign_frame _ _ _).after (by decide) bus)
  refine ⟨?_, ?_, ?_, congrArg Role.gen own, by unfold State.owner; rw [own], fun q hq => (port q).trans (onEth_other f s hq), role, frame⟩
  · rw [port, onEth_same, cfg]
  · rw [port, onEth_same, link]
  · rw [port, onEth_same, pn]

/-! ### Frames received (R76, R78, R488, R489) -/

/-- A frame that a port does not take counts as other (R488). -/
def ethOther (p : Nat) (s : State) : State := onEth p (fun k => { k with rxOther := k.rxOther + 1 }) s

/-- The context bound to the source and the VLAN of a frame (R78). -/
def ethBound (p : Nat) (f : EthFrame) (s : State) : Option Nat :=
  (List.range 16).find? (fun c => decide (c ≠ 0) && decide (ctxTransport (s.cx c) = p + 1) && decide (rd (s.cx c).cfg 4 6 = f.src)
    && decide (rd (s.cx c).cfg 10 2 % 4096 = f.vlan))

section
variable {p : Nat} {f : EthFrame} {s : State} (hp : p < 2) (hl : (s.eth p).link = true) (hu : s.hearthUp = true)
include hp hl hu

theorem ethReceive_foreign (h : 9000 < f.payload.length ∨ f.dst ≠ ethMac (s.eth p).cfg) : ethReceive opSpec p f s = ethOther p s := by
  unfold ethReceive
  dsimp only
  rw [if_neg (by simp [hl, hu, hp]), if_pos h]
  rfl

/-- A frame for the port that has no MACsec: its packets, or a frame of another kind. -/
theorem ethReceive_plain (hlen : f.payload.length ≤ 9000) (hdst : f.dst = ethMac (s.eth p).cfg) (hm : efMacsec (s.eth p).cfg = false) :
    ethReceive opSpec p f s = if f.etype ≠ efType (s.eth p).cfg ∨ f.sec.isSome = true then ethOther p s
      else takePackets opSpec (ethBound p f s) (fun s => raise 5 0 (onEth p (fun k => { k with bindCount := k.bindCount + 1 }) s)) true 3 (f.payload.length + 1) f.payload
        (onEth p (fun k => { k with rxFrames := k.rxFrames + 1 }) s) := by
  have check : ethCheck p f s = .ok none := if_pos (by simp [hm])
  unfold ethReceive
  dsimp only
  rw [if_neg (by simp [hl, hu, hp]), if_neg (by simp [hdst]; omega), check]
  dsimp only
  simp only [Option.isNone_none, Bool.and_true, Bool.or_eq_true, decide_eq_true_eq]
  rfl

end

/-! ### Links (R87, R88, R493) -/

theorem linkRestart_other {c d : Nat} (cause : Nat) (s : State) (h : d ≠ c) : (linkRestart c cause s).cx d = s.cx d := by
  unfold linkRestart
  dsimp only
  split
  · exact onCtx_other _ s h
  · exact (onCtx_other _ _ h).trans (sendNtf_other _ s h)

/-- What a link going down makes of one context: what waits is discarded, its credit goes back with LINK_RESTART. -/
def ethLostCtx (p : Nat) (s : State) (c : Nat) : State :=
  let x := s.cx c
  if c ≠ 0 && ctxTransport x = p + 1 then
    let rp := ((x.out.filter (·.reply)).map (fun d => cellsOf (devLen d))).sum
    let s := onCtx c (fun y => { y with out := [], rpRel := y.rpRel + rp, creditRet := y.creditRet + (y.out.map (·.creditRet)).sum }) s
    linkRestart c 2 s
  else s

theorem ethLost_eq (p : Nat) (s : State) : ethLost p s = (List.range 16).foldl (ethLostCtx p) (onEth p (fun k => { k with link := false }) s) := rfl

theorem ethLostCtx_frame (p : Nat) (s : State) (c : Nat) : Only [.ctxs] s (ethLostCtx p s c) :=
  Only.ite ((linkRestart_frame c 2 _).after (by decide) (onCtx_frame c _ s)) (Only.refl _ s)

/-- A context of another transport keeps what it has. -/
theorem ethLostCtx_other (p : Nat) (s : State) (a c : Nat) (h : ctxTransport (s.cx c) ≠ p + 1) : (ethLostCtx p s a).cx c = s.cx c := by
  unfold ethLostCtx
  dsimp only
  split
  · rename_i bound
    have ne : c ≠ a := by
      rintro rfl
      simp [h] at bound
    exact (linkRestart_other 2 _ ne).trans (onCtx_other _ s ne)
  · rfl

theorem ethLost_drops (p : Nat) (s : State) : ((ethLost p s).eth p).link = false ∧ (∀ q, q ≠ p → (ethLost p s).eth q = s.eth q)
    ∧ (∀ c, ctxTransport (s.cx c) ≠ p + 1 → (ethLost p s).cx c = s.cx c) ∧ Only [.ctxs, .bus] s (ethLost p s) := by
  have later : Only [.ctxs] (onEth p (fun k => { k with link := false }) s) (ethLost p s) := Only.foldl _ (ethLostCtx_frame p) _ (Only.refl _ _)
  have port := eth_of_frame later (by decide)
  refine ⟨?_, fun q hq => (port q).trans (onEth_other _ s hq), fun c hc => ?_, ethLost_frame p s⟩
  · rw [port, onEth_same]
  · rw [ethLost_eq]
    refine List.foldlRecOn (motive := fun t : State => t.cx c = s.cx c) _ _ ?_ (fun t ht a _ => (ethLostCtx_other p t a c (ht ▸ hc)).trans ht)
    rfl

theorem ethLinkDown_raises {p : Nat} {s : State} (hp : p < 2) (hl : (s.eth p).link = true) : exec (.ethLinkDown p) s = .next (ethLost p (raise 0x130 p s)) :=
  if_neg (by simp [hl, hp])

/-- What a link coming up makes of one context: its LINK_RESTART that waited goes ahead (R87). -/
def ethUpCtx (p : Nat) (s : State) (c : Nat) : State :=
  let x := s.cx c
  if c ≠ 0 && ctxTransport x = p + 1 then
    match x.restart with
    | some e => onCtx c (fun y => { y with ntfCredit := 0 }) (sendNtf c e (onCtx c (fun y => { y with restart := none }) s))
    | none => s
  else s

theorem ethLinkUp_restarts {p : Nat} {s : State} (hp : p < 2) (hl : (s.eth p).link = false) (hu : s.hearthUp = true) :
    exec (.ethLinkUp p) s = .next (ethDrain ((List.range 16).foldl (ethUpCtx p) (onEth p (fun k => { k with link := true }) s))) :=
  if_neg (by simp [hl, hu, hp])

theorem ethUpCtx_frame (p : Nat) (s : State) (c : Nat) : Only [.ctxs] s (ethUpCtx p s c) := by
  unfold ethUpCtx
  dsimp only
  split
  · split
    · exact (onCtx_frame c _ _).after (by decide) ((sendNtf_frame c _ _).after (by decide) (onCtx_frame c _ s))
    · exact Only.refl _ s
  · exact Only.refl _ s

theorem ethUpCtx_other (p : Nat) (s : State) {a c : Nat} (h : c ≠ a) : (ethUpCtx p s a).cx c = s.cx c := by
  unfold ethUpCtx
  dsimp only
  split
  · split
    · rw [onCtx_other _ _ h, sendNtf_other _ _ h, onCtx_other _ _ h]
    · rfl
  · rfl

/-- A context of another transport, or without a LINK_RESTART that waits, keeps what it has. -/
theorem ethUpCtx_none {p : Nat} {s : State} {c : Nat} (h : ctxTransport (s.cx c) ≠ p + 1 ∨ (s.cx c).restart = none) : ethUpCtx p s c = s := by
  unfold ethUpCtx
  dsimp only
  rcases h with h | h
  · rw [if_neg (by simp [h])]
  · rw [h]
    exact ite_self s

theorem ethUpCtx_waiting {p : Nat} {s : State} {c : Nat} {e : Rec} (hc : c ≠ 0) (ht : ctxTransport (s.cx c) = p + 1) (he : (s.cx c).restart = some e) :
    ((ethUpCtx p s c).cx c).restart = none ∧ ((ethUpCtx p s c).cx c).ntfCredit = 0 ∧ ∃ d, ((ethUpCtx p s c).cx c).out = (s.cx c).out ++ [d] ∧ d.payload = e := by
  unfold ethUpCtx
  dsimp only
  rw [if_pos (by simp [hc, ht]), he]
  dsimp only
  rw [onCtx_same, sendNtf_same, onCtx_same]
  exact ⟨rfl, rfl, _, rfl, rfl⟩

theorem ethUpCtx_keeps {p : Nat} {s : State} {c : Nat} (h : ctxTransport (s.cx c) ≠ p + 1 ∨ (s.cx c).restart = none) (l : List Nat) :
    (l.foldl (ethUpCtx p) s).cx c = s.cx c :=
  List.foldlRecOn l _ (motive := fun t : State => t.cx c = s.cx c) rfl (fun t ht a _ => by
    by_cases e : c = a
    · subst e
      rw [ethUpCtx_none (by rwa [ht]), ht]
    · exact (ethUpCtx_other p t e).trans ht)

/-- Settles O40: opcodes by the laws of acceptance, frames by the branches of reception, links context by context. -/
theorem ethernetPorts : Obligations.EthernetPorts := by
  refine ⟨waits_of _ _ _ rfl rfl (fun _ _ _ => rfl), tells_of _ _ _ rfl (.inl rfl) rfl (fun _ _ _ => rfl), ethConfig_takes, fun p f s hp hl hu => ?received,
    fun p s => ethLinkDown_raises, ethLost_drops, fun p s hp hl hu => ?up⟩
  case received =>
    have frame {t : State} (h : ethReceive opSpec p f s = t) : exec (.ethFrameReceived p f) s = .next (ethDrain t) := by rw [← h]; rfl
    refine ⟨fun h => frame (ethReceive_foreign hp hl hu h), fun hlen hdst hm h => frame ?_, fun hlen hdst hm htype hsec => frame ?_⟩
    · rw [ethReceive_plain hp hl hu hlen hdst hm, if_pos h]
      rfl
    · rw [ethReceive_plain hp hl hu hlen hdst hm, if_neg (by simp [htype, hsec])]
      rfl
  case up =>
    let a := onEth p (fun k => { k with link := true }) s
    have later : Only [.ctxs] a ((List.range 16).foldl (ethUpCtx p) a) := Only.foldl _ (ethUpCtx_frame p) _ (Only.refl _ a)
    have port := eth_of_frame later (by decide)
    refine ⟨_, ethLinkUp_restarts hp hl hu, (port p).trans (onEth_same p _ s), fun q hq => (port q).trans (onEth_other _ s hq),
      fun c hc h0 ht => ⟨fun hn => ethUpCtx_keeps (s := a) (.inr hn) _, fun e he => ?_⟩, fun c hc => ethUpCtx_keeps (s := a) (.inl hc) _,
      later.after (by decide) ((onEth_frame p _ s).sub (by decide))⟩
    refine foldl_at (fun t => t.cx c = s.cx c) (fun t => (t.cx c).restart = none ∧ (t.cx c).ntfCredit = 0 ∧ ∃ d, (t.cx c).out = (s.cx c).out ++ [d] ∧ d.payload = e) (ethUpCtx p) c
      (fun t h => ?_) (fun t b k h => (ethUpCtx_other p t (Ne.symm k)).trans h) (fun t b k h => by rwa [ethUpCtx_other p t (Ne.symm k)]) _ (List.mem_range.mpr hc) List.nodup_range a rfl
    rw [← h]
    exact ethUpCtx_waiting h0 (by rw [h]; exact ht) (by rw [h]; exact he)

end Sys2Proof.Machine

namespace Sys2Proof.Machine

/-! ### HSPI ports and their contexts (R80, R84) -/

theorem onHspi_same (n : Nat) (f : Hspi → Hspi) (s : State) : (onHspi n f s).hspi n = f (s.hspi n) := by
  unfold onHspi State.hspi
  split <;> rfl

theorem onHspi_cx (n : Nat) (f : Hspi → Hspi) (s : State) (c : Nat) : (onHspi n f s).cx c = s.cx c := cx_of_frame (onHspi_frame n f s) (by decide) c

theorem onHspi_bound (n : Nat) (f : Hspi → Hspi) (s : State) : hspiBound n (onHspi n f s) = hspiBound n s := by
  unfold hspiBound
  simp only [onHspi_cx]

theorem csRise_outside {n : Nat} {s : State} (h : (s.hspi n).inPacket = false) : csRise n s = s := if_neg (by simp [h])

theorem csRise_inside {n c : Nat} {s : State} (h : (s.hspi n).inPacket = true) (hb : hspiBound n s = some c) :
    csRise n s = linkRestart c 1 (onHspi n (fun h => { h with inPacket := false }) s) := by
  unfold csRise
  dsimp only
  rw [if_pos h, onHspi_bound, hb]

/-! ### One whole packet on a transport (R58, R69, R76, R82) -/

theorem takePackets_nil (tab : Nat → Option OpSpec) (bound : Option Nat) (unbound : State → State) (pad : Bool) (cause k : Nat) (s : State) :
    takePackets tab bound unbound pad cause k [] s = s := by
  cases k <;> rfl

section
variable {b : Rec} (hb : 20 ≤ b.length) (hl : b.length = 20 + rd b 8 2)
include hb hl

theorem takePackets_one (tab : Nat → Option OpSpec) (bound : Option Nat) (unbound : State → State) (cause k : Nat) (s : State) :
    takePackets tab bound unbound false cause (k + 1) b s = takePacket tab bound b unbound s := by
  have some_ : b.isEmpty = false := List.isEmpty_eq_false_iff.mpr (fun e => by simp [e] at hb)
  unfold takePackets
  dsimp only
  rw [if_neg (by simp [some_]), if_neg (by omega), ← hl, List.drop_length, List.take_length, takePackets_nil]

/-- The CRC of a packet stands in its last four octets (R58, R59). -/
theorem pktOf_crcPlace : 16 + (pktOf b).body.length = b.length - 4 := by
  have body : (pktOf b).body.length = min (rd b 8 2) (b.length - 16) := by
    unfold pktOf
    rw [List.length_take, List.length_drop]
  omega

theorem takePacket_delivers {tab : Nat → Option OpSpec} {c : Nat} {unbound : State → State} {s : State} (good : crc32c (b.take (b.length - 4)) = rd b (b.length - 4) 4)
    (hf : hdrFault b = none) : takePacket tab (some c) b unbound s = if (pktOf b).h.ctx ≠ c then unbound s else deliver tab (pktOf b) s := by
  unfold takePacket
  dsimp only
  rw [pktOf_crcPlace hb hl, if_neg (not_not_intro good), hf]

theorem takePacket_badCrc {tab : Nat → Option OpSpec} {c : Nat} {unbound : State → State} {s : State} (bad : ¬ crc32c (b.take (b.length - 4)) = rd b (b.length - 4) 4) :
    takePacket tab (some c) b unbound s = refuseEarly { pktOf b with h := { (pktOf b).h with ctx := c } } .crc 0 s := by
  unfold takePacket
  dsimp only
  rw [pktOf_crcPlace hb hl, if_pos bad]

theorem takePacket_unbound {tab : Nat → Option OpSpec} {unbound : State → State} {s : State} (good : crc32c (b.take (b.length - 4)) = rd b (b.length - 4) 4) :
    takePacket tab none b unbound s = unbound s := by
  unfold takePacket
  dsimp only
  rw [pktOf_crcPlace hb hl, if_neg (not_not_intro good)]

/-- A WRITE of one whole packet, clocked to its LEN, takes that packet and ends outside one (R82). -/
theorem hspiWrite_one {n : Nat} {s : State} (hn : n < 2) (hu : s.hearthUp = true) (hi : (s.hspi n).inPacket = false) (hmax : b.length ≤ 16384) :
    exec (.hspiWrite n b.length b) s = .next (ethDrain (onHspi n (fun h => { h with inPacket := false }) (takePacket opSpec (hspiBound n s) b (hspiUnbound n) s))) := by
  have lenOk : hspiLenOk b.length = true := decide_eq_true ⟨by omega, hmax⟩
  show execHspiWrite n b.length b s = _
  unfold execHspiWrite
  rw [if_neg (by simp [hu, hn, lenOk])]
  simp only [csRise_outside hi, List.take_length, Nat.le_refl, decide_true, if_true, Bool.not_true, Bool.false_and]
  rw [takePackets_one hb hl]

end

/-! ### READ and STATUS (R83, R85) -/

/-- A READ on a port bound to no context presents 00h. -/
theorem hspiRead_unbound {n len k : Nat} {s : State} (hn : n < 2) (hu : s.hearthUp = true) (hi : (s.hspi n).inPacket = false) (h1 : 1 ≤ len) (h2 : len ≤ 16384)
    (bound : hspiBound n s = none) : exec (.hspiRead n len k) s = .next (onHspi n (fun h => { h with out := zeros (min len k) }) s) := by
  have lenOk : hspiLenOk len = true := decide_eq_true ⟨h1, h2⟩
  show execHspiRead n len k s = _
  unfold execHspiRead
  rw [if_neg (by simp [hu, hn, lenOk])]
  simp only [csRise_outside hi, bound]

/-- A READ clocked to its LEN presents the packets that fit and takes them from the output of the context. -/
theorem hspiRead_bound {n len c : Nat} {s : State} (hn : n < 2) (hu : s.hearthUp = true) (hi : (s.hspi n).inPacket = false) (h1 : 1 ≤ len) (h2 : len ≤ 16384)
    (bound : hspiBound n s = some c) : exec (.hspiRead n len len) s =
      (let w := fitPackets len (s.cx c).out
       let o := w.flatMap (devOctets c)
       .next (onCtx c (fun x => { x with out := x.out.drop (fitPackets len w).length,
                                         rpRel := x.rpRel + (((fitPackets len w).filter (·.reply)).map (fun d => cellsOf (devLen d))).sum })
         (onHspi n (fun h => { h with out := (o ++ zeros (len - o.length)).take len }) s))) := by
  have lenOk : hspiLenOk len = true := decide_eq_true ⟨h1, h2⟩
  show execHspiRead n len len s = _
  unfold execHspiRead
  rw [if_neg (by simp [hu, hn, lenOk])]
  simp only [csRise_outside hi, bound, Nat.min_self]

/-- The eight octets of STATUS for the context bound to the port (R83). -/
def hspiStatusOctets (x : Ctx) : Rec :=
  le 2 ((x.out.head?.map devLen).getD 0) ++ le 2 (satN 65535 (x.out.map devLen).sum) ++ le 2 (ctxFree x) ++ le 2 x.arrSeq.toNat

theorem hspiStatus_run {n : Nat} {s : State} (hn : n < 2) (hu : s.hearthUp = true) (hi : (s.hspi n).inPacket = false) :
    exec (.hspiStatus n) s = .next (onHspi n (fun h => { h with out := (hspiBound n s).elim (zeros 8) (fun c => hspiStatusOctets (s.cx c)) }) s) := by
  show execHspiStatus n s = _
  unfold execHspiStatus
  rw [if_neg (by simp [hu, hn])]
  simp only [csRise_outside hi]
  cases hspiBound n s <;> rfl

theorem hspiCsRise_run {n : Nat} {s : State} (hn : n < 2) (hu : s.hearthUp = true) : exec (.hspiCsRise n) s = .next (csRise n s) := by
  show execHspiCsRise n s = _
  unfold execHspiCsRise
  rw [if_neg (by simp [hu, hn])]

/-- Settles O41: each transfer by its own equation. -/
theorem hspiTransfers : Obligations.HspiTransfers := by
  refine ⟨fun n b s hn hu hi hb hl hmax => ?write, fun n len c s hn hu hi h1 h2 bound => ?read, fun n c s hn hu hi bound => ?status, fun n len k s hn hu hi h1 h2 bound => ⟨?_, ?_⟩,
    fun n s hn hu => ⟨fun hi => ?_, fun c hi bound => ?_⟩⟩
  case write =>
    intro p good fin
    have run : exec (.hspiWrite n b.length b) s = .next (fin (takePacket opSpec (hspiBound n s) b (hspiUnbound n) s)) := hspiWrite_one hb hl hn hu hi hmax
    refine ⟨fun c bound crc hf hc => ?_, fun c bound crc => ?_, fun c bound crc hf hc => ?_, fun bound crc => ?_⟩
    · rw [run, bound, takePacket_delivers hb hl crc hf, if_neg (not_not_intro hc)]
    · rw [run, bound, takePacket_badCrc hb hl crc]
    · rw [run, bound, takePacket_delivers hb hl crc hf, if_pos hc]
    · rw [run, bound, takePacket_unbound hb hl crc]
  case read =>
    intro w o
    refine ⟨_, hspiRead_bound hn hu hi h1 h2 bound, ?_, ?_, ?_, fun d hd => (onCtx_other _ _ hd).trans (onHspi_cx n _ s d), (onCtx_frame c _ _).after (by decide) ((onHspi_frame n _ s).sub (by decide))⟩
    · exact congrArg Hspi.out (onHspi_same n _ s)
    · rw [onCtx_same, onHspi_cx]
    · rw [onCtx_same, onHspi_cx]
  case status =>
    refine ⟨_, hspiStatus_run hn hu hi, ?_, onHspi_frame n _ s⟩
    rw [onHspi_same, bound]
    rfl
  · exact hspiRead_unbound hn hu hi h1 h2 bound
  · rw [hspiStatus_run hn hu hi, bound]
    rfl
  · rw [hspiCsRise_run hn hu, csRise_outside hi]
  · rw [hspiCsRise_run hn hu, csRise_inside hi bound]

end Sys2Proof.Machine

namespace Sys2Proof.Machine

/-! ### Frames a packet may name (R155, R160) -/

/-- The earliest effect frame of a packet accepted at this instant. -/
def earliestFrame (s : State) : Fn := if s.tick < 40000 then s.fn + 1 else s.fn + 2

theorem effectFrame_zero (s : State) : effectFrame s 0 = (.ok, earliestFrame s) := rfl

/-- A frame is stale that is the present one, lies before the earliest, or lies in the past. -/
def staleTarget (s : State) (t : Fn) : Prop :=
  (t - s.fn).toNat = 0 ∨ (t - s.fn).toNat < (earliestFrame s - s.fn).toNat ∨ (t - s.fn).toNat ≥ 2 ^ 31

theorem effectFrame_stale {s : State} {t : Fn} (ht : t ≠ 0) (h : staleTarget s t) : effectFrame s t = (.staleTime, earliestFrame s) :=
  (if_neg ht).trans (if_pos h)

theorem effectFrame_ahead {s : State} {t : Fn} (ht : t ≠ 0) (h : ¬ staleTarget s t) :
    effectFrame s t = if (t - s.fn).toNat ≤ 60000 then (.ok, t) else (.range, earliestFrame s) :=
  (if_neg ht).trans (if_neg h)

/-- The earliest frame lies one or two frames ahead. -/
theorem earliestFrame_ahead (s : State) : (earliestFrame s - s.fn).toNat = 1 ∨ (earliestFrame s - s.fn).toNat = 2 := by
  unfold earliestFrame
  split
  · exact .inl (by bv_omega)
  · exact .inr (by bv_omega)

/-- A member of an open batch carries TARGET_FN 0 unless it closes the batch. -/
theorem memberFault_target {o : OpSpec} {n : Nat} (h : Hdr) (hn : n < 255) (ho : o.solo = false) :
    memberFault o n h = if h.batch = true ∧ h.targetFn ≠ 0 then some (.format, 12) else none := by
  unfold memberFault
  rw [if_neg (by omega), ho, if_neg Bool.false_ne_true]
  simp only [Bool.and_eq_true, decide_eq_true_eq]

/-- Settles O7: stale targets by effectFrame_stale, the others by their distance. -/
theorem targetFrameOfABatch : Obligations.TargetFrameOfABatch := by
  refine ⟨fun o n h hn ho => memberFault_target h hn ho, fun s t => ?_⟩
  intro k e d
  have ahead : (e - k).toNat = 1 ∨ (e - k).toNat = 2 := earliestFrame_ahead s
  have fresh (he : (e - k).toNat ≤ d) (hd : d < 2 ^ 31) : ¬ staleTarget s t := fun h : d = 0 ∨ d < (e - k).toNat ∨ d ≥ 2 ^ 31 => by omega
  refine ⟨effectFrame_zero s, fun ht stale => ?_, fun ht he hd => ?_, fun ht hd hp => ?_⟩
  · have h : staleTarget s t := stale.imp_right (Or.imp_left And.right)
    rw [effectFrame_stale ht h]
  · exact (effectFrame_ahead ht (fresh he (by omega))).trans (if_pos hd)
  · rw [effectFrame_ahead ht (fresh (by omega) hp), if_neg (Nat.not_le.2 hd)]

/-- Settles O8: one branch of readFrame for each clause. -/
theorem snapshotOfARead : Obligations.SnapshotOfARead := by
  intro s t
  refine ⟨rfl, fun ht kept => ?_, fun ht old ahead near => ?_, fun ht old far => ?_⟩ <;> unfold readFrame
  · rw [if_neg ht, if_pos kept]
  · rw [if_neg ht, if_neg (by omega), if_pos ⟨ahead, near⟩]
  · rw [if_neg ht, if_neg (by omega), if_neg (by omega)]

/-! ### A batch that fails (R150, R157) -/

theorem statusOf_statusCode (st : Status) : statusOf (statusCode st) = st := by cases st <;> decide

/-- A batch of one whose recheck fails: no version of its own, the packet answered with the status of the check. -/
theorem commitBatch_one_fails {o : OpSpec} {p : Pkt} {e : Fn} {tg : Bool} {s : State} {st : Status} {d : Nat} (ho : opSpec p.op = some o)
    (hr : recheck o (memberReq e tg p) (recheckView (batchMode [p]) s.com.chCfgNow p s) = some (st, d)) :
    commitBatch opSpec { ctx := p.h.ctx, eff := e, targeted := tg, members := [p] } s = respond p true st d s.fn [] s := by
  unfold commitBatch
  simp only [commitMembers, ho, hr, failReplies, if_true, statusOf_statusCode]
  rfl

/-- Settles O10: what the failed batch leaves is the law of its one answer. -/
theorem batchOfOneThatFails : Obligations.BatchOfOneThatFails := by
  intro o h b e tg s st d p ho hr u
  have run : u = respond p true st d s.fn [] s := commitBatch_one_fails ho hr
  rw [run]
  exact ⟨respond_frame _ _ _ _ _ _ _, (respond_frees p true st d s.fn [] s).1,
    fun hn => ⟨respond_reply_frame _ _ _ _ _ _ _ hn, respond_answers p true st d s.fn [] s hn (.inl rfl)⟩⟩

/-! ### Hearth's frame start (R159, R160) -/

/-- Hearth's clocks at tick 0 of the next frame. -/
def frameClock (s : State) : State := onClk (fun x => { x with frameTb := s.clk.frameTb + 50000, fn := x.fn + 1 }) (advTo (s.clk.frameTb + 50000) s)

/-- What Hearth does at tick 0 ahead of the snapshot: report monitor, sensors, mode switch, alerts and degradation. -/
def frameBegun (temps : List Int) (proc : List Nat) (bad : Nat) (s : State) : State :=
  let s := onLink (fun l => { l with repMiss := if l.repSeen then 0 else min 3 (l.repMiss + 1), repSeen := false }) (frameClock s)
  let s := hearthSensors temps proc bad s
  degradeAct true s.com.degrade (sendAlerts (idleBegin (switchStart s)))

/-- The snapshot joins those of the three frames before (R159). -/
def keepSnap (s : State) : State := { s with snaps := (snapNow s :: s.snaps).take 4 }

/-- The snapshot of the frame is taken anew once its tick 0 is over. -/
def renewSnap (s : State) : State := { s with snaps := snapNow s :: s.snaps.drop 1 }

/-- The audit of the queue fabric and its source. -/
def audited (s : State) : State := if (qfAudit s).2 then raise 0x020 0 (qfAudit s).1 else (qfAudit s).1

/-- Shares begin anew, the queue fabric is audited, and the checks that run complete. -/
def frameChecked (s : State) : State := finishChecks (audited ((List.range 16).foldl (fun s c => resetShare c s) s))

/-- Tick 0 at the islands: cores, compares, timers, CAN, LIN and access. -/
def frameIslands (s : State) : State := accFrameStart (linFrameStart (canFrameStart (tmrFrameStart (cmpFrameStart (coresFrameStart s)))))

theorem hearthFrameStart_run (temps : List Int) (proc : List Nat) (bad : Nat) {s : State} (hu : s.hearthUp = true) :
    exec (.hearthFrameStart temps proc bad) s = .next (ethDrain (activationDue (renewSnap (frameIslands (frameChecked (keepSnap (frameBegun temps proc bad s))))))) := by
  show execHearthFrameStart temps proc bad s = _
  unfold execHearthFrameStart
  rw [if_neg (by simp [hu])]
  rfl

theorem frameClock_clk (s : State) : (frameClock s).clk = { s.clk with fn := s.fn + 1, frameTb := s.clk.frameTb + 50000 } := by
  have kept : (advTo (s.clk.frameTb + 50000) s).clk = s.clk := advTo_frame _ s .clk (by decide)
  unfold frameClock
  rw [onClk_clk, kept]
  rfl

theorem frameClock_frame (s : State) : Only [.clk, .time, .qf] s (frameClock s) := (onClk_frame _ _).after (by decide) ((advTo_frame _ s).sub (by decide))

/-- The work of tick 0 ahead of the snapshot leaves Hearth's clock. -/
theorem frameBegun_clocked (temps : List Int) (proc : List Nat) (bad : Nat) (s : State) :
    Only [.anvil, .time, .sched, .ctxs, .qf, .link, .flt, .light, .bus, .pwr, .ces, .acc, .hmon, .free] (frameClock s) (frameBegun temps proc bad s) :=
  (degradeAct_frame _ _ _).after (by decide) ((sendAlerts_frame _).after (by decide) ((idleBegin_frame _).after (by decide) ((switchStart_frame _).after (by decide)
    ((hearthSensors_frame _ _ _ _).after (by decide) ((onLink_frame _ _).sub (by decide))))))

theorem frameBegun_clk (temps : List Int) (proc : List Nat) (bad : Nat) (s : State) :
    (frameBegun temps proc bad s).clk = { s.clk with fn := s.fn + 1, frameTb := s.clk.frameTb + 50000 } :=
  (frameBegun_clocked temps proc bad s .clk (by decide)).trans (frameClock_clk s)

theorem frameBegun_frame (temps : List Int) (proc : List Nat) (bad : Nat) (s : State) :
    Only [.anvil, .clk, .time, .sched, .ctxs, .qf, .link, .flt, .light, .bus, .pwr, .ces, .acc, .hmon, .free] s (frameBegun temps proc bad s) :=
  (frameBegun_clocked temps proc bad s).after (by decide) ((frameClock_frame s).sub (by decide))

theorem audited_frame (s : State) : Only [.anvil, .time, .ctxs, .qf, .flt, .light, .bus, .pwr, .ces, .acc, .free] s (audited s) :=
  Only.ite ((raise_frame _ _ _).after (by decide) ((qfAudit_frame s).sub (by decide))) ((qfAudit_frame s).sub (by decide))

theorem finishChecks_defer (s : State) : (finishChecks s).upd.defer = s.upd.defer := by
  have told (c : Nat) (q : BitVec 16) (op : Nat) (st : Status) (d : Nat) (r : Rec) (t : State) : (completion c q op st d r t).upd = t.upd :=
    completion_frame c q op st d r t .upd (by decide)
  unfold finishChecks
  cases s.sched.check <;> cases hu : s.upd.check <;> simp [hu, told, onUpd]

theorem frameShares_frame (s : State) : Only [.ctxs] s ((List.range 16).foldl (fun s c => resetShare c s) s) :=
  Only.foldl _ (fun s c => resetShare_frame c s) _ (Only.refl _ s)

theorem frameChecked_frame (s : State) : Only [.anvil, .time, .sched, .ctxs, .qf, .flt, .light, .bus, .pwr, .ces, .acc, .upd, .free] s (frameChecked s) :=
  (finishChecks_frame _).after (by decide) ((audited_frame _).after (by decide) ((frameShares_frame s).sub (by decide)))

theorem frameChecked_defer (s : State) : (frameChecked s).upd.defer = s.upd.defer := by
  have begun : Only [.anvil, .time, .ctxs, .qf, .flt, .light, .bus, .pwr, .ces, .acc, .free] s (audited ((List.range 16).foldl (fun s c => resetShare c s) s)) :=
    (audited_frame _).after (by decide) ((frameShares_frame s).sub (by decide))
  exact (finishChecks_defer _).trans (congrArg Upd.defer (begun .upd (by decide)))

theorem frameIslands_frame (s : State) : Only [.com, .anvil, .time, .ctxs, .qf, .flt, .light, .bus, .pwr, .ces, .acc, .free] s (frameIslands s) :=
  (accFrameStart_frame _).after (by decide) ((linFrameStart_frame _).after (by decide) ((canFrameStart_frame _).after (by decide) ((tmrFrameStart_frame _).after (by decide)
    ((cmpFrameStart_frame _).after (by decide) ((coresFrameStart_frame _).sub (by decide))))))

theorem activationDue_none {s : State} (h : s.upd.defer = none) : activationDue s = s := if_neg (by simp [h])

theorem snaps_frame (l : List Snap) (s : State) : Only [.snaps] s { s with snaps := l } := by
  intro p hp
  cases p
  case snaps => exact absurd (by decide) hp
  all_goals rfl

theorem keepSnap_frame (s : State) : Only [.snaps] s (keepSnap s) := snaps_frame _ s

theorem renewSnap_frame (s : State) : Only [.snaps] s (renewSnap s) := snaps_frame _ s

/-- What tick 0 leaves alone between its two snapshots. -/
theorem frameIslands_kept (b : State) :
    Only [.com, .anvil, .time, .sched, .ctxs, .qf, .snaps, .flt, .light, .bus, .pwr, .ces, .acc, .upd, .free] b (frameIslands (frameChecked (keepSnap b))) :=
  (frameIslands_frame _).after (by decide) ((frameChecked_frame _).after (by decide) ((keepSnap_frame b).sub (by decide)))

theorem frameIslands_snaps (b : State) : (frameIslands (frameChecked (keepSnap b))).snaps = (snapNow b :: b.snaps).take 4 :=
  (frameIslands_frame _ .snaps (by decide)).trans (frameChecked_frame (keepSnap b) .snaps (by decide))

theorem frameIslands_defer (b : State) : (frameIslands (frameChecked (keepSnap b))).upd.defer = b.upd.defer :=
  (congrArg Upd.defer (frameIslands_frame _ .upd (by decide))).trans (frameChecked_defer (keepSnap b))

/-- Settles O15: the clock from frameBegun_clk, the snapshots from frameIslands_snaps, the rest from what each part of tick 0 leaves alone. -/
theorem hearthFrameStarts : Obligations.HearthFrameStarts := by
  intro temps proc bad s hu hd
  rw [hearthFrameStart_run temps proc bad hu]
  have begun := frameBegun_frame temps proc bad s
  have clk := frameBegun_clk temps proc bad s
  generalize frameBegun temps proc bad s = b at *
  have ran := frameIslands_kept b
  have snaps := frameIslands_snaps b
  have defer := frameIslands_defer b
  generalize frameIslands (frameChecked (keepSnap b)) = u at *
  have before : b.snaps = s.snaps := begun .snaps (by decide)
  have waits : b.upd = s.upd := begun .upd (by decide)
  have due : (renewSnap u).upd.defer = none := by
    rw [← hd, ← waits, ← defer]
    rfl
  rw [activationDue_none due]
  have drained := ethDrain_frame (renewSnap u)
  have whole : Only [.com, .anvil, .clk, .time, .sched, .ctxs, .qf, .link, .snaps, .flt, .light, .bus, .pwr, .ces, .acc, .upd, .hmon, .free] s (ethDrain (renewSnap u)) :=
    drained.after (by decide) ((renewSnap_frame u).after (by decide) (ran.after (by decide) (begun.sub (by decide))))
  have now : u.clk = { s.clk with fn := s.fn + 1, frameTb := s.clk.frameTb + 50000 } := (ran .clk (by decide)).trans clk
  have kept : (ethDrain (renewSnap u)).snaps = snapNow u :: s.snaps.take 3 := by
    have renewed : (ethDrain (renewSnap u)).snaps = snapNow u :: u.snaps.drop 1 := drained .snaps (by decide)
    rw [renewed, snaps, before]
    rfl
  refine ⟨_, rfl, (drained .clk (by decide)).trans now, ⟨_, kept, ?_, ?_, ?_, ?_⟩, whole .pending (by decide), whole .closed (by decide), whole .keys (by decide),
    whole .blk (by decide)⟩
  · show u.clk.fn = _
    rw [now]
  · show u.clk.frameTb = _
    rw [now]
  · exact (drained .com (by decide)).symm
  · exact (drained .roles (by decide)).symm

/-! ### Protection opcodes and the clears Anvil executes (R21, R279, R280) -/

theorem chProtConfig_stores (r : Req) (s : State) :
    let n := unitIx r.b
    let t := (chProtConfigSpec.run r s).st
    t.com.protOf n = sub r.b 8 16 ∧ (∀ m, m ≠ n → t.com.protOf m = s.com.protOf m) ∧ t.com.ch = s.com.ch ∧ Only [.com] s t :=
  ⟨tget_tput_same protCfgReset s.com.prot _ _, fun _ hm => tget_tput_other protCfgReset s.com.prot _ hm, rfl, chProtConfigSpec_frame r s⟩

theorem commitClear_clrProt (n m : Nat) (s : State) :
    let k := tget clrDef s.com.clrProt n
    tget clrDef (commitClear n m s).com.clrProt n = (k.1 + 1, if k.1 = tget (fun _ => 0) s.rep.clrDone n then m else k.2 ||| m) := by
  simp only [commitClear, onCom_com, tget_tput_same]

/-- Hearth takes the flags as cleared and numbers the clear (R21). -/
theorem commitClear_numbers (n m : Nat) (s : State) :
    let k := tget clrDef s.com.clrProt n
    let t := commitClear n m s
    (tget chanDef t.rep.ch n).prot = clrMask (tget chanDef s.rep.ch n).prot (m &&& 0x4A) ∧ (∀ j, j ≠ n → tget chanDef t.rep.ch j = tget chanDef s.rep.ch j)
      ∧ tget clrDef t.com.clrProt n = (k.1 + 1, if k.1 = tget (fun _ => 0) s.rep.clrDone n then m else k.2 ||| m) ∧ t.anvil = s.anvil ∧ Only [.com, .rep] s t :=
  ⟨congrArg Chan.prot (tget_tmod_same chanDef s.rep.ch n (clearFlags m)), fun _ hj => tget_tmod_other chanDef s.rep.ch (clearFlags m) hj,
    commitClear_clrProt n m s, rfl, commitClear_frame n m s⟩

theorem chProtStatus_tells (r : Req) (s : State) :
    rd (chProtStatusSpec.run r s).data 0 2 = (s.gen 1 (unitIx r.b)).toNat
      ∧ rd (chProtStatusSpec.run r s).data 2 2 = (tget chanDef s.rep.ch (unitIx r.b)).prot % 65536 := by
  have gen : (s.gen 1 (unitIx r.b)).toNat % 256 ^ 2 = (s.gen 1 (unitIx r.b)).toNat := Nat.mod_eq_of_lt (BitVec.isLt _)
  simp only [chProtStatusSpec, readSpec, answer, genOct, List.append_assoc]
  refine ⟨(rd_le 2 _ 2 _ rfl).trans gen, ?_⟩
  rw [rd_skip _ _ 2 2 (Nat.le_of_eq (le_length 2 _)), le_length]
  exact rd_le 2 _ 2 _ rfl

/-- The retries of the channels of a protection group are given back. -/
def retriesBack (g : List Nat) (s : State) : State := g.foldl (fun s k => onChan k (fun c => { c with retries := none }) s) s

theorem retriesBack_cons (k : Nat) (g : List Nat) (s : State) : retriesBack (k :: g) s = retriesBack g (onChan k (fun c => { c with retries := none }) s) := rfl

theorem retriesBack_chan (g : List Nat) (s : State) (j : Nat) :
    (retriesBack g s).chan j = if j ∈ g then { s.chan j with retries := none } else s.chan j := by
  induction g generalizing s with
  | nil => rfl
  | cons k g ih =>
    rw [retriesBack_cons, ih]
    by_cases hk : j = k
    · subst hk
      simp [onChan_same]
    · simp [onChan_other _ s hk, hk]

theorem retriesBack_frame (g : List Nat) (s : State) : Only [.anvil] s (retriesBack g s) := Only.foldl _ (fun s k => onChan_frame k _ s) _ (Only.refl _ s)

theorem retriesBack_clrDone (g : List Nat) (s : State) : (retriesBack g s).anvil.clrDone = s.anvil.clrDone := by
  induction g generalizing s with
  | nil => rfl
  | cons k g ih => exact ih _

theorem protFree_free {n : Nat} {s : State} (h : (s.chan n).limp = false) : protFree n s = s := if_neg (by simp [h])

/-- Whether a clear of mask `m` gives retries back: OC_LATCH is in it and set. -/
def restores (n m : Nat) (s : State) : Bool := bit m 1 && bit (s.chan n).prot 1

theorem clearProt_free {n : Nat} (m : Nat) {s : State} (h : (s.chan n).limp = false) :
    clearProt n m s = if restores n m s then retriesBack (protGroup s n) (onChan n (clearFlags m) s) else onChan n (clearFlags m) s := by
  have flags : ((onChan n (clearFlags m) s).chan n).limp = false := by rw [onChan_same]; exact h
  show protFree n (if restores n m s then retriesBack (protGroup s n) (onChan n (clearFlags m) s) else onChan n (clearFlags m) s) = _
  refine protFree_free ?_
  split
  · rw [retriesBack_chan]
    split <;> exact flags
  · exact flags

theorem mem_protGroup (s : State) (n : Nat) : n ∈ protGroup s n := by
  unfold protGroup
  split
  · simp only [List.mem_cons, List.not_mem_nil, or_false]
    omega
  · exact List.mem_singleton_self n

/-- Each channel after a clear that finds its channel free of limp-home. -/
theorem clearProt_chan {n : Nat} (m : Nat) {s : State} (h : (s.chan n).limp = false) (j : Nat) :
    (clearProt n m s).chan j = if restores n m s = true ∧ j ∈ protGroup s n then { (onChan n (clearFlags m) s).chan j with retries := none }
      else (onChan n (clearFlags m) s).chan j := by
  rw [clearProt_free m h]
  by_cases hr : restores n m s = true
  · simp only [hr, if_true, true_and, retriesBack_chan]
  · simp only [hr, if_false, false_and, Bool.false_eq_true]

/-- A field of a channel that `f` keeps is kept by a change of any one channel. -/
theorem onChan_field {β : Type} (p : Chan → β) (n : Nat) (f : Chan → Chan) (hf : ∀ c, p (f c) = p c) (s : State) (j : Nat) : p ((onChan n f s).chan j) = p (s.chan j) := by
  by_cases hj : j = n
  · rw [hj, onChan_same, hf]
  · rw [onChan_other f s hj]

theorem clearProt_clrDone {n : Nat} (m : Nat) {s : State} (h : (s.chan n).limp = false) : (clearProt n m s).anvil.clrDone = s.anvil.clrDone := by
  rw [clearProt_free m h]
  split
  · exact retriesBack_clrDone _ _
  · rfl

theorem clearProt_anvil {n : Nat} (m : Nat) {s : State} (h : (s.chan n).limp = false) : Only [.anvil] s (clearProt n m s) := by
  rw [clearProt_free m h]
  exact Only.ite ((retriesBack_frame _ _).after (by decide) (onChan_frame _ _ _)) (onChan_frame _ _ _)

/-- Anvil notes the number of a clear it executes. -/
def clearNoted (n k : Nat) (s : State) : State := onAnvil (fun a => { a with clrDone := tput (fun _ => 0) a.clrDone n k }) s

theorem runClears_one {n k m : Nat} {s : State} (h : s.anvil.vals.clrProt = [(n, (k, m))]) :
    runClears s = if tget (fun _ => 0) s.anvil.clrDone n = k then s else clearProt n m (clearNoted n k s) := by
  unfold runClears
  rw [h]
  rfl

/-- A clear that Anvil has not executed acts on its channel once. -/
theorem runClears_new {n k m : Nat} {s : State} (h : s.anvil.vals.clrProt = [(n, (k, m))]) (new : tget (fun _ => 0) s.anvil.clrDone n ≠ k) (free : (s.chan n).limp = false) :
    let t := runClears s
    tget (fun _ => 0) t.anvil.clrDone n = k ∧ (t.chan n).prot = clrMask (s.chan n).prot (m &&& 0x4A)
      ∧ (∀ j, (t.chan j).retries = (if (bit m 1 && bit (s.chan n).prot 1) = true ∧ j ∈ protGroup s n then none else (s.chan j).retries))
      ∧ (∀ j, (t.chan j).drive = (s.chan j).drive ∧ (t.chan j).level = (s.chan j).level) ∧ (∀ j, j ∉ protGroup s n → t.chan j = s.chan j) ∧ Only [.anvil] s t := by
  intro t
  have noted : ((clearNoted n k s).chan n).limp = false := free
  have run : t = clearProt n m (clearNoted n k s) := (runClears_one h).trans (if_neg new)
  have chan (j : Nat) : t.chan j = if restores n m s = true ∧ j ∈ protGroup s n then { (onChan n (clearFlags m) (clearNoted n k s)).chan j with retries := none }
      else (onChan n (clearFlags m) (clearNoted n k s)).chan j := run ▸ clearProt_chan m noted j
  refine ⟨?_, ?_, fun j => ?_, fun j => ?_, fun j hj => ?_, ?_⟩
  · rw [run, clearProt_clrDone m noted]
    exact tget_tput_same _ _ n k
  · have flags : ((onChan n (clearFlags m) (clearNoted n k s)).chan n).prot = clrMask (s.chan n).prot (m &&& 0x4A) := congrArg Chan.prot (onChan_same n _ _)
    rw [chan]
    split <;> exact flags
  · have kept := onChan_field Chan.retries n (clearFlags m) (fun _ => rfl) (clearNoted n k s) j
    rw [chan]
    split
    · exact (if_pos ‹_›).symm
    · exact kept.trans (if_neg ‹_›).symm
  · have drive := onChan_field Chan.drive n (clearFlags m) (fun _ => rfl) (clearNoted n k s) j
    have level := onChan_field Chan.level n (clearFlags m) (fun _ => rfl) (clearNoted n k s) j
    rw [chan]
    split <;> exact ⟨drive, level⟩
  · have other : j ≠ n := fun e => hj (e ▸ mem_protGroup s n)
    rw [chan, if_neg (fun k => hj k.2)]
    exact onChan_other _ _ other
  · rw [run]
    exact (clearProt_anvil m noted).after (by decide) (onAnvil_frame _ s)

/-- Settles O26: the opcodes by the laws of acceptance, the clears by runClears_one and runClears_new. -/
theorem protectionOpcodes : Obligations.ProtectionOpcodes :=
  ⟨waits_of _ _ _ rfl rfl (fun _ _ _ => rfl), waits_of _ _ _ rfl rfl (fun _ _ _ => rfl), tells_of _ _ _ rfl (.inl rfl) rfl (fun _ _ _ => rfl),
    tells_of _ _ _ rfl (.inl rfl) rfl (fun _ _ _ => rfl), chProtConfig_stores, fun r s => commitClear_numbers (unitIx r.b) (rd r.b 6 2) s,
    fun _ _ _ _ h => ⟨fun done => (runClears_one h).trans (if_pos done), fun new free => runClears_new h new free⟩, chProtStatus_tells⟩

/-! ### The role table at reset (R164) -/

/-- Settles O60: the table is empty, so that every unit reads as its initial role. -/
theorem rolesWellFormedAtReset : Obligations.RolesWellFormedAtReset := by
  refine ⟨rfl, fun k => ?_⟩
  have initial : State.reset.role k = Role.initial := rfl
  rw [initial]
  decide

end Sys2Proof.Machine

namespace Sys2Proof.Machine

/-! ### The mode switch, channel by channel (R179, R194, R195) -/

def Com.setOut (n : Nat) (v : ChVal) (c : Com) : Com := { c with ch := tput chValDef c.ch n v }
def Com.setCoil (n : Nat) (v : IndVal) (c : Com) : Com := { c with ind := tput indDef c.ind n v }
def Com.setBridge (b : Nat) (v : BrVal) (c : Com) : Com := { c with br := tput brDef c.br b v }

@[simp] theorem Com.setOut_chOf (n : Nat) (v : ChVal) (c : Com) : (c.setOut n v).chOf n = v := tget_tput_same chValDef c.ch n v
@[simp] theorem Com.setCoil_indOf (n : Nat) (v : IndVal) (c : Com) : (c.setCoil n v).indOf n = v := tget_tput_same indDef c.ind n v
@[simp] theorem Com.setBridge_brOf (b : Nat) (v : BrVal) (c : Com) : (c.setBridge b v).brOf b = v := tget_tput_same brDef c.br b v

/-- What the switch of channel `n` leaves as it is in a version: its mode, the CH_CFG of every channel, the values of other channels and coils, and the bridges of
the channels before it. -/
structure Com.SwitchedAt (n : Nat) (c d : Com) : Prop where
  mode : d.mode = c.mode
  chCfg : d.chCfg = c.chCfg
  out : ∀ p, p ≠ n → d.chOf p = c.chOf p
  coil : ∀ p, p ≠ n → d.indOf p = c.indOf p
  bridge : ∀ p, p < n → 48 ≤ p → p % 2 = 0 → d.brOf ((p - 48) / 2) = c.brOf ((p - 48) / 2)

theorem Com.SwitchedAt.refl (n : Nat) (c : Com) : SwitchedAt n c c := ⟨rfl, rfl, fun _ _ => rfl, fun _ _ => rfl, fun _ _ _ _ => rfl⟩

theorem Com.SwitchedAt.trans {n : Nat} {c d e : Com} (h : SwitchedAt n c d) (k : SwitchedAt n d e) : SwitchedAt n c e :=
  ⟨k.mode.trans h.mode, k.chCfg.trans h.chCfg, fun p hp => (k.out p hp).trans (h.out p hp), fun p hp => (k.coil p hp).trans (h.coil p hp),
    fun p hp h48 h2 => (k.bridge p hp h48 h2).trans (h.bridge p hp h48 h2)⟩

theorem Com.setOut_switchedAt (n : Nat) (v : ChVal) (c : Com) : SwitchedAt n c (c.setOut n v) :=
  ⟨rfl, rfl, fun _ hp => tget_tput_other chValDef c.ch v hp, fun _ _ => rfl, fun _ _ _ _ => rfl⟩

theorem Com.setCoil_switchedAt (n : Nat) (v : IndVal) (c : Com) : SwitchedAt n c (c.setCoil n v) :=
  ⟨rfl, rfl, fun _ _ => rfl, fun _ hp => tget_tput_other indDef c.ind v hp, fun _ _ _ _ => rfl⟩

/-- The bridge of an even channel is not that of an even channel from 48 on before it. -/
theorem Com.setBridge_switchedAt {n : Nat} (h : n % 2 = 0) (v : BrVal) (c : Com) : SwitchedAt n c (c.setBridge ((n - 48) / 2) v) :=
  ⟨rfl, rfl, fun _ _ => rfl, fun _ _ => rfl, fun _ _ _ _ => tget_tput_other brDef c.br v (by omega)⟩

/-- A change not yet applied is dropped: the owner of the channel receives SCHED_DROPPED and the drop is counted (R195). -/
def dropNoted (t : Fn) (n : Nat) (s : State) : State :=
  notify (s.owner 1 n) 0xE001 ([1, 0] ++ le 2 n ++ le 4 t.toNat) (onSched (fun x => { x with dropped := x.dropped + 1 }) s)

/-- Where `change`, a change not yet applied gives way by `back`. -/
def giveWay (change : Bool) (back : Com → Com) (t : Fn) (n : Nat) (s : State) : State := if change then dropNoted t n (onCom back s) else s

/-- What R195 makes of one channel: a change gives way, then a FORCE_OFF channel is turned off by `force`. -/
def switchUnit (change : Bool) (disp : Nat) (back force : Com → Com) (t : Fn) (n : Nat) (s : State) : State :=
  if disp = 3 then onCom force (giveWay change back t n s) else giveWay change back t n s

/-- The switch of a channel turns off what its control mode drives: an output, a coil, a bridge at its even channel; no other control mode changes anything. -/
theorem switchChannel_cases (m : Nat) (t : Fn) (s : State) (n : Nat) :
    (cfMode (s.com.chCfgOf n) ≤ 2 ∧ ∃ change, ∃ back : Com → ChVal, switchChannel m t s n = switchUnit change (chanEnt s.sched.img m n).disp (fun c => c.setOut n (back c))
        (fun c => c.setOut n { c.chOf n with on := false }) t n s)
      ∨ (cfMode (s.com.chCfgOf n) = 3 ∧ ∃ change back, switchChannel m t s n = switchUnit change (chanEnt s.sched.img m n).disp (fun c => c.setCoil n back)
        (fun c => c.setCoil n { c.indOf n with engage := false }) t n s)
      ∨ (cfMode (s.com.chCfgOf n) = 4 ∧ n % 2 = 0 ∧ ∃ change back, switchChannel m t s n = switchUnit change (chanEnt s.sched.img m n).disp
        (fun c => c.setBridge ((n - 48) / 2) back) (fun c => c.setBridge ((n - 48) / 2) { c.brOf ((n - 48) / 2) with drive := 1 }) t n s)
      ∨ ((2 < cfMode (s.com.chCfgOf n) ∧ cfMode (s.com.chCfgOf n) ≠ 3 ∧ ¬ (cfMode (s.com.chCfgOf n) = 4 ∧ n % 2 = 0)) ∧ switchChannel m t s n = s) := by
  by_cases h2 : cfMode (s.com.chCfgOf n) ≤ 2
  · exact .inl ⟨h2, _, _, if_pos h2⟩
  by_cases h3 : cfMode (s.com.chCfgOf n) = 3
  · exact .inr (.inl ⟨h3, _, _, (if_neg h2).trans (if_pos h3)⟩)
  by_cases h4 : cfMode (s.com.chCfgOf n) = 4 ∧ n % 2 = 0
  · exact .inr (.inr (.inl ⟨h4.1, h4.2, _, _, (if_neg h2).trans ((if_neg h3).trans (if_pos h4))⟩))
  · exact .inr (.inr (.inr ⟨⟨Nat.lt_of_not_le h2, h3, h4⟩, (if_neg h2).trans ((if_neg h3).trans (if_neg h4))⟩))

theorem dropNoted_com (t : Fn) (n : Nat) (s : State) : (dropNoted t n s).com = s.com := notify_frame _ _ _ _ .com (by decide)

theorem dropNoted_sched (t : Fn) (n : Nat) (s : State) : (dropNoted t n s).sched = { s.sched with dropped := s.sched.dropped + 1 } :=
  notify_frame _ _ _ _ .sched (by decide)

section
variable {change : Bool} {disp : Nat} {back force : Com → Com} {t : Fn} {n : Nat} {s : State}

theorem giveWay_com : (giveWay change back t n s).com = if change then back s.com else s.com := by
  cases change
  · rfl
  · exact dropNoted_com t n _

theorem giveWay_sched : ∃ k, (giveWay change back t n s).sched = { s.sched with dropped := k } := by
  cases change
  · exact ⟨_, rfl⟩
  · exact ⟨_, dropNoted_sched t n _⟩

/-- Of the schedule state the switch of a channel changes the count of dropped changes. -/
theorem switchUnit_sched : ∃ k, (switchUnit change disp back force t n s).sched = { s.sched with dropped := k } := by
  unfold switchUnit
  split
  · exact giveWay_sched
  · exact giveWay_sched

theorem switchUnit_switchedAt (hb : ∀ c, Com.SwitchedAt n c (back c)) (hf : ∀ c, Com.SwitchedAt n c (force c)) :
    Com.SwitchedAt n s.com (switchUnit change disp back force t n s).com := by
  have given : Com.SwitchedAt n s.com (giveWay change back t n s).com := by
    rw [giveWay_com]
    split
    · exact hb _
    · exact .refl n _
  unfold switchUnit
  split
  · exact given.trans (hf _)
  · exact given

theorem switchUnit_forces {P : Com → Prop} (hd : disp = 3) (hf : ∀ c, P (force c)) : P (switchUnit change disp back force t n s).com := by
  unfold switchUnit
  rw [if_pos hd]
  exact hf _

end

theorem switchChannel_switchedAt (m : Nat) (t : Fn) (s : State) (n : Nat) : Com.SwitchedAt n s.com (switchChannel m t s n).com := by
  obtain ⟨-, _, _, e⟩ | ⟨-, _, _, e⟩ | ⟨-, even, _, _, e⟩ | ⟨-, e⟩ := switchChannel_cases m t s n <;> rw [e]
  · exact switchUnit_switchedAt (fun c => c.setOut_switchedAt n _) (fun c => c.setOut_switchedAt n _)
  · exact switchUnit_switchedAt (fun c => c.setCoil_switchedAt n _) (fun c => c.setCoil_switchedAt n _)
  · exact switchUnit_switchedAt (fun c => c.setBridge_switchedAt even _) (fun c => c.setBridge_switchedAt even _)
  · exact .refl n _

theorem switchChannel_sched (m : Nat) (t : Fn) (s : State) (n : Nat) : ∃ k, (switchChannel m t s n).sched = { s.sched with dropped := k } := by
  obtain ⟨-, _, _, e⟩ | ⟨-, _, _, e⟩ | ⟨-, -, _, _, e⟩ | ⟨-, e⟩ := switchChannel_cases m t s n <;> rw [e]
  · exact switchUnit_sched
  · exact switchUnit_sched
  · exact switchUnit_sched
  · exact ⟨_, rfl⟩

/-- A channel is committed off by its control mode (R195): an output off, a coil released, a bridge braked. -/
def Com.forcedOff (c : Com) (n : Nat) : Prop :=
  (cfMode (c.chCfgOf n) ≤ 2 → (c.chOf n).on = false) ∧ (cfMode (c.chCfgOf n) = 3 → (c.indOf n).engage = false)
    ∧ (cfMode (c.chCfgOf n) = 4 → 48 ≤ n → n % 2 = 0 → (c.brOf ((n - 48) / 2)).drive = 1)

/-- What the switches of later channels leave as it is keeps a channel off. -/
theorem Com.SwitchedAt.forcedOff {n p : Nat} {c d : Com} (h : SwitchedAt n c d) (hp : p < n) (k : c.forcedOff p) : d.forcedOff p := by
  have cfg : d.chCfgOf p = c.chCfgOf p := congrArg (tget chCfgReset · p) h.chCfg
  obtain ⟨out, coil, bridge⟩ := k
  refine ⟨fun h2 => ?_, fun h3 => ?_, fun h4 h48 even => ?_⟩
  · rw [h.out p (Nat.ne_of_lt hp)]
    exact out (cfg ▸ h2)
  · rw [h.coil p (Nat.ne_of_lt hp)]
    exact coil (cfg ▸ h3)
  · rw [h.bridge p hp h48 even]
    exact bridge (cfg ▸ h4) h48 even

/-- The switch turns a FORCE_OFF channel off. -/
theorem switchChannel_forces {m n : Nat} (t : Fn) {s : State} (hd : (chanEnt s.sched.img m n).disp = 3) : (switchChannel m t s n).com.forcedOff n := by
  have cfg : (switchChannel m t s n).com.chCfgOf n = s.com.chCfgOf n := congrArg (tget chCfgReset · n) (switchChannel_switchedAt m t s n).chCfg
  unfold Com.forcedOff
  rw [cfg]
  obtain ⟨mode, _, _, e⟩ | ⟨mode, _, _, e⟩ | ⟨mode, -, _, _, e⟩ | ⟨⟨no2, no3, no4⟩, -⟩ := switchChannel_cases m t s n
  · have off : ((switchChannel m t s n).com.chOf n).on = false := e ▸ switchUnit_forces (P := fun c => (c.chOf n).on = false) hd (fun c => by simp)
    exact ⟨fun _ => off, by omega, by omega⟩
  · have off : ((switchChannel m t s n).com.indOf n).engage = false := e ▸ switchUnit_forces (P := fun c => (c.indOf n).engage = false) hd (fun c => by simp)
    exact ⟨by omega, fun _ => off, by omega⟩
  · have brake : ((switchChannel m t s n).com.brOf ((n - 48) / 2)).drive = 1 :=
      e ▸ switchUnit_forces (P := fun c => (c.brOf ((n - 48) / 2)).drive = 1) hd (fun c => by simp)
    exact ⟨by omega, by omega, fun _ _ _ => brake⟩
  · exact ⟨by omega, fun h => absurd h no3, fun h _ even => absurd ⟨h, even⟩ no4⟩

/-- After the switch of the channels before `k`: mode, configuration and schedule state stand as before but for the count of dropped changes, and each FORCE_OFF channel among
them is off. -/
structure SwitchedTo (m k : Nat) (s u : State) : Prop where
  mode : u.com.mode = s.com.mode
  chCfg : u.com.chCfg = s.com.chCfg
  sched : ∃ d, u.sched = { s.sched with dropped := d }
  off : ∀ n, n < k → (chanEnt s.sched.img m n).disp = 3 → u.com.forcedOff n

theorem SwitchedTo.step {m k : Nat} {s u : State} (h : SwitchedTo m k s u) (t : Fn) : SwitchedTo m (k + 1) s (switchChannel m t u k) := by
  have at_ := switchChannel_switchedAt m t u k
  obtain ⟨d, sched⟩ := h.sched
  obtain ⟨d', sched'⟩ := switchChannel_sched m t u k
  refine ⟨at_.mode.trans h.mode, at_.chCfg.trans h.chCfg, ⟨d', by rw [sched', sched]⟩, fun n hn hd => ?_⟩
  rcases Nat.lt_succ_iff_lt_or_eq.1 hn with before | now
  · exact at_.forcedOff before (h.off n before hd)
  · subst now
    exact switchChannel_forces t (by rw [sched]; exact hd)

theorem foldl_switchChannel (m : Nat) (t : Fn) (s : State) (k : Nat) : SwitchedTo m k s ((List.range k).foldl (switchChannel m t) s) := by
  induction k with
  | zero => exact ⟨rfl, rfl, ⟨_, rfl⟩, fun n hn => absurd hn (Nat.not_lt_zero n)⟩
  | succ k ih =>
    rw [List.range_succ, List.foldl_append]
    exact ih.step t

/-! ### Schedule opcodes (R194, R195, R203) -/

theorem rd_octet_lt (b : Rec) (off : Nat) : rd b off 1 < 256 := by
  unfold rd
  cases b.drop off with
  | nil => decide
  | cons o l => exact o.isLt

theorem modeSelect_switches (r : Req) (s : State) :
    let x := modeSelectSpec.run r s
    let m := rd r.b 0 1
    x.status = .ok ∧ x.st.com.mode = m ∧ x.st.sched.storedMode = m ∧ x.st.sched.switchTo = some (m, r.eff) ∧ x.st.sched.img = s.sched.img ∧ rd x.data 0 1 = m
      ∧ (∀ n, n < 64 → (chanEnt s.sched.img m n).disp = 3 →
          (cfMode (s.com.chCfgOf n) ≤ 2 → (x.st.com.chOf n).on = false) ∧ (cfMode (s.com.chCfgOf n) = 3 → (x.st.com.indOf n).engage = false)
            ∧ (cfMode (s.com.chCfgOf n) = 4 → 48 ≤ n → n % 2 = 0 → (x.st.com.brOf ((n - 48) / 2)).drive = 1))
      ∧ x.st.com.chCfg = s.com.chCfg ∧ Only [.com, .sched, .qf] s x.st := by
  intro x m
  obtain ⟨mode, chCfg, ⟨d, sched⟩, off⟩ : SwitchedTo m 64 (onSched (fun y => { y with switchTo := some (m, r.eff), storedMode := m }) (onCom (fun c => { c with mode := m }) s)) x.st :=
    foldl_switchChannel m r.eff _ 64
  refine ⟨rfl, mode, by rw [sched]; rfl, by rw [sched]; rfl, by rw [sched]; rfl, Nat.mod_eq_of_lt (rd_octet_lt r.b 0), fun n hn hd => ?_, chCfg, modeSelectSpec_frame r s⟩
  have cfg : x.st.com.chCfgOf n = s.com.chCfgOf n := congrArg (tget chCfgReset · n) chCfg
  rw [← cfg]
  exact off n hn hd

theorem schedStatus_tells (r : Req) (s : State) :
    (schedStatusSpec.run r s).data.length = 32 ∧ rd (schedStatusSpec.run r s).data 4 1 = s.com.mode % 256 := by
  simp only [schedStatusSpec, readSpec, answer, List.append_assoc]
  refine ⟨by simp [le_length], ?_⟩
  rw [rd_skip _ _ 4 1 (Nat.le_of_eq (le_length 4 _)), le_length]
  rfl

/-- SCHED_UNIT of a channel: its entry in the mode named (R179). -/
theorem schedUnit_tells {r : Req} (s : State) (h : rd r.b 0 1 = 1) :
    (schedUnitSpec.run r s).data.length = 12 ∧ rd (schedUnitSpec.run r s).data 0 1 = (chanEnt s.sched.img (rd r.b 6 1) (unitIx r.b)).disp % 256 := by
  simp only [schedUnitSpec, readSpec, answer, if_pos h]
  exact ⟨by simp [le_length], rfl⟩

/-- Settles O18: the opcodes by the laws of acceptance, MODE_SELECT by the switch channel by channel. -/
theorem scheduleOpcodes : Obligations.ScheduleOpcodes :=
  ⟨waits_of _ _ _ rfl rfl (fun _ _ _ => rfl), tells_of _ _ _ rfl (.inl rfl) rfl (fun _ _ _ => rfl), tells_of _ _ _ rfl (.inl rfl) rfl (fun _ _ _ => rfl),
    acts_of _ _ _ rfl rfl (fun _ _ => rfl) (fun _ _ _ => rfl), modeSelect_switches, schedStatus_tells, fun _ s => schedUnit_tells s, fun _ _ => ⟨rfl, rfl⟩⟩

end Sys2Proof.Machine

namespace Sys2Proof.Machine

/-! ### Timers at one tick (R204, R219 to R223) -/

@[simp] theorem onTmr_same (n : Nat) (f : Timer → Timer) (s : State) : (onTmr n f s).tmr n = f (s.tmr n) := tget_tmod_same tmrDef _ n f

theorem onTmr_other {n k : Nat} (f : Timer → Timer) (s : State) (h : k ≠ n) : (onTmr n f s).tmr k = s.tmr k := tget_tmod_other tmrDef s.time.tmr f h

@[simp] theorem onTmr_tbNow (n : Nat) (f : Timer → Timer) (s : State) : (onTmr n f s).tbNow = s.tbNow := rfl

/-- `t` is `s` after operations on timer `n`: TB and every other timer stand, and outside the time base only notifications enter their queues. -/
structure TimerOnly (n : Nat) (s t : State) : Prop where
  tb : t.time.tb = s.time.tb
  other : ∀ k, k ≠ n → t.tmr k = s.tmr k
  frame : Only [.time, .qf] s t

theorem TimerOnly.refl (n : Nat) (s : State) : TimerOnly n s s := ⟨rfl, fun _ _ => rfl, Only.refl _ s⟩

theorem TimerOnly.trans {n : Nat} {s t u : State} (h : TimerOnly n s t) (k : TimerOnly n t u) : TimerOnly n s u :=
  ⟨k.tb.trans h.tb, fun i hi => (k.other i hi).trans (h.other i hi), Only.trans h.frame k.frame⟩

theorem TimerOnly.ite {n : Nat} {s a b : State} {c : Prop} {_ : Decidable c} (h : TimerOnly n s a) (k : TimerOnly n s b) : TimerOnly n s (if c then a else b) := by
  split <;> assumption

theorem onTmr_only (n : Nat) (f : Timer → Timer) (s : State) : TimerOnly n s (onTmr n f s) :=
  ⟨rfl, fun _ hk => onTmr_other f s hk, (onTmr_frame n f s).sub (by decide)⟩

/-- An event changes no timer: it adds to the master events of the next tick and notifies. -/
theorem tmrEvent_time (n ev : Nat) (s : State) : (tmrEvent n ev s).time = { s.time with mev := s.time.mev ++ coupled s n ev } := by
  unfold tmrEvent
  dsimp only
  split
  · exact notify_frame _ _ _ _ .time (by decide)
  · rfl

@[simp] theorem tmrEvent_tmr (n ev : Nat) (s : State) (k : Nat) : (tmrEvent n ev s).tmr k = s.tmr k := by
  simp only [State.tmr, tmrEvent_time]

theorem tmrEvent_only (n m ev : Nat) (s : State) : TimerOnly n s (tmrEvent m ev s) :=
  ⟨by rw [tmrEvent_time], fun k _ => tmrEvent_tmr m ev s k, tmrEvent_frame m ev s⟩

theorem tmrOverflow_tmr (n : Nat) (s : State) :
    (tmrOverflow n s).tmr n = { s.tmr n with count := 0, out := false, ovfTotal := (s.tmr n).ovfTotal + 1, running := !(tmrOneShot (s.tmr n).cfg) } := by
  simp [tmrOverflow]

theorem tmrMatched_tmr (n : Nat) (s : State) : (tmrMatched n s).tmr n = { s.tmr n with out := true } := by simp [tmrMatched]

theorem tmrOverflow_only (n : Nat) (s : State) : TimerOnly n s (tmrOverflow n s) := (onTmr_only n _ s).trans (tmrEvent_only n n 1 _)

theorem tmrMatched_only (n : Nat) (s : State) : TimerOnly n s (tmrMatched n s) := (onTmr_only n _ s).trans (tmrEvent_only n n 2 _)

theorem tmrCount_only (n : Nat) (s : State) : TimerOnly n s (tmrCount n s) := by
  have passed : TimerOnly n s (if (s.tmr n).count = tmrTop (s.tmr n).cfg then tmrOverflow n s else onTmr n (fun t => { t with count := (t.count + 1) % 2 ^ 24 }) s) :=
    .ite (tmrOverflow_only n s) (onTmr_only n _ s)
  exact .ite (passed.trans (tmrMatched_only n _)) passed

theorem tmrMasterAct_only (n : Nat) (s : State) : TimerOnly n s (tmrMasterAct n s) :=
  .ite (onTmr_only n _ s) (.ite (onTmr_only n _ s) (.refl n s))

theorem tmrStep_only (s0 : State) (due : List Nat) (s : State) (n : Nat) : TimerOnly n s (tmrStep s0 due s n) := by
  have acted : TimerOnly n s (if due.contains n then tmrMasterAct n s else s) := .ite (tmrMasterAct_only n s) (.refl n s)
  have clocked := acted.trans (onTmr_only n (tmrClocked (if due.contains n then tmrMasterAct n s else s).tbNow) _)
  unfold tmrStep
  exact .ite (.trans (.ite (clocked.trans (tmrCount_only n _)) clocked) (onTmr_only n _ _)) (.ite (clocked.trans (tmrCount_only n _)) clocked)

/-- A tick of the timers leaves TB. -/
theorem foldl_tmrStep_tb (s0 : State) (due ns : List Nat) (s : State) : (ns.foldl (tmrStep s0 due) s).time.tb = s.time.tb := by
  induction ns generalizing s with
  | nil => rfl
  | cons n ns ih => exact (ih _).trans (tmrStep_only s0 due s n).tb

/-- One tick advances TB by 1, whether or not the TB island is powered (R204). -/
theorem tickOnce_tb (s : State) : (tickOnce s).time.tb = s.time.tb + 1 := by
  unfold tickOnce
  split
  · exact foldl_tmrStep_tb _ _ _ _
  · rfl

theorem step_idle {s : State} (h : s.pending = []) : step s = .next (tickOnce s) := by
  unfold step
  rw [h]

/-- Settles O2: the step with no command waiting is tickOnce, whose TB and frame are known. -/
theorem idleStepIsOneTick : Obligations.IdleStepIsOneTick :=
  fun s h => ⟨tickOnce s, step_idle h, tickOnce_tb s, tickOnce_frame s⟩

/-! ### Anchor, compare records and timer records (R210, R213, R219) -/

theorem timeAnchor_takes (r : Req) (s : State) : let t := (timeAnchorSpec.run r s).st
    (rd r.b 0 1 = 0 → t.com.anchor = some { utc := rd r.b 4 8, tb := BitVec.ofNat 48 (rd r.b 12 6), rate := sx 32 (rd r.b 20 4) } ∧ t.time.restored = false)
      ∧ (rd r.b 0 1 ≠ 0 → t.com.anchor = none ∧ t.time = s.time) ∧ t.time.tb = s.time.tb ∧ Only [.com, .time] s t := by
  refine ⟨fun h => ?_, fun h => ?_, ?_, timeAnchorSpec_frame r s⟩
  · simp only [timeAnchorSpec, if_pos h]
    exact ⟨rfl, rfl⟩
  · simp only [timeAnchorSpec, if_neg h]
    exact ⟨rfl, rfl⟩
  · simp only [timeAnchorSpec]
    split <;> rfl

/-- The arming that CMP_SET commits: kept, disarmed, or armed at its TIME_REF with its PERIOD. -/
def cmpSetArm (r : Req) (s : State) : Option (Option (Tb × Nat)) :=
  if cmpArm r.b = 0 then (s.com.cmpOf (unitIx r.b)).arm else if cmpArm r.b = 2 then some none
  else match timeRef s r.b 12 with | .ok t => some (some (t, rd r.b 24 8)) | .error _ => (s.com.cmpOf (unitIx r.b)).arm

/-- The record that CMP_SET commits. -/
def cmpSetCfg (r : Req) (s : State) : CmpCfg := { action := cmpAction r.b, queue := rd r.b 8 2, timer := rd r.b 10 1, arm := cmpSetArm r s }

/-- The record of channel `n` with its binding as committed. -/
def cmpPut (n : Nat) (c : CmpCfg) (s : State) : State := onCom (fun m => { m with cmp := tput cmpDef m.cmp n c }) s

theorem cmpSet_run (r : Req) (s : State) :
    (cmpSetSpec.run r s).st = if (s.com.cmpOf (unitIx r.b)).action ≠ cmpAction r.b ∨ (s.com.cmpOf (unitIx r.b)).queue ≠ rd r.b 8 2 ∨ (s.com.cmpOf (unitIx r.b)).timer ≠ rd r.b 10 1
      then reassign 7 (unitIx r.b) (cmpPut (unitIx r.b) (cmpSetCfg r s) s) else cmpPut (unitIx r.b) (cmpSetCfg r s) s := by
  simp only [cmpSetSpec, Bool.or_eq_true, decide_eq_true_eq, or_assoc]
  rfl

theorem cmpSet_com (r : Req) (s : State) : (cmpSetSpec.run r s).st.com = (cmpPut (unitIx r.b) (cmpSetCfg r s) s).com := by
  rw [cmpSet_run]
  split <;> rfl

theorem cmpSet_cmpOf_same (r : Req) (s : State) : (cmpSetSpec.run r s).st.com.cmpOf (unitIx r.b) = cmpSetCfg r s := by
  rw [cmpSet_com]
  exact tget_tput_same cmpDef s.com.cmp _ _

theorem cmpSet_cmpOf_other (r : Req) (s : State) {m : Nat} (h : m ≠ unitIx r.b) : (cmpSetSpec.run r s).st.com.cmpOf m = s.com.cmpOf m := by
  rw [cmpSet_com]
  exact tget_tput_other cmpDef s.com.cmp _ h

theorem cmpSet_gen (r : Req) (s : State) : (cmpSetSpec.run r s).st.gen 7 (unitIx r.b)
    = if (s.com.cmpOf (unitIx r.b)).action ≠ cmpAction r.b ∨ (s.com.cmpOf (unitIx r.b)).queue ≠ rd r.b 8 2 ∨ (s.com.cmpOf (unitIx r.b)).timer ≠ rd r.b 10 1
      then nextGen (s.gen 7 (unitIx r.b)) else s.gen 7 (unitIx r.b) := by
  rw [cmpSet_run]
  split
  · exact congrArg Role.gen (reassign_same 7 _ _)
  · rfl

theorem cmpSet_role_other (r : Req) (s : State) {k : Nat} (h : k ≠ ukey 7 (unitIx r.b)) : (cmpSetSpec.run r s).st.role k = s.role k := by
  rw [cmpSet_run]
  split
  · exact reassign_other 7 _ _ h
  · rfl

theorem cmpSet_commits (r : Req) (s : State) : let n := unitIx r.b
    let c := s.com.cmpOf n
    let t := (cmpSetSpec.run r s).st
    (t.com.cmpOf n).action = cmpAction r.b ∧ (t.com.cmpOf n).queue = rd r.b 8 2 ∧ (t.com.cmpOf n).timer = rd r.b 10 1
      ∧ (cmpArm r.b = 0 → (t.com.cmpOf n).arm = c.arm) ∧ (cmpArm r.b = 2 → (t.com.cmpOf n).arm = some none)
      ∧ (∀ v, cmpArm r.b = 1 → timeRef s r.b 12 = .ok v → (t.com.cmpOf n).arm = some (some (v, rd r.b 24 8)))
      ∧ t.gen 7 n = (if c.action ≠ cmpAction r.b ∨ c.queue ≠ rd r.b 8 2 ∨ c.timer ≠ rd r.b 10 1 then nextGen (s.gen 7 n) else s.gen 7 n)
      ∧ (∀ m, m ≠ n → t.com.cmpOf m = s.com.cmpOf m) ∧ (∀ k, k ≠ ukey 7 n → t.role k = s.role k) ∧ Only [.roles, .com] s t := by
  intro n c t
  have record : t.com.cmpOf n = cmpSetCfg r s := cmpSet_cmpOf_same r s
  rw [record]
  refine ⟨rfl, rfl, rfl, fun keep => ?_, fun disarm => ?_, fun v arm ref => ?_, cmpSet_gen r s, fun _ => cmpSet_cmpOf_other r s, fun _ => cmpSet_role_other r s, cmpSetSpec_frame r s⟩
  · simp [cmpSetCfg, cmpSetArm, keep, c, n]
  · simp [cmpSetCfg, cmpSetArm, disarm]
  · simp [cmpSetCfg, cmpSetArm, arm, ref]

theorem tmrConfig_stores (r : Req) (s : State) : let t := (tmrConfigSpec.run r s).st
    t.com.tmrCfgOf (rd r.b 0 1 % 16) = r.b ∧ (∀ m, m ≠ rd r.b 0 1 % 16 → t.com.tmrCfgOf m = s.com.tmrCfgOf m) ∧ Only [.com] s t :=
  ⟨tget_tput_same tmrCfgReset s.com.tmrCfg _ _, fun _ hm => tget_tput_other tmrCfgReset s.com.tmrCfg _ hm, tmrConfigSpec_frame r s⟩

/-! ### Compare channels that fire (R214 to R218) -/

theorem mem_cmpBefore (s : State) (n m : Nat) : m ∈ cmpBefore s n ↔ m < n ∧ (s.cmpRun m).armed = true ∧ cmpDue s m = cmpDue s n := by
  simp [cmpBefore]

theorem cmpBefore_ascends (s : State) (n : Nat) : (cmpBefore s n).Pairwise (· < ·) := List.pairwise_lt_range.filter _

theorem compareFire_held {s : State} (n : Nat) (h : s.time.cmpHold = true) : execCompareFire n s = .next s := if_neg (by simp [h])

theorem compareFire_fires {n : Nat} {s : State} (a : (s.cmpRun n).armed = true) (u : s.hearthUp = true) (h : s.time.cmpHold = false) :
    execCompareFire n s = .next ((cmpBefore s n ++ [n]).foldl (cmpFireAt (cmpDue s n)) (advTo (cmpDue s n) s)) := if_pos (by simp [a, u, h])

/-- Periods from an armed value to past the firing instant (R215); 1 of a one-shot channel. -/
def cmpPeriods (t : Tb) (x : CmpRun) : Nat := if x.period = 0 then 1 else (t - x.value).toNat / x.period + 1

/-- A compare channel after it fired at `t`. -/
def cmpFired (t : Tb) (x : CmpRun) : CmpRun :=
  { x with fires := x.fires + 1, missedTotal := x.missedTotal + BitVec.ofNat 32 (cmpPeriods t x - 1), late := false,
           armed := decide (x.period ≠ 0), value := if x.period = 0 then x.value else x.value + BitVec.ofNat 48 (cmpPeriods t x * x.period) }

theorem cmpFired_oneShot (t : Tb) {x : CmpRun} (h : x.period = 0) : (cmpFired t x).armed = false ∧ (cmpFired t x).value = x.value ∧ (cmpFired t x).missedTotal = x.missedTotal := by
  simp [cmpFired, cmpPeriods, h]

theorem cmpFired_periodic (t : Tb) {x : CmpRun} (h : x.period ≠ 0) : (cmpFired t x).armed = true
    ∧ (cmpFired t x).value = x.value + BitVec.ofNat 48 (((t - x.value).toNat / x.period + 1) * x.period)
    ∧ (cmpFired t x).missedTotal = x.missedTotal + BitVec.ofNat 32 ((t - x.value).toNat / x.period + 1 - 1) := by
  simp [cmpFired, cmpPeriods, h]

/-- What a firing does: the channel has fired, its notices enter queues, and its timer is reached where ACTION says so. -/
theorem cmpFireAt_cases (t : Tb) (s : State) (n : Nat) : ∃ u, Only [.qf] (onCmpRun n (fun _ => cmpFired t (s.cmpRun n)) s) u
    ∧ cmpFireAt t s n = if bit (s.inForce.com.cmpOf n).action 2 then onTime (fun y => { y with mev := y.mev ++ [(s.inForce.com.cmpOf n).timer] }) u else u := by
  refine ⟨_, ?_, rfl⟩
  have noticed (c : Bool) (a : State) (ctx kind : Nat) (fn : Fn) (data : Rec) : Only [.qf] a (if c then notifyAt ctx kind fn t data a else a) :=
    .ite (notifyAt_frame _ _ _ _ _ _) (.refl _ a)
  exact .ite ((admitEntry_frame _ _ _).after (by decide) (noticed _ _ _ _ _ _)) (noticed _ _ _ _ _ _)

theorem cmpFireAt_cmp (t : Tb) (s : State) (n : Nat) : (cmpFireAt t s n).time.cmp = (onCmpRun n (fun _ => cmpFired t (s.cmpRun n)) s).time.cmp := by
  obtain ⟨u, only, fired⟩ := cmpFireAt_cases t s n
  have time : u.time = (onCmpRun n (fun _ => cmpFired t (s.cmpRun n)) s).time := only .time (by decide)
  rw [fired, ← time]
  split <;> rfl

theorem cmpFireAt_same (t : Tb) (s : State) (n : Nat) : (cmpFireAt t s n).cmpRun n = cmpFired t (s.cmpRun n) :=
  (congrArg (fun c => tget cmpRunDef c n) (cmpFireAt_cmp t s n)).trans (tget_tmod_same cmpRunDef s.time.cmp n _)

theorem cmpFireAt_other (t : Tb) (s : State) {n k : Nat} (h : k ≠ n) : (cmpFireAt t s n).cmpRun k = s.cmpRun k :=
  (congrArg (fun c => tget cmpRunDef c k) (cmpFireAt_cmp t s n)).trans (tget_tmod_other cmpRunDef s.time.cmp _ h)

theorem cmpFireAt_triggers (t : Tb) (s : State) (n : Nat) (h : bit (s.inForce.com.cmpOf n).action 2 = true) : (s.inForce.com.cmpOf n).timer ∈ (cmpFireAt t s n).time.mev := by
  obtain ⟨u, -, fired⟩ := cmpFireAt_cases t s n
  rw [fired, if_pos h]
  exact List.mem_append_right _ (List.mem_singleton_self _)

theorem cmpFireAt_fires (t : Tb) (n : Nat) (s : State) : let x := s.cmpRun n
    let m := (t - x.value).toNat / x.period + 1
    let u := cmpFireAt t s n
    (u.cmpRun n).fires = x.fires + 1 ∧ (u.cmpRun n).late = false
      ∧ (x.period = 0 → (u.cmpRun n).armed = false ∧ (u.cmpRun n).value = x.value ∧ (u.cmpRun n).missedTotal = x.missedTotal)
      ∧ (x.period ≠ 0 → (u.cmpRun n).armed = true ∧ (u.cmpRun n).value = x.value + BitVec.ofNat 48 (m * x.period)
          ∧ (u.cmpRun n).missedTotal = x.missedTotal + BitVec.ofNat 32 (m - 1))
      ∧ (∀ k, k ≠ n → u.cmpRun k = s.cmpRun k)
      ∧ (bit (s.inForce.com.cmpOf n).action 2 = true → (s.inForce.com.cmpOf n).timer ∈ u.time.mev) ∧ Only [.time, .qf] s u := by
  intro x m u
  have channel : u.cmpRun n = cmpFired t x := cmpFireAt_same t s n
  rw [channel]
  exact ⟨rfl, rfl, cmpFired_oneShot t, cmpFired_periodic t, fun _ => cmpFireAt_other t s, cmpFireAt_triggers t s n, cmpFireAt_frame t s n⟩

/-! ### Counts of a timer (R221, R222) -/

theorem tmrCount_overflows {n : Nat} {s : State} (top : (s.tmr n).count = tmrTop (s.tmr n).cfg) (m : tmrMatch (s.tmr n).cfg ≠ 0) : tmrCount n s = tmrOverflow n s := by
  simp only [tmrCount, if_pos top]
  exact if_neg (by rw [tmrOverflow_tmr]; exact m.symm)

theorem tmrCount_matches {n : Nat} {s : State} (hit : (s.tmr n).count + 1 = tmrMatch (s.tmr n).cfg) (top : (s.tmr n).count ≠ tmrTop (s.tmr n).cfg)
    (lt : tmrMatch (s.tmr n).cfg < 16777216) : tmrCount n s = tmrMatched n (onTmr n (fun t => { t with count := (t.count + 1) % 2 ^ 24 }) s) := by
  simp only [tmrCount, if_neg top]
  refine if_pos ?_
  rw [onTmr_same, ← hit]
  exact Nat.mod_eq_of_lt (hit ▸ lt)

theorem tmrCount_counts (n : Nat) (s : State) : let t := s.tmr n
    let u := tmrCount n s
    (t.count = tmrTop t.cfg → tmrMatch t.cfg ≠ 0 → (u.tmr n).count = 0 ∧ (u.tmr n).out = false ∧ (u.tmr n).ovfTotal = t.ovfTotal + 1
          ∧ (u.tmr n).running = !(tmrOneShot t.cfg) ∧ (∀ k, k ≠ n → u.tmr k = s.tmr k) ∧ Only [.time, .qf] s u)
        ∧ (t.count + 1 = tmrMatch t.cfg → t.count ≠ tmrTop t.cfg → tmrMatch t.cfg < 16777216 → (u.tmr n).count = tmrMatch t.cfg
          ∧ (u.tmr n).out = true ∧ (u.tmr n).running = t.running ∧ (∀ k, k ≠ n → u.tmr k = s.tmr k) ∧ Only [.time, .qf] s u) := by
  intro t u
  have only : TimerOnly n s u := tmrCount_only n s
  refine ⟨fun top m => ?_, fun hit top lt => ?_⟩
  · have timer : u.tmr n = _ := (congrArg (State.tmr · n) (tmrCount_overflows top m)).trans (tmrOverflow_tmr n s)
    rw [timer]
    exact ⟨rfl, rfl, rfl, rfl, only.other, only.frame⟩
  · have timer : u.tmr n = _ := (congrArg (State.tmr · n) (tmrCount_matches hit top lt)).trans (tmrMatched_tmr n _)
    rw [timer, onTmr_same]
    exact ⟨(Nat.mod_eq_of_lt (hit ▸ lt)).trans hit, rfl, rfl, only.other, only.frame⟩

theorem tmrRunTo_stands {n : Nat} (v : Nat) {s : State} (h : (s.tmr n).running = false ∨ gateOpen s (s.tmr n).cfg = false) : tmrRunTo n v s = s := by
  unfold tmrRunTo
  exact if_pos (by rcases h with h | h <;> simp [h])

theorem tmrRunTo_runs {n v : Nat} {s : State} (run : (s.tmr n).running = true) (gate : gateOpen s (s.tmr n).cfg = true) :
    (tmrClk (s.tmr n).cfg = 1 → tmrRunTo n v s = advTo (s.tbNow + BitVec.ofNat 48 (tmrCountsTo (s.tmr n) v * (tmrPre (s.tmr n).cfg + 1) - (s.tmr n).phase)) s)
      ∧ (∀ e, tmrClk (s.tmr n).cfg = 2 → (s.tmr n).edges[tmrCountsTo (s.tmr n) v - 1]? = some e → tmrRunTo n v s = advTo e s)
      ∧ (tmrClk (s.tmr n).cfg = 3 → tmrCountsTo (s.tmr n) v = 1 → n ∈ s.time.mev → tmrRunTo n v s = tickOnce s) := by
  simp only [tmrRunTo, run, gate]
  refine ⟨fun clk => ?_, fun e clk edge => ?_, fun clk one due => ?_⟩
  · simp [clk]
  · simp [clk, edge]
  · simp [clk, one, due]

theorem timerOverflow_runs {n : Nat} (s : State) (h : n < 16) : execTimerOverflow n s = .next (tmrRunTo n 0 s) := congrArg Host.Outcome.next (if_pos h)

theorem timerMatch_runs {n : Nat} (s : State) (h : n < 16) : execTimerMatch n s = .next (tmrRunTo n (tmrMatch (s.tmr n).cfg) s) := congrArg Host.Outcome.next (if_pos h)

/-- A running timer that no master event reaches counts where its clock gives a count and GATE permits it. -/
theorem tmrStep_counts (s0 : State) (l : List Nat) (n : Nat) (s : State) (due : n ∉ l) (run : (s.tmr n).running = true) (gives : tmrGives (s.tmr n) s.tbNow false = true)
    (gate : gateOpen s0 (s.tmr n).cfg = true) : tmrStep s0 l s n = tmrCount n (onTmr n (tmrClocked s.tbNow) s) := by
  simp [tmrStep, due, run, gives, gate]

theorem timerMasterEvent_ticks {n : Nat} {s : State} (h : n ∈ s.time.mev) : execTimerMasterEvent n s = .next (tickOnce s) :=
  congrArg Host.Outcome.next (if_pos (List.contains_iff_mem.mpr h))

theorem timerMasterEvent_stands {n : Nat} {s : State} (h : n ∉ s.time.mev) : execTimerMasterEvent n s = .next s :=
  congrArg Host.Outcome.next (if_neg (fun k => h (List.contains_iff_mem.mp k)))

theorem tmrMasterAct_resets (n : Nat) (s : State) (h : tmrSlave (s.tmr n).cfg = 2) : ((tmrMasterAct n s).tmr n).count = 0 ∧ ((tmrMasterAct n s).tmr n).out = false
    ∧ (∀ k, k ≠ n → (tmrMasterAct n s).tmr k = s.tmr k) := by
  have timer : (tmrMasterAct n s).tmr n = { s.tmr n with count := 0, out := false } := by simp [tmrMasterAct, h]
  rw [timer]
  exact ⟨rfl, rfl, (tmrMasterAct_only n s).other⟩

/-- Settles O49: the opcodes by the laws of acceptance, each record and event by its own lemma. -/
theorem timeBaseAndTimers : Obligations.TimeBaseAndTimers :=
  ⟨tells_of _ _ _ rfl (.inl rfl) rfl (fun _ _ _ => rfl), waits_of _ _ _ rfl rfl (fun _ _ _ => rfl), waits_of _ _ _ rfl rfl (fun _ _ _ => rfl),
    waits_of _ _ _ rfl rfl (fun _ _ _ => rfl), waits_of _ _ _ rfl rfl (fun _ _ _ => rfl), waits_of _ _ _ rfl rfl (fun _ _ _ => rfl),
    tells_of _ _ _ rfl (.inl rfl) rfl (fun _ _ _ => rfl), waits_of _ _ _ rfl rfl (fun _ _ _ => rfl), tells_of _ _ _ rfl (.inl rfl) rfl (fun _ _ _ => rfl),
    timeAnchor_takes, cmpSet_commits, tmrConfig_stores,
    fun n s armed up => ⟨compareFire_held n, fun free => ⟨compareFire_fires armed up free, cmpBefore_ascends s n, mem_cmpBefore s n⟩⟩, cmpFireAt_fires, tmrCount_counts,
    fun _ s h => ⟨⟨timerOverflow_runs s h, timerMatch_runs s h⟩, fun v => ⟨tmrRunTo_stands v, tmrRunTo_runs⟩⟩, tmrStep_counts,
    fun _ s => ⟨fun due => ⟨tickOnce s, timerMasterEvent_ticks due, rfl, tickOnce_tb s, tickOnce_frame s⟩, timerMasterEvent_stands⟩, tmrMasterAct_resets⟩

end Sys2Proof.Machine

namespace Sys2Proof.Machine

/-! ### What a core that is ready does with an instruction's effect (R412, R418) -/

/-- Two cores go on alike: same PC, loop end, LOOP and cycle counts. -/
structure FlowKept (k k' : Core) : Prop where
  pc : k'.pc = k.pc
  le_ : k'.le_ = k.le_
  loop : stBit k' fLoop = stBit k fLoop
  cycles : k'.cycles = k.cycles
  busy : k'.busy = k.busy

theorem FlowKept.refl (k : Core) : FlowKept k k := ⟨rfl, rfl, rfl, rfl, rfl⟩

theorem flowKept_iff (k k' : Core) : FlowKept k k' ↔ k'.pc = k.pc ∧ k'.le_ = k.le_ ∧ stBit k' fLoop = stBit k fLoop ∧ k'.cycles = k.cycles ∧ k'.busy = k.busy :=
  ⟨fun h => ⟨h.pc, h.le_, h.loop, h.cycles, h.busy⟩, fun ⟨a, b, c, d, e⟩ => ⟨a, b, c, d, e⟩⟩

theorem FlowKept.trans {k l m : Core} (h : FlowKept k l) (j : FlowKept l m) : FlowKept k m :=
  ⟨j.pc.trans h.pc, j.le_.trans h.le_, j.loop.trans h.loop, j.cycles.trans h.cycles, j.busy.trans h.busy⟩

/-- The core after `n` cycles, on at `pc`. -/
def Core.goOn (pc : BitVec 16) (n : Nat) (k : Core) : Core := { k with pc := pc, cycles := k.cycles + n, busy := k.busy + n }

/-- No loop of `k'` ends at the instruction of `w` words at the PC of `k`, so that it goes on in sequence. -/
def GoesOn (w : Nat) (k k' : Core) : Prop := stBit k' fLoop = true → k.pc + BitVec.ofNat 16 w ≠ k'.le_

theorem InLine.goesOn {w : Nat} {k k' : Core} (h : InLine w k') (pc : k'.pc = k.pc) : GoesOn w k k' := fun l => pc ▸ (h l).2

theorem FlowKept.goesOn {w : Nat} {k k' : Core} (f : FlowKept k k') (h : InLine w k) : GoesOn w k k' := fun l => f.le_ ▸ (h (f.loop ▸ l)).2

/-- An instruction may stand where it stands: it may be the last of a loop, or no loop ends behind it (R412). -/
def MayStand (last : Bool) (k : Core) : Prop := last = true ∨ (stBit k fLoop = true → k.pc + 1 ≠ k.le_)

theorem InLine.mayStand {w : Nat} {k : Core} (last : Bool) (h : InLine w k) : MayStand last k := .inr (fun l => (h l).1)

/-- The state after core `c` has taken an instruction of effect `r`, no REP being in progress: it traps, or it goes on, at the end of a loop as R412 says. -/
def coreTakes (c : Nat) (r : Eff) (s : State) : State :=
  let k := { r.core with cycles := r.core.cycles + r.cycles, busy := r.core.busy + r.cycles }
  match r.trap with
  | some t => endTrap c t (onCore c (fun _ => k) s)
  | none =>
    if r.seq then
      match loopEnd (coreEnv s c).top k r.next with
      | .error t => endTrap c t s
      | .ok (k2, x) => onCore c (fun _ => { k2 with cycles := k2.cycles + x, busy := k2.busy + x }) s
    else onCore c (fun _ => { k with pc := r.next }) s

/-- The checks before an instruction's effect pass: what is left is the effect itself. -/
theorem coreDo_ready {op : CoreOp} {rep last : Bool} {f : CoreEnv → Core → Eff} {s : State} (ready : CoreReady op s) (stand : MayStand last (s.core op.core)) :
    coreDo op rep last f s = coreTakes op.core (f (coreEnv s op.core) (s.core op.core)) s := by
  obtain ⟨core, ecc, noRep, budget, t, run, safe⟩ := ready
  have noSafe : ¬ ((decide ((s.core op.core).safe = 1) && decide (((s.taskDesc t).map tdSafe).getD 65535 ≠ 65535)) = true) := by
    simpa using safe
  have stands : ((!last && stBit (s.core op.core) fLoop) && decide ((s.core op.core).pc + 1 = (s.core op.core).le_)) = false := by
    rcases stand with h | h
    · simp [h]
    · simpa using fun _ => h
  have noCorrected : ¬ (0 : Nat) = 1 := Nat.zero_ne_one
  have noUncorrected : ¬ (0 : Nat) = 2 := by decide
  unfold coreDo
  simp only [run, if_neg (Nat.not_le.mpr core), if_neg noSafe, if_neg (Nat.not_le.mpr budget), ecc, if_neg noCorrected, if_neg noUncorrected, if_false, noRep, stands,
    Option.isSome_none, Bool.false_and, Bool.or_self, Bool.false_eq_true]
  rfl

theorem coreDo_sequence {op : CoreOp} {rep last : Bool} {f : CoreEnv → Core → Eff} {s : State} {w n : Nat} {k' : Core} (ready : CoreReady op s)
    (stand : MayStand last (s.core op.core)) (eff : f (coreEnv s op.core) (s.core op.core) = effSeq (s.core op.core) w n k') (on : GoesOn w (s.core op.core) k') :
    coreDo op rep last f s = onCore op.core (fun _ => k'.goOn ((s.core op.core).pc + BitVec.ofNat 16 w) n) s := by
  have ends (top : BitVec 17) : loopEnd top { k' with cycles := k'.cycles + n, busy := k'.busy + n } ((s.core op.core).pc + BitVec.ofNat 16 w)
      = .ok (k'.goOn ((s.core op.core).pc + BitVec.ofNat 16 w) n, 0) := by
    refine if_neg fun h => ?_
    obtain ⟨l, e⟩ := Bool.and_eq_true_iff.mp h
    exact on l (of_decide_eq_true e)
  rw [coreDo_ready ready stand, eff]
  simp only [coreTakes, effSeq, if_true, ends]
  rfl

theorem coreDo_traps {op : CoreOp} {rep last : Bool} {f : CoreEnv → Core → Eff} {s : State} {t : Nat} (ready : CoreReady op s) (stand : MayStand last (s.core op.core))
    (eff : f (coreEnv s op.core) (s.core op.core) = effTrap (s.core op.core) t) :
    coreDo op rep last f s = endTrap op.core t (onCore op.core (fun _ => s.core op.core) s) := by
  rw [coreDo_ready ready stand, eff]
  rfl

/-- An instruction in sequence: the core goes on, no other core and nothing outside the cores changes. -/
theorem exec_sequence {i : Instr} {op : CoreOp} {rep last : Bool} {f : CoreEnv → Core → Eff} {s : State} {w n : Nat} {k' : Core} (he : exec i s = .next (coreDo op rep last f s))
    (ready : CoreReady op s) (stand : MayStand last (s.core op.core)) (eff : f (coreEnv s op.core) (s.core op.core) = effSeq (s.core op.core) w n k')
    (on : GoesOn w (s.core op.core) k') :
    ∃ u, exec i s = .next u ∧ u.core op.core = k'.goOn ((s.core op.core).pc + BitVec.ofNat 16 w) n ∧ (∀ c, c ≠ op.core → u.core c = s.core c) ∧ Only [.ces] s u :=
  ⟨_, he.trans (congrArg Host.Outcome.next (coreDo_sequence ready stand eff on)), onCore_same _ _ s, fun _ h => onCore_other _ s h, onCore_frame _ _ s⟩

theorem CoreStep.imp {i : Instr} {op : CoreOp} {n w : Nat} {P Q : Core → Core → Prop} (h : CoreStep i op n w P) (k : ∀ a b, P a b → Q a b) : CoreStep i op n w Q := by
  intro s ready inLine
  obtain ⟨u, run, pc, cycles, busy, holds, rest⟩ := h s ready inLine
  exact ⟨u, run, pc, cycles, busy, k _ _ holds, rest⟩

/-- The law of an instruction of `w` words that may end a loop. -/
theorem coreStep_of {i : Instr} {op : CoreOp} {n w : Nat} {f : CoreEnv → Core → Eff} {P : Core → Core → Prop} (he : ∀ s, exec i s = .next (coreDo op true true f s))
    (hf : ∀ e k, ∃ k', f e k = effSeq k w n k' ∧ FlowKept k k' ∧ ∀ pc, P k (k'.goOn pc n)) : CoreStep i op n w P := by
  intro s ready inLine
  obtain ⟨k', eff, flow, holds⟩ := hf (coreEnv s op.core) (s.core op.core)
  have run := coreDo_sequence (rep := true) ready (inLine.mayStand true) eff (flow.goesOn inLine)
  refine ⟨_, (he s).trans (congrArg Host.Outcome.next run), ?_⟩
  rw [onCore_same]
  exact ⟨rfl, congrArg (· + n) flow.cycles, congrArg (· + n) flow.busy, holds _, fun _ h => onCore_other _ s h, rfl, rfl, (onCore_frame _ _ s).sub (by decide)⟩

/-- The law of an instruction that traps before it changes anything. -/
theorem coreTraps_of {i : Instr} {op : CoreOp} {last : Bool} {f : CoreEnv → Core → Eff} {h : Core → Prop} {t : Nat} (he : ∀ s, exec i s = .next (coreDo op last last f s))
    (stand : ∀ k, h k → MayStand last k) (hf : ∀ e k, e.top = k.stackTop → h k → f e k = effTrap k t) : CoreTraps i op h t := by
  intro s ready hk
  refine ⟨_, (he s).trans (congrArg Host.Outcome.next (coreDo_traps ready (stand _ hk) (hf _ _ rfl hk))), fun c => ?_, rfl, rfl, onCore_frame _ _ s⟩
  by_cases hc : c = op.core
  · rw [hc, onCore_same]
  · exact onCore_other _ s hc

/-! ### Registers (R402, R403, R405) -/

theorem setD_dr_same (n : Nat) (v : W24) (k : Core) : (setD n v k).dr n = v := tget_tput_same wordDef k.d _ v

theorem setD_dr_other {n j : Nat} (v : W24) (k : Core) (h : j % 8 ≠ n % 8) : (setD n v k).dr j = k.dr j := tget_tput_other wordDef k.d v h

theorem setP_ptr_same (n : Nat) (v : BitVec 17) (k : Core) : (setP n v k).ptr n = v := tget_tput_same pDef k.p _ v

theorem setA_acc_same (n : Nat) (v : BitVec 56) (k : Core) : (setA n v k).acc n = v := tget_tput_same aDef k.a _ v

theorem setP_flow (n : Nat) (v : BitVec 17) (k : Core) : FlowKept k (setP n v k) := ⟨rfl, rfl, rfl, rfl, rfl⟩

theorem setA_flow (n : Nat) (v : BitVec 56) (k : Core) : FlowKept k (setA n v k) := ⟨rfl, rfl, rfl, rfl, rfl⟩

/-- A flag below LOOP leaves LOOP. -/
theorem setSt_loop {i : Nat} (h : i < 7) (v : Bool) (k : Core) : stBit (setSt i v k) fLoop = stBit k fLoop := by
  have bit7 : (BitVec.ofNat 24 (2 ^ i)).getLsbD 7 = false := by
    rw [BitVec.getLsbD_ofNat, Nat.testBit_two_pow_of_ne (Nat.ne_of_lt h), Bool.and_false]
  unfold setSt stBit fLoop
  generalize BitVec.ofNat 24 (2 ^ i) = m at bit7
  cases v
  · simp only [Bool.false_eq_true, if_false, BitVec.getLsbD_and, BitVec.getLsbD_not, bit7]
    simp
  · simp only [if_true, BitVec.getLsbD_or, bit7, Bool.or_false]

theorem setSt_flow {i : Nat} (h : i < 7) (v : Bool) (k : Core) : FlowKept k (setSt i v k) := ⟨rfl, rfl, setSt_loop h v k, rfl, rfl⟩

/-- The core of an answer, where there is one, satisfies `P`. -/
def OnSome {α : Type} (P : α → Prop) (x : Option α) : Prop := ∀ a, x = some a → P a

theorem OnSome.some {α : Type} {P : α → Prop} {a : α} (h : P a) : OnSome P (.some a) := fun _ e => Option.some.inj e ▸ h
theorem OnSome.none {α : Type} {P : α → Prop} : OnSome P .none := fun _ e => nomatch e
theorem OnSome.ite {α : Type} {P : α → Prop} {x y : Option α} {c : Prop} {_ : Decidable c} (h : OnSome P x) (k : OnSome P y) : OnSome P (if c then x else y) := by
  split <;> assumption

theorem regRead_flow (k : Core) (code : Nat) : OnSome (fun r => FlowKept k r.2) (regRead k code) := by
  unfold regRead
  dsimp only
  repeat' with_reducible apply OnSome.ite
  all_goals simp [OnSome, FlowKept.refl, setSt_flow, fL]

theorem regWrite_pc (k : Core) (code : Nat) (v : W24) : OnSome (fun k' => k'.pc = k.pc) (regWrite k code v) := by
  unfold regWrite
  dsimp only
  repeat' with_reducible apply OnSome.ite
  all_goals simp [OnSome, setA, setD, setP]

theorem eaPtr_flow (k : Core) (mode n : Nat) : OnSome (fun r => FlowKept k r.2) (eaPtr k mode n) := by
  unfold eaPtr
  refine .ite (.some (.refl k)) fun r h => ?_
  obtain ⟨p, -, rfl⟩ := Option.map_eq_some_iff.mp h
  exact setP_flow n p k

theorem eaAddr_flow (k : Core) (ea : Nat) (ext : W24) : OnSome (fun r => FlowKept k r.2) (eaAddr k ea ext) :=
  .ite (eaPtr_flow k _ _) (.ite (.some (.refl k)) (.ite (.some (.refl k)) (.ite (.some (.refl k)) .none)))

theorem dRead_flow (e : CoreEnv) (k : Core) (a : Nat) : OnSome (fun r => FlowKept k r.2) (dRead e k a) := by
  unfold dRead
  dsimp only
  repeat' with_reducible apply OnSome.ite
  all_goals simp [OnSome, flowKept_iff, stBit]

theorem dWrite_flow (e : CoreEnv) (k : Core) (a : Nat) (v : W24) : OnSome (fun r => FlowKept k r.1) (dWrite e k a v) := by
  unfold dWrite
  dsimp only
  repeat' with_reducible apply OnSome.ite
  all_goals simp [OnSome, flowKept_iff, stBit, onPort]

theorem mulInto_flow (sub a : Nat) (x y : W24) (k : Core) : FlowKept k (mulInto sub a x y k) := by
  show FlowKept k (setSt fV _ (setA a _ k))
  exact (setA_flow a _ k).trans (setSt_flow (by decide) _ _)

end Sys2Proof.Machine

namespace Sys2Proof.Machine

/-! ### Words of data memory and the TB pair (R208, R400) -/

theorem dRead_data (e : CoreEnv) (k : Core) {a : Nat} (h : a < 0x18000) : dRead e k a = some (tget wordDef k.data a, k) := if_pos h

theorem dWrite_data (e : CoreEnv) (k : Core) {a : Nat} (v : W24) (h : a < 0x18000) : dWrite e k a v = some ({ k with data := tput wordDef k.data a v }, 0) := if_pos h

theorem dRead_tbl (e : CoreEnv) (k : Core) : dRead e k 0x1B000 = some (e.tb.truncate 24, { k with tbh := (e.tb >>> 24).truncate 24 }) := by simp [dRead]

theorem dRead_tbh (e : CoreEnv) (k : Core) : dRead e k 0x1B001 = some (k.tbh, k) := by simp [dRead]

/-- A read of TBL and then of TBH gives one TB value (R208). -/
theorem dRead_tbPair (e : CoreEnv) (k : Core) (lo : W24) (k1 : Core) (hi : W24) (k2 : Core) (hl : dRead e k 0x1B000 = some (lo, k1)) (hh : dRead e k1 0x1B001 = some (hi, k2)) :
    hi ++ lo = e.tb := by
  rw [dRead_tbl] at hl
  obtain ⟨rfl, rfl⟩ := Prod.mk.inj (Option.some.inj hl)
  rw [dRead_tbh] at hh
  obtain ⟨rfl, -⟩ := Prod.mk.inj (Option.some.inj hh)
  rw [BitVec.truncate_eq_setWidth, BitVec.truncate_eq_setWidth, BitVec.setWidth_ushiftRight_eq_extractLsb, BitVec.setWidth_eq_extractLsb' (by decide)]
  exact BitVec.extractLsb'_append_extractLsb'

theorem dRead_unlisted (e : CoreEnv) (k : Core) {a : Nat} (h : 0x1B004 < a) : dRead e k a = none := by
  unfold dRead
  iterate 9 rw [if_neg (by omega)]

theorem dWrite_snapshot (e : CoreEnv) (k : Core) {a : Nat} (v : W24) (lo : 0x18000 ≤ a) (hi : a < 0x19000) : dWrite e k a v = none := by
  unfold dWrite
  iterate 3 rw [if_neg (by omega)]

theorem dWrite_unlisted (e : CoreEnv) (k : Core) {a : Nat} (v : W24) (h : 0x1A100 ≤ a) : dWrite e k a v = none := by
  unfold dWrite
  iterate 3 rw [if_neg (by omega)]

theorem dWrite_dataWord (e : CoreEnv) (k : Core) (a : Nat) (v : W24) (h : a < 0x18000) : ∃ k', dWrite e k a v = some (k', 0) ∧ tget wordDef k'.data a = v
    ∧ (∀ b, b ≠ a → tget wordDef k'.data b = tget wordDef k.data b) ∧ k' = { k with data := k'.data } ∧ dRead e k a = some (tget wordDef k.data a, k) :=
  ⟨_, dWrite_data e k v h, tget_tput_same wordDef k.data a v, fun _ hb => tget_tput_other wordDef k.data v hb, rfl, dRead_data e k h⟩

theorem useFree_core (s : State) (c : Nat) : (useFree s).core c = s.core c := rfl

theorem onTask_core (t : Nat) (f : Task → Task) (s : State) (c : Nat) : (onTask t f s).core c = s.core c := rfl

/-- At activation the TBH latch takes TB[47:24] (R208). -/
theorem activate_tbh (t m : Nat) (d : Rec) (adc : List (Bool × Bool × List Nat)) (s : State) : ((activate t m d adc s).core (tdCore d)).tbh = (s.tbNow >>> 24).truncate 24 := by
  simp only [activate, useFree_core, onTask_core, onCore_same]

/-- TBL_READ: Dn takes TBL, the latch TBH. -/
def effTbl (e : CoreEnv) (dn : Nat) (k : Core) : Eff := effSeq k 1 1 (setD dn (e.tb.truncate 24) { k with tbh := (e.tb >>> 24).truncate 24 })

theorem exec_tblRead (op : CoreOp) (dn : Nat) (s : State) : exec (.tblRead op dn) s = .next (coreDo op true true (fun e k => effTbl e dn k) s) := by
  show execTblRead op dn s = _
  unfold execTblRead
  simp only [dRead_tbl]
  rfl

theorem tblRead_step (op : CoreOp) (dn : Nat) : CoreStep (.tblRead op dn) op 1 1
    (fun k k' => (∀ j, j % 8 ≠ dn % 8 → k'.dr j = k.dr j) ∧ k' = { k with d := k'.d, tbh := k'.tbh, pc := k'.pc, cycles := k'.cycles, busy := k'.busy }) :=
  coreStep_of (exec_tblRead op dn) fun _ k => ⟨_, rfl, ⟨rfl, rfl, rfl, rfl, rfl⟩, fun _ => ⟨fun _ h => setD_dr_other _ k h, rfl⟩⟩

theorem tblRead_reads (op : CoreOp) (dn : Nat) (s : State) (ready : CoreReady op s) (inLine : InLine 1 (s.core op.core)) : ∃ u, exec (.tblRead op dn) s = .next u
    ∧ (u.core op.core).dr dn = s.tbNow.truncate 24 ∧ (u.core op.core).tbh = (s.tbNow >>> 24).truncate 24 ∧ u.tbNow = s.tbNow := by
  obtain ⟨u, run, core, -, only⟩ := exec_sequence (exec_tblRead op dn s) ready (inLine.mayStand true) rfl (FlowKept.goesOn ⟨rfl, rfl, rfl, rfl, rfl⟩ inLine)
  refine ⟨u, run, ?_, ?_, congrArg Time.tb (only .time (by decide))⟩
  · rw [core]
    exact setD_dr_same _ _ _
  · rw [core]
    rfl

/-! ### The stack (R410) -/

theorem pushAll_underBound {k : Core} (v : W24) (vs : List W24) (h : k.sp.toNat < k.sb.toNat + 1) : pushAll k (v :: vs) = .error trapStack := if_pos h

theorem pushAll_cons (k : Core) (v : W24) (vs : List W24) : pushAll k (v :: vs) = if k.sp.toNat < k.sb.toNat + 1 then .error trapStack
    else if 0x18000 ≤ (k.sp - 1).toNat then .error trapAddr else pushAll { k with sp := k.sp - 1, data := tput wordDef k.data (k.sp - 1).toNat v } vs := rfl

theorem pushAll_push {k : Core} (v : W24) (vs : List W24) (room : k.sb.toNat + 1 ≤ k.sp.toNat) (inData : k.sp.toNat ≤ 0x18000) :
    pushAll k (v :: vs) = pushAll { k with sp := k.sp - 1, data := tput wordDef k.data (k.sp - 1).toNat v } vs := by
  have below : (k.sp - 1).toNat = k.sp.toNat - 1 := by bv_omega
  rw [pushAll_cons, if_neg (by omega), if_neg (by omega)]

theorem pushAll_outside {k : Core} (v : W24) (vs : List W24) (room : k.sb.toNat + 1 ≤ k.sp.toNat) (outside : 0x18000 < k.sp.toNat) : pushAll k (v :: vs) = .error trapAddr := by
  have below : (k.sp - 1).toNat = k.sp.toNat - 1 := by bv_omega
  rw [pushAll_cons, if_neg (by omega), if_pos (by omega)]

theorem pushAll_pushes (k : Core) (v : W24) (vs : List W24) (room : k.sb.toNat + 1 ≤ k.sp.toNat) (inData : k.sp.toNat ≤ 0x18000) : ∃ k', pushAll k (v :: vs) = pushAll k' vs
    ∧ k'.sp = k.sp - 1 ∧ tget wordDef k'.data k'.sp.toNat = v ∧ (∀ b, b ≠ k'.sp.toNat → tget wordDef k'.data b = tget wordDef k.data b) ∧ k' = { k with sp := k'.sp, data := k'.data } :=
  ⟨_, pushAll_push v vs room inData, rfl, tget_tput_same wordDef k.data _ v, fun _ hb => tget_tput_other wordDef k.data v hb, rfl⟩

theorem popAll_atTop {top : BitVec 17} {k : Core} (n : Nat) (h : k.sp = top) : popAll top k (n + 1) = .error trapStack := if_pos h

theorem popAll_outside {top : BitVec 17} {k : Core} (n : Nat) (h : k.sp ≠ top) (outside : 0x18000 ≤ k.sp.toNat) : popAll top k (n + 1) = .error trapAddr :=
  (if_neg h).trans (if_pos outside)

theorem popAll_pops {top : BitVec 17} {k : Core} (n : Nat) (h : k.sp ≠ top) (inData : k.sp.toNat < 0x18000) (vs : List W24) (k' : Core)
    (rest : popAll top { k with sp := k.sp + 1 } n = .ok (vs, k')) : popAll top k (n + 1) = .ok (tget wordDef k.data k.sp.toNat :: vs, k') := by
  rw [popAll, if_neg h, if_neg (by omega), rest]

theorem call_traps (op : CoreOp) (a : BitVec 16) :
    CoreTraps (.call op a) op (fun k => (stBit k fLoop = true → k.pc + 1 ≠ k.le_) ∧ k.sp.toNat < k.sb.toNat + 1) trapStack :=
  coreTraps_of (fun _ => rfl) (fun _ h => .inr h.1) fun _ k _ h => by
    show effCall a k = _
    rw [effCall, pushAll_underBound _ _ h.2]

theorem ret_traps (op : CoreOp) : CoreTraps (.ret op) op (fun k => (stBit k fLoop = true → k.pc + 1 ≠ k.le_) ∧ k.sp = k.stackTop) trapStack :=
  coreTraps_of (fun _ => rfl) (fun _ h => .inr h.1) fun e k top h => by
    show effRet e k = _
    rw [effRet, popAll_atTop 0 (h.2.trans top.symm)]

/-! ### LD, ST, MOV and MACX (R406, R414) -/

/-- Words of an instruction with an ea (R414). -/
def eaWords (ea : Nat) : Nat := if eaExt ea then 2 else 1

theorem effLd_immediate (e : CoreEnv) {code ea : Nat} {ext : W24} {k k1 : Core} (hc : code < 52) (m : ea / 8 % 8 = 7) (n : ea % 8 = 1) (w : regWrite k code ext = some k1) :
    effLd e code ea ext k = effSeq k (eaWords ea) (eaWords ea) k1 := by
  have imm : (decide (ea / 8 % 8 = 7) && decide (ea % 8 = 1)) = true := by simpa using And.intro m n
  simp only [effLd, if_neg (Nat.not_le.mpr hc), if_pos imm, w, effOpt, eaWords]

theorem effLd_memory {e : CoreEnv} {code ea : Nat} {ext : W24} {k k1 k2 k3 : Core} {a : Nat} {v : W24} (hc : code < 52) (mem : ¬(ea / 8 % 8 = 7 ∧ ea % 8 = 1))
    (addr : eaAddr k ea ext = some (a, k1)) (read : dRead e k1 a = some (v, k2)) (w : regWrite k2 code v = some k3) :
    effLd e code ea ext k = effSeq k (eaWords ea) (eaWords ea) k3 := by
  have noImm : ¬((decide (ea / 8 % 8 = 7) && decide (ea % 8 = 1)) = true) := by simpa using mem
  simp only [effLd, if_neg (Nat.not_le.mpr hc), if_neg noImm, addr, read, w, effOpt, eaWords]

theorem effSt_stores {e : CoreEnv} {code ea : Nat} {ext : W24} {k k1 k2 k3 : Core} {a x : Nat} {v : W24} (read : regRead k code = some (v, k1))
    (addr : eaAddr k1 ea ext = some (a, k2)) (write : dWrite e k2 a v = some (k3, x)) : effSt e code ea ext k = effSeq k (eaWords ea) (eaWords ea + x) k3 := by
  simp only [effSt, read, addr, write, eaWords]

theorem ld_immediate (op : CoreOp) {code ea : Nat} {ext : W24} (hc : code < 52) (m : ea / 8 % 8 = 7) (n : ea % 8 = 1) (s : State) (k1 : Core) (ready : CoreReady op s)
    (inLine : InLine (eaWords ea) (s.core op.core)) (w : regWrite (s.core op.core) code ext = some k1) (after : InLine (eaWords ea) k1) : ∃ u, exec (.ld op code ea ext) s = .next u
    ∧ u.core op.core = k1.goOn ((s.core op.core).pc + BitVec.ofNat 16 (eaWords ea)) (eaWords ea) ∧ (∀ c, c ≠ op.core → u.core c = s.core c) ∧ Only [.ces] s u :=
  exec_sequence rfl ready (inLine.mayStand _) (effLd_immediate _ hc m n w) (after.goesOn (regWrite_pc _ _ _ _ w))

theorem ld_memory (op : CoreOp) {code ea : Nat} {ext : W24} (hc : code < 52) (mem : ¬(ea / 8 % 8 = 7 ∧ ea % 8 = 1)) {s : State} (ready : CoreReady op s)
    (inLine : InLine (eaWords ea) (s.core op.core)) (a : Nat) (k1 : Core) (v : W24) (k2 k3 : Core) (addr : eaAddr (s.core op.core) ea ext = some (a, k1))
    (read : dRead (coreEnv s op.core) k1 a = some (v, k2)) (w : regWrite k2 code v = some k3) (after : InLine (eaWords ea) k3) : ∃ u, exec (.ld op code ea ext) s = .next u
    ∧ u.core op.core = k3.goOn ((s.core op.core).pc + BitVec.ofNat 16 (eaWords ea)) (eaWords ea) ∧ (∀ c, c ≠ op.core → u.core c = s.core c) ∧ Only [.ces] s u :=
  have flow : FlowKept (s.core op.core) k2 := (eaAddr_flow _ _ _ _ addr).trans (dRead_flow _ _ _ _ read)
  exec_sequence rfl ready (inLine.mayStand _) (effLd_memory hc mem addr read w) (after.goesOn ((regWrite_pc _ _ _ _ w).trans flow.pc))

theorem st_memory (op : CoreOp) {code ea : Nat} {ext : W24} {s : State} (ready : CoreReady op s) (inLine : InLine (eaWords ea) (s.core op.core)) (v : W24) (k1 : Core) (a : Nat)
    (k2 k3 : Core) (x : Nat) (read : regRead (s.core op.core) code = some (v, k1)) (addr : eaAddr k1 ea ext = some (a, k2))
    (write : dWrite (coreEnv s op.core) k2 a v = some (k3, x)) : ∃ u, exec (.st op code ea ext) s = .next u
    ∧ u.core op.core = k3.goOn ((s.core op.core).pc + BitVec.ofNat 16 (eaWords ea)) (eaWords ea + x) ∧ (∀ c, c ≠ op.core → u.core c = s.core c) ∧ Only [.ces] s u :=
  have flow : FlowKept (s.core op.core) k3 := ((regRead_flow _ _ _ read).trans (eaAddr_flow _ _ _ _ addr)).trans (dWrite_flow _ _ _ _ _ write)
  exec_sequence rfl ready (inLine.mayStand _) (effSt_stores read addr write) (flow.goesOn inLine)

theorem mov_moves (op : CoreOp) (dst src : Nat) (s : State) (ready : CoreReady op s) (inLine : InLine 1 (s.core op.core)) (v : W24) (k1 k2 : Core)
    (read : regRead (s.core op.core) src = some (v, k1)) (w : regWrite k1 dst v = some k2) (after : InLine 1 k2) : ∃ u, exec (.mov op dst src) s = .next u
    ∧ u.core op.core = k2.goOn ((s.core op.core).pc + 1) 1 ∧ (∀ c, c ≠ op.core → u.core c = s.core c) ∧ Only [.ces] s u := by
  have moves : effMov dst src (s.core op.core) = effSeq (s.core op.core) 1 1 k2 := by simp only [effMov, read, w, effOpt]
  exact exec_sequence rfl ready (inLine.mayStand true) moves (after.goesOn ((regWrite_pc _ _ _ _ w).trans (regRead_flow _ _ _ read).pc))

theorem macx_multiplies (op : CoreOp) (mc aa mx px my py : Nat) (s : State) (ready : CoreReady op s) (inLine : InLine 1 (s.core op.core)) (hx : mx ≤ 4) (hy : my ≤ 4)
    (a : Nat) (k1 : Core) (b : Nat) (k2 : Core) (x : W24) (k3 : Core) (y : W24) (k4 : Core) (ax : eaPtr (s.core op.core) mx (px % 4) = some (a, k1))
    (ay : eaPtr k1 my (4 + py % 4) = some (b, k2)) (rx : dRead (coreEnv s op.core) k2 a = some (x, k3)) (ry : dRead (coreEnv s op.core) k3 b = some (y, k4)) :
    ∃ u, exec (.macx op mc aa mx px my py) s = .next u
      ∧ u.core op.core = { mulInto (mc % 8) aa x y k4 with pc := (s.core op.core).pc + 1, cycles := k4.cycles + 1, busy := k4.busy + 1 }
      ∧ (∀ c, c ≠ op.core → u.core c = s.core c) ∧ Only [.ces] s u := by
  have range : ¬(4 < mx ∨ 4 < my) := by omega
  have product : effMacx (coreEnv s op.core) mc aa mx px my py (s.core op.core) = effSeq (s.core op.core) 1 1 (mulInto (mc % 8) aa x y k4) := by
    simp only [effMacx, if_neg range, ax, ay, rx, ry]
  have flow : FlowKept (s.core op.core) k4 :=
    (((eaPtr_flow _ _ _ _ ax).trans (eaPtr_flow _ _ _ _ ay)).trans (dRead_flow _ _ _ _ rx)).trans (dRead_flow _ _ _ _ ry)
  have into := mulInto_flow (mc % 8) aa x y k4
  obtain ⟨u, run, core, rest⟩ := exec_sequence (i := .macx op mc aa mx px my py) rfl ready (inLine.mayStand true) product ((flow.trans into).goesOn inLine)
  refine ⟨u, run, core.trans ?_, rest⟩
  rw [← into.cycles, ← into.busy]
  rfl

/-! ### Register codes (R403, R405, R407) -/

theorem regRead_d (k : Core) {n : Nat} (h : n < 8) : regRead k n = some (k.dr n, k) := by
  rw [regRead, if_pos h, Nat.mod_eq_of_lt h]

theorem regWrite_d (k : Core) {n : Nat} (v : W24) (h : n < 8) : regWrite k n v = some (setD n v k) := by
  rw [regWrite, if_pos h, Nat.mod_eq_of_lt h]

theorem regWrite_p (k : Core) {n : Nat} (v : W24) (h : n < 8) : regWrite k (8 + n) v = some (setP n (v.truncate 17) k) := by
  have index : (8 + n) % 8 = n := by omega
  rw [regWrite, if_neg (by omega), if_pos (by omega), index]

theorem regWrite_aHigh (k : Core) {n : Nat} (v : W24) (h : n < 4) : regWrite k (32 + n) v = some (setA n ((v.signExtend 32 ++ (0 : BitVec 24)).truncate 56) k) := by
  have index : (32 + n) % 4 = n := by omega
  unfold regWrite
  iterate 4 rw [if_neg (by omega)]
  rw [if_pos (by omega), index]

theorem regWrite_aLow (k : Core) {n : Nat} (v : W24) (h : n < 4) : regWrite k (36 + n) v = some (setA n (((k.acc n >>> 24).truncate 32 ++ v).truncate 56) k) := by
  have index : (36 + n) % 4 = n := by omega
  unfold regWrite
  iterate 5 rw [if_neg (by omega)]
  rw [if_pos (by omega), index]

theorem regWrite_aGuard (k : Core) {n : Nat} (v : W24) (h : n < 4) : regWrite k (40 + n) v = some (setA n ((v.truncate 8 ++ (k.acc n).truncate 48).truncate 56) k) := by
  have index : (40 + n) % 4 = n := by omega
  unfold regWrite
  iterate 6 rw [if_neg (by omega)]
  rw [if_pos (by omega), index]

theorem regRead_aHigh (k : Core) {n : Nat} (h : n < 4) : regRead k (32 + n)
    = if (stBit k fSat && guardOvf (k.acc n)) = true then some (if (k.acc n).msb then 0x800000 else 0x7FFFFF, setSt fL true k) else some ((k.acc n).extractLsb' 24 24, k) := by
  have index : (32 + n) % 4 = n := by omega
  unfold regRead
  dsimp only
  iterate 4 rw [if_neg (by omega)]
  rw [if_pos (by omega), index, BitVec.truncate_eq_setWidth, BitVec.setWidth_ushiftRight_eq_extractLsb]

theorem regRead_reserved (k : Core) {n : Nat} (h : 52 ≤ n) : regRead k n = none := by
  unfold regRead
  dsimp only
  iterate 15 rw [if_neg (by omega)]

theorem regWrite_reserved (k : Core) {n : Nat} (v : W24) (h : 52 ≤ n) : regWrite k n v = none := by
  unfold regWrite
  dsimp only
  iterate 15 rw [if_neg (by omega)]

theorem regWrite_amc (k : Core) (v : W24) (h : 65536 ≤ v.toNat) : regWrite k 51 v = none := by simp [regWrite, h]

/-- AaH takes a value sign-extended, AaL cleared. -/
theorem regWrite_aHigh_value (k : Core) {n : Nat} (v : W24) (h : n < 4) : ∃ k', regWrite k (32 + n) v = some k' ∧ (k'.acc n).toInt = v.toInt * 2 ^ 24 ∧ k' = { k with a := k'.a } := by
  refine ⟨_, regWrite_aHigh k v h, ?_, rfl⟩
  rw [setA_acc_same, BitVec.truncate_eq_setWidth, BitVec.setWidth_eq]
  exact BitVec.toInt_append_zero.trans (by rw [BitVec.toInt_signExtend_of_le (by decide), Int.mul_comm])

theorem regWrite_aLow_value (k : Core) {n : Nat} (v : W24) (h : n < 4) : ∃ k', regWrite k (36 + n) v = some k' ∧ (k'.acc n).extractLsb' 0 24 = v
    ∧ (k'.acc n).extractLsb' 24 32 = (k.acc n).extractLsb' 24 32 ∧ k' = { k with a := k'.a } := by
  refine ⟨_, regWrite_aLow k v h, ?_, ?_, rfl⟩ <;>
    rw [setA_acc_same, BitVec.truncate_eq_setWidth, BitVec.truncate_eq_setWidth, BitVec.setWidth_eq, BitVec.setWidth_ushiftRight_eq_extractLsb]
  · exact BitVec.extractLsb'_append_eq_right
  · exact BitVec.extractLsb'_append_eq_left

theorem regWrite_aGuard_value (k : Core) {n : Nat} (v : W24) (h : n < 4) : ∃ k', regWrite k (40 + n) v = some k' ∧ (k'.acc n).extractLsb' 48 8 = v.truncate 8
    ∧ (k'.acc n).extractLsb' 0 48 = (k.acc n).extractLsb' 0 48 ∧ k' = { k with a := k'.a } := by
  refine ⟨_, regWrite_aGuard k v h, ?_, ?_, rfl⟩ <;> rw [setA_acc_same, BitVec.truncate_eq_setWidth (x := _ ++ _), BitVec.setWidth_eq]
  · exact BitVec.extractLsb'_append_eq_left
  · exact BitVec.extractLsb'_append_eq_right.trans (BitVec.setWidth_eq_extractLsb' (by decide))

theorem registers_read_and_take (k : Core) (n : Nat) (v : W24) :
    (n < 8 → regRead k n = some (k.dr n, k) ∧ regWrite k n v = some (setD n v k) ∧ ∃ k', regWrite k (8 + n) v = some k' ∧ k'.ptr n = v.truncate 17 ∧ k' = { k with p := k'.p })
      ∧ (n < 4 → (∃ k', regWrite k (32 + n) v = some k' ∧ (k'.acc n).toInt = v.toInt * 2 ^ 24 ∧ k' = { k with a := k'.a })
        ∧ (∃ k', regWrite k (36 + n) v = some k' ∧ (k'.acc n).extractLsb' 0 24 = v ∧ (k'.acc n).extractLsb' 24 32 = (k.acc n).extractLsb' 24 32 ∧ k' = { k with a := k'.a })
        ∧ (∃ k', regWrite k (40 + n) v = some k' ∧ (k'.acc n).extractLsb' 48 8 = v.truncate 8 ∧ (k'.acc n).extractLsb' 0 48 = (k.acc n).extractLsb' 0 48 ∧ k' = { k with a := k'.a })
        ∧ ((stBit k fSat = false ∨ guardOvf (k.acc n) = false) → regRead k (32 + n) = some ((k.acc n).extractLsb' 24 24, k))
        ∧ (stBit k fSat = true → guardOvf (k.acc n) = true → regRead k (32 + n) = some (if (k.acc n).msb then 0x800000 else 0x7FFFFF, setSt fL true k)))
      ∧ (52 ≤ n → regRead k n = none ∧ regWrite k n v = none) ∧ (65536 ≤ v.toNat → regWrite k 51 v = none) := by
  refine ⟨fun h => ⟨regRead_d k h, regWrite_d k v h, _, regWrite_p k v h, setP_ptr_same n _ k, rfl⟩,
    fun h => ⟨regWrite_aHigh_value k v h, regWrite_aLow_value k v h, regWrite_aGuard_value k v h, fun exact_ => ?_, fun sat ovf => ?_⟩,
    fun h => ⟨regRead_reserved k h, regWrite_reserved k v h⟩, regWrite_amc k v⟩
  · exact (regRead_aHigh k h).trans (if_neg (by rcases exact_ with e | e <;> simp [e]))
  · exact (regRead_aHigh k h).trans (if_pos (by simp [sat, ovf]))

/-! ### Queue ports (R430, R431) -/

theorem onPort_same (p : Nat) (f : Port → Port) (k : Core) : (onPort p f k).port p = f (k.port p) := tget_tmod_same portDef k.ports p f

theorem onPort_other {p q : Nat} (f : Port → Port) (k : Core) (h : q ≠ p) : (onPort p f k).port q = k.port q := tget_tmod_other portDef k.ports f h

/-- A port after a write of `v` to its CMD word, with LIMIT of its queue. -/
def cmdWritten (e : CoreEnv) (v : W24) (x : Port) : Port := portCmd (match x.q with | some q => e.lim q | none => 0) v.toNat e.fn x

/-- A write of word `w` of port `p`: CELL, TAG or CMD. -/
theorem dWrite_port (e : CoreEnv) (k : Core) {p w : Nat} (v : W24) (hp : p < 8) (hw : w < 32) : dWrite e k (0x1A000 + 32 * (p % 8) + w % 32) v
    = if w < 16 then some (onPort p (fun x => { x with cell := tput wordDef x.cell w v }) k, 0)
      else if w = 16 then some (onPort p (fun x => { x with tag := v &&& ~~~0x20 }) k, 0)
      else if w = 17 then some (onPort p (cmdWritten e v) k, 20)
      else none := by
  have port : (0x1A000 + 32 * (p % 8) + w % 32 - 0x1A000) / 32 = p := by omega
  have word : (0x1A000 + 32 * (p % 8) + w % 32 - 0x1A000) % 32 = w := by omega
  unfold dWrite
  rw [if_neg (by omega), if_neg (by omega), if_pos (by omega)]
  simp only [port, word]
  rfl

theorem onPort_flow (p : Nat) (f : Port → Port) (k : Core) : FlowKept k (onPort p f k) := ⟨rfl, rfl, rfl, rfl, rfl⟩

/-- A write to a word of port `p` changes that port alone, as the word says. -/
theorem portWrite_step {i : Instr} {op : CoreOp} {p w x : Nat} {v : W24} {f : CoreEnv → Port → Port} (he : ∀ s, exec i s = .next (coreDo op true true (fun e k => effPort e p w v k) s))
    (write : ∀ e k, dWrite e k (0x1A000 + 32 * (p % 8) + w % 32) v = some (onPort p (f e) k, x)) : CoreStep i op (1 + x) 1 (fun k k' => (∃ e, k'.port p = f e (k.port p))
      ∧ (∀ q, q ≠ p → k'.port q = k.port q) ∧ k' = { k with ports := k'.ports, pc := k'.pc, cycles := k'.cycles, busy := k'.busy }) := by
  refine coreStep_of he fun e k => ⟨onPort p (f e) k, ?_, onPort_flow p _ k, fun _ => ⟨⟨e, onPort_same p _ k⟩, fun _ hq => onPort_other (f e) k hq, rfl⟩⟩
  simp only [effPort, write]

theorem portCell_step (op : CoreOp) {p w : Nat} (v : W24) (hp : p < 8) (hw : w < 16) : CoreStep (.queuePortWordWrite op p w v) op 1 1
    (fun k k' => tget wordDef (k'.port p).cell w = v ∧ (k'.port p).view = (k.port p).view ∧ (k'.port p).tag = (k.port p).tag
      ∧ (∀ q, q ≠ p → k'.port q = k.port q) ∧ k' = { k with ports := k'.ports, pc := k'.pc, cycles := k'.cycles, busy := k'.busy }) := by
  refine (portWrite_step (fun _ => rfl) fun e k => (dWrite_port e k v hp (by omega)).trans (if_pos hw)).imp fun k k' => ?_
  rintro ⟨⟨-, port⟩, rest⟩
  rw [port]
  exact ⟨tget_tput_same wordDef _ w v, rfl, rfl, rest⟩

theorem portTag_step (op : CoreOp) {p w : Nat} (v : W24) (hp : p < 8) (hw : w = 16) : CoreStep (.queuePortWordWrite op p w v) op 1 1
    (fun k k' => (k'.port p).tag = v &&& ~~~0x20 ∧ (k'.port p).cell = (k.port p).cell
      ∧ (∀ q, q ≠ p → k'.port q = k.port q) ∧ k' = { k with ports := k'.ports, pc := k'.pc, cycles := k'.cycles, busy := k'.busy }) := by
  refine (portWrite_step (fun _ => rfl) fun e k => (dWrite_port e k v hp (by omega)).trans ((if_neg (by omega)).trans (if_pos hw))).imp fun k k' => ?_
  rintro ⟨⟨-, port⟩, rest⟩
  rw [port]
  exact ⟨rfl, rfl, rest⟩

/-- A CMD write carries its command out, in 21 cycles. -/
theorem portCmd_step {i : Instr} {op : CoreOp} {p cmd : Nat} {v : W24} (hp : p < 8) (he : ∀ s, exec i s = .next (coreDo op true true (fun e k => effPort e p 17 v k) s))
    (hv : v.toNat = cmd) : CoreStep i op 21 1 (fun k k' => (∃ lim fn, k'.port p = portCmd lim cmd fn (k.port p)) ∧ (∀ q, q ≠ p → k'.port q = k.port q)
      ∧ k' = { k with ports := k'.ports, pc := k'.pc, cycles := k'.cycles, busy := k'.busy }) := by
  refine (portWrite_step he fun e k => (dWrite_port e k v hp (by omega)).trans rfl).imp fun k k' => ?_
  rintro ⟨⟨e, port⟩, rest⟩
  subst hv
  exact ⟨⟨_, e.fn, port⟩, rest⟩

theorem portCmds_step (op : CoreOp) (p cmd : Nat) (i : Instr) (hp : p < 8)
    (hi : (cmd, i) ∈ [(1, .queuePortRead op p), (2, .queuePortPush op p), (3, .queuePortMark op p), (4, .queuePortClearMark op p), (5, .queuePortRewind op p),
      (6, Instr.queuePortRelease op p)]) :
    CoreStep i op 21 1 (fun k k' => (∃ lim fn, k'.port p = portCmd lim cmd fn (k.port p)) ∧ (∀ q, q ≠ p → k'.port q = k.port q)
      ∧ k' = { k with ports := k'.ports, pc := k'.pc, cycles := k'.cycles, busy := k'.busy }) := by
  simp only [List.mem_cons, Prod.mk.injEq, List.not_mem_nil, or_false] at hi
  rcases hi with ⟨rfl, rfl⟩ | ⟨rfl, rfl⟩ | ⟨rfl, rfl⟩ | ⟨rfl, rfl⟩ | ⟨rfl, rfl⟩ | ⟨rfl, rfl⟩ <;> exact portCmd_step hp (fun _ => rfl) rfl

/-- The commands of a consumer's port. -/
theorem portCmd_consumer (lim : Nat) (fn : Fn) (x : Port) (c : Cell) (bound : x.q.isSome = true) (consumer : x.producer = false) :
    (x.view[x.read]? = some c → (portCmd lim 1 fn x).read = x.read + 1 ∧ (portCmd lim 1 fn x).lastOk = true ∧ (portCmd lim 1 fn x).tag = tagOf c)
      ∧ (x.view[x.read]? = none → portCmd lim 1 fn x = { x with lastOk := false })
      ∧ portCmd lim 3 fn x = { x with mark := some x.read, lastOk := true } ∧ portCmd lim 4 fn x = { x with mark := none, lastOk := true }
      ∧ (∀ m, x.mark = some m → portCmd lim 5 fn x = { x with read := m, lastOk := true }) ∧ (x.mark = none → portCmd lim 5 fn x = { x with lastOk := false })
      ∧ portCmd lim 2 fn x = { x with lastOk := false } ∧ portCmd lim 6 fn x = { x with freed := max x.freed (portBoundary x), lastOk := true } := by
  have taken : x.q.isNone = false := by simpa using bound
  refine ⟨fun cell => ?_, fun empty => ?_, ?_, ?_, fun m marked => ?_, fun unmarked => ?_, ?_, ?_⟩
  · simp [portCmd, taken, consumer, cell]
  · simp [portCmd, taken, consumer, empty]
  · simp [portCmd, taken, consumer]
  · simp [portCmd, taken, consumer]
  · simp [portCmd, taken, consumer, marked]
  · simp [portCmd, taken, consumer, unmarked]
  · simp [portCmd, taken, consumer]
  · simp [portCmd, taken, consumer]

/-- Settles O54: each clause by the lemmas of its section. -/
theorem cesynMemory : Obligations.CesynMemory :=
  ⟨fun e k => ⟨dRead_tbl e k, dRead_tbh e k, dRead_tbPair e k, fun _ => dRead_unlisted e k, fun _ v => dWrite_snapshot e k v, fun _ v => dWrite_unlisted e k v, dWrite_dataWord e k⟩,
    fun _ _ => rfl, activate_tbh, fun op dn => ⟨tblRead_step op dn, tblRead_reads op dn⟩,
    fun k v vs => ⟨pushAll_underBound v vs, pushAll_pushes k v vs, pushAll_outside v vs, rfl⟩,
    fun _ _ n => ⟨popAll_atTop n, popAll_outside n, popAll_pops n, rfl⟩, fun op a => ⟨call_traps op a, ret_traps op⟩,
    fun op _ _ _ code =>
      ⟨fun m n _ s k1 ready inLine => ld_immediate op code m n s k1 ready inLine, fun mem _ ready inLine => ⟨ld_memory op code mem ready inLine, st_memory op ready inLine⟩⟩,
    mov_moves, registers_read_and_take, macx_multiplies, fun op _ _ v hp => ⟨portCell_step op v hp, portTag_step op v hp⟩, portCmds_step, portCmd_consumer⟩

end Sys2Proof.Machine

namespace Sys2Proof.Machine

/-! ### Outputs of the channels: one rule per operation (R242, R246, R255) -/

theorem chan_of_anvil {s t : State} (h : t.anvil = s.anvil) (n : Nat) : t.chan n = s.chan n := by
  unfold State.chan
  rw [h]

/-- Nothing of Anvil but channel `n` differs, and nothing outside Anvil. -/
structure ChanOnly (n : Nat) (s t : State) : Prop where
  anvil : t.anvil = { s.anvil with ch := t.anvil.ch }
  other : ∀ m, m ≠ n → t.chan m = s.chan m
  frame : Only [.anvil] s t

theorem ChanOnly.refl (n : Nat) (s : State) : ChanOnly n s s := ⟨rfl, fun _ _ => rfl, Only.refl _ s⟩

theorem ChanOnly.trans {n : Nat} {s t u : State} (h : ChanOnly n s t) (k : ChanOnly n t u) : ChanOnly n s u :=
  ⟨by rw [k.anvil, h.anvil], fun m hm => (k.other m hm).trans (h.other m hm), Only.trans h.frame k.frame⟩

theorem onChan_only (n : Nat) (f : Chan → Chan) (s : State) : ChanOnly n s (onChan n f s) := ⟨rfl, fun _ hm => onChan_other f s hm, onChan_frame n f s⟩

/-- The inputs and the committed values Anvil executes are no part of a channel. -/
theorem ChanOnly.limp {n : Nat} {s t : State} (h : ChanOnly n s t) : t.anvil.limp = s.anvil.limp := by rw [h.anvil]

theorem ChanOnly.vals {n : Nat} {s t : State} (h : ChanOnly n s t) : t.anvil.vals = s.anvil.vals := by rw [h.anvil]

/-- What a turn of its output leaves as it is in a driven channel. -/
structure Chan.Kept (c d : Chan) : Prop where
  drive : d.drive = c.drive
  da : d.da = c.da
  edgeAt : d.edgeAt = c.edgeAt
  dirShort : d.dirShort = c.dirShort
  safe : d.safe = c.safe
  limp : d.limp = c.limp
  appDset : d.appDset = c.appDset

theorem Chan.Kept.refl (c : Chan) : Kept c c := ⟨rfl, rfl, rfl, rfl, rfl, rfl, rfl⟩

theorem Chan.Kept.trans {c d e : Chan} (h : Kept c d) (k : Kept d e) : Kept c e :=
  ⟨k.drive.trans h.drive, k.da.trans h.da, k.edgeAt.trans h.edgeAt, k.dirShort.trans h.dirShort, k.safe.trans h.safe, k.limp.trans h.limp, k.appDset.trans h.appDset⟩

theorem chanFall_kept (t fs : Tb) (c : Chan) : c.Kept (chanFall t fs c) := by
  unfold chanFall
  split
  · exact ⟨rfl, rfl, rfl, rfl, rfl, rfl, rfl⟩
  · exact .refl c

theorem chanFall_level (t fs : Tb) (c : Chan) : (chanFall t fs c).level = false := by
  unfold chanFall
  split
  · rfl
  · next low => exact Bool.not_eq_true _ ▸ low

theorem levelTaken_kept (lv : Bool) (t fs : Tb) (c : Chan) : c.Kept (if lv then c else chanFall t fs c) := by
  split
  · exact .refl c
  · exact chanFall_kept t fs c

theorem lampFell_kept (now fs : Tb) (c : Chan) : c.Kept (lampFell now fs c) := by
  unfold lampFell
  split
  · next t _ =>
    split
    · have fell := chanFall_kept t fs c
      exact ⟨fell.drive, fell.da, fell.edgeAt, fell.dirShort, fell.safe, fell.limp, fell.appDset⟩
    · exact .refl c
  · exact .refl c

/-- The output of channel `n` stands at level `lv`, what a turn keeps is kept, and nothing but that channel differs. -/
structure Turned (n : Nat) (lv : Bool) (s t : State) : Prop where
  only : ChanOnly n s t
  kept : (s.chan n).Kept (t.chan n)
  level : (t.chan n).level = lv

theorem onChan_turned {n : Nat} {lv : Bool} {f : Chan → Chan} {s : State} (kept : (s.chan n).Kept (f (s.chan n))) (level : (f (s.chan n)).level = lv) :
    Turned n lv s (onChan n f s) :=
  ⟨onChan_only n f s, (onChan_same n f s).symm ▸ kept, (onChan_same n f s).symm ▸ level⟩

theorem Turned.after {n : Nat} {lv : Bool} {s t u : State} (k : Turned n lv t u) (only : ChanOnly n s t) (kept : (s.chan n).Kept (t.chan n)) : Turned n lv s u :=
  ⟨only.trans k.only, kept.trans k.kept, k.level⟩

theorem lampSettle_only (n : Nat) (s : State) : ChanOnly n s (lampSettle n s) := onChan_only n _ s

theorem lampSettle_kept (n : Nat) (s : State) : (s.chan n).Kept ((lampSettle n s).chan n) := by
  unfold lampSettle
  rw [onChan_same]
  exact lampFell_kept _ _ _

theorem openInrush_turned (n : Nat) (s : State) : Turned n (s.chan n).level s (openInrush n s) := by
  unfold openInrush
  dsimp only
  split
  · exact ⟨.refl n s, .refl _, rfl⟩
  · exact onChan_turned ⟨rfl, rfl, rfl, rfl, rfl, rfl, rfl⟩ rfl

theorem Turned.inrush {n : Nat} {lv : Bool} {s t : State} {c : Prop} {_ : Decidable c} (h : Turned n lv s t) : Turned n lv s (if c then openInrush n t else t) := by
  split
  · exact h.level ▸ (openInrush_turned n t).after h.only h.kept
  · exact h

/-- A low level that leaves the drive, as a direct input's and a pulse's do. -/
theorem pinOff_turned (n : Nat) (s : State) : Turned n false s (pinOff n true s) := by
  have fell := (lampFell_kept s.tbNow s.time.anvilTb (s.chan n)).trans (chanFall_kept s.tbNow s.time.anvilTb _)
  exact onChan_turned ⟨Bool.and_true _, fell.da, rfl, fell.dirShort, fell.safe, fell.limp, fell.appDset⟩ (chanFall_level _ _ _)

theorem pinOff_lampOff (n : Nat) (keep : Bool) (s : State) : ((pinOff n keep s).chan n).lampOff = none := by
  unfold pinOff
  rw [onChan_same]

/-- A driven channel has no turn-on to resume: its output takes the level, and an inrush window may open. -/
theorem pinTurn_turned {n : Nat} {s : State} (driven : (s.chan n).drive = true) (win lv : Bool) : Turned n lv s (pinTurn win n lv s) := by
  have settled := lampSettle_kept n s
  have still : ((lampSettle n s).chan n).drive = true := settled.drive.trans driven
  unfold pinTurn
  dsimp only
  rw [if_pos still]
  have fell := levelTaken_kept lv (lampSettle n s).tbNow (lampSettle n s).time.anvilTb ((lampSettle n s).chan n)
  refine .inrush (.after (onChan_turned ?_ ?_) (lampSettle_only n s) settled)
  · exact ⟨still.symm, fell.da, fell.edgeAt, fell.dirShort, fell.safe, fell.limp, fell.appDset⟩
  · rfl

theorem pinApply_turned {n : Nat} {s : State} (driven : (s.chan n).drive = true) (lv : Bool) : Turned n lv s (pinApply n lv s) := by
  cases lv with
  | true => exact pinTurn_turned driven _ true
  | false => exact pinOff_turned n s

end Sys2Proof.Machine

namespace Sys2Proof.Machine

/-! ### LAMP periods (R245, R246) -/

/-- The duty applied to a LAMP channel, and whether it was clamped: that of the zone voltage, or the duty set where none is valid. -/
def lampApplied (n : Nat) (vz : Option Nat) (s : State) : Nat × Bool :=
  match vz with
  | none => (lampDset s n, false)
  | some v => lampDuty (lampDset s n) (cfVref (s.cfA n)) v

/-- The instant at which a period of channel `n` begins, the pulse before it taken into the level. -/
def lampBegun (n : Nat) (s : State) : State := lampSettle n (atTickA (s.tickA + lampToNext s n) s)

/-- The output at the start of a period, on from here unless it conducts already. -/
def lampLit (n : Nat) (s : State) : State := if (s.chan n).level && s.conducting n then s else pinOn n true s

/-- The pulse of a period with an on-time of `on` ticks. -/
def lampPulse (n on : Nat) (s : State) : State :=
  if on = 0 then pinOff n true s
  else onChan n (fun c => { c with lampOff := if on = lampPeriod s n then none else some ((lampLit n s).tbNow + BitVec.ofNat 48 on) }) (lampLit n s)

section
variable {n : Nat} {s : State}

theorem lampPeriod_of_sched {t : State} (h : t.sched = s.sched) : lampPeriod t n = lampPeriod s n := by
  unfold lampPeriod
  rw [h]

theorem lampDset_of_kept {t : State} (vals : t.anvil.vals = s.anvil.vals) (kept : (s.chan n).Kept (t.chan n)) : lampDset t n = lampDset s n := by
  unfold lampDset State.cfA
  dsimp only
  rw [vals, kept.safe, kept.limp, kept.appDset]

theorem lampApplied_of_kept {t : State} (vz : Option Nat) (vals : t.anvil.vals = s.anvil.vals) (kept : (s.chan n).Kept (t.chan n)) : lampApplied n vz t = lampApplied n vz s := by
  unfold lampApplied State.cfA
  rw [lampDset_of_kept vals kept, vals]

theorem chan_atTickA (k m : Nat) : (atTickA k s).chan m = s.chan m := chan_of_anvil (anvil_atTickA k s) m

theorem lampBegun_vals : (lampBegun n s).anvil.vals = s.anvil.vals := (lampSettle_only n _).vals.trans (congrArg Anvil.vals (anvil_atTickA _ s))

theorem lampBegun_kept : (s.chan n).Kept ((lampBegun n s).chan n) := chan_atTickA (s := s) _ n ▸ lampSettle_kept n _

theorem lampBegun_other (m : Nat) (h : m ≠ n) : (lampBegun n s).chan m = s.chan m := ((lampSettle_only n _).other m h).trans (chan_atTickA _ m)

theorem lampBegun_sched : (lampBegun n s).sched = s.sched := ((lampSettle_only n _).frame .sched (by decide)).trans (atTickA_frame _ s .sched (by decide))

theorem lampTake_only (da : Nat × Bool) (vz : Option Nat) : ChanOnly n s (lampTake n da vz s) := onChan_only n _ s

theorem lampTake_da (da : Nat × Bool) (vz : Option Nat) : ((lampTake n da vz s).chan n).da = da.1 := by
  unfold lampTake
  rw [onChan_same]

theorem lampTake_drive (da : Nat × Bool) (vz : Option Nat) : ((lampTake n da vz s).chan n).drive = (s.chan n).drive := by
  unfold lampTake
  rw [onChan_same]

theorem lampLit_turned (driven : (s.chan n).drive = true) : Turned n true s (lampLit n s) := by
  unfold lampLit
  split
  · next on => exact ⟨.refl n s, .refl _, (Bool.and_eq_true_iff.1 on).1⟩
  · exact pinTurn_turned driven _ true

theorem lampPulse_turned (driven : (s.chan n).drive = true) (on : Nat) : Turned n (decide (on ≠ 0)) s (lampPulse n on s) := by
  unfold lampPulse
  split
  · next zero => exact decide_eq_false (not_not_intro zero) ▸ pinOff_turned n s
  · next pulse =>
    have lit := lampLit_turned driven
    exact decide_eq_true pulse ▸ (onChan_turned ⟨rfl, rfl, rfl, rfl, rfl, rfl, rfl⟩ lit.level).after lit.only lit.kept

theorem lampPulse_lampOff (on : Nat) :
    ((lampPulse n on s).chan n).lampOff = if on = 0 ∨ on = lampPeriod s n then none else some ((lampPulse n on s).tbNow + BitVec.ofNat 48 on) := by
  by_cases zero : on = 0
  · rw [if_pos (.inl zero)]
    unfold lampPulse
    rw [if_pos zero, pinOff_lampOff]
  · unfold lampPulse
    rw [if_neg zero, onChan_same]
    simp only [zero, false_or]
    rfl

/-- A period that begins within the frame takes its duty and then its pulse. -/
theorem lampPeriodStart_eq (vz : Option Nat) (lamp : s.modeA n = 2) (driven : (s.chan n).drive = true) (unheld : protHolds (s.chan n).prot = false)
    (inFrame : s.tickA + lampToNext s n < 50000) :
    exec (.lampPeriodStart n vz) s
      = .next (lampPulse n (lampOnTime (lampApplied n vz s).1 (lampPeriod s n)) (lampTake n (lampApplied n vz s) vz (lampBegun n s))) := by
  rw [← lampApplied_of_kept vz lampBegun_vals lampBegun_kept, ← lampPeriod_of_sched (lampBegun_sched (n := n) (s := s))]
  have runs : (s.modeA n = 2 && (s.chan n).drive && !(protHolds (s.chan n).prot) && decide (s.tickA + lampToNext s n < 50000)) = true := by simp [lamp, driven, unheld, inFrame]
  refine (if_pos runs).trans ?_
  unfold lampPulse
  exact (apply_ite Host.Outcome.next _ _ _).symm

end

/-- The pulse at the start of a period, as the state that answers shows it. -/
theorem lampPeriodStart_pulses (n : Nat) (vz : Option Nat) (s : State) (lamp : s.modeA n = 2) (driven : (s.chan n).drive = true) (unheld : protHolds (s.chan n).prot = false)
    (inFrame : s.tickA + lampToNext s n < 50000) :
    let da := lampApplied n vz s
    let t := lampPeriod s n
    let on := lampOnTime da.1 t
    ∃ u, exec (.lampPeriodStart n vz) s = .next u ∧ (u.chan n).da = da.1 ∧ (u.chan n).level = decide (on ≠ 0) ∧ (u.chan n).drive = true
      ∧ (u.chan n).lampOff = (if on = 0 ∨ on = t then none else some (u.tbNow + BitVec.ofNat 48 on)) ∧ (∀ m, m ≠ n → u.chan m = s.chan m) ∧ Only [.anvil, .time, .qf, .free] s u := by
  intro da t on
  have run := lampPeriodStart_eq vz lamp driven unheld inFrame
  have taken : ChanOnly n (lampBegun n s) (lampTake n da vz (lampBegun n s)) := lampTake_only da vz
  have drive : ((lampTake n da vz (lampBegun n s)).chan n).drive = true := (lampTake_drive da vz).trans (lampBegun_kept.drive.trans driven)
  have period : lampPeriod (lampTake n da vz (lampBegun n s)) n = t := lampPeriod_of_sched ((taken.frame .sched (by decide)).trans lampBegun_sched)
  have pulse := lampPulse_turned drive on
  obtain ⟨u, ran, frame⟩ := execLampPeriodStart_frame n vz s
  obtain rfl : _ = u := Host.Outcome.next.inj (run.symm.trans ran)
  exact ⟨_, run, pulse.kept.da.trans (lampTake_da da vz), pulse.level, pulse.kept.drive.trans drive, period ▸ lampPulse_lampOff on,
    fun m hm => (pulse.only.other m hm).trans ((taken.other m hm).trans (lampBegun_other m hm)), frame⟩

/-! ### Direct inputs (R242) -/

/-- The level of direct input `i` as recorded. -/
def dirTaken (i : Nat) (level : Bool) (s : State) : State :=
  onAnvil (fun a => { a with limp := { a.limp with dir := if level then setBit a.limp.dir i else clrBit a.limp.dir i } }) s

section
variable {i n : Nat} {level : Bool} {s : State}

theorem advTo_now : advTo s.tbNow s = s := if_pos (by simp [isPast, State.tbNow])

theorem followsDir_input (h : followsDir s i n = true) : cfDirSel (s.cfA n) = i := by
  simp only [followsDir, Bool.and_eq_true, decide_eq_true_eq] at h
  obtain ⟨⟨⟨⟨⟨⟨-, input⟩, -⟩, -⟩, -⟩, -⟩, -⟩ := h
  exact input

theorem followsDir_driven (h : followsDir s i n = true) : (s.chan n).drive = true := by
  simp only [followsDir, Bool.and_eq_true] at h
  obtain ⟨⟨⟨⟨⟨⟨-, -⟩, driven⟩, -⟩, -⟩, -⟩, -⟩ := h
  exact driven

theorem dirTaken_dirLevel (input : cfDirSel (s.cfA n) = i) :
    dirLevel (dirTaken i level s) n = (bit (if level then setBit s.anvil.limp.dir i else clrBit s.anvil.limp.dir i) i != cfDirInv (s.cfA n)) := by
  subst input
  rfl

/-- An input that no channel follows reaches the timers alone. -/
theorem dirEdge_unfollowed (unfollowed : ∀ n, n < 64 → followsDir s i n = false) : exec (.dirEdge i level) s = .next (tmrDirEdge i level (dirTaken i level s)) := by
  have followers : (List.range 64).filter (followsDir (dirTaken i level s) i) = [] :=
    List.filter_eq_nil_iff.2 fun m hm => by
      have no : followsDir (dirTaken i level s) i m = false := unfollowed m (List.mem_range.1 hm)
      simp [no]
  change Host.Outcome.next (tmrDirEdge i level (((List.range 64).filter (followsDir (dirTaken i level s) i)).foldl _ (dirTaken i level s, 0)).1) = _
  rw [followers]
  rfl

/-- The only follower takes the edge at the instant of the edge. -/
theorem dirEdge_followed (hn : n < 64) (follows : followsDir s i n = true) (alone : ∀ m, m < 64 → m ≠ n → followsDir s i m = false) :
    exec (.dirEdge i level) s = .next (tmrDirEdge i level (pinFollow n (dirTaken i level s))) := by
  have followers : (List.range 64).filter (followsDir (dirTaken i level s) i) = [n] := by
    refine List.perm_singleton.1 ((List.perm_ext_iff_of_nodup (List.nodup_range.filter _) (List.pairwise_singleton _ n)).2 fun m => ?_)
    rw [List.mem_filter, List.mem_range, List.mem_singleton]
    exact ⟨fun ⟨hm, h⟩ => Decidable.byContradiction fun other => absurd h (Bool.eq_false_iff.1 (alone m hm other)), fun e => e ▸ ⟨hn, follows⟩⟩
  have now : advTo ((dirTaken i level s).tbNow + BitVec.ofNat 48 (15 * 0 / 2)) (dirTaken i level s) = dirTaken i level s :=
    (congrArg (advTo · _) (BitVec.add_zero _)).trans advTo_now
  change Host.Outcome.next (tmrDirEdge i level (((List.range 64).filter (followsDir (dirTaken i level s) i)).foldl _ (dirTaken i level s, 0)).1) = _
  rw [followers]
  exact congrArg (fun t => Host.Outcome.next (tmrDirEdge i level (pinFollow n t))) now

/-- 10 us after its last edge a follower takes the level at once. -/
theorem pinFollow_due (driven : (s.chan n).drive = true) (settled : (s.chan n).edgeAt = none) (due : isPast s.tbNow ((s.chan n).lastEdge + 500) = true) :
    Turned n (dirLevel s n) s (pinFollow n s) := by
  unfold pinFollow
  simp only [settled, due, Option.isNone_none, Option.isSome_none, Bool.and_true, Bool.not_true, Bool.or_false, decide_eq_true_eq]
  split
  · next same => exact ⟨.refl n s, .refl _, same.symm⟩
  · exact pinApply_turned driven _

/-- Before that its edge is deferred until then, where it is one. -/
theorem pinFollow_early (settled : (s.chan n).edgeAt = none) (early : isPast s.tbNow ((s.chan n).lastEdge + 500) = false) :
    pinFollow n s = if dirLevel s n = (s.chan n).level then s else onChan n (fun c => { c with edgeAt := some ((s.chan n).lastEdge + 500) }) s := by
  unfold pinFollow
  simp only [settled, early, Option.isNone_none, Option.isSome_none, Bool.and_true, Bool.not_false, Bool.or_true, decide_eq_true_eq, if_true]

theorem pinFollow_only (driven : (s.chan n).drive = true) (settled : (s.chan n).edgeAt = none) : ChanOnly n s (pinFollow n s) := by
  cases due : isPast s.tbNow ((s.chan n).lastEdge + 500) with
  | true => exact (pinFollow_due driven settled due).only
  | false =>
    rw [pinFollow_early settled due]
    split
    · exact .refl n s
    · exact onChan_only n _ s

end

theorem dirEdge_takes {n i : Nat} (level : Bool) {s : State} (hn : n < 64) (follows : followsDir s i n = true) (alone : ∀ m, m < 64 → m ≠ n → followsDir s i m = false)
    (settled : (s.chan n).edgeAt = none) :
    let b := if level then setBit s.anvil.limp.dir i else clrBit s.anvil.limp.dir i
    let lv := bit b i != cfDirInv (s.cfA n)
    ∃ u, exec (.dirEdge i level) s = .next u ∧ u.anvil.limp.dir = b ∧ (∀ m, m ≠ n → u.chan m = s.chan m)
      ∧ (isPast s.tbNow ((s.chan n).lastEdge + 500) = true → (u.chan n).level = lv)
      ∧ (isPast s.tbNow ((s.chan n).lastEdge + 500) = false → lv ≠ (s.chan n).level →
          (u.chan n).level = (s.chan n).level ∧ (u.chan n).edgeAt = some ((s.chan n).lastEdge + 500)) := by
  intro b lv
  have driven : ((dirTaken i level s).chan n).drive = true := followsDir_driven follows
  have only : ChanOnly n (dirTaken i level s) (pinFollow n (dirTaken i level s)) := pinFollow_only driven settled
  have wanted : dirLevel (dirTaken i level s) n = lv := dirTaken_dirLevel (followsDir_input follows)
  have timers : (tmrDirEdge i level (pinFollow n (dirTaken i level s))).anvil = (pinFollow n (dirTaken i level s)).anvil := tmrDirEdge_frame _ _ _ .anvil (by decide)
  have chans := chan_of_anvil timers
  refine ⟨_, dirEdge_followed hn follows alone, ?_, fun m hm => (chans m).trans (only.other m hm), fun due => ?_, fun early edge => ?_⟩
  · rw [timers, only.limp]
    rfl
  · rw [chans, ← wanted]
    exact (pinFollow_due driven settled due).level
  · rw [chans, pinFollow_early (s := dirTaken i level s) settled early, if_neg (wanted ▸ edge), onChan_same]
    exact ⟨rfl, rfl⟩

/-- The state in which a deferred edge is decided: its instant, with no edge deferred. -/
def edgeDue (n : Nat) (t : Tb) (s : State) : State := onChan n (fun c => { c with edgeAt := none }) (advTo t s)

section
variable {n : Nat} {t : Tb} {s : State}

theorem edgeDue_chan : (edgeDue n t s).chan n = { s.chan n with edgeAt := none } := by
  unfold edgeDue
  rw [onChan_same, chan_of_anvil (advTo_frame t s .anvil (by decide))]

theorem edgeDue_anvil : (edgeDue n t s).anvil = { s.anvil with ch := (edgeDue n t s).anvil.ch } :=
  (onChan_only n _ _).anvil.trans (by rw [advTo_frame t s .anvil (by decide)]; rfl)

theorem edgeDue_dirLevel : dirLevel (edgeDue n t s) n = dirLevel s n := by
  unfold dirLevel State.cfA
  rw [edgeDue_anvil]

theorem edgeDue_followsDir : followsDir (edgeDue n t s) (cfDirSel ((edgeDue n t s).cfA n)) n = followsDir s (cfDirSel (s.cfA n)) n := by
  unfold followsDir State.modeA State.cfA
  rw [edgeDue_chan, edgeDue_anvil]

theorem pinEdgeDeferred_eq (deferred : (s.chan n).edgeAt = some t) :
    exec (.pinEdgeDeferred n) s =
      if dirLevel s n = (s.chan n).level then .next (onChan n (fun c => { c with dirShort := c.dirShort + 1 }) (edgeDue n t s))
      else if followsDir s (cfDirSel (s.cfA n)) n then .next (pinApply n (dirLevel s n) (edgeDue n t s))
      else .next (edgeDue n t s) := by
  change execPinEdgeDeferred n s = _
  unfold execPinEdgeDeferred
  rw [deferred]
  change (if dirLevel (edgeDue n t s) n = ((edgeDue n t s).chan n).level then _ else
    if followsDir (edgeDue n t s) (cfDirSel ((edgeDue n t s).cfA n)) n then Host.Outcome.next (pinApply n (dirLevel (edgeDue n t s) n) (edgeDue n t s)) else _) = _
  rw [edgeDue_dirLevel, edgeDue_followsDir, edgeDue_chan]
  rfl

end

/-- The input has returned: a short pulse. -/
theorem pinEdgeDeferred_returned {n : Nat} {t : Tb} {s : State} (deferred : (s.chan n).edgeAt = some t) (back : dirLevel s n = (s.chan n).level) :
    ∃ u, exec (.pinEdgeDeferred n) s = .next u ∧ (u.chan n).dirShort = (s.chan n).dirShort + 1 ∧ (u.chan n).edgeAt = none ∧ (u.chan n).level = (s.chan n).level := by
  refine ⟨_, (pinEdgeDeferred_eq deferred).trans (if_pos back), ?_⟩
  rw [onChan_same, edgeDue_chan]
  exact ⟨rfl, rfl, rfl⟩

theorem pinEdgeDeferred_applied {n : Nat} {t : Tb} {s : State} (deferred : (s.chan n).edgeAt = some t) (edge : dirLevel s n ≠ (s.chan n).level)
    (follows : followsDir s (cfDirSel (s.cfA n)) n = true) :
    ∃ u, exec (.pinEdgeDeferred n) s = .next u ∧ (u.chan n).level = dirLevel s n ∧ (u.chan n).edgeAt = none ∧ (u.chan n).dirShort = (s.chan n).dirShort := by
  have driven : ((edgeDue n t s).chan n).drive = true := edgeDue_chan ▸ followsDir_driven follows
  have turned := pinApply_turned driven (dirLevel s n)
  refine ⟨_, (pinEdgeDeferred_eq deferred).trans ((if_neg edge).trans (if_pos follows)), turned.level, ?_, ?_⟩
  · rw [turned.kept.edgeAt, edgeDue_chan]
  · rw [turned.kept.dirShort, edgeDue_chan]

/-! ### The off-state check (R258) -/

/-- The test of channel `n` ends at step B with `k` open loads counted in a row. -/
def offTested (n k : Nat) (s : State) : State :=
  onChan n (fun c => { c with offOpen := k }) (onChan n (fun c => { c with testing := false, offBat := 0 }) (atTickA 10000 s))

section
variable {n vout : Nat} {s : State}

theorem offTested_chan (k : Nat) : (offTested n k s).chan n = { s.chan n with testing := false, offBat := 0, offOpen := k } := by
  unfold offTested
  rw [onChan_same, onChan_same, chan_atTickA]

theorem offTested_frame (k : Nat) : Only [.anvil, .time, .qf] s (offTested n k s) :=
  (onChan_frame _ _ _).after (by decide) ((onChan_frame _ _ _).after (by decide) ((atTickA_frame _ _).sub (by decide)))

theorem offDiagStepB_eq (testing : (s.chan n).testing = true) :
    exec (.offDiagStepB n vout) s =
      if 400 ≤ vout then .next (if (s.chan n).offOpen = 0 then offTested n 1 s else latchDiag n 1 (offTested n ((s.chan n).offOpen + 1) s)) else .next (offTested n 0 s) := by
  have count : ((onChan n (fun c => { c with testing := false, offBat := 0 }) (atTickA 10000 s)).chan n).offOpen = (s.chan n).offOpen := by rw [onChan_same, chan_atTickA]
  refine (if_pos testing).trans ?_
  change (if 400 ≤ vout then Host.Outcome.next (if 2 ≤ _ + 1 then latchDiag n 1 (offTested n (_ + 1) s) else offTested n (_ + 1) s) else _) = _
  rw [count]
  by_cases first : (s.chan n).offOpen = 0
  · simp only [first]
    rfl
  · have second : 2 ≤ (s.chan n).offOpen + 1 := by omega
    rw [if_pos second, if_neg first]
    rfl

end

/-- Settles O24: each clause by the lemmas of its section. -/
theorem channelEvents : Obligations.ChannelEvents := by
  refine ⟨lampPeriodStart_pulses, fun i level s unfollowed => ?_, fun n i level s hn follows alone settled => dirEdge_takes level hn follows alone settled,
    fun n t s deferred => ⟨pinEdgeDeferred_returned deferred, pinEdgeDeferred_applied deferred⟩, fun n vout s testing => ?_⟩
  · have timers := tmrDirEdge_frame i level (dirTaken i level s)
    have anvil : (tmrDirEdge i level (dirTaken i level s)).anvil = (dirTaken i level s).anvil := timers .anvil (by decide)
    exact ⟨_, dirEdge_unfollowed unfollowed, by rw [anvil]; rfl, by rw [anvil]; rfl, timers.after (by decide) ((onAnvil_frame _ s).sub (by decide))⟩
  · have run := offDiagStepB_eq (vout := vout) testing
    refine ⟨fun low => ⟨_, run.trans (if_neg (Nat.not_le.2 low)), ?_⟩, fun high first => ⟨_, (run.trans (if_pos high)).trans (congrArg Host.Outcome.next (if_pos first)), ?_⟩,
      fun high second => ⟨_, (run.trans (if_pos high)).trans (congrArg Host.Outcome.next (if_neg second)), ?_⟩⟩
    all_goals
      rw [offTested_chan]
      exact ⟨rfl, rfl, rfl, offTested_frame _⟩

end Sys2Proof.Machine

namespace Sys2Proof.Machine

/-! ### What leaves Anvil as it is but for its channels (R276, R278, R301) -/

/-- Nothing of Anvil but its channels differs. -/
def ChOnly (s t : State) : Prop := t.anvil = { s.anvil with ch := t.anvil.ch }

section
variable {s t u : State}

theorem ChOnly.refl (s : State) : ChOnly s s := rfl

theorem ChOnly.trans (h : ChOnly s t) (k : ChOnly t u) : ChOnly s u := by
  unfold ChOnly at *
  rw [k, h]

theorem ChOnly.ite {c : Prop} {_ : Decidable c} (h : ChOnly s t) (k : ChOnly s u) : ChOnly s (if c then t else u) := by
  split <;> assumption

theorem ChOnly.of_anvil (h : t.anvil = s.anvil) : ChOnly s t := by
  unfold ChOnly
  rw [h]

theorem onChan_chOnly (n : Nat) (f : Chan → Chan) (s : State) : ChOnly s (onChan n f s) := rfl

theorem ChOnly.sup (h : ChOnly s t) : t.anvil.sup = s.anvil.sup := by rw [h]

theorem ChOnly.vals (h : ChOnly s t) : t.anvil.vals = s.anvil.vals := by rw [h]

theorem ChOnly.coil (h : ChOnly s t) (n : Nat) : t.coil n = s.coil n := by
  unfold State.coil
  rw [h]

end

theorem ChanOnly.chOnly {n : Nat} {s t : State} (h : ChanOnly n s t) : ChOnly s t := h.anvil

theorem protEventFree_anvil (n ev : Nat) (s : State) : (protEventFree n ev s).anvil = s.anvil := protEventFree_frame n ev s .anvil (by decide)

theorem openInrush_chOnly (n : Nat) (s : State) : ChOnly s (openInrush n s) := (openInrush_turned n s).only.chOnly

theorem resumeAt_chOnly (n : Nat) (s : State) : ChOnly s (resumeAt n s) := by
  unfold resumeAt
  exact .ite ((onChan_chOnly n _ s).trans (.of_anvil (protEventFree_anvil n 9 _))) (onChan_chOnly n _ s)

theorem pinTurn_chOnly (win : Bool) (n : Nat) (lv : Bool) (s : State) : ChOnly s (pinTurn win n lv s) := by
  unfold pinTurn
  extract_lets settled c long resumed turned
  have on : ChOnly s resumed := (lampSettle_only n s).chOnly.trans (.ite (.refl _) (resumeAt_chOnly n _))
  have taken : ChOnly s turned := on.trans (onChan_chOnly n _ _)
  exact .ite (taken.trans (openInrush_chOnly n _)) taken

theorem lampTurn_chOnly (win : Bool) (n : Nat) (vz : Option Nat) (s : State) : ChOnly s (lampTurn win n vz s) := by
  unfold lampTurn
  extract_lets dset da t on lit next
  have taken : ChOnly s lit := (pinTurn_chOnly win n _ s).trans (lampTake_only da vz).chOnly
  exact .ite taken (taken.trans (onChan_chOnly n _ _))

/-! ### Supply events (R293 to R297) -/

theorem limpTurnOn_sup (e : Nat) (s : State) : (limpTurnOn e s).anvil.sup = s.anvil.sup := by
  unfold limpTurnOn
  extract_lets n noted
  have turned : ChOnly noted (if noted.modeA n = 2 then lampTurn true n (zoneRead noted n) noted else pinTurn true n true noted) :=
    .ite (lampTurn_chOnly true n _ noted) (pinTurn_chOnly true n true noted)
  exact turned.sup

theorem advTo_anvil (t : Tb) (s : State) : (advTo t s).anvil = s.anvil := advTo_frame t s .anvil (by decide)

/-- Limp-home reads the supply and leaves it: each channel it turns off, defers or turns on changes channels and the limp-home record alone. -/
theorem limpAll_sup (s : State) : (limpAll s).anvil.sup = s.anvil.sup := by
  unfold limpAll
  extract_lets clocked c want off on deferred due t
  have offSup : off.anvil.sup = s.anvil.sup :=
    foldl_keeps (fun t => t.anvil.sup = s.anvil.sup) _ (fun t e h => by split <;> exact h) _ clocked rfl
  have deferredSup : deferred.anvil.sup = s.anvil.sup := by
    refine foldl_keeps (fun t => t.anvil.sup = s.anvil.sup) _ (fun t e h => ?_) _ off offSup
    exact h
  exact foldl_keeps (fun t => t.anvil.sup = s.anvil.sup) _ (fun t x h => by rw [limpTurnOn_sup, advTo_anvil, h]) _ deferred deferredSup

section
variable {v : Int} {s : State}

theorem vbatsLow_starts (low : v < 3000) (powered : s.dead = false) (idle : s.anvil.sup.crankEnd = none) (on : s.anvil.sup.crankOff = false) :
    exec (.vbatsLow v) s = .next (onSup (fun x => { x with crankEnd := some (s.tbNow + msTicks 50) }) (vbatsRead v s)) :=
  if_pos ⟨low, powered, Option.isNone_iff_eq_none.2 idle, on⟩

theorem isPast_self (t : Tb) : isPast t t = true := by
  rw [isPast, BitVec.sub_self]
  decide

theorem vbatsRecover_stops {e : Tb} (run : s.anvil.sup.crankEnd = some e) (high : 3200 ≤ v) (early : isPast s.tbNow e = false) :
    exec (.vbatsRecover v) s = .next (onSup (fun x => { x with crankEnd := none }) (vbatsRead v s)) := by
  have before : s.tbNow ≠ e := fun now => by rw [now, isPast_self] at early; exact Bool.noConfusion early
  show execVbatsRecover v s = _
  have still : (vbatsRead v s).anvil.sup.crankEnd = some e := run
  unfold execVbatsRecover
  simp only [still]
  exact if_pos ⟨high, .inr early, before⟩

theorem crankTimeout_eq {e : Tb} (run : s.anvil.sup.crankEnd = some e) :
    let a := onSup (fun x => { x with crankEnd := none, crankOff := true, crankTotal := x.crankTotal + 1 }) (advTo e s)
    exec .crankTimeout s =
      .next (raise 0x06C 0 ((List.range 64).foldl (fun s n => let on := isOn s n; let s := protOff n 7 5 s; if on then protEventFree n 5 s else s) a)) := by
  show execCrankTimeout s = _
  unfold execCrankTimeout
  simp only [run]

/-- The crank's flag leaves every channel (R295). -/
def crankFreed (v : Int) (s : State) : State :=
  (List.range 64).foldl (fun s n => onChan n (fun c => { c with prot := clrBit c.prot 7 }) s) (onSup (fun x => { x with crankOff := false }) (vbatsRead v s))

theorem crankRelease_eq (off : s.anvil.sup.crankOff = true) (high : 3500 ≤ v) : exec (.crankRelease v) s = .next (limpAll (crankFreed v s)) :=
  if_pos (Bool.and_eq_true_iff.2 ⟨off, decide_eq_true high⟩)

theorem crankFreed_sup : (crankFreed v s).anvil.sup = { (vbatsRead v s).anvil.sup with crankOff := false } := by
  refine foldl_keeps (fun t : State => t.anvil.sup = { (vbatsRead v s).anvil.sup with crankOff := false }) _ (fun t n h => ?_) _ _ rfl
  exact h

theorem crankFreed_frame : Only [.anvil] s (crankFreed v s) :=
  Only.foldl _ (fun _ n => onChan_frame n _ _) _ ((onSup_frame _ _).after (by decide) (vbatsRead_frame v s))

theorem vbatsRead_ovAbove : (vbatsRead v s).anvil.sup.ovAbove = (s.anvil.sup.ovAbove && decide (30000 < v)) := rfl

theorem vbatsOv_rise (high : 30000 < v) (powered : s.dead = false) (below : s.anvil.sup.ovAbove = false) :
    exec (.vbatsOv v) s = .next (raise 0x06D 0 (onSup (fun x => { x with ov := true, ovAbove := true, ovTotal := x.ovTotal + 1 }) (vbatsRead v s))) :=
  if_pos ⟨high, powered, by rw [vbatsRead_ovAbove, below]; rfl⟩

theorem vbatsOv_above (high : 30000 < v) (above : s.anvil.sup.ovAbove = true) : exec (.vbatsOv v) s = .next (vbatsRead v s) := by
  have stays : (vbatsRead v s).anvil.sup.ovAbove = true := by rw [vbatsRead_ovAbove, above, decide_eq_true high]; rfl
  exact if_neg fun ⟨_, _, below⟩ => Bool.noConfusion (stays.symm.trans below)

theorem vbatsOvEnd_eq (low : v ≤ 29000) (deferring : s.anvil.sup.ov = true) :
    exec (.vbatsOvEnd v) s = .next (limpAll (onSup (fun x => { x with ov := false }) (vbatsRead v s))) := if_pos ⟨low, deferring⟩

end

/-- Settles O28: each event by its equation, what limp-home does after it by limpAll_sup. -/
theorem supplyEvents : Obligations.SupplyEvents := by
  refine ⟨fun v s low powered idle on => ?low, fun v s e run high early => ?recover, fun s e run => crankTimeout_eq run, fun v s off high => ?release,
    fun v s high powered => ⟨vbatsOv_rise high powered, vbatsOv_above high⟩, fun v s low deferring => ?ovEnd⟩
  case low =>
    exact ⟨_, vbatsLow_starts low powered idle on, rfl, rfl, rfl, (onSup_frame _ _).after (by decide) (vbatsRead_frame v s)⟩
  case recover =>
    exact ⟨_, vbatsRecover_stops run high early, rfl, rfl, rfl, rfl, (onSup_frame _ _).after (by decide) (vbatsRead_frame v s)⟩
  case release =>
    have supply : (limpAll (crankFreed v s)).anvil.sup = { (vbatsRead v s).anvil.sup with crankOff := false } := (limpAll_sup _).trans crankFreed_sup
    exact ⟨_, crankRelease_eq off high, by rw [supply], by rw [supply]; rfl, (limpAll_frame _).after (by decide) (crankFreed_frame.sub (by decide))⟩
  case ovEnd =>
    have supply := limpAll_sup (onSup (fun x => { x with ov := false }) (vbatsRead v s))
    have below : (vbatsRead v s).anvil.sup.ovAbove = false := by
      rw [vbatsRead_ovAbove, decide_eq_false (by omega), Bool.and_false]
    exact ⟨_, vbatsOvEnd_eq low deferring, by rw [supply]; rfl, by rw [supply]; exact below, by rw [supply]; rfl,
      (limpAll_frame _).after (by decide) ((onSup_frame _ _).after (by decide) ((vbatsRead_frame v s).sub (by decide)))⟩

end Sys2Proof.Machine

namespace Sys2Proof.Machine

/-! ### Coils: one rule per operation (R313, R319, R333) -/

theorem bit_setBit_same (p i : Nat) : bit (setBit p i) i = true := by
  unfold setBit
  split
  · assumption
  · next clear =>
    unfold bit at *
    rw [Nat.add_comm, Nat.testBit_two_pow_add_eq, Bool.eq_false_iff.2 clear, Bool.not_false]

/-- No coil or channel but `n` differs. -/
def OthersKept (n : Nat) (s t : State) : Prop := ∀ m, m ≠ n → t.coil m = s.coil m ∧ t.chan m = s.chan m

section
variable {n : Nat} {s t u : State}

theorem OthersKept.refl (n : Nat) (s : State) : OthersKept n s s := fun _ _ => ⟨rfl, rfl⟩

theorem OthersKept.trans (h : OthersKept n s t) (k : OthersKept n t u) : OthersKept n s u := fun m hm =>
  ⟨(k m hm).1.trans (h m hm).1, (k m hm).2.trans (h m hm).2⟩

theorem OthersKept.ite {c : Prop} {_ : Decidable c} (h : OthersKept n s t) (k : OthersKept n s u) : OthersKept n s (if c then t else u) := by
  split <;> assumption

theorem OthersKept.of_anvil (h : t.anvil = s.anvil) : OthersKept n s t := fun m _ => ⟨(ChOnly.of_anvil h).coil m, chan_of_anvil h m⟩

theorem ChanOnly.othersKept (h : ChanOnly n s t) : OthersKept n s t := fun m hm => ⟨h.chOnly.coil m, h.other m hm⟩

end

theorem onChan_othersKept (n : Nat) (f : Chan → Chan) (s : State) : OthersKept n s (onChan n f s) := (onChan_only n f s).othersKept

theorem onChan_coil (n m : Nat) (f : Chan → Chan) (s : State) : (onChan n f s).coil m = s.coil m := rfl

theorem onCoil_same (n : Nat) (f : Coil → Coil) (s : State) : (onCoil n f s).coil n = f (s.coil n) := tget_tmod_same coilDef _ n f

theorem onCoil_othersKept (n : Nat) (f : Coil → Coil) (s : State) : OthersKept n s (onCoil n f s) := fun _ hm => ⟨tget_tmod_other coilDef _ f hm, rfl⟩

theorem indEvent_anvil (n ev : Nat) (tb : Tb) (s : State) : (indEvent n ev tb s).anvil = s.anvil := indEvent_frame n ev tb s .anvil (by decide)

theorem indEvent_coil (n ev : Nat) (tb : Tb) (s : State) (m : Nat) : (indEvent n ev tb s).coil m = s.coil m := (ChOnly.of_anvil (indEvent_anvil n ev tb s)).coil m

/-- A coil after its release: one in IDLE stays so. -/
def Coil.released (k : Coil) : Coil := if k.phase = 0 then k else { k with phase := 4, iSet := 0, pullTb := none }

theorem Coil.released_idle {k : Coil} (idle : k.phase = 0) : k.released = k := if_pos idle

theorem Coil.released_run {k : Coil} (run : k.phase ≠ 0) : k.released = { k with phase := 4, iSet := 0, pullTb := none } := if_neg run

theorem coilRelease_coil (n : Nat) (s : State) : (coilRelease n s).coil n = (s.coil n).released := by
  unfold coilRelease
  rw [onChan_coil, onCoil_same]
  rfl

theorem coilRelease_othersKept (n : Nat) (s : State) : OthersKept n s (coilRelease n s) := (onCoil_othersKept n _ s).trans (onChan_othersKept n _ _)

theorem coilOneShotEnd_coil (n ev : Nat) (s : State) :
    (coilOneShotEnd n ev s).coil n = { (s.coil n).released with appEngage := false, report := true } := by
  unfold coilOneShotEnd
  rw [indEvent_coil, onCoil_same, coilRelease_coil]

theorem coilOneShotEnd_othersKept (n ev : Nat) (s : State) : OthersKept n s (coilOneShotEnd n ev s) :=
  ((coilRelease_othersKept n s).trans (onCoil_othersKept n _ _)).trans (.of_anvil (indEvent_anvil _ _ _ _))

theorem coilInterrupt_idle {n : Nat} {s : State} (idle : (s.coil n).phase = 0) : coilInterrupt n s = s := if_neg fun ⟨run, _⟩ => by omega

theorem coilHot_coil (n : Nat) (s : State) :
    (coilHot n s).coil n = { s.coil n with flags := if coilCool (s.kfA n) (s.coil n).tc then clrBit (s.coil n).flags 6 else setBit (s.coil n).flags 6 } :=
  onCoil_same n _ s

theorem resumeAt_othersKept (n : Nat) (s : State) : OthersKept n s (resumeAt n s) := by
  unfold resumeAt
  exact .ite ((onChan_othersKept n _ s).trans (.of_anvil (protEventFree_anvil n 9 _))) (onChan_othersKept n _ s)

theorem resumeAt_tbNow (n : Nat) (s : State) : (resumeAt n s).tbNow = s.tbNow := congrArg Time.tb (resumeAt_frame n s .time (by decide))

/-! ### The begin of an actuation, and its refusal for heat (R312, R313, R316, R329) -/

/-- A coil that begins RISE at `tb` with profile `c` and ACT_COUNT `cnt`. -/
def Coil.begun (c : Rec) (cnt : BitVec 8) (tb : Tb) (k : Coil) : Coil :=
  { k with phase := 1, outcome := 0, flags := clrMask k.flags 0x1F, appEngage := true, appCount := cnt, startTb := tb, prof := c, reached := false,
           pullTb := none, satWin := false, anyD := false, wins := 0, u1 := none, u2 := none, closeTb := none, kinkSeen := none, iSet := 0,
           actuations := k.actuations + 1, interrupted := false, report := false }

/-- The actuation of an idle coil begins; its conduction with it. -/
def coilRun (c : Rec) (n : Nat) (cnt : BitVec 8) (s : State) : State :=
  onChan n (fun d => { d with contSince := if d.contSince.isSome then d.contSince else some (resumeAt n s).tbNow })
    (onCoil n (Coil.begun c cnt (resumeAt n s).tbNow) (resumeAt n s))

/-- The actuation of an idle coil is refused: HOT_REFUSED, and the coil has taken the count up. -/
def coilRefused (n : Nat) (cnt : BitVec 8) (s : State) : State :=
  onCoil n (fun k => { k with appEngage := false, appCount := cnt, report := true, interrupted := false })
    (coilRelease n (coilInterrupt n (indEvent n 7 s.tbNow (coilHot n s))))

section
variable {n : Nat} {s : State} (c : Rec) (cnt : BitVec 8)

theorem coilRun_coil : (coilRun c n cnt s).coil n = (s.coil n).begun c cnt s.tbNow := by
  unfold coilRun
  rw [onChan_coil, onCoil_same, (resumeAt_chOnly n s).coil, resumeAt_tbNow]

theorem coilRun_othersKept : OthersKept n s (coilRun c n cnt s) :=
  ((resumeAt_othersKept n s).trans (onCoil_othersKept n _ _)).trans (onChan_othersKept n _ _)

/-- A cool idle coil that nothing defers begins its actuation; an inrush window may open with it. -/
theorem coilStart_cool (idle : (s.coil n).phase = 0) (due : ovDefers s n = false) (cool : coilCool c (s.coil n).tc = true) :
    (coilStart c n cnt s).coil n = (s.coil n).begun c cnt s.tbNow ∧ OthersKept n s (coilStart c n cnt s) := by
  unfold coilStart
  simp only [idle, due, cool, decide_true, Bool.true_or, Bool.true_and, Bool.not_true, Bool.false_eq_true, if_false, if_true]
  have run := coilRun_coil (n := n) (s := s) c cnt
  have kept := coilRun_othersKept (n := n) (s := s) c cnt
  split
  · exact ⟨((openInrush_chOnly n _).coil n).trans run, kept.trans (openInrush_turned n _).only.othersKept⟩
  · exact ⟨run, kept⟩

theorem coilRefused_coil (idle : (s.coil n).phase = 0) :
    (coilRefused n cnt s).coil n = { (coilHot n s).coil n with appEngage := false, appCount := cnt, report := true, interrupted := false } := by
  have still : ((indEvent n 7 s.tbNow (coilHot n s)).coil n).phase = 0 := by rw [indEvent_coil, coilHot_coil]; exact idle
  unfold coilRefused
  rw [onCoil_same, coilRelease_coil, coilInterrupt_idle still, Coil.released_idle still, indEvent_coil]

theorem coilRefused_othersKept (idle : (s.coil n).phase = 0) : OthersKept n s (coilRefused n cnt s) := by
  have still : ((indEvent n 7 s.tbNow (coilHot n s)).coil n).phase = 0 := by rw [indEvent_coil, coilHot_coil]; exact idle
  have told : OthersKept n s (indEvent n 7 s.tbNow (coilHot n s)) := (onCoil_othersKept n _ s).trans (.of_anvil (indEvent_anvil _ _ _ _))
  unfold coilRefused
  rw [coilInterrupt_idle still]
  exact (told.trans (coilRelease_othersKept n _)).trans (onCoil_othersKept n _ _)

theorem coilStart_hot (due : ovDefers s n = false) (hot : coilCool c (s.coil n).tc = false) : coilStart c n cnt s = coilRefused n cnt s := by
  unfold coilStart
  simp only [due, hot, Bool.and_false, Bool.not_false, Bool.false_eq_true, if_false, if_true]
  rfl

end

/-! ### The start edge of a coil (R312, R316, R336) -/

theorem coilEdge_again {n : Nat} {s : State} (engaged : (s.anvil.vals.indOf n).engage = true) (again : (s.anvil.vals.indOf n).count ≠ (s.coil n).appCount) :
    coilEdge n false s = coilStart (s.kfA n) n (s.anvil.vals.indOf n).count s := by
  unfold coilEdge
  simp only [engaged, decide_eq_true again, Bool.true_or, if_true, Bool.false_eq_true, if_false]
  rfl

/-- A turn-on that waited for the supply waits no more once its release is committed. -/
def coilUndeferred (n : Nat) (s : State) : State := onChan n (fun c => { c with prot := clrBit c.prot 8 }) s

/-- The coil ends at the edge of its release: a one-shot whose HOLD ends at that very edge by itself, any other by the release, which gives a pull-in its outcome. -/
def coilEnded (n : Nat) (s : State) : State :=
  if (s.coil n).phase = 3 && kfHoldMs (s.coil n).prof ≠ 0 && s.tbNow = holdEndTb n s then coilOneShotEnd n 4 s
  else coilRelease n (onCoil n (fun k => { k with outcome := if k.phase ≤ 2 then 4 else k.outcome }) s)

/-- The committed release is taken up with its count `cnt`. -/
def coilTaken (n : Nat) (cnt : BitVec 8) (s : State) : State :=
  onChan n (fun c => { c with contSince := none }) (onCoil n (fun k => { k with appEngage := false, appCount := cnt, interrupted := false, report := false }) s)

section
variable {n : Nat} {s : State}

theorem coilEnded_coil (running : 1 ≤ (s.coil n).phase) :
    ((coilEnded n s).coil n).phase = 4 ∧ ((coilEnded n s).coil n).iSet = 0
      ∧ ((coilEnded n s).coil n).outcome = if (s.coil n).phase ≤ 2 then 4 else (s.coil n).outcome := by
  have run : (s.coil n).phase ≠ 0 := by omega
  unfold coilEnded
  split
  · next ends =>
    simp only [Bool.and_eq_true, decide_eq_true_eq] at ends
    obtain ⟨⟨hold, -⟩, -⟩ := ends
    rw [coilOneShotEnd_coil, Coil.released_run run, if_neg (by omega)]
    exact ⟨rfl, rfl, rfl⟩
  · rw [coilRelease_coil, onCoil_same, Coil.released_run]
    · exact ⟨rfl, rfl, rfl⟩
    · exact run

theorem coilEnded_othersKept : OthersKept n s (coilEnded n s) :=
  .ite (coilOneShotEnd_othersKept n 4 s) ((onCoil_othersKept n _ s).trans (coilRelease_othersKept n _))

theorem coilEnded_frame : Only [.anvil, .qf] s (coilEnded n s) :=
  Only.ite (coilOneShotEnd_frame n 4 s) ((coilRelease_frame n _).after (by decide) ((onCoil_frame n _ s).sub (by decide)))

theorem coilTaken_coil (cnt : BitVec 8) :
    (coilTaken n cnt s).coil n = { s.coil n with appEngage := false, appCount := cnt, interrupted := false, report := false } := by
  unfold coilTaken
  rw [onChan_coil, onCoil_same]

theorem coilTaken_othersKept (cnt : BitVec 8) : OthersKept n s (coilTaken n cnt s) := (onCoil_othersKept n _ s).trans (onChan_othersKept n _ _)

theorem coilTaken_frame (cnt : BitVec 8) : Only [.anvil] s (coilTaken n cnt s) := (onChan_frame n _ _).after (by decide) (onCoil_frame n _ s)

theorem coilEdge_release (released : (s.anvil.vals.indOf n).engage = false) (engaged : (s.coil n).appEngage = true) (first : 1 ≤ (s.coil n).phase) (last : (s.coil n).phase ≤ 3) :
    coilEdge n false s = coilTaken n (s.anvil.vals.indOf n).count (coilEnded n (coilUndeferred n s)) := by
  unfold coilEdge
  simp only [released, engaged, decide_eq_true first, decide_eq_true last, Bool.and_true, if_true, Bool.false_eq_true, if_false]
  rfl

end

/-! ### The start edge reaches its coil (R171, R193, R251) -/

theorem lampFell_prot (now fs : Tb) (c : Chan) : (lampFell now fs c).prot = c.prot := by
  unfold lampFell
  split
  · split
    · unfold chanFall
      split <;> rfl
    · rfl
  · rfl

/-- The start edge of channel `n` at tick `t`: its channel has had the edge of this frame. -/
def edgeBegun (n t : Nat) (s : State) : State := lampSettle n (onChan n (fun c => { c with edgeFn := some s.anvil.lastFn }) (atTickA t s))

section
variable {n t : Nat} {s : State}

theorem edgeBegun_chan : (edgeBegun n t s).chan n = lampFell (atTickA t s).tbNow (atTickA t s).time.anvilTb { s.chan n with edgeFn := some s.anvil.lastFn } := by
  unfold edgeBegun lampSettle
  rw [onChan_same, onChan_same, chan_atTickA]
  rfl

theorem edgeBegun_prot : ((edgeBegun n t s).chan n).prot = (s.chan n).prot := by
  rw [edgeBegun_chan, lampFell_prot]

theorem edgeBegun_safe : ((edgeBegun n t s).chan n).safe = (s.chan n).safe := by
  rw [edgeBegun_chan]
  exact (lampFell_kept _ _ _).safe

theorem edgeBegun_chOnly : ChOnly s (edgeBegun n t s) :=
  ((ChOnly.of_anvil (anvil_atTickA t s)).trans (onChan_chOnly n _ _)).trans (lampSettle_only n _).chOnly

theorem edgeBegun_orphan : (edgeBegun n t s).anvil.orphan = s.anvil.orphan := by rw [edgeBegun_chOnly]

theorem edgeBegun_modeA (m : Nat) : (edgeBegun n t s).modeA m = s.modeA m := by
  unfold State.modeA State.cfA
  rw [edgeBegun_chOnly.vals]

end

/-- The start edge of channel `n` falls in the frame in progress, not under FORCE_OFF; it has not been, and its slot has not ended. -/
structure StartEdgeDue (n : Nat) (s : State) : Prop where
  channel : n < 64
  scheduled : (chanEnt s.sched.img s.sched.anvilMode n).disp ≠ 0
  unforced : (chanEnt s.sched.img s.sched.anvilMode n).disp ≠ 3
  start : startFrame (chanEnt s.sched.img s.sched.anvilMode n).period (chanEnt s.sched.img s.sched.anvilMode n).phase s.anvil.lastFn = true
  first : (s.chan n).edgeFn ≠ some s.anvil.lastFn
  slot : s.tickA < 200 * ((chanEnt s.sched.img s.sched.anvilMode n).slot + 1)

/-- An INDUCTIVE channel with committed values of its own, which nothing that ranks above them holds (R251). -/
structure CoilUnheld (n : Nat) (s : State) : Prop where
  coil : s.modeA n = 3
  prot : protHolds (s.chan n).prot = false
  safe : (s.chan n).safe = false
  linked : s.anvil.orphan = false
  own : (s.anvil.vals.chOf n).held = false

theorem CoilUnheld.begun {n : Nat} {s : State} (t : Nat) (h : CoilUnheld n s) : CoilUnheld n (edgeBegun n t s) where
  coil := by rw [edgeBegun_modeA, h.coil]
  prot := by rw [edgeBegun_prot, h.prot]
  safe := by rw [edgeBegun_safe, h.safe]
  linked := by rw [edgeBegun_orphan, h.linked]
  own := by rw [edgeBegun_chOnly.vals, h.own]

theorem channelStartEdge_coil {n : Nat} (vz : Option Nat) {s : State} (due : StartEdgeDue n s) (unheld : CoilUnheld n s) :
    exec (.channelStartEdge n vz) s =
      .next (coilEdge n false (onChan n (fun c => { c with orphan := 0, holdEnd := none }) (edgeBegun n (startTick s.sched.img s.sched.anvilMode n) s))) := by
  obtain ⟨channel, scheduled, unforced, start, first, slot⟩ := due
  obtain ⟨coil, prot, safe, linked, own⟩ := unheld.begun (startTick s.sched.img s.sched.anvilMode n)
  have begins (switchFrame : Bool) :
      ¬(decide (n ≥ 64) || decide ((chanEnt s.sched.img s.sched.anvilMode n).disp = 0)
        || !(startFrame (chanEnt s.sched.img s.sched.anvilMode n).period (chanEnt s.sched.img s.sched.anvilMode n).phase s.anvil.lastFn || switchFrame)
        || decide ((s.chan n).edgeFn = some s.anvil.lastFn)) = true := by
    have inRange : ¬n ≥ 64 := Nat.not_le.2 channel
    rw [decide_eq_false inRange, decide_eq_false scheduled, start, decide_eq_false first, Bool.true_or]
    exact Bool.false_ne_true
  show execChannelStartEdge n vz s = _
  unfold execChannelStartEdge
  extract_lets md e t switchFrame only a m
  have begun : a = edgeBegun n t s := rfl
  have mode : m = a.modeA n := rfl
  rw [if_neg (begins switchFrame), if_neg (Nat.not_le.2 slot)]
  clear_value m a
  subst mode begun
  have free : ((edgeBegun n t s).anvil.orphan || ((edgeBegun n t s).chan n).orphan = 3 && ((edgeBegun n t s).anvil.vals.chOf n).held) = false := by
    rw [linked, own, Bool.and_false, Bool.or_false]
  rw [if_neg fun direct => absurd (coil.symm.trans direct) (by decide), if_pos coil, if_neg (Bool.eq_false_iff.1 prot), if_neg (Bool.eq_false_iff.1 safe), if_neg (Bool.eq_false_iff.1 free), if_neg (Bool.eq_false_iff.1 own),
    decide_eq_false unforced]

/-- Settles O30: the edge by channelStartEdge_coil, the begin and the refusal by coilStart_cool and coilStart_hot, the release by coilEdge_release. -/
theorem coilStartEdge : Obligations.CoilStartEdge := by
  refine ⟨fun n vz s channel scheduled unforced start first slot coil prot safe linked own =>
    channelStartEdge_coil vz ⟨channel, scheduled, unforced, start, first, slot⟩ ⟨coil, prot, safe, linked, own⟩,
    fun n s idle due engaged again => ?begins, fun n s released engaged running last => ?releases⟩
  case begins =>
    have frame := coilEdge_frame n false s
    rw [coilEdge_again engaged again] at *
    cases heat : coilCool (s.kfA n) (s.coil n).tc with
    | true =>
      obtain ⟨begun, others⟩ := coilStart_cool (s.kfA n) (s.anvil.vals.indOf n).count idle due heat
      refine ⟨fun _ => ?_, fun hot => Bool.noConfusion hot, others, frame⟩
      rw [begun]
      exact ⟨rfl, rfl, rfl, rfl, rfl, rfl, rfl⟩
    | false =>
      rw [coilStart_hot _ _ due heat] at *
      refine ⟨fun cool => Bool.noConfusion cool, fun _ => ?_, coilRefused_othersKept _ idle, frame⟩
      rw [coilRefused_coil _ idle, coilHot_coil, heat]
      exact ⟨idle, rfl, rfl, rfl, bit_setBit_same _ 6⟩
  case releases =>
    have waits : OthersKept n s (coilUndeferred n s) := onChan_othersKept n _ s
    have same : (coilUndeferred n s).coil n = s.coil n := onChan_coil n n _ s
    obtain ⟨phase, set, outcome⟩ := coilEnded_coil (n := n) (s := coilUndeferred n s) (same ▸ running)
    rw [coilEdge_release released engaged running last]
    dsimp only
    rw [coilTaken_coil]
    exact ⟨phase, set, rfl, outcome, (waits.trans coilEnded_othersKept).trans (coilTaken_othersKept _),
      (coilTaken_frame _).after (by decide) (coilEnded_frame.after (by decide) ((onChan_frame n _ s).sub (by decide)))⟩

end Sys2Proof.Machine

namespace Sys2Proof.Machine

/-! ### The events of an actuation (R313 to R315, R320 to R322, R331) -/

@[simp] theorem onCoil_tbNow (n : Nat) (f : Coil → Coil) (s : State) : (onCoil n f s).tbNow = s.tbNow := rfl

theorem onCoil_chan (n m : Nat) (f : Coil → Coil) (s : State) : (onCoil n f s).chan m = s.chan m := rfl

theorem onCoil_kfA (n m : Nat) (f : Coil → Coil) (s : State) : (onCoil n f s).kfA m = s.kfA m := rfl

theorem advTo_coil (t : Tb) (s : State) (n : Nat) : (advTo t s).coil n = s.coil n := (ChOnly.of_anvil (advTo_anvil t s)).coil n

theorem advTo_chan (t : Tb) (s : State) (n : Nat) : (advTo t s).chan n = s.chan n := chan_of_anvil (advTo_anvil t s) n

theorem advTo_kfA (t : Tb) (s : State) (n : Nat) : (advTo t s).kfA n = s.kfA n := by
  unfold State.kfA
  rw [advTo_anvil]

theorem advTo_othersKept (n : Nat) (t : Tb) (s : State) : OthersKept n s (advTo t s) := .of_anvil (advTo_anvil t s)

theorem coilSync_othersKept (n : Nat) (s : State) : OthersKept n s (coilSync n s) := onCoil_othersKept n _ s

theorem coilSync_coil_of_not_rise {n : Nat} {s : State} (risen : (s.coil n).phase ≠ 1) : (coilSync n s).coil n = s.coil n := by
  unfold coilSync
  rw [onCoil_same]
  split
  · rw [decide_eq_false risen, Bool.false_and, if_neg Bool.false_ne_true]
  · rfl

theorem indIpReached_eq {n : Nat} {s : State} (rise : (s.coil n).phase = 1) (first : (s.coil n).reached = false) :
    exec (.indIpReached n) s = .next (onCoil n (fun k => { k with reached := true, pullTb := some (chopAtOrAfter s n (s.tbNow + 1)) }) s) :=
  if_pos (by rw [rise, first]; rfl)

theorem coilOpenCheck_eq {n : Nat} {s : State} (i : Nat) (rise : (s.coil n).phase = 1) (first : (s.coil n).reached = false) :
    let b := advTo ((s.coil n).startTb + msTicks 2) s
    exec (.coilOpenCheck n i) s = .next (if 100 * i < 5 * kfIp (s.coil n).prof then coilFault n 9 0x082 9 b else b) :=
  if_pos (by rw [rise, first]; rfl)

/-! ### The end of a pull-in (R314) -/

/-- The instant of the pull-in's end has come: KINK_ENDED is set where the kink rule gave that instant. -/
def pullEnded (n : Nat) (s : State) : State :=
  onCoil n (fun k => { k with flags := if (pullEnd s n).2 then setBit k.flags 3 else k.flags, pullTb := none }) (coilSync n (advTo (pullEnd s n).1 s))

section
variable {n : Nat} {s : State}

theorem pullEnded_chan (m : Nat) : (pullEnded n s).chan m = s.chan m := by
  unfold pullEnded coilSync
  rw [onCoil_chan, onCoil_chan, advTo_chan]

theorem pullEnded_kfA (m : Nat) : (pullEnded n s).kfA m = s.kfA m := by
  unfold pullEnded coilSync
  rw [onCoil_kfA, onCoil_kfA, advTo_kfA]

theorem pullEnded_coil (pull : (s.coil n).phase = 2) :
    (pullEnded n s).coil n = { s.coil n with flags := if (pullEnd s n).2 then setBit (s.coil n).flags 3 else (s.coil n).flags, pullTb := none } := by
  have risen : ((advTo (pullEnd s n).1 s).coil n).phase ≠ 1 := by rw [advTo_coil, pull]; decide
  unfold pullEnded
  rw [onCoil_same, coilSync_coil_of_not_rise risen, advTo_coil]

theorem pullEnded_othersKept : OthersKept n s (pullEnded n s) :=
  ((advTo_othersKept n _ s).trans (coilSync_othersKept n _)).trans (onCoil_othersKept n _ _)

theorem pullEnded_frame : Only [.anvil, .time, .qf] s (pullEnded n s) :=
  (onCoil_frame n _ _).after (by decide) ((coilSync_frame n _).after (by decide) ((advTo_frame _ s).sub (by decide)))

/-- With the closing found and IP reached, IH alone decides: without a hold current the actuation is over, but in the safe state ON. -/
theorem pullInEnd_closed (pull : (s.coil n).phase = 2) (closed : (s.coil n).closeTb.isSome = true) (reached : (s.coil n).reached = true) :
    exec (.pullInEnd n) s =
      .next (if kfIh (s.coil n).prof = 0 && !((s.chan n).safe && cfSafe ((pullEnded n s).cfA n) = 1) then coilDone n (pullEnded n s)
        else pullHeld n (coilHold n (pullEnded n s))) := by
  rw [← pullEnded_chan (n := n) (s := s) n]
  show execPullInEnd n s = _
  unfold execPullInEnd
  simp only [pull, closed, reached, decide_true, Bool.or_true, if_true]
  rfl

theorem pullHeld_of_unexpired (unexpired : (s.chan n).orphan ≠ 3) : pullHeld n s = s := if_neg unexpired

theorem coilHold_coil : (coilHold n s).coil n =
    { s.coil n with phase := 3, pullTb := none, holdTb := s.tbNow, iSet := holdSet n (s.coil n).prof (s.kfA n) (s.coil n).tc } := onCoil_same n _ s

theorem coilHold_othersKept : OthersKept n s (coilHold n s) := onCoil_othersKept n _ s

theorem pullInEnd_noHold (pull : (s.coil n).phase = 2) (closed : (s.coil n).closeTb.isSome = true) (reached : (s.coil n).reached = true)
    (noHold : kfIh (s.coil n).prof = 0) (notSafe : (s.chan n).safe = false) : exec (.pullInEnd n) s = .next (coilDone n (pullEnded n s)) := by
  rw [pullInEnd_closed pull closed reached, if_pos]
  rw [noHold, notSafe]
  rfl

theorem pullInEnd_hold (pull : (s.coil n).phase = 2) (closed : (s.coil n).closeTb.isSome = true) (reached : (s.coil n).reached = true)
    (hold : kfIh (s.coil n).prof ≠ 0) (unexpired : (s.chan n).orphan ≠ 3) : exec (.pullInEnd n) s = .next (coilHold n (pullEnded n s)) := by
  have stays : ((coilHold n (pullEnded n s)).chan n).orphan ≠ 3 := by
    rw [coilHold, onCoil_chan, pullEnded_chan]
    exact unexpired
  rw [pullInEnd_closed pull closed reached, if_neg, pullHeld_of_unexpired stays]
  rw [decide_eq_false hold, Bool.false_and]
  exact Bool.false_ne_true

end

/-! ### The closing found by its kink (R320 to R322) -/

/-- A coil that has taken a window of voltage `u`, none of its cycles saturated. -/
def Coil.windowTaken (u : Int) (k : Coil) : Coil := { k with wins := k.wins + 1, satWin := k.satWin || false, u2 := k.u1, u1 := some u }

/-- A coil whose closing at `close` is found at `seen` by a second difference `d`. -/
def Coil.closedAt (close seen : Tb) (t : Nat) (d : Int) (k : Coil) : Coil :=
  { k with closeTb := some close, kinkSeen := some seen, tClose := t, kinkMv := (-d).toNat * 5 / 4, outcome := 1, flags := setBit k.flags 0 }

/-- The window of voltage `u`, its second difference `d`, shows coil `n` closed 200 us before, `t` us after its start edge. -/
def kinkFound (n t : Nat) (u d : Int) (s : State) : State :=
  onCoil n (Coil.closedAt (s.tbNow - 10000) s.tbNow t d) (onCoil n (fun k => { k with anyD := true }) (onCoil n (Coil.windowTaken u) (coilSync n s)))

/-- A window of voltage `u` completes the kink of coil `k` in PULL, after windows of `y` and `x`. -/
structure KinkDue (now : Tb) (u x y : Int) (k : Coil) : Prop where
  pull : k.phase = 2
  later : k.wins ≠ 0
  last : k.u1 = some x
  before : k.u2 = some y
  detects : kfThr k.prof ≠ 0
  unblanked : kfBlank k.prof * 50000 ≤ (now - k.startTb).toNat
  unclosed : k.closeTb = none
  kink : (u - 2 * x + y) * 5 ≤ -(40 * (kfThr k.prof : Int))
  falls : u < x

section
variable {n : Nat} {s : State}

theorem kinkFound_coil (t : Nat) (u d : Int) : (kinkFound n t u d s).coil n =
    Coil.closedAt (s.tbNow - 10000) s.tbNow t d { Coil.windowTaken u ((coilSync n s).coil n) with anyD := true } := by
  unfold kinkFound
  rw [onCoil_same, onCoil_same, onCoil_same]

theorem kinkFound_othersKept (t : Nat) (u d : Int) : OthersKept n s (kinkFound n t u d s) :=
  (((coilSync_othersKept n s).trans (onCoil_othersKept n _ _)).trans (onCoil_othersKept n _ _)).trans (onCoil_othersKept n _ _)

theorem kinkFound_frame (t : Nat) (u d : Int) : Only [.anvil] s (kinkFound n t u d s) :=
  (onCoil_frame n _ _).after (by decide) ((onCoil_frame n _ _).after (by decide) ((onCoil_frame n _ _).after (by decide) (coilSync_frame n s)))

theorem closingDetectionWindow_kink {us : List Nat} (is : List Nat) {x y : Int} (due : KinkDue s.tbNow us.sum x y ((coilSync n s).coil n)) :
    let close := s.tbNow - 10000
    let t := (close - ((coilSync n s).coil n).startTb).toNat / 50
    exec (.closingDetectionWindow n us is false) s = .next (closeTrend n t (indEvent n 1 close (kinkFound n t us.sum (us.sum - 2 * x + y) s))) := by
  obtain ⟨pull, later, last, before, detects, unblanked, unclosed, kink, falls⟩ := due
  show execClosingDetectionWindow n us is false s = _
  unfold execClosingDetectionWindow
  simp only [pull, later, last, before, unclosed, if_true, if_false, decide_false, Bool.false_and, Bool.false_eq_true, onCoil_tbNow]
  rw [if_pos, if_pos]
  · rfl
  · rw [decide_eq_true kink, decide_eq_true falls]
    rfl
  · have now : (coilSync n s).tbNow = s.tbNow := rfl
    rw [now, decide_eq_true detects, decide_eq_true unblanked]
    rfl

end

/-! ### The end of a one-shot and of a release (R313, R315) -/

theorem restartNow_of_released {n : Nat} {s : State} (released : (s.anvil.vals.indOf n).engage = false) : restartNow n s = false := by
  unfold restartNow
  simp only [released, Bool.false_and]

/-- The coil of `n` is without current from now on. -/
def coilIdle (n : Nat) (s : State) : State :=
  indEvent n 5 s.tbNow (onChan n (fun c => { c with offSince := s.tbNow, lastEdge := s.tbNow }) (onCoil n (fun k => { k with phase := 0 }) s))

section
variable {n : Nat} {s : State}

theorem oneShotEnd_eq (hold : (s.coil n).phase = 3) (timed : kfHoldMs (s.coil n).prof ≠ 0) (released : (s.anvil.vals.indOf n).engage = false) :
    exec (.oneShotEnd n) s = .next (coilOneShotEnd n 4 (advTo (holdEndTb n s) s)) := by
  have stays : ((advTo (holdEndTb n s) s).anvil.vals.indOf n).engage = false := by rw [advTo_anvil]; exact released
  have ends : coilDone n (advTo (holdEndTb n s) s) = coilOneShotEnd n 4 (advTo (holdEndTb n s) s) :=
    if_neg (Bool.eq_false_iff.1 (restartNow_of_released stays))
  rw [← ends]
  exact if_pos (by rw [hold, decide_eq_true timed]; rfl)

theorem indReleaseEnd_eq (decays : (s.coil n).phase = 4) : exec (.indReleaseEnd n) s = .next (coilIdle n s) := if_pos decays

theorem coilIdle_coil : (coilIdle n s).coil n = { s.coil n with phase := 0 } := by
  unfold coilIdle
  rw [indEvent_coil, onChan_coil, onCoil_same]

theorem coilIdle_chan : (coilIdle n s).chan n = { s.chan n with offSince := s.tbNow, lastEdge := s.tbNow } := by
  unfold coilIdle
  rw [chan_of_anvil (indEvent_anvil _ _ _ _), onChan_same, onCoil_chan]

theorem coilIdle_othersKept : OthersKept n s (coilIdle n s) :=
  ((onCoil_othersKept n _ s).trans (onChan_othersKept n _ _)).trans (.of_anvil (indEvent_anvil _ _ _ _))

theorem coilIdle_frame : Only [.anvil, .qf] s (coilIdle n s) :=
  (indEvent_frame _ _ _ _).after (by decide) ((onChan_frame n _ _).after (by decide) ((onCoil_frame n _ s).sub (by decide)))

end

/-- Settles O31: each event by its equation, what it leaves by the rules of the coil operations it is made of. -/
theorem actuationEvents : Obligations.ActuationEvents := by
  refine ⟨fun n s rise first => ?ipReached, fun n c s pull found reached => ?pullInEnd, fun n i s rise first => ?openCheck,
    fun n us is x y s => ?closing, fun n s hold timed released => ?oneShot, fun n s decays => ?releaseEnd⟩
  case ipReached =>
    refine ⟨_, indIpReached_eq rise first, ?_⟩
    rw [onCoil_same]
    exact ⟨rfl, rfl, rise, fun m hm => (onCoil_othersKept n _ s m hm).1, onCoil_frame n _ s⟩
  case pullInEnd =>
    have closed : (s.coil n).closeTb.isSome = true := by rw [found]; rfl
    refine ⟨fun noHold notSafe => pullInEnd_noHold pull closed reached noHold notSafe,
      fun hold unexpired => ⟨_, pullInEnd_hold pull closed reached hold unexpired, ?_⟩⟩
    rw [coilHold_coil, pullEnded_coil pull, pullEnded_kfA]
    exact ⟨rfl, rfl, rfl, fun m hm => (pullEnded_othersKept.trans coilHold_othersKept m hm).1,
      (coilHold_frame n _).after (by decide) pullEnded_frame⟩
  case openCheck =>
    have check := coilOpenCheck_eq i rise first
    refine ⟨fun low => check.trans ?_, fun enough => check.trans ?_⟩
    · rw [if_pos low]
    · rw [if_neg (Nat.not_lt.2 enough)]
  case closing =>
    intro k prof u close t pull later last before detects unblanked unclosed kink falls
    refine ⟨_, closingDetectionWindow_kink is ⟨pull, later, last, before, detects, unblanked, unclosed, kink, falls⟩, ?_⟩
    rw [kinkFound_coil]
    exact ⟨rfl, rfl, rfl, rfl, bit_setBit_same _ 0, pull, fun m hm => (kinkFound_othersKept _ _ _ m hm).1, kinkFound_frame _ _ _⟩
  case oneShot =>
    have run : ((advTo (holdEndTb n s) s).coil n).phase ≠ 0 := by rw [advTo_coil, hold]; decide
    refine ⟨_, oneShotEnd_eq hold timed released, rfl, ?_⟩
    rw [coilOneShotEnd_coil, Coil.released_run run]
    exact ⟨rfl, rfl, rfl, (coilOneShotEnd_frame n 4 _).after (by decide) ((advTo_frame _ s).sub (by decide))⟩
  case releaseEnd =>
    refine ⟨_, indReleaseEnd_eq decays, ?_⟩
    rw [coilIdle_coil, coilIdle_chan]
    exact ⟨rfl, rfl, coilIdle_othersKept, coilIdle_frame⟩

end Sys2Proof.Machine

namespace Sys2Proof.Machine

/-! ### Bridges: one rule per operation (R341) -/

theorem onBridge_same (b : Nat) (f : Bridge → Bridge) (s : State) : (onBridge b f s).bridge b = f (s.bridge b) := tget_tmod_same bridgeDef _ b f

theorem onBridge_other {b m : Nat} (f : Bridge → Bridge) (s : State) (h : m ≠ b) : (onBridge b f s).bridge m = s.bridge m := tget_tmod_other bridgeDef _ f h

theorem onBridgeBoth_same (b : Nat) (f : Bridge → Bridge) (s : State) : (onBridgeBoth b f s).bridge b = f (s.bridge b) := tget_tmod_same bridgeDef _ b f

theorem onBridgeBoth_other {b m : Nat} (f : Bridge → Bridge) (s : State) (h : m ≠ b) : (onBridgeBoth b f s).bridge m = s.bridge m := tget_tmod_other bridgeDef _ f h

theorem rd_lt (b : Rec) (off n : Nat) : rd b off n < 256 ^ n := by
  unfold rd
  induction n generalizing off with
  | zero => exact Nat.one_pos
  | succ n ih =>
    cases octets : b.drop off with
    | nil => exact Nat.pow_pos (by decide)
    | cons o l =>
      have rest := ih (off + 1)
      have small : o.toNat < 256 := o.isLt
      rw [← List.drop_drop, octets, List.drop_one, List.tail_cons] at rest
      rw [List.take_succ_cons, List.foldr_cons, Nat.pow_succ]
      omega

/-! ### Bridge opcodes (R345, R349, R374, R375) -/

/-- A BR_CONFIG whose record names another position source makes the position uncertain (R349). -/
def sourceTaken (b : Nat) (c : Rec) (s : State) : State :=
  if bfPosSrc c ≠ bfPosSrc (s.com.brCfgOf b) then onBridgeBoth b (fun k => { k with flags := setBit k.flags 0 }) s else s

theorem brConfig_st (r : Req) (s : State) :
    (brConfigSpec.run r s).st = onCom (fun m => { m with brCfg := tput brCfgReset m.brCfg (brIx r.b) (sub r.b 8 48) }) (sourceTaken (brIx r.b) (sub r.b 8 48) s) := rfl

section
variable {b : Nat} {c : Rec} {s : State}

theorem sourceTaken_com : (sourceTaken b c s).com = s.com := by
  unfold sourceTaken
  split <;> rfl

theorem sourceTaken_same (same : bfPosSrc c = bfPosSrc (s.com.brCfgOf b)) : sourceTaken b c s = s := if_neg (not_not_intro same)

theorem sourceTaken_bridge (changed : bfPosSrc c ≠ bfPosSrc (s.com.brCfgOf b)) :
    (sourceTaken b c s).bridge b = { s.bridge b with flags := setBit (s.bridge b).flags 0 } := by
  rw [sourceTaken, if_pos changed, onBridgeBoth_same]

theorem sourceTaken_other {m : Nat} (h : m ≠ b) : (sourceTaken b c s).bridge m = s.bridge m := by
  unfold sourceTaken
  split
  · exact onBridgeBoth_other _ s h
  · rfl

end

theorem brConfig_takes (r : Req) (s : State) :
    let b := brIx r.b
    let c := sub r.b 8 48
    let t := (brConfigSpec.run r s).st
    t.com.brCfgOf b = c ∧ (bfPosSrc c = bfPosSrc (s.com.brCfgOf b) → t.anvil = s.anvil)
      ∧ (bfPosSrc c ≠ bfPosSrc (s.com.brCfgOf b) → bit (t.bridge b).flags 0 = true ∧ (t.bridge b).pos = (s.bridge b).pos)
      ∧ (∀ m, m ≠ b → t.com.brCfgOf m = s.com.brCfgOf m ∧ t.bridge m = s.bridge m) ∧ t.com.br = s.com.br ∧ Only [.com, .anvil, .rep] s t := by
  intro b c t
  have com : t.com = { s.com with brCfg := tput brCfgReset s.com.brCfg b c } := by
    show { (sourceTaken b c s).com with brCfg := tput brCfgReset (sourceTaken b c s).com.brCfg b c } = _
    rw [sourceTaken_com]
  have bridge (m : Nat) : t.bridge m = (sourceTaken b c s).bridge m := rfl
  refine ⟨?_, fun same => ?_, fun changed => ?_, fun m hm => ⟨?_, ?_⟩, ?_, brConfigSpec_frame r s⟩
  · rw [com]
    exact tget_tput_same brCfgReset _ b c
  · show (sourceTaken b c s).anvil = s.anvil
    rw [sourceTaken_same same]
  · rw [bridge, sourceTaken_bridge changed]
    exact ⟨bit_setBit_same _ 0, rfl⟩
  · rw [com]
    exact tget_tput_other brCfgReset _ c hm
  · rw [bridge, sourceTaken_other hm]
  · rw [com]

theorem genOct_length (s : State) (t i : Nat) : (genOct s t i).length = 2 := le_length 2 _

theorem leI_length (n : Nat) (i : Int) : (leI n i).length = n := le_length n _

/-- The answer of BR_SET, its fields apart. -/
theorem brSet_data (r : Req) (s : State) :
    let x := brSetSpec.run r s
    x.data = genOct x.st 1 (unitIx r.b) ++ (le 1 (rd r.b 6 1) ++ ([0] ++ (le 2 (rd r.b 8 2) ++ (leI 3 (sx 24 (rd r.b 10 3)) ++ [0] ++ (le 4 (applyFn x.st (unitIx r.b) r.eff).toNat ++ []))))) := by
  intro x
  show _ ++ _ ++ _ ++ _ ++ _ ++ _ = _
  simp only [List.append_assoc, List.append_nil]
  rfl

theorem brSet_answers (r : Req) (s : State) :
    let x := brSetSpec.run r s
    rd x.data 2 1 = rd r.b 6 1 ∧ rd x.data 4 2 = rd r.b 8 2 ∧ rd x.data 10 4 = (applyFn x.st (unitIx r.b) r.eff).toNat := by
  intro x
  have data := brSet_data r s
  refine ⟨?_, ?_, ?_⟩
  · rw [data]
    exact rd_field _ _ 1 2 _ (genOct_length _ _ _) (rd_lt r.b 6 1)
  · rw [data, ← List.append_assoc, ← List.append_assoc]
    exact rd_field _ _ 2 4 _ (by simp [genOct_length, le_length]) (rd_lt r.b 8 2)
  · rw [data, ← List.append_assoc, ← List.append_assoc, ← List.append_assoc, ← List.append_assoc]
    exact rd_field _ _ 4 10 _ (by simp [genOct_length, leI_length, le_length]) (applyFn x.st (unitIx r.b) r.eff).isLt

theorem brSet_commits (r : Req) (s : State) :
    let b := brIx r.b
    let x := brSetSpec.run r s
    x.st.com.brOf b = { drive := rd r.b 6 1, duty := rd r.b 8 2, target := sx 24 (rd r.b 10 3) } ∧ (∀ m, m ≠ b → x.st.com.brOf m = s.com.brOf m)
      ∧ x.st.com.brCfg = s.com.brCfg ∧ Only [.com] s x.st ∧ rd x.data 2 1 = rd r.b 6 1 ∧ rd x.data 4 2 = rd r.b 8 2
      ∧ rd x.data 10 4 = (applyFn x.st (unitIx r.b) r.eff).toNat :=
  ⟨tget_tput_same brDef s.com.br _ _, fun _ hm => tget_tput_other brDef s.com.br _ hm, rfl, brSetSpec_frame r s, brSet_answers r s⟩

/-- Settles O32: the opcodes by the laws of acceptance, their effects by the rule of a change of one bridge. -/
theorem bridgeOpcodes : Obligations.BridgeOpcodes := by
  refine ⟨waits_of _ _ _ rfl rfl (fun _ _ _ => rfl), waits_of _ _ _ rfl rfl (fun _ _ _ => rfl), tells_of _ _ _ rfl (.inl rfl) rfl (fun _ _ _ => rfl),
    waits_of _ _ _ rfl rfl (fun _ _ _ => rfl), waits_of _ _ _ rfl rfl (fun _ _ _ => rfl), brConfig_takes, brSet_commits, fun r s => ?clear, fun r s => ?position⟩
  case clear =>
    have cleared : (brClearSpec.run r s).st.bridge (brIx r.b) = { s.bridge (brIx r.b) with flags := clrMask (s.bridge (brIx r.b)).flags (rd r.b 6 2 &&& 4) } :=
      onBridgeBoth_same _ _ s
    dsimp only
    rw [cleared]
    exact ⟨rfl, rfl, fun m hm => onBridgeBoth_other _ s hm, brClearSpec_frame r s⟩
  case position =>
    have set : (brPosSetSpec.run r s).st.bridge (brIx r.b) =
        { s.bridge (brIx r.b) with pos := sx 24 (rd r.b 6 3), skips := 0, err := 0, flags := clrBit (s.bridge (brIx r.b)).flags 0 } := onBridgeBoth_same _ _ s
    dsimp only
    rw [set]
    exact ⟨rfl, rfl, rfl, rfl, rfl, fun m hm => onBridgeBoth_other _ s hm, brPosSetSpec_frame r s⟩

end Sys2Proof.Machine

namespace Sys2Proof.Machine

/-! ### What a bridge operation keeps (R350, R356) -/

@[simp] theorem onBridge_tbNow (b : Nat) (f : Bridge → Bridge) (s : State) : (onBridge b f s).tbNow = s.tbNow := rfl

theorem onBridge_bfA (b m : Nat) (f : Bridge → Bridge) (s : State) : (onBridge b f s).bfA m = s.bfA m := rfl

theorem onBridge_congr {b : Nat} {f g : Bridge → Bridge} {s : State} (h : f (s.bridge b) = g (s.bridge b)) : onBridge b f s = onBridge b g s :=
  congrArg (fun k => onAnvil (fun a => { a with br := tput bridgeDef a.br b k }) s) h

theorem bridge_of_anvil {s t : State} (h : t.anvil = s.anvil) (b : Nat) : t.bridge b = s.bridge b := by
  unfold State.bridge
  rw [h]

theorem onChan_bridge (n : Nat) (f : Chan → Chan) (s : State) (b : Nat) : (onChan n f s).bridge b = s.bridge b := rfl

theorem bridgeIdle_tbNow (b : Nat) (s : State) : (bridgeIdle b s).tbNow = s.tbNow := rfl

theorem bridgeIdle_bfA (b : Nat) (s : State) (m : Nat) : (bridgeIdle b s).bfA m = s.bfA m := rfl

theorem bridgeIdle_bridge (b : Nat) (s : State) (m : Nat) : (bridgeIdle b s).bridge m = s.bridge m := by
  unfold bridgeIdle
  rw [onChan_bridge, onChan_bridge]

theorem advTo_bridge (t : Tb) (s : State) (b : Nat) : (advTo t s).bridge b = s.bridge b := bridge_of_anvil (advTo_anvil t s) b

theorem advTo_bfA (t : Tb) (s : State) (b : Nat) : (advTo t s).bfA b = s.bfA b := by
  unfold State.bfA
  rw [advTo_anvil]

/-- A bit below the one that is cleared stays. -/
theorem bit_clrBit_below (p : Nat) {i j : Nat} (h : j < i) : bit (clrBit p i) j = bit p j := by
  unfold clrBit
  split
  · next set =>
    unfold bit at *
    rw [← Nat.testBit_two_pow_add_gt h, Nat.add_sub_cancel' (Nat.ge_two_pow_of_testBit set)]
  · rfl

section
variable {b : Nat} {t : Tb} {s : State}

/-- The ramp changes the duty of its bridge, the instants and counts kept with it, and the drive state where a direction change then brakes (R350, R352). -/
theorem rampTo_bridge (b : Nat) (t : Tb) (s : State) : ∃ da frac rampTb cruise zeroSince st,
    (rampTo b t s).bridge b = { s.bridge b with da := da, frac := frac, rampTb := rampTb, cruise := cruise, zeroSince := zeroSince, st := st } := by
  unfold rampTo
  dsimp only
  rw [onBridge_same]
  split
  · exact ⟨_, _, _, _, _, _, rfl⟩
  · split
    · exact ⟨_, _, _, _, _, _, rfl⟩
    · exact ⟨_, _, _, _, _, _, rfl⟩

theorem rampTo_flags : ((rampTo b t s).bridge b).flags = (s.bridge b).flags := by
  obtain ⟨_, _, _, _, _, _, ramped⟩ := rampTo_bridge b t s
  rw [ramped]

theorem rampTo_other {m : Nat} (h : m ≠ b) : (rampTo b t s).bridge m = s.bridge m := onBridge_other _ s h

theorem rampTo_tbNow : (rampTo b t s).tbNow = s.tbNow := rfl

/-- A bridge that brakes at once. -/
def Bridge.braked (now : Tb) (k : Bridge) : Bridge :=
  { k with st := 1, da := 0, frac := 0, cruise := 0, want := 0, goal := 0, ready := false, zeroSince := if k.da = 0 && k.frac = 0 then k.zeroSince else now }

theorem Bridge.braked_flags (now : Tb) (k : Bridge) : (k.braked now).flags = k.flags := rfl

theorem Bridge.braked_goal (now : Tb) (k : Bridge) : (k.braked now).goal = 0 := rfl

theorem bridgeBrake_bridge : (bridgeBrake b s).bridge b = ((rampTo b s.tbNow s).bridge b).braked s.tbNow := by
  unfold bridgeBrake
  dsimp only
  rw [onBridge_same, bridgeIdle_bridge, bridgeIdle_tbNow, rampTo_tbNow]
  rfl

end

/-! ### Encoder steps (R358, R359, R360) -/

/-- The places by which the pair (x, e) is ahead of the pair recorded. -/
def encAhead (x e : Bool) (k : Bridge) : Nat := (encPlace x e + 4 - encPlace k.encA k.encB) % 4

theorem encoderIdle_iff {b d src mode : Nat} (known : b < 8) :
    (decide (b ≥ 8) || decide (d = 0) || decide (src ≠ 1) || decide (mode ≠ 4)) = true ↔ d = 0 ∨ src ≠ 1 ∨ mode ≠ 4 := by
  simp only [Bool.or_eq_true, decide_eq_true_eq, Nat.not_le.2 known, false_or, or_assoc]

/-- The pair of bridge `b` is recorded. -/
def encTaken (b : Nat) (x e : Bool) (s : State) : State := onBridge b (fun k => { k with encA := x, encB := e }) s

/-- A skip of bridge `b` is counted. -/
def encSkipped (b : Nat) (s : State) : State := onBridge b (fun k => { k with skips := min 255 (k.skips + 1) }) s

section
variable {b : Nat} {x e : Bool} {s : State} (known : b < 8) (awake : s.pwr.state < 2)
include known awake

theorem encoderStep_recorded (idle : encAhead x e (s.bridge b) = 0 ∨ bfPosSrc (s.bfA b) ≠ 1 ∨ s.modeA (brCh b) ≠ 4) :
    exec (.encoderStep b x e) s = .next (encTaken b x e s) := by
  show execEncoderStep b x e s = _
  unfold execEncoderStep
  exact (if_neg (Nat.not_le.2 awake)).trans (if_pos ((encoderIdle_iff known).2 idle))

/-- Where the bridge counts an encoder whose pair has moved: a skip for two places at once, else a step. -/
theorem encoderStep_counted (moved : encAhead x e (s.bridge b) ≠ 0) (source : bfPosSrc (s.bfA b) = 1) (mode : s.modeA (brCh b) = 4) :
    exec (.encoderStep b x e) s = .next
      (if encAhead x e (s.bridge b) = 2 then
        if bfSkipLimit (s.bfA b) ≤ ((encSkipped b (encTaken b x e s)).bridge b).skips then setUncertain b (encSkipped b (encTaken b x e s)) else encSkipped b (encTaken b x e s)
      else movePos b (if bfEncInv (s.bfA b) then -(if encAhead x e (s.bridge b) = 1 then 1 else -1) else if encAhead x e (s.bridge b) = 1 then 1 else -1) (encTaken b x e s)) := by
  show execEncoderStep b x e s = _
  unfold execEncoderStep
  have counts : ¬ (encAhead x e (s.bridge b) = 0 ∨ bfPosSrc (s.bfA b) ≠ 1 ∨ s.modeA (brCh b) ≠ 4) := by
    rintro (same | other | other)
    · exact moved same
    · exact other source
    · exact other mode
  exact (if_neg (Nat.not_le.2 awake)).trans ((if_neg (mt (encoderIdle_iff known).1 counts)).trans (apply_ite _ _ _ _).symm)

end

theorem posCheck_unwanted {b : Nat} {s : State} (unwanted : (s.bridge b).want = 0) : posCheck b s = s := if_pos (by rw [unwanted]; rfl)

/-- A bridge whose position changes to `p` at `now`. -/
def Bridge.movedTo (p : Int) (now : Tb) (k : Bridge) : Bridge := { k with pos := p, lastMove := now, stallSince := none, openSince := none, flags := clrBit k.flags 7 }

/-- Within the range of POS and with no direction wanted, the position alone changes. -/
theorem movePos_unwanted {b : Nat} {d : Int} {s : State} (moves : d ≠ 0) (unwanted : (s.bridge b).want = 0) (low : -8388608 ≤ (s.bridge b).pos + d)
    (high : (s.bridge b).pos + d ≤ 8388607) : movePos b d s = onBridge b (Bridge.movedTo ((s.bridge b).pos + d) s.tbNow) (rampTo b s.tbNow s) := by
  obtain ⟨_, _, _, _, _, _, ramped⟩ := rampTo_bridge b s.tbNow s
  have pos : ((rampTo b s.tbNow s).bridge b).pos = (s.bridge b).pos := by rw [ramped]
  have unsaturated : (if (s.bridge b).pos + d > 8388607 then (8388607 : Int) else if (s.bridge b).pos + d < -8388608 then -8388608 else (s.bridge b).pos + d)
      = (s.bridge b).pos + d := by
    rw [if_neg (by omega), if_neg (by omega)]
  unfold movePos
  rw [if_neg moves]
  dsimp only
  rw [pos, unsaturated, if_neg (not_not_intro rfl), posCheck_unwanted]
  · rfl
  · rw [onBridge_same, ramped]
    exact unwanted

theorem movePos_moves {b : Nat} {d : Int} {s : State} (moves : d ≠ 0) (unwanted : (s.bridge b).want = 0) (low : -8388608 ≤ (s.bridge b).pos + d)
    (high : (s.bridge b).pos + d ≤ 8388607) :
    let u := movePos b d s
    (u.bridge b).pos = (s.bridge b).pos + d ∧ (u.bridge b).lastMove = s.tbNow ∧ bit (u.bridge b).flags 0 = bit (s.bridge b).flags 0
      ∧ (∀ m, m ≠ b → u.bridge m = s.bridge m) ∧ Only [.anvil] s u := by
  obtain ⟨_, _, _, _, _, _, ramped⟩ := rampTo_bridge b s.tbNow s
  dsimp only
  rw [movePos_unwanted moves unwanted low high, onBridge_same, ramped]
  exact ⟨rfl, rfl, bit_clrBit_below _ (by decide), fun m hm => (onBridge_other _ _ hm).trans (rampTo_other hm), (onBridge_frame b _ _).after (by decide) (rampTo_frame b _ s)⟩

/-! ### Standstill and dwell (R351, R352) -/

/-- Bridge `b` is at standstill from the instant due on: its flag is set, no direction of motion is left, its pair conducts no more. -/
def standstill (b : Nat) (s : State) : State :=
  bridgeIdle b (onBridge b (fun k => { k with flags := setBit k.flags 7, mdir := 0, rampTb := (advTo (stillAt s b) s).tbNow }) (advTo (stillAt s b) s))

section
variable {b : Nat} {s : State}

theorem standstill_bridge : (standstill b s).bridge b =
    { s.bridge b with flags := setBit (s.bridge b).flags 7, mdir := 0, rampTb := (advTo (stillAt s b) s).tbNow } := by
  unfold standstill
  rw [bridgeIdle_bridge, onBridge_same, advTo_bridge]

theorem standstill_other {m : Nat} (h : m ≠ b) : (standstill b s).bridge m = s.bridge m := by
  unfold standstill
  rw [bridgeIdle_bridge, onBridge_other _ _ h, advTo_bridge]

theorem standstill_bfA (m : Nat) : (standstill b s).bfA m = s.bfA m := by
  unfold standstill
  rw [bridgeIdle_bfA, onBridge_bfA, advTo_bfA]

theorem standstill_frame : Only [.anvil, .time, .qf] s (standstill b s) :=
  (bridgeIdle_frame b _).after (by decide) ((onBridge_frame b _ _).after (by decide) ((advTo_frame _ s).sub (by decide)))

/-- Bridge `b` drives with no duty left and is not at standstill yet; no motion in its drive state is wanted. -/
structure StandstillDue (b : Nat) (k : Bridge) : Prop where
  known : b < 8
  moving : still k = false
  duty : k.da = 0
  rest : k.frac = 0
  other : k.want = 0 ∨ k.st ≠ k.want

theorem StandstillDue.runs {k : Bridge} (due : StandstillDue b k) :
    ¬ (decide (b ≥ 8) || still k || decide (k.da ≠ 0) || decide (k.frac ≠ 0) || (decide (k.want ≠ 0) && decide (k.st = k.want))) = true := by
  obtain ⟨known, moving, duty, rest, other⟩ := due
  have inRange : ¬ b ≥ 8 := Nat.not_le.2 known
  rw [decide_eq_false inRange, moving, decide_eq_false (not_not_intro duty), decide_eq_false (not_not_intro rest)]
  simp only [Bool.false_or, Bool.and_eq_true, decide_eq_true_eq]
  exact fun ⟨wants, same⟩ => other.elim wants (fun differs => differs same)

variable (due : StandstillDue b ((rampTo b s.tbNow s).bridge b))
include due

/-- A bridge that wants no direction and owes no report comes to rest in COAST or BRAKE as its committed drive says. -/
theorem bridgeStandstill_rests (unwanted : ((rampTo b s.tbNow s).bridge b).want = 0) (silent : ((rampTo b s.tbNow s).bridge b).stopEv = 0) :
    exec (.bridgeStandstill b) s = .next
      (onBridge b (fun k => { k with st := if k.cut then k.st else if k.app.drive = 0 then 0 else 1 }) (standstill b (rampTo b s.tbNow s))) := by
  show execBridgeStandstill b s = _
  unfold execBridgeStandstill
  refine (if_neg due.runs).trans ((if_neg ?_).trans (if_neg (not_not_intro silent)))
  rw [decide_eq_false (not_not_intro unwanted), Bool.false_and]
  exact Bool.false_ne_true

/-- A bridge that wants another direction brakes and begins the dwell. -/
theorem bridgeStandstill_dwells (wants : ((rampTo b s.tbNow s).bridge b).want ≠ 0) (uncut : ((rampTo b s.tbNow s).bridge b).cut = false)
    (first : ((rampTo b s.tbNow s).bridge b).dwell = none) (unready : ((rampTo b s.tbNow s).bridge b).ready = false) :
    exec (.bridgeStandstill b) s = .next
      (onBridge b (fun k => { k with st := 1, dwell := some ((standstill b (rampTo b s.tbNow s)).tbNow + msTicks (bfDwell (bCfg (standstill b (rampTo b s.tbNow s)) b))) })
        (standstill b (rampTo b s.tbNow s))) := by
  show execBridgeStandstill b s = _
  unfold execBridgeStandstill
  refine (if_neg due.runs).trans ((if_pos ?_).trans (congrArg _ (if_neg ?_)))
  · rw [decide_eq_true wants, uncut]
    rfl
  · rw [first, unready]
    exact Bool.false_ne_true

end

theorem dwellEnd_eq {b : Nat} {t : Tb} {s : State} (dwells : (s.bridge b).dwell = some t) :
    exec (.dwellEnd b) s = .next (onBridge b (fun k => { k with dwell := none, ready := true }) (advTo t s)) := by
  show execDwellEnd b s = _
  unfold execDwellEnd
  rw [dwells]

/-! ### Stall and open phase (R356, R369, R370) -/

/-- The stall of bridge `b` that began at `t` is due. -/
def stallDue (b : Nat) (t : Tb) (s : State) : State := onBridge b (fun k => { k with stallSince := none }) (advTo (t + msTicks (bfStallMs (s.bfA b))) s)

/-- A stall that ends homing: HOME is commanded, or AUTO_HOME has it in the direction of the home position. -/
def stallHomes (c : Rec) (k : Bridge) : Prop := k.goal = 3 ∨ (bfAutoHome c = true ∧ k.goal ≠ 4 ∧ k.mdir = (if bfHomeDir c then 2 else 3))

theorem stallHomes_iff (c : Rec) (k : Bridge) :
    (decide (k.goal = 3) || (bfAutoHome c && decide (k.goal ≠ 4) && decide (k.mdir = (if bfHomeDir c then 2 else 3)))) = true ↔ stallHomes c k := by
  simp only [Bool.or_eq_true, Bool.and_eq_true, decide_eq_true_eq, and_assoc, stallHomes]

section
variable {b : Nat} {t : Tb} {s : State}

theorem bridgeStall_homes (stalls : (s.bridge b).stallSince = some t) (homing : stallHomes (s.bfA b) (s.bridge b)) :
    exec (.bridgeStall b) s = .next (brReport b 1 (brEvent b 3
      (onBridge b (fun k => { k with pos := bfHomePos (s.bfA b), skips := 0, err := 0, flags := setBit (clrBit k.flags 0) 6 }) (bridgeBrake b (stallDue b t s))))) := by
  show execBridgeStall b s = _
  unfold execBridgeStall
  dsimp only
  rw [stalls]
  exact if_pos ((stallHomes_iff _ _).2 homing)

/-- The stall leaves the flags as it found them. -/
theorem bridgeBrake_stallDue_flags : ((bridgeBrake b (stallDue b t s)).bridge b).flags = (s.bridge b).flags := by
  rw [bridgeBrake_bridge, Bridge.braked_flags, rampTo_flags, stallDue, onBridge_same, advTo_bridge]

theorem bridgeStall_raises (stalls : (s.bridge b).stallSince = some t) (strays : ¬ stallHomes (s.bfA b) (s.bridge b)) (free : pinching (s.bridge b) = false) :
    exec (.bridgeStall b) s = .next (brReport b 1 (brEvent b 4 (raise 0x0A1 b
      (onBridge b (fun k => { k with flags := setBit k.flags 4, stopEv := 0 }) (bridgeBrake b (stallDue b t s)))))) := by
  have goal : ((bridgeBrake b (stallDue b t s)).bridge b).goal = 0 := by
    rw [bridgeBrake_bridge, Bridge.braked_goal]
  have unpinched : pinching ((bridgeBrake b (stallDue b t s)).bridge b) = false := by
    unfold pinching
    rw [bridgeBrake_stallDue_flags]
    exact free
  have silent : onBridge b (fun k => { k with flags := setBit k.flags 4, stopEv := if k.goal = 4 || pinching k then 6 else 0 }) (bridgeBrake b (stallDue b t s))
      = onBridge b (fun k => { k with flags := setBit k.flags 4, stopEv := 0 }) (bridgeBrake b (stallDue b t s)) :=
    onBridge_congr (by rw [goal, unpinched]; rfl)
  show execBridgeStall b s = _
  unfold execBridgeStall
  dsimp only
  rw [stalls, ← silent]
  exact if_neg (mt (stallHomes_iff _ _).1 strays)

theorem bridgeOpenPhase_eq (opens : (s.bridge b).openSince = some t) :
    exec (.bridgeOpenPhase b) s = .next (brReport b 0 (brEvent b 7 (raise 0x0A2 b
      (onBridge b (fun k => { k with cut := false, flags := setBit k.flags 2, stopEv := 0, dwell := none }) (bridgeLost b (bridgeCoast b
        (onBridge b (fun k => { k with flags := clrBit k.flags 1, openSince := none }) (advTo (t + msTicks (bfOpenMs (s.bfA b))) s)))))))) := by
  show execBridgeOpenPhase b s = _
  unfold execBridgeOpenPhase
  dsimp only
  rw [opens]
  rfl

end

/-- Settles O33: each event by its equation, what it leaves by the rules of the bridge operations it is made of. -/
theorem bridgeEvents : Obligations.BridgeEvents := by
  refine ⟨fun b x e s known awake => ?encoder, fun b d s => movePos_moves, fun b s known moving duty rest => ⟨fun unwanted silent uncut => ?rests, fun wants differs uncut first unready => ?dwells⟩,
    fun b t s dwells => ?dwellEnd, fun b t s stalls => ⟨bridgeStall_homes stalls, fun strays _ free => bridgeStall_raises stalls strays free⟩, fun b t s => bridgeOpenPhase_eq, fun b s => ?brake⟩
  case encoder =>
    refine ⟨encoderStep_recorded known awake, fun source mode => ⟨fun ahead => ?_, fun behind => ?_, fun skipped => ?_⟩⟩
    · rw [encoderStep_counted known awake (by rw [encAhead, ahead]; decide) source mode, encAhead, ahead]
      rfl
    · rw [encoderStep_counted known awake (by rw [encAhead, behind]; decide) source mode, encAhead, behind]
      rfl
    · rw [encoderStep_counted known awake (by rw [encAhead, skipped]; decide) source mode, encAhead, skipped, encSkipped, onBridge_same, encTaken, onBridge_same]
      rfl
  case rests =>
    obtain ⟨_, _, _, _, _, _, ramped⟩ := rampTo_bridge b s.tbNow s
    refine ⟨_, bridgeStandstill_rests ⟨known, moving, duty, rest, .inl unwanted⟩ unwanted silent, ?_⟩
    rw [onBridge_same, standstill_bridge]
    refine ⟨?_, bit_setBit_same _ 7, rfl, ?_, fun m hm => ?_, ?_⟩
    · exact if_neg (Bool.eq_false_iff.1 uncut)
    · rw [ramped]
    · exact ((onBridge_other _ _ hm).trans (standstill_other hm)).trans (rampTo_other hm)
    · exact (onBridge_frame b _ _).after (by decide) (standstill_frame.after (by decide) ((rampTo_frame b _ s).sub (by decide)))
  case dwells =>
    refine ⟨_, bridgeStandstill_dwells ⟨known, moving, duty, rest, .inr differs⟩ wants uncut first unready, ?_⟩
    rw [onBridge_same, standstill_bridge]
    refine ⟨rfl, ?_, bit_setBit_same _ 7, fun m hm => ?_, ?_⟩
    · dsimp only
      rw [onBridge_tbNow, bCfg, standstill_bfA]
      rfl
    · exact ((onBridge_other _ _ hm).trans (standstill_other hm)).trans (rampTo_other hm)
    · exact (onBridge_frame b _ _).after (by decide) (standstill_frame.after (by decide) ((rampTo_frame b _ s).sub (by decide)))
  case dwellEnd =>
    refine ⟨_, dwellEnd_eq dwells, ?_⟩
    rw [onBridge_same, advTo_bridge]
    exact ⟨rfl, rfl, rfl, fun m hm => (onBridge_other _ _ hm).trans (advTo_bridge t s m), (onBridge_frame b _ _).after (by decide) ((advTo_frame t s).sub (by decide))⟩
  case brake =>
    rw [bridgeBrake_bridge]
    rfl

end Sys2Proof.Machine

namespace Sys2Proof.Machine

/-! ### Wakes (R593, R596) -/

/-- The record of a wake that wakes a parked device. -/
def wokenBy (code ix typ id : Nat) (s : State) : Rec :=
  [BitVec.ofNat 8 code, BitVec.ofNat 8 ix, BitVec.ofNat 8 typ, BitVec.ofNat 8 ((if s.pwr.entry ≠ 0 then 4 else s.pwr.state) + 8 * b2n true)] ++ le 6 s.parkTime ++ le 4 id ++ [0, 0]

/-- An enabled source wakes a parked device that nothing has woken: its record is the newest and the cause. -/
theorem deviceWake_woken {s : State} (code ix typ id : Nat) (parked : s.parked = true) (asleep : s.pwr.waking = false) (fresh : bit (rd s.pwr.wakeRec 3 1) 3 = false) :
    (deviceWake code ix typ id true s).pwr =
      { s.pwr with wakes := (putWake (wokenBy code ix typ id s) s.pwr.wakes).take 16, wakeRec := wokenBy code ix typ id s, waking := true } := by
  unfold deviceWake wokenBy
  simp only [parked, asleep, fresh, Bool.and_false, Bool.false_and, Bool.or_false, Bool.and_true, Bool.true_and, Bool.true_or, Bool.not_false, Bool.not_true, Bool.false_or,
    Bool.false_eq_true, if_false, if_true, onPwr_pwr]

theorem wokenBy_code (code ix typ id : Nat) (s : State) (h : code < 256) : rd (wokenBy code ix typ id s) 0 1 = code :=
  rd_field [] _ 1 0 code rfl h

theorem wokenBy_ix (code ix typ id : Nat) (s : State) (h : ix < 256) : rd (wokenBy code ix typ id s) 1 1 = ix :=
  rd_field [BitVec.ofNat 8 code] _ 1 1 ix rfl h

/-- Park time reads `pt`, and the level of WAKE pin `ix` is the one that wakes. -/
def pinSensed (ix pt : Nat) (s : State) : State :=
  onMon (fun m => { m with wake := if pwPol s.pwr.cfg ix then setBit m.wake ix else clrBit m.wake ix }) (parkTo pt s)

theorem pinSensed_frame (ix pt : Nat) (s : State) : Only [.anvil, .time] s (pinSensed ix pt s) :=
  (onMon_frame _ _).after (by decide) ((parkTo_frame pt s).sub (by decide))

theorem pinSensed_pwr (ix pt : Nat) (s : State) : (pinSensed ix pt s).pwr = s.pwr := rfl

theorem state_of_parked {s : State} (parked : s.parked = true) : s.pwr.state ≠ 4 := by
  unfold State.parked at parked
  simp only [Bool.or_eq_true, decide_eq_true_eq] at parked
  omega

theorem wakeEvent_pin {ix : Nat} (pt : Nat) {s : State} (pin : ix < 4) (powered : s.pwr.state ≠ 4) (enabled : pwPin s.pwr.cfg ix = true) :
    exec (.wakeEvent 3 ix pt) s = .next (deviceWake 3 ix 0 0 true (pinSensed ix pt s)) := by
  show execWakeEvent 3 ix pt s = _
  unfold execWakeEvent
  simp only [if_true, if_pos pin, enabled]
  exact if_neg powered

theorem wakeEvent_wakes {ix : Nat} (pt : Nat) {s : State} (pin : ix < 4) (parked : s.parked = true) (asleep : s.pwr.waking = false)
    (fresh : bit (rd s.pwr.wakeRec 3 1) 3 = false) (enabled : pwPin s.pwr.cfg ix = true) :
    ∃ u, exec (.wakeEvent 3 ix pt) s = .next u ∧ u.pwr.waking = true ∧ u.pwr.wakes = (putWake u.pwr.wakeRec s.pwr.wakes).take 16
      ∧ rd u.pwr.wakeRec 0 1 = 3 ∧ rd u.pwr.wakeRec 1 1 = ix ∧ u.pwr.state = s.pwr.state ∧ Only [.anvil, .time, .pwr] s u := by
  refine ⟨_, wakeEvent_pin pt pin (state_of_parked parked) enabled, ?_⟩
  rw [deviceWake_woken (s := pinSensed ix pt s) 3 ix 0 0 parked asleep fresh]
  exact ⟨rfl, rfl, wokenBy_code _ _ _ _ _ (by decide), wokenBy_ix _ _ _ _ _ (by omega), rfl,
    (deviceWake_frame _ _ _ _ _ _).after (by decide) ((pinSensed_frame ix pt s).sub (by decide))⟩

/-! ### Sensor supplies (R579) -/

theorem snsFault_switchesOff {k : Nat} {s : State} (supply : k < 2) (on : snsRail s k ≠ 0) :
    exec (.snsFault k) s = .next (raise 0x183 k (snsRails (onPwr (fun p => { p with snsOff := p.snsOff.set k true }) s))) :=
  if_pos (by rw [decide_eq_true supply, decide_eq_true on]; rfl)

theorem snsFault_off {k : Nat} {s : State} (off : snsRail s k = 0) : exec (.snsFault k) s = .next s :=
  if_neg (by rw [decide_eq_false (not_not_intro off), Bool.and_false]; exact Bool.false_ne_true)

theorem snsRetry_switchesOn {k : Nat} {s : State} (supply : k < 2) (off : s.pwr.snsOff.getD k false = true) :
    exec (.snsRetry k) s = .next (snsRails (onPwr (fun p => { p with snsOff := p.snsOff.set k false }) s)) :=
  if_pos (by rw [decide_eq_true supply, off]; rfl)

/-! ### Hearth stops (R40, R87, R153, R600) -/

/-- Both Ethernet links go down. -/
def linksDown (s : State) : State := (List.range 2).foldl (fun s p => if (s.eth p).link then ethLost p s else s) s

/-- The batches of every context are discarded. -/
def batchesDropped (s : State) : State := (List.range 16).foldl (fun s c => dropBatches c s) s

/-- Hearth is in reset: nothing closed waits, no block is on its way, no snapshot is kept, no park entry is under way. -/
def heldInReset (s : State) : State :=
  onTime (fun t => { t with cmpHold := true })
    (clockSource (onPwr (fun p => { p with up := false, state := if p.state = 1 then 0 else p.state, entry := 0, next := none, abandon := none })
      { s with closed := [], blk := none, snaps := [] }))

theorem clockSource_down {s : State} (down : s.hearthUp = false) : (clockSource s).link.anvilLocalClk = true := by
  unfold clockSource State.linkOn
  rw [onLink_link, down]
  rfl

theorem heldInReset_anvilLocalClk (s : State) : (heldInReset s).link.anvilLocalClk = true := clockSource_down rfl

theorem heldInReset_cleared (s : State) : (heldInReset s).closed = [] ∧ (heldInReset s).blk = none ∧ (heldInReset s).snaps = [] ∧ (heldInReset s).time.cmpHold = true :=
  ⟨rfl, rfl, rfl, rfl⟩

theorem heldInReset_cx (s : State) (c : Nat) : (heldInReset s).cx c = s.cx c := rfl

theorem heldInReset_eth (s : State) (p : Nat) : (heldInReset s).eth p = s.eth p := rfl

section
variable {s : State}

theorem hearthHalt_up (up : s.hearthUp = true) : hearthHalt s = edgeGaps (heldInReset (batchesDropped (linksDown s))) :=
  if_neg (by rw [up]; exact Bool.false_ne_true)

theorem hearthHalt_down (down : s.hearthUp = false) : hearthHalt s = s := if_pos (by rw [down]; rfl)

theorem linksDown_frame (s : State) : Only [.ctxs, .bus] s (linksDown s) :=
  Only.foldl _ (fun s p => Only.ite (ethLost_frame p s) (Only.refl _ s)) _ (Only.refl _ s)

theorem linksDown_link {p : Nat} (port : p < 2) : ((linksDown s).eth p).link = false := by
  refine foldl_at (fun _ => True) (fun t => (t.eth p).link = false) _ p (fun t _ => ?_) (fun _ _ _ _ => trivial) (fun t q other down => ?_) _ (List.mem_range.2 port) List.nodup_range s trivial
  · split
    · exact (ethLost_drops p t).1
    · next down => exact Bool.eq_false_iff.2 down
  · obtain ⟨_, others, _⟩ := ethLost_drops q t
    split
    · rw [others p (Ne.symm other), down]
    · exact down

theorem batchesDropped_frame (s : State) : Only [.ctxs] s (batchesDropped s) := Only.foldl _ (fun s c => dropBatches_frame c s) _ (Only.refl _ s)

theorem batchesDropped_batch {c : Nat} (context : c < 16) : ((batchesDropped s).cx c).batch = none := by
  refine foldl_at (fun _ => True) (fun t => (t.cx c).batch = none) _ c (fun t _ => ?_) (fun _ _ _ _ => trivial) (fun t d other dropped => ?_) _ (List.mem_range.2 context) List.nodup_range s trivial
  · unfold dropBatches
    rw [onCtx_same]
  · unfold dropBatches
    rw [onCtx_other _ t (Ne.symm other), dropped]

theorem edgeGaps_cmpHold (held : s.time.cmpHold = true) : (edgeGaps s).time.cmpHold = true :=
  foldl_keeps (fun t => t.time.cmpHold = true) _ (fun t n h => by split <;> exact h) _ s held

theorem hearthHalt_pwr (up : s.hearthUp = true) :
    (hearthHalt s).pwr = { s.pwr with up := false, state := if s.pwr.state = 1 then 0 else s.pwr.state, entry := 0, next := none, abandon := none } := by
  have dropped : (batchesDropped (linksDown s)).pwr = s.pwr :=
    (batchesDropped_frame _ .pwr (by decide)).trans (linksDown_frame s .pwr (by decide))
  have kept : (hearthHalt s).pwr = (heldInReset (batchesDropped (linksDown s))).pwr := by
    rw [hearthHalt_up up]
    exact edgeGaps_frame _ .pwr (by decide)
  rw [kept, ← dropped]
  rfl

theorem hearthHalt_hearthUp (s : State) : (hearthHalt s).hearthUp = false := by
  unfold State.hearthUp
  cases up : s.hearthUp with
  | true => rw [hearthHalt_pwr up]
  | false =>
    rw [hearthHalt_down up]
    exact up

theorem hearthHalt_resetLow (s : State) : (hearthHalt s).pwr.resetLow = s.pwr.resetLow := by
  cases up : s.hearthUp with
  | true => rw [hearthHalt_pwr up]
  | false => rw [hearthHalt_down up]

theorem hearthHalt_discards (up : s.hearthUp = true) :
    let u := hearthHalt s
    u.hearthUp = false ∧ u.closed = [] ∧ u.blk = none ∧ u.snaps = [] ∧ (∀ c, c < 16 → (u.cx c).batch = none) ∧ (∀ p, p < 2 → (u.eth p).link = false) ∧ u.pwr.next = none
      ∧ u.pwr.entry = 0 ∧ u.link.anvilLocalClk = true ∧ u.time.cmpHold = true ∧ Only [.blk, .time, .ctxs, .link, .closed, .snaps, .bus, .pwr] s u := by
  have down := hearthHalt_hearthUp s
  have whole := hearthHalt_frame s
  have pwr := hearthHalt_pwr up
  dsimp only
  rw [hearthHalt_up up] at *
  have gaps := edgeGaps_frame (heldInReset (batchesDropped (linksDown s)))
  obtain ⟨closed, blk, snaps, held⟩ := heldInReset_cleared (batchesDropped (linksDown s))
  have link : (edgeGaps (heldInReset (batchesDropped (linksDown s)))).link = (heldInReset (batchesDropped (linksDown s))).link := gaps .link (by decide)
  refine ⟨down, (gaps .closed (by decide)).trans closed, (gaps .blk (by decide)).trans blk, (gaps .snaps (by decide)).trans snaps, fun c context => ?_, fun p port => ?_,
    by rw [pwr], by rw [pwr], ?_, edgeGaps_cmpHold held, whole⟩
  · rw [cx_of_frame gaps (by decide), heldInReset_cx]
    exact batchesDropped_batch context
  · rw [eth_of_frame gaps (by decide), heldInReset_eth, eth_of_frame (batchesDropped_frame (linksDown s)) (by decide)]
    exact linksDown_link port
  · rw [link]
    exact heldInReset_anvilLocalClk _

/-! ### Watchdogs and rails (R578, R601) -/

theorem mgmtWatchdog_restarts (up : s.hearthUp = true) : exec .mgmtWatchdog s = .next (bootFailed (restartNote 1 (hearthHalt s))) := congrArg _ (if_pos up)

theorem bellowsWatchdog_restarts (up : s.hearthUp = true) (linked : s.link.lost = false) (awake : s.parked = false) (silent : 20 ≤ s.anvil.quiet) :
    exec .bellowsWatchdog s = .next (onAnvil (fun a => { a with quiet := 0 }) (bootFailed (restartNote 2 (hearthHalt s)))) :=
  congrArg _ (if_pos (by rw [up, linked, awake, decide_eq_true silent]; rfl))

theorem bellowsWatchdog_waits (heard : s.anvil.quiet < 20) : exec .bellowsWatchdog s = .next s :=
  congrArg _ (if_neg (by rw [decide_eq_false (Nat.not_le.2 heard), Bool.and_false]; exact Bool.false_ne_true))

theorem railFault_restarts {r mv : Nat} (up : s.hearthUp = true) (bad : railBad r mv = true) :
    exec (.railFault r mv) s = .next (bootFailed (restartNote 3 (hearthHalt
      (raise 0x181 0 (onMon (fun m => { m with rails := [if r = 0 then mv else m.rails.getD 0 0, 0, 0, 0, 0] ++ m.rails.drop 5 }) s))))) :=
  if_pos (by rw [up, bad]; rfl)

/-! ### Crystals and RESET_N (R603, R604) -/

theorem xtal32Stop_raises (runs : s.pwr.xtal32 = true) : exec .xtal32Stop s = .next (raise 0x186 0 (onPwr (fun p => { p with xtal32 := false }) s)) := if_pos runs

theorem xtal25Stop_holds (powered : s.pwr.state ≠ 4) (runs : s.pwr.xtal25 = true) :
    exec .xtal25Stop s = .next (raise 0x185 0 (clockSource (onPwr (fun p => { p with xtal25 := false }) (hearthHalt s)))) :=
  if_pos (by rw [runs, decide_eq_true powered]; rfl)

theorem xtal25Restored_restarts (stopped : s.pwr.xtal25 = false) : exec .xtal25Restored s = .next (restartNote 7 (onPwr (fun p => { p with xtal25 := true }) s)) :=
  if_pos (by rw [stopped]; rfl)

/-- RESET_N is low from now on. -/
def resetSeen (s : State) : State := onMon (fun m => { m with resetN := false }) (onPwr (fun p => { p with resetLow := some s.tbNow }) s)

theorem resetNAssert_holds (powered : s.pwr.state ≠ 4) (high : s.pwr.resetLow = none) (awake : s.parked = false) :
    exec .resetNAssert s = .next (hearthHalt (resetSeen s)) := by
  have still : (resetSeen s).parked = false := awake
  refine (if_neg ?_).trans (congrArg _ (if_neg ?_))
  · rw [high, decide_eq_false powered]
    exact Bool.false_ne_true
  · change ¬ ((resetSeen s).parked && !(resetSeen s).hearthUp) = true
    rw [still]
    exact Bool.false_ne_true

/-- RESET_N is high again. -/
def resetGone (s : State) : State := onMon (fun m => { m with resetN := true }) (onPwr (fun p => { p with resetLow := none }) s)

theorem resetNRelease_eq {t : Tb} (low : s.pwr.resetLow = some t) :
    exec .resetNRelease s = .next (if s.parked && !s.pwr.waking then deviceWake 9 0 0 0 true (resetGone s) else restartNote 4 (resetGone s)) :=
  if_neg (by rw [low]; exact Bool.false_ne_true)

theorem resetStuck_limps {t : Tb} (low : s.pwr.resetLow = some t) (first : s.anvil.limp.stuck = false) :
    exec .resetStuck s =
      .next (raise 0x182 0 (limpInForce (onAnvil (fun a => { a with limp := { a.limp with stuck := true } }) (advTo (t + msTicks 2000) s)))) := by
  show execResetStuck s = _
  unfold execResetStuck
  rw [low]
  exact if_neg (by rw [first]; exact Bool.false_ne_true)

/-! ### Hearth starts (R594, R600) -/

/-- Nothing holds Hearth, which is not up, in reset (R603, R604, R616). -/
structure ReleaseDue (s : State) : Prop where
  down : s.hearthUp = false
  reset : s.pwr.resetLow = none
  clock : s.pwr.xtal25 = true
  supply : s.pwr.vpor = false
  powered : s.pwr.state ≠ 4
  checked : s.upd.verifying = false

/-- Where nothing else holds it, Hearth waits in park for a wake alone. -/
theorem ReleaseDue.waits_iff (due : ReleaseDue s) :
    (s.pwr.up || s.pwr.resetLow.isSome || !s.pwr.xtal25 || s.pwr.vpor || decide (s.pwr.state = 4) || s.upd.verifying || (s.parked && !s.pwr.waking)) = true
      ↔ s.parked = true ∧ s.pwr.waking = false := by
  obtain ⟨down, reset, clock, supply, powered, checked⟩ := due
  have held : s.pwr.up = false := down
  rw [held, reset, clock, supply, checked, decide_eq_false powered]
  simp

section
variable (pt enc : Nat) (bad : List Nat) (due : ReleaseDue s)
include due

theorem hearthResetRelease_awake (awake : s.parked = false) : exec (.hearthResetRelease pt enc bad) s = .next (hearthStart bad s) :=
  (if_neg (mt due.waits_iff.1 (by simp [awake]))).trans (if_neg (by simp [awake]))

theorem hearthResetRelease_wakes (parked : s.parked = true) (woken : s.pwr.waking = true) : exec (.hearthResetRelease pt enc bad) s =
    .next (encWake enc (hearthStart bad (inputsWake (restoreSave (restoreTb (max pt s.time.parkSeen) s))))) :=
  (if_neg (mt due.waits_iff.1 (by simp [woken]))).trans (if_pos parked)

theorem hearthResetRelease_waits (parked : s.parked = true) (asleep : s.pwr.waking = false) : exec (.hearthResetRelease pt enc bad) s = .next s :=
  if_pos (due.waits_iff.2 ⟨parked, asleep⟩)

end

end

/-- Hearth is up, with no block, snapshot or closed batch and its first commit point before it. -/
def startedUp (s : State) : State :=
  onPwr (fun p => { p with up := true, slept := [], entry := 0 }) { s with blk := none, snaps := [], closed := [], hmon := .initial, clk := { s.clk with commitFn := none } }

theorem startedUp_cleared (s : State) :
    (startedUp s).snaps = [] ∧ (startedUp s).closed = [] ∧ (startedUp s).blk = none ∧ (startedUp s).clk.commitFn = none := ⟨rfl, rfl, rfl, rfl⟩

theorem startedUp_pwr (s : State) : (startedUp s).pwr = { s.pwr with up := true, slept := [], entry := 0 } := rfl

theorem hearthStart_ends (bad : List Nat) (s : State) : ∃ t, hearthStart bad s = restartDone (serviceBind (clockSource (startedUp t))) := by
  unfold hearthStart
  extract_lets
  exact ⟨_, rfl⟩

theorem restartDone_pwr (s : State) : ∃ r, (restartDone s).pwr = { s.pwr with restart := r } := by
  unfold restartDone
  split
  · exact ⟨_, rfl⟩
  · exact ⟨none, completion_frame _ _ _ _ _ _ _ .pwr (by decide)⟩

/-- What a start of Hearth ends with leaves it up. -/
theorem startedUp_told (t : State) :
    let u := restartDone (serviceBind (clockSource (startedUp t)))
    u.hearthUp = true ∧ u.snaps = [] ∧ u.closed = [] ∧ u.blk = none ∧ u.clk.commitFn = none ∧ u.pwr.slept = [] ∧ u.pwr.entry = 0 := by
  have bound : Only [.ctxs, .link] (startedUp t) (serviceBind (clockSource (startedUp t))) := (serviceBind_frame _).after (by decide) ((clockSource_frame _).sub (by decide))
  obtain ⟨snaps, closed, blk, commit⟩ := startedUp_cleared t
  have power := startedUp_pwr t
  generalize startedUp t = s at *
  generalize serviceBind (clockSource s) = v at *
  obtain ⟨r, told⟩ := restartDone_pwr v
  have ended : Only [.ctxs, .link, .qf, .pwr] s (restartDone v) := (restartDone_frame v).after (by decide) (bound.sub (by decide))
  have clk : (restartDone v).clk = s.clk := ended .clk (by decide)
  have pwr : v.pwr = s.pwr := bound .pwr (by decide)
  unfold State.hearthUp
  dsimp only
  rw [told, pwr, power, clk]
  exact ⟨rfl, (ended .snaps (by decide)).trans snaps, (ended .closed (by decide)).trans closed, (ended .blk (by decide)).trans blk, commit, rfl, rfl⟩

theorem hearthStart_starts (bad : List Nat) (s : State) :
    let u := hearthStart bad s
    u.hearthUp = true ∧ u.snaps = [] ∧ u.closed = [] ∧ u.blk = none ∧ u.clk.commitFn = none ∧ u.pwr.slept = [] ∧ u.pwr.entry = 0 ∧ u.pending = s.pending := by
  have pending : (hearthStart bad s).pending = s.pending := hearthStart_frame bad s .pending (by decide)
  obtain ⟨t, ends⟩ := hearthStart_ends bad s
  rw [ends] at pending ⊢
  obtain ⟨up, snaps, closed, blk, commit, slept, entry⟩ := startedUp_told t
  exact ⟨up, snaps, closed, blk, commit, slept, entry, pending⟩

theorem restoreSave_restores {v : Save} {s : State} (saved : s.pwr.save = some v) :
    let u := restoreSave s
    u.com = v.com ∧ u.ctxs = v.ctxs ∧ u.fn = v.fn ∧ u.link.epoch = v.epoch ∧ u.time.cmp = v.time.cmp ∧ u.time.tmr = v.time.tmr ∧ u.time.cmpHold = true ∧ u.pwr.save = none
      ∧ Only [.com, .clk, .time, .ctxs, .qf, .link, .pwr] s u := by
  have frame := restoreSave_frame s
  dsimp only
  unfold restoreSave at *
  rw [saved] at *
  exact ⟨rfl, rfl, rfl, rfl, rfl, rfl, rfl, rfl, frame⟩

/-- Settles O46: each event by its equation, Hearth's reset and start by what the operations they are made of leave. -/
theorem wakesAndRestarts : Obligations.WakesAndRestarts := by
  refine ⟨fun ix pt s pin parked asleep fresh enabled => wakeEvent_wakes pt pin parked asleep fresh enabled, fun k s supply => ⟨snsFault_switchesOff supply, snsFault_off⟩,
    fun k s supply off => ⟨_, snsRetry_switchesOn supply off, rfl, rfl, (snsRails_frame _).after (by decide) ((onPwr_frame _ s).sub (by decide))⟩,
    fun s => xtal32Stop_raises, fun s up => ⟨mgmtWatchdog_restarts up, bellowsWatchdog_restarts up, bellowsWatchdog_waits, fun r mv => railFault_restarts up⟩,
    fun s => hearthHalt_discards, fun s powered => ⟨xtal25Stop_holds powered, xtal25Restored_restarts, fun high awake => ?assert, fun t low => ⟨fun wakes => ?restart, fun parked asleep => ?wake⟩⟩,
    fun t s => resetStuck_limps, fun pt enc bad s down reset clock supply powered checked => ?release, hearthStart_starts, fun v s => restoreSave_restores⟩
  case assert =>
    refine ⟨_, resetNAssert_holds powered high awake, hearthHalt_resetLow _, ?_, hearthHalt_hearthUp _, ?_⟩
    · exact congrArg (fun a : Anvil => a.mon.resetN) (hearthHalt_frame (resetSeen s) .anvil (by decide))
    · exact (hearthHalt_frame _).after (by decide) ((onMon_frame _ _).after (by decide) ((onPwr_frame _ s).sub (by decide)))
  case restart =>
    refine (resetNRelease_eq low).trans (congrArg _ (if_neg ?_))
    rcases wakes with awake | woken
    · simp [awake]
    · simp [woken]
  case wake => exact (resetNRelease_eq low).trans (congrArg _ (if_pos (by rw [parked, asleep]; rfl)))
  case release =>
    have due : ReleaseDue s := ⟨down, reset, clock, supply, powered, checked⟩
    exact ⟨hearthResetRelease_awake pt enc bad due, hearthResetRelease_wakes pt enc bad due, hearthResetRelease_waits pt enc bad due⟩

end Sys2Proof.Machine

namespace Sys2Proof.Machine

/-! ### Sinks: one rule per operation (R383, R395) -/

theorem onSink_same (n : Nat) (f : Sink → Sink) (s : State) : (onSink n f s).sink n = f (s.sink n) := tget_tmod_same sinkDef _ n f

theorem onSink_other {n m : Nat} (f : Sink → Sink) (s : State) (h : m ≠ n) : (onSink n f s).sink m = s.sink m := tget_tmod_other sinkDef _ f h

theorem sink_of_anvil {s t : State} (h : t.anvil = s.anvil) (n : Nat) : t.sink n = s.sink n := by
  unfold State.sink
  rw [h]

theorem advTo_sink (t : Tb) (s : State) (n : Nat) : (advTo t s).sink n = s.sink n := sink_of_anvil (advTo_anvil t s) n

theorem advTo_sfA (t : Tb) (s : State) (n : Nat) : (advTo t s).sfA n = s.sfA n := by
  unfold State.sfA
  rw [advTo_anvil]

theorem sinkCommanded_other {n m : Nat} {s : State} (h : m ≠ n) : (sinkCommanded n s).sink m = s.sink m := by
  unfold sinkCommanded
  split
  · rfl
  · exact onSink_other _ s h

/-- A value that reaches a sink is its executed value; what holds the sink stays. -/
theorem sinkTake_sink (n v : Nat) (s : State) : ∃ b next, (sinkTake n v s).sink n = { s.sink n with app := v, b := b, next := next, orphan := 0, holdEnd := none } := by
  unfold sinkTake
  dsimp only
  rw [onSink_same]
  split
  · exact ⟨_, _, rfl⟩
  · exact ⟨_, _, rfl⟩

theorem sinkTake_other {n m : Nat} (v : Nat) (s : State) (h : m ≠ n) : (sinkTake n v s).sink m = s.sink m := onSink_other _ s h

/-! ### Lighting opcodes (R380, R381, R386, R389, R391, R396) -/

/-- An LS_CONFIG whose record changes the one in force reassigns its sink (R165). -/
def sinkReassigned (n : Nat) (c : Rec) (s : State) : State := if s.com.lsCfgOf n = c then s else reassign 2 n s

theorem lsConfig_st (r : Req) (s : State) : (lsConfigSpec.run r s).st =
    onCom (fun m => { m with lsCfg := tput lsCfgReset m.lsCfg (unitIx r.b) (sub r.b 8 8) }) (sinkReassigned (unitIx r.b) (sub r.b 8 8) s) := rfl

section
variable {n : Nat} {c : Rec} {s : State}

theorem sinkReassigned_com : (sinkReassigned n c s).com = s.com := by
  unfold sinkReassigned
  split <;> rfl

theorem sinkReassigned_same : (sinkReassigned n c s).role (ukey 2 n) =
    { s.role (ukey 2 n) with gen := if s.com.lsCfgOf n = c then s.gen 2 n else nextGen (s.gen 2 n) } := by
  unfold sinkReassigned
  split
  · rfl
  · exact reassign_same 2 n s

theorem sinkReassigned_other {k : Nat} (h : k ≠ ukey 2 n) : (sinkReassigned n c s).role k = s.role k := by
  unfold sinkReassigned
  split
  · rfl
  · exact reassign_other 2 n s h

end

theorem lsConfig_takes (r : Req) (s : State) :
    let n := unitIx r.b
    let c := sub r.b 8 8
    let t := (lsConfigSpec.run r s).st
    t.com.lsCfgOf n = c ∧ t.gen 2 n = (if s.com.lsCfgOf n = c then s.gen 2 n else nextGen (s.gen 2 n)) ∧ t.owner 2 n = s.owner 2 n
      ∧ (∀ m, m ≠ n → t.com.lsCfgOf m = s.com.lsCfgOf m) ∧ (∀ k, k ≠ ukey 2 n → t.role k = s.role k) ∧ t.com.ls = s.com.ls ∧ Only [.roles, .com] s t := by
  intro n c t
  have com : t.com = { s.com with lsCfg := tput lsCfgReset s.com.lsCfg n c } := by
    show (lsConfigSpec.run r s).st.com = _
    rw [lsConfig_st, onCom_com, sinkReassigned_com]
  have role (k : Nat) : t.role k = (sinkReassigned n c s).role k := rfl
  have own := (role (ukey 2 n)).trans sinkReassigned_same
  refine ⟨?_, congrArg Role.gen own, by unfold State.owner; rw [own], fun m hm => ?_, fun k hk => (role k).trans (sinkReassigned_other hk), by rw [com], lsConfigSpec_frame r s⟩
  · rw [com]
    exact tget_tput_same lsCfgReset _ n c
  · rw [com]
    exact tget_tput_other lsCfgReset _ c hm

/-- The brightness of LS_SET: committed, its sink taken out of the staged ones and out of the pending lighting commit of its context (R381, R395). -/
def brightnessTaken (r : Req) (s : State) : State := lightDirect 1 (unitIx r.b) r.h.ctx r.h.seq
  (onCom (fun c => { c with ls := tput lsDef c.ls (unitIx r.b) (rd r.b 6 2), lsStaged := c.lsStaged.erase (unitIx r.b) }) s)

theorem lsSet_st (r : Req) (s : State) : (lsSetSpec.run r s).st = sinkCommanded (unitIx r.b) (brightnessTaken r s) := rfl

theorem lsSet_data (r : Req) (s : State) : (lsSetSpec.run r s).data = genOct (brightnessTaken r s) 2 (unitIx r.b) ++ le 2 (rd r.b 6 2) ++ le 4 r.eff.toNat := rfl

theorem lsSet_com (r : Req) (s : State) : (lsSetSpec.run r s).st.com =
    { s.com with ls := tput lsDef s.com.ls (unitIx r.b) (rd r.b 6 2), lsStaged := s.com.lsStaged.erase (unitIx r.b) } := by
  rw [lsSet_st]
  exact (sinkCommanded_frame _ _ .com (by decide)).trans (lightDirect_frame _ _ _ _ _ .com (by decide))

theorem lsSet_sink_other (r : Req) (s : State) {m : Nat} (h : m ≠ unitIx r.b) : (lsSetSpec.run r s).st.sink m = s.sink m := by
  rw [lsSet_st, sinkCommanded_other h]
  exact sink_of_anvil (lightDirect_frame _ _ _ _ _ .anvil (by decide)) m

theorem lsSet_answers (r : Req) (s : State) : rd (lsSetSpec.run r s).data 2 2 = rd r.b 6 2 ∧ rd (lsSetSpec.run r s).data 4 4 = r.eff.toNat := by
  rw [lsSet_data]
  refine ⟨?_, ?_⟩
  · rw [List.append_assoc]
    exact rd_field _ _ 2 2 _ (genOct_length _ _ _) (rd_lt r.b 6 2)
  · rw [← List.append_nil (le 4 _)]
    exact rd_field _ _ 4 4 _ (by simp [genOct_length, le_length]) r.eff.isLt

theorem lsSet_commits (r : Req) (s : State) :
    let n := unitIx r.b
    let x := lsSetSpec.run r s
    x.st.com.lsOf n = rd r.b 6 2 ∧ x.st.com.lsStaged = s.com.lsStaged.erase n ∧ (∀ m, m ≠ n → x.st.com.lsOf m = s.com.lsOf m ∧ x.st.sink m = s.sink m)
      ∧ x.st.com.lsCfg = s.com.lsCfg ∧ rd x.data 2 2 = rd r.b 6 2 ∧ rd x.data 4 4 = r.eff.toNat ∧ Only [.com, .anvil, .light] s x.st := by
  intro n x
  have com := lsSet_com r s
  obtain ⟨value, frame⟩ := lsSet_answers r s
  refine ⟨?_, by rw [com], fun m hm => ⟨?_, lsSet_sink_other r s hm⟩, by rw [com], value, frame, lsSetSpec_frame r s⟩
  · rw [com]
    exact tget_tput_same lsDef _ n _
  · rw [com]
    exact tget_tput_other lsDef _ _ hm

theorem lsClear_sink (r : Req) (s : State) : ∃ o h, (lsClearSpec.run r s).st.sink (unitIx r.b) =
    { s.sink (unitIx r.b) with flags := clrMask (s.sink (unitIx r.b)).flags (rd r.b 6 2), cOpen := o, cShort := h } :=
  ⟨_, _, onSink_same _ _ s⟩

theorem lightStage_stages (r : Req) (s : State) :
    let c := r.h.ctx
    let x := lightStageSpec.run r s
    x.st.stage c = (stageEntries r.b).foldl stageAdd (s.stage c) ∧ rd x.data 0 1 = (x.st.stage c).length % 256 ∧ (∀ d, d ≠ c → x.st.stage d = s.stage d) := by
  intro c x
  have set : x.st.stage c = (stageEntries r.b).foldl stageAdd (s.stage c) := tget_tput_same stageDef _ c _
  refine ⟨set, ?_, fun d hd => tget_tput_other stageDef _ _ hd⟩
  rw [set]
  exact rd_le 1 _ 1 [0, 0, 0] rfl

theorem lightDiscard_empties (r : Req) (s : State) :
    let c := r.h.ctx
    let y := lightDiscardSpec.run r s
    y.st.stage c = [] ∧ (∀ d, d ≠ c → y.st.stage d = s.stage d) :=
  ⟨tget_tput_same stageDef s.light.stages _ [], fun _ hd => tget_tput_other stageDef s.light.stages [] hd⟩

/-- The commit of LIGHT_COMMIT, its external messages on their way and its frame not yet known (R391, R394). -/
def commitMade (r : Req) (s : State) : LightCommit :=
  { seq := r.h.seq, entries := s.stage r.h.ctx, ext := (sendExt r.h.ctx (s.stage r.h.ctx) s).2, eff := r.eff,
    target := if r.h.targetFn = 0 then none else some r.h.targetFn, frame := none, applied := 0, stale := 0, dropped := 0 }

theorem lightCommit_light (r : Req) (s : State) : (lightCommitSpec.run r s).st.light =
    { s.light with stages := tput stageDef s.light.stages r.h.ctx [], commits := tput commitDef s.light.commits r.h.ctx (some (commitMade r s)) } := by
  have sent : (sendExt r.h.ctx (s.stage r.h.ctx) s).1.light = s.light := sendExt_frame _ _ s .light (by decide)
  rw [← sent]
  rfl

theorem lightCommit_moves (r : Req) (s : State) :
    let c := r.h.ctx
    let z := lightCommitSpec.run r s
    z.st.stage c = [] ∧ z.st.lightCommit c = some (commitMade r s) ∧ (∀ d, d ≠ c → z.st.stage d = s.stage d ∧ z.st.lightCommit d = s.lightCommit d) := by
  intro c z
  unfold State.stage State.lightCommit
  dsimp only [c, z]
  rw [lightCommit_light]
  dsimp only
  exact ⟨tget_tput_same stageDef _ _ _, tget_tput_same commitDef _ _ _, fun d hd => ⟨tget_tput_other stageDef _ _ hd, tget_tput_other commitDef s.light.commits _ hd⟩⟩

/-- Settles O34: the opcodes by the laws of acceptance, their effects by the rule of each opcode above. -/
theorem lightingOpcodes : Obligations.LightingOpcodes := by
  refine ⟨waits_of _ _ _ rfl rfl (fun _ _ _ => rfl), waits_of _ _ _ rfl rfl (fun _ _ _ => rfl), tells_of _ _ _ rfl (.inl rfl) rfl (fun _ _ _ => rfl),
    waits_of _ _ _ rfl rfl (fun _ _ _ => rfl), waits_of _ _ _ rfl rfl (fun _ _ _ => rfl), waits_of _ _ _ rfl rfl (fun _ _ _ => rfl), waits_of _ _ _ rfl rfl (fun _ _ _ => rfl),
    waits_of _ _ _ rfl rfl (fun _ _ _ => rfl), tells_of _ _ _ rfl (.inl rfl) rfl (fun _ _ _ => rfl), lsConfig_takes, lsSet_commits, fun r s => ?clear,
    fun r s => ⟨rfl, rfl, lightConfigSpec_frame r s⟩, fun r s => ?stages⟩
  case clear =>
    obtain ⟨_, _, cleared⟩ := lsClear_sink r s
    dsimp only
    rw [cleared]
    exact ⟨rfl, rfl, fun m hm => onSink_other _ _ hm, lsClearSpec_frame r s⟩
  case stages =>
    obtain ⟨staged, size, stageKept⟩ := lightStage_stages r s
    obtain ⟨emptied, discardKept⟩ := lightDiscard_empties r s
    obtain ⟨moved, commit, commitKept⟩ := lightCommit_moves r s
    exact ⟨staged, size, lightStageSpec_frame r s, emptied, lightDiscardSpec_frame r s, fun d hd => ⟨stageKept d hd, discardKept d hd, commitKept d hd⟩, moved,
      ⟨_, commit, rfl, rfl, rfl, rfl⟩, rfl, lightCommitSpec_frame r s⟩

end Sys2Proof.Machine

namespace Sys2Proof.Machine

/-! ### The sync point of lighting commits (R391, R393) -/

/-- Context `c` has a lighting commit that lands in the frame in progress. -/
def Lands (c : Nat) (s : State) : Prop := (s.lightCommit c).bind (·.frame) = some s.fn

theorem mem_of_tget {α : Type} {d : Nat → α} {t : Tab α} {i : Nat} (h : tget d t i ≠ d i) : (i, tget d t i) ∈ t := by
  induction t with
  | nil => exact absurd rfl h
  | cons e r ih =>
    obtain ⟨j, v⟩ := e
    have read : tget d ((j, v) :: r) i = if i = j then v else tget d r i := rfl
    by_cases same : i = j
    · rw [read, if_pos same, same]
      exact List.mem_cons_self
    · rw [read, if_neg same] at h ⊢
      exact List.mem_cons_of_mem _ (ih h)

theorem Lands.listed {c : Nat} {s : State} (lands : Lands c s) :
    s.light.commits.any (fun e => (e.2.bind (·.frame)) = some s.fn) = true := by
  have held : tget commitDef s.light.commits c ≠ commitDef c := by
    intro empty
    have none_ : s.lightCommit c = none := empty
    rw [Lands, none_] at lands
    exact Option.some_ne_none _ lands.symm
  exact List.any_eq_true.2 ⟨_, mem_of_tget held, decide_eq_true lands⟩

theorem Lands.hasData {c : Nat} {s : State} (lands : Lands c s) : ∃ d, syncData s = some d := by
  unfold syncData
  rw [if_pos lands.listed]
  split
  · split
    · exact ⟨_, rfl⟩
    · exact ⟨_, rfl⟩
  · exact ⟨_, rfl⟩

/-- A staged sink at the sync point: it takes its committed value unless something holds it (R391). -/
def sinkSynced (s : State) (n : Nat) : State :=
  if (s.sink n).safe || (s.sink n).shortOff || (s.sink n).app = s.anvil.vals.lsOf n then s else sinkTake n (s.anvil.vals.lsOf n) s

/-- The staged sinks at the sync point; none is staged any more. -/
def sinksSynced (s : State) : State := onAnvil (fun a => { a with vals := { a.vals with lsStaged := [] } }) (s.anvil.vals.lsStaged.foldl sinkSynced s)

/-- The sync data `d` become those of the frame in progress (R393). -/
def syncTaken (d : Rec) (s : State) : State := onLight (fun x => { x with syncSeq := x.syncSeq + 1, sync := some (s.fn, d) }) s

/-- The sync frame goes to each CAN port that takes part by the record `g` (R392). -/
def syncSent (g d : Rec) (s : State) : State :=
  (List.range 8).foldl (fun s p => if bit (gfCanPorts g) p then admitEntry (lightQ p) (canEntry (gfCanFmt g) (gfCanFd g) (gfCanId g) syncTag d) s else s) s

/-- The commit of context `c` ends with its COMPLETION. -/
def commitEnded (s : State) (c : Nat) : State :=
  match s.lightCommit c with
  | none => s
  | some k =>
    let cnt (v : Nat) : Octet := BitVec.ofNat 8 (k.ext.filter (· = v)).length
    let s := onLight (fun x => { x with commits := tput commitDef x.commits c none }) s
    completion c k.seq 0x5006 .ok 0 (le 4 s.fn.toNat ++ [BitVec.ofNat 8 k.applied, BitVec.ofNat 8 k.stale, BitVec.ofNat 8 k.dropped, cnt 1, cnt 2, cnt 3 + cnt 0,
      s.light.syncSeq, 0]) s

/-- The contexts whose commit lands in the frame in progress. -/
def landing (s : State) : List Nat := (List.range 16).filter (fun c => ((s.lightCommit c).bind (·.frame)) = some s.fn)

theorem mem_landing {c : Nat} {s : State} : c ∈ landing s ↔ c < 16 ∧ Lands c s := by
  simp [landing, Lands]

/-- The state at the sync point with the sinks taken and the sync data those of this frame. -/
def syncPoint (d : Rec) (s : State) : State := syncTaken d (sinksSynced (atTick (200 * gfSlot s.com.lightCfg) s))

theorem lightSync_eq (s : State) : exec .lightSync s = match landing s, syncData s with
    | _ :: _, some d => .next ((landing s).foldl commitEnded (syncSent s.com.lightCfg d (syncPoint d s)))
    | _, _ => .next s := rfl

theorem lightSync_lands {c : Nat} {d : Rec} {s : State} (known : c < 16) (lands : Lands c s) (data : syncData s = some d) :
    exec .lightSync s = .next ((landing s).foldl commitEnded (syncSent s.com.lightCfg d (syncPoint d s))) := by
  have member : c ∈ landing s := mem_landing.2 ⟨known, lands⟩
  rw [lightSync_eq, data]
  cases listed : landing s with
  | nil => exact absurd (listed ▸ member) List.not_mem_nil
  | cons e l => rfl

theorem lightSync_idle {s : State} (idle : ∀ c, c < 16 → ¬ Lands c s) : exec .lightSync s = .next s := by
  have none_ : landing s = [] := List.eq_nil_iff_forall_not_mem.2 fun c member => idle c (mem_landing.1 member).1 (mem_landing.1 member).2
  rw [lightSync_eq, none_]

/-- A fold reaches what the step of one element brings and every step keeps, where each step keeps what that one step needs. -/
theorem foldl_reaches {α β : Type} (P Q : α → Prop) (f : α → β → α) (p : β) (brings : ∀ a, P a → Q (f a p)) (keepsP : ∀ a b, P a → P (f a b))
    (keepsQ : ∀ a b, Q a → Q (f a b)) {l : List β} (member : p ∈ l) (a : α) (h : P a) : Q (l.foldl f a) := by
  obtain ⟨before, after, rfl⟩ := List.append_of_mem member
  rw [List.foldl_append, List.foldl_cons]
  exact foldl_keeps Q f keepsQ after _ (brings _ (foldl_keeps P f keepsP before a h))

/-! ### The staged sinks at the sync point (R383, R388, R391) -/

/-- Nothing holds sink `n`, and the values Anvil executes are `v`. -/
structure SinkFree (n : Nat) (v : Com) (s : State) : Prop where
  safe : (s.sink n).safe = false
  shortOff : (s.sink n).shortOff = false
  vals : s.anvil.vals = v

section
variable {n a : Nat} {v : Com} {s : State}

theorem sinkSynced_other (h : n ≠ a) : (sinkSynced s a).sink n = s.sink n := by
  unfold sinkSynced
  split
  · rfl
  · exact sinkTake_other _ s h

theorem sinkSynced_vals : (sinkSynced s a).anvil.vals = s.anvil.vals := by
  unfold sinkSynced
  split <;> rfl

theorem sinkSynced_holds : ((sinkSynced s a).sink n).safe = (s.sink n).safe ∧ ((sinkSynced s a).sink n).shortOff = (s.sink n).shortOff := by
  by_cases h : n = a
  · subst h
    unfold sinkSynced
    split
    · exact ⟨rfl, rfl⟩
    · obtain ⟨_, _, taken⟩ := sinkTake_sink n (s.anvil.vals.lsOf n) s
      rw [taken]
      exact ⟨rfl, rfl⟩
  · rw [sinkSynced_other h]
    exact ⟨rfl, rfl⟩

theorem SinkFree.synced (free : SinkFree n v s) : SinkFree n v (sinkSynced s a) :=
  ⟨sinkSynced_holds.1.trans free.safe, sinkSynced_holds.2.trans free.shortOff, sinkSynced_vals.trans free.vals⟩

theorem SinkFree.takes (free : SinkFree n v s) : ((sinkSynced s n).sink n).app = v.lsOf n := by
  unfold sinkSynced
  rw [free.safe, free.shortOff, free.vals, Bool.false_or, Bool.false_or]
  split
  next same => exact of_decide_eq_true same
  next =>
    obtain ⟨_, _, taken⟩ := sinkTake_sink n (v.lsOf n) s
    rw [taken]

/-- A free sink that has taken its value keeps it. -/
theorem sinkSynced_app (free : SinkFree n v s) (taken : (s.sink n).app = v.lsOf n) : ((sinkSynced s a).sink n).app = v.lsOf n := by
  by_cases h : n = a
  · subst h
    exact free.takes
  · rw [sinkSynced_other h, taken]

end

section
variable {s : State}

theorem sinksSynced_sink (n : Nat) : (sinksSynced s).sink n = (s.anvil.vals.lsStaged.foldl sinkSynced s).sink n := rfl

theorem sinksSynced_staged {n : Nat} (staged : n ∈ s.anvil.vals.lsStaged) (safe : (s.sink n).safe = false) (shortOff : (s.sink n).shortOff = false) :
    ((sinksSynced s).sink n).app = s.anvil.vals.lsOf n := by
  have reached := foldl_reaches (SinkFree n s.anvil.vals) (fun t => SinkFree n s.anvil.vals t ∧ (t.sink n).app = s.anvil.vals.lsOf n) sinkSynced n
    (fun _ free => ⟨free.synced, free.takes⟩) (fun _ _ free => free.synced) (fun _ _ ⟨free, taken⟩ => ⟨free.synced, sinkSynced_app free taken⟩) staged s ⟨safe, shortOff, rfl⟩
  rw [sinksSynced_sink]
  exact reached.2

theorem sinksSynced_unstaged {n : Nat} (unstaged : n ∉ s.anvil.vals.lsStaged) : (sinksSynced s).sink n = s.sink n := by
  rw [sinksSynced_sink]
  exact List.foldlRecOn (motive := fun t : State => t.sink n = s.sink n) _ sinkSynced rfl fun _ kept _ member => (sinkSynced_other (ne_of_mem_of_not_mem member unstaged).symm).trans kept

theorem sinksSynced_lsStaged : (sinksSynced s).anvil.vals.lsStaged = [] := by
  unfold sinksSynced
  rw [onAnvil_anvil]

theorem sinksSynced_frame : Only [.anvil] s (sinksSynced s) := by
  refine (onAnvil_frame _ _).after (by decide) (Only.foldl _ (fun t a => ?_) _ (Only.refl _ s))
  exact Only.ite (Only.refl _ t) (sinkTake_frame _ _ t)

/-! ### The commits and the sync data at the sync point (R391, R393) -/

theorem syncSent_frame (g d : Rec) : Only [.qf] s (syncSent g d s) :=
  Only.foldl _ (fun t _ => Only.ite (admitEntry_frame _ _ t) (Only.refl _ t)) _ (Only.refl _ s)

theorem commitEnded_frame (c : Nat) : Only [.qf, .light] s (commitEnded s c) := by
  unfold commitEnded
  split
  · exact Only.refl _ s
  · exact (completion_frame _ _ _ _ _ _ _).after (by decide) ((onLight_frame _ s).sub (by decide))

/-- A commit that ends is taken out of the table of commits; a context without one leaves the engine as it is. -/
theorem commitEnded_light (c : Nat) : (s.lightCommit c = none ∧ (commitEnded s c).light = s.light)
    ∨ (commitEnded s c).light = { s.light with commits := tput commitDef s.light.commits c none } := by
  unfold commitEnded
  split
  next none_ => exact .inl ⟨none_, rfl⟩
  next => exact .inr (completion_frame _ _ _ _ _ _ _ .light (by decide))

theorem commitEnded_same (c : Nat) : (commitEnded s c).lightCommit c = none := by
  unfold State.lightCommit
  rcases commitEnded_light c with ⟨none_, kept⟩ | ended
  · rw [kept]
    exact none_
  · rw [ended]
    exact tget_tput_same commitDef _ c none

theorem commitEnded_other {c e : Nat} (h : e ≠ c) : (commitEnded s c).lightCommit e = s.lightCommit e := by
  unfold State.lightCommit
  rcases commitEnded_light c with ⟨_, kept⟩ | ended
  · rw [kept]
  · rw [ended]
    exact tget_tput_other commitDef _ none h

theorem commitEnded_none {c e : Nat} (h : s.lightCommit e = none) : (commitEnded s c).lightCommit e = none := by
  by_cases same : e = c
  · subst same
    exact commitEnded_same e
  · rw [commitEnded_other same, h]

/-- The end of a commit leaves the sync data. -/
theorem commitEnded_sync (c : Nat) : (commitEnded s c).light.syncSeq = s.light.syncSeq ∧ (commitEnded s c).light.sync = s.light.sync := by
  rcases commitEnded_light c with ⟨_, kept⟩ | ended
  · rw [kept]
    exact ⟨rfl, rfl⟩
  · rw [ended]
    exact ⟨rfl, rfl⟩

end

section
variable {l : List Nat} {s : State}

theorem commitsEnded_member {c : Nat} (member : c ∈ l) : (l.foldl commitEnded s).lightCommit c = none :=
  foldl_reaches (fun _ => True) (fun t : State => t.lightCommit c = none) commitEnded c (fun _ _ => commitEnded_same c) (fun _ _ _ => trivial) (fun _ _ => commitEnded_none) member s trivial

theorem commitsEnded_other {e : Nat} (other : e ∉ l) : (l.foldl commitEnded s).lightCommit e = s.lightCommit e :=
  List.foldlRecOn (motive := fun t : State => t.lightCommit e = s.lightCommit e) l commitEnded rfl fun _ kept _ member =>
    (commitEnded_other (ne_of_mem_of_not_mem member other).symm).trans kept

theorem commitsEnded_sync : (l.foldl commitEnded s).light.syncSeq = s.light.syncSeq ∧ (l.foldl commitEnded s).light.sync = s.light.sync :=
  foldl_keeps (fun t : State => t.light.syncSeq = s.light.syncSeq ∧ t.light.sync = s.light.sync) commitEnded
    (fun _ c ⟨seq, data⟩ => ⟨(commitEnded_sync c).1.trans seq, (commitEnded_sync c).2.trans data⟩) l s ⟨rfl, rfl⟩

theorem commitsEnded_frame : Only [.qf, .light] s (l.foldl commitEnded s) := Only.foldl _ (fun _ c => commitEnded_frame c) l (Only.refl _ s)

end

section
variable {d : Rec} {s : State}

theorem sinksReached_frame : Only [.anvil, .time, .qf] s (sinksSynced (atTick (200 * gfSlot s.com.lightCfg) s)) :=
  sinksSynced_frame.after (by decide) ((atTick_frame _ s).sub (by decide))

theorem syncPoint_light : (syncPoint d s).light = { s.light with syncSeq := s.light.syncSeq + 1, sync := some (s.fn, d) } := by
  have light := sinksReached_frame (s := s) .light (by decide)
  have clk := sinksReached_frame (s := s) .clk (by decide)
  unfold syncPoint syncTaken State.fn
  rw [onLight_light, light, clk]

/-- Up to the sync point no sink changes. -/
theorem syncPoint_anvil : ∃ t : State, t.anvil = s.anvil ∧ (syncPoint d s).anvil = (sinksSynced t).anvil :=
  ⟨_, atTick_frame _ s .anvil (by decide), rfl⟩

theorem syncPoint_frame : Only [.anvil, .time, .qf, .light] s (syncPoint d s) :=
  (onLight_frame _ _).after (by decide) (sinksReached_frame.sub (by decide))

end

/-- LIGHT_SYNC where a commit lands: what stands after it of the engine and at Anvil is that of the sync point, but for the commits that end. -/
theorem lightSync_takes {c : Nat} {s : State} (known : c < 16) (lands : Lands c s) :
    ∃ d t, syncData s = some d ∧ exec .lightSync s = .next t ∧ t.light.syncSeq = s.light.syncSeq + 1 ∧ t.light.sync = some (s.fn, d) ∧ t.anvil.vals.lsStaged = []
      ∧ t.lightCommit c = none
      ∧ (∀ e, ((s.lightCommit e).bind (·.frame)) ≠ some s.fn → t.lightCommit e = s.lightCommit e)
      ∧ (∀ n, n ∈ s.anvil.vals.lsStaged → (s.sink n).safe = false → (s.sink n).shortOff = false → (t.sink n).app = s.anvil.vals.lsOf n)
      ∧ (∀ n, n ∉ s.anvil.vals.lsStaged → t.sink n = s.sink n) ∧ Only [.anvil, .time, .qf, .light] s t := by
  obtain ⟨d, data⟩ := lands.hasData
  refine ⟨d, _, data, lightSync_lands known lands data, ?_⟩
  have sent := syncSent_frame (s := syncPoint d s) s.com.lightCfg d
  have light := (sent .light (by decide)).trans syncPoint_light
  have ended := commitsEnded_frame (l := landing s) (s := syncSent s.com.lightCfg d (syncPoint d s))
  obtain ⟨seq, sync⟩ := commitsEnded_sync (l := landing s) (s := syncSent s.com.lightCfg d (syncPoint d s))
  obtain ⟨v, reached, taken⟩ := syncPoint_anvil (d := d) (s := s)
  have anvil := ((ended .anvil (by decide)).trans (sent .anvil (by decide))).trans taken
  have sink (n : Nat) : v.sink n = s.sink n := sink_of_anvil reached n
  refine ⟨?_, ?_, ?_, commitsEnded_member (mem_landing.2 ⟨known, lands⟩), fun e stands => ?_, fun n staged safe shortOff => ?_, fun n unstaged => ?_,
    ended.after (by decide) (sent.after (by decide) syncPoint_frame)⟩
  · rw [seq, light]
  · rw [sync, light]
  · rw [anvil, sinksSynced_lsStaged]
  · rw [commitsEnded_other fun member => stands (mem_landing.1 member).2]
    unfold State.lightCommit
    rw [light]
  · rw [sink_of_anvil anvil, ← reached]
    rw [← reached] at staged
    rw [← sink n] at safe shortOff
    exact sinksSynced_staged staged safe shortOff
  · rw [sink_of_anvil anvil, ← sink n]
    rw [← reached] at unstaged
    exact sinksSynced_unstaged unstaged

/-! ### Pulse periods (R382, R383) -/

/-- A sink at the start of a pulse period: a value that waited takes effect. -/
def Sink.periodBegun (start : Tb) (k : Sink) : Sink := { k with b := k.next.getD k.b, next := none, pulseTb := some start }

/-- A sink at the start of a period of `p.2` ticks at `p.1`: in its pulsed branch it begins a pulse (R382). -/
def Sink.pulsed (c : Rec) (p : Tb × Nat) (k : Sink) : Sink :=
  let k := k.periodBegun p.1
  { k with pulseEnd := if sinkBranch c k = 2 && pulseTicks c k.b p.2 ≠ 0 then some (p.1 + BitVec.ofNat 48 (pulseTicks c k.b p.2)) else none }

theorem ledPulsePeriodStart_eq {n : Nat} {s : State} (known : n < 36) (hybrid : sfHybrid (s.sfA n) = true) :
    let p := pulseStart s n (if (s.sink n).pulseTb = some s.tbNow then s.tbNow + 1 else s.tbNow)
    exec (.ledPulsePeriodStart n) s = .next (onSink n (Sink.pulsed (s.sfA n) p) (advTo p.1 s)) := by
  intro p
  have runs : ¬ (decide (n ≥ 36) || !(sfHybrid (s.sfA n))) = true := by
    rw [hybrid, decide_eq_false (Nat.not_le.2 known)]
    decide
  rw [← advTo_sfA p.1 s n]
  show execLedPulsePeriodStart n s = _
  unfold execLedPulsePeriodStart
  exact if_neg runs

section
variable {c : Rec} {p : Tb × Nat} {k : Sink}

theorem sinkBranch_dark (h : k.b = 0) : sinkBranch c k = 0 := if_pos (by rw [h, decide_eq_true rfl, Bool.or_true])

theorem Sink.pulsed_dark (h : (k.pulsed c p).b = 0) : (k.pulsed c p).pulseEnd = none := by
  have branch : sinkBranch c (k.periodBegun p.1) = 0 := sinkBranch_dark h
  unfold Sink.pulsed
  dsimp only
  rw [branch]
  rfl

theorem Sink.pulsed_lit (branch : sinkBranch c (k.periodBegun p.1) = 2) (on : pulseTicks c (k.next.getD k.b) p.2 ≠ 0) :
    (k.pulsed c p).pulseEnd = some (p.1 + BitVec.ofNat 48 (pulseTicks c (k.next.getD k.b) p.2)) :=
  if_pos (by rw [branch, Bool.and_eq_true]; exact ⟨rfl, decide_eq_true on⟩)

end

/-- Settles O35: LIGHT_SYNC by its two equations, the pulse period by what the operation does to its sink. -/
theorem lightingEvents : Obligations.LightingEvents := by
  refine ⟨fun c s => lightSync_takes, fun s => lightSync_idle, fun n s known hybrid => ?period⟩
  case period =>
    refine ⟨_, ledPulsePeriodStart_eq known hybrid, ?_⟩
    rw [onSink_same, advTo_sink]
    exact ⟨rfl, rfl, rfl, Sink.pulsed_dark, Sink.pulsed_lit, fun m hm => (onSink_other _ _ hm).trans (advTo_sink _ s m),
      (onSink_frame n _ _).after (by decide) ((advTo_frame _ s).sub (by decide))⟩

end Sys2Proof.Machine

namespace Sys2Proof

/-! ### The words of the Cesyn instructions (R414) -/

/-- The instruction is what its word, of 24 bits, and its extension word spell, where it has words. -/
def SpelledByItsWords (i : Instr) : Prop := ∀ e, encodeCesyn i = some e → e.1 < 2 ^ 24 ∧ ∃ op cut, decodeCesyn op cut e.1 e.2 = some i

theorem spelled_of_noWord {i : Instr} (h : encodeCesyn i = none) : SpelledByItsWords i := fun _ encoded => by simp [h] at encoded

/-- A word of group `g` is spelled by its instruction where the decoder reads it back from the fields `r` below the group. -/
theorem spelled_of_group {i : Instr} {g r w : Nat} {x : W24} (op : CoreOp) (cut : Option Nat) (encoded : encodeCesyn i = some (w, x)) (layout : w = g * 262144 + r) (hg : g < 64)
    (hr : r < 262144) (decoded : ∀ v, v = g * 262144 + r → wordField v 18 6 = g → decodeCesyn op cut v x = some i) : SpelledByItsWords i := by
  intro e he
  obtain rfl := Option.some.inj (encoded.symm.trans he)
  exact ⟨by dsimp only; omega, op, cut, decoded w layout (by unfold wordField; omega)⟩

theorem wordSigned_encSigned {v : Int} {n : Nat} (lo : -(2 ^ n : Nat) ≤ 2 * v) (hi : 2 * v < (2 ^ n : Nat)) : wordSigned (encSigned v n) n = v := by
  unfold wordSigned encSigned
  generalize 2 ^ n = m at *
  rcases Int.lt_or_le v 0 with neg | pos
  · rw [← Int.add_emod_right, Int.emod_eq_of_lt (by omega) (by omega), if_neg (by omega)]
    omega
  · rw [Int.emod_eq_of_lt pos (by omega), if_pos (by omega)]
    omega

theorem encSigned_lt (v : Int) (n : Nat) : encSigned v n < 2 ^ n := by
  have positive : 0 < ((2 ^ n : Nat) : Int) := Int.natCast_pos.2 (Nat.two_pow_pos n)
  have below := Int.emod_lt_of_pos v positive
  have above := Int.emod_nonneg v positive.ne'
  unfold encSigned
  omega

theorem encBool_lt (b : Bool) : encBool b < 2 := by cases b <;> decide

section
variable {op : CoreOp} {i : Instr}

theorem sys_spelled {code : Nat} (h : code < 64)
    (encoded : encodeCesyn i = some (encWord 0 [(code, 12)], 0))
    (decoded : ∀ w, wordField w 0 12 = 0 → wordField w 12 6 = code → decodeSys op w = some i) :
    SpelledByItsWords i := by
  have layout : encWord 0 [(code, 12)] = 0 * 262144 + code * 4096 := by simp [encWord]
  refine spelled_of_group op none encoded layout (by decide) (by omega) fun w layout group => ?_
  unfold decodeCesyn
  rw [group]
  refine decoded w ?_ ?_ <;> (unfold wordField; omega)

theorem alu_spelled {code dd da db : Nat} (h : code < 16) (wf : (coreWf op && decide (dd < 8) && decide (da < 8) && decide (db < 8)) = true)
    (encoded : encodeCesyn i = encAlu code dd da db)
    (decoded : ∀ w, wordField w 0 5 = 0 → wordField w 14 4 = code → wordField w 11 3 = dd → wordField w 8 3 = da → wordField w 5 3 = db → decodeAlu op w = some i) :
    SpelledByItsWords i := by
  simp only [Bool.and_eq_true, decide_eq_true_eq] at wf
  have layout : encWord 16 [(code, 14), (dd, 11), (da, 8), (db, 5)] = 16 * 262144 + (code * 16384 + (dd * 2048 + (da * 256 + db * 32))) := by simp [encWord]
  refine spelled_of_group op none encoded layout (by decide) (by omega) fun w layout group => ?_
  unfold decodeCesyn
  rw [group]
  refine decoded w ?_ ?_ ?_ ?_ ?_ <;> (unfold wordField; omega)

theorem shift_spelled {code dd da n : Nat} (h : code < 8) (wf : (coreWf op && decide (dd < 8) && decide (da < 8) && decide (n < 32)) = true)
    (encoded : encodeCesyn i = encShift code dd da n)
    (decoded : ∀ w, wordField w 0 4 = 0 → wordField w 15 3 = code → wordField w 12 3 = dd → wordField w 9 3 = da → wordField w 4 5 = n → decodeShift op w = some i) :
    SpelledByItsWords i := by
  simp only [Bool.and_eq_true, decide_eq_true_eq] at wf
  have layout : encWord 17 [(code, 15), (dd, 12), (da, 9), (n, 4)] = 17 * 262144 + (code * 32768 + (dd * 4096 + (da * 512 + n * 16))) := by simp [encWord]
  refine spelled_of_group op none encoded layout (by decide) (by omega) fun w layout group => ?_
  unfold decodeCesyn
  rw [group]
  refine decoded w ?_ ?_ ?_ ?_ ?_ <;> (unfold wordField; omega)

theorem mul_spelled {code aa da db : Nat} (h : code < 16) (wf : (coreWf op && decide (aa < 4) && decide (da < 8) && decide (db < 8)) = true)
    (encoded : encodeCesyn i = encMul code aa da db)
    (decoded : ∀ w, wordField w 0 6 = 0 → wordField w 14 4 = code → wordField w 12 2 = aa → wordField w 9 3 = da → wordField w 6 3 = db → decodeMul op w = some i) :
    SpelledByItsWords i := by
  simp only [Bool.and_eq_true, decide_eq_true_eq] at wf
  have layout : encWord 18 [(code, 14), (aa, 12), (da, 9), (db, 6)] = 18 * 262144 + (code * 16384 + (aa * 4096 + (da * 512 + db * 64))) := by simp [encWord]
  refine spelled_of_group op none encoded layout (by decide) (by omega) fun w layout group => ?_
  unfold decodeCesyn
  rw [group]
  refine decoded w ?_ ?_ ?_ ?_ ?_ <;> (unfold wordField; omega)

theorem acc_spelled {code aa am n : Nat} (h : code < 16) (ha : aa < 4) (hm : am < 4) (hn : n < 64)
    (encoded : encodeCesyn i = encAcc code aa am n)
    (decoded : ∀ w, wordField w 0 4 = 0 → wordField w 14 4 = code → wordField w 12 2 = aa → wordField w 10 2 = am → wordField w 4 6 = n → decodeAcc op w = some i) :
    SpelledByItsWords i := by
  have layout : encWord 19 [(code, 14), (aa, 12), (am, 10), (n, 4)] = 19 * 262144 + (code * 16384 + (aa * 4096 + (am * 1024 + n * 16))) := by simp [encWord]
  refine spelled_of_group op none encoded layout (by decide) (by omega) fun w layout group => ?_
  unfold decodeCesyn
  rw [group]
  refine decoded w ?_ ?_ ?_ ?_ ?_ <;> (unfold wordField; omega)

theorem accOne_spelled {code aa : Nat} (h : code < 16) (wf : (coreWf op && decide (aa < 4)) = true) (encoded : encodeCesyn i = encAcc code aa 0 0)
    (decoded : ∀ w, wordField w 0 4 = 0 → wordField w 14 4 = code → wordField w 12 2 = aa → decodeAcc op w = some i) : SpelledByItsWords i := by
  simp only [Bool.and_eq_true, decide_eq_true_eq] at wf
  exact acc_spelled h wf.2 (by decide) (by decide) encoded fun w low operation target _ _ => decoded w low operation target

theorem accTwo_spelled {code aa am : Nat} (h : code < 16) (wf : (coreWf op && decide (aa < 4) && decide (am < 4)) = true) (encoded : encodeCesyn i = encAcc code aa am 0)
    (decoded : ∀ w, wordField w 0 4 = 0 → wordField w 14 4 = code → wordField w 12 2 = aa → wordField w 10 2 = am → decodeAcc op w = some i) : SpelledByItsWords i := by
  simp only [Bool.and_eq_true, decide_eq_true_eq] at wf
  exact acc_spelled h wf.1.2 wf.2 (by decide) encoded fun w low operation target source _ => decoded w low operation target source

theorem asha_spelled {aa am : Nat} {n : Int} (wf : (Instr.asha op aa am n).wf = true) : SpelledByItsWords (.asha op aa am n) := by
  simp only [Instr.wf, Bool.and_eq_true, decide_eq_true_eq] at wf
  obtain ⟨⟨⟨⟨-, haa⟩, ham⟩, lo⟩, hi⟩ := wf
  have signed : wordSigned (encSigned n 6) 6 = n := wordSigned_encSigned (by omega) (by omega)
  exact acc_spelled (op := op) (code := 6) (by decide) haa ham (encSigned_lt n 6) rfl fun w low operation target source count => by
    simp [decodeAcc, low, operation, target, source, count, signed]

theorem br_spelled {cond : Nat} {off : Int} (wf : (Instr.br op cond off).wf = true) : SpelledByItsWords (.br op cond off) := by
  simp only [Instr.wf, Bool.and_eq_true, decide_eq_true_eq] at wf
  have small := encSigned_lt off 14
  have signed : wordSigned (encSigned off 14) 14 = off := wordSigned_encSigned (by omega) (by omega)
  have layout : encWord 1 [(cond, 14), (encSigned off 14, 0)] = 1 * 262144 + (cond * 16384 + encSigned off 14) := by simp [encWord]
  refine spelled_of_group op none rfl layout (by decide) (by omega) fun w layout group => ?_
  have condition : wordField w 14 4 = cond := by unfold wordField; omega
  have offset : wordField w 0 14 = encSigned off 14 := by unfold wordField; omega
  unfold decodeCesyn
  rw [group]
  simp only [decodeBr, condition, offset, signed]

theorem jump_spelled {code : Nat} (h : code < 2) (target : BitVec 16) (encoded : encodeCesyn i = some (encWord 2 [(code, 17)], target.zeroExtend 24))
    (decoded : ∀ w, wordField w 0 17 = 0 → wordField w 17 1 = code → decodeJmp op w (target.zeroExtend 24) = some i) : SpelledByItsWords i := by
  have layout : encWord 2 [(code, 17)] = 2 * 262144 + code * 131072 := by simp [encWord]
  refine spelled_of_group op none encoded layout (by decide) (by omega) fun w layout group => ?_
  unfold decodeCesyn
  rw [group]
  refine decoded w ?_ ?_ <;> (unfold wordField; omega)

theorem loopDo_spelled {reg : Bool} {dn count : Nat} {lend : BitVec 16} (wf : (Instr.loopDo op reg dn count lend).wf = true) : SpelledByItsWords (.loopDo op reg dn count lend) := by
  simp only [Instr.wf, Bool.and_eq_true, Bool.or_eq_true, Bool.not_eq_true', decide_eq_true_eq] at wf
  obtain ⟨⟨⟨-, hdn⟩, hcount⟩, hreg⟩ := wf
  have flagBit := encBool_lt reg
  have layout : encWord 3 [(encBool reg, 17), (dn, 14), (count, 0)] = 3 * 262144 + (encBool reg * 131072 + (dn * 16384 + count)) := by simp [encWord]
  refine spelled_of_group op none rfl layout (by decide) (by omega) fun w layout group => ?_
  have flag : wordField w 17 1 = encBool reg := by unfold wordField; omega
  have register : wordField w 14 3 = dn := by unfold wordField; omega
  have number : wordField w 0 14 = count := by unfold wordField; omega
  unfold decodeCesyn
  rw [group]
  cases reg with
  | false => simp [decodeDo, flag, register, number, encBool]
  | true =>
    obtain rfl : count = 0 := by simpa using hreg
    simp [decodeDo, flag, register, number, encBool]

theorem rep_spelled {reg : Bool} {dn count : Nat} (wf : (Instr.rep op reg dn count).wf = true) : SpelledByItsWords (.rep op reg dn count) := by
  simp only [Instr.wf, Bool.and_eq_true, Bool.or_eq_true, Bool.not_eq_true', decide_eq_true_eq] at wf
  obtain ⟨⟨⟨-, hdn⟩, hcount⟩, hreg⟩ := wf
  have flagBit := encBool_lt reg
  have layout : encWord 4 [(encBool reg, 17), (dn, 14), (count, 0)] = 4 * 262144 + (encBool reg * 131072 + (dn * 16384 + count)) := by simp [encWord]
  refine spelled_of_group op none rfl layout (by decide) (by omega) fun w layout group => ?_
  have flag : wordField w 17 1 = encBool reg := by unfold wordField; omega
  have register : wordField w 14 3 = dn := by unfold wordField; omega
  have between : wordField w 12 2 = 0 := by unfold wordField; omega
  have number : wordField w 0 12 = count := by unfold wordField; omega
  unfold decodeCesyn
  rw [group]
  cases reg with
  | false => simp [decodeRep, flag, register, between, number, encBool]
  | true =>
    obtain rfl : count = 0 := by simpa using hreg
    simp [decodeRep, flag, register, between, number, encBool]

theorem bmov_spelled {two : Bool} {ps pd dn : Nat} {cut : Option Nat} (wf : (Instr.bmov op two ps pd dn cut).wf = true) : SpelledByItsWords (.bmov op two ps pd dn cut) := by
  simp only [Instr.wf, Bool.and_eq_true, decide_eq_true_eq] at wf
  have flagBit := encBool_lt two
  have layout : encWord 5 [(encBool two, 17), (ps, 14), (pd, 11), (dn, 8)] = 5 * 262144 + (encBool two * 131072 + (ps * 16384 + (pd * 2048 + dn * 256))) := by simp [encWord]
  refine spelled_of_group op cut rfl layout (by decide) (by omega) fun w layout group => ?_
  have flag : wordField w 17 1 = encBool two := by unfold wordField; omega
  have source : wordField w 14 3 = ps := by unfold wordField; omega
  have target : wordField w 11 3 = pd := by unfold wordField; omega
  have number : wordField w 8 3 = dn := by unfold wordField; omega
  have low : wordField w 0 8 = 0 := by unfold wordField; omega
  unfold decodeCesyn
  rw [group]
  cases two <;> simp [decodeBmov, flag, source, target, number, low, encBool]

theorem bfly_spelled {dn : Nat} {scale : Bool} {cut : Option Nat} (wf : (Instr.bfly op dn scale cut).wf = true) : SpelledByItsWords (.bfly op dn scale cut) := by
  simp only [Instr.wf, Bool.and_eq_true, decide_eq_true_eq] at wf
  have flagBit := encBool_lt scale
  have layout : encWord 6 [(dn, 15), (encBool scale, 14)] = 6 * 262144 + (dn * 32768 + encBool scale * 16384) := by simp [encWord]
  refine spelled_of_group op cut rfl layout (by decide) (by omega) fun w layout group => ?_
  have flag : wordField w 14 1 = encBool scale := by unfold wordField; omega
  have number : wordField w 15 3 = dn := by unfold wordField; omega
  have low : wordField w 0 14 = 0 := by unfold wordField; omega
  unfold decodeCesyn
  rw [group]
  cases scale <;> simp [decodeBfly, flag, number, low, encBool]

/-- An address that takes no extension word has none. -/
theorem eaExtension_none {ea : Nat} {ext : W24} (h : 48 ≤ ea ∨ ext = 0) (plain : eaTakesExt ea = false) : 0 = ext :=
  (h.resolve_left (of_decide_eq_false plain)).symm

theorem mem_spelled {g code ea : Nat} {ext : W24} (wf : (coreWf op && decide (code < 64) && decide (ea < 64) && (decide (48 ≤ ea) || decide (ext = 0))) = true)
    (group : g < 64) (encoded : encodeCesyn i = some (encWord g [(code, 12), (ea, 6)], ext))
    (decoded : ∀ w, wordField w 18 6 = g → wordField w 0 6 = 0 → wordField w 12 6 = code → wordField w 6 6 = ea → (eaTakesExt ea = false → 0 = ext) →
      decodeCesyn op none w ext = some i) : SpelledByItsWords i := by
  simp only [Bool.and_eq_true, Bool.or_eq_true, decide_eq_true_eq] at wf
  obtain ⟨⟨⟨-, hc⟩, hea⟩, noExt⟩ := wf
  have layout : encWord g [(code, 12), (ea, 6)] = g * 262144 + (code * 4096 + ea * 64) := by simp [encWord]
  refine spelled_of_group op none encoded layout group (by omega) fun w layout group => ?_
  refine decoded w group ?_ ?_ ?_ (eaExtension_none noExt) <;> (unfold wordField; omega)

theorem mov_spelled {dst src : Nat} (wf : (Instr.mov op dst src).wf = true) : SpelledByItsWords (.mov op dst src) := by
  simp only [Instr.wf, Bool.and_eq_true, decide_eq_true_eq] at wf
  have layout : encWord 10 [(dst, 12), (src, 6)] = 10 * 262144 + (dst * 4096 + src * 64) := by simp [encWord]
  refine spelled_of_group op none rfl layout (by decide) (by omega) fun w layout group => ?_
  have target : wordField w 12 6 = dst := by unfold wordField; omega
  have source : wordField w 6 6 = src := by unfold wordField; omega
  have low : wordField w 0 6 = 0 := by unfold wordField; omega
  unfold decodeCesyn
  rw [group]
  simp [decodeMov, target, source, low]

theorem macx_spelled {mcode aa mx px my py : Nat} (wf : (Instr.macx op mcode aa mx px my py).wf = true) : SpelledByItsWords (.macx op mcode aa mx px my py) := by
  simp only [Instr.wf, Bool.and_eq_true, decide_eq_true_eq] at wf
  have layout : encWord 20 [(mcode, 15), (aa, 13), (mx, 10), (px, 8), (my, 5), ((py - 4), 3)] = 20 * 262144 + (mcode * 32768 + (aa * 8192 + (mx * 1024 + (px * 256 + (my * 32 + (py - 4) * 8))))) := by simp [encWord]
  refine spelled_of_group op none rfl layout (by decide) (by omega) fun w layout group => ?_
  have operation : wordField w 15 3 = mcode := by unfold wordField; omega
  have accumulator : wordField w 13 2 = aa := by unfold wordField; omega
  have modeX : wordField w 10 3 = mx := by unfold wordField; omega
  have pointerX : wordField w 8 2 = px := by unfold wordField; omega
  have modeY : wordField w 5 3 = my := by unfold wordField; omega
  have pointerY : wordField w 3 2 = py - 4 := by unfold wordField; omega
  have low : wordField w 0 3 = 0 := by unfold wordField; omega
  unfold decodeCesyn
  rw [group]
  have restored : 4 + (py - 4) = py := by omega
  simp [decodeMacx, operation, accumulator, modeX, pointerX, modeY, pointerY, restored, low]

end

/-- Every well-formed command is what its words spell, where it has words. -/
theorem spelled_of_wf {i : Instr} (wf : i.wf = true) : SpelledByItsWords i := by
  cases i with
  | nop op => exact sys_spelled (op := op) (code := 0) (by decide) rfl fun w low code => by simp [decodeSys, low, code]
  | tend op => exact sys_spelled (op := op) (code := 1) (by decide) rfl fun w low code => by simp [decodeSys, low, code]
  | ret op => exact sys_spelled (op := op) (code := 2) (by decide) rfl fun w low code => by simp [decodeSys, low, code]
  | rett op => exact sys_spelled (op := op) (code := 3) (by decide) rfl fun w low code => by simp [decodeSys, low, code]
  | br op cond off => exact br_spelled wf
  | jmp op target => exact jump_spelled (op := op) (code := 0) (by decide) target rfl fun w low code => by simp [decodeJmp, low, code]
  | call op target => exact jump_spelled (op := op) (code := 1) (by decide) target rfl fun w low code => by simp [decodeJmp, low, code]
  | loopDo op reg dn count lend => exact loopDo_spelled wf
  | rep op reg dn count => exact rep_spelled wf
  | bmov op two ps pd dn cut => exact bmov_spelled wf
  | bfly op dn scale cut => exact bfly_spelled wf
  | ld op code ea ext =>
    exact mem_spelled (g := 8) wf (by decide) rfl fun w group low register address x => by
      simpa [decodeCesyn, group, decodeMem, low, register, address] using x
  | st op code ea ext =>
    exact mem_spelled (g := 9) wf (by decide) rfl fun w group low register address x => by
      simpa [decodeCesyn, group, decodeMem, low, register, address] using x
  | mov op dst src => exact mov_spelled wf
  | add op dd da db => exact alu_spelled (code := 0) (by decide) wf rfl fun w low code d a b => by simp [decodeAlu, low, code, d, a, b]
  | sub op dd da db => exact alu_spelled (code := 1) (by decide) wf rfl fun w low code d a b => by simp [decodeAlu, low, code, d, a, b]
  | andC op dd da db => exact alu_spelled (code := 2) (by decide) wf rfl fun w low code d a b => by simp [decodeAlu, low, code, d, a, b]
  | orC op dd da db => exact alu_spelled (code := 3) (by decide) wf rfl fun w low code d a b => by simp [decodeAlu, low, code, d, a, b]
  | xor op dd da db => exact alu_spelled (code := 4) (by decide) wf rfl fun w low code d a b => by simp [decodeAlu, low, code, d, a, b]
  | cmp op da db => exact alu_spelled (op := op) (code := 5) (dd := 0) (by decide) (by simpa [Instr.wf] using wf) rfl fun w low code _ a b => by simp [decodeAlu, low, code, a, b]
  | adc op dd da db => exact alu_spelled (code := 6) (by decide) wf rfl fun w low code d a b => by simp [decodeAlu, low, code, d, a, b]
  | sbc op dd da db => exact alu_spelled (code := 7) (by decide) wf rfl fun w low code d a b => by simp [decodeAlu, low, code, d, a, b]
  | padd op dd da db => exact alu_spelled (code := 8) (by decide) wf rfl fun w low code d a b => by simp [decodeAlu, low, code, d, a, b]
  | psub op dd da db => exact alu_spelled (code := 9) (by decide) wf rfl fun w low code d a b => by simp [decodeAlu, low, code, d, a, b]
  | shl op dd da n => exact shift_spelled (code := 0) (by decide) wf rfl fun w low code d a n => by simp [decodeShift, low, code, d, a, n]
  | shr op dd da n => exact shift_spelled (code := 1) (by decide) wf rfl fun w low code d a n => by simp [decodeShift, low, code, d, a, n]
  | asr op dd da n => exact shift_spelled (code := 2) (by decide) wf rfl fun w low code d a n => by simp [decodeShift, low, code, d, a, n]
  | rol op dd da n => exact shift_spelled (code := 3) (by decide) wf rfl fun w low code d a n => by simp [decodeShift, low, code, d, a, n]
  | mpy op aa da db => exact mul_spelled (code := 0) (by decide) wf rfl fun w low code t a b => by simp [decodeMul, low, code, t, a, b]
  | mac op aa da db => exact mul_spelled (code := 1) (by decide) wf rfl fun w low code t a b => by simp [decodeMul, low, code, t, a, b]
  | msu op aa da db => exact mul_spelled (code := 2) (by decide) wf rfl fun w low code t a b => by simp [decodeMul, low, code, t, a, b]
  | mpyf op aa da db => exact mul_spelled (code := 3) (by decide) wf rfl fun w low code t a b => by simp [decodeMul, low, code, t, a, b]
  | macf op aa da db => exact mul_spelled (code := 4) (by decide) wf rfl fun w low code t a b => by simp [decodeMul, low, code, t, a, b]
  | msuf op aa da db => exact mul_spelled (code := 5) (by decide) wf rfl fun w low code t a b => by simp [decodeMul, low, code, t, a, b]
  | pmacu op aa da db => exact mul_spelled (code := 6) (by decide) wf rfl fun w low code t a b => by simp [decodeMul, low, code, t, a, b]
  | pmacs op aa da db => exact mul_spelled (code := 7) (by decide) wf rfl fun w low code t a b => by simp [decodeMul, low, code, t, a, b]
  | clr op aa => exact accOne_spelled (code := 0) (by decide) wf rfl fun w low code t => by simp [decodeAcc, low, code, t]
  | neg op aa => exact accOne_spelled (code := 1) (by decide) wf rfl fun w low code t => by simp [decodeAcc, low, code, t]
  | abs op aa => exact accOne_spelled (code := 2) (by decide) wf rfl fun w low code t => by simp [decodeAcc, low, code, t]
  | rnd op aa => exact accOne_spelled (code := 3) (by decide) wf rfl fun w low code t => by simp [decodeAcc, low, code, t]
  | adda op aa am => exact accTwo_spelled (code := 4) (by decide) wf rfl fun w low code t a => by simp [decodeAcc, low, code, t, a]
  | suba op aa am => exact accTwo_spelled (code := 5) (by decide) wf rfl fun w low code t a => by simp [decodeAcc, low, code, t, a]
  | asha op aa am n => exact asha_spelled wf
  | tfra op aa am => exact accTwo_spelled (code := 7) (by decide) wf rfl fun w low code t a => by simp [decodeAcc, low, code, t, a]
  | macx op mcode aa mx px my py => exact macx_spelled wf
  | _ => exact spelled_of_noWord rfl

/-! ### Words that are decoded (R414) -/

/-- What is decoded is a command that has words. -/
def Encodable (o : Option Instr) : Prop := ∀ i, o = some i → (encodeCesyn i).isSome = true

theorem encodable_none : Encodable none := fun _ h => by simp at h

theorem encodable_some {i : Instr} (h : (encodeCesyn i).isSome = true) : Encodable (some i) := fun _ e => Option.some.inj e ▸ h

theorem encodable_ite {c : Prop} [Decidable c] {a b : Option Instr} (ha : Encodable a) (hb : Encodable b) : Encodable (if c then a else b) := by
  split <;> assumption

section
variable (op : CoreOp) (cut : Option Nat) (w : Nat) (ext : W24)

theorem decodeSys_encodable : Encodable (decodeSys op w) := by
  refine encodable_ite encodable_none ?_
  split
  case h_5 => exact encodable_none
  all_goals exact encodable_some rfl

theorem decodeAlu_encodable : Encodable (decodeAlu op w) := by
  refine encodable_ite encodable_none ?_
  split
  case h_11 => exact encodable_none
  all_goals exact encodable_some rfl

theorem decodeShift_encodable : Encodable (decodeShift op w) := by
  refine encodable_ite encodable_none ?_
  split
  case h_5 => exact encodable_none
  all_goals exact encodable_some rfl

theorem decodeMul_encodable : Encodable (decodeMul op w) := by
  refine encodable_ite encodable_none ?_
  split
  case h_9 => exact encodable_none
  all_goals exact encodable_some rfl

theorem decodeAcc_encodable : Encodable (decodeAcc op w) := by
  refine encodable_ite encodable_none ?_
  split
  case h_9 => exact encodable_none
  all_goals exact encodable_some rfl

theorem decodeJmp_encodable : Encodable (decodeJmp op w ext) := encodable_ite encodable_none (encodable_ite (encodable_some rfl) (encodable_some rfl))

theorem decodeMem_encodable (store : Bool) : Encodable (decodeMem op store w ext) := encodable_ite encodable_none (encodable_ite (encodable_some rfl) (encodable_some rfl))

/-- Whatever is decoded has words: each group decodes to commands of its own. -/
theorem decodeCesyn_encodable : Encodable (decodeCesyn op cut w ext) := by
  unfold decodeCesyn
  split
  · exact decodeSys_encodable op w
  · exact encodable_some rfl
  · exact decodeJmp_encodable op w ext
  · exact encodable_ite encodable_none (encodable_some rfl)
  · exact encodable_ite encodable_none (encodable_some rfl)
  · exact encodable_ite encodable_none (encodable_some rfl)
  · exact encodable_ite encodable_none (encodable_some rfl)
  · exact decodeMem_encodable op w ext false
  · exact decodeMem_encodable op w ext true
  · exact encodable_ite encodable_none (encodable_some rfl)
  · exact decodeAlu_encodable op w
  · exact decodeShift_encodable op w
  · exact decodeMul_encodable op w
  · exact decodeAcc_encodable op w
  · exact encodable_ite encodable_none (encodable_some rfl)
  · exact encodable_none

end

/-- Settles O58: encoded words are read back field by field, decoded ones group by group. -/
theorem cesynDecodeOfEncode : Obligations.CesynDecodeOfEncode :=
  ⟨fun _ _ _ wf encoded => spelled_of_wf wf _ encoded, decodeCesyn_encodable⟩

end Sys2Proof

namespace Sys2Proof.Machine

/-! ### The step and the state after reset (R51, R62, R164) -/

/-- Settles O1: a step with a command in front takes it out of the queue and runs it. -/
theorem stepRunsTheCommandInFront : Obligations.StepRunsTheCommandInFront := fun _ _ _ => rfl

/-- After reset the tables of channels, sinks, bridges and roles are empty, so that each entry reads as its initial value. -/
theorem reset_reads (n t i : Nat) : State.reset.chan n = chanDef n ∧ State.reset.sink n = sinkDef n ∧ State.reset.bridge n = bridgeDef n
    ∧ State.reset.role (ukey t i) = Role.initial := ⟨rfl, rfl, rfl, rfl⟩

/-- After reset every context is at its initial value but for the configuration of the service context. -/
theorem reset_cx (c : Nat) : State.reset.cx c = { Ctx.initial with cfg := (State.reset.cx c).cfg } := by
  by_cases service : c = 1
  · subst service
    rfl
  · have unlisted : State.reset.cx c = ctxDef c := if_neg service
    rw [unlisted]
    rfl

/-- Settles O3: Anvil's epoch and frame stand in the reset state, the rest are initial values of its tables. -/
theorem resetLeavesWhatTheSpecStates : Obligations.ResetLeavesWhatTheSpecStates := by
  refine ⟨rfl, rfl, fun n => ?driven, fun c => ?sequences, fun t i => ?generation⟩
  case driven =>
    obtain ⟨channel, sink, bridge, -⟩ := reset_reads n 0 0
    rw [channel, sink, bridge]
    exact ⟨rfl, rfl, rfl, rfl⟩
  case sequences =>
    rw [reset_cx]
    exact ⟨rfl, rfl⟩
  case generation =>
    obtain ⟨-, -, -, role⟩ := reset_reads 0 t i
    exact congrArg Role.gen role

end Sys2Proof.Machine

namespace Sys2Proof.Machine

/-! ### Flags (R402, R405) -/

/-- A write of one status bit, read back bit by bit. -/
theorem setSt_st {i : Nat} (h : i < 24) (v : Bool) (k : Core) (b : Nat) : (setSt i v k).st.getLsbD b = if b = i then v else k.st.getLsbD b := by
  have mask : (BitVec.ofNat 24 (2 ^ i)).getLsbD b = decide (b = i) := by
    rw [BitVec.getLsbD_ofNat, Nat.testBit_two_pow, Bool.eq_iff_iff]
    simp only [Bool.and_eq_true, decide_eq_true_eq]
    omega
  have inWord : b < 24 ∨ k.st.getLsbD b = false := by
    by_cases hb : b < 24
    · exact .inl hb
    · exact .inr (BitVec.getLsbD_of_ge _ _ (by omega))
  unfold setSt
  generalize BitVec.ofNat 24 (2 ^ i) = m at mask
  cases v
  · rw [if_neg (by decide), BitVec.getLsbD_and, BitVec.getLsbD_not, mask]
    rcases inWord with hb | hb <;> by_cases same : b = i <;> simp [hb, same]
  · rw [if_pos rfl, BitVec.getLsbD_or, mask]
    by_cases same : b = i <;> simp [same]

@[simp] theorem stBit_setSt_same {i : Nat} (h : i < 24) (v : Bool) (k : Core) : stBit (setSt i v k) i = v := (setSt_st h v k i).trans (if_pos rfl)

theorem stBit_setSt_other {i j : Nat} (h : i < 24) (ne : j ≠ i) (v : Bool) (k : Core) : stBit (setSt i v k) j = stBit k j := (setSt_st h v k j).trans (if_neg ne)

/-- The flags that setZN leaves. -/
theorem setZN_bits (v : W24) (k : Core) : stBit (setZN v k) fZ = decide (v = 0) ∧ stBit (setZN v k) fN = v.msb
    ∧ ∀ j, j ≠ fZ → j ≠ fN → stBit (setZN v k) j = stBit k j := by
  unfold setZN
  refine ⟨stBit_setSt_same (by decide) _ _, ?_, fun j hz hn => ?_⟩
  · rw [stBit_setSt_other (by decide) (by decide), stBit_setSt_same (by decide)]
  · rw [stBit_setSt_other (by decide) hz, stBit_setSt_other (by decide) hn]

theorem stBit_goOn (pc : BitVec 16) (n : Nat) (k : Core) (j : Nat) : stBit (k.goOn pc n) j = stBit k j := rfl

theorem setD_flow (n : Nat) (v : W24) (k : Core) : FlowKept k (setD n v k) := ⟨rfl, rfl, rfl, rfl, rfl⟩

theorem setZN_flow (v : W24) (k : Core) : FlowKept k (setZN v k) := (setSt_flow (by decide) _ k).trans (setSt_flow (by decide) _ _)

theorem setSt_dr (i : Nat) (v : Bool) (k : Core) (j : Nat) : (setSt i v k).dr j = k.dr j := rfl

theorem setZN_dr (v : W24) (k : Core) (j : Nat) : (setZN v k).dr j = k.dr j := rfl

/-! ### A data register and its flags (R405) -/

section
variable {dd : Nat} {k k' : Core}

theorem AluTo.setD (v : W24) : AluTo dd k (setD dd v k) := ⟨rfl, fun _ h => setD_dr_other v k h, fun _ _ => rfl⟩

theorem AluTo.setSt {i : Nat} (h : i < 5) (v : Bool) (a : AluTo dd k k') : AluTo dd k (setSt i v k') := by
  obtain ⟨parts, registers, status⟩ := a
  refine ⟨congrArg (Machine.setSt i v) parts, registers, fun b hb => ?_⟩
  rw [setSt_st (by omega), if_neg (by omega)]
  exact status b hb

theorem AluTo.setZN (v : W24) (a : AluTo dd k k') : AluTo dd k (setZN v k') := (a.setSt (by decide) _).setSt (by decide) _

theorem AluTo.goOn (pc : BitVec 16) (n : Nat) (a : AluTo dd k k') : AluTo dd k (k'.goOn pc n) := by
  obtain ⟨parts, registers, status⟩ := a
  exact ⟨congrArg (Core.goOn pc n) parts, registers, status⟩

end

/-- Dd takes `r` with the flags C, V, Z and N. -/
def flagged (dd : Nat) (r : W24) (c v : Bool) (k : Core) : Core := setZN r (setSt fV v (setSt fC c (setD dd r k)))

section
variable (dd : Nat) (r : W24) (c v : Bool) (k : Core)

theorem flagged_flow : FlowKept k (flagged dd r c v k) :=
  (((setD_flow dd r k).trans (setSt_flow (by decide) _ _)).trans (setSt_flow (by decide) _ _)).trans (setZN_flow _ _)

theorem flagged_alu : AluTo dd k (flagged dd r c v k) := (((AluTo.setD r).setSt (by decide) c).setSt (by decide) v).setZN r

theorem flagged_dr : (flagged dd r c v k).dr dd = r := setD_dr_same dd r k

theorem flagged_bits : stBit (flagged dd r c v k) fC = c ∧ stBit (flagged dd r c v k) fV = v ∧ stBit (flagged dd r c v k) fZ = decide (r = 0)
    ∧ stBit (flagged dd r c v k) fN = r.msb ∧ stBit (flagged dd r c v k) fL = stBit k fL := by
  obtain ⟨z, n, other⟩ := setZN_bits r (setSt fV v (setSt fC c (setD dd r k)))
  refine ⟨?_, ?_, z, n, ?_⟩
  · exact (other fC (by decide) (by decide)).trans ((stBit_setSt_other (by decide) (by decide) _ _).trans (stBit_setSt_same (by decide) _ _))
  · exact (other fV (by decide) (by decide)).trans (stBit_setSt_same (by decide) _ _)
  · exact (other fL (by decide) (by decide)).trans ((stBit_setSt_other (by decide) (by decide) _ _).trans (stBit_setSt_other (by decide) (by decide) _ _))

end

section
variable (dd : Nat) (x : Int) (c : Bool) (k : Core)

/-- A result out of range with SAT set is replaced by its limit, any other wraps (R405). -/
theorem aluWrite_cases (out : Prop) [Decidable out] (h : out ↔ x < -8388608 ∨ 8388607 < x) :
    aluWrite dd x c k = if out ∧ stBit k fSat = true then setSt fL true (flagged dd (if x < 0 then 0x800000 else 0x7FFFFF) c true k)
      else flagged dd (BitVec.ofInt 24 x) c (decide out) k := by
  unfold aluWrite flagged
  by_cases range : x < -8388608 ∨ 8388607 < x
  · cases sat : stBit k fSat <;> simp [h, range]
  · simp [h, range]

theorem aluWrite_flow : FlowKept k (aluWrite dd x c k) := by
  rw [aluWrite_cases dd x c k _ Iff.rfl]
  split
  · exact (flagged_flow _ _ _ _ _).trans (setSt_flow (by decide) _ _)
  · exact flagged_flow _ _ _ _ _

theorem aluWrite_result (pc : BitVec 16) (n : Nat) : ResultTo dd x k ((aluWrite dd x c k).goOn pc n) ∧ stBit ((aluWrite dd x c k).goOn pc n) fC = c := by
  rw [aluWrite_cases dd x c k _ Iff.rfl]
  split
  case isTrue saturates =>
    obtain ⟨out, sat⟩ := saturates
    generalize limit : (if x < 0 then (0x800000 : W24) else 0x7FFFFF) = r
    obtain ⟨hc, hv, hz, hn, -⟩ := flagged_bits dd r c true k
    have other {j : Nat} (h : j ≠ fL) : stBit ((setSt fL true (flagged dd r c true k)).goOn pc n) j = stBit (flagged dd r c true k) j := stBit_setSt_other (by decide) h _ _
    have low : stBit ((setSt fL true (flagged dd r c true k)).goOn pc n) fL = true := stBit_setSt_same (by decide) _ _
    have reg : ((setSt fL true (flagged dd r c true k)).goOn pc n).dr dd = r := flagged_dr dd r c true k
    refine ⟨⟨((flagged_alu dd r c true k).setSt (by decide) true).goOn pc n, ?_, ?_, ?_, fun wraps => ?_, fun _ below => ⟨?_, low⟩, fun _ above => ⟨?_, low⟩⟩, ?_⟩
    · rw [other (by decide), hv, decide_eq_true out]
    · rw [other (by decide), hz, reg]
    · rw [other (by decide), hn, reg]
    · rcases wraps with within | unset
      · exact absurd out within
      · simp [sat] at unset
    · rw [reg, ← limit, if_pos (by omega)]
    · rw [reg, ← limit, if_neg (by omega)]
    · rw [other (by decide), hc]
  case isFalse within =>
    obtain ⟨hc, hv, hz, hn, hl⟩ := flagged_bits dd (BitVec.ofInt 24 x) c (decide (x < -8388608 ∨ 8388607 < x)) k
    have reg := flagged_dr dd (BitVec.ofInt 24 x) c (decide (x < -8388608 ∨ 8388607 < x)) k
    refine ⟨⟨(flagged_alu dd _ c _ k).goOn pc n, hv, ?_, ?_, fun _ => ⟨reg, hl⟩, fun sat below => absurd ⟨.inl below, sat⟩ within,
      fun sat above => absurd ⟨.inr above, sat⟩ within⟩, hc⟩
    · exact hz.trans (congrArg (fun v : W24 => decide (v = 0)) reg.symm)
    · exact hn.trans (congrArg BitVec.msb reg.symm)

end

theorem alu_step {i : Instr} {op : CoreOp} {dd : Nat} {x : Core → Int} {c : Core → Bool} (he : ∀ s, exec i s = .next (coreDo op true true (fun _ k => effSeq k 1 1 (aluWrite dd (x k) (c k) k)) s)) :
    CoreStep i op 1 1 (fun k k' => ResultTo dd (x k) k k' ∧ stBit k' fC = c k) :=
  coreStep_of he fun _ k => ⟨_, rfl, aluWrite_flow dd _ _ k, fun pc => aluWrite_result dd _ _ k pc 1⟩

end Sys2Proof.Machine

namespace Sys2Proof.Machine

/-! ### The ALU and SHIFT groups (R405, R414) -/

/-- The law of a one-word instruction whose flags take a free value. -/
theorem coreStep_ofFree {i : Instr} {op : CoreOp} {n w : Nat} {f : CoreEnv → Core → Eff} {P : Core → Core → Prop} (he : ∀ s, exec i s = .next (coreFree op f s))
    (hf : ∀ e k, ∃ k', f e k = effSeq k w n k' ∧ FlowKept k k' ∧ ∀ pc, P k (k'.goOn pc n)) : CoreStep i op n w P := by
  intro s ready inLine
  obtain ⟨k', eff, flow, holds⟩ := hf (coreEnv s op.core) (s.core op.core)
  have run := coreDo_sequence (rep := true) ready (inLine.mayStand true) eff (flow.goesOn inLine)
  refine ⟨_, (he s).trans (congrArg (fun t => Host.Outcome.next (useFree t)) run), ?_⟩
  rw [useFree_core, onCore_same]
  exact ⟨rfl, congrArg (· + n) flow.cycles, congrArg (· + n) flow.busy, holds _, fun _ h => (useFree_core _ _).trans (onCore_other _ s h), rfl, rfl,
    (useFree_frame _).after (by decide) ((onCore_frame _ _ s).sub (by decide))⟩

theorem nop_step (op : CoreOp) : CoreStep (.nop op) op 1 1 (fun k k' => k' = { k with pc := k'.pc, cycles := k'.cycles, busy := k'.busy }) :=
  coreStep_of (fun _ => rfl) fun _ k => ⟨k, rfl, .refl k, fun _ => rfl⟩

theorem setSt_parts {k k' : Core} (i : Nat) (v : Bool) (h : k' = { k with st := k'.st }) : setSt i v k' = { k with st := (setSt i v k').st } := congrArg (setSt i v) h

theorem setZN_parts {k k' : Core} (v : W24) (h : k' = { k with st := k'.st }) : setZN v k' = { k with st := (setZN v k').st } := setSt_parts fZ _ (setSt_parts fN _ h)

section
variable (op : CoreOp) (dd da db : Nat)

theorem add_step : CoreStep (.add op dd da db) op 1 1 (fun k k' => ResultTo dd ((k.dr da).toInt + (k.dr db).toInt) k k'
    ∧ stBit k' fC = decide (2 ^ 24 ≤ (k.dr da).toNat + (k.dr db).toNat)) := by
  have step := alu_step (i := .add op dd da db) (op := op) (dd := dd) (x := fun k => (k.dr da).toInt + (k.dr db).toInt + b2n false)
    (c := fun k => decide (2 ^ 24 ≤ (k.dr da).toNat + (k.dr db).toNat + b2n false)) (fun _ => rfl)
  simpa only [b2n, Nat.cast_zero, Int.add_zero, Nat.add_zero, Bool.false_eq_true, if_false] using step

theorem adc_step : CoreStep (.adc op dd da db) op 1 1 (fun k k' => ResultTo dd ((k.dr da).toInt + (k.dr db).toInt + b2n (stBit k fC)) k k'
    ∧ stBit k' fC = decide (2 ^ 24 ≤ (k.dr da).toNat + (k.dr db).toNat + b2n (stBit k fC))) := alu_step fun _ => rfl

theorem sub_step : CoreStep (.sub op dd da db) op 1 1 (fun k k' => ResultTo dd ((k.dr da).toInt - (k.dr db).toInt) k k'
    ∧ stBit k' fC = subCarry (decide ((k.dr da).toNat < (k.dr db).toNat))) := by
  have step := alu_step (i := .sub op dd da db) (op := op) (dd := dd) (x := fun k => (k.dr da).toInt - (k.dr db).toInt - b2n false)
    (c := fun k => subCarry (decide ((k.dr da).toNat < (k.dr db).toNat + b2n false))) (fun _ => rfl)
  simpa only [b2n, Nat.cast_zero, Int.sub_zero, Nat.add_zero, Bool.false_eq_true, if_false] using step

theorem sbc_step : CoreStep (.sbc op dd da db) op 1 1 (fun k k' => ResultTo dd ((k.dr da).toInt - (k.dr db).toInt - b2n (borrowIn k)) k k'
    ∧ stBit k' fC = subCarry (decide ((k.dr da).toNat < (k.dr db).toNat + b2n (borrowIn k)))) := alu_step fun _ => rfl

theorem cmp_step : CoreStep (.cmp op da db) op 1 1 (fun k k' => k' = { k with st := k'.st, pc := k'.pc, cycles := k'.cycles, busy := k'.busy } ∧ FlagsOf (k.dr da - k.dr db) k k'
    ∧ stBit k' fC = subCarry (decide ((k.dr da).toNat < (k.dr db).toNat)) ∧ (∀ b, 4 < b → k'.st.getLsbD b = k.st.getLsbD b)
    ∧ stBit k' fV = decide ((k.dr da).toInt - (k.dr db).toInt < -8388608 ∨ 8388607 < (k.dr da).toInt - (k.dr db).toInt)) := by
  refine coreStep_of (fun _ => rfl) fun _ k => ⟨_, rfl, ?_, fun pc => ?_⟩
  · exact ((setSt_flow (by decide) _ _).trans (setSt_flow (by decide) _ _)).trans (setZN_flow _ _)
  · generalize decide ((k.dr da).toInt - (k.dr db).toInt < -8388608 ∨ 8388607 < (k.dr da).toInt - (k.dr db).toInt) = v
    generalize subCarry (decide ((k.dr da).toNat < (k.dr db).toNat)) = c
    obtain ⟨z, n, other⟩ := setZN_bits (k.dr da - k.dr db) (setSt fV v (setSt fC c k))
    refine ⟨congrArg (Core.goOn pc 1) (setZN_parts _ (setSt_parts _ _ (setSt_parts _ _ rfl))), ⟨z, n, ?_⟩, ?_, fun b hb => ?_, ?_⟩
    · exact (other fL (by decide) (by decide)).trans ((stBit_setSt_other (by decide) (by decide) _ _).trans (stBit_setSt_other (by decide) (by decide) _ _))
    · exact (other fC (by decide) (by decide)).trans ((stBit_setSt_other (by decide) (by decide) _ _).trans (stBit_setSt_same (by decide) _ _))
    · have low {j : Nat} (h : j ≤ 4) : b ≠ j := by omega
      exact (other b (low (by decide)) (low (by decide))).trans ((stBit_setSt_other (by decide) (low (by decide)) _ _).trans (stBit_setSt_other (by decide) (low (by decide)) _ _))
    · exact (other fV (by decide) (by decide)).trans (stBit_setSt_same (by decide) _ _)

theorem logic_step {i : Instr} {f : W24 → W24 → W24} (he : ∀ s, exec i s = .next (coreFree op (fun e k => effLogic e f dd da db k) s)) :
    CoreStep i op 1 1 (fun k k' => AluTo dd k k' ∧ k'.dr dd = f (k.dr da) (k.dr db) ∧ stBit k' fV = false ∧ FlagsOf (k'.dr dd) k k') := by
  refine coreStep_ofFree he fun e k => ⟨flagged dd (f (k.dr da) (k.dr db)) (e.fv.testBit 0) false k, rfl, flagged_flow _ _ _ _ _, fun pc => ?_⟩
  generalize f (k.dr da) (k.dr db) = r
  have reg : ((flagged dd r (e.fv.testBit 0) false k).goOn pc 1).dr dd = r := flagged_dr dd r (e.fv.testBit 0) false k
  obtain ⟨-, hv, hz, hn, hl⟩ := flagged_bits dd r (e.fv.testBit 0) false k
  rw [reg]
  exact ⟨(flagged_alu _ _ _ _ _).goOn pc 1, rfl, hv, hz, hn, hl⟩

end

/-! ### Packed halves (R405) -/

theorem half12_spec (sat : Bool) (x : Int) :
    (sat = false ∨ (-2048 ≤ x ∧ x ≤ 2047) → (half12 sat x).1 = BitVec.ofInt 12 x) ∧ (sat = true → x < -2048 → half12 sat x = (0x800, true))
      ∧ (sat = true → 2047 < x → half12 sat x = (0x7FF, true)) := by
  unfold half12
  refine ⟨fun wraps => ?_, fun set below => ?_, fun set above => ?_⟩
  · rcases wraps with unset | ⟨low, high⟩
    · simp [unset]
    · rw [decide_eq_false (by omega), decide_eq_false (by omega), Bool.and_false, if_neg (by decide), if_neg (by decide)]
  · rw [set, decide_eq_true below]
    rfl
  · rw [set, decide_eq_false (by omega), decide_eq_true above]
    rfl

/-- The two halves of PADD and PSUB, the low one first. -/
def packedHalf (da db : Nat) (sub : Bool) (h : Nat) (k : Core) : BitVec 12 × Bool :=
  let p : BitVec 12 := (k.dr da).extractLsb' (12 * h) 12
  let q : BitVec 12 := (k.dr db).extractLsb' (12 * h) 12
  half12 (stBit k fSat) (if sub then p.toInt - q.toInt else p.toInt + q.toInt)

/-- The core after a packed operation: Dd takes `r`, the flags C, V and N what they take, L where a half was limited. -/
def packedTo (dd : Nat) (r : W24) (c v n limited : Bool) (k : Core) : Core :=
  let k' := setSt fN n (setSt fV v (setSt fC c (setSt fZ (r = 0) (setD dd r k))))
  if limited then setSt fL true k' else k'

section
variable (dd : Nat) (r : W24) (c v n limited : Bool) (k : Core)

theorem packedTo_flow : FlowKept k (packedTo dd r c v n limited k) := by
  have base := ((((setD_flow dd r k).trans (setSt_flow (i := fZ) (by decide) (r = 0) _)).trans (setSt_flow (i := fC) (by decide) c _)).trans
    (setSt_flow (i := fV) (by decide) v _)).trans (setSt_flow (i := fN) (by decide) n _)
  unfold packedTo
  split
  · exact base.trans (setSt_flow (by decide) _ _)
  · exact base

theorem packedTo_alu : AluTo dd k (packedTo dd r c v n limited k) := by
  have base : AluTo dd k (setSt fN n (setSt fV v (setSt fC c (setSt fZ (r = 0) (setD dd r k))))) :=
    ((((AluTo.setD r).setSt (by decide) _).setSt (by decide) c).setSt (by decide) v).setSt (by decide) n
  unfold packedTo
  split
  · exact base.setSt (by decide) true
  · exact base

theorem packedTo_dr : (packedTo dd r c v n limited k).dr dd = r := by
  unfold packedTo
  split <;> exact setD_dr_same dd r k

theorem packedTo_zero : stBit (packedTo dd r c v n limited k) fZ = decide ((packedTo dd r c v n limited k).dr dd = 0) := by
  have zero : stBit (setSt fN n (setSt fV v (setSt fC c (setSt fZ (r = 0) (setD dd r k))))) fZ = decide (r = 0) := by
    rw [stBit_setSt_other (by decide) (by decide), stBit_setSt_other (by decide) (by decide), stBit_setSt_other (by decide) (by decide), stBit_setSt_same (by decide)]
  rw [packedTo_dr]
  unfold packedTo
  split
  · exact (stBit_setSt_other (by decide) (by decide) _ _).trans zero
  · exact zero

/-- A half that saturates sets L. -/
theorem packedTo_limited (h : limited = true) : stBit (packedTo dd r c v n limited k) fL = true := by
  unfold packedTo
  rw [if_pos h]
  exact stBit_setSt_same (by decide) _ _

end

theorem packedHalf_read (da db : Nat) (sub : Bool) (k : Core) {h : Nat} (hh : h < 2) :
    ((packedHalf da db sub 1 k).1 ++ (packedHalf da db sub 0 k).1).extractLsb' (12 * h) 12 = (packedHalf da db sub h k).1 := by
  obtain rfl | rfl : h = 0 ∨ h = 1 := by omega
  · rw [BitVec.extractLsb'_append_eq_of_add_le (by decide)]
    exact BitVec.extractLsb'_eq_self
  · rw [BitVec.extractLsb'_append_eq_of_le (by decide)]
    exact BitVec.extractLsb'_eq_self

section
variable (op : CoreOp) (dd da db : Nat)

theorem effPacked_eq (e : CoreEnv) (sub : Bool) (k : Core) :
    effPacked e sub dd da db k = effSeq k 1 1 (packedTo dd ((packedHalf da db sub 1 k).1 ++ (packedHalf da db sub 0 k).1) (e.fv.testBit 0) (e.fv.testBit 1) (e.fv.testBit 2)
      ((packedHalf da db sub 0 k).2 || (packedHalf da db sub 1 k).2) k) := by
  have low (v : W24) : v.truncate 12 = v.extractLsb' 0 12 := BitVec.setWidth_eq_extractLsb' (by decide)
  unfold effPacked
  simp only [low]
  rfl

theorem packed_step {i : Instr} {sub : Bool} (he : ∀ s, exec i s = .next (coreFree op (fun e k => effPacked e sub dd da db k) s)) :
    CoreStep i op 1 1 (fun k k' => AluTo dd k k' ∧ stBit k' fZ = decide (k'.dr dd = 0)
      ∧ ∀ h, h < 2 → let p : BitVec 12 := (k.dr da).extractLsb' (12 * h) 12
        let q : BitVec 12 := (k.dr db).extractLsb' (12 * h) 12
        let x := if sub then p.toInt - q.toInt else p.toInt + q.toInt
        (stBit k fSat = false ∨ (-2048 ≤ x ∧ x ≤ 2047) → (k'.dr dd).extractLsb' (12 * h) 12 = BitVec.ofInt 12 x)
          ∧ (stBit k fSat = true → x < -2048 → (k'.dr dd).extractLsb' (12 * h) 12 = 0x800 ∧ stBit k' fL = true)
          ∧ (stBit k fSat = true → 2047 < x → (k'.dr dd).extractLsb' (12 * h) 12 = 0x7FF ∧ stBit k' fL = true)) := by
  refine coreStep_ofFree he fun e k => ⟨_, effPacked_eq dd da db e sub k, packedTo_flow .., fun pc => ⟨(packedTo_alu ..).goOn pc 1, packedTo_zero .., ?_⟩⟩
  intro h hh p q x
  have taken : (((packedTo dd ((packedHalf da db sub 1 k).1 ++ (packedHalf da db sub 0 k).1) (e.fv.testBit 0) (e.fv.testBit 1) (e.fv.testBit 2)
      ((packedHalf da db sub 0 k).2 || (packedHalf da db sub 1 k).2) k).goOn pc 1).dr dd).extractLsb' (12 * h) 12 = (packedHalf da db sub h k).1 :=
    (congrArg (BitVec.extractLsb' (12 * h) 12) (packedTo_dr ..)).trans (packedHalf_read da db sub k hh)
  have limits (limit : (packedHalf da db sub h k).2 = true) : ((packedHalf da db sub 0 k).2 || (packedHalf da db sub 1 k).2) = true := by
    obtain rfl | rfl : h = 0 ∨ h = 1 := by omega
    · rw [limit, Bool.true_or]
    · rw [limit, Bool.or_true]
  obtain ⟨wraps, below, above⟩ := half12_spec (stBit k fSat) x
  rw [taken]
  refine ⟨wraps, fun sat low => ⟨congrArg Prod.fst (below sat low), ?_⟩, fun sat high => ⟨congrArg Prod.fst (above sat high), ?_⟩⟩
  · exact packedTo_limited _ _ _ _ _ _ _ (limits (congrArg Prod.snd (below sat low)))
  · exact packedTo_limited _ _ _ _ _ _ _ (limits (congrArg Prod.snd (above sat high)))

end

end Sys2Proof.Machine

namespace Sys2Proof.Machine

/-! ### Shifts (R414) -/

section
variable {i : Instr} {op : CoreOp} {dd da n : Nat} {f : W24 → Nat → W24}

theorem shift_step (small : n < 24) (he : ∀ s, exec i s = .next (coreDo op true true (fun _ k => effShift f dd da n k) s)) :
    CoreStep i op 1 1 (fun k k' => AluTo dd k k' ∧ k'.dr dd = f (k.dr da) n ∧ k'.st = k.st) :=
  coreStep_of he fun _ k => ⟨setD dd (f (k.dr da) n) k, if_neg (by omega), setD_flow dd _ k, fun pc => ⟨(AluTo.setD _).goOn pc 1, setD_dr_same dd _ k, rfl⟩⟩

theorem shift_traps (large : 24 ≤ n) (he : ∀ s, exec i s = .next (coreDo op true true (fun _ k => effShift f dd da n k) s)) : CoreTraps i op (fun _ => True) trapIllegal :=
  coreTraps_of he (fun _ _ => .inl rfl) fun _ _ _ _ => if_pos large

end

theorem shifts_trap (op : CoreOp) (dd da : Nat) {n : Nat} (large : 24 ≤ n) : ∀ i ∈ [Instr.shl op dd da n, .shr op dd da n, .asr op dd da n, .rol op dd da n],
    CoreTraps i op (fun _ => True) trapIllegal := by
  intro i hi
  simp only [List.mem_cons, List.not_mem_nil, or_false] at hi
  rcases hi with rfl | rfl | rfl | rfl <;> exact shift_traps large fun _ => rfl

/-! ### The MUL and ACC groups (R405) -/

theorem accWrite_flow (aa : Nat) (x : Int) (k : Core) : FlowKept k (accWrite aa x k) := (setA_flow aa _ k).trans (setSt_flow (by decide) _ _)

theorem accWrite_takes (aa : Nat) (x : Int) (k : Core) (pc : BitVec 16) (n : Nat) : AccTo aa x k ((accWrite aa x k).goOn pc n) := by
  refine ⟨rfl, fun j hj => tget_tput_other aDef k.a _ hj, fun b hb => ?_, setA_acc_same aa _ k, stBit_setSt_same (by decide) _ _⟩
  exact (setSt_st (by decide) _ _ b).trans (if_neg hb)

section
variable {i : Instr} {op : CoreOp} {aa da db am : Nat}

theorem acc_step (x : Core → Int) (he : ∀ s, exec i s = .next (coreDo op true true (fun _ k => effSeq k 1 1 (accWrite aa (x k) k)) s)) :
    CoreStep i op 1 1 (fun k k' => AccTo aa (x k) k k') :=
  coreStep_of he fun _ k => ⟨_, rfl, accWrite_flow aa _ k, fun pc => accWrite_takes aa _ k pc 1⟩

end

/-- The halves of a word as MUL reads them. -/
theorem word_halves (v : W24) : ((v >>> (12 * 0)).truncate 12 : BitVec 12) = v.extractLsb' 0 12 ∧ ((v >>> (12 * 1)).truncate 12 : BitVec 12) = v.extractLsb' 12 12 :=
  ⟨BitVec.setWidth_ushiftRight_eq_extractLsb, BitVec.setWidth_ushiftRight_eq_extractLsb⟩

theorem word_halves_toNat (v : W24) : (v.extractLsb' 0 12).toNat = v.toNat % 4096 ∧ (v.extractLsb' 12 12).toNat = v.toNat / 4096 := by
  have range := v.isLt
  simp only [BitVec.extractLsb'_toNat, Nat.shiftRight_eq_div_pow]
  omega

theorem mulProduct_unsigned (x y : W24) : mulProduct 6 x y = ((x.toNat % 4096 * (y.toNat % 4096) + x.toNat / 4096 * (y.toNat / 4096) : Nat) : Int) := by
  obtain ⟨xl, xh⟩ := word_halves x
  obtain ⟨yl, yh⟩ := word_halves y
  obtain ⟨nxl, nxh⟩ := word_halves_toNat x
  obtain ⟨nyl, nyh⟩ := word_halves_toNat y
  simp only [mulProduct, xl, xh, yl, yh, nxl, nxh, nyl, nyh]
  push_cast
  rfl

theorem mulProduct_signed (x y : W24) : mulProduct 7 x y = (x.extractLsb' 0 12).toInt * (y.extractLsb' 0 12).toInt + (x.extractLsb' 12 12).toInt * (y.extractLsb' 12 12).toInt := by
  obtain ⟨xl, xh⟩ := word_halves x
  obtain ⟨yl, yh⟩ := word_halves y
  simp only [mulProduct, xl, xh, yl, yh]
  rfl

section
variable (op : CoreOp) (aa da db am : Nat)

theorem pmacu_step : CoreStep (.pmacu op aa da db) op 1 1 (fun k k' => AccTo aa ((k.acc aa).toInt
    + ((k.dr da).toNat % 4096 * ((k.dr db).toNat % 4096) + (k.dr da).toNat / 4096 * ((k.dr db).toNat / 4096) : Nat)) k k') := by
  simp only [← mulProduct_unsigned]
  exact acc_step (fun k => (k.acc aa).toInt + mulProduct 6 (k.dr da) (k.dr db)) fun _ => rfl

theorem pmacs_step : CoreStep (.pmacs op aa da db) op 1 1 (fun k k' => AccTo aa ((k.acc aa).toInt + (((k.dr da).extractLsb' 0 12).toInt * ((k.dr db).extractLsb' 0 12).toInt
    + ((k.dr da).extractLsb' 12 12).toInt * ((k.dr db).extractLsb' 12 12).toInt)) k k') := by
  simp only [← mulProduct_signed]
  exact acc_step (fun k => (k.acc aa).toInt + mulProduct 7 (k.dr da) (k.dr db)) fun _ => rfl

theorem abs_step : CoreStep (.abs op aa) op 1 1 (fun k k' => AccTo aa ((k.acc aa).toInt.natAbs : Int) k k') := by
  have value (v : Int) : (v.natAbs : Int) = if v < 0 then -v else v := by split <;> omega
  simp only [value]
  exact acc_step (fun k => if (k.acc aa).toInt < 0 then -(k.acc aa).toInt else (k.acc aa).toInt) fun _ => rfl

theorem asha_step {m : Int} (lo : -24 ≤ m) (hi : m ≤ 24) : CoreStep (.asha op aa am m) op 1 1
    (fun k k' => AccTo aa (if 0 ≤ m then (k.acc am).toInt * 2 ^ m.toNat else (k.acc am).toInt / 2 ^ (-m).toNat) k k') :=
  coreStep_of (fun _ => rfl) fun _ k => ⟨_, if_neg (by omega), accWrite_flow aa _ k, fun pc => accWrite_takes aa _ k pc 1⟩

theorem asha_traps {m : Int} (outside : m < -24 ∨ 24 < m) : CoreTraps (.asha op aa am m) op (fun _ => True) trapIllegal :=
  coreTraps_of (fun _ => rfl) (fun _ _ => .inl rfl) fun _ _ _ _ => if_pos outside

end

/-- Settles O53: the ALU by the laws of a sum and of a logic operation, MUL and ACC by that of a written accumulator. -/
theorem cesynArithmetic : Obligations.CesynArithmetic := by
  intro op dd da db aa am n m
  refine ⟨nop_step op, add_step op dd da db, adc_step op dd da db, sub_step op dd da db, sbc_step op dd da db, cmp_step op da db, logic_step op dd da db fun _ => rfl,
    logic_step op dd da db fun _ => rfl, logic_step op dd da db fun _ => rfl, fun sub => ?packed, fun small => ?shift, shifts_trap op dd da,
    acc_step (fun k => (k.dr da).toInt * (k.dr db).toInt) fun _ => rfl, acc_step (fun k => (k.acc aa).toInt + (k.dr da).toInt * (k.dr db).toInt) fun _ => rfl,
    acc_step (fun k => (k.acc aa).toInt - (k.dr da).toInt * (k.dr db).toInt) fun _ => rfl, acc_step (fun k => 2 * ((k.dr da).toInt * (k.dr db).toInt)) fun _ => rfl,
    acc_step (fun k => (k.acc aa).toInt + 2 * ((k.dr da).toInt * (k.dr db).toInt)) fun _ => rfl,
    acc_step (fun k => (k.acc aa).toInt - 2 * ((k.dr da).toInt * (k.dr db).toInt)) fun _ => rfl, pmacu_step op aa da db, pmacs_step op aa da db,
    acc_step (fun _ => 0) fun _ => rfl, acc_step (fun k => -(k.acc aa).toInt) fun _ => rfl, abs_step op aa,
    acc_step (fun k => ((k.acc aa).toInt + 0x800000) / 2 ^ 24 * 2 ^ 24) fun _ => rfl, acc_step (fun k => (k.acc aa).toInt + (k.acc am).toInt) fun _ => rfl,
    acc_step (fun k => (k.acc aa).toInt - (k.acc am).toInt) fun _ => rfl, acc_step (fun k => (k.acc am).toInt) fun _ => rfl, asha_step op aa am, asha_traps op aa am⟩
  case packed =>
    cases sub
    · exact packed_step op dd da db fun _ => rfl
    · exact packed_step op dd da db fun _ => rfl
  case shift =>
    exact ⟨shift_step small fun _ => rfl, shift_step small fun _ => rfl, shift_step small fun _ => rfl, shift_step small fun _ => rfl⟩

end Sys2Proof.Machine

namespace Sys2Proof.Machine

/-! ### What an instruction's effect leaves of its core (R412) -/

/-- An effect that raises no trap leaves the core `k'`: off at its address, or in sequence as the loop end says. -/
def Eff.Leaves (top : BitVec 17) (r : Eff) (k' : Core) : Prop :=
  r.trap = none ∧ if r.seq = true then ∃ k2 x, loopEnd top { r.core with cycles := r.core.cycles + r.cycles, busy := r.core.busy + r.cycles } r.next = .ok (k2, x)
      ∧ k' = { k2 with cycles := k2.cycles + x, busy := k2.busy + x }
    else k' = r.core.goOn r.next r.cycles

theorem coreTakes_leaves {c : Nat} {r : Eff} {k' : Core} {s : State} (h : r.Leaves (coreEnv s c).top k') : coreTakes c r s = onCore c (fun _ => k') s := by
  obtain ⟨noTrap, goes⟩ := h
  unfold coreTakes
  simp only [noTrap]
  split at goes
  case isTrue seq =>
    obtain ⟨k2, x, ends, rfl⟩ := goes
    simp only [seq, if_true, ends]
  case isFalse seq =>
    rw [if_neg seq, goes]
    rfl

section
variable {top : BitVec 17} {k : Core} {n : Nat} {a : BitVec 16}

theorem leaves_jump (top : BitVec 17) (k : Core) (n : Nat) (a : BitVec 16) : Eff.Leaves top { core := k, cycles := n, next := a, seq := false, trap := none } (k.goOn a n) :=
  ⟨rfl, rfl⟩

/-- No loop ends at the address gone on at. -/
theorem leaves_sequence (free : stBit k fLoop = true → a ≠ k.le_) : Eff.Leaves top { core := k, cycles := n, next := a, seq := true, trap := none } (k.goOn a n) := by
  refine ⟨rfl, _, _, if_neg fun h => ?_, rfl⟩
  obtain ⟨loop, ends⟩ := Bool.and_eq_true_iff.mp h
  exact free loop (of_decide_eq_true ends)

variable (loop : stBit k fLoop = true) (ends : a = k.le_)
include loop ends

theorem loopEnd_there (h : 1 < k.lc.toNat) : loopEnd top k a = .ok ({ k with lc := k.lc - 1, pc := k.ls }, 0) := by
  unfold loopEnd
  rw [if_pos (by rw [loop, decide_eq_true ends]; rfl), if_pos h]

theorem loopEnd_exit (h : k.lc.toNat ≤ 1) (outer : k.nest.headD false = false) : loopEnd top k a = .ok (setSt fLoop false { k with pc := a, nest := k.nest.tail }, 0) := by
  unfold loopEnd
  rw [if_pos (by rw [loop, decide_eq_true ends]; rfl), if_neg (by omega), outer, if_neg (by decide)]

theorem loopEnd_exitInner (h : k.lc.toNat ≤ 1) (inner : k.nest.headD false = true) {x y z : W24} {k' : Core} (pops : popAll top k 3 = .ok ([x, y, z], k')) :
    loopEnd top k a = .ok ({ k' with pc := a, lc := x.truncate 16, ls := y.truncate 16, le_ := z.truncate 16, nest := k'.nest.tail }, 3) := by
  unfold loopEnd
  rw [if_pos (by rw [loop, decide_eq_true ends]; rfl), if_neg (by omega), inner, if_pos rfl, pops]

/-- At the end of a loop with LC above 1, PC becomes LS with no added cycle. -/
theorem leaves_back (h : 1 < k.lc.toNat) :
    Eff.Leaves top { core := k, cycles := n, next := a, seq := true, trap := none } (Core.goOn k.ls n { k with lc := k.lc - 1 }) :=
  ⟨rfl, _, _, loopEnd_there (k := { k with cycles := k.cycles + n, busy := k.busy + n }) loop ends h, rfl⟩

end

/-- The law of an instruction under a condition on its core. -/
theorem coreRuns_of {i : Instr} {op : CoreOp} {n : Nat} {rep last : Bool} {f : CoreEnv → Core → Eff} {h : Core → Prop} {pc : Core → BitVec 16} {P : Core → Core → Prop}
    (he : ∀ s, exec i s = .next (coreDo op rep last f s)) (stand : ∀ k, h k → MayStand last k)
    (hf : ∀ e k, e.top = k.stackTop → h k → ∃ k', (f e k).Leaves e.top k' ∧ k'.pc = pc k ∧ k'.cycles = k.cycles + n ∧ k'.busy = k.busy + n ∧ P k k') : CoreRuns i op n h pc P := by
  intro s ready hk
  obtain ⟨k', leaves, goes, cycles, busy, holds⟩ := hf (coreEnv s op.core) (s.core op.core) rfl hk
  have run := (coreDo_ready (rep := rep) (f := f) ready (stand _ hk)).trans (coreTakes_leaves leaves)
  refine ⟨_, (he s).trans (congrArg Host.Outcome.next run), ?_⟩
  rw [onCore_same]
  exact ⟨goes, cycles, busy, holds, fun _ h => onCore_other _ s h, rfl, rfl, (onCore_frame _ _ s).sub (by decide)⟩

/-- Two words, or a jump, at the last place of a loop trap. -/
theorem coreTraps_atLoopEnd {i : Instr} {op : CoreOp} {rep : Bool} {f : CoreEnv → Core → Eff} (he : ∀ s, exec i s = .next (coreDo op rep false f s)) :
    CoreTraps i op (fun k => ¬ (stBit k fLoop = true → k.pc + 1 ≠ k.le_)) trapIllegal := by
  intro s ready ends
  refine ⟨s, (he s).trans (congrArg Host.Outcome.next ?_), fun _ => rfl, rfl, rfl, Only.refl _ s⟩
  obtain ⟨core, ecc, noRep, budget, t, run, safe⟩ := ready
  obtain ⟨loop, last⟩ := Classical.not_imp.mp ends
  have noSafe : ¬ ((decide ((s.core op.core).safe = 1) && decide (((s.taskDesc t).map tdSafe).getD 65535 ≠ 65535)) = true) := by
    simpa using safe
  have atEnd : (s.core op.core).pc + 1 = (s.core op.core).le_ := Classical.not_not.mp last
  have noCorrected : ¬ (0 : Nat) = 1 := Nat.zero_ne_one
  have noUncorrected : ¬ (0 : Nat) = 2 := by decide
  unfold coreDo
  simp only [run, if_neg (Nat.not_le.mpr core), if_neg noSafe, if_neg (Nat.not_le.mpr budget), ecc, if_neg noCorrected, if_neg noUncorrected, noRep, loop, atEnd]
  simp

/-! ### Branches and jumps (R411, R414) -/

/-- No loop ends behind the instruction at PC. -/
def Core.free (k : Core) : Prop := stBit k fLoop = true → k.pc + 1 ≠ k.le_

/-- Of the core only PC and the cycle counts change. -/
def PcOnly (k k' : Core) : Prop := k' = { k with pc := k'.pc, cycles := k'.cycles, busy := k'.busy }

theorem condHolds_list (k : Core) : let z := stBit k fZ
    let n := stBit k fN
    let v := stBit k fV
    let c := stBit k fC
    (List.range 14).map (condHolds k) = [true, z, !z, n != v, n == v, z || (n != v), !z && (n == v), c, !c, v, !v, n, !n, stBit k fL].map some := rfl

theorem condHolds_reserved (k : Core) {c : Nat} (h : 14 ≤ c) : condHolds k c = none := List.getElem?_eq_none h

section
variable (op : CoreOp) (cond : Nat) (off : Int) (a : BitVec 16)

theorem br_taken : CoreRuns (.br op cond off) op 2 (fun k => k.free ∧ condHolds k cond = some true) (fun k => k.pc + 1 + BitVec.ofInt 16 off) PcOnly :=
  coreRuns_of (fun _ => rfl) (fun _ h => .inr h.1) fun e k _ h => ⟨k.goOn _ 2, by
    unfold effBr
    rw [h.2]
    exact leaves_jump _ k 2 _, rfl, rfl, rfl, rfl⟩

theorem br_passed : CoreRuns (.br op cond off) op 1 (fun k => k.free ∧ condHolds k cond = some false) (fun k => k.pc + 1) PcOnly :=
  coreRuns_of (fun _ => rfl) (fun _ h => .inr h.1) fun e k _ h => ⟨k.goOn _ 1, by
    unfold effBr
    rw [h.2]
    exact leaves_sequence h.1, rfl, rfl, rfl, rfl⟩

theorem br_reserved (h : 14 ≤ cond) : CoreTraps (.br op cond off) op Core.free trapIllegal :=
  coreTraps_of (fun _ => rfl) (fun _ h => .inr h) fun e k _ _ => by
    unfold effBr
    rw [condHolds_reserved k h]

theorem jmp_jumps : CoreRuns (.jmp op a) op 2 Core.free (fun _ => a) PcOnly :=
  coreRuns_of (fun _ => rfl) (fun _ h => .inr h) fun _ k _ _ => ⟨k.goOn a 2, leaves_jump _ k 2 a, rfl, rfl, rfl, rfl⟩

theorem jumps_trap : ∀ i ∈ [Instr.jmp op a, .call op a, .ret op, .rett op], CoreTraps i op (fun k => ¬ k.free) trapIllegal := by
  intro i hi
  simp only [List.mem_cons, List.not_mem_nil, or_false] at hi
  rcases hi with rfl | rfl | rfl | rfl <;> exact coreTraps_atLoopEnd fun _ => rfl

end

/-! ### The stack (R410, R411) -/

/-- `n` words fit on the stack. -/
def Core.room (k : Core) (n : Nat) : Prop := k.sb.toNat + n ≤ k.sp.toNat ∧ k.sp.toNat ≤ 0x18000

/-- `n` words stand on the stack, in data memory. -/
def Core.held (k : Core) (n : Nat) : Prop := ∀ i, i < n → k.sp + BitVec.ofNat 17 i ≠ k.stackTop ∧ (k.sp + BitVec.ofNat 17 i).toNat < 0x18000

/-- Word `i` of the stack, from its top. -/
def Core.stk (k : Core) (i : Nat) : W24 := tget wordDef k.data (k.sp + BitVec.ofNat 17 i).toNat

theorem sp_succ (k : Core) (i : Nat) : k.sp + BitVec.ofNat 17 (i + 1) = k.sp + 1 + BitVec.ofNat 17 i := by bv_omega

theorem popAll_held (n : Nat) {k : Core} (h : k.held n) : popAll k.stackTop k n = .ok ((List.range n).map k.stk, { k with sp := k.sp + BitVec.ofNat 17 n }) := by
  induction n generalizing k with
  | zero =>
    have stays : k.sp + BitVec.ofNat 17 0 = k.sp := by simp
    rw [stays]
    rfl
  | succ n ih =>
    obtain ⟨notTop, inData⟩ := h 0 (by omega)
    have first : k.sp + BitVec.ofNat 17 0 = k.sp := by simp
    rw [first] at notTop inData
    have rest := ih (k := { k with sp := k.sp + 1 }) fun i hi => sp_succ k i ▸ h (i + 1) (by omega)
    rw [popAll_pops n notTop inData _ _ rest, List.range_succ_eq_map, List.map_cons, List.map_map, sp_succ]
    have top : k.stk 0 = tget wordDef k.data k.sp.toNat := by unfold Core.stk; rw [first]
    have below : k.stk ∘ Nat.succ = Core.stk { k with sp := k.sp + 1 } := funext fun i => by
      show tget wordDef k.data (k.sp + BitVec.ofNat 17 (i + 1)).toNat = _
      rw [sp_succ]
      rfl
    rw [top, below]

section
variable (op : CoreOp) (a : BitVec 16)

theorem call_pushes : CoreRuns (.call op a) op 3 (fun k => k.free ∧ k.room 1) (fun _ => a) (fun k k' => k'.sp = k.sp - 1
    ∧ tget wordDef k'.data k'.sp.toNat = (k.pc + 2).zeroExtend 24 ∧ (∀ b, b ≠ k'.sp.toNat → tget wordDef k'.data b = tget wordDef k.data b)
    ∧ k' = { k with sp := k'.sp, data := k'.data, pc := k'.pc, cycles := k'.cycles, busy := k'.busy }) := by
  refine coreRuns_of (fun _ => rfl) (fun _ h => .inr h.1) fun e k _ h => ?_
  obtain ⟨-, room, inData⟩ := h
  refine ⟨Core.goOn a 3 { k with sp := k.sp - 1, data := tput wordDef k.data (k.sp - 1).toNat ((k.pc + 2).zeroExtend 24) }, ?_, rfl, rfl, rfl, rfl,
    tget_tput_same wordDef k.data _ _, fun b hb => tget_tput_other wordDef k.data _ hb, rfl⟩
  unfold effCall
  rw [pushAll_push _ [] room inData]
  exact leaves_jump _ _ 3 a

theorem ret_pops : CoreRuns (.ret op) op 3 (fun k => k.free ∧ k.held 1) (fun k => (k.stk 0).truncate 16)
    (fun k k' => k' = { k with sp := k.sp + 1, pc := k'.pc, cycles := k'.cycles, busy := k'.busy }) := by
  refine coreRuns_of (fun _ => rfl) (fun _ h => .inr h.1) fun e k top h => ⟨Core.goOn ((k.stk 0).truncate 16) 3 { k with sp := k.sp + 1 }, ?_, rfl, rfl, rfl, rfl⟩
  show (effRet e k).Leaves _ _
  unfold effRet
  rw [top, popAll_held 1 h.2]
  exact leaves_jump _ _ 3 _

theorem rett_pops : CoreRuns (.rett op) op 8 (fun k => k.free ∧ k.held 6) (fun k => (k.stk 5).truncate 16) (fun k k' => k'.le_ = (k.stk 0).truncate 16
    ∧ k'.ls = (k.stk 1).truncate 16 ∧ k'.lc = (k.stk 2).truncate 16 ∧ k'.rc = k.stk 3 ∧ k'.st = k.stk 4 &&& 0xFF ∧ k'.sp = k.sp + 6
    ∧ k' = { k with sp := k'.sp, le_ := k'.le_, ls := k'.ls, lc := k'.lc, rc := k'.rc, st := k'.st, nest := k.nestKept, pc := k'.pc, cycles := k'.cycles, busy := k'.busy }) := by
  refine coreRuns_of (fun _ => rfl) (fun _ h => .inr h.1) fun e k top h => ⟨Core.goOn ((k.stk 5).truncate 16) 8
    { k with
      sp := k.sp + 6, le_ := (k.stk 0).truncate 16, ls := (k.stk 1).truncate 16, lc := (k.stk 2).truncate 16, rc := k.stk 3, st := k.stk 4 &&& 0xFF, nest := k.nestKept },
    ?_, rfl, rfl, rfl, rfl, rfl, rfl, rfl, rfl, rfl, rfl⟩
  show (effRett e k).Leaves _ _
  unfold effRett
  rw [top, popAll_held 6 h.2]
  exact leaves_jump _ _ 8 _

end

end Sys2Proof.Machine

namespace Sys2Proof.Machine

/-! ### Loops (R411, R412) -/

/-- The count of a DO. -/
def loopCount (reg : Bool) (dn count : Nat) (k : Core) : Nat := if reg then (k.dr dn).toNat % 65536 else count

/-- The core in the loop that a DO of `n` passes begins, `inner` within another. -/
def Core.looped (n : Nat) (lend : BitVec 16) (inner : Bool) (k : Core) : Core :=
  setSt fLoop true { k with lc := BitVec.ofNat 16 n, ls := k.pc + 2, le_ := lend, nest := inner :: k.nest }

theorem looped_status (n : Nat) (lend : BitVec 16) (inner : Bool) (k : Core) : stBit (k.looped n lend inner) fLoop = true
    ∧ (∀ b, b ≠ 7 → (k.looped n lend inner).st.getLsbD b = k.st.getLsbD b) :=
  ⟨stBit_setSt_same (by decide) _ _, fun b hb => (setSt_st (by decide) true _ b).trans (if_neg hb)⟩

section
variable {reg : Bool} {dn count : Nat} {lend : BitVec 16} {k : Core}

theorem effDo_illegal (h : lend.toNat ≤ (k.pc + 2).toNat) : effDo reg dn count lend k = effTrap k trapIllegal := if_pos h

theorem effDo_zero (h : (k.pc + 2).toNat < lend.toNat) (zero : loopCount reg dn count k = 0) :
    effDo reg dn count lend k = { core := k, cycles := 2, next := lend, seq := true, trap := none } := (if_neg (by omega)).trans (if_pos zero)

theorem effDo_outer (h : (k.pc + 2).toNat < lend.toNat) (passes : loopCount reg dn count k ≠ 0) (outer : stBit k fLoop = false) :
    effDo reg dn count lend k = { core := k.looped (loopCount reg dn count k) lend false, cycles := 2, next := k.pc + 2, seq := false, trap := none } := by
  refine (if_neg (by omega)).trans ((if_neg passes).trans ?_)
  rw [outer]
  rfl

theorem effDo_inner (h : (k.pc + 2).toNat < lend.toNat) (passes : loopCount reg dn count k ≠ 0) (inner : stBit k fLoop = true) {k1 : Core}
    (pushes : pushAll k [k.le_.zeroExtend 24, k.ls.zeroExtend 24, k.lc.zeroExtend 24] = .ok k1) (kept : k1.pc = k.pc) :
    effDo reg dn count lend k = { core := k1.looped (loopCount reg dn count k) lend true, cycles := 5, next := k.pc + 2, seq := false, trap := none } := by
  refine (if_neg (by omega)).trans ((if_neg passes).trans ?_)
  simp only [inner, if_true, pushes]
  unfold Core.looped
  rw [kept]
  rfl

end

/-- The core after a word pushed. -/
def Core.pushed (v : W24) (k : Core) : Core := { k with sp := k.sp - 1, data := tput wordDef k.data (k.sp - 1).toNat v }

theorem pushAll_pushed {k : Core} (v : W24) (vs : List W24) (room : k.room 1) : pushAll k (v :: vs) = pushAll (k.pushed v) vs := pushAll_push v vs room.1 room.2

theorem pushed_room {k : Core} {n : Nat} (v : W24) (room : k.room (n + 2)) : (k.pushed v).room (n + 1) := by
  obtain ⟨room, inData⟩ := room
  show k.sb.toNat + (n + 1) ≤ (k.sp - 1).toNat ∧ (k.sp - 1).toNat ≤ 0x18000
  have below : (k.sp - 1).toNat = k.sp.toNat - 1 := by bv_omega
  omega

/-- Word `i` below the top of the stack. -/
def Core.below (k : Core) (i : Nat) : Nat := (k.sp - BitVec.ofNat 17 i).toNat

theorem below_pushed (k : Core) (v : W24) (i : Nat) : (k.pushed v).below i = k.below (i + 1) := by
  show (k.sp - 1 - BitVec.ofNat 17 i).toNat = (k.sp - BitVec.ofNat 17 (i + 1)).toNat
  bv_omega

theorem pushed_same (k : Core) (v : W24) : tget wordDef (k.pushed v).data (k.below 1) = v := tget_tput_same wordDef k.data _ v

theorem pushed_other (k : Core) (v : W24) {b : Nat} (h : b ≠ k.below 1) : tget wordDef (k.pushed v).data b = tget wordDef k.data b := tget_tput_other wordDef k.data v h

/-- The core after three words pushed. -/
def Core.pushed3 (x y z : W24) (k : Core) : Core := ((k.pushed x).pushed y).pushed z

theorem pushAll_three {k : Core} (x y z : W24) (room : k.room 3) : pushAll k [x, y, z] = .ok (k.pushed3 x y z) := by
  have room2 := pushed_room x room
  have room3 := pushed_room y room2
  obtain ⟨fits, inData⟩ := room
  have room1 : k.room 1 := ⟨by omega, inData⟩
  have room2 : (k.pushed x).room 1 := ⟨by have := room2.1; omega, room2.2⟩
  rw [pushAll_pushed _ _ room1, pushAll_pushed _ _ room2, pushAll_pushed _ _ room3]
  rfl

theorem pushed3_data {k : Core} (x y z : W24) (room : k.room 3) : tget wordDef (k.pushed3 x y z).data (k.below 1) = x ∧ tget wordDef (k.pushed3 x y z).data (k.below 2) = y
    ∧ tget wordDef (k.pushed3 x y z).data (k.below 3) = z
    ∧ ∀ b, b ≠ k.below 1 → b ≠ k.below 2 → b ≠ k.below 3 → tget wordDef (k.pushed3 x y z).data b = tget wordDef k.data b := by
  obtain ⟨room, inData⟩ := room
  have ne12 : k.below 1 ≠ k.below 2 := by unfold Core.below; bv_omega
  have ne13 : k.below 1 ≠ k.below 3 := by unfold Core.below; bv_omega
  have ne23 : k.below 2 ≠ k.below 3 := by unfold Core.below; bv_omega
  have second : (k.pushed x).below 1 = k.below 2 := below_pushed k x 1
  have third : ((k.pushed x).pushed y).below 1 = k.below 3 := (below_pushed _ y 1).trans (below_pushed k x 2)
  unfold Core.pushed3
  refine ⟨?_, ?_, ?_, fun b h1 h2 h3 => ?_⟩
  · rw [pushed_other _ z (third ▸ ne13), pushed_other _ y (second ▸ ne12), pushed_same]
  · rw [pushed_other _ z (third ▸ ne23), ← second, pushed_same]
  · rw [← third, pushed_same]
  · rw [pushed_other _ z (third ▸ h3), pushed_other _ y (second ▸ h2), pushed_other _ x h1]

section
variable (op : CoreOp) (reg : Bool) (dn count : Nat) (lend : BitVec 16)

theorem loopDo_traps : CoreTraps (.loopDo op reg dn count lend) op (fun k => k.free ∧ lend.toNat ≤ (k.pc + 2).toNat) trapIllegal :=
  coreTraps_of (fun _ => rfl) (fun _ h => .inr h.1) fun _ _ _ h => effDo_illegal h.2

theorem loopDo_skips : CoreRuns (.loopDo op reg dn count lend) op 2
    (fun k => k.free ∧ (k.pc + 2).toNat < lend.toNat ∧ loopCount reg dn count k = 0 ∧ (stBit k fLoop = true → lend ≠ k.le_)) (fun _ => lend) PcOnly := by
  refine coreRuns_of (fun _ => rfl) (fun _ h => .inr h.1) fun e k _ h => ⟨k.goOn lend 2, ?_, rfl, rfl, rfl, rfl⟩
  obtain ⟨-, room, zero, on⟩ := h
  show (effDo reg dn count lend k).Leaves _ _
  rw [effDo_zero room zero]
  exact leaves_sequence on

theorem loopDo_endsPass : CoreRuns (.loopDo op reg dn count lend) op 2
    (fun k => k.free ∧ (k.pc + 2).toNat < lend.toNat ∧ loopCount reg dn count k = 0 ∧ stBit k fLoop = true ∧ lend = k.le_ ∧ 1 < k.lc.toNat) (fun k => k.ls)
    (fun k k' => k'.lc = k.lc - 1 ∧ k' = { k with lc := k'.lc, pc := k'.pc, cycles := k'.cycles, busy := k'.busy }) := by
  refine coreRuns_of (fun _ => rfl) (fun _ h => .inr h.1) fun e k _ h => ⟨Core.goOn k.ls 2 { k with lc := k.lc - 1 }, ?_, rfl, rfl, rfl, rfl, rfl⟩
  obtain ⟨-, room, zero, loop, ends, more⟩ := h
  show (effDo reg dn count lend k).Leaves _ _
  rw [effDo_zero room zero]
  exact leaves_back loop ends more

theorem loopDo_begins : CoreRuns (.loopDo op reg dn count lend) op 2 (fun k => (k.pc + 2).toNat < lend.toNat ∧ loopCount reg dn count k ≠ 0 ∧ stBit k fLoop = false)
    (fun k => k.pc + 2) (fun k k' => k'.lc = BitVec.ofNat 16 (loopCount reg dn count k) ∧ k'.ls = k.pc + 2 ∧ k'.le_ = lend ∧ stBit k' fLoop = true
      ∧ (∀ b, b ≠ 7 → k'.st.getLsbD b = k.st.getLsbD b) ∧ k'.nest = false :: k.nest
      ∧ k' = { k with lc := k'.lc, ls := k'.ls, le_ := k'.le_, st := k'.st, nest := k'.nest, pc := k'.pc, cycles := k'.cycles, busy := k'.busy }) := by
  refine coreRuns_of (fun _ => rfl) (fun k h => .inr fun loop => ?_) fun e k _ h => ⟨(k.looped (loopCount reg dn count k) lend false).goOn (k.pc + 2) 2, ?_, rfl, rfl, rfl, ?_⟩
  · simp [loop] at h
  · obtain ⟨room, passes, outer⟩ := h
    show (effDo reg dn count lend k).Leaves _ _
    rw [effDo_outer room passes outer]
    exact leaves_jump _ _ 2 _
  · obtain ⟨loop, others⟩ := looped_status (loopCount reg dn count k) lend false k
    exact ⟨rfl, rfl, rfl, loop, others, rfl, rfl⟩

/-- A flag that is set stays as it is when it is set. -/
theorem setSt_set {i : Nat} (h : i < 24) {k : Core} (set : stBit k i = true) : setSt i true k = k := by
  have status : (setSt i true k).st = k.st := BitVec.eq_of_getLsbD_eq fun b _ => by
    rw [setSt_st h]
    split
    · subst b
      exact set.symm
    · rfl
  have parts : setSt i true k = { k with st := (setSt i true k).st } := rfl
  rw [parts, status]

theorem looped_inner {k : Core} (loop : stBit k fLoop = true) (n : Nat) (lend : BitVec 16) :
    k.looped n lend true = { k with lc := BitVec.ofNat 16 n, ls := k.pc + 2, le_ := lend, nest := true :: k.nest } :=
  setSt_set (k := { k with lc := BitVec.ofNat 16 n, ls := k.pc + 2, le_ := lend, nest := true :: k.nest }) (by decide) loop

theorem loopDo_nests : CoreRuns (.loopDo op reg dn count lend) op 5
    (fun k => k.free ∧ (k.pc + 2).toNat < lend.toNat ∧ loopCount reg dn count k ≠ 0 ∧ stBit k fLoop = true ∧ k.room 3) (fun k => k.pc + 2) (fun k k' =>
      k'.lc = BitVec.ofNat 16 (loopCount reg dn count k) ∧ k'.ls = k.pc + 2 ∧ k'.le_ = lend ∧ k'.st = k.st ∧ k'.nest = true :: k.nest ∧ k'.sp = k.sp - 3
        ∧ tget wordDef k'.data (k.below 1) = k.le_.zeroExtend 24 ∧ tget wordDef k'.data (k.below 2) = k.ls.zeroExtend 24 ∧ tget wordDef k'.data (k.below 3) = k.lc.zeroExtend 24
        ∧ (∀ b, b ≠ k.below 1 → b ≠ k.below 2 → b ≠ k.below 3 → tget wordDef k'.data b = tget wordDef k.data b)
        ∧ k' = { k with lc := k'.lc, ls := k'.ls, le_ := k'.le_, nest := k'.nest, sp := k'.sp, data := k'.data, pc := k'.pc, cycles := k'.cycles, busy := k'.busy }) := by
  refine coreRuns_of (fun _ => rfl) (fun _ h => .inr h.1) fun e k _ h =>
    ⟨((k.pushed3 (k.le_.zeroExtend 24) (k.ls.zeroExtend 24) (k.lc.zeroExtend 24)).looped (loopCount reg dn count k) lend true).goOn (k.pc + 2) 5, ?_, rfl, rfl, rfl, ?_⟩
  · obtain ⟨-, room, passes, inner, fits⟩ := h
    show (effDo reg dn count lend k).Leaves _ _
    rw [effDo_inner room passes inner (pushAll_three _ _ _ fits) rfl]
    exact leaves_jump _ _ 5 _
  · obtain ⟨-, -, -, inner, fits⟩ := h
    obtain ⟨first, second, third, others⟩ := pushed3_data (k.le_.zeroExtend 24) (k.ls.zeroExtend 24) (k.lc.zeroExtend 24) fits
    rw [looped_inner (show stBit (k.pushed3 _ _ _) fLoop = true from inner)]
    have sp : k.sp - 1 - 1 - 1 = k.sp - 3 := by bv_omega
    exact ⟨rfl, rfl, rfl, rfl, rfl, sp, first, second, third, others, rfl⟩

end

/-- The instruction is the last of the loop. -/
def Core.last (k : Core) : Prop := stBit k fLoop = true ∧ k.pc + 1 = k.le_

section
variable (op : CoreOp)

theorem nop_loopsBack : CoreRuns (.nop op) op 1 (fun k => k.last ∧ 1 < k.lc.toNat) (fun k => k.ls)
    (fun k k' => k'.lc = k.lc - 1 ∧ k' = { k with lc := k'.lc, pc := k'.pc, cycles := k'.cycles, busy := k'.busy }) :=
  coreRuns_of (fun _ => rfl) (fun _ _ => .inl rfl) fun _ k _ h =>
    ⟨Core.goOn k.ls 1 { k with lc := k.lc - 1 }, leaves_back (a := k.pc + 1) h.1.1 h.1.2 h.2, rfl, rfl, rfl, rfl, rfl⟩

theorem nop_exits : CoreRuns (.nop op) op 1 (fun k => k.last ∧ k.lc.toNat ≤ 1 ∧ k.nest.headD false = false) (fun k => k.le_) (fun k k' => stBit k' fLoop = false
    ∧ (∀ b, b ≠ 7 → k'.st.getLsbD b = k.st.getLsbD b) ∧ k' = { k with st := k'.st, nest := k.nest.tail, pc := k'.pc, cycles := k'.cycles, busy := k'.busy }) := by
  refine coreRuns_of (fun _ => rfl) (fun _ _ => .inl rfl) fun e k _ h => ?_
  obtain ⟨⟨loop, ends⟩, low, outer⟩ := h
  refine ⟨(setSt fLoop false { k with nest := k.nest.tail }).goOn (k.pc + 1) 1, ?_, ends, rfl, rfl, stBit_setSt_same (by decide) _ _, fun b hb => ?_, rfl⟩
  · exact ⟨rfl, _, _, loopEnd_exit (k := { k with cycles := k.cycles + 1, busy := k.busy + 1 }) loop ends low outer, rfl⟩
  · exact (setSt_st (by decide) false _ b).trans (if_neg hb)

theorem nop_exitsInner : CoreRuns (.nop op) op 4 (fun k => k.last ∧ k.lc.toNat ≤ 1 ∧ k.nest.headD false = true ∧ k.held 3) (fun k => k.le_) (fun k k' =>
    k'.lc = (k.stk 0).truncate 16 ∧ k'.ls = (k.stk 1).truncate 16 ∧ k'.le_ = (k.stk 2).truncate 16
      ∧ k' = { k with lc := k'.lc, ls := k'.ls, le_ := k'.le_, sp := k.sp + 3, nest := k.nest.tail, pc := k'.pc, cycles := k'.cycles, busy := k'.busy }) := by
  refine coreRuns_of (fun _ => rfl) (fun _ _ => .inl rfl) fun e k top h => ?_
  obtain ⟨⟨loop, ends⟩, low, inner, held⟩ := h
  refine ⟨Core.goOn (k.pc + 1) 4
    { k with lc := (k.stk 0).truncate 16, ls := (k.stk 1).truncate 16, le_ := (k.stk 2).truncate 16, sp := k.sp + 3, nest := k.nest.tail }, ?_, ends, rfl, rfl, rfl, rfl, rfl, rfl⟩
  rw [top]
  exact ⟨rfl, _, _, loopEnd_exitInner (k := { k with cycles := k.cycles + 1, busy := k.busy + 1 }) loop ends low inner
    (popAll_held (k := { k with cycles := k.cycles + 1, busy := k.busy + 1 }) 3 held), rfl⟩

end

end Sys2Proof.Machine

namespace Sys2Proof.Machine

/-! ### REP (R413, R421) -/

/-- The count of a REP. -/
def repCount (reg : Bool) (dn count : Nat) (k : Core) : Nat := if reg then (k.dr dn).toNat else count

section
variable {reg : Bool} {dn count : Nat} {k : Core}

theorem effRep_illegal (fresh : stBit k fRes = false) (h : 4095 < repCount reg dn count k) : effRep reg dn count k = effTrap k trapIllegal := by
  unfold effRep
  rw [fresh]
  exact (if_neg (by decide)).trans (if_pos h)

theorem effRep_zero (fresh : stBit k fRes = false) (zero : repCount reg dn count k = 0) :
    effRep reg dn count k = { core := { k with rc := 0, rep := none }, cycles := 1, next := k.pc + 2, seq := true, trap := none } := by
  unfold repCount at zero
  simp [effRep, fresh, zero]

theorem effRep_begins (fresh : stBit k fRes = false) (some' : 0 < repCount reg dn count k) (small : repCount reg dn count k ≤ 4095) :
    effRep reg dn count k = { core := { k with rc := BitVec.ofNat 24 (repCount reg dn count k), rep := some k.pc }, cycles := 1, next := k.pc + 1, seq := false, trap := none } := by
  have nonzero : repCount reg dn count k ≠ 0 := by omega
  have legal : ¬ 4095 < repCount reg dn count k := by omega
  unfold effRep
  unfold repCount at nonzero legal ⊢
  simp only [fresh, Bool.false_eq_true, if_false, legal, nonzero, decide_false]

theorem effRep_resumedZero (resumed : stBit k fRes = true) (zero : k.rc = 0) :
    effRep reg dn count k = { core := setSt fRes false { k with rep := none }, cycles := 1, next := k.pc + 2, seq := true, trap := none } := by
  simp [effRep, resumed, zero]

theorem effRep_resumed (resumed : stBit k fRes = true) (nonzero : k.rc ≠ 0) :
    effRep reg dn count k = { core := setSt fRes false { k with rep := some k.pc }, cycles := 1, next := k.pc + 1, seq := false, trap := none } := by
  simp only [effRep, resumed, nonzero, if_true, if_false, decide_false]

end

section
variable (op : CoreOp) (reg : Bool) (dn count : Nat)

theorem rep_traps : CoreTraps (.rep op reg dn count) op (fun k => k.free ∧ stBit k fRes = false ∧ 4095 < repCount reg dn count k) trapIllegal :=
  coreTraps_of (fun _ => rfl) (fun _ h => .inr h.1) fun _ _ _ h => effRep_illegal h.2.1 h.2.2

theorem rep_skips : CoreRuns (.rep op reg dn count) op 1
    (fun k => k.free ∧ stBit k fRes = false ∧ repCount reg dn count k = 0 ∧ (stBit k fLoop = true → k.pc + 2 ≠ k.le_)) (fun k => k.pc + 2)
    (fun k k' => k' = { k with rc := 0, rep := none, pc := k'.pc, cycles := k'.cycles, busy := k'.busy }) := by
  refine coreRuns_of (fun _ => rfl) (fun _ h => .inr h.1) fun e k _ h => ⟨Core.goOn (k.pc + 2) 1 { k with rc := 0, rep := none }, ?_, rfl, rfl, rfl, rfl⟩
  obtain ⟨-, fresh, zero, on⟩ := h
  show (effRep reg dn count k).Leaves _ _
  rw [effRep_zero fresh zero]
  exact leaves_sequence on

theorem rep_endsPass : CoreRuns (.rep op reg dn count) op 1
    (fun k => k.free ∧ stBit k fRes = false ∧ repCount reg dn count k = 0 ∧ stBit k fLoop = true ∧ k.pc + 2 = k.le_ ∧ 1 < k.lc.toNat) (fun k => k.ls)
    (fun k k' => k' = { k with lc := k.lc - 1, rc := 0, rep := none, pc := k'.pc, cycles := k'.cycles, busy := k'.busy }) := by
  refine coreRuns_of (fun _ => rfl) (fun _ h => .inr h.1) fun e k _ h => ⟨Core.goOn k.ls 1 { k with lc := k.lc - 1, rc := 0, rep := none }, ?_, rfl, rfl, rfl, rfl⟩
  obtain ⟨-, fresh, zero, loop, ends, more⟩ := h
  show (effRep reg dn count k).Leaves _ _
  rw [effRep_zero fresh zero]
  exact leaves_back (k := { k with rc := 0, rep := none }) loop ends more

theorem rep_resumesDone : CoreRuns (.rep op reg dn count) op 1
    (fun k => k.free ∧ stBit k fRes = true ∧ k.rc = 0 ∧ (stBit k fLoop = true → k.pc + 2 ≠ k.le_)) (fun k => k.pc + 2)
    (fun k k' => stBit k' fRes = false ∧ k' = { k with st := k'.st, rep := none, pc := k'.pc, cycles := k'.cycles, busy := k'.busy }) := by
  refine coreRuns_of (fun _ => rfl) (fun _ h => .inr h.1) fun e k _ h =>
    ⟨(setSt fRes false { k with rep := none }).goOn (k.pc + 2) 1, ?_, rfl, rfl, rfl, stBit_setSt_same (by decide) _ _, rfl⟩
  obtain ⟨-, resumed, zero, on⟩ := h
  show (effRep reg dn count k).Leaves _ _
  rw [effRep_resumedZero resumed zero]
  refine leaves_sequence fun loop => on ?_
  rw [setSt_loop (by decide)] at loop
  exact loop

theorem rep_begins : CoreRuns (.rep op reg dn count) op 1
    (fun k => k.free ∧ stBit k fRes = false ∧ 0 < repCount reg dn count k ∧ repCount reg dn count k ≤ 4095) (fun k => k.pc + 1) (fun k k' =>
      k'.rc = BitVec.ofNat 24 (repCount reg dn count k) ∧ k'.rep = some k.pc ∧ k' = { k with rc := k'.rc, rep := k'.rep, pc := k'.pc, cycles := k'.cycles, busy := k'.busy }) := by
  refine coreRuns_of (fun _ => rfl) (fun _ h => .inr h.1) fun e k _ h =>
    ⟨Core.goOn (k.pc + 1) 1 { k with rc := BitVec.ofNat 24 (repCount reg dn count k), rep := some k.pc }, ?_, rfl, rfl, rfl, rfl, rfl, rfl⟩
  obtain ⟨-, fresh, nonzero, small⟩ := h
  show (effRep reg dn count k).Leaves _ _
  rw [effRep_begins fresh nonzero small]
  exact leaves_jump _ _ 1 _

theorem rep_resumes : CoreRuns (.rep op reg dn count) op 1 (fun k => k.free ∧ stBit k fRes = true ∧ k.rc ≠ 0) (fun k => k.pc + 1) (fun k k' =>
    k'.rep = some k.pc ∧ stBit k' fRes = false ∧ k' = { k with st := k'.st, rep := k'.rep, pc := k'.pc, cycles := k'.cycles, busy := k'.busy }) := by
  refine coreRuns_of (fun _ => rfl) (fun _ h => .inr h.1) fun e k _ h =>
    ⟨(setSt fRes false { k with rep := some k.pc }).goOn (k.pc + 1) 1, ?_, rfl, rfl, rfl, rfl, stBit_setSt_same (by decide) _ _, rfl⟩
  obtain ⟨-, resumed, nonzero⟩ := h
  show (effRep reg dn count k).Leaves _ _
  rw [effRep_resumed resumed nonzero]
  exact leaves_jump _ _ 1 _

/-- A NOP that a REP repeats, RC standing above 1 or not (R413). -/
theorem nop_repeated (s : State) (a : BitVec 16) (ready : CoreReady op (onCore op.core (fun k => { k with rep := none }) s)) (repeats : (s.core op.core).rep = some a)
    (inLine : InLine 1 (s.core op.core)) : let k := s.core op.core
    exec (.nop op) s = .next (onCore op.core (fun _ => if k.rc.toNat ≤ 1 then { k with rc := 0, rep := none, pc := k.pc + 1, cycles := k.cycles + 1, busy := k.busy + 1 }
      else { k with rc := k.rc - 1, cycles := k.cycles + 1, busy := k.busy + 1 }) s) := by
  intro k
  obtain ⟨core, ecc, -, budget, t, run, safe⟩ := ready
  unfold coreEnv at budget
  rw [onCore_same] at budget run safe
  have run : (s.core op.core).run = some t := run
  have safe : (s.core op.core).safe = 1 → ((s.taskDesc t).map tdSafe).getD 65535 = 65535 := safe
  have noSafe : ¬ ((decide ((s.core op.core).safe = 1) && decide (((s.taskDesc t).map tdSafe).getD 65535 ≠ 65535)) = true) := by
    simpa using safe
  have noCorrected : ¬ (0 : Nat) = 1 := Nat.zero_ne_one
  have noUncorrected : ¬ (0 : Nat) = 2 := by decide
  have within : ¬ (coreEnv s op.core).budget ≤ (s.core op.core).cycles := Nat.not_le.mpr budget
  have ends (top : BitVec 17) : loopEnd top { k with rc := 0, rep := none, cycles := k.cycles + 1, busy := k.busy + 1 } (k.pc + 1)
      = .ok ({ k with rc := 0, rep := none, pc := k.pc + 1, cycles := k.cycles + 1, busy := k.busy + 1 }, 0) := by
    refine if_neg fun h => ?_
    obtain ⟨loop, last⟩ := Bool.and_eq_true_iff.mp h
    exact (inLine loop).1 (of_decide_eq_true last)
  show execNop op s = _
  unfold execNop coreDo
  simp only [run, if_neg (Nat.not_le.mpr core), if_neg noSafe, if_neg within, ecc, if_neg noCorrected, if_neg noUncorrected, repeats]
  by_cases low : (s.core op.core).rc.toNat ≤ 1
  · simp only [effSeq, low, if_true]
    erw [ends]
    simp [low, k]
  · simp [effSeq, low, k]

end

end Sys2Proof.Machine

namespace Sys2Proof.Machine

/-! ### Block instructions (R416, R417, R419) -/

theorem dRead_cut (e : CoreEnv) (k : Core) (a : Nat) : OnSome (fun r => r.2.cut = k.cut) (dRead e k a) := by
  unfold dRead
  dsimp only
  repeat' with_reducible apply OnSome.ite
  all_goals simp [OnSome]

theorem dWrite_cut (e : CoreEnv) (k : Core) (a : Nat) (v : W24) : OnSome (fun r => r.1.cut = k.cut) (dWrite e k a v) := by
  unfold dWrite
  dsimp only
  repeat' with_reducible apply OnSome.ite
  all_goals simp [OnSome, onPort]

theorem OnSome.bind {α β : Type} {P : α → Prop} {Q : β → Prop} {x : Option α} {f : α → Option β} (h : OnSome P x) (k : ∀ a, P a → OnSome Q (f a)) : OnSome Q (x.bind f) := by
  cases x with
  | none => exact .none
  | some a => exact k a (h a rfl)

theorem OnSome.map {α β : Type} {P : α → Prop} {Q : β → Prop} {x : Option α} {f : α → β} (h : OnSome P x) (k : ∀ a, P a → Q (f a)) : OnSome Q (x.map f) := by
  cases x with
  | none => exact .none
  | some a => exact .some (k a (h a rfl))

theorem bmovOne_cut {e : CoreEnv} {two : Bool} {ps pd : Nat} {k k' : Core} {x : Nat} (h : bmovOne e two ps pd k = .ok (k', x)) : k'.cut = k.cut := by
  unfold bmovOne at h
  split at h
  case h_2 => exact absurd h nofun
  case h_1 p1 _ _ _ =>
    dsimp only at h
    split at h
    case h_1 => exact absurd h nofun
    case h_2 k1 y moved =>
      have kept : k1.cut = k.cut := by
        refine OnSome.bind (Q := fun r => r.1.cut = k.cut) (dRead_cut e k _) (fun a ha => .ite ?_ ?_) _ moved
        · refine (dRead_cut e a.2 _).bind fun b hb => (dWrite_cut e b.2 _ _).bind fun c hc => (dWrite_cut e c.1 _ _).map fun d hd => ?_
          exact hd.trans (hc.trans (hb.trans ha))
        · exact fun c hc => (dWrite_cut e a.2 _ _ c hc).trans ha
      split at h
      case h_1 =>
        obtain ⟨rfl, -⟩ := Prod.mk.inj (Except.ok.inj h)
        exact kept
      case h_2 => exact absurd h nofun

theorem bflyOne_cut {e : CoreEnv} {scale : Bool} {b : Nat} {k k' : Core} {x : Nat} (h : bflyOne e scale b k = .ok (k', x)) : k'.cut = k.cut := by
  unfold bflyOne at h
  dsimp only at h
  split at h
  case h_2 => exact absurd h nofun
  case h_1 =>
    split at h
    case h_1 => exact absurd h nofun
    case h_2 k1 y written =>
      have kept : k1.cut = k.cut := by
        refine OnSome.bind (Q := fun r => r.1.cut = k.cut) (dWrite_cut e k _ _) (fun a ha => ?_) _ written
        refine (dWrite_cut e a.1 _ _).bind fun b hb => (dWrite_cut e b.1 _ _).bind fun c hc => fun d hd => ?_
        exact (dWrite_cut e c.1 _ _ d hd).trans (hc.trans (hb.trans ha))
      obtain ⟨rfl, -⟩ := Prod.mk.inj (Except.ok.inj h)
      split <;> exact kept

/-- Elements that keep `cut` keep it through a block. -/
theorem blockGo_cut {f : Nat → Core → Except Nat (Core × Nat)} (hf : ∀ i k k' x, f i k = .ok (k', x) → k'.cut = k.cut) (n i d x : Nat) (k : Core) :
    (blockGo f n i d x k).1.cut = k.cut := by
  induction n generalizing i d x k with
  | zero => rfl
  | succ n ih =>
    unfold blockGo
    split
    · rfl
    · next r h => exact (ih _ _ _ _).trans (hf i k r.1 r.2 h)

/-- The core from which a block of `n` elements starts. -/
def Core.blockFrom (n : Nat) (k : Core) : Core := { k with st := k.st &&& ~~~64#24, rc := BitVec.ofNat 24 n, cut := false }

section
variable {f : Nat → Core → Except Nat (Core × Nat)} {n base per : Nat} {cut : Option Nat} {k k1 : Core} {x : Nat}

/-- A block that nothing traps leaves `n - m` elements, `m` those before the SAFE request. -/
theorem effBlock_eq (fresh : stBit k fRes = false) (whole : k.cut = false)
    (go : blockGo f (min (cut.getD n) n) 0 0 0 (k.blockFrom n) = (k1, min (cut.getD n) n, x, none)) : let m := min (cut.getD n) n
    effBlock f n base per cut k = if m < n then
        { core := { k1 with rc := BitVec.ofNat 24 (n - m), cut := true }, cycles := base + per * m + x, next := k.pc, seq := false, trap := none }
      else { core := { k1 with rc := BitVec.ofNat 24 (n - m) }, cycles := base + per * m + x, next := k.pc + 1, seq := true, trap := none } := by
  have start : setSt fRes false { k with rc := BitVec.ofNat 24 n, cut := false } = k.blockFrom n := rfl
  cases cut with
  | none =>
    simp only [Option.getD_none, Nat.min_self] at go ⊢
    simp only [effBlock, fresh, whole, Bool.or_self, Bool.false_eq_true, if_false, Nat.sub_self, start, go]
  | some c =>
    simp only [Option.getD_some] at go ⊢
    simp only [effBlock, fresh, whole, Bool.or_self, Bool.false_eq_true, if_false, Nat.sub_self, start, go]

/-- A block instruction runs its elements, and is left at its own address where a SAFE request stopped it. -/
theorem block_leaves (kept : ∀ i k k' x, f i k = .ok (k', x) → k'.cut = k.cut) (fresh : stBit k fRes = false) (whole : k.cut = false) (free : k.free)
    (go : blockGo f (min (cut.getD n) n) 0 0 0 (k.blockFrom n) = (k1, min (cut.getD n) n, x, none)) (loop : stBit k1 fLoop = stBit k fLoop) (ends : k1.le_ = k.le_)
    (top : BitVec 17) : let m := min (cut.getD n) n
    (effBlock f n base per cut k).Leaves top { k1 with rc := BitVec.ofNat 24 (n - m), cut := decide (m < n), pc := (if m < n then k.pc else k.pc + 1), cycles := k1.cycles + (base + per * m + x), busy := k1.busy + (base + per * m + x) } := by
  intro m
  rw [effBlock_eq fresh whole go]
  by_cases stopped : m < n
  · rw [if_pos stopped, if_pos stopped, decide_eq_true stopped]
    exact leaves_jump _ _ _ _
  · have uncut : k1.cut = false := by
      have := blockGo_cut kept m 0 0 0 (k.blockFrom n)
      rw [go] at this
      exact this
    rw [if_neg stopped, if_neg stopped, decide_eq_false stopped, ← uncut]
    refine leaves_sequence (k := { k1 with rc := BitVec.ofNat 24 (n - m) }) fun l => ?_
    show k.pc + 1 ≠ k1.le_
    rw [ends]
    exact free (loop ▸ l)

end

end Sys2Proof.Machine

namespace Sys2Proof.Machine

section
variable {op : CoreOp} {s : State}

/-- A block instruction on a ready core, at its first start. -/
theorem block_runs {i : Instr} {f : Nat → Core → Except Nat (Core × Nat)} {g : CoreEnv → Core → Eff} {n base per : Nat} {cut : Option Nat} {k1 : Core} {x : Nat}
    (he : exec i s = .next (coreDo op false false g s)) (eff : g (coreEnv s op.core) (s.core op.core) = effBlock f n base per cut (s.core op.core))
    (kept : ∀ i k k' x, f i k = .ok (k', x) → k'.cut = k.cut) (ready : CoreReady op s) (fresh : stBit (s.core op.core) fRes = false) (whole : (s.core op.core).cut = false)
    (free : (s.core op.core).free) (go : blockGo f (min (cut.getD n) n) 0 0 0 ((s.core op.core).blockFrom n) = (k1, min (cut.getD n) n, x, none))
    (loop : stBit k1 fLoop = stBit (s.core op.core) fLoop) (ends : k1.le_ = (s.core op.core).le_) : let k := s.core op.core
    let m := min (cut.getD n) n
    ∃ u, exec i s = .next u ∧ (∀ c, c ≠ op.core → u.core c = s.core c) ∧ Only [.ces] s u ∧ u.core op.core = { k1 with rc := BitVec.ofNat 24 (n - m), cut := decide (m < n), pc := (if m < n then k.pc else k.pc + 1), cycles := k1.cycles + (base + per * m + x), busy := k1.busy + (base + per * m + x) } := by
  intro k m
  have run := (coreDo_ready (rep := false) (last := false) (f := g) ready (.inr free)).trans (coreTakes_leaves (eff ▸ block_leaves (base := base) (per := per) kept fresh whole free go loop ends _))
  exact ⟨_, he.trans (congrArg Host.Outcome.next run), fun _ h => onCore_other _ s h, onCore_frame _ _ s, onCore_same _ _ s⟩

end

theorem effBmov_block (e : CoreEnv) (two : Bool) (ps pd : Nat) {dn : Nat} (cut : Option Nat) {k : Core} (small : (k.dr dn).toNat ≤ 4095) :
    effBmov e two ps pd dn cut k = effBlock (fun _ => bmovOne e two ps pd) (k.dr dn).toNat 2 (if two then 2 else 1) cut k :=
  if_neg (by rw [decide_eq_false (by omega), Bool.false_and]; decide)

theorem effBfly_block (e : CoreEnv) (scale : Bool) {dn : Nat} (cut : Option Nat) {k : Core} (small : (k.dr dn).toNat ≤ 4095) :
    effBfly e dn scale cut k = effBlock (bflyOne e scale) (k.dr dn).toNat 3 4 cut k := by
  unfold effBfly
  rw [Nat.mod_eq_of_lt (by omega)]

/-! ### One element of BMOV (R416) -/

theorem setP_ptr_other {n j : Nat} (v : BitVec 17) (k : Core) (h : j % 8 ≠ n % 8) : (setP n v k).ptr j = k.ptr j := tget_tput_other pDef k.p v h

theorem ptrUpdate_linear {k : Core} (linear : k.amc = 0) (n : Nat) (step : Int) (down : Bool) : ptrUpdate k n step down = some (BitVec.ofInt 17 ((k.ptr n).toNat + step)) := by
  have mode : bits k.amc.toNat (2 * (n % 8)) 2 = 0 := by
    rw [linear]
    simp [bits]
  unfold ptrUpdate
  rw [mode]
  rfl

theorem bmovOne_moves (e : CoreEnv) (k : Core) (ps pd : Nat) (linear : k.amc = 0) (apart : ps % 8 ≠ pd % 8) (source : (k.ptr ps).toNat < 0x18000) (target : (k.ptr pd).toNat < 0x18000) :
    ∃ k', bmovOne e false ps pd k = .ok (k', 0) ∧ tget wordDef k'.data (k.ptr pd).toNat = tget wordDef k.data (k.ptr ps).toNat
      ∧ (∀ b, b ≠ (k.ptr pd).toNat → tget wordDef k'.data b = tget wordDef k.data b) ∧ k'.ptr ps = BitVec.ofInt 17 ((k.ptr ps).toNat + (k.modr ps).toInt)
      ∧ k'.ptr pd = BitVec.ofInt 17 ((k.ptr pd).toNat + (k.modr pd).toInt) ∧ k' = { k with data := k'.data, p := k'.p } := by
  generalize value : tget wordDef k.data (k.ptr ps).toNat = v
  let moved : Core := { k with data := tput wordDef k.data (k.ptr pd).toNat v }
  let k1 := setP ps (BitVec.ofInt 17 ((k.ptr ps).toNat + (k.modr ps).toInt)) moved
  have pointer : k1.ptr pd = k.ptr pd := setP_ptr_other _ moved apart.symm
  refine ⟨setP pd (BitVec.ofInt 17 ((k.ptr pd).toNat + (k.modr pd).toInt)) k1, ?_, tget_tput_same wordDef k.data _ v, fun b hb => tget_tput_other wordDef k.data v hb,
    (setP_ptr_other _ k1 apart).trans (setP_ptr_same ps _ moved), setP_ptr_same pd _ k1, rfl⟩
  have second : ptrUpdate k1 pd (k1.modr pd).toInt false = some (BitVec.ofInt 17 ((k.ptr pd).toNat + (k.modr pd).toInt)) := by
    rw [ptrUpdate_linear (k := k1) linear, pointer]
    rfl
  unfold bmovOne
  simp only [ptrUpdate_linear linear, dRead_data e k source, value, Option.bind_some, Bool.false_eq_true, if_false, dWrite_data e k v target]
  erw [second]

/-- Settles O55: each clause by the lemmas of its section. -/
theorem cesynControl : Obligations.CesynControl := by
  unfold Obligations.CesynControl
  intro free room held stk below pcOnly
  refine ⟨fun op cond off => ⟨br_taken op cond off, br_passed op cond off, br_reserved op cond off⟩, condHolds_list,
    fun op a => ⟨jmp_jumps op a, call_pushes op a, ret_pops op, rett_pops op, jumps_trap op a⟩,
    fun op reg dn count lend => ⟨loopDo_traps op reg dn count lend, loopDo_skips op reg dn count lend, loopDo_endsPass op reg dn count lend, loopDo_begins op reg dn count lend,
      loopDo_nests op reg dn count lend⟩,
    fun op => ⟨nop_loopsBack op, nop_exits op, nop_exitsInner op⟩,
    fun op reg dn count => ⟨rep_traps op reg dn count, rep_skips op reg dn count, rep_endsPass op reg dn count, rep_resumesDone op reg dn count, rep_begins op reg dn count,
      rep_resumes op reg dn count, ?repeated⟩,
    ?block, bmovOne_moves⟩
  case repeated =>
    intro s a k ready repeats inLine
    refine ⟨_, nop_repeated op s a ready repeats inLine, fun _ h => onCore_other _ s h, onCore_frame _ _ s, fun more => ?_, fun last => ?_⟩
    · rw [onCore_same, if_neg (Nat.not_le.mpr more)]
    · rw [onCore_same, if_pos last]
  case block =>
    intro op two scale ps pd dn cut s k e go ready inLine free fresh whole small f i base per listed m k1 x bound done loop ends
    subst bound
    simp only [List.mem_cons, List.not_mem_nil, or_false, Prod.mk.injEq] at listed
    rcases listed with ⟨rfl, rfl, rfl, rfl⟩ | ⟨rfl, rfl, rfl, rfl⟩
    · exact block_runs rfl (effBmov_block _ two ps pd cut small) (fun _ _ _ _ => bmovOne_cut) ready fresh whole free done loop ends
    · exact block_runs rfl (effBfly_block _ scale cut small) (fun _ _ _ _ => bflyOne_cut) ready fresh whole free done loop ends

end Sys2Proof.Machine

namespace Sys2Proof.Machine

/-! ### CAN opcodes (R438, R447, R460, R469, R470) -/

/-- A unit whose record in force is replaced by another one is reassigned (R165). -/
def reassignedUnless (kept : Prop) [Decidable kept] (t i : Nat) (s : State) : State := if kept then s else reassign t i s

section
variable (kept : Prop) [Decidable kept] (t i : Nat) (s : State)

theorem reassignedUnless_frame : Only [.roles] s (reassignedUnless kept t i s) := Only.ite (Only.refl _ s) (reassign_frame t i s)

theorem reassignedUnless_same : (reassignedUnless kept t i s).role (ukey t i) =
    { s.role (ukey t i) with gen := if kept then s.gen t i else nextGen (s.gen t i) } := by
  unfold reassignedUnless
  split
  · rfl
  · exact reassign_same t i s

theorem reassignedUnless_other {k : Nat} (h : k ≠ ukey t i) : (reassignedUnless kept t i s).role k = s.role k := by
  unfold reassignedUnless
  split
  · rfl
  · exact reassign_other t i s h

/-- What stands in force is the unit's generation and owner after a change that keeps every role. -/
theorem roles_reassignedUnless {u : State} (roles : u.roles = (reassignedUnless kept t i s).roles) :
    u.gen t i = (if kept then s.gen t i else nextGen (s.gen t i)) ∧ u.owner t i = s.owner t i ∧ ∀ k, k ≠ ukey t i → u.role k = s.role k := by
  have role (k : Nat) : u.role k = (reassignedUnless kept t i s).role k := congrArg (fun x => tget roleDef x k) roles
  have own := (role (ukey t i)).trans (reassignedUnless_same kept t i s)
  refine ⟨congrArg Role.gen own, by unfold State.owner; rw [own], fun k h => (role k).trans (reassignedUnless_other kept t i s h)⟩

end

theorem can_of_bus {s t : State} (h : t.bus = s.bus) (p : Nat) : t.can p = s.can p := by
  unfold State.can
  rw [h]

theorem onCan_bus (p : Nat) (f : CanPort → CanPort) {s t : State} (h : t.bus = s.bus) : (onCan p f t).bus = (onCan p f s).bus := by
  unfold onCan onBus
  rw [h]

theorem canConfig_st (r : Req) (s : State) : (canConfigSpec.run r s).st =
    onCan (unitIx r.b) (fun k => { k with cfg := sub r.b 8 64, stored := true }) (reassignedUnless ((s.can (unitIx r.b)).cfg = sub r.b 8 64) 4 (unitIx r.b) s) := rfl

theorem canConfig_bus (r : Req) (s : State) : (canConfigSpec.run r s).st.bus =
    (onCan (unitIx r.b) (fun k => { k with cfg := sub r.b 8 64, stored := true }) s).bus :=
  onCan_bus _ _ (reassignedUnless_frame _ 4 _ s .bus (by decide))

theorem canConfig_takes (r : Req) (s : State) :
    let p := unitIx r.b
    let t := (canConfigSpec.run r s).st
    t.can p = { s.can p with cfg := sub r.b 8 64, stored := true } ∧ t.gen 4 p = (if (s.can p).cfg = sub r.b 8 64 then s.gen 4 p else nextGen (s.gen 4 p))
      ∧ t.owner 4 p = s.owner 4 p ∧ (∀ k, k ≠ ukey 4 p → t.role k = s.role k) ∧ (∀ q, q ≠ p → t.can q = s.can q) ∧ t.bus.filt = s.bus.filt := by
  intro p t
  obtain ⟨gen, owner, others⟩ := roles_reassignedUnless ((s.can p).cfg = sub r.b 8 64) 4 p s (u := t) rfl
  have port (q : Nat) : t.can q = (onCan p (fun k => { k with cfg := sub r.b 8 64, stored := true }) s).can q := can_of_bus (canConfig_bus r s) q
  exact ⟨(port p).trans (onCan_same p _ s), gen, owner, others, fun q h => (port q).trans (onCan_other _ s h), by show (canConfigSpec.run r s).st.bus.filt = _; rw [canConfig_bus]; rfl⟩

theorem canFiltWrite_stages (r : Req) (s : State) :
    let o := rd r.b 0 2
    let t := (canFiltWriteSpec.run r s).st
    (∀ i x, (r.b.drop 4)[i]? = some x → tget octDef t.bus.filtStage (o + i) = x)
      ∧ ∀ j, (j < o ∨ o + (r.b.length - 4) ≤ j) → tget octDef t.bus.filtStage j = tget octDef s.bus.filtStage j := by
  intro o t
  obtain ⟨inside, outside⟩ := foldl_write (tget octDef) (tput octDef) id (fun t j x => tget_tput_same octDef t j x)
    (fun t j x i h => tget_tput_other octDef t x h) o (r.b.drop 4) 0 s.bus.filtStage
  refine ⟨fun i x at_ => ?_, fun j h => outside j (by rw [List.length_drop]; exact h)⟩
  have read := inside i (List.getElem?_eq_some_iff.1 at_).1
  rw [at_] at read
  exact Option.some.inj read

/-- Settles O36: the opcodes by the laws of acceptance, their effects by the rule of each opcode above. -/
theorem canOpcodes : Obligations.CanOpcodes := by
  refine ⟨waits_of _ _ _ rfl rfl (fun _ _ _ => rfl), waits_of _ _ _ rfl rfl (fun _ _ _ => rfl), waits_of _ _ _ rfl rfl (fun _ _ _ => rfl),
    waits_of _ _ _ rfl rfl (fun _ _ _ => rfl), waits_of _ _ _ rfl rfl (fun _ _ _ => rfl), waits_of _ _ _ rfl rfl (fun _ _ _ => rfl),
    waits_of _ _ _ rfl rfl (fun _ _ _ => rfl), waits_of _ _ _ rfl rfl (fun _ _ _ => rfl), waits_of _ _ _ rfl rfl (fun _ _ _ => rfl),
    tells_of _ _ _ rfl (.inl rfl) rfl (fun _ _ _ => rfl), acts_of _ _ _ rfl rfl (fun r s => canFiltWriteSpec_frame r s .ctxs (by decide)) (fun _ _ _ => rfl),
    waits_of _ _ _ rfl rfl (fun _ _ _ => rfl), fun r s => ?ports, fun r s => ?filters⟩
  case ports =>
    obtain ⟨record, gen, owner, roles, others, filt⟩ := canConfig_takes r s
    exact ⟨record, gen, owner, roles, onCan_same _ _ s, onCan_same _ _ s, fun q h => ⟨others q h, onCan_other _ s h, onCan_other _ s h⟩, filt,
      canConfigSpec_frame r s, canWakeConfigSpec_frame r s, canControlSpec_frame r s⟩
  case filters =>
    obtain ⟨written, kept⟩ := canFiltWrite_stages r s
    exact ⟨written, kept, rfl, rfl, rfl, rfl, rfl, fun _ => ⟨rfl, rfl⟩, canFiltWriteSpec_frame r s, canFiltApplySpec_frame r s⟩

end Sys2Proof.Machine

namespace Sys2Proof.Machine

/-! ### What an entry of a queue leaves of its configuration -/

theorem qDrop_cfg (q : Queue) (tb : Tb) (fn : Fn) : (qDrop q tb fn).cfg = q.cfg := by
  unfold qDrop
  dsimp only
  split <;> rfl

theorem qAbort_cfg (q : Queue) (r n m : Nat) (b : Bool) (fn : Fn) : (qAbort q r n m b fn).cfg = q.cfg := by
  unfold qAbort
  rfl

theorem qCells_cfg (lim : Nat) (fn : Fn) (chunks : List Rec) (first : Bool) (stored : Nat) (q : Queue) : (qCells lim fn chunks first stored q).cfg = q.cfg := by
  induction chunks generalizing first stored q with
  | nil => rfl
  | cons d rest ih =>
    unfold qCells
    dsimp only
    split
    · exact ih false _ _
    · exact qAbort_cfg _ _ _ _ _ _

theorem qPush_cfg (lim maxc : Nat) (tb : Tb) (fn : Fn) (chunks : List Rec) (q : Queue) : (qPush lim maxc tb fn chunks q).1.cfg = q.cfg := by
  unfold qPush
  split
  · exact qDrop_cfg q tb fn
  · exact qCells_cfg lim fn chunks true 0 q

theorem onQueue_cfg (q : Nat) (f : Queue → Queue) (s : State) (keeps : ∀ x, (f x).cfg = x.cfg) (r : Nat) : ((onQueue q f s).queue r).cfg = (s.queue r).cfg := by
  by_cases h : r = q
  · rw [h, onQueue_same, keeps]
  · rw [onQueue_other f s h]

theorem notify_cfg (c kind : Nat) (data : Rec) (s : State) (r : Nat) : ((notify c kind data s).queue r).cfg = (s.queue r).cfg := by
  unfold notify notifyAt
  split
  · rfl
  · exact onQueue_cfg _ _ _ (fun x => qPush_cfg _ _ _ _ _ x) r

theorem qcfg_eq_cfg {q : Nat} (s : State) (h : 48 ≤ q) : s.qcfg q = (s.queue q).cfg := by
  unfold State.qcfg
  rw [if_neg (by omega), if_neg (by omega), if_neg (by omega)]

/-! ### Error counters of a CAN port (R456, R457) -/

section
variable {p : Nat} {f : CanPort → CanPort} {s : State}

theorem canCount_same (h : canErr (f (s.can p)) = canErr (s.can p)) : canCount p f s = onCan p f s := by
  unfold canCount
  dsimp only
  rw [onCan_same, if_pos h.symm]

theorem canCount_active (h : canErr (f (s.can p)) = 0) (k : canErr (s.can p) ≠ 0) : canCount p f s = canStateNote p (onCan p f s) := by
  unfold canCount
  dsimp only
  rw [onCan_same, h, if_neg k, if_neg (by decide), if_neg (by decide)]

theorem canCount_passive (h : canErr (f (s.can p)) = 1) (k : canErr (s.can p) ≠ 1) : canCount p f s = canStateNote p (raise 0x100 p (onCan p f s)) := by
  unfold canCount
  dsimp only
  rw [onCan_same, h, if_neg k, if_neg (by decide), if_pos rfl]

theorem canCount_busOff (h : canErr (f (s.can p)) = 2) (k : canErr (s.can p) ≠ 2) : canCount p f s =
    canStateNote p (raise 0x101 p (onCan p (fun k => { k with st := 4, busoffs := k.busoffs + 1, recover := false }) (onCan p f s))) := by
  unfold canCount
  dsimp only
  rw [onCan_same, h, if_neg k, if_pos rfl]

theorem canStateNote_can (q : Nat) : (canStateNote p s).can q = s.can q := can_of_bus (canStateNote_frame p s .bus (by decide)) q

theorem canStateNote_cfg (r : Nat) : ((canStateNote p s).queue r).cfg = (s.queue r).cfg := notify_cfg _ _ _ _ r

/-- Counters that do not leave the port in a worse error state: no fault is raised. -/
def Eases (f : CanPort → CanPort) (k : CanPort) : Prop := canErr (f k) = canErr k ∨ canErr (f k) = 0

theorem canCount_eased (h : Eases f (s.can p)) : canCount p f s = onCan p f s ∨ canCount p f s = canStateNote p (onCan p f s) := by
  by_cases same : canErr (f (s.can p)) = canErr (s.can p)
  · exact .inl (canCount_same same)
  · have zero := h.resolve_left same
    exact .inr (canCount_active zero (fun k => same (zero.trans k.symm)))

theorem canCount_eased_can (h : Eases f (s.can p)) (q : Nat) : (canCount p f s).can q = (onCan p f s).can q := by
  rcases canCount_eased h with e | e
  · rw [e]
  · rw [e, canStateNote_can]

theorem canCount_eased_cfg (h : Eases f (s.can p)) (r : Nat) : ((canCount p f s).queue r).cfg = (s.queue r).cfg := by
  rcases canCount_eased h with e | e
  · rw [e]
    rfl
  · rw [e, canStateNote_cfg]
    rfl

theorem canCount_eased_frame (h : Eases f (s.can p)) : Only [.qf, .bus] s (canCount p f s) := by
  rcases canCount_eased h with e | e
  · rw [e]
    exact (onCan_frame p f s).sub (by decide)
  · rw [e]
    exact (canStateNote_frame p _).after (by decide) ((onCan_frame p f s).sub (by decide))

theorem canCount_eased_bus (h : Eases f (s.can p)) : (canCount p f s).bus = (onCan p f s).bus := by
  rcases canCount_eased h with e | e
  · rw [e]
  · rw [e]
    exact canStateNote_frame p _ .bus (by decide)

end

/-- REC of a receiver that took a frame (R456). -/
def recFallen (free : Nat) (k : CanPort) : CanPort := { k with rec_ := if 127 < k.rec_ then 119 + free % 9 else k.rec_ - 1 }

theorem recFallen_lt (free : Nat) (k : CanPort) : (recFallen free k).rec_ < 128 := by
  show (if 127 < k.rec_ then 119 + free % 9 else k.rec_ - 1) < 128
  split <;> omega

theorem canErr_eq (k : CanPort) : canErr k = if k.st = 4 ∨ 255 < k.tec then 2 else if 128 ≤ k.tec ∨ 128 ≤ k.rec_ then 1 else 0 := by
  unfold canErr
  simp

theorem recFallen_eases (free : Nat) (k : CanPort) : Eases (recFallen free) k := by
  have low : ¬ 128 ≤ (recFallen free k).rec_ := Nat.not_le.mpr (recFallen_lt free k)
  have st : (recFallen free k).st = k.st := rfl
  have tec : (recFallen free k).tec = k.tec := rfl
  unfold Eases
  rw [canErr_eq, canErr_eq, st, tec]
  by_cases off : k.st = 4 ∨ 255 < k.tec
  · exact .inl (by rw [if_pos off, if_pos off])
  · rw [if_neg off, if_neg off]
    by_cases sends : 128 ≤ k.tec
    · exact .inl (by rw [if_pos (.inl sends), if_pos (.inl sends)])
    · exact .inr (if_neg (not_or.mpr ⟨sends, low⟩))

end Sys2Proof.Machine

namespace Sys2Proof.Machine

/-! ### Reception through the filter (R446, R449, R450) -/

/-- What every frame taken without error does to its port, before the filter (R456, R463). -/
def canHeard (p : Nat) (s : State) : State :=
  onCan p (fun k => { k with dom := false }) (useFree (if (s.can p).st = 2 then canCount p (recFallen s.freeNat) s else s))

section
variable {p w d f x : Nat} {data : Rec} {s : State}

theorem canHeard_frame : Only [.qf, .bus, .free] s (canHeard p s) :=
  (onCan_frame p _ _).after (by decide) ((useFree_frame _).after (by decide)
    (Only.ite ((canCount_eased_frame (recFallen_eases _ _)).sub (by decide)) (Only.refl _ s)))

theorem canHeard_same : ∃ r, (canHeard p s).can p = { s.can p with rec_ := r, dom := false } := by
  unfold canHeard
  rw [onCan_same]
  split
  · exact ⟨_, congrArg (fun k : CanPort => { k with dom := false }) ((canCount_eased_can (recFallen_eases _ _) p).trans (onCan_same p _ s))⟩
  · exact ⟨_, rfl⟩

theorem canHeard_other {q : Nat} (h : q ≠ p) : (canHeard p s).can q = s.can q := by
  unfold canHeard
  rw [onCan_other _ _ h]
  split
  · exact (canCount_eased_can (recFallen_eases _ _) q).trans (onCan_other _ s h)
  · rfl

theorem canHeard_filt : (canHeard p s).bus.filt = s.bus.filt := by
  show (if _ then canCount p (recFallen s.freeNat) s else s).bus.filt = _
  split
  · rw [canCount_eased_bus (recFallen_eases _ _)]
    rfl
  · rfl

theorem canHeard_qcfg {q : Nat} (h : 48 ≤ q) : (canHeard p s).qcfg q = s.qcfg q := by
  rw [qcfg_eq_cfg _ h, qcfg_eq_cfg _ h]
  show (State.queue (if _ then canCount p (recFallen s.freeNat) s else s) q).cfg = _
  split
  · exact canCount_eased_cfg (recFallen_eases _ _) q
  · rfl

/-- The port takes part, listens or is silent: it takes frames (R434). -/
def CanTakes (p : Nat) (s : State) : Prop := p < 8 ∧ ((s.can p).st = 2 ∨ (s.can p).st = 3 ∨ (s.can p).st = 7)

/-- A data frame that a port took, in its receive queue or in a count (R449, R450). -/
def canFiled (p w d : Nat) (data : Rec) (s : State) : State :=
  match canFilter s.bus.filt (w % 2 ^ 29) (bit w 29) p with
  | none => onCan p (fun k => { k with filtMiss := k.filtMiss + 1 }) s
  | some (f, x) =>
    if bit w 30 && !(bit x 6) then onCan p (fun k => { k with filtMiss := k.filtMiss + 1 }) s
    else
      if qMode (s.qcfg (256 + 128 * p + x % 64)) = 0 then onCan p (fun k => { k with rxqOff := k.rxqOff + 1 }) s
      else
        let len := if bit w 30 then 0 else min 64 (dlcLen (bit w 31) (d % 16))
        let e := le 4 w ++ [BitVec.ofNat 8 (d % 64), BitVec.ofNat 8 len] ++ le 2 f ++ le 4 s.fn.toNat ++ sub data 0 len
        let r := admitCells (256 + 128 * p + x % 64) e s
        if r.2.2 then r.1 else onCan p (fun k => { k with rxFrames := k.rxFrames + 1 }) r.1

theorem canPlace_files (takes : CanTakes p s) : canPlace p w d data s = canFiled p w d data (canHeard p s) := by
  obtain ⟨port, st⟩ := takes
  exact if_pos (by simpa [port, or_assoc] using st)

theorem canFiled_miss (none : canFilter s.bus.filt (w % 2 ^ 29) (bit w 29) p = none) :
    canFiled p w d data s = onCan p (fun k => { k with filtMiss := k.filtMiss + 1 }) s := by
  unfold canFiled
  rw [none]

/-- The entry of a data frame in its receive queue (R450). -/
def canRxEntry (w d f : Nat) (data : Rec) (fn : Fn) : Rec :=
  le 4 w ++ [BitVec.ofNat 8 (d % 64), BitVec.ofNat 8 (min 64 (dlcLen (bit w 31) (d % 16)))] ++ le 2 f ++ le 4 fn.toNat
    ++ sub data 0 (min 64 (dlcLen (bit w 31) (d % 16)))

theorem canFiled_hit (hit : canFilter s.bus.filt (w % 2 ^ 29) (bit w 29) p = some (f, x)) (dataFrame : bit w 30 = false) :
    canFiled p w d data s =
      let r := admitCells (256 + 128 * p + x % 64) (canRxEntry w d f data s.fn) s
      if qMode (s.qcfg (256 + 128 * p + x % 64)) = 0 then onCan p (fun k => { k with rxqOff := k.rxqOff + 1 }) s
      else if r.2.2 then r.1 else onCan p (fun k => { k with rxFrames := k.rxFrames + 1 }) r.1 := by
  unfold canFiled
  rw [hit]
  dsimp only
  rw [dataFrame, Bool.false_and, if_neg Bool.false_ne_true, if_neg Bool.false_ne_true]
  rfl

theorem canFrameReceived_places (apart : p ≠ afPort s.acc.cfg) : exec (.canFrameReceived p w d data) s = .next (canAfter p (canPlace p w d data s)) :=
  congrArg _ (if_neg apart)

end

end Sys2Proof.Machine

namespace Sys2Proof.Machine

/-! ### The end of a transmit attempt (R454, R455) -/

section
variable {p i n : Nat} {e : Rec} {s : State}

theorem canAfter_stop (h : (s.can p).after = some 2) :
    (canAfter p s).can p = { s.can p with cmd := 0, st := 0, tec := 0, rec_ := 0, recover := false, after := none } := by
  unfold canAfter
  rw [h]
  exact onCan_same p _ s

theorem canAfter_sleep (h : (s.can p).after = some 3) : (canAfter p s).can p = { s.can p with st := 6, fdCnt := 0, after := none } := by
  unfold canAfter
  rw [h]
  exact onCan_same p _ s

/-- A well-formed entry at the head of a transmit queue stays there (R454). -/
theorem canClean_wellFormed (head : qHead (s.queue (canTxq p i)) 0 = some (n, some e)) (fine : canBadEntry (s.can p).cfg e = false) (fuel : Nat) :
    canClean p i fuel s = s := by
  cases fuel with
  | zero => rfl
  | succ fuel =>
    unfold canClean
    dsimp only
    rw [head]
    dsimp only
    rw [fine, if_neg Bool.false_ne_true]

/-- One more attempt at the head entry of a transmit queue, its transceiver delay and its error noted (R453, R454). -/
def canTried (p i err : Nat) (loop : Option Nat) (e : Rec) (s : State) : State :=
  let t := tget (fun _ => (0, 0)) (s.can p).tries i
  let brs := bit (rd e 4 1) 4 && bit (rd e 0 4) 31 && nfTdcEn (s.can p).cfg
  onCan p (fun k => { k with tdc := (match loop with | some x => if brs then min x 93 else k.tdc | none => k.tdc),
                             tries := tput (fun _ => (0, 0)) k.tries i (t.1 + 1, if err = 0 then t.2 else err), dom := false }) s

theorem canTxAttemptEnd_eq {err : Nat} (loop : Option Nat) (port : p < 8) (queue : i < 64) (sends : (s.can p).st = 2 ∨ ((s.can p).st = 4 ∧ 2 ≤ err)) (known : err ≤ 6)
    (head : qHead (s.queue (canTxq p i)) 0 = some (n, some e)) (fine : canBadEntry (s.can p).cfg e = false) :
    exec (.canTxAttemptEnd p i err loop) s =
      let a := canTried p i err loop e s
      .next (if err = 0 then canAfter p (canComplete p i 0 n e (canCount p (fun k => { k with tec := k.tec - 1 }) a))
        else if nfRetry (s.can p).cfg i < (tget (fun _ => (0, 0)) (s.can p).tries i).1 + 1 then canAfter p (canComplete p i 1 n e a)
        else canAfter p a) := by
  have guard : (decide (p ≥ 8) || decide (i ≥ 64) || !(decide ((s.can p).st = 2) || (decide ((s.can p).st = 4) && decide (2 ≤ err))) || decide (6 < err)) = false := by
    rw [decide_eq_false (Nat.not_le.mpr port), decide_eq_false (Nat.not_le.mpr queue), decide_eq_false (Nat.not_lt.mpr known)]
    simpa [or_iff_not_imp_left] using sends
  show execCanTxAttemptEnd p i err loop s = _
  unfold execCanTxAttemptEnd
  rw [if_neg (by rw [guard]; exact Bool.false_ne_true)]
  dsimp only
  rw [canClean_wellFormed head fine, head]
  dsimp only
  rw [onCan_same]
  dsimp only
  rw [tget_tput_same]
  dsimp only
  rw [apply_ite Host.Outcome.next, apply_ite Host.Outcome.next]
  rfl

theorem extDone_can (c j v q : Nat) : (extDone c j v s).can q = s.can q := can_of_bus (extDone_frame c j v s .bus (by decide)) q

theorem admitEntry_can (r : Nat) (data : Rec) (q : Nat) : (admitEntry r data s).can q = s.can q := can_of_bus (admitEntry_frame r data s .bus (by decide)) q

/-- What the port keeps of a completed entry: its counts, its tries forgotten (R455, R468). -/
def canCompleted (i status : Nat) (k : CanPort) : CanPort :=
  { k with tries := tput (fun _ => (0, 0)) k.tries i (0, 0), txFrames := if status = 0 then k.txFrames + 1 else k.txFrames,
           txFailed := if status = 1 ∨ status = 2 then k.txFailed + 1 else k.txFailed }

theorem canComplete_can (status q : Nat) : (canComplete p i status n e s).can q = (onCan p (canCompleted i status) s).can q := by
  have counts : (fun k : CanPort => { k with
      tries := tput (fun _ => (0, 0)) k.tries i (0, 0), txFrames := if status = 0 then k.txFrames + 1 else k.txFrames,
      txFailed := if status = 1 || status = 2 then k.txFailed + 1 else k.txFailed }) = canCompleted i status := by
    funext k
    simp [canCompleted]
  unfold canComplete
  dsimp only
  rw [counts]
  split
  · split
    · rfl
    · rw [extDone_can]
      rfl
  · split
    · rw [admitEntry_can]
      rfl
    · rfl

end

/-- Settles O37: a reception in its three ends, a transmit attempt in its three ends, then the waiting STOP or SLEEP and the counts of a completion. -/
theorem canFrames : Obligations.CanFrames := by
  unfold Obligations.CanFrames
  refine ⟨fun p w d data s port takes apart nothing => ?received, fun p i err n loop e s port queue sends known head fine => ?sent,
    fun p s => ⟨canAfter_none, canAfter_stop, canAfter_sleep, fun q h => canAfter_other s h, canAfter_frame p s⟩, fun p i status n e s => ?completed⟩
  case received =>
    obtain ⟨r, heard⟩ := canHeard_same (p := p) (s := s)
    have quiet : ((canHeard p s).can p).after = none := (congrArg CanPort.after heard).trans nothing
    have files (u : State) (filed : canFiled p w d data (canHeard p s) = u) (still : (u.can p).after = none) : exec (.canFrameReceived p w d data) s = .next u :=
      (canFrameReceived_places apart).trans (by rw [canPlace_files ⟨port, takes⟩, filed, canAfter_none still])
    refine ⟨fun none => ?miss, fun f x hit dataFrame => ?hit⟩
    case miss =>
      refine ⟨_, files _ (canFiled_miss (by rw [canHeard_filt]; exact none)) ((congrArg CanPort.after (onCan_same p _ _)).trans quiet), ?_, fun q h => (onCan_other _ _ h).trans (canHeard_other h),
        (onCan_frame p _ _).after (by decide) canHeard_frame⟩
      rw [onCan_same, heard]
    case hit =>
      have filed := canFiled_hit (d := d) (data := data) (s := canHeard p s) (by rw [canHeard_filt]; exact hit) dataFrame
      dsimp only at filed
      have fn : (canHeard p s).fn = s.fn := congrArg Clk.fn (canHeard_frame .clk (by decide))
      rw [canHeard_qcfg (by omega), fn] at filed
      refine ⟨fun off => files _ (filed.trans (if_pos off)) ((congrArg CanPort.after (onCan_same p _ _)).trans quiet), fun on => ?_⟩
      have admitted := filed.trans (if_neg on)
      have kept (q : Nat) := can_of_bus (admitCells_frame (256 + 128 * p + x % 64) (canRxEntry w d f data s.fn) (canHeard p s) .bus (by decide)) q
      have frame := (admitCells_frame (256 + 128 * p + x % 64) (canRxEntry w d f data s.fn) (canHeard p s)).after (by decide) canHeard_frame
      by_cases full : (admitCells (256 + 128 * p + x % 64) (canRxEntry w d f data s.fn) (canHeard p s)).2.2 = true
      · rw [if_pos full] at admitted
        exact ⟨_, files _ admitted ((congrArg CanPort.after (kept p)).trans quiet), rfl,
          (congrArg CanPort.rxFrames ((kept p).trans heard)).trans (if_pos full).symm, frame⟩
      · rw [if_neg full] at admitted
        refine ⟨_, files _ admitted ((congrArg CanPort.after ((onCan_same p _ _).trans (congrArg _ (kept p)))).trans quiet), rfl, ?_, (onCan_frame p _ _).after (by decide) frame⟩
        rw [onCan_same, kept, heard]
        exact (if_neg full).symm
  case sent =>
    have ended := canTxAttemptEnd_eq loop port queue sends known head fine
    refine ⟨fun sent => ended.trans (congrArg _ (if_pos sent)), fun failed spent => ended.trans (congrArg _ ((if_neg failed).trans (if_pos spent))),
      fun failed left => ended.trans (congrArg _ ((if_neg failed).trans (if_neg (Nat.not_lt.mpr left))))⟩
  case completed =>
    have own := (canComplete_can (p := p) (i := i) (n := n) (e := e) (s := s) status p).trans (onCan_same p _ s)
    dsimp only
    rw [own]
    exact ⟨tget_tput_same (fun _ => (0, 0)) (s.can p).tries i (0, 0), rfl, rfl, rfl, fun q h => (canComplete_can status q).trans (onCan_other _ s h), canComplete_frame p i status n e s⟩

end Sys2Proof.Machine

namespace Sys2Proof.Machine

/-! ### CAN errors, recovery, dominant faults and wake (R456 to R464) -/

section
variable {p : Nat} {s : State}

theorem canBusError_active (tx big : Bool) (port : p < 8) (active : (s.can p).st = 2) :
    exec (.canBusError p tx big) s =
      let c := canCount p (fun k => if tx then { k with tec := k.tec + 8 } else { k with rec_ := satN 255 (k.rec_ + (if big then 8 else 1)) }) s
      .next (if tx then c else canAfter p c) := by
  show execCanBusError p tx big s = _
  unfold execCanBusError
  dsimp only
  rw [if_neg (by simp [active]), if_pos (by simp [port, active])]

theorem canBusError_listens (tx big : Bool) (port : p < 8) (listens : (s.can p).st = 3 ∨ (s.can p).st = 7) :
    exec (.canBusError p tx big) s = .next (if tx then s else canAfter p s) :=
  if_pos (by simpa [port] using listens)

theorem canIntegrationDone_enters (port : p < 8) (integrates : (s.can p).st = 1) :
    exec (.canIntegrationDone p) s = .next (onCan p (fun k => { k with st := k.cmd, dom := false }) s) :=
  if_pos (by simp [port, integrates])

theorem canBusoffRecovery_returns (port : p < 8) (busOff : (s.can p).st = 4) (allowed : nfRecovery (s.can p).cfg = false ∨ (s.can p).recover = true) :
    exec (.canBusoffRecovery p) s =
      .next (canStateNote p (onCan p (fun k => { k with st := if (s.can p).cmd = 3 then 3 else 2, tec := 0, rec_ := 0, recover := false }) s)) :=
  if_pos (by simpa [port, busOff] using allowed)

theorem canTxdDom_eq (port : p < 8) (on : (s.can p).st ≠ 0) :
    exec (.canTxdDom p) s = .next (if (s.can p).txd then s else raise 0x102 p (onCan p (fun k => { k with txd := true }) s)) := by
  show execCanTxdDom p s = _
  unfold execCanTxdDom
  cases latched : (s.can p).txd <;> simp [port, on]

theorem canBusDom_eq (port : p < 8) (on : (s.can p).st ≠ 0) :
    exec (.canBusDom p) s = .next (if (s.can p).dom then s else raise 0x103 p (onCan p (fun k => { k with dom := true }) s)) := by
  show execCanBusDom p s = _
  unfold execCanBusDom
  cases latched : (s.can p).dom <;> simp [port, on]

theorem canWakePattern_wakes (port : p < 8) (asleep : (s.can p).st = 6) (wup : wfMode (s.can p).wake = 1) : exec (.canWakePattern p) s = .next (canWake p 1 0 s) :=
  if_pos (by simp [port, asleep, wup])

/-- The wake of a port by WUP, as PWR notes it (R461, R608). -/
def canWoken (p : Nat) (s : State) : State :=
  deviceWake 1 p 1 0 (pwCan s.pwr.cfg p) (onCan p (fun k => { k with wakeType := 1, wakePt := s.parkTime, wakeId := 0 }) s)

theorem canWake_down (down : s.hearthUp = false) : canWake p 1 0 s = onCan p (fun k => { k with woken := true }) (canWoken p s) :=
  if_neg (show ¬ s.hearthUp = true by rw [down]; exact Bool.false_ne_true)

theorem canWoken_can (q : Nat) : (canWoken p s).can q = (onCan p (fun k => { k with wakeType := 1, wakePt := s.parkTime, wakeId := 0 }) s).can q :=
  can_of_bus (deviceWake_frame _ _ _ _ _ _ .bus (by decide)) q

theorem canWoken_frame : Only [.bus, .pwr] s (canWoken p s) := (deviceWake_frame _ _ _ _ _ _).after (by decide) ((onCan_frame _ _ s).sub (by decide))

theorem canWakeFrame_eq (w dlc : Nat) (data : Rec) (bad : Bool) (port : p < 8) (asleep : (s.can p).st = 6) (selective : wfMode (s.can p).wake = 2) (off : s.pwr.state ≠ 3)
    (fresh : (s.can p).woken = false) :
    exec (.canWakeFrame p w dlc data bad) s =
      if bit w 31 && wfFdPassive (s.can p).wake then .next s
      else if bad || bit w 31 then
        if (s.can p).fdCnt ≥ 32 then .next (canWake p 3 0 (raise 0x104 p (onCan p (fun k => { k with fdCnt := 33 }) s)))
        else .next (onCan p (fun k => { k with fdCnt := k.fdCnt + 1 }) s)
      else
        let a := onCan p (fun k => { k with fdCnt := k.fdCnt - 1 }) s
        if isWakeFrame (s.can p).wake w dlc data then .next (canWake p 2 w a) else .next a :=
  if_pos (by simp [port, asleep, selective, off, fresh])

end

/-- Settles O38: each event by its equation above, the counters by the crossings of `canCount`. -/
theorem canErrorsAndWake : Obligations.CanErrorsAndWake := by
  unfold Obligations.CanErrorsAndWake
  refine ⟨fun p tx big s port => ⟨canBusError_active tx big port, canBusError_listens tx big port⟩, fun p f s => ?counters,
    fun p s port integrates => ⟨_, canIntegrationDone_enters port integrates, congrArg CanPort.st (onCan_same p _ s), fun q h => onCan_other _ s h, onCan_frame p _ s⟩,
    fun p s port busOff allowed => ?recovery, fun p s port on => ?dominant,
    fun p s port => ⟨_, if_pos port, onCan_same p _ s, fun q h => onCan_other _ s h, onCan_frame p _ s⟩, fun p s => canWakePattern_wakes, fun p s down => ?woken,
    fun p w dlc data bad s port asleep selective off fresh => ?frame⟩
  case counters =>
    dsimp only
    rw [onCan_same]
    exact ⟨canCount_same, canCount_busOff, fun passive active => canCount_passive passive (by rw [active]; decide), fun active passive => canCount_active active (by rw [passive]; decide)⟩
  case recovery =>
    refine ⟨_, canBusoffRecovery_returns port busOff allowed, ?_⟩
    simp only [canStateNote_can, onCan_same, true_and]
    exact ⟨fun q h => onCan_other _ s h, (canStateNote_frame p _).after (by decide) ((onCan_frame p _ s).sub (by decide))⟩
  case dominant =>
    rw [canTxdDom_eq port on, canBusDom_eq port on]
    refine ⟨fun h => ?_, fun h => ?_, fun h => ?_, fun h => ?_⟩ <;> rw [h] <;> rfl
  case woken =>
    dsimp only
    rw [canWake_down down]
    simp only [onCan_same, canWoken_can, true_and]
    exact ⟨fun q h => (onCan_other _ _ h).trans ((canWoken_can q).trans (onCan_other _ s h)), (onCan_frame p _ _).after (by decide) canWoken_frame⟩
  case frame =>
    rw [canWakeFrame_eq w dlc data bad port asleep selective off fresh]
    refine ⟨fun passive => if_pos (by simpa using passive), fun heard wrong => ?_, fun right classical => ?_⟩
    · rw [if_neg (by simpa using heard), if_pos (by simpa using wrong)]
      exact ⟨fun few => if_neg (Nat.not_le.mpr few), fun many => if_pos many⟩
    · dsimp only
      rw [if_neg (by simp [classical]), if_neg (by simp [right, classical]), apply_ite Host.Outcome.next]

end Sys2Proof.Machine

namespace Sys2Proof.Machine

/-! ### LIN ports and bindings: what a change of one leaves of the others -/

theorem onLin_same (n : Nat) (f : LinPort → LinPort) (s : State) : (onLin n f s).lin n = f (s.lin n) := tget_tmod_same LinPort.initial _ n f

theorem onLin_other {n m : Nat} (f : LinPort → LinPort) (s : State) (h : m ≠ n) : (onLin n f s).lin m = s.lin m := tget_tmod_other LinPort.initial s.bus.lin f h

theorem lin_of_bus {s t : State} (h : t.bus = s.bus) (n : Nat) : t.lin n = s.lin n := by
  unfold State.lin
  rw [h]

theorem onLin_bus (n : Nat) (f : LinPort → LinPort) {s t : State} (h : t.bus = s.bus) : (onLin n f t).bus = (onLin n f s).bus := by
  unfold onLin onBus
  rw [h]

theorem onGw_same (q : Nat) (f : Gw → Gw) (s : State) : (onGw q f s).gw q = f (s.gw q) := tget_tmod_same gwDef _ q f

theorem onGw_other {q p : Nat} (f : Gw → Gw) (s : State) (h : p ≠ q) : (onGw q f s).gw p = s.gw p := tget_tmod_other gwDef s.bus.gw f h

/-! ### LIN opcodes (R472, R479, R482, R494) -/

theorem linConfig_takes (r : Req) (s : State) :
    let n := unitIx r.b - 8
    let t := (linConfigSpec.run r s).st
    t.lin n = { s.lin n with cfg := sub r.b 8 16, table := sub r.b 24 248 } ∧ t.owner 4 (8 + n) = s.owner 4 (8 + n)
      ∧ t.gen 4 (8 + n) = (if (s.lin n).cfg = sub r.b 8 16 ∧ (s.lin n).table = sub r.b 24 248 then s.gen 4 (8 + n) else nextGen (s.gen 4 (8 + n)))
      ∧ (∀ k, k ≠ ukey 4 (8 + n) → t.role k = s.role k) ∧ ∀ m, m ≠ n → t.lin m = s.lin m := by
  intro n t
  obtain ⟨gen, owner, others⟩ := roles_reassignedUnless ((decide ((s.lin n).cfg = sub r.b 8 16) && decide ((s.lin n).table = sub r.b 24 248)) = true) 4 (8 + n) s (u := t) rfl
  have bus : t.bus = (onLin n (fun k => { k with cfg := sub r.b 8 16, table := sub r.b 24 248 }) s).bus :=
    onLin_bus n _ (reassignedUnless_frame ((decide ((s.lin n).cfg = sub r.b 8 16) && decide ((s.lin n).table = sub r.b 24 248)) = true) 4 (8 + n) s .bus (by decide))
  refine ⟨(lin_of_bus bus n).trans (onLin_same n _ s), owner, ?_, others, fun m h => (lin_of_bus bus m).trans (onLin_other _ s h)⟩
  rw [gen]
  simp only [Bool.and_eq_true, decide_eq_true_eq]

theorem linSet_stages (r : Req) (s : State) :
    (linSetSpec.run r s).st = onLin (unitIx r.b - 8) (fun k => { k with valsNext := tput (fun _ => []) k.valsNext (rd r.b 6 1) (sub r.b 8 (rd r.b 7 1)) }) s := rfl

theorem linControl_adds (r : Req) (s : State) : (linControlSpec.run r s).st = onLin (unitIx r.b - 8) (fun k => { k with ctl := k.ctl ++ [rd r.b 6 1] }) s := rfl

/-- A gateway binding after GW_BIND (R494). -/
def gwBound (r : Req) (g : Gw) : Gw :=
  if rd r.b 6 1 = 1 then { enable := true, maxCells := rd r.b 7 1, forwarded := if g.enable then g.forwarded else 0 } else { g with enable := false }

theorem gwBind_binds (r : Req) (s : State) : (gwBindSpec.run r s).st = onGw (unitIx r.b) (gwBound r) s := by
  show (if _ then _ else _) = _
  unfold gwBound
  split <;> rfl

/-! ### LIN frames and wake (R475, R476, R481, R483) -/

section
variable {n : Nat} {s : State}

theorem atTick_lin (k m : Nat) : (atTick k s).lin m = s.lin m := lin_of_bus (atTick_frame k s .bus (by decide)) m

theorem linOver_free (slack : Nat) (free : (s.lin n).busy = none) : linOver slack n s = s := by
  unfold linOver
  rw [free]

theorem linHeaderStart_begins {f : Nat} {e : LinEnt} (port : n < 12) (entry : linEnt s.sched.img s.modeNow n f = some e) (due : startFrame e.cycle e.offset s.fn = true)
    (before : s.tick ≤ 200 * e.slot) (active : (s.lin n).st = 1) (awake : (s.lin n).mute = none) (free : (s.lin n).busy = none) :
    exec (.linHeaderStart n f) s = .next (onLin n
      (fun k => { k with busy := (linTake n f e (atTick (200 * e.slot) s)).2, mute := none, dom := if (linTake n f e (atTick (200 * e.slot) s)).2.isSome then false else k.dom })
      (linTake n f e (atTick (200 * e.slot) s)).1) := by
  have still : linOver 0 n (atTick (200 * e.slot) s) = atTick (200 * e.slot) s := linOver_free 0 (by rw [atTick_lin]; exact free)
  show execLinHeaderStart n f s = _
  unfold execLinHeaderStart
  rw [entry]
  dsimp only
  rw [if_neg (by simp [port, due, before]), still, atTick_lin, active, awake, free]
  exact if_neg Bool.false_ne_true

/-- A frame of an entry that begins now: what it sends (none: it receives), and whether it is the go-to-sleep command (R476, R482). -/
def linFrame (f : Nat) (e : LinEnt) (fn : Fn) (data : Option Rec) (sleep : Bool) : LinFrame :=
  { id := f, fn := fn, frames := e.frames, data := data, ext := none, goSleep := sleep, queued := false, limbo := none }

theorem linTake_sleep {f : Nat} (e : LinEnt) (sleeps : (s.lin n).goSleep = true) (master : f = 0x3C) :
    linTake n f e s = (s, some (linFrame f e s.fn (some goSleepData) true)) := by
  unfold linTake
  dsimp only
  exact if_pos (by rw [sleeps, decide_eq_true master]; rfl)

theorem linTake_receives {f : Nat} (e : LinEnt) (wakes : (s.lin n).goSleep = false) (dir : mtDir (s.lin n).table f = 2) :
    linTake n f e s = (s, some (linFrame f e s.fn none false)) := by
  unfold linTake
  dsimp only
  rw [wakes, Bool.false_and, if_neg Bool.false_ne_true, dir, if_neg (by decide), if_pos rfl]
  rfl

theorem linTake_sends {f : Nat} (e : LinEnt) (wakes : (s.lin n).goSleep = false) (dir : mtDir (s.lin n).table f = 1) (source : mtSource (s.lin n).table f = 0)
    (noExt : (s.lin n).ext = []) : linTake n f e s = (s, some (linFrame f e s.fn (some (linValue (s.lin n) f)) false)) := by
  unfold linTake
  dsimp only
  rw [wakes, Bool.false_and, if_neg Bool.false_ne_true, dir, if_neg (by decide), if_neg (by decide), source, if_neg (by decide), noExt]
  dsimp only [List.find?_nil]
  rw [if_neg (by decide)]
  rfl

theorem linFrameEnd_finishes {f : LinFrame} {res : Nat} {data : Rec} (port : n < 12) (busy : (s.lin n).busy = some f)
    (fits : linEndOk f (mtLen (s.lin n).table f.id) res data = true) : exec (.linFrameEnd n res data) s = .next (linFinish n res data f s) := by
  show execLinFrameEnd n res data s = _
  unfold execLinFrameEnd
  rw [busy]
  dsimp only
  rw [if_pos (by rw [decide_eq_true port, fits]; rfl)]

/-- The frame of a port ends with a result: the port is free, the result counted (R481). -/
def linEnded (n res : Nat) (s : State) : State := onLin n (fun k => { k with busy := none, results := k.results.modify res (· + 1), goSleep := k.goSleep }) s

/-- The receive entry of a frame that ended, where it is reported (R480). -/
def linReported (n res : Nat) (data : Rec) (f : LinFrame) (s : State) : State :=
  let d := linOctets f (mtLen (s.lin n).table f.id) res data
  if mtReport (s.lin n).table f.id || (f.data.isNone && decide (res = 0)) then
    admitEntry (1280 + 16 * n + mtRxq (s.lin n).table f.id) ([BitVec.ofNat 8 (linPid f.id), BitVec.ofNat 8 d.length, BitVec.ofNat 8 res, 0] ++ le 4 f.fn.toNat ++ sub d 0 8) (linEnded n res s)
  else linEnded n res s

theorem linFinish_scheduled {f : LinFrame} (res : Nat) (data : Rec) (noExt : f.ext = none) (own : f.queued = false) (notSleep : f.goSleep = false) (noLimbo : f.limbo = none) :
    linFinish n res data f s =
      let u := linReported n res data f s
      if res = 1 || res = 2 then raise 0x120 n u else if res = 3 || res = 4 then raise 0x121 n u else if res = 5 then raise 0x122 n u else u := by
  have quiet (extra : Nat) (t : State) : linCellDone n f extra t = t := by
    unfold linCellDone
    rw [own, noLimbo]
    rfl
  unfold linFinish linReported linEnded
  dsimp only
  rw [noExt, notSleep, noLimbo]
  dsimp only
  rw [quiet, if_neg Bool.false_ne_true]
  simp only [Bool.not_false, Bool.and_true, Option.isNone_none]

theorem linReported_bus (res : Nat) (data : Rec) (f : LinFrame) : (linReported n res data f s).bus = (linEnded n res s).bus := by
  unfold linReported
  dsimp only
  split
  · exact admitEntry_frame _ _ _ .bus (by decide)
  · rfl

theorem linReported_frame (res : Nat) (data : Rec) (f : LinFrame) : Only [.qf, .bus] s (linReported n res data f s) :=
  Only.ite ((admitEntry_frame _ _ _).after (by decide) ((onLin_frame n _ s).sub (by decide))) ((onLin_frame n _ s).sub (by decide))

theorem linReported_silent {res : Nat} (data : Rec) {f : LinFrame} (failed : res ≠ 0) (silent : mtReport (s.lin n).table f.id = false) :
    linReported n res data f s = linEnded n res s := by
  unfold linReported
  exact if_neg (by rw [silent, decide_eq_false failed, Bool.and_false]; exact Bool.false_ne_true)

theorem linState_lin (st m : Nat) : (linState n st s).lin m = (onLin n (fun k => { k with st := st }) s).lin m := by
  unfold linState
  dsimp only
  split
  case isTrue already =>
    by_cases h : m = n
    · rw [h, onLin_same, ← already]
    · rw [onLin_other _ s h]
  case isFalse =>
    split
    · exact lin_of_bus (notify_frame _ _ _ _ .bus (by decide)) m
    · rfl

end

end Sys2Proof.Machine

namespace Sys2Proof.Machine

/-! ### The wake of a LIN port by its bus (R483, R484) -/

section
variable {n : Nat} {s : State}

/-- A port that its bus woke, as PWR notes it (R483, R608). -/
def linWoken (n : Nat) (s : State) : State :=
  deviceWake 2 n 1 0 (pwLin s.pwr.cfg n) (onLin n (fun k => { k with wakeType := 1, wakePt := s.parkTime }) s)

theorem linWoken_lin (m : Nat) : (linWoken n s).lin m = (onLin n (fun k => { k with wakeType := 1, wakePt := s.parkTime }) s).lin m :=
  lin_of_bus (deviceWake_frame _ _ _ _ _ _ .bus (by decide)) m

theorem linWoken_frame : Only [.bus, .pwr] s (linWoken n s) := (deviceWake_frame _ _ _ _ _ _).after (by decide) ((onLin_frame _ _ s).sub (by decide))

/-- The port that its bus woke, at work again with its mute time (R484). -/
def linRoused (n : Nat) (s : State) : State := linState n 1 (onLin n (fun k => { k with mute := some ((linWoken n s).tbNow + msTicks 100) }) (linWoken n s))

theorem linWake_up (up : s.hearthUp = true) (free : (s.lin n).suspended = false) (notHeld : (s.lin n).held = false) :
    ∃ data, linWake n 1 s = notify ((linRoused n s).owner 4 (8 + n)) 0x7802 data (linRoused n s) := by
  have port : ((linWoken n s).lin n).suspended = false ∧ ((linWoken n s).lin n).held = false := by
    rw [linWoken_lin, onLin_same]
    exact ⟨free, notHeld⟩
  have working : (if ((linWoken n s).lin n).suspended || ((linWoken n s).lin n).held then 3 else 1) = 1 := by
    rw [port.1, port.2]
    rfl
  have woken : linWake n 1 s = (fun r => notify (r.owner 4 (8 + n)) 0x7802 ([BitVec.ofNat 8 n, BitVec.ofNat 8 1] ++ le 6 (r.lin n).wakePt) r)
      (linState n (if ((linWoken n s).lin n).suspended || ((linWoken n s).lin n).held then 3 else 1)
        (onLin n (fun k => { k with mute := some ((linWoken n s).tbNow + msTicks 100) }) (linWoken n s))) :=
    if_pos (show (linWoken n s).hearthUp = true from up)
  rw [working] at woken
  exact ⟨_, woken⟩

theorem linBusWake_wakes (port : n < 12) (enabled : mfWakeEn (s.lin n).cfg = true) (asleep : (s.lin n).st = 2) (fresh : (s.lin n).woken = false) :
    exec (.linBusWake n) s = .next (linWake n 1 s) :=
  if_pos (by simp [port, enabled, asleep, fresh])

theorem linRoused_lin (m : Nat) : (linRoused n s).lin m =
    (onLin n (fun k => { k with st := 1, mute := some (s.tbNow + msTicks 100), wakeType := 1, wakePt := s.parkTime }) s).lin m := by
  have now : (linWoken n s).tbNow = s.tbNow := congrArg Time.tb (linWoken_frame .time (by decide))
  unfold linRoused
  rw [linState_lin, now]
  by_cases h : m = n
  · rw [h, onLin_same, onLin_same, linWoken_lin, onLin_same, onLin_same]
  · rw [onLin_other _ _ h, onLin_other _ _ h, linWoken_lin, onLin_other _ _ h, onLin_other _ _ h]

theorem linRoused_frame : Only [.qf, .bus, .pwr] s (linRoused n s) :=
  (linState_frame n 1 _).after (by decide) ((onLin_frame n _ _).after (by decide) (linWoken_frame.sub (by decide)))

end

/-- Settles O39: the opcodes by the laws of acceptance and their rules above; each event by its equation above. -/
theorem linPorts : Obligations.LinPorts := by
  unfold Obligations.LinPorts
  refine ⟨waits_of _ _ _ rfl rfl (fun _ _ _ => rfl), waits_of _ _ _ rfl rfl (fun _ _ _ => rfl), waits_of _ _ _ rfl rfl (fun _ _ _ => rfl),
    waits_of _ _ _ rfl rfl (fun _ _ _ => rfl), waits_of _ _ _ rfl rfl (fun _ _ _ => rfl), waits_of _ _ _ rfl rfl (fun _ _ _ => rfl),
    tells_of _ _ _ rfl (.inl rfl) rfl (fun _ _ _ => rfl), waits_of _ _ _ rfl rfl (fun _ _ _ => rfl), tells_of _ _ _ rfl (.inl rfl) rfl (fun _ _ _ => rfl),
    fun r s => ?ports, fun r s => ?bindings, fun n f e s port entry due before active awake free => ?header,
    fun n res data f s port busy fits noExt own notSleep noLimbo => ?ended, fun n s port on clear => if_pos (by simp [port, on, clear]),
    fun n s port enabled asleep fresh up free notHeld => ?wakes⟩
  case ports =>
    obtain ⟨record, owner, gen, roles, others⟩ := linConfig_takes r s
    dsimp only
    rw [record, linSet_stages, linControl_adds, onLin_same, onLin_same]
    exact ⟨rfl, rfl, owner, gen, roles, tget_tput_same _ _ _ _, rfl, rfl, fun m h => ⟨others m h, onLin_other _ s h, onLin_other _ s h⟩,
      linConfigSpec_frame r s, linSetSpec_frame r s, linControlSpec_frame r s⟩
  case bindings =>
    dsimp only
    rw [gwBind_binds, onGw_same]
    refine ⟨?_, fun on => ?_, fun off => ?_, fun p h => onGw_other _ s h, onGw_frame _ _ s⟩
    · unfold gwBound
      split <;> simp [*]
    · unfold gwBound
      rw [if_pos on]
    · unfold gwBound
      rw [if_neg off]
  case header =>
    refine ⟨linHeaderStart_begins port entry due before active awake free, fun wakes dir => linTake_receives e (by rw [atTick_lin]; exact wakes) (by rw [atTick_lin]; exact dir),
      fun wakes dir source noExt => ?_, fun sleeps master => linTake_sleep e (by rw [atTick_lin]; exact sleeps) master⟩
    rw [← atTick_lin (200 * e.slot)] at wakes dir source noExt ⊢
    exact linTake_sends e wakes dir source noExt
  case ended =>
    have finished := linFrameEnd_finishes port busy fits
    rw [linFinish_scheduled res data noExt own notSleep noLimbo] at finished
    refine ⟨fun good => ?_, fun failed silent => ?_⟩
    · subst good
      have lins (m : Nat) := lin_of_bus (linReported_bus (n := n) (s := s) 0 data f) m
      exact ⟨_, finished, lins n, fun m h => (lins m).trans (onLin_other _ s h), linReported_frame 0 data f⟩
    · have known : res ≤ 5 := by
        unfold linEndOk at fits
        simp only [Bool.and_eq_true, decide_eq_true_eq] at fits
        exact fits.1
      rw [finished]
      dsimp only
      rw [linReported_silent data failed silent]
      match res, failed, known with
      | 1, _, _ | 2, _, _ | 3, _, _ | 4, _, _ | 5, _, _ => rfl
  case wakes =>
    obtain ⟨data, woke⟩ := linWake_up up free notHeld
    have told (m : Nat) := lin_of_bus (notify_frame ((linRoused n s).owner 4 (8 + n)) 0x7802 data (linRoused n s) .bus (by decide)) m
    refine ⟨_, (linBusWake_wakes port enabled asleep fresh).trans (congrArg _ woke), ?_⟩
    simp only [told, linRoused_lin, onLin_same, true_and]
    exact ⟨fun m h => onLin_other _ s h, (notify_frame _ _ _ _).after (by decide) linRoused_frame⟩

end Sys2Proof.Machine

namespace Sys2Proof.Machine

/-! ### Key slots (R538 to R549, R555 to R557) -/

theorem onKey_same (n : Nat) (f : KeySlot → KeySlot) (s : State) : (onKey n f s).key n = f (s.key n) := tget_tmod_same keyDef _ n f

theorem onKey_other {n m : Nat} (f : KeySlot → KeySlot) (s : State) (h : m ≠ n) : (onKey n f s).key m = s.key m := tget_tmod_other keyDef s.keys f h

theorem key_of_keys {s t : State} (h : t.keys = s.keys) (n : Nat) : t.key n = s.key n := by
  unfold State.key
  rw [h]

section
variable {n : Nat} {s : State}

theorem storeKey_key (c : Rec) (m : Nat) :
    (storeKey n c s).key m = (onKey n (fun _ => { rec_ := c, lost := false, bad := false, badTold := false, uses := 0 }) s).key m := rfl

theorem storeKey_same (c : Rec) : (storeKey n c s).key n = { rec_ := c, lost := false, bad := false, badTold := false, uses := 0 } :=
  (storeKey_key c n).trans (onKey_same n _ s)

theorem storeKey_other (c : Rec) {m : Nat} (h : m ≠ n) : (storeKey n c s).key m = s.key m := (storeKey_key c m).trans (onKey_other _ s h)

theorem storeKey_role (c : Rec) : (storeKey n c s).role (ukey 6 n) = { s.role (ukey 6 n) with gen := nextGen (s.gen 6 n) } := reassign_same 6 n _

theorem storeKey_owner (c : Rec) : (storeKey n c s).owner 6 n = s.owner 6 n := by
  unfold State.owner
  rw [storeKey_role]

/-- A slot that served once more: its uses and, in a counted record, what is left of its count (R545, R557). -/
def keyServed (k : KeySlot) : KeySlot :=
  { k with uses := k.uses + 1, rec_ := if kyLife k.rec_ = 1 then putAt k.rec_ 4 (le 2 (kyCount k.rec_ - 1)) else k.rec_ }

theorem takeUse_keys : (takeUse n s).keys = (onKey n (fun k => { k with
    uses := k.uses + 1, rec_ := if kyLife (s.key n).rec_ = 1 then putAt k.rec_ 4 (le 2 (kyCount (s.key n).rec_ - 1)) else k.rec_ }) s).keys := by
  unfold takeUse
  dsimp only
  split
  · exact notify_frame _ _ _ _ .keys (by decide)
  · rfl

theorem takeUse_same : (takeUse n s).key n = keyServed (s.key n) := (key_of_keys takeUse_keys n).trans (onKey_same n _ s)

theorem takeUse_other {m : Nat} (h : m ≠ n) : (takeUse n s).key m = s.key m := (key_of_keys takeUse_keys m).trans (onKey_other _ s h)

/-- A signature uses its slot as every other service does; a scalar of the random source is taken besides (R552). -/
theorem keySign_keys (r : Req) (s : State) : (keySignSpec.run r s).st.keys = (takeUse (unitIx r.b) s).keys := by
  show (Res.st (if _ then _ else _)).keys = _
  split <;> rfl

theorem keyMac_generates (r : Req) (s : State) (gen : rd r.b (krOff r.b) 1 ≠ 1) :
    (keyMacSpec.run r s).status = .ok ∧ (keyMacSpec.run r s).data = cmac (derivedKey (s.key (unitIx r.b)).rec_ r.b) (r.b.drop (krOff r.b + 20)) := by
  unfold keyMacSpec
  dsimp only
  rw [decide_eq_false gen]
  exact ⟨rfl, if_neg gen⟩

theorem keyMac_verifies (r : Req) (s : State) (ver : rd r.b (krOff r.b) 1 = 1) :
    (keyMacSpec.run r s).data = [] ∧ (keyMacSpec.run r s).status =
      if sub r.b (krOff r.b + 4) 16 = cmac (derivedKey (s.key (unitIx r.b)).rec_ r.b) (r.b.drop (krOff r.b + 20)) then .ok else .verify := by
  unfold keyMacSpec
  dsimp only
  rw [decide_eq_true ver, Bool.true_and]
  refine ⟨if_pos ver, ?_⟩
  by_cases h : sub r.b (krOff r.b + 4) 16 = cmac (derivedKey (s.key (unitIx r.b)).rec_ r.b) (r.b.drop (krOff r.b + 20))
  · rw [if_pos h, if_neg (by simp [h])]
  · rw [if_neg h, if_pos (by simp [h])]

theorem aesUse_refused (u : Nat) (b : Rec) (cannot : keyOk s (unitIx b) [1, 2] u = false) : aesUse u b s = some (.key, unitIx b) :=
  if_neg (by rw [cannot]; exact Bool.false_ne_true)

theorem aesUse_direct (u : Nat) (b : Rec) (can : keyOk s (unitIx b) [1, 2] u = true) (root : krDepth b = 0) : aesUse u b s = none :=
  if_pos (by rw [can, decide_eq_true root]; rfl)

/-- A record with a window serves exactly inside it (R539). -/
theorem keyState_window {u : Int} (here : (s.key n).lost = false) (sound : (s.key n).bad = false) (kind : kyType (s.key n).rec_ ≠ 0) (uncounted : kyLife (s.key n).rec_ ≠ 1)
    (start : kyNotBefore (s.key n).rec_ ≠ 0) (stop : kyNotAfter (s.key n).rec_ ≠ 0) (now : s.utcSec = some u) :
    keyState s n = 0 ↔ (kyNotBefore (s.key n).rec_ : Int) ≤ u ∧ u ≤ kyNotAfter (s.key n).rec_ := by
  unfold keyState
  dsimp only
  rw [here, if_neg Bool.false_ne_true, if_neg kind, sound, if_neg Bool.false_ne_true, if_neg (by simp [uncounted]), if_neg (by simp [start]), now]
  dsimp only
  by_cases early : u < kyNotBefore (s.key n).rec_
  · rw [if_pos early]
    simp [early]
  · rw [if_neg early]
    by_cases late : (kyNotAfter (s.key n).rec_ : Int) < u
    · rw [if_pos (by simp [stop, late])]
      simp [late]
    · rw [if_neg (by simp [late])]
      exact ⟨fun _ => ⟨Int.not_lt.mp early, Int.not_lt.mp late⟩, fun _ => rfl⟩

end

/-- Settles O42: the opcodes by the laws of acceptance, a record stored, a use taken and an answer given by the rules above. -/
theorem keyOpcodes : Obligations.KeyOpcodes := by
  unfold Obligations.KeyOpcodes
  have quiet (o : OpSpec) (l : List Part) (kept : Part.ctxs ∉ l) (frame : ∀ r s, Only l s (o.run r s).st) (r : Req) (s : State) : (o.run r s).st.ctxs = s.ctxs :=
    frame r s .ctxs kept
  have mac := quiet keyMacSpec _ (by decide) keyMacSpec_frame
  have cipher := quiet keyCipherSpec _ (by decide) keyCipherSpec_frame
  have sign := quiet keySignSpec _ (by decide) keySignSpec_frame
  have ecdh := quiet keyEcdhSpec _ (by decide) keyEcdhSpec_frame
  refine ⟨waits_of _ _ _ rfl rfl (fun _ _ _ => rfl), tells_of _ _ _ rfl (.inr rfl) rfl (fun _ _ _ => rfl), acts_of _ _ _ rfl rfl mac (fun _ _ _ => rfl),
    acts_of _ _ _ rfl rfl mac (fun _ _ _ => rfl), acts_of _ _ _ rfl rfl cipher (fun _ _ _ => rfl), acts_of _ _ _ rfl rfl cipher (fun _ _ _ => rfl),
    acts_of _ _ _ rfl rfl sign (fun _ _ _ => rfl), acts_of _ _ _ rfl rfl sign (fun _ _ _ => rfl), acts_of _ _ _ rfl rfl ecdh (fun _ _ _ => rfl),
    waits_of _ _ _ rfl rfl (fun _ _ _ => rfl), tells_of _ _ _ rfl (.inr rfl) rfl (fun _ _ _ => rfl), fun r s => ?stored, fun n s => ?used, fun r s => ?answered,
    fun u b s => ⟨aesUse_refused u b, aesUse_direct u b⟩, fun n u s => keyState_window⟩
  case stored =>
    exact ⟨storeKey_same _, congrArg Role.gen (storeKey_role _), storeKey_owner _, congrArg KeySlot.rec_ (storeKey_same _), congrArg Role.gen (storeKey_role _), rfl,
      fun m h => ⟨storeKey_other _ h, storeKey_other _ h⟩, keyWriteSpec_frame r s, keyGenkeySpec_frame r s⟩
  case used =>
    dsimp only
    rw [takeUse_same]
    exact ⟨rfl, rfl, rfl, fun m h => takeUse_other h, takeUse_frame n s⟩
  case answered =>
    refine ⟨rfl, rfl, rfl, keySign_keys r s, keyMac_generates r s, fun ver => ?_, rfl, rfl⟩
    obtain ⟨empty, status⟩ := keyMac_verifies r s ver
    rw [empty, status]
    split <;> simp [*]

end Sys2Proof.Machine

namespace Sys2Proof.Machine

/-! ### What each operation of the fault collection leaves of the instances (R561 to R575) -/

theorem onFltInst_same (src i : Nat) (f : FltInst → FltInst) (s : State) : (onFltInst src i f s).fltInst src i = f (s.fltInst src i) := tget_tmod_same fltInstDef _ _ f

theorem onFltInst_other {src i k : Nat} (f : FltInst → FltInst) (s : State) (h : k ≠ fkey src i) : tget fltInstDef (onFltInst src i f s).flt.inst k = tget fltInstDef s.flt.inst k :=
  tget_tmod_other fltInstDef s.flt.inst f h

theorem fltInst_of_inst {s t : State} (h : t.flt.inst = s.flt.inst) (src i : Nat) : t.fltInst src i = s.fltInst src i := by
  unfold State.fltInst
  rw [h]

/-- The parts of the collection that an entry of the record ring leaves as they are. -/
def FltKept (s t : State) : Prop := t.flt.inst = s.flt.inst ∧ t.flt.heldReq = s.flt.heldReq ∧ t.flt.sticky = s.flt.sticky

theorem FltKept.trans {s t u : State} (h : FltKept s t) (k : FltKept t u) : FltKept s u := ⟨k.1.trans h.1, k.2.1.trans h.2.1, k.2.2.trans h.2.2⟩

theorem FltKept.of_flt {s t : State} (h : t.flt = s.flt) : FltKept s t := by
  unfold FltKept
  rw [h]
  exact ⟨rfl, rfl, rfl⟩

section
variable {src i : Nat} {s : State}

theorem putRecord_kept (r : Rec) : FltKept s (putRecord r s) := by
  have kept : FltKept s (if s.flt.capture = 0 then
      onFlt (fun x => if x.ring.length ≥ 64 then { x with ring := x.ring.drop 1 ++ [r], overwritten := x.overwritten + 1 } else { x with ring := x.ring ++ [r] }) s else s) := by
    split
    · unfold FltKept
      dsimp only [onFlt]
      split <;> exact ⟨rfl, rfl, rfl⟩
    · exact .of_flt rfl
  exact kept.trans (.of_flt (admitEntry_frame 1472 r _ .flt (by decide)))

theorem onFlt_kept {f : Flt → Flt} (keeps : ∀ x, (f x).inst = x.inst ∧ (f x).heldReq = x.heldReq ∧ (f x).sticky = x.sticky) : FltKept s (onFlt f s) := keeps s.flt

theorem record_kept (r : Rec) : FltKept s (record r s) := by
  unfold record
  dsimp only
  split
  case isTrue => exact onFlt_kept (fun _ => ⟨rfl, rfl, rfl⟩)
  case isFalse =>
    refine FltKept.trans (FltKept.trans ?gap (onFlt_kept ?intake)) (putRecord_kept r)
    case intake => exact fun _ => ⟨rfl, rfl, rfl⟩
    case gap =>
      split
      · exact .of_flt rfl
      · refine (putRecord_kept _).trans (onFlt_kept ?_)
        exact fun _ => ⟨rfl, rfl, rfl⟩

/-- Beside the mark of what acted, a reaction touches no part of the collection (R569). -/
theorem reactAt_marks : Only [.anvil, .time, .ctxs, .qf, .light, .bus, .ces, .acc, .free] (onFltInst src i (fun y => { y with acted := true }) s) (reactAt src i s) := by
  have closed (t u : Nat) (a : State) (h : Only [.anvil, .time, .ctxs, .qf, .light, .bus, .ces, .acc, .free] (onFltInst src i (fun y => { y with acted := true }) s) a) :
      Only [.anvil, .time, .ctxs, .qf, .light, .bus, .ces, .acc, .free] (onFltInst src i (fun y => { y with acted := true }) s)
        (if u = 2 then closeProducer (taskPort t) 4 a else a) := Only.ite ((closeProducer_frame _ _ _).after (by decide) h) h
  unfold reactAt
  dsimp only
  generalize (allUnits.filter _).filter _ = us
  have safe := (safeUnits_frame us (onFltInst src i (fun y => { y with acted := true }) s)).sub (m := [.anvil, .time, .ctxs, .qf, .light, .bus, .ces, .acc, .free]) (by decide)
  refine Only.ite (Only.foldl _ (fun u n => Only.ite ((safeTask_frame n u).sub (by decide)) (Only.refl _ u)) _ ?_) ?_
  all_goals
    split
    · exact closed _ _ _ safe
    · exact safe

end

end Sys2Proof.Machine

namespace Sys2Proof.Machine

/-! ### The count of events (R561, R564) -/

section
variable {src i cls : Nat} {s : State}

theorem react_flt : ((react src i cls s).flt.inst = s.flt.inst ∧ (react src i cls s).flt.sticky = s.flt.sticky)
    ∨ (react src i cls s).flt = (onFltInst src i (fun y => { y with acted := true }) s).flt := by
  unfold react
  split
  · exact .inl ⟨rfl, rfl⟩
  · split
    · exact .inr (reactAt_marks .flt (by decide))
    · split <;> exact .inl ⟨rfl, rfl⟩

theorem react_inst : (∃ a, (react src i cls s).fltInst src i = { s.fltInst src i with acted := a })
    ∧ ∀ k, k ≠ fkey src i → tget fltInstDef (react src i cls s).flt.inst k = tget fltInstDef s.flt.inst k := by
  rcases react_flt (src := src) (i := i) (cls := cls) (s := s) with ⟨kept, _⟩ | acted
  · exact ⟨⟨_, fltInst_of_inst kept src i⟩, fun k _ => by rw [kept]⟩
  · exact ⟨⟨true, (fltInst_of_inst (congrArg Flt.inst acted) src i).trans (onFltInst_same src i _ s)⟩,
      fun k other => (congrArg (fun f : Flt => tget fltInstDef f.inst k) acted).trans (onFltInst_other _ s other)⟩

theorem react_sticky : (react src i cls s).flt.sticky = s.flt.sticky := by
  rcases react_flt (src := src) (i := i) (cls := cls) (s := s) with ⟨_, kept⟩ | acted
  · exact kept
  · rw [acted]
    rfl

/-- An event opens a window: none is open, or the open one is over (R564). -/
def opensWindow (c : Rec) (tb : Tb) (x : FltInst) : Bool := x.count = 0 || decide ((tb - x.winStart).toNat > 50000 * ffW c)

/-- COUNT after an event (R564). -/
def countAfter (c : Rec) (tb : Tb) (x : FltInst) : Nat := if x.severe then x.count else if opensWindow c tb x then 1 else x.count + 1

/-- An event makes what it counts for SEVERE (R564). -/
def turnsSevere (c : Rec) (tb : Tb) (x : FltInst) : Bool := !x.severe && decide (ffN c ≤ countAfter c tb x)

/-- A fault's counts after an event, where they were `x` before it. -/
def instAfter (c : Rec) (tb : Tb) (x y : FltInst) : FltInst :=
  let y := { y with events := y.events + 1, atTb := tb, atN := if y.atTb = tb then y.atN + 1 else 1 }
  if y.severe then y
  else
    let y := { y with count := countAfter c tb x, winStart := if opensWindow c tb x then tb else y.winStart }
    if turnsSevere c tb x then { y with severe := true, severeTb := tb, cls := ffClass c, group := ffGroup c, errpin := ffErr c, acted := false } else y

theorem record_inst (r : Rec) : (record r s).flt.inst = s.flt.inst := (record_kept r).1

theorem inst_when {c : Prop} {_ : Decidable c} {a b : State} (h : b.flt.inst = a.flt.inst) : (if c then b else a).flt.inst = a.flt.inst := by
  split
  · exact h
  · rfl

theorem raiseDie_counts (onA : Bool) (d : Nat) : ∃ e, raiseDie onA src i d s = (if turnsSevere (s.fltCfgOf src) s.tbNow (s.fltInst src i) then react src i (ffClass (s.fltCfgOf src)) e else e)
    ∧ e.flt.inst = (onFltInst src i (instAfter (s.fltCfgOf src) s.tbNow (s.fltInst src i)) s).flt.inst := by
  unfold raiseDie
  refine ⟨_, rfl, ?_⟩
  with_reducible refine (inst_when ?wake).trans ?_
  case wake => exact congrArg Flt.inst (deviceWake_frame _ _ _ _ _ _ .flt (by decide))
  with_reducible refine (inst_when ?alert).trans ?_
  case alert => rfl
  with_reducible refine (record_inst _).trans ?_
  with_reducible refine (inst_when ?sticky).trans ?_
  case sticky => rfl
  rfl

theorem raiseD_inst (d : Nat) : (∃ a, (raiseD src i d s).fltInst src i = { instAfter (s.fltCfgOf src) s.tbNow (s.fltInst src i) (s.fltInst src i) with acted := a })
    ∧ ∀ k, k ≠ fkey src i → tget fltInstDef (raiseD src i d s).flt.inst k = tget fltInstDef s.flt.inst k := by
  obtain ⟨e, run, inst⟩ := raiseDie_counts (src := src) (i := i) (s := s) (fltOnAnvil src) d
  have own := (fltInst_of_inst inst src i).trans (onFltInst_same src i _ s)
  have others (k : Nat) (h : k ≠ fkey src i) := (congrArg (fun x => tget fltInstDef x k) inst).trans (onFltInst_other _ s h)
  unfold raiseD
  rw [run]
  split
  · obtain ⟨⟨a, acted⟩, rest⟩ := react_inst (src := src) (i := i) (cls := ffClass (s.fltCfgOf src)) (s := e)
    exact ⟨⟨a, by rw [acted, own]⟩, fun k h => (rest k h).trans (others k h)⟩
  · exact ⟨⟨_, own⟩, others⟩

end

section
variable {c : Rec} {tb : Tb} {x : FltInst}

theorem instAfter_events : (instAfter c tb x x).events = x.events + 1 := by
  unfold instAfter
  dsimp only
  split
  · rfl
  · split <;> rfl

theorem instAfter_severe (severe : x.severe = true) : instAfter c tb x x = { x with events := x.events + 1, atTb := tb, atN := if x.atTb = tb then x.atN + 1 else 1 } :=
  if_pos severe

theorem instAfter_count (mild : x.severe = false) : (instAfter c tb x x).count = countAfter c tb x ∧ (instAfter c tb x x).winStart = if opensWindow c tb x then tb else x.winStart := by
  unfold instAfter
  dsimp only
  rw [mild, if_neg Bool.false_ne_true]
  split <;> exact ⟨rfl, rfl⟩

theorem instAfter_mild (mild : x.severe = false) (few : countAfter c tb x < ffN c) : (instAfter c tb x x).severe = false := by
  have not : turnsSevere c tb x = false := by
    unfold turnsSevere
    rw [decide_eq_false (Nat.not_le.mpr few), Bool.and_false]
  unfold instAfter
  dsimp only
  rw [mild, if_neg Bool.false_ne_true, not, if_neg Bool.false_ne_true]

theorem instAfter_turns (mild : x.severe = false) (many : ffN c ≤ countAfter c tb x) :
    let y := instAfter c tb x x
    y.severe = true ∧ y.severeTb = tb ∧ y.cls = ffClass c ∧ y.group = ffGroup c ∧ y.errpin = ffErr c := by
  have turns : turnsSevere c tb x = true := by
    unfold turnsSevere
    rw [decide_eq_true many, mild]
    rfl
  unfold instAfter
  dsimp only
  rw [mild, if_neg Bool.false_ne_true, turns, if_pos rfl]
  exact ⟨rfl, rfl, rfl, rfl, rfl⟩

theorem opensWindow_iff : opensWindow c tb x = true ↔ x.count = 0 ∨ 50000 * ffW c < (tb - x.winStart).toNat := by
  unfold opensWindow
  simp

theorem countAfter_opens (mild : x.severe = false) (opens : opensWindow c tb x = true) : countAfter c tb x = 1 := by
  unfold countAfter
  rw [mild, if_neg Bool.false_ne_true, if_pos opens]

theorem countAfter_within (mild : x.severe = false) (within : opensWindow c tb x = false) : countAfter c tb x = x.count + 1 := by
  unfold countAfter
  rw [mild, if_neg Bool.false_ne_true, within, if_neg Bool.false_ne_true]

end

end Sys2Proof.Machine

namespace Sys2Proof.Machine

/-! ### The fault opcodes (R572, R575) -/

section
variable {src i : Nat} {s : State}

theorem clearInst_keeps : clearInst src i false s = s := if_pos rfl

theorem releasePorts_flt : (releasePorts s).flt = s.flt := releasePorts_frame s .flt (by decide)

/-- A fault's counts after a clear that found no event at its tick: WIN_START and SEVERE_TB stand (R572; the model's reading, log 15). -/
def instCleared (x : FltInst) : FltInst := { x with severe := false, count := 0, acted := false }

theorem clearInst_quiet (quiet : (s.fltInst src i).atTb ≠ s.tbNow) : (clearInst src i true s).flt =
    { (onFltInst src i instCleared s).flt with heldReq := s.flt.heldReq.filter (fun r => r ≠ (src, i)) } := by
  have none : (if (s.fltInst src i).count ≠ 0 && (s.fltInst src i).atTb = s.tbNow then (s.fltInst src i).atN else 0) = 0 :=
    if_neg (by rw [decide_eq_false quiet, Bool.and_false]; exact Bool.false_ne_true)
  unfold clearInst
  rw [if_neg (by decide)]
  dsimp only
  rw [releasePorts_flt, none, if_neg (by simp)]
  rfl

theorem sticky_ite {c : Prop} {_ : Decidable c} {a b : State} {n : Nat} (h : a.flt.sticky = n) (k : b.flt.sticky = n) : (if c then a else b : State).flt.sticky = n := by
  split
  · exact h
  · exact k

theorem clearInst_sticky (sev : Bool) : (clearInst src i sev s).flt.sticky = s.flt.sticky := by
  unfold clearInst
  split
  · rfl
  · dsimp only
    rw [releasePorts_flt, onCom_flt]
    with_reducible refine sticky_ite (Eq.trans react_sticky ?_) ?_
    · rfl
    · rfl

end

/-- The sticky bit of a source after FLT_CLEAR (R575). -/
def stickyCleared (r : Req) (s : State) : State := if bit (rd r.b 4 1) 1 then onFlt (fun f => { f with sticky := clrBit f.sticky (rd r.b 0 2) }) s else s

theorem fltClear_one {r : Req} (s : State) (one : rd r.b 2 2 ≠ 0xFFFF) :
    ∃ d, (fltClearSpec.run r s).st = record d (stickyCleared r (clearInst (rd r.b 0 2) (rd r.b 2 2) (bit (rd r.b 4 1) 0) s)) := by
  unfold fltClearSpec
  dsimp only
  rw [if_neg one]
  exact ⟨_, rfl⟩

theorem stickyCleared_inst (r : Req) (s : State) : (stickyCleared r s).flt.inst = s.flt.inst ∧ (stickyCleared r s).flt.heldReq = s.flt.heldReq := by
  unfold stickyCleared
  split <;> exact ⟨rfl, rfl⟩

theorem stickyCleared_sticky (r : Req) (s : State) : (stickyCleared r s).flt.sticky = if bit (rd r.b 4 1) 1 then clrBit s.flt.sticky (rd r.b 0 2) else s.flt.sticky := by
  unfold stickyCleared
  split <;> rfl

theorem stickyCleared_frame (r : Req) (s : State) : Only [.flt] s (stickyCleared r s) := Only.ite (onFlt_frame _ s) (Only.refl _ s)

/-- Settles O48: the opcodes by the laws of acceptance, an event by `instAfter`, a clear by `clearInst_quiet`. -/
theorem faultCollection : Obligations.FaultCollection := by
  unfold Obligations.FaultCollection
  refine ⟨waits_of _ _ _ rfl rfl (fun _ _ _ => rfl), tells_of _ _ _ rfl (.inr rfl) rfl (fun _ _ _ => rfl), tells_of _ _ _ rfl (.inr rfl) rfl (fun _ _ _ => rfl),
    waits_of _ _ _ rfl rfl (fun _ _ _ => rfl), tells_of _ _ _ rfl (.inr rfl) rfl (fun _ _ _ => rfl), waits_of _ _ _ rfl rfl (fun _ _ _ => rfl),
    fun src i d s => ?event, fun r s => ?clear, fun r s => ?opcodes⟩
  case event =>
    obtain ⟨⟨a, own⟩, others⟩ := raiseD_inst (src := src) (i := i) (s := s) d
    dsimp only
    rw [own]
    refine ⟨instAfter_events, others, fun severe => ?_, fun mild => ?_⟩
    · rw [instAfter_severe severe]
      exact ⟨severe, rfl, rfl, rfl, rfl, rfl⟩
    · obtain ⟨count, start⟩ := instAfter_count (c := s.fltCfgOf src) (tb := s.tbNow) mild
      refine ⟨fun opens => ?_, fun counted within => ?_, fun few => instAfter_mild mild (count ▸ few), fun many => instAfter_turns mild (count ▸ many)⟩
      · have opened := opensWindow_iff.mpr opens
        exact ⟨start.trans (if_pos opened), count.trans (countAfter_opens mild opened)⟩
      · have inside : opensWindow (s.fltCfgOf src) s.tbNow (s.fltInst src i) = false :=
          Bool.eq_false_iff.mpr (fun h => (opensWindow_iff.mp h).elim counted (Nat.not_lt.mpr within))
        exact ⟨start.trans (if_neg (by rw [inside]; exact Bool.false_ne_true)), count.trans (countAfter_within mild inside)⟩
  case clear =>
    intro src i t one
    obtain ⟨d, run⟩ := fltClear_one s one
    obtain ⟨inst, held, sticky⟩ := record_kept (s := stickyCleared r (clearInst src i (bit (rd r.b 4 1) 0) s)) d
    rw [← run] at inst held sticky
    rw [(stickyCleared_inst _ _).1] at inst
    rw [(stickyCleared_inst _ _).2] at held
    refine ⟨fun ⟨clears, quiet⟩ => ?_, fun keeps => ?_, ?_⟩
    · rw [clears, clearInst_quiet quiet] at inst held
      have own : t.fltInst src i = instCleared (s.fltInst src i) := (fltInst_of_inst (s := onFltInst src i instCleared s) inst src i).trans (onFltInst_same src i _ s)
      rw [own]
      refine ⟨rfl, rfl, rfl, rfl, rfl, ?_, fun k h => (congrArg (fun x => tget fltInstDef x k) inst).trans (onFltInst_other _ s h)⟩
      rw [held]
      simp
    · rw [keeps, clearInst_keeps] at inst held run
      refine ⟨inst, held, ?_⟩
      rw [show t = _ from run]
      exact (record_frame _ _).after (by decide) ((stickyCleared_frame r s).sub (by decide))
    · rw [sticky, stickyCleared_sticky, clearInst_sticky]
  case opcodes =>
    exact ⟨tget_tput_same fltCfgReset _ _ _, fun k h => tget_tput_other fltCfgReset s.com.fltCfg _ h, rfl, fltConfigSpec_frame r s, rfl, rfl, rfl, rfl, rfl, rfl, fltGlobalSpec_frame r s,
      rfl, rfl⟩

end Sys2Proof.Machine

namespace Sys2Proof.Machine

/-! ### AP1 and a LIN frame that a context reset took (R104, R139, R588) -/

/-- A LIN frame in flight that the reset of context 1 took: its end goes to the limbo list of that context (R139). -/
def limboFrame : LinFrame := { id := 1, fn := 0, frames := 1, data := none, ext := none, goSleep := false, queued := false, limbo := some 1 }

/-- A park entry before AP1, all drained, while LIN port 0 still has that frame in flight. -/
def ap1Due : State :=
  onLin 0 (fun k => { k with st := 1, busy := some limboFrame }) (tTick 40000 (tP (fun p => { p with entry := 1, entryFn := 10 })))

/-- What AP1 makes of a state whose conditions are met (R588). -/
def ap1Taken (s : State) : State :=
  let can := (List.range 8).filter (fun p => (s.can p).st ≠ 0 && (s.can p).st ≠ 6)
  let lin := ((List.range 12).filter (fun n => (s.lin n).st = 1 || (s.lin n).st = 3)).map (· + 8)
  linPark (canPark (onPwr (fun p => { p with entry := 2, slept := can ++ lin }) s))

theorem parkAp1_takes {s : State} (entering : s.pwr.entry = 1) (goesOn : s.pwr.abandon = none) (due : s.pwr.entryFn ≠ s.fn ∨ 40000 ≤ s.tick) (ready : ap1Ready s = true) :
    exec .parkAp1 s = .next (ap1Taken (atTick 40000 s)) :=
  if_pos (by rw [goesOn, decide_eq_true entering, decide_eq_true due, ready]; rfl)

theorem ap1Due_ready : ap1Due.pwr.entry = 1 ∧ ap1Due.pwr.abandon = none ∧ 40000 ≤ ap1Due.tick ∧ ap1Ready ap1Due = true := by decide

theorem ap1Due_now : atTick 40000 ap1Due = ap1Due := by
  unfold atTick
  rw [show ap1Due.tickTb 40000 = ap1Due.tbNow by decide, advTo_now]

set_option maxRecDepth 100000 in
/-- AP1 abandons the frame, and the limbo list of context 1 is dated to this instant. -/
theorem ap1Due_limbo : ((ap1Taken ap1Due).cx 1).limboTb ≠ (ap1Due.cx 1).limboTb := by decide

/-- Refutes O45: the clause on PARK_AP1 says that no context changes, but where AP1 abandons a LIN frame that a context reset took, it dates the limbo list of that
context (R139). `ap1Due` is such a state. -/
theorem not_powerAndPark : ¬ Obligations.PowerAndPark := by
  unfold Obligations.PowerAndPark
  rintro ⟨_, _, _, _, _, _, _, _, _, _, _, ap1, _⟩
  obtain ⟨entering, goesOn, tick, ready⟩ := ap1Due_ready
  obtain ⟨u, run, _, _, frame⟩ := ap1 ap1Due entering goesOn (.inr tick) ready
  have taken : u = ap1Taken ap1Due := Host.Outcome.next.inj (run.symm.trans ((parkAp1_takes entering goesOn (.inr tick) ready).trans (by rw [ap1Due_now])))
  have kept : u.ctxs = ap1Due.ctxs := frame .ctxs (by decide)
  exact ap1Due_limbo (congrArg (fun c => (tget ctxDef c 1).limboTb) (taken ▸ kept))

end Sys2Proof.Machine

namespace Sys2Proof.Machine

/-! ### Banks and their marks (R608, R618) -/

section
variable (b m : Nat) (i : Tab Octet) (s : State)

theorem setMark_same : (setMark b m s).mark b = m := by
  unfold setMark State.mark onUpd
  by_cases h : b = 0 <;> simp [h]

theorem setBank_same : (setBank b i s).bank b = i := by
  unfold setBank State.bank onUpd
  by_cases h : b = 0 <;> simp [h]

theorem setMark_bank (c : Nat) : (setMark b m s).bank c = s.bank c := by
  unfold setMark State.bank onUpd
  by_cases h : b = 0 <;> simp [h]

/-- Of the update service a mark changes the two marks alone. -/
theorem setMark_upd : ∃ x y, (setMark b m s).upd = { s.upd with markA := x, markB := y } := by
  show ∃ x y, (if b = 0 then { s.upd with markA := m } else { s.upd with markB := m } : Upd) = _
  split
  · exact ⟨m, s.upd.markB, rfl⟩
  · exact ⟨s.upd.markA, m, rfl⟩

theorem setBank_upd : ∃ x y, (setBank b i s).upd = { s.upd with bankA := x, bankB := y } := by
  show ∃ x y, (if b = 0 then { s.upd with bankA := i } else { s.upd with bankB := i } : Upd) = _
  split
  · exact ⟨i, s.upd.bankB, rfl⟩
  · exact ⟨s.upd.bankA, i, rfl⟩

theorem setMark_other {c : Nat} (apart : b = 0 ↔ ¬ c = 0) : (setMark b m s).mark c = s.mark c := by
  unfold setMark State.mark onUpd
  by_cases h : c = 0
  · have k : ¬ b = 0 := fun k => apart.mp k h
    simp [h, k]
  · simp [h, apart.mpr h]

/-- The active and the inactive bank are two (R608). -/
theorem inactive_iff : s.inactive = 0 ↔ ¬ s.upd.active = 0 := by
  unfold State.inactive
  omega

end

section
variable {s : State}

theorem emptyInactive_empties : (emptyInactive s).bank s.inactive = [] ∧ (emptyInactive s).mark s.inactive = 0 :=
  ⟨(setMark_bank s.inactive 0 _ s.inactive).trans (setBank_same s.inactive [] s), setMark_same s.inactive 0 _⟩

theorem emptyInactive_upd : ∃ x y v w, (emptyInactive s).upd = { s.upd with bankA := x, bankB := y, markA := v, markB := w, prog := [] } := by
  obtain ⟨x, y, bank⟩ := setBank_upd s.inactive [] s
  obtain ⟨v, w, mark⟩ := setMark_upd s.inactive 0 (setBank s.inactive [] s)
  refine ⟨x, y, v, w, ?_⟩
  show { (setMark s.inactive 0 (setBank s.inactive [] s)).upd with prog := [] } = _
  rw [mark, bank]

/-! ### Transfer: UPD_BEGIN, UPD_WRITE, UPD_CANCEL, UPD_CONFIRM (R616 to R619, R628) -/

theorem updBegin_opens (r : Req) :
    let t := (updBeginSpec.run r s).st
    t.upd.st = 1 ∧ t.upd.owner = r.h.ctx ∧ t.upd.bundle = rd r.b 0 4 ∧ t.upd.mlen = rd r.b 4 4 ∧ t.upd.prog = [] ∧ t.bank s.inactive = [] ∧ t.mark s.inactive = 0
      ∧ t.upd.active = s.upd.active ∧ t.upd.sv = s.upd.sv ∧ Only [.upd] s t := by
  obtain ⟨_, _, _, _, upd⟩ := emptyInactive_upd (s := s)
  have active := congrArg Upd.active upd
  have sv := congrArg Upd.sv upd
  exact ⟨rfl, rfl, rfl, rfl, rfl, emptyInactive_empties.1, emptyInactive_empties.2, active, sv, updBeginSpec_frame r s⟩

/-- The octets of a block written one by one, with the place of the next (R617). -/
theorem foldl_octets (l : Rec) (t : Tab Octet) (k : Nat) :
    let p := l.foldl (fun t o => (tput octDef t.1 t.2 o, t.2 + 1)) (t, k)
    (∀ i x, l[i]? = some x → tget octDef p.1 (k + i) = x) ∧ ∀ j, (j < k ∨ k + l.length ≤ j) → tget octDef p.1 j = tget octDef t j := by
  induction l generalizing t k with
  | nil => exact ⟨fun i x h => absurd h (by simp), fun _ _ => rfl⟩
  | cons o l ih =>
    obtain ⟨inside, outside⟩ := ih (tput octDef t k o) (k + 1)
    refine ⟨fun i x h => ?_, fun j h => ?_⟩
    · cases i with
      | zero => exact (outside k (.inl (Nat.lt_succ_self k))).trans ((tget_tput_same octDef t k o).trans (Option.some.inj h))
      | succ i =>
        rw [show k + (i + 1) = k + 1 + i by omega]
        exact inside i x h
    · have apart : j ≠ k := by
        rw [List.length_cons] at h
        omega
      refine (outside j ?_).trans (tget_tput_other octDef t o apart)
      rw [List.length_cons] at h
      omega

/-- The image of the inactive bank after UPD_WRITE (R617). -/
def updWritten (r : Req) (s : State) : Tab Octet :=
  ((r.b.drop 8).foldl (fun t o => (tput octDef t.1 t.2 o, t.2 + 1)) (s.bank s.inactive, blockOff (s.bank s.inactive) (rd r.b 0 1) (rd r.b 2 2) + rd r.b 4 2)).1

theorem updWrite_component (r : Req) (component : rd r.b 0 1 ≠ 0) (factory : s.upd.service = 0) :
    (updWriteSpec.run r s).st = onUpd (fun u => { u with prog := tput (fun _ => 0) u.prog (65536 * rd r.b 0 1 + rd r.b 2 2) (rd r.b 4 2 + rd r.b 6 2) })
      (setMark s.inactive 1 (setBank s.inactive (updWritten r s) s)) := by
  have service : (setMark s.inactive 1 (setBank s.inactive (updWritten r s) s)).upd.service = 0 := by
    obtain ⟨_, _, mark⟩ := setMark_upd s.inactive 1 (setBank s.inactive (updWritten r s) s)
    obtain ⟨_, _, bank⟩ := setBank_upd s.inactive (updWritten r s) s
    rw [mark, bank]
    exact factory
  unfold updWriteSpec updShape
  dsimp only
  rw [decide_eq_false component, Bool.false_and, Bool.false_and, if_neg Bool.false_ne_true, if_neg]
  · rfl
  · rw [Bool.and_eq_true, Bool.and_eq_true, Bool.and_eq_true, decide_eq_true_eq]
    exact fun ⟨⟨⟨_, needed⟩, _⟩, _⟩ => needed service

theorem updCancel_ends (r : Req) :
    let t := (updCancelSpec.run r s).st
    t.upd.st = 0 ∧ t.upd.defer = none ∧ t.bank s.inactive = [] ∧ t.mark s.inactive = 0 ∧ t.upd.active = s.upd.active := by
  obtain ⟨_, _, _, _, upd⟩ := emptyInactive_upd (s := s)
  exact ⟨rfl, rfl, emptyInactive_empties.1, emptyInactive_empties.2, (congrArg Upd.active upd :)⟩

/-- The bundle is confirmed: the other bank is retired, and SV never falls (R628). -/
def updConfirmed (s : State) : State :=
  setMark s.inactive 4 (onUpd (fun u => { u with st := 0, prev := none, failed := 0, sv := max u.sv (mfSecVer s.activeImg) }) s)

theorem updConfirm_upd (r : Req) : (updConfirmSpec.run r s).st.upd = (updConfirmed s).upd := updResult_frame _ _ .upd (by decide)

theorem updConfirmed_upd : ∃ x y, (updConfirmed s).upd =
    { s.upd with st := 0, prev := none, failed := 0, sv := max s.upd.sv (mfSecVer s.activeImg), markA := x, markB := y } := by
  obtain ⟨x, y, mark⟩ := setMark_upd s.inactive 4 (onUpd (fun u => { u with st := 0, prev := none, failed := 0, sv := max u.sv (mfSecVer s.activeImg) }) s)
  exact ⟨x, y, mark⟩

end

end Sys2Proof.Machine

namespace Sys2Proof.Machine

/-! ### Activation, boot verification, failed boots (R622, R624, R625, R629) -/

section
variable {s : State}

theorem updActivationTick_eq (armed : s.upd.st = 3) (up : s.hearthUp = true) (fresh : s.upd.defer = none) :
    exec .updActivationTick s =
      let a := advTo s.upd.v s
      .next (if actBusy a || a.link.lost || a.rejoining then onUpd (fun u => { u with late := true, defer := some a.fn }) a else activate_ a) :=
  if_neg (by simp [armed, up, fresh])

theorem updDeferTimeout_eq {f : Fn} (deferred : s.upd.defer = some f) (armed : s.upd.st = 3) (up : s.hearthUp = true) (linked : s.link.lost = false) (joined : s.rejoining = false) :
    exec .updDeferTimeout s = .next (if 1000 ≤ (s.fn - f).toNat then activate_ s else s) := by
  show execUpdDeferTimeout s = _
  unfold execUpdDeferTimeout
  rw [deferred, armed, up, linked, joined, apply_ite Host.Outcome.next]
  dsimp only
  simp

/-- The boot of a bundle whose check passed: the pointer moves, the bank left is the former one (R625). -/
def bootPassed (s : State) : State :=
  onCes (fun x => { x with tasks := x.tasks.map (fun e => (e.1, { e.2 with recorded := false })) })
    (setMark s.upd.active 5 (onUpd (fun u => { u with
      active := s.inactive, ptr := true, st := 4, failed := 0, newBank := true, recover := false,
      result := some (resultRec 1 (verifyStep s s.inactive) s.upd.late (mfBundle (s.bank s.inactive)) s.upd.v 0) }) s))

/-- The boot of a bundle whose check failed: its bank is rejected (R625). -/
def bootRejected (s : State) : State :=
  setMark s.inactive 3 (onUpd (fun u => { u with st := 0, result := some (resultRec 2 (verifyStep s s.inactive) s.upd.late (mfBundle (s.bank s.inactive)) s.upd.v 0) }) s)

theorem updBootVerifyDone_eq (bad : List Nat) (verifies : s.upd.verifying = true) (down : s.hearthUp = false) (high : s.pwr.resetLow = none) (clock : s.pwr.xtal25 = true)
    (powered : s.pwr.vpor = false) :
    exec (.updBootVerifyDone bad) s = .next (hearthStart bad (if verifyStep s s.inactive = 0 then bootPassed s else raise 0x1A0 0 (bootRejected s))) := by
  show execUpdBootVerifyDone bad s = _
  unfold execUpdBootVerifyDone
  rw [if_neg (by simp [verifies, down, high, clock, powered])]
  dsimp only
  split <;> rfl

theorem bootPassed_upd : ∃ x y r, (bootPassed s).upd = { s.upd with
    active := s.inactive, ptr := true, st := 4, failed := 0, newBank := true, recover := false, result := r, markA := x, markB := y } := by
  obtain ⟨x, y, mark⟩ := setMark_upd s.upd.active 5 (onUpd (fun u => { u with
    active := s.inactive, ptr := true, st := 4, failed := 0, newBank := true, recover := false,
    result := some (resultRec 1 (verifyStep s s.inactive) s.upd.late (mfBundle (s.bank s.inactive)) s.upd.v 0) }) s)
  exact ⟨x, y, _, mark⟩

theorem bootPassed_mark : (bootPassed s).mark s.upd.active = 5 ∧ (bootPassed s).mark s.inactive = s.mark s.inactive :=
  ⟨setMark_same s.upd.active 5 _, setMark_other s.upd.active 5 _ ((not_iff_not.mpr (inactive_iff s)).trans not_not).symm⟩

theorem bootPassed_frame : Only [.ces, .upd] s (bootPassed s) :=
  (onCes_frame _ _).after (by decide) ((setMark_frame _ _ _).after (by decide) ((onUpd_frame _ s).sub (by decide)))

theorem bootRejected_upd : ∃ x y r, (bootRejected s).upd = { s.upd with st := 0, result := r, markA := x, markB := y } := by
  obtain ⟨x, y, mark⟩ := setMark_upd s.inactive 3 (onUpd (fun u => { u with
    st := 0, result := some (resultRec 2 (verifyStep s s.inactive) s.upd.late (mfBundle (s.bank s.inactive)) s.upd.v 0) }) s)
  exact ⟨x, y, _, mark⟩

theorem bootRejected_mark : (bootRejected s).mark s.upd.active = s.mark s.upd.active ∧ (bootRejected s).mark s.inactive = 3 :=
  ⟨setMark_other s.inactive 3 _ (inactive_iff s), setMark_same s.inactive 3 _⟩

theorem bootRejected_frame : Only [.upd] s (bootRejected s) := (setMark_frame _ _ _).after (by decide) (onUpd_frame _ s)

theorem failedBootTimeout_eq (boots : s.upd.st = 4) (up : s.hearthUp = true) (alone : s.upd.rejoined = false) :
    exec .failedBootTimeout s = .next (bootFailed (onUpd (fun u => { u with rejoined := true }) (advTo (s.upd.released + msTicks 2000) s))) :=
  if_pos (by simp [boots, up, alone])

theorem bootFailed_eq (boots : s.upd.st = 4) :
    bootFailed s =
      let a := onUpd (fun u => { u with failed := u.failed + 1 }) s
      if 2 ≤ s.upd.failed then fallBack a else a := by
  unfold bootFailed
  rw [if_neg (fun no => no boots)]
  dsimp only
  by_cases third : 2 ≤ s.upd.failed
  · rw [if_pos third]
    exact if_pos (Nat.succ_le_succ third)
  · rw [if_neg third]
    exact if_neg (fun h => third (Nat.le_of_succ_le_succ h))

end

/-- Settles O43: the opcodes by the laws of acceptance and their rules above; each event by its equation above. -/
theorem updateService : Obligations.UpdateService := by
  unfold Obligations.UpdateService
  refine ⟨waits_of _ _ _ rfl rfl (fun _ _ _ => rfl), acts_of _ _ _ rfl rfl (fun r s => updWriteSpec_frame r s .ctxs (by decide)) (fun _ _ _ => rfl),
    acts_of _ _ _ rfl rfl (fun r s => updFinishSpec_frame r s .ctxs (by decide)) (fun _ _ _ => rfl),
    acts_of _ _ _ rfl rfl (fun r s => updVerifySpec_frame r s .ctxs (by decide)) (fun _ _ _ => rfl),
    waits_of _ _ _ rfl rfl (fun _ _ _ => rfl), waits_of _ _ _ rfl rfl (fun _ _ _ => rfl), waits_of _ _ _ rfl rfl (fun _ _ _ => rfl),
    waits_of _ _ _ rfl rfl (fun _ _ _ => rfl), waits_of _ _ _ rfl rfl (fun _ _ _ => rfl), tells_of _ _ _ rfl (.inl rfl) rfl (fun _ _ _ => rfl),
    waits_of _ _ _ rfl rfl (fun _ _ _ => rfl), fun r s => updBegin_opens r, fun r s => ?writes, fun r s => ?ends, fun s armed up fresh => ?activation,
    fun s f deferred armed up linked joined => ?defer, fun bad s verifies down high clock powered => ?verified, fun s boots up alone => ?failed⟩
  case writes =>
    intro c base t component factory
    have run : t = _ := updWrite_component r component factory
    obtain ⟨inside, outside⟩ := foldl_octets (r.b.drop 8) (s.bank s.inactive) base
    obtain ⟨_, _, mark⟩ := setMark_upd s.inactive 1 (setBank s.inactive (updWritten r s) s)
    obtain ⟨_, _, bank⟩ := setBank_upd s.inactive (updWritten r s) s
    have image : t.bank s.inactive = updWritten r s := by
      rw [run]
      exact (setMark_bank s.inactive 1 _ s.inactive).trans (setBank_same s.inactive _ s)
    rw [image]
    refine ⟨inside, fun j h => outside j (by rw [List.length_drop]; exact h), ?_, ?_, ?_, updWriteSpec_frame r s⟩
    · rw [run]
      exact tget_tput_same (fun _ => 0) _ _ _
    · rw [run]
      exact setMark_same s.inactive 1 _
    · rw [run]
      show (setMark s.inactive 1 (setBank s.inactive (updWritten r s) s)).upd.st = _
      rw [mark, bank]
  case ends =>
    obtain ⟨st, defer, empty, mark, active⟩ := updCancel_ends (s := s) r
    obtain ⟨_, _, confirmed⟩ := updConfirmed_upd (s := s)
    have retired : (updConfirmSpec.run r s).st.mark s.inactive = 4 := by
      unfold State.mark
      rw [updConfirm_upd]
      exact setMark_same s.inactive 4 _
    dsimp only
    rw [updConfirm_upd, confirmed]
    exact ⟨st, defer, empty, mark, active, rfl, rfl, rfl, Nat.le_max_left _ _, retired, rfl, rfl, rfl, updCancelSpec_frame r s, updConfirmSpec_frame r s⟩
  case activation =>
    have run := updActivationTick_eq armed up fresh
    have link : (advTo s.upd.v s).link = s.link := advTo_frame s.upd.v s .link (by decide)
    dsimp only at run ⊢
    rw [link] at run
    refine ⟨fun waits => run.trans (congrArg _ (if_pos ?_)), fun still linked joined => run.trans (congrArg _ (if_neg ?_))⟩
    · rcases waits with h | h | h <;> simp [h]
    · simp [still, linked, joined]
  case defer =>
    have run := updDeferTimeout_eq deferred armed up linked joined
    exact ⟨fun late => run.trans (congrArg _ (if_pos late)), fun early => run.trans (congrArg _ (if_neg (Nat.not_le.mpr early)))⟩
  case verified =>
    have run := updBootVerifyDone_eq bad verifies down high clock powered
    by_cases sound : verifyStep s s.inactive = 0
    · obtain ⟨_, _, _, upd⟩ := bootPassed_upd (s := s)
      dsimp only
      rw [decide_eq_true sound]
      rw [if_pos sound] at run
      refine ⟨bootPassed s, run, ?_⟩
      rw [upd]
      exact ⟨rfl, rfl, rfl, rfl, bootPassed_mark.1, bootPassed_mark.2, bootPassed_frame, fun h => absurd h (by decide)⟩
    · obtain ⟨_, _, _, upd⟩ := bootRejected_upd (s := s)
      dsimp only
      rw [decide_eq_false sound]
      rw [if_neg sound] at run
      refine ⟨bootRejected s, run, ?_⟩
      rw [upd]
      exact ⟨rfl, rfl, rfl, rfl, bootRejected_mark.1, bootRejected_mark.2, bootRejected_frame.sub (by decide), fun _ => bootRejected_frame .ces (by decide)⟩
  case failed =>
    have run := failedBootTimeout_eq boots up alone
    have upd : (advTo (s.upd.released + msTicks 2000) s).upd = s.upd := advTo_frame _ s .upd (by decide)
    have same : (onUpd (fun u => { u with rejoined := true }) (advTo (s.upd.released + msTicks 2000) s)).upd = { s.upd with rejoined := true } :=
      congrArg (fun u : Upd => { u with rejoined := true }) upd
    rw [bootFailed_eq (by rw [same]; exact boots)] at run
    dsimp only at run
    rw [same] at run
    exact ⟨fun few => run.trans (congrArg _ (if_neg (Nat.not_le.mpr few))), fun third => run.trans (congrArg _ (if_pos third))⟩

end Sys2Proof.Machine

namespace Sys2Proof.Machine

/-! ### What limp-home leaves of a channel and of its own record (R260 to R266) -/

/-- How a channel stands to limp-home and to orphan mode: no output operation changes it. -/
def Chan.standing (c : Chan) : Bool × Nat × Option Tb := (c.limp, c.orphan, c.holdEnd)

/-- What limp-home reads: its inputs, its clock; the record of the last turn-on of a zone stands apart. -/
def Limp.signals (l : Limp) : Limp := { l with lastOn := [] }

/-- The standing of every channel and what limp-home reads are kept. -/
def LimpKept (s t : State) : Prop := (∀ n, (t.chan n).standing = (s.chan n).standing) ∧ t.anvil.limp.signals = s.anvil.limp.signals

section
variable {s t u : State}

theorem LimpKept.refl (s : State) : LimpKept s s := ⟨fun _ => rfl, rfl⟩

theorem LimpKept.trans (h : LimpKept s t) (k : LimpKept t u) : LimpKept s u := ⟨fun n => (k.1 n).trans (h.1 n), k.2.trans h.2⟩

theorem LimpKept.ite {c : Prop} {_ : Decidable c} (h : LimpKept s t) (k : LimpKept s u) : LimpKept s (if c then t else u) := by
  split <;> assumption

theorem LimpKept.of_anvil (h : t.anvil = s.anvil) : LimpKept s t := by
  refine ⟨fun n => ?_, by rw [h]⟩
  rw [chan_of_anvil h]

theorem LimpKept.foldl {α : Type} (f : State → α → State) (keeps : ∀ s a, LimpKept s (f s a)) (l : List α) (s : State) : LimpKept s (l.foldl f s) :=
  foldl_keeps (LimpKept s) f (fun a b h => h.trans (keeps a b)) l s (.refl s)

theorem LimpKept.limp (h : LimpKept s t) (n : Nat) : (t.chan n).limp = (s.chan n).limp := congrArg Prod.fst (h.1 n)

theorem LimpKept.orphan (h : LimpKept s t) (n : Nat) : (t.chan n).orphan = (s.chan n).orphan := congrArg (fun x => x.2.1) (h.1 n)

theorem LimpKept.holdEnd (h : LimpKept s t) (n : Nat) : (t.chan n).holdEnd = (s.chan n).holdEnd := congrArg (fun x => x.2.2) (h.1 n)

theorem onChan_limpKept (n : Nat) (f : Chan → Chan) (s : State) (keeps : ∀ c, (f c).standing = c.standing) : LimpKept s (onChan n f s) := by
  refine ⟨fun m => ?_, rfl⟩
  by_cases h : m = n
  · rw [h, onChan_same, keeps]
  · rw [onChan_other f s h]

end

theorem chanFall_standing (now fs : Tb) (c : Chan) : (chanFall now fs c).standing = c.standing := by
  unfold chanFall
  split <;> rfl

theorem lampFell_standing (now fs : Tb) (c : Chan) : (lampFell now fs c).standing = c.standing := by
  unfold lampFell
  split
  · split
    · exact chanFall_standing _ fs c
    · rfl
  · rfl

theorem pinOff_limpKept (n : Nat) (keep : Bool) (s : State) : LimpKept s (pinOff n keep s) :=
  onChan_limpKept n _ s (fun c => (chanFall_standing _ _ _).trans (lampFell_standing _ _ c))

theorem resumeAt_limpKept (n : Nat) (s : State) : LimpKept s (resumeAt n s) := by
  have resumed := onChan_limpKept n (fun c => { c with
    retries := if c.retryDue then some (retriesLeft s n - 1) else c.retries, retryDue := false, resuming := false, prot := clrBit c.prot 8 }) s (fun _ => rfl)
  exact .ite (resumed.trans (.of_anvil (protEventFree_anvil n 9 _))) resumed

theorem openInrush_limpKept (n : Nat) (s : State) : LimpKept s (openInrush n s) := .ite (.refl s) (onChan_limpKept n _ s (fun _ => rfl))

theorem pinTurn_limpKept (win : Bool) (n : Nat) (lv : Bool) (s : State) : LimpKept s (pinTurn win n lv s) := by
  unfold pinTurn
  extract_lets settled c long resumed turned
  have on : LimpKept s resumed := (onChan_limpKept n _ s (lampFell_standing _ _)).trans (.ite (.refl _) (resumeAt_limpKept n _))
  have taken : LimpKept s turned := by
    refine on.trans (onChan_limpKept n _ _ (fun c => ?_))
    cases lv
    · exact chanFall_standing resumed.tbNow resumed.time.anvilTb c
    · rfl
  exact .ite (taken.trans (openInrush_limpKept n _)) taken

theorem lampTurn_limpKept (win : Bool) (n : Nat) (vz : Option Nat) (s : State) : LimpKept s (lampTurn win n vz s) := by
  unfold lampTurn
  extract_lets dset da t on lit next
  have taken : LimpKept s lit := (pinTurn_limpKept win n _ s).trans (onChan_limpKept n _ _ (fun _ => rfl))
  exact .ite taken (taken.trans (onChan_limpKept n _ _ (fun _ => rfl)))

theorem limpTurnOn_limpKept (e : Nat) (s : State) : LimpKept s (limpTurnOn e s) := by
  unfold limpTurnOn
  extract_lets n noted
  have dated : LimpKept s noted := ⟨fun _ => rfl, rfl⟩
  exact dated.trans (.ite (lampTurn_limpKept true n _ noted) (pinTurn_limpKept true n true noted))

/-- Limp-home turns channels off, defers them and turns them on: past its flash clock it keeps the standing of each channel and what it reads. -/
theorem limpAll_kept (s : State) : LimpKept (flashClock s) (limpAll s) := by
  unfold limpAll
  extract_lets clocked c want off on deferred due t
  have offKept : LimpKept clocked off := by
    refine .foldl _ ?_ _ clocked
    exact fun s e => .ite (pinOff_limpKept _ false s) (.refl s)
  have deferredKept : LimpKept off deferred := by
    refine .foldl _ ?_ _ off
    intro s e
    refine onChan_limpKept _ _ s ?_
    exact fun _ => rfl
  have turned : LimpKept deferred (due.foldl (fun s x => limpTurnOn x.2 (advTo (t + BitVec.ofNat 48 x.1) s)) deferred) := by
    refine .foldl _ ?_ _ deferred
    exact fun s x => (LimpKept.of_anvil (advTo_anvil _ s)).trans (limpTurnOn_limpKept x.2 _)
  exact (offKept.trans deferredKept).trans turned

/-! ### The flash clock (R264) -/

theorem flashClock_ch (s : State) : (flashClock s).anvil.ch = s.anvil.ch := rfl

theorem flashClock_chan (s : State) (n : Nat) : (flashClock s).chan n = s.chan n := rfl

/-- The flash clock touches no input of limp-home. -/
theorem flashClock_inputs (s : State) : (flashClock s).anvil.limp.lhN = s.anvil.limp.lhN ∧ (flashClock s).anvil.limp.lhin = s.anvil.limp.lhin := by
  have inputs (l : Limp) (c d : Bool) (x y : Limp) (hx : x.lhN = l.lhN ∧ x.lhin = l.lhin) (hy : y.lhN = l.lhN ∧ y.lhin = l.lhin) :
      (if c then (if d then l else x) else y).lhN = l.lhN ∧ (if c then (if d then l else x) else y).lhin = l.lhin := by
    cases c
    · exact hy
    · cases d
      · exact hx
      · exact ⟨rfl, rfl⟩
  exact inputs _ _ _ _ _ ⟨rfl, rfl⟩ ⟨rfl, rfl⟩

/-- A clock that runs goes on while an active entry of a channel under limp-home flashes (R264). -/
theorem flashClock_runs {e : Nat} {s : State} (known : e < 16) (runs : s.anvil.limp.flashRun = true) (valid : lhValid s.anvil.vals.lhCfg e = true)
    (flashes : lhFlash s.anvil.vals.lhCfg e = true) (active : lhActive s.anvil.limp s.anvil.vals.lhCfg e = true) (limps : (s.chan (lhChannel s.anvil.vals.lhCfg e)).limp = true) :
    flashClock s = s := by
  have flashing : (List.range 16).any (fun e => lhValid s.anvil.vals.lhCfg e && lhFlash s.anvil.vals.lhCfg e && lhActive s.anvil.limp s.anvil.vals.lhCfg e
      && (s.chan (lhChannel s.anvil.vals.lhCfg e)).limp) = true :=
    List.any_eq_true.mpr ⟨e, List.mem_range.mpr known, by rw [valid, flashes, active, limps]; rfl⟩
  unfold flashClock
  dsimp only
  rw [flashing]
  unfold onAnvil
  simp only [if_true, runs]

/-- The inputs and the standing of the channels after limp-home has acted. -/
theorem limpAll_inputs (s : State) : (limpAll s).anvil.limp.lhN = s.anvil.limp.lhN ∧ (limpAll s).anvil.limp.lhin = s.anvil.limp.lhin := by
  obtain ⟨_, signals⟩ := limpAll_kept s
  obtain ⟨level, inputs⟩ := flashClock_inputs s
  exact ⟨(congrArg Limp.lhN signals).trans level, (congrArg Limp.lhin signals).trans inputs⟩

end Sys2Proof.Machine

namespace Sys2Proof.Machine

/-! ### LH_N, the flash clock and the ends of hold times (R260 to R266, R283) -/

section
variable {s : State}

theorem enterLimp_limp (n : Nat) (s : State) : ((enterLimp n s).chan n).limp = true := by
  unfold enterLimp
  rw [onChan_same]

theorem enterLimp_keeps (m n : Nat) (s : State) (limps : (s.chan n).limp = true) : ((enterLimp m s).chan n).limp = true := by
  by_cases h : n = m
  · rw [h]
    exact enterLimp_limp m s
  · unfold enterLimp
    rw [onChan_other _ s h]
    exact limps

/-- Every valid entry brings its channel under limp-home. -/
theorem limpInForce_limps {e : Nat} (known : e < 16) (valid : lhValid s.anvil.vals.lhCfg e = true) :
    ((limpInForce s).chan (lhChannel s.anvil.vals.lhCfg e)).limp = true := by
  unfold limpInForce
  refine ((limpAll_kept _).limp _).trans (Eq.trans (congrArg Chan.limp (flashClock_chan _ _)) ?_)
  refine foldl_reaches (fun _ => True) (fun t => (t.chan (lhChannel s.anvil.vals.lhCfg e)).limp = true) _ e (fun t _ => ?_) (fun _ _ _ => trivial) (fun t b h => ?_)
    (List.mem_range.mpr known) s trivial
  · rw [valid, if_pos rfl]
    exact enterLimp_limp _ t
  · split
    · exact enterLimp_keeps _ _ t h
    · exact h

theorem limpInForce_lhN : (limpInForce s).anvil.limp.lhN = s.anvil.limp.lhN := by
  unfold limpInForce
  refine (limpAll_inputs _).1.trans ?_
  refine foldl_keeps (fun t : State => t.anvil.limp.lhN = s.anvil.limp.lhN) _ (fun t e h => ?_) _ s rfl
  split <;> exact h

/-- One entry of the release by LH_N: its channel, if LH_N alone holds it, is adopted at the level it has (R265). -/
def limpFreed (cfg : Rec) (s : State) (e : Nat) : State :=
  let n := lhChannel cfg e
  if lhValid cfg e && (s.chan n).limp && (s.chan n).orphan ≠ 2 && !((s.chan n).safe && cfSafe (s.cfA n) = 3) then
    let on := lhDrives s.anvil.limp cfg e && limpRules s e
    onChan n (fun c => { c with
      limp := false, adopted := true, drive := if safeAbove s n then c.drive else on, appOn := on,
      appDset := if s.modeA n = 2 then lhDset cfg e else c.appDset, limpEnd := some on }) s
  else s

theorem limpRelease_eq : limpRelease s = flashClock ((List.range 16).foldl (limpFreed s.anvil.vals.lhCfg) s) := rfl

theorem limpFreed_level (cfg : Rec) (e n : Nat) : ((limpFreed cfg s e).chan n).level = (s.chan n).level := by
  unfold limpFreed
  dsimp only
  split
  · by_cases h : n = lhChannel cfg e
    · rw [h, onChan_same]
    · rw [onChan_other _ s h]
  · rfl

theorem limpFreed_lhN (cfg : Rec) (e : Nat) : (limpFreed cfg s e).anvil.limp.lhN = s.anvil.limp.lhN := by
  unfold limpFreed
  dsimp only
  split <;> rfl

/-- A channel that LH_N alone holds. -/
def LimpHeld (n : Nat) (s : State) : Prop := (s.chan n).limp = true ∧ (s.chan n).orphan ≠ 2 ∧ (s.chan n).safe = false

/-- A channel that was released as adopted. -/
def LimpFreed (n : Nat) (s : State) : Prop := (s.chan n).limp = false ∧ (s.chan n).adopted = true

theorem limpFreed_brings {cfg : Rec} {e : Nat} (valid : lhValid cfg e = true) (held : LimpHeld (lhChannel cfg e) s) : LimpFreed (lhChannel cfg e) (limpFreed cfg s e) := by
  obtain ⟨limp, orphan, safe⟩ := held
  unfold limpFreed LimpFreed
  dsimp only
  rw [if_pos (by simp [valid, limp, orphan, safe]), onChan_same]
  exact ⟨rfl, rfl⟩

theorem limpFreed_keeps {cfg : Rec} {e n : Nat} (freed : LimpFreed n s) : LimpFreed n (limpFreed cfg s e) := by
  unfold limpFreed
  dsimp only
  split
  case isTrue takes =>
    have apart : n ≠ lhChannel cfg e := by
      rintro rfl
      simp [freed.1] at takes
    unfold LimpFreed
    rw [onChan_other _ s apart]
    exact freed
  case isFalse => exact freed

theorem limpFreed_holds {cfg : Rec} {e n : Nat} (held : LimpHeld n s ∨ LimpFreed n s) : LimpHeld n (limpFreed cfg s e) ∨ LimpFreed n (limpFreed cfg s e) := by
  rcases held with held | freed
  · by_cases h : lhValid cfg e = true ∧ n = lhChannel cfg e
    · obtain ⟨valid, rfl⟩ := h
      exact .inr (limpFreed_brings valid held)
    · refine .inl ?_
      unfold limpFreed
      dsimp only
      split
      case isTrue takes =>
        have apart : n ≠ lhChannel cfg e := fun k => h ⟨by simp only [Bool.and_eq_true] at takes; exact takes.1.1.1, k⟩
        unfold LimpHeld
        rw [onChan_other _ s apart]
        exact held
      case isFalse => exact held
  · exact .inr (limpFreed_keeps freed)

theorem limpRelease_frees {e : Nat} (known : e < 16) (valid : lhValid s.anvil.vals.lhCfg e = true) (held : LimpHeld (lhChannel s.anvil.vals.lhCfg e) s) :
    LimpFreed (lhChannel s.anvil.vals.lhCfg e) (limpRelease s) := by
  rw [limpRelease_eq]
  exact foldl_reaches (fun t => LimpHeld (lhChannel s.anvil.vals.lhCfg e) t ∨ LimpFreed (lhChannel s.anvil.vals.lhCfg e) t) (LimpFreed (lhChannel s.anvil.vals.lhCfg e)) _ e
    (fun t h => h.elim (limpFreed_brings valid) limpFreed_keeps) (fun _ _ h => limpFreed_holds h) (fun _ _ h => limpFreed_keeps h) (List.mem_range.mpr known) s (.inl held)

theorem limpRelease_level (n : Nat) : ((limpRelease s).chan n).level = (s.chan n).level := by
  rw [limpRelease_eq]
  exact foldl_keeps (fun t : State => (t.chan n).level = (s.chan n).level) _ (fun t e h => (limpFreed_level _ e n).trans h) _ s rfl

theorem limpRelease_lhN : (limpRelease s).anvil.limp.lhN = s.anvil.limp.lhN := by
  rw [limpRelease_eq]
  refine (flashClock_inputs _).1.trans ?_
  exact foldl_keeps (fun t : State => t.anvil.limp.lhN = s.anvil.limp.lhN) _ (fun t e h => (limpFreed_lhN _ e).trans h) _ s rfl

/-- The new level of LH_N, recorded. -/
def lhNTaken (high : Bool) (s : State) : State := onAnvil (fun a => { a with limp := { a.limp with lhN := high } }) s

theorem lhNChange_same {high : Bool} (same : s.anvil.limp.lhN = high) : exec (.lhNChange high) s = .next s := if_pos same

theorem lhNChange_low (was : s.anvil.limp.lhN = true) : exec (.lhNChange false) s = .next (limpInForce (lhNTaken false s)) :=
  if_neg (by rw [was]; decide)

theorem lhNChange_high (was : s.anvil.limp.lhN = false) :
    exec (.lhNChange true) s = .next (if s.anvil.limp.stuck then lhNTaken true s else limpRelease (lhNTaken true s)) := by
  refine (if_neg (by rw [was]; decide)).trans ?_
  rw [if_pos rfl, apply_ite Host.Outcome.next]
  rfl

/-! ### The end of an orphan hold (R283) -/

theorem orphanHoldExpiry_expires {n : Nat} {t : Tb} (ends : (s.chan n).holdEnd = some t) (holds : (s.chan n).orphan = 1) :
    exec (.orphanHoldExpiry n) s = .next (holdExpire n (advTo t s)) := by
  show execOrphanHoldExpiry n s = _
  unfold execOrphanHoldExpiry
  rw [ends]
  exact if_pos holds

/-- The channel at the end of its hold, in the step of orphan mode that follows. -/
def holdEnded (n o : Nat) (s : State) : State := onChan n (fun c => { c with orphan := o }) (onChan n (fun c => { c with holdEnd := none }) s)

theorem holdEnded_same (n o : Nat) (s : State) : (holdEnded n o s).chan n = { s.chan n with orphan := o, holdEnd := none } := by
  unfold holdEnded
  rw [onChan_same, onChan_same]

theorem holdEnded_other {n m : Nat} (o : Nat) (s : State) (h : m ≠ n) : (holdEnded n o s).chan m = s.chan m := by
  unfold holdEnded
  rw [onChan_other _ _ h, onChan_other _ _ h]

theorem holdExpire_entry {n : Nat} (entry : (lhEntry s.anvil.vals.lhCfg n).isSome = true) : holdExpire n s = limpAll (enterLimp n (holdEnded n 2 s)) := by
  obtain ⟨e, found⟩ := Option.isSome_iff_exists.mp entry
  unfold holdExpire
  dsimp only
  rw [show (onChan n (fun c => { c with holdEnd := none }) s).anvil.vals = s.anvil.vals from rfl, found]
  rfl

/-- A channel without an entry: held by a safe state, a bridge's and a conducting coil's channel stay; a coil is released, every other channel turned off. -/
def holdPassed (n : Nat) (s : State) : State :=
  if safeAbove s n then s
  else if s.modeA n = 3 then
    if (s.coil n).phase = 1 || (s.coil n).phase = 2 then s else onCoil n (fun k => { k with appEngage := false }) (coilRelease n s)
  else if s.modeA n = 4 then s
  else pinOff n false s

theorem holdExpire_noEntry {n : Nat} (none : lhEntry s.anvil.vals.lhCfg n = none) : holdExpire n s = holdPassed n (holdEnded n 3 s) := by
  unfold holdExpire
  dsimp only
  rw [show (onChan n (fun c => { c with holdEnd := Option.none }) s).anvil.vals = s.anvil.vals from rfl, none]
  rfl

theorem coilRelease_limpKept (n : Nat) (s : State) : LimpKept s (coilRelease n s) := by
  have coil : LimpKept s (onCoil n (fun k => if k.phase = 0 then k else { k with phase := 4, iSet := 0, pullTb := none }) s) := ⟨fun _ => rfl, rfl⟩
  exact coil.trans (onChan_limpKept n _ _ (fun _ => rfl))

theorem holdPassed_kept (n : Nat) (s : State) : LimpKept s (holdPassed n s) := by
  have released : LimpKept s (onCoil n (fun k => { k with appEngage := false }) (coilRelease n s)) := (coilRelease_limpKept n s).trans ⟨fun _ => rfl, rfl⟩
  exact .ite (.refl s) (.ite (.ite (.refl s) released) (.ite (.refl s) (pinOff_limpKept n false s)))

theorem holdPassed_off {n : Nat} (noCoil : s.modeA n ≠ 3) (noBridge : s.modeA n ≠ 4) (free : safeAbove s n = false) : holdPassed n s = pinOff n false s := by
  unfold holdPassed
  rw [free, if_neg Bool.false_ne_true, if_neg noCoil, if_neg noBridge]

theorem pinOff_off (n : Nat) (s : State) : ((pinOff n false s).chan n).drive = false ∧ ((pinOff n false s).chan n).level = false := by
  unfold pinOff
  rw [onChan_same]
  exact ⟨Bool.and_false _, chanFall_level _ _ _⟩

theorem pinOff_other {n m : Nat} (keep : Bool) (s : State) (h : m ≠ n) : (pinOff n keep s).chan m = s.chan m := onChan_other _ s h

theorem safeAbove_holdEnded (n o : Nat) (s : State) : safeAbove (holdEnded n o s) n = safeAbove s n := by
  unfold safeAbove
  rw [holdEnded_same]
  rfl

end

end Sys2Proof.Machine

namespace Sys2Proof.Machine

section
variable {s : State}

theorem safeAbove_advTo (t : Tb) (n : Nat) : safeAbove (advTo t s) n = safeAbove s n := by
  unfold safeAbove State.cfA
  rw [advTo_chan, advTo_anvil]

theorem modeA_advTo (t : Tb) (n : Nat) : (advTo t s).modeA n = s.modeA n := by
  unfold State.modeA State.cfA
  rw [advTo_anvil]

/-- A new level of LH_N (R260, R265). -/
theorem lhNChange_takes (high : Bool) : ∃ t, exec (.lhNChange high) s = .next t ∧ t.anvil.limp.lhN = high ∧ (s.anvil.limp.lhN = high → t = s)
    ∧ (s.anvil.limp.lhN = true → high = false → ∀ e, e < 16 → lhValid s.anvil.vals.lhCfg e = true → (t.chan (lhChannel s.anvil.vals.lhCfg e)).limp = true)
    ∧ (s.anvil.limp.lhN = false → high = true → s.anvil.limp.stuck = true → t.anvil.ch = s.anvil.ch)
    ∧ (s.anvil.limp.lhN = false → high = true → s.anvil.limp.stuck = false → (∀ n, (t.chan n).level = (s.chan n).level)
        ∧ ∀ e, e < 16 → lhValid s.anvil.vals.lhCfg e = true → LimpHeld (lhChannel s.anvil.vals.lhCfg e) s → LimpFreed (lhChannel s.anvil.vals.lhCfg e) t) := by
  by_cases same : s.anvil.limp.lhN = high
  · refine ⟨s, lhNChange_same same, same, fun _ => rfl, fun was now => ?_, fun was now => ?_, fun was now => ?_⟩
    all_goals
      rw [was, now] at same
      exact Bool.noConfusion same
  · cases high with
    | false =>
      have was : s.anvil.limp.lhN = true := Bool.not_eq_false _ ▸ same
      exact ⟨_, lhNChange_low was, limpInForce_lhN, fun h => absurd h same, fun _ _ e known valid => limpInForce_limps (s := lhNTaken false s) known valid,
        fun _ h => Bool.noConfusion h, fun _ h => Bool.noConfusion h⟩
    | true =>
      have was : s.anvil.limp.lhN = false := Bool.not_eq_true _ ▸ same
      refine ⟨_, lhNChange_high was, ?_, fun h => absurd h same, fun h => absurd h same, fun _ _ stuck => ?_, fun _ _ free => ?_⟩
      · split
        · rfl
        · exact limpRelease_lhN
      · rw [if_pos stuck]
        rfl
      · rw [free, if_neg Bool.false_ne_true]
        exact ⟨limpRelease_level, fun e known valid held => limpRelease_frees (s := lhNTaken true s) known valid held⟩

/-- The level of an LHIN input, recorded. -/
def lhinTaken (i : Nat) (high : Bool) (s : State) : State :=
  onAnvil (fun a => { a with limp := { a.limp with lhin := if high then setBit a.limp.lhin i else clrBit a.limp.lhin i } }) s

/-- The flash clock turned over at its instant (R264). -/
def flashTurned (s : State) : State :=
  onAnvil (fun a => { a with limp := { a.limp with flashOn := !a.limp.flashOn, flashNext := a.limp.flashNext + msTicks 330 } }) (advTo s.anvil.limp.flashNext s)

theorem flashToggle_eq : exec .flashToggle s = .next (if s.anvil.limp.flashRun then limpAll (flashTurned s) else s) := by
  rw [apply_ite Host.Outcome.next]
  rfl

theorem flashTurned_anvil : (flashTurned s).anvil =
    { s.anvil with limp := { s.anvil.limp with flashOn := !s.anvil.limp.flashOn, flashNext := s.anvil.limp.flashNext + msTicks 330 } } := by
  unfold flashTurned onAnvil
  rw [advTo_anvil]

theorem flashTurned_frame : Only [.anvil, .time, .qf] s (flashTurned s) := (onAnvil_frame _ _).after (by decide) ((advTo_frame _ s).sub (by decide))

theorem flashToggle_turns {e : Nat} (known : e < 16) (runs : s.anvil.limp.flashRun = true) (valid : lhValid s.anvil.vals.lhCfg e = true)
    (flashes : lhFlash s.anvil.vals.lhCfg e = true) (active : lhActive s.anvil.limp s.anvil.vals.lhCfg e = true) (limps : (s.chan (lhChannel s.anvil.vals.lhCfg e)).limp = true) :
    (limpAll (flashTurned s)).anvil.limp.signals =
      { s.anvil.limp with flashOn := !s.anvil.limp.flashOn, flashNext := s.anvil.limp.flashNext + msTicks 330 }.signals := by
  have chans (n : Nat) : (flashTurned s).chan n = s.chan n := by
    unfold State.chan
    rw [flashTurned_anvil]
  have goesOn : flashClock (flashTurned s) = flashTurned s := by
    refine flashClock_runs (e := e) known ?_ ?_ ?_ ?_ ?_
    · rw [flashTurned_anvil]
      exact runs
    · rw [flashTurned_anvil]
      exact valid
    · rw [flashTurned_anvil]
      exact flashes
    · rw [flashTurned_anvil]
      exact active
    · rw [flashTurned_anvil, chans]
      exact limps
  have kept := (limpAll_kept (flashTurned s)).2
  rw [goesOn, flashTurned_anvil] at kept
  exact kept

end

/-- Settles O25: LH_N by its two levels, the flash clock by `limpAll_kept`, the ends of hold times by their equations above. -/
theorem limpHomeAndHoldEvents : Obligations.LimpHomeAndHoldEvents := by
  unfold Obligations.LimpHomeAndHoldEvents
  refine ⟨fun high s => ?level, fun i high s => ?input, fun s => ?flash, fun n t s ends holds => ?orphan, fun t s ends => ?activation, fun n t s ends => ?sink⟩
  case level =>
    obtain ⟨t, run, recorded, same, low, stuck, high⟩ := lhNChange_takes (s := s) high
    refine ⟨t, run, recorded, same, low, stuck, fun was now free => ?_⟩
    obtain ⟨levels, frees⟩ := high was now free
    exact ⟨levels, fun e known valid limp orphan safe => frees e known valid ⟨limp, orphan, safe⟩⟩
  case input =>
    obtain ⟨lhN, lhin⟩ := limpAll_inputs (lhinTaken i high s)
    exact ⟨_, rfl, lhin, lhN, (limpAll_frame _).after (by decide) ((onAnvil_frame _ s).sub (by decide))⟩
  case flash =>
    refine ⟨_, flashToggle_eq, fun stands => ?_, ?_, fun e known runs valid flashes active limps => ?_⟩
    · rw [stands, if_neg Bool.false_ne_true]
    · exact .ite ((limpAll_frame _).after (by decide) (flashTurned_frame.sub (by decide))) (.refl _ s)
    · have turned := flashToggle_turns known runs valid flashes active limps
      rw [if_pos runs]
      have run := congrArg Limp.flashRun turned
      have on := congrArg Limp.flashOn turned
      have next := congrArg Limp.flashNext turned
      simp only [Limp.signals] at run on next
      exact ⟨run.trans runs, on, next⟩
  case orphan =>
    have run := orphanHoldExpiry_expires ends holds
    refine ⟨_, run, ?_⟩
    have vals : (advTo t s).anvil.vals = s.anvil.vals := congrArg Anvil.vals (advTo_anvil t s)
    have frame : Only [.anvil, .time, .qf, .free] s (holdExpire n (advTo t s)) := (holdExpire_frame n _).after (by decide) ((advTo_frame t s).sub (by decide))
    cases entry : lhEntry s.anvil.vals.lhCfg n with
    | some e =>
      have limped : ((enterLimp n (holdEnded n 2 (advTo t s))).chan n) = { (advTo t s).chan n with orphan := 2, holdEnd := none, limp := true, adopted := false, fol := false, edgeAt := none } := by
        unfold enterLimp
        rw [onChan_same, holdEnded_same]
      have kept := limpAll_kept (enterLimp n (holdEnded n 2 (advTo t s)))
      have own (m : Nat) := flashClock_chan (enterLimp n (holdEnded n 2 (advTo t s))) m
      rw [holdExpire_entry (by rw [vals, entry]; rfl)] at frame ⊢
      rw [kept.limp, kept.orphan, kept.holdEnd, own, limped]
      exact ⟨rfl, rfl, fun _ => rfl, (fun h => nomatch h), frame⟩
    | none =>
      have kept := holdPassed_kept n (holdEnded n 3 (advTo t s))
      rw [holdExpire_noEntry (by rw [vals, entry])] at frame ⊢
      rw [kept.orphan, kept.holdEnd, holdEnded_same]
      refine ⟨rfl, rfl, fun h => Bool.noConfusion h, fun _ noCoil noBridge free => ?_, frame⟩
      have modes : (holdEnded n 3 (advTo t s)).modeA n = s.modeA n := modeA_advTo t n
      rw [holdPassed_off (by rw [modes]; exact noCoil) (by rw [modes]; exact noBridge) (by rw [safeAbove_holdEnded, safeAbove_advTo]; exact free)]
      exact ⟨(pinOff_off n _).1, (pinOff_off n _).2, fun m h => (pinOff_other false _ h).trans ((holdEnded_other 3 _ h).trans (advTo_chan t s m))⟩
  case activation =>
    have run : exec .actHoldLapse s = .next (onAnvil (fun a => { a with actHold := false, actHoldEnd := none }) (advTo t s)) := by
      show execActHoldLapse s = _
      unfold execActHoldLapse
      rw [ends]
    exact ⟨_, run, rfl, rfl, (congrArg Anvil.ch (advTo_anvil t s) :), (onAnvil_frame _ _).after (by decide) ((advTo_frame t s).sub (by decide))⟩
  case sink =>
    have run : exec (.sinkHoldExpiry n) s =
        .next (onSink n (fun k => { k with orphan := 3, holdEnd := none, b := 0, next := none, pulseEnd := none, report := true }) (advTo t s)) := by
      show execSinkHoldExpiry n s = _
      unfold execSinkHoldExpiry
      rw [ends]
    refine ⟨_, run, ?_⟩
    rw [onSink_same]
    exact ⟨rfl, rfl, rfl, rfl, fun m h => (onSink_other _ _ h).trans (advTo_sink t s m), (onSink_frame n _ _).after (by decide) ((advTo_frame t s).sub (by decide))⟩

end Sys2Proof.Machine

namespace Sys2Proof.Machine

/-! ### Locks (R523 to R525) -/

theorem onLock_same (kind id : Nat) (f : LockRec → LockRec) (s : State) : (onLock kind id f s).lock kind id = f (s.lock kind id) :=
  tget_tmod_same lockDef _ _ f

theorem onLock_other {kind id k : Nat} (f : LockRec → LockRec) (s : State) (h : k ≠ lockKey kind id) :
    tget lockDef (onLock kind id f s).acc.locks k = tget lockDef s.acc.locks k := tget_tmod_other lockDef s.acc.locks f h

section
variable {s : State}

theorem advTo_acc (t : Tb) (s : State) : (advTo t s).acc = s.acc := advTo_frame t s .acc (by decide)

theorem advTo_lock (t : Tb) (kind id : Nat) : (advTo t s).lock kind id = s.lock kind id := by
  unfold State.lock
  rw [advTo_acc]

/-- A lock touched at an instant: the record of that lock alone changes. -/
theorem lockTouched (kind id : Nat) (t : Tb) (f : LockRec → LockRec) :
    let u := onLock kind id f (advTo t s)
    u.lock kind id = f (s.lock kind id) ∧ (∀ k, k ≠ lockKey kind id → tget lockDef u.acc.locks k = tget lockDef s.acc.locks k) ∧ Only [.time, .qf, .acc] s u := by
  refine ⟨?_, fun k h => ?_, (onLock_frame _ _ _ _).after (by decide) ((advTo_frame t s).sub (by decide))⟩
  · rw [onLock_same, advTo_lock]
  · rw [onLock_other _ _ h, advTo_acc]

theorem lockExpiry_none {kind id : Nat} (free : (s.lock kind id).lockEnd = none) : exec (.lockExpiry kind id) s = .next s := by
  show execLockExpiry kind id s = _
  unfold execLockExpiry
  rw [free]

theorem lockExpiry_ends {kind id : Nat} {e : Tb} (locked : (s.lock kind id).lockEnd = some e) :
    exec (.lockExpiry kind id) s = .next (onLock kind id (fun k => { k with lockEnd := none }) (advTo e s)) := by
  show execLockExpiry kind id s = _
  unfold execLockExpiry
  rw [locked]

theorem lockRepeatReset_none {kind id : Nat} (none : (s.lock kind id).repeats = 0) : exec (.lockRepeatReset kind id) s = .next s := by
  show execLockRepeatReset kind id s = _
  unfold execLockRepeatReset
  dsimp only
  rw [none]
  split
  · rw [if_neg (by simp)]
  · rfl

theorem lockRepeatReset_ends {kind id : Nat} {f : Tb} (failed : (s.lock kind id).lastFail = some f) (identity : 2 ≤ kind) (repeats : (s.lock kind id).repeats ≠ 0) :
    exec (.lockRepeatReset kind id) s = .next (onLock kind id (fun k => { k with repeats := 0 }) (advTo (f + secTicks 3600) s)) := by
  show execLockRepeatReset kind id s = _
  unfold execLockRepeatReset
  dsimp only
  rw [failed]
  exact if_pos (by simp [identity, repeats])

end

section
variable {t : Tb} {k : LockRec}

theorem failStep_locked (locked : lockedAt k t = true) : failStep 5 120 false t k = ({ k with lastFail := some t }, false) :=
  if_pos (by rw [locked]; rfl)

/-- The duration of the next lock of an identity (R523). -/
def nextDur (k : LockRec) : Nat := if k.repeats = 0 then 180 else min 2880 (2 * k.dur)

theorem failStep_free (free : lockedAt k t = false) : failStep 5 120 false t k =
    let fs := (t :: k.fails).take 5
    if fs.length = 5 ∧ (t - fs.getLast?.getD t).toNat ≤ 120 * 50000000 then
      ({ fails := [], lockEnd := some (t + secTicks (nextDur k)), dur := nextDur k, repeats := k.repeats + 1, lastFail := some t }, true)
    else ({ k with fails := fs, lastFail := some t }, false) := by
  unfold failStep nextDur
  rw [free]
  simp only [Bool.not_false, Bool.and_true, Bool.and_false, Bool.false_eq_true, if_false, Bool.false_or, decide_eq_true_eq, Bool.and_eq_true]

theorem failStep_few (free : lockedAt k t = false) (few : k.fails.length < 4) : failStep 5 120 false t k = ({ k with fails := t :: k.fails, lastFail := some t }, false) := by
  have all : (t :: k.fails).take 5 = t :: k.fails := List.take_of_length_le (by rw [List.length_cons]; omega)
  rw [failStep_free free]
  dsimp only
  rw [all, if_neg (by rw [List.length_cons]; omega)]

theorem failStep_fifth {pre : List Tb} {old : Tb} (free : lockedAt k t = false) (fails : k.fails = pre ++ [old]) (three : pre.length = 3) :
    failStep 5 120 false t k =
      if (t - old).toNat ≤ 120 * 50000000 then
        ({ fails := [], lockEnd := some (t + secTicks (nextDur k)), dur := nextDur k, repeats := k.repeats + 1, lastFail := some t }, true)
      else ({ k with fails := t :: k.fails, lastFail := some t }, false) := by
  have five : (t :: k.fails).length = 5 := by rw [fails, List.length_cons, List.length_append, three]; rfl
  have oldest : (t :: k.fails).getLast?.getD t = old := by rw [fails, ← List.cons_append, List.getLast?_concat]; rfl
  rw [failStep_free free]
  dsimp only
  rw [List.take_of_length_le (Nat.le_of_eq five), five, oldest]
  simp only [true_and]

end

/-! ### The phone path (R520 to R522, R529) -/

section
variable {s : State}

theorem accDecision_acc (e : Rec) (s : State) : (accDecision e s).acc = { s.acc with decisions := s.acc.decisions + 1 } :=
  (accNotify_frame _ _ _ .acc (by decide)).trans (admitEntry_frame _ _ _ .acc (by decide))

theorem exch_of_acc {s t : State} (h : t.acc.exch = s.acc.exch) (e : Nat) : t.exch e = s.exch e := by
  unfold State.exch
  rw [h]

theorem setExch_same (e : Nat) (x : Option Exch) (s : State) : (setExch e x s).exch e = x := tget_tput_same exchDef _ e x

theorem setExch_other {e j : Nat} (x : Option Exch) (s : State) (h : j ≠ e) : (setExch e x s).exch j = s.exch j := tget_tput_other exchDef s.acc.exch x h

theorem phoneDecide_acc (e : Nat) (x : Exch) (dec cause zone : Nat) (q : BitVec 16) :
    (phoneDecide e x dec cause zone q s).1.acc = { (setExch e none s).acc with decisions := s.acc.decisions + 1 } := accDecision_acc _ _

theorem phoneDecide_decides (e dec cause zone : Nat) (x : Exch) (q : BitVec 16) :
    let t := (phoneDecide e x dec cause zone q s).1
    t.exch e = none ∧ (∀ j, j ≠ e → t.exch j = s.exch j) ∧ t.acc.decisions = s.acc.decisions + 1 ∧ t.acc.immo = s.acc.immo ∧ t.acc.locks = s.acc.locks ∧ Only [.qf, .acc] s t := by
  have acc := phoneDecide_acc (s := s) e x dec cause zone q
  have exchs (j : Nat) : (phoneDecide e x dec cause zone q s).1.exch j = (setExch e none s).exch j := exch_of_acc (by rw [acc]) j
  refine ⟨(exchs e).trans (setExch_same e none s), fun j h => (exchs j).trans (setExch_other none s h), ?_, ?_, ?_, phoneDecide_frame e x dec cause zone q s⟩
  · rw [acc]
  · rw [acc]
    rfl
  · rw [acc]
    rfl

theorem phoneDecide_tells (e dec cause zone : Nat) (x : Exch) (q : BitVec 16) : (phoneDecide e x dec cause zone q s).2[1]? = some (BitVec.ofNat 8 dec) := rfl

end

end Sys2Proof.Machine

namespace Sys2Proof.Machine

/-! ### What a failure leaves unchanged -/

/-- The reaction of a source that Hearth decides is asked of Anvil or waits for a frame boundary (R567): it touches no unit. -/
theorem react_atHearth {src : Nat} (hearth : fltOnAnvil src = false) (i cls : Nat) (s : State) : Only [.flt] s (react src i cls s) := by
  unfold react
  simp only [hearth, Bool.false_eq_true, if_false]
  exact Only.ite (Only.refl _ _) (Only.ite (onFlt_frame _ _) (Only.refl _ _))

theorem raiseDie_atHearth {src : Nat} (hearth : fltOnAnvil src = false) (i detail : Nat) (s : State) : Only [.qf, .flt] s (raiseDie false src i detail s) := by
  unfold raiseDie
  simp only [Bool.and_false, Bool.false_and, Bool.false_eq_true, if_false]
  repeat' (first
      | with_reducible refine (react_atHearth hearth _ _ _).after (by decide) ?_ | with_reducible refine (onFltInst_frame _ _ _ _).after (by decide) (Only.refl _ _)
      | with_reducible refine (onFlt_frame _ _).after (by decide) ?_ | with_reducible refine (record_frame _ _).after (by decide) ?_
      | with_reducible refine (fltAlert_frame _ _ _ _ _ _ _).after (by decide) ?_ | with_reducible refine Only.ite ?_ ?_)

theorem raise_atHearth {src : Nat} (hearth : fltOnAnvil src = false) (i : Nat) (s : State) : Only [.qf, .flt] s (raise src i s) := by
  unfold raise raiseD
  rw [hearth]
  exact raiseDie_atHearth hearth i 0 s

/-- A failed authentication touches Newt, its sources and the queues of what is told, nothing else. -/
theorem accFail_only (path : Nat) (ident : Option (Nat × Nat)) (s : State) : Only [.qf, .flt, .acc] s (accFail path ident s) := by
  unfold accFail
  repeat' (first
      | with_reducible exact Only.refl _ _ | with_reducible refine (onAcc_frame _ _).after (by decide) ?_
      | with_reducible refine (onLock_frame _ _ _ _).after (by decide) ?_
      | with_reducible refine (raise_atHearth (src := 0x143) (by decide) _ _).after (by decide) ?_
      | with_reducible refine (raise_atHearth (src := 0x144) (by decide) _ _).after (by decide) ?_
      | with_reducible refine (onAtt_frame _ _).after (by decide) ?_ | split)

/-- A phone response leaves every context as it is. -/
theorem accResponse_only (r : Req) (s : State) : Only [.qf, .flt, .acc, .keys] s (accResponseSpec.run r s).st := by
  unfold accResponseSpec
  dsimp only
  repeat' (first
      | with_reducible exact Only.refl _ _ | with_reducible refine (accRes_frame _).after (by decide) ?_
      | with_reducible refine (takeUse_frame _ _).after (by decide) ?_
      | with_reducible refine (raise_atHearth (src := 0x142) (by decide) _ _).after (by decide) ?_
      | with_reducible refine (phoneDecide_frame _ _ _ _ _ _ _).after (by decide) ?_ | with_reducible refine (accFail_only _ _ _).after (by decide) ?_
      | with_reducible refine (accValid_frame _ _ _).after (by decide) ?_ | with_reducible refine (immoBegin_frame _).after (by decide) ?_
      | with_reducible refine (onImmo_frame _ _).after (by decide) ?_ | split)

end Sys2Proof.Machine

namespace Sys2Proof.Machine

/-! ### The phone's response, its greeting and its presence (R520, R521, R529) -/

section
variable {r : Req} {s : State} {x : Exch}

/-- The response is signed by the credential of its exchange. -/
def responseSigned (r : Req) (x : Exch) (s : State) : Bool :=
  keyServes s x.cred [4] 5 && (match kyPoint (s.key x.cred).rec_ with | some q => ecdsaVerify q x.h (sub r.b 4 64) | none => false)

/-- The response does not prove who sends it, or is not in time (R521). -/
def responseFails (r : Req) (x : Exch) (s : State) : Bool :=
  decide (1500000 < (s.tbNow - x.chalTb).toNat) || !(responseSigned r x s) || !(attestMac s r.b).2 || !(decide (sub r.b 68 16 = x.nD)) || !(measFresh s r.b)

/-- The zone the phone is in is one it may act for. -/
def responseZone (r : Req) (x : Exch) : Bool := bit x.mask (rd r.b 86 1) || (x.action = 2 && rd r.b 86 1 = 0)

theorem responseSigned_iff : responseSigned r x s = true ↔
    keyServes s x.cred [4] 5 = true ∧ ∃ q, kyPoint (s.key x.cred).rec_ = some q ∧ ecdsaVerify q x.h (sub r.b 4 64) = true := by
  unfold responseSigned
  cases kyPoint (s.key x.cred).rec_ <;> simp

/-- What the module's key use and the report of a late response leave: Newt as it was. -/
theorem responseStart_acc (late used : Bool) (n : Nat) (s : State) :
    (let t := if used then takeUse n s else s
      if late then raise 0x142 1 t else t).acc = s.acc := by
  have use : (if used then takeUse n s else s).acc = s.acc := Only.ite (takeUse_frame n s) (Only.refl _ s) .acc (by decide)
  exact (Only.ite (raise_atHearth (by decide) _ _) (Only.refl _ _) .acc (by decide)).trans use

theorem accResponse_data (exchange : s.exch (rd r.b 0 1) = some x) : (accResponseSpec.run r s).data[1]? =
    some (BitVec.ofNat 8 (if responseFails r x s then 2 else if 10 * afMaxDist s.acc.cfg < rd r.b 84 2 then 2 else if !(responseZone r x) then 2 else 1)) := by
  have acc := responseStart_acc (decide (1500000 < (s.tbNow - x.chalTb).toNat)) (attestMac s r.b).1 (afModule s.acc.cfg) s
  unfold accResponseSpec
  dsimp only at acc ⊢
  rw [exchange]
  dsimp only
  rw [acc]
  change (ite (responseFails r x s = true) _ (ite _ _ (ite ((!(responseZone r x)) = true) _ _)) : State × Rec).2[1]? = _
  by_cases fails : responseFails r x s = true
  · rw [if_pos fails, if_pos fails, phoneDecide_tells]
  · rw [if_neg fails, if_neg fails]
    by_cases far : 10 * afMaxDist s.acc.cfg < rd r.b 84 2
    · rw [if_pos far, if_pos far, phoneDecide_tells]
    · rw [if_neg far, if_neg far]
      by_cases zone : (!(responseZone r x)) = true
      · rw [if_pos zone, if_pos zone, phoneDecide_tells]
      · rw [if_neg zone, if_neg zone]
        split
        · exact phoneDecide_tells (rd r.b 0 1) 1 0 _ x _
        · exact phoneDecide_tells (rd r.b 0 1) 1 0 _ x _

theorem accResponse_allows (exchange : s.exch (rd r.b 0 1) = some x) : (accResponseSpec.run r s).data[1]? = some 1 ↔
    (s.tbNow - x.chalTb).toNat ≤ 1500000 ∧ keyServes s x.cred [4] 5 = true ∧ (∃ q, kyPoint (s.key x.cred).rec_ = some q ∧ ecdsaVerify q x.h (sub r.b 4 64) = true)
      ∧ (attestMac s r.b).2 = true ∧ sub r.b 68 16 = x.nD ∧ measFresh s r.b = true ∧ rd r.b 84 2 ≤ 10 * afMaxDist s.acc.cfg
      ∧ (bit x.mask (rd r.b 86 1) = true ∨ (x.action = 2 ∧ rd r.b 86 1 = 0)) := by
  have proves : responseFails r x s = false ↔ (s.tbNow - x.chalTb).toNat ≤ 1500000 ∧ responseSigned r x s = true ∧ (attestMac s r.b).2 = true ∧ sub r.b 68 16 = x.nD
      ∧ measFresh s r.b = true := by
    unfold responseFails
    simp [and_assoc]
  have zone : responseZone r x = true ↔ bit x.mask (rd r.b 86 1) = true ∨ (x.action = 2 ∧ rd r.b 86 1 = 0) := by
    unfold responseZone
    simp
  rw [accResponse_data exchange, ← zone, ← Nat.not_lt (a := 10 * afMaxDist s.acc.cfg)]
  rw [responseSigned_iff] at proves
  cases fails : responseFails r x s
  · obtain ⟨late, ⟨credential, signed⟩, attested, nonce, young⟩ := proves.mp fails
    by_cases far : 10 * afMaxDist s.acc.cfg < rd r.b 84 2
    · refine iff_of_false (by simp [far]) ?_
      rintro ⟨-, -, -, -, -, -, near, -⟩
      exact near far
    · cases zones : responseZone r x
      · refine iff_of_false (by simp [far]) ?_
        rintro ⟨-, -, -, -, -, -, -, inZone⟩
        nomatch inZone
      · exact iff_of_true (by simp [far]) ⟨late, credential, signed, attested, nonce, young, far, rfl⟩
  · refine iff_of_false (by simp) ?_
    rintro ⟨late, credential, signed, attested, nonce, young, -, -⟩
    exact absurd (proves.mpr ⟨late, ⟨credential, signed⟩, attested, nonce, young⟩) (by rw [fails]; nofun)

/-- A greeting opens its exchange, timed at the challenge. -/
theorem accHello_opens (r : Req) (s : State) :
    let t := (accHelloSpec.run r s).st
    (∃ x, t.exch (rd r.b 0 1) = some x ∧ x.cred = rd r.b 1 1 ∧ x.action = rd r.b 2 1 ∧ x.mask = rd r.b 3 1 ∧ x.chalTb = s.tbNow ∧ x.reqSeq = r.h.seq)
      ∧ (∀ e, e ≠ rd r.b 0 1 → t.exch e = s.exch e) ∧ t.acc.immo = s.acc.immo ∧ Only [.acc, .free] s t := by
  refine ⟨?_, fun e other => ?_, rfl, accHelloSpec_frame r s⟩
  · unfold accHelloSpec
    exact ⟨_, setExch_same .., rfl, rfl, rfl, rfl, rfl⟩
  · unfold accHelloSpec
    exact setExch_other _ _ other

/-- The attestation refreshes a phone authorisation whose nonce is `n` (R529). -/
def presenceProves (r : Req) (n : Rec) (s : State) : Bool :=
  (attestMac s r.b).2 && decide (sub r.b 68 16 = n) && measFresh s r.b && decide (rd r.b 84 2 ≤ 10 * afMaxDist s.acc.cfg) && decide (rd r.b 86 1 = 0)

theorem presenceProves_iff {n : Rec} : presenceProves r n s = true ↔
    (attestMac s r.b).2 = true ∧ sub r.b 68 16 = n ∧ measFresh s r.b = true ∧ rd r.b 84 2 ≤ 10 * afMaxDist s.acc.cfg ∧ rd r.b 86 1 = 0 := by
  unfold presenceProves
  simp only [Bool.and_eq_true, decide_eq_true_eq, and_assoc]

/-- The state after the module's key use of a presence message. -/
def presenceUse (r : Req) (s : State) : State := if (attestMac s r.b).1 then takeUse (afModule s.acc.cfg) s else s

theorem presenceUse_acc (r : Req) (s : State) : (presenceUse r s).acc = s.acc := Only.ite (takeUse_frame _ s) (Only.refl _ s) .acc (by decide)

theorem accPresence_eq {p : Tb × Rec} (phone : s.acc.immo.phone = some p) : accPresenceSpec.run r s =
    { st := if presenceProves r p.2 s then onImmo (fun m => { m with phone := m.phone.map (fun p => ((presenceUse r s).tbNow, p.2)) }) (presenceUse r s) else presenceUse r s,
      status := if presenceProves r p.2 s then .ok else .verify, detail := 0, data := [] } := by
  unfold accPresenceSpec
  dsimp only
  rw [phone]
  rfl

theorem accPresence_refreshes {p : Tb × Rec} (phone : s.acc.immo.phone = some p) :
    let t := accPresenceSpec.run r s
    (t.status = .ok ↔ (attestMac s r.b).2 = true ∧ sub r.b 68 16 = p.2 ∧ measFresh s r.b = true ∧ rd r.b 84 2 ≤ 10 * afMaxDist s.acc.cfg ∧ rd r.b 86 1 = 0)
      ∧ (t.status = .ok → t.st.acc.immo = { s.acc.immo with phone := some (t.st.tbNow, p.2) }) ∧ (t.status ≠ .ok → t.status = .verify ∧ t.st.acc.immo = s.acc.immo) := by
  have acc := presenceUse_acc r s
  rw [← presenceProves_iff, accPresence_eq phone]
  cases presenceProves r p.2 s
  · exact ⟨iff_of_false nofun nofun, nofun, fun _ => ⟨rfl, congrArg Acc.immo acc⟩⟩
  · refine ⟨iff_of_true rfl rfl, fun _ => ?_, fun h => absurd rfl h⟩
    show { (presenceUse r s).acc.immo with phone := (presenceUse r s).acc.immo.phone.map (fun q : Tb × Rec => ((presenceUse r s).tbNow, q.2)) } = _
    rw [acc, phone]
    rfl

end

end Sys2Proof.Machine

namespace Sys2Proof.Machine

/-! ### Newt's opcodes at the commit point (R499, R506, R512, R525, R529) -/

section
variable {s : State}

theorem immoEnd_immo (cause : Nat) (s : State) : (immoEnd cause s).acc.immo = Immo.initial := by
  unfold immoEnd
  split
  · rfl
  · rfl

theorem immoStart_authorised (r : Req) (active : s.acc.immo.st ≠ 0) : (immoStartSpec.run r s).st = s := by
  unfold immoStartSpec
  dsimp only
  rw [if_pos active]
  rfl

theorem accLockClear_clears (r : Req) (s : State) :
    let t := (accLockClearSpec.run r s).st
    t.lock (rd r.b 0 1) (rd r.b 4 4) = LockRec.initial ∧ (∀ k, k ≠ lockKey (rd r.b 0 1) (rd r.b 4 4) → tget lockDef t.acc.locks k = tget lockDef s.acc.locks k)
      ∧ t.acc.cfg = s.acc.cfg ∧ Only [.acc] s t :=
  ⟨onLock_same _ _ (fun _ => LockRec.initial) s, fun _ other => onLock_other _ s other, rfl, accLockClearSpec_frame r s⟩

/-- Where nothing runs and nothing waits, a request makes an attempt of its own (R512, R531). -/
theorem accStart_places (r : Req) (idle : s.acc.att = none) (free : s.acc.wait = none) :
    let t := (accStartSpec.run r s).st
    (∃ a, t.acc.att = some a ∧ a.first = r.eff ∧ a.mask = rd r.b 0 1 ∧ a.reqCtx = r.h.ctx ∧ a.reqSeq = r.h.seq ∧ a.plan = afLf s.acc.cfg ∧ a.planFn = none ∧ a.valid = [])
      ∧ (accStartSpec.run r s).status = .pending ∧ t.acc.locks = s.acc.locks ∧ Only [.acc] s t := by
  have alone : (mergeable s r.eff).isSome = false := by
    unfold mergeable
    rw [idle, free]
    rfl
  have place (a : Attempt) : attPlace a s = onAcc (fun x => { x with att := some a }) s := by
    unfold attPlace
    rw [idle]
  refine ⟨?_, rfl, ?_, accStartSpec_frame r s⟩
  all_goals
    unfold accStartSpec
    dsimp only
    rw [alone, if_neg nofun, place]
  · exact ⟨_, rfl, rfl, Nat.zero_or _, rfl, rfl, rfl, rfl, rfl⟩
  · rfl

end

/-! ### The immobiliser in time (R526 to R530) -/

section
variable {s : State}

theorem onImmo_immo (f : Immo → Immo) (s : State) : (onImmo f s).acc.immo = f s.acc.immo := rfl

theorem immoSend_acc (o : Nat) (fd : Bool) (dlc : Nat) (data : Rec) (s : State) : (immoSend o fd dlc data s).acc = s.acc := immoSend_frame o fd dlc data s .acc (by decide)

theorem immoRelease_immo (st : Nat) (s : State) : (immoRelease st s).acc.immo = { s.acc.immo with cnt := s.acc.immo.cnt + 1 } := by
  unfold immoRelease
  dsimp only
  rw [immoSend_acc]
  rfl

theorem immoPair_immo (s : State) : (immoPair s).acc.immo =
    { s.acc.immo with st := 1, tries := 0, reqNext := s.tbNow + msTicks 10, ki := [], nd := [], cnt := 0 } := by
  unfold immoPair
  rw [immoSend_acc]
  rfl

theorem immoReqRetry_again (up : s.hearthUp = true) (pairing : s.acc.immo.st = 1) (few : s.acc.immo.tries < 5) :
    ∃ u, exec .immoReqRetry s = .next u ∧ u.acc.immo = { s.acc.immo with tries := s.acc.immo.tries + 1, reqNext := s.acc.immo.reqNext + msTicks 10 } ∧ Only [.time, .qf, .acc] s u := by
  refine ⟨immoSend 0 false 0 [] (onImmo (fun m => { m with tries := m.tries + 1, reqNext := m.reqNext + msTicks 10 }) (advTo s.acc.immo.reqNext s)), ?_, ?_,
    (immoSend_frame _ _ _ _ _).after (by decide) ((onImmo_frame _ _).after (by decide) ((advTo_frame _ s).sub (by decide)))⟩
  · show execImmoReqRetry s = _
    unfold execImmoReqRetry
    dsimp only
    exact (if_pos (by simp [pairing, up])).trans (if_pos few)
  · rw [immoSend_acc, onImmo_immo, advTo_acc]

theorem immoReqRetry_givesUp (up : s.hearthUp = true) (pairing : s.acc.immo.st = 1) (spent : 5 ≤ s.acc.immo.tries) :
    ∃ u, exec .immoReqRetry s = .next u ∧ u.acc.immo = Immo.initial := by
  refine ⟨onImmo (fun _ => Immo.initial) (immoEvent 4 0 (raise 0x146 0 (advTo s.acc.immo.reqNext s))), ?_, rfl⟩
  show execImmoReqRetry s = _
  unfold execImmoReqRetry
  dsimp only
  exact (if_pos (by simp [pairing, up])).trans (if_neg (Nat.not_lt.mpr spent))

theorem immoReqRetry_idle (other : s.acc.immo.st ≠ 1) : exec .immoReqRetry s = .next s := by
  show execImmoReqRetry s = _
  unfold execImmoReqRetry
  exact if_neg (by simp [other])

theorem immoReleasePeriod_counts (up : s.hearthUp = true) (session : s.acc.immo.st = 2) (room : s.acc.immo.cnt < 0xFFFFFFFF) :
    ∃ u, exec .immoReleasePeriod s = .next u ∧ u.acc.immo = { s.acc.immo with cnt := s.acc.immo.cnt + 1, next := s.acc.immo.next + msTicks (afPeriod s.acc.cfg) }
      ∧ Only [.time, .qf, .acc] s u := by
  refine ⟨immoRelease 1 (onImmo (fun m => { m with next := m.next + msTicks (afPeriod (advTo s.acc.immo.next s).acc.cfg) }) (advTo s.acc.immo.next s)), ?_, ?_,
    (immoRelease_frame _ _).after (by decide) ((onImmo_frame _ _).after (by decide) ((advTo_frame _ s).sub (by decide)))⟩
  · show execImmoReleasePeriod s = _
    unfold execImmoReleasePeriod
    dsimp only
    exact (if_pos (by simp [session, up])).trans (if_neg (Nat.not_le.mpr room))
  · rw [immoRelease_immo, onImmo_immo, advTo_acc]

/-- A counter that would pass FFFFFFFFh pairs anew and keeps both authorised paths (R529). -/
theorem immoReleasePeriod_wraps (up : s.hearthUp = true) (session : s.acc.immo.st = 2) (spent : 0xFFFFFFFF ≤ s.acc.immo.cnt) :
    ∃ u, exec .immoReleasePeriod s = .next u ∧ u.acc.immo.st = 1 ∧ u.acc.immo.cnt = 0 ∧ u.acc.immo.lf = s.acc.immo.lf ∧ u.acc.immo.phone = s.acc.immo.phone ∧ Only [.time, .qf, .acc] s u := by
  have run : exec .immoReleasePeriod s = .next (immoPair (advTo s.acc.immo.next s)) := by
    show execImmoReleasePeriod s = _
    unfold execImmoReleasePeriod
    dsimp only
    exact (if_pos (by simp [session, up])).trans (if_pos spent)
  refine ⟨_, run, ?_, ?_, ?_, ?_, (immoPair_frame _).after (by decide) ((advTo_frame _ s).sub (by decide))⟩
  all_goals rw [immoPair_immo]
  all_goals rw [advTo_acc]

theorem immoReleasePeriod_idle (other : s.acc.immo.st ≠ 2) : exec .immoReleasePeriod s = .next s := by
  show execImmoReleasePeriod s = _
  unfold execImmoReleasePeriod
  exact if_neg (by simp [other])

theorem immoAbsentTimeout_ends {t : Tb} (up : s.hearthUp = true) (absent : absentAt s = some t) (active : s.acc.immo.st ≠ 0) :
    ∃ u, exec .immoAbsentTimeout s = .next u ∧ u.acc.immo = Immo.initial ∧ Only [.time, .qf, .acc] s u := by
  refine ⟨immoEnd 1 (advTo t s), ?_, immoEnd_immo _ _, (immoEnd_frame _ _).after (by decide) ((advTo_frame _ s).sub (by decide))⟩
  show execImmoAbsentTimeout s = _
  unfold execImmoAbsentTimeout
  rw [absent]
  exact if_pos (by simp [active, up])

theorem immoAbsentTimeout_idle (idle : s.acc.immo.st = 0) : exec .immoAbsentTimeout s = .next s := by
  show execImmoAbsentTimeout s = _
  unfold execImmoAbsentTimeout
  split
  · exact if_neg (by simp [idle])
  · rfl

/-- The next poll is due POLL_S seconds later. -/
def pollTurn (s : State) : State := onImmo (fun m => { m with pollNext := m.pollNext + secTicks (afPollS s.acc.cfg) }) (advTo s.acc.immo.pollNext s)

theorem pollTurn_acc (s : State) : (pollTurn s).acc = { s.acc with immo := { s.acc.immo with pollNext := s.acc.immo.pollNext + secTicks (afPollS s.acc.cfg) } } := by
  unfold pollTurn onImmo onAcc
  rw [advTo_acc]

theorem pollTurn_frame (s : State) : Only [.time, .qf, .acc] s (pollTurn s) := (onImmo_frame _ _).after (by decide) ((advTo_frame _ s).sub (by decide))

theorem pollTurn_fn (s : State) : (pollTurn s).fn = s.fn := by
  have clk : (pollTurn s).clk = s.clk := pollTurn_frame s .clk (by decide)
  unfold State.fn
  rw [clk]

theorem pollTurn_usable (s : State) (c : Rec) (role p : Nat) :
    planUsable (pollTurn s).sched.img (pollTurn s).com.mode c role p = planUsable s.sched.img s.com.mode c role p := by
  have sched : (pollTurn s).sched = s.sched := pollTurn_frame s .sched (by decide)
  have com : (pollTurn s).com = s.com := pollTurn_frame s .com (by decide)
  rw [sched, com]

theorem setAtt_immo (x : Option Attempt) (s : State) : (onAcc (fun a => { a with att := x }) s).acc.immo = s.acc.immo := rfl

theorem presencePoll_idle (off : s.acc.immo.st = 0 ∨ s.acc.immo.lfIndex = 255) : exec .presencePoll s = .next s := by
  show execPresencePoll s = _
  unfold execPresencePoll
  refine if_neg ?_
  obtain idle | phone := off
  · simp [idle]
  · simp [phone]

theorem presencePoll_turns (up : s.hearthUp = true) (active : s.acc.immo.st ≠ 0) (lf : s.acc.immo.lfIndex ≠ 255) : exec .presencePoll s =
    .next (if s.acc.att.isNone && planUsable s.sched.img s.com.mode s.acc.cfg 1 (afPoll s.acc.cfg) then
        onAcc (fun a => { a with att := some { Attempt.initial with kind := 1, first := s.fn + 1, plan := afPoll s.acc.cfg } }) (pollTurn s) else pollTurn s) := by
  have att : (pollTurn s).acc.att = s.acc.att := by rw [pollTurn_acc]
  show execPresencePoll s = _
  unfold execPresencePoll
  refine (if_pos (by simp [active, lf, up])).trans ?_
  show (if (pollTurn s).acc.att.isNone && planUsable (pollTurn s).sched.img (pollTurn s).com.mode s.acc.cfg 1 (afPoll s.acc.cfg) then
      Host.Outcome.next (onAcc (fun a => { a with att := some { Attempt.initial with kind := 1, first := (pollTurn s).fn + 1, plan := afPoll s.acc.cfg } }) (pollTurn s))
    else Host.Outcome.next (pollTurn s)) = _
  rw [att, pollTurn_usable, pollTurn_fn]
  split
  · rfl
  · rfl

theorem presencePoll_polls (up : s.hearthUp = true) (active : s.acc.immo.st ≠ 0) (lf : s.acc.immo.lfIndex ≠ 255) :
    ∃ u, exec .presencePoll s = .next u ∧ u.acc.immo = { s.acc.immo with pollNext := s.acc.immo.pollNext + secTicks (afPollS s.acc.cfg) } ∧ Only [.time, .qf, .acc] s u
      ∧ (s.acc.att = none → planUsable s.sched.img s.com.mode s.acc.cfg 1 (afPoll s.acc.cfg) = true →
          ∃ b, u.acc.att = some b ∧ b.kind = 1 ∧ b.first = s.fn + 1 ∧ b.plan = afPoll s.acc.cfg)
      ∧ (s.acc.att ≠ none → u.acc.att = s.acc.att) := by
  have immo : (pollTurn s).acc.immo = { s.acc.immo with pollNext := s.acc.immo.pollNext + secTicks (afPollS s.acc.cfg) } := by rw [pollTurn_acc]
  have att : (pollTurn s).acc.att = s.acc.att := by rw [pollTurn_acc]
  have run := presencePoll_turns up active lf
  cases polls : s.acc.att.isNone && planUsable s.sched.img s.com.mode s.acc.cfg 1 (afPoll s.acc.cfg)
  · rw [polls, if_neg nofun] at run
    refine ⟨_, run, immo, pollTurn_frame s, fun idle usable => ?_, fun _ => att⟩
    rw [idle, usable] at polls
    nomatch polls
  · rw [polls, if_pos rfl] at run
    refine ⟨_, run, (setAtt_immo _ _).trans immo, (onAcc_frame _ _).after (by decide) (pollTurn_frame s), fun _ _ => ⟨_, rfl, rfl, rfl, rfl⟩, fun busy => ?_⟩
    rw [Bool.and_eq_true, Option.isNone_iff_eq_none] at polls
    exact absurd polls.1 busy

end

end Sys2Proof.Machine

namespace Sys2Proof.Machine

/-! ### LF plans and their steps (R501 to R506, R512) -/

section
variable {s : State}

theorem lfPlanStart_starts {a : Attempt} (attempt : s.acc.att = some a) (up : s.hearthUp = true) (waits : a.planFn = none)
    (due : (a.first - (if s.tick = 0 then s.fn else s.fn + 1)).toInt ≤ 0) : exec .lfPlanStart s =
    .next (if planUsable s.sched.img s.com.mode s.acc.cfg (if a.kind = 1 then 1 else 0) a.plan then
        onAtt (fun a => { a with planFn := some (if s.tick = 0 then s.fn else s.fn + 1), step := 255 }) s else attAbort 4 s) := by
  show execLfPlanStart s = _
  unfold execLfPlanStart
  rw [attempt]
  refine (if_neg ?_).trans ?_
  · simp only [waits, up, Option.isSome_none, Bool.not_true, Bool.false_or, decide_eq_true_eq, gt_iff_lt, Int.not_lt]
    exact due
  · cases planUsable s.sched.img s.com.mode s.acc.cfg (if a.kind = 1 then 1 else 0) a.plan
    · rfl
    · rfl

/-- The state in which a step is driven: the advance to its start, the aerials quiet, the attempt at the step. -/
def stepBegun (start stop : Tb) (k : Nat) (s : State) : State := onAtt (fun a => { a with step := k, stepEnd := stop }) (lfQuiet (advTo start s))

theorem stepBegun_acc (start stop : Tb) (k : Nat) (s : State) : (stepBegun start stop k s).acc =
    { s.acc with lfOn := 0, lfTele := [], uhfEn := false, att := s.acc.att.map (fun a => { a with step := k, stepEnd := stop }) } := by
  unfold stepBegun onAtt lfQuiet onAcc
  rw [advTo_acc]

theorem stepBegun_frame (start stop : Tb) (k : Nat) (s : State) : Only [.time, .qf, .acc, .free] s (stepBegun start stop k s) :=
  (onAtt_frame _ _).after (by decide) ((lfQuiet_frame _).after (by decide) ((advTo_frame _ s).sub (by decide)))

theorem lfStepStart_aborts {a : Attempt} {f : Fn} (attempt : s.acc.att = some a) (plan : a.planFn = some f) (abort : a.abort ≠ 0) :
    exec .lfStepStart s = .next (attAbort a.abort (advTo a.stepEnd s)) := by
  show execLfStepStart s = _
  unfold execLfStepStart
  rw [attempt]
  exact if_pos (by simp [plan, abort])

/-- The aerials of a step are driven with a telegram. -/
def driveStep (aerials : Nat) (tele : Rec) (s : State) : State := onAcc (fun y => { y with lfOn := drivable s aerials, lfTele := tele }) s

/-- What the steps up to the reply window do (R502 to R505): wake, challenge, the bursts of the aerials, the receiver. -/
def stepActs (a : Attempt) (k : Nat) (x : LfStep) (stop : Tb) (c : Rec) (s : State) : State :=
  if k = 0 then driveStep x.aerials (be 2 (afWake c)) s
  else if k = 1 then
    driveStep x.aerials (telegram ([1] ++ be 4 (afVid c) ++ [BitVec.ofNat 8 a.target] ++ sub (Config.random s.free 8) 0 8))
      (useFree (onAtt (fun a => { a with nv := sub (Config.random s.free 8) 0 8, void := 0 }) s))
  else if k ≤ 9 then driveStep x.aerials [] (onAtt (fun b => { b with tEnd := stop, void := if bit s.acc.fault (k - 2) then setBit a.void (k - 2) else a.void }) s)
  else onAcc (fun y => { y with uhfEn := true }) s

theorem lfStepStart_acts {a : Attempt} {f : Fn} {k : Nat} {x : LfStep} (attempt : s.acc.att = some a) (plan : a.planFn = some f) (next : nextStep s a = some (k, x))
    (running : a.abort = 0) (early : k ≤ 10) : exec .lfStepStart s =
    .next (stepActs a k x (planTb s f + BitVec.ofNat 48 x.stop) s.acc.cfg (stepBegun (planTb s f + BitVec.ofNat 48 x.start) (planTb s f + BitVec.ofNat 48 x.stop) k s)) := by
  show execLfStepStart s = _
  unfold execLfStepStart
  rw [attempt]
  dsimp only
  rw [if_neg (by simp [running]), plan, next]
  dsimp only
  rw [if_neg (by simp; omega)]
  unfold stepActs
  by_cases wake : k = 0
  · rw [if_pos wake, if_pos wake]
    rfl
  · rw [if_neg wake, if_neg wake]
    by_cases challenge : k = 1
    · rw [if_pos challenge, if_pos challenge]
      rfl
    · rw [if_neg challenge, if_neg challenge]
      by_cases burst : k ≤ 9
      · rw [if_pos burst, if_pos burst]
        rfl
      · rw [if_neg burst, if_neg burst, if_pos (by omega)]
        rfl

/-- A step has been taken up: the attempt stands as it was, the aerials of the step are driven or the receiver is open. -/
structure StepTaken (b : Attempt) (k aerials : Nat) (t u : State) : Prop where
  att : ∃ c, u.acc.att = some c ∧ c.step = b.step ∧ c.stepEnd = b.stepEnd ∧ c.valid = b.valid ∧ c.mask = b.mask
  lfOn : u.acc.lfOn = if k = 10 then 0 else drivable t aerials
  uhfEn : u.acc.uhfEn = decide (k = 10)
  locks : u.acc.locks = t.acc.locks
  only : Only [.time, .qf, .acc, .free] t u

theorem driveStep_frame (aerials : Nat) (tele : Rec) (s : State) : Only [.acc] s (driveStep aerials tele s) := onAcc_frame _ s

theorem stepActs_takes {a b : Attempt} {k : Nat} (x : LfStep) (stop : Tb) (c : Rec) {t : State} (att : t.acc.att = some b) (quiet : t.acc.lfOn = 0) (off : t.acc.uhfEn = false)
    (early : k ≤ 10) : StepTaken b k x.aerials t (stepActs a k x stop c t) := by
  have drives {t' : State} (tele : Rec) (early : k ≠ 10) (att : ∃ c, t'.acc.att = some c ∧ c.step = b.step ∧ c.stepEnd = b.stepEnd ∧ c.valid = b.valid ∧ c.mask = b.mask)
      (other : ∃ att, t'.acc = { t.acc with att := att }) (only : Only [.acc, .free] t t') : StepTaken b k x.aerials t (driveStep x.aerials tele t') := by
    obtain ⟨_, other⟩ := other
    refine ⟨att, ?_, ?_, ?_, (driveStep_frame _ _ _).after (by decide) (only.sub (by decide))⟩
    · rw [if_neg early]
      show drivable t' x.aerials = drivable t x.aerials
      unfold drivable
      rw [other]
    · rw [decide_eq_false early]
      exact (congrArg Acc.uhfEn other).trans off
    · show t'.acc.locks = t.acc.locks
      rw [other]
  unfold stepActs
  by_cases wake : k = 0
  · rw [if_pos wake]
    exact drives _ (by omega) ⟨b, att, rfl, rfl, rfl, rfl⟩ ⟨t.acc.att, rfl⟩ (Only.refl _ t)
  · rw [if_neg wake]
    by_cases challenge : k = 1
    · rw [if_pos challenge]
      exact drives _ (by omega) ⟨_, congrArg (Option.map _) att, rfl, rfl, rfl, rfl⟩ ⟨_, rfl⟩ ((useFree_frame _).after (by decide) ((onAtt_frame _ t).sub (by decide)))
    · rw [if_neg challenge]
      by_cases burst : k ≤ 9
      · rw [if_pos burst]
        exact drives _ (by omega) ⟨_, congrArg (Option.map _) att, rfl, rfl, rfl, rfl⟩ ⟨_, rfl⟩ ((onAtt_frame _ t).sub (by decide))
      · have last : k = 10 := by omega
        rw [if_neg burst]
        refine ⟨⟨b, att, rfl, rfl, rfl, rfl⟩, ?_, ?_, rfl, (onAcc_frame _ t).sub (by decide)⟩
        · rw [if_pos last]
          exact quiet
        · exact (decide_eq_true last).symm

theorem lfStepStart_takes {a : Attempt} {f : Fn} {k : Nat} {x : LfStep} (attempt : s.acc.att = some a) (plan : a.planFn = some f) (next : nextStep s a = some (k, x))
    (running : a.abort = 0) (early : k ≤ 10) :
    ∃ u b, exec .lfStepStart s = .next u ∧ u.acc.att = some b ∧ b.step = k ∧ b.stepEnd = planTb s f + BitVec.ofNat 48 x.stop ∧ b.valid = a.valid ∧ b.mask = a.mask
      ∧ u.acc.lfOn = (if k = 10 then 0 else drivable s x.aerials) ∧ u.acc.uhfEn = decide (k = 10) ∧ u.acc.locks = s.acc.locks ∧ Only [.time, .qf, .acc, .free] s u := by
  have acc := stepBegun_acc (planTb s f + BitVec.ofNat 48 x.start) (planTb s f + BitVec.ofNat 48 x.stop) k s
  obtain ⟨⟨b, att, step, stepEnd, valid, mask⟩, lfOn, uhfEn, locks, only⟩ := stepActs_takes (a := a) (b := { a with step := k, stepEnd := planTb s f + BitVec.ofNat 48 x.stop }) x
    (planTb s f + BitVec.ofNat 48 x.stop) s.acc.cfg (by rw [acc, attempt]; rfl) (by rw [acc]) (by rw [acc]) early
  refine ⟨_, b, lfStepStart_acts attempt plan next running early, att, step, stepEnd, valid, mask, lfOn.trans ?_, uhfEn, locks.trans (by rw [acc]),
    only.after (fun _ h => h) (stepBegun_frame _ _ _ s)⟩
  unfold drivable
  rw [acc]

end

end Sys2Proof.Machine

namespace Sys2Proof.Machine

/-! ### Faulted aerials, replies and the end of a sweep (R506, R513 to R517) -/

section
variable {s : State}

theorem lfAerialFault_quiet {n : Nat} (short : Bool) (quiet : bit s.acc.lfOn n = false ∨ 8 ≤ n) : exec (.lfAerialFault n short) s = .next s := by
  show execLfAerialFault n short s = _
  unfold execLfAerialFault
  refine if_neg ?_
  obtain off | none := quiet
  · simp [off]
  · simp [none]

theorem lfAerialFault_stops {n : Nat} (short : Bool) (driven : bit s.acc.lfOn n = true) (fitted : n < 8) :
    ∃ v, exec (.lfAerialFault n short) s = .next (raise (if short then 0x141 else 0x140) n v) ∧ v.acc.lfOn = clrBit s.acc.lfOn n ∧ v.acc.fault = setBit s.acc.fault n ∧ Only [.acc] s v := by
  refine ⟨onAtt (fun a => if a.step = n + 2 then { a with void := setBit a.void n } else a)
    (onAcc (fun a => { a with lfOn := clrBit a.lfOn n, fault := setBit a.fault n }) s), ?_, rfl, rfl, (onAtt_frame _ _).after (by decide) (onAcc_frame _ s)⟩
  show execLfAerialFault n short s = _
  unfold execLfAerialFault
  exact if_pos (by simp [driven, fitted])

theorem uhfReply_deaf {a : Attempt} (t : Tb) (p : Option Rec) (attempt : s.acc.att = some a) (deaf : a.step ≠ 10 ∨ s.acc.uhfEn = false ∨ s.hearthUp = false) :
    exec (.uhfReply t p) s = .next s := by
  show execUhfReply t p s = _
  unfold execUhfReply
  rw [attempt]
  refine if_pos ?_
  obtain step | off | down := deaf
  · simp [step]
  · simp [off]
  · simp [down]

/-- A reply with the receiver open is taken to the slot it starts in. -/
theorem uhfReply_open {a : Attempt} (t : Tb) (p : Option Rec) (attempt : s.acc.att = some a) (step : a.step = 10) (open_ : s.acc.uhfEn = true) (up : s.hearthUp = true) :
    (slotOf s.acc.cfg a.tEnd t 8 (s.acc.cal.getD 0) = none → exec (.uhfReply t p) s = .next (advTo t s))
      ∧ ∀ j w, slotOf s.acc.cfg a.tEnd t 8 (s.acc.cal.getD 0) = some j → p = some w → a.kind ≠ 2 → exec (.uhfReply t p) s = .next (judge a t j w (advTo t s)) := by
  have hears : ¬((a.step ≠ 10 || !s.acc.uhfEn || !s.hearthUp) = true) := by simp [step, open_, up]
  refine ⟨fun slot => ?_, fun j w slot parsed token => ?_⟩
  all_goals
    show execUhfReply t p s = _
    unfold execUhfReply
    rw [attempt]
    dsimp only
    rw [if_neg hears, advTo_acc, slot]
  rw [parsed]
  exact if_neg token

/-- The session key of a reply under its token's slot (R513). -/
def replyKey (a : Attempt) (p e : Rec) (s : State) : Rec := cmac (kyMat (s.key (tkSlot e)).rec_) (a.nv ++ sub p 4 8 ++ ascii "SESS")

/-- A valid token as its reply tells it (R513 to R515). -/
def replyToken (a : Attempt) (k : Nat) (p e ks : Rec) (w : State) : ValidToken :=
  { index := tkIndex e, immo := tkImmo e, zone := zoneOf w a.void (sub p 12 8), score := driverScore w a.void (sub p 12 8), slot := k, sweep := a.sweep, ks := ks, nt := sub p 4 8, nv := a.nv }

/-- The reply of a known token in its slot, its key usable, is valid where its MAC is right and a failure else. -/
theorem judge_key {a : Attempt} {t : Tb} {k : Nat} {p e : Rec} (inSlot : (slotDelta s.acc.cfg a.tEnd t k (s.acc.cal.getD 0)).natAbs ≤ 100)
    (known : (tokens s).find? (fun e => tkTid e = rd p 0 4) = some e) (free : lockedFor s (rd p 0 4) a.first = false) (own : k = (if a.sweep = 0 then tkIndex e % 8 else 0))
    (usable : keyOk s (tkSlot e) [1, 2] 4 = true) :
    let w := takeUse (tkSlot e) s
    judge a t k p s =
      if sub p 20 8 = (cmac (replyKey a p e s) (le 4 (afVid s.acc.cfg) ++ le 4 (rd p 0 4) ++ a.nv ++ sub p 4 8 ++ sub p 12 8)).take 8 then
        onAtt (fun b => { b with valid := b.valid ++ [replyToken a k p e (replyKey a p e s) w] }) (accValid 2 (rd p 0 4) w)
      else accFail 0 (some (2, rd p 0 4)) w := by
  intro w
  unfold judge
  dsimp only
  rw [if_neg (Nat.not_lt.mpr inSlot), known]
  dsimp only
  rw [free, if_neg nofun, if_neg (not_not.mpr own), usable, if_neg (by nofun), ite_not]
  rfl

end

end Sys2Proof.Machine

namespace Sys2Proof.Machine

/-! ### The decision of an attempt (R516 to R518) -/

section
variable {s : State}

/-- The entry that tells the decision of an attempt. -/
def decisionEntry (a : Attempt) (dec : Nat) (s : State) : Rec :=
  decEntry 1 dec (if dec = 2 then 1 else if a.valid.isEmpty && a.keyBad then 2 else 0) a.mask (((authToken a.valid).map (·.index)).getD 255) (((profToken a.valid).map (·.index)).getD 255)
    (((profToken a.valid).map (·.zone)).getD 7) a.sweep a.valid.length a.reqId.toNat s.tbNow

/-- An authorised token refreshes the LF path; with a start request the authorisation begins (R526). -/
def lfAuthorise (a : Attempt) (s : State) : State :=
  match authToken a.valid with
  | none => s
  | some t => immoBegin (onImmo (fun m =>
      if m.st = 0 && !(phoneStands s) then { m with lf := some s.tbNow, index := t.index, profile := ((profToken a.valid).map (·.index)).getD 255, lfIndex := t.index }
      else { m with lf := some s.tbNow, lfIndex := if m.lfIndex = 255 then t.index else m.lfIndex }) s)

/-- A decision is told, the LF path refreshed; then the attempt stays for its CONFIRM or ends. -/
theorem decide_tells (a : Attempt) (s : State) : ∃ dec f c, ∃ _ : Decidable c, let u := lfAuthorise a (attComplete a (decisionEntry a dec s) (accDecision (decisionEntry a dec s) s))
    decide_ a s = if c then onAtt f u else attEnd u := by
  refine ⟨if a.valid.any (fun t => bit a.mask t.zone) then 1 else if !a.valid.isEmpty then 2 else if a.locked then 4 else 3, ?_⟩
  unfold decide_ lfAuthorise decisionEntry
  exact ⟨_, _, _, rfl⟩

theorem immoPair_acc (s : State) : (immoPair s).acc =
    { s.acc with immo := { s.acc.immo with st := 1, tries := 0, reqNext := s.tbNow + msTicks 10, ki := [], nd := [], cnt := 0 } } := by
  unfold immoPair
  rw [immoSend_acc]
  rfl

/-- A pairing, told, changes the immobiliser alone and keeps its LF path, whenever the next poll is due. -/
theorem immoPair_told (x : Tb) (s : State) :
    ∃ m, (immoEvent 1 0 (immoPair (onImmo (fun m => { m with pollNext := x }) s))).acc = { s.acc with immo := m } ∧ m.lf = s.acc.immo.lf := by
  rw [immoEvent_frame _ _ _ .acc (by decide), immoPair_acc]
  exact ⟨_, rfl, rfl⟩

theorem immoBegin_keeps (s : State) : ∃ m, (immoBegin s).acc = { s.acc with immo := m } ∧ m.lf = s.acc.immo.lf := by
  unfold immoBegin
  dsimp only
  split
  · exact immoPair_told _ s
  · exact ⟨s.acc.immo, rfl, rfl⟩

theorem lfAuthorise_keeps (a : Attempt) (s : State) : ∃ m, (lfAuthorise a s).acc = { s.acc with immo := m } ∧ (authToken a.valid = none → m = s.acc.immo)
    ∧ ∀ b, authToken a.valid = some b → m.lf = some s.tbNow := by
  unfold lfAuthorise
  cases authToken a.valid with
  | none => exact ⟨s.acc.immo, rfl, fun _ => rfl, nofun⟩
  | some t =>
    obtain ⟨m, acc, lf⟩ := immoBegin_keeps (onImmo (fun m =>
      if m.st = 0 && !(phoneStands s) then { m with lf := some s.tbNow, index := t.index, profile := ((profToken a.valid).map (·.index)).getD 255, lfIndex := t.index }
      else { m with lf := some s.tbNow, lfIndex := if m.lfIndex = 255 then t.index else m.lfIndex }) s)
    refine ⟨m, acc, nofun, fun _ _ => lf.trans ?_⟩
    rw [onImmo_immo]
    split
    · rfl
    · rfl

theorem attComplete_told (a : Attempt) (e : Rec) (s : State) : (attComplete a e (accDecision e s)).acc = { s.acc with decisions := s.acc.decisions + 1 } :=
  (attComplete_frame a e _ .acc (by decide)).trans (accDecision_acc e s)

theorem attComplete_told_tbNow (a : Attempt) (e : Rec) (s : State) : (attComplete a e (accDecision e s)).tbNow = s.tbNow := by
  have time : (attComplete a e (accDecision e s)).time = s.time := (attComplete_frame a e _ .time (by decide)).trans (accDecision_frame e s .time (by decide))
  unfold State.tbNow
  rw [time]

theorem decide_decides (a : Attempt) (s : State) : let u := decide_ a s
    u.acc.decisions = s.acc.decisions + 1 ∧ u.acc.lfOn = s.acc.lfOn ∧ u.acc.uhfEn = s.acc.uhfEn ∧ u.acc.locks = s.acc.locks ∧ (authToken a.valid = none → u.acc.immo = s.acc.immo)
      ∧ ∀ b, authToken a.valid = some b → u.acc.immo.lf = some s.tbNow := by
  obtain ⟨dec, f, c, _, ends⟩ := decide_tells a s
  obtain ⟨m, acc, none, auth⟩ := lfAuthorise_keeps a (attComplete a (decisionEntry a dec s) (accDecision (decisionEntry a dec s) s))
  rw [attComplete_told] at acc none
  rw [attComplete_told_tbNow] at auth
  rw [ends]
  split
  all_goals
    simp only [onAtt, attEnd, onAcc]
    rw [acc]
    exact ⟨rfl, rfl, rfl, rfl, none, auth⟩

/-! ### The end of a sweep, re-sweeps and calibration (R510, R511, R516, R517) -/

/-- The state in which a sweep is judged: its REPLY step over, the receiver off. -/
def sweepOver (t : Tb) (s : State) : State := lfQuiet (advTo t s)

theorem sweepOver_acc (t : Tb) (s : State) : (sweepOver t s).acc = { s.acc with lfOn := 0, lfTele := [], uhfEn := false } := by
  unfold sweepOver lfQuiet onAcc
  rw [advTo_acc]

theorem sweepOver_frame (t : Tb) (s : State) : Only [.time, .qf, .acc] s (sweepOver t s) := (lfQuiet_frame _).after (by decide) ((advTo_frame _ s).sub (by decide))

section
variable {a : Attempt} (attempt : s.acc.att = some a) (step : a.step = 10) (open_ : a.decided = none) (up : s.hearthUp = true)
include attempt step open_ up

theorem accessDecision_aborts (abort : a.abort ≠ 0) : exec .accessDecision s = .next (attAbort a.abort (sweepOver a.stepEnd s)) := by
  show execAccessDecision s = _
  unfold execAccessDecision
  rw [attempt]
  exact (if_neg (by simp [step, open_, up])).trans (if_pos abort)

theorem accessDecision_polls (running : a.abort = 0) (poll : a.kind = 1) : exec .accessDecision s = .next (pollDone a (sweepOver a.stepEnd s)) := by
  show execAccessDecision s = _
  unfold execAccessDecision
  rw [attempt]
  exact (if_neg (by simp [step, open_, up])).trans ((if_neg (not_not.mpr running)).trans (if_pos poll))

theorem accessDecision_attempt (running : a.abort = 0) (kind : a.kind = 0) : exec .accessDecision s =
    .next (if (resweepIndex (sweepOver a.stepEnd s) a).isSome then sweepOver a.stepEnd s else decide_ a (sweepOver a.stepEnd s)) := by
  show execAccessDecision s = _
  unfold execAccessDecision
  rw [attempt]
  refine (if_neg (by simp [step, open_, up])).trans ((if_neg (not_not.mpr running)).trans ((if_neg (by rw [kind]; decide)).trans ((if_neg (by rw [kind]; decide)).trans ?_)))
  show (if (resweepIndex (sweepOver a.stepEnd s) a).isSome then Host.Outcome.next (sweepOver a.stepEnd s) else Host.Outcome.next (decide_ a (sweepOver a.stepEnd s))) = _
  split
  · rfl
  · rfl

theorem accessDecision_decides (running : a.abort = 0) (kind : a.kind = 0) (last : resweepIndex (sweepOver a.stepEnd s) a = none) :
    ∃ u, exec .accessDecision s = .next u ∧ u.acc.decisions = s.acc.decisions + 1 ∧ u.acc.lfOn = 0 ∧ u.acc.uhfEn = false ∧ u.acc.locks = s.acc.locks
      ∧ (authToken a.valid = none → u.acc.immo = s.acc.immo) ∧ (∀ b, authToken a.valid = some b → u.acc.immo.lf = some (sweepOver a.stepEnd s).tbNow) ∧ Only [.time, .qf, .acc] s u := by
  obtain ⟨decisions, lfOn, uhfEn, locks, immo, lf⟩ := decide_decides a (sweepOver a.stepEnd s)
  rw [sweepOver_acc] at decisions lfOn uhfEn locks immo
  refine ⟨_, accessDecision_attempt attempt step open_ up running kind, ?_⟩
  rw [last, if_neg nofun]
  exact ⟨decisions, lfOn, uhfEn, locks, immo, lf, (decide__frame _ _).after (by decide) (sweepOver_frame _ s)⟩

end

theorem onAtt_att (f : Attempt → Attempt) (s : State) : (onAtt f s).acc.att = s.acc.att.map f := rfl

theorem resweepStart_none {a : Attempt} (attempt : s.acc.att = some a) (none : resweepIndex s a = none) : exec .resweepStart s = .next s := by
  show execResweepStart s = _
  unfold execResweepStart
  rw [attempt]
  dsimp only
  rw [none]

/-- The frame in which a re-sweep starts: the first whose boundary is not past (R516). -/
def resweepFn (s : State) : Fn := s.fn + BitVec.ofNat 32 (cdiv (sx 48 (s.tbNow - s.clk.frameTb).toNat).toNat 50000)

theorem resweepStart_starts {a : Attempt} {i : Nat} (attempt : s.acc.att = some a) (up : s.hearthUp = true) (due : resweepIndex s a = some i) :
    ∃ u g, exec .resweepStart s = .next u ∧ u.acc.att = some { a with plan := afRs s.acc.cfg, planFn := some g, step := 255, target := i, tried := a.tried ++ [i], sweep := a.sweep + 1, void := 0 }
      ∧ u.acc.lfOn = 0 ∧ u.acc.uhfEn = false ∧ Only [.time, .qf, .acc] s u := by
  have acc := sweepOver_acc a.stepEnd s
  have run : exec .resweepStart s = .next (onAtt (fun b =>
      { b with plan := afRs (sweepOver a.stepEnd s).acc.cfg, planFn := some (resweepFn (sweepOver a.stepEnd s)), step := 255, target := i, tried := b.tried ++ [i], sweep := b.sweep + 1, void := 0 })
      (sweepOver a.stepEnd s)) := by
    show execResweepStart s = _
    unfold execResweepStart
    rw [attempt]
    dsimp only
    rw [due, up]
    rfl
  refine ⟨_, resweepFn (sweepOver a.stepEnd s), run, ?_, ?_, ?_, (onAtt_frame _ _).after (by decide) (sweepOver_frame _ s)⟩
  · rw [onAtt_att, acc, attempt]
    rfl
  · exact congrArg Acc.lfOn acc
  · exact congrArg Acc.uhfEn acc

theorem calRepeat_idle (d : afCalPeriod s.acc.cfg = 0 ∨ afRef s.acc.cfg = true ∨ accIdle s = false ∨ s.hearthUp = false) : exec .calRepeat s = .next s := by
  show execCalRepeat s = _
  unfold execCalRepeat
  refine if_neg ?_
  obtain off | reference | busy | down := d
  · simp [off]
  · simp [reference]
  · simp [busy]
  · simp [down]

theorem calRepeat_starts (on : afCalPeriod s.acc.cfg ≠ 0) (loopback : afRef s.acc.cfg = false) (idle : accIdle s = true) (up : s.hearthUp = true) :
    ∃ u, exec .calRepeat s = .next u ∧ u.acc.uhfCal = true ∧ u.acc.calRun = some { ctx := 0, seq := 0, reference := none, meas := [], runs := 0 }
      ∧ u.acc.calNext = s.acc.calNext + secTicks (60 * afCalPeriod s.acc.cfg) ∧ Only [.time, .qf, .acc] s u := by
  refine ⟨onAcc (fun a => { a with
      calNext := a.calNext + secTicks (60 * afCalPeriod s.acc.cfg), uhfCal := true,
      calRun := some { ctx := 0, seq := 0, reference := none, meas := [], runs := 0 } }) (advTo s.acc.calNext s), ?_, rfl, rfl, ?_, (onAcc_frame _ _).after (by decide) ((advTo_frame _ s).sub (by decide))⟩
  · show execCalRepeat s = _
    unfold execCalRepeat
    exact if_pos (by simp [on, loopback, idle, up])
  · show (advTo s.acc.calNext s).acc.calNext + _ = _
    rw [advTo_acc]

theorem loopbackMeasurement_measures {r : CalRun} (d : Int) (run : s.acc.calRun = some r) (loopback : r.reference = none) :
    let v := { s with acc := { s.acc with calRun := some { r with meas := r.meas ++ [d] } } }
    exec (.loopbackMeasurement d) s = .next (if 63 ≤ r.meas.length then calDone v else v) := by
  intro v
  show execLoopbackMeasurement d s = _
  unfold execLoopbackMeasurement
  rw [run]
  dsimp only
  rw [if_neg (by rw [loopback]; nofun)]
  show (if 63 ≤ r.meas.length then Host.Outcome.next (calDone v) else Host.Outcome.next v) = _
  split
  · rfl
  · rfl

end

end Sys2Proof.Machine

namespace Sys2Proof.Machine

/-- Newt's opcodes: which wait for the commit point, which act at acceptance, which read the snapshot. -/
theorem newtOpcodes :
    Waits accConfigSpec .accConfig id ∧ Waits accStartSpec .accStart id ∧ Acts accCalibrateSpec .accCalibrate id ∧ Acts accHelloSpec .accPhHello id ∧ Acts accResponseSpec .accPhResponse id
      ∧ Acts accPresenceSpec .accPhPresence id ∧ Waits immoStartSpec .immoStart id ∧ Waits immoRevokeSpec .immoRevoke id ∧ Tells accStatusSpec .accStatus id ∧ Waits accClearSpec .accClear id
      ∧ Waits accLockClearSpec .accLockClear id ∧ Tells accLockStatusSpec .accLockStatus id := by
  refine ⟨?_, ?_, ?_, ?_, ?_, ?_, ?_, ?_, ?_, ?_, ?_, ?_⟩
  · exact waits_of _ _ _ rfl rfl (fun _ _ _ => rfl)
  · exact waits_of _ _ _ rfl rfl (fun _ _ _ => rfl)
  · exact acts_of _ _ _ rfl rfl (fun r s => accCalibrateSpec_frame r s .ctxs (by decide)) (fun _ _ _ => rfl)
  · exact acts_of _ _ _ rfl rfl (fun r s => accHelloSpec_frame r s .ctxs (by decide)) (fun _ _ _ => rfl)
  · exact acts_of _ _ _ rfl rfl (fun r s => accResponse_only r s .ctxs (by decide)) (fun _ _ _ => rfl)
  · exact acts_of _ _ _ rfl rfl (fun r s => accPresenceSpec_frame r s .ctxs (by decide)) (fun _ _ _ => rfl)
  · exact waits_of _ _ _ rfl rfl (fun _ _ _ => rfl)
  · exact waits_of _ _ _ rfl rfl (fun _ _ _ => rfl)
  · exact tells_of _ _ _ rfl (.inl rfl) rfl (fun _ _ _ => rfl)
  · exact waits_of _ _ _ rfl rfl (fun _ _ _ => rfl)
  · exact waits_of _ _ _ rfl rfl (fun _ _ _ => rfl)
  · exact tells_of _ _ _ rfl (.inl rfl) rfl (fun _ _ _ => rfl)

section
variable {s : State} {t : Tb} {k : LockRec}

/-- Five failures within 120 s lock an identity, for 180 s at first and twice as long each time up to 2,880 s (R523). -/
theorem failStep_counts (free : lockedAt k t = false) :
    let r := failStep 5 120 false t k
    (k.fails.length < 4 → r.2 = false ∧ r.1.fails = t :: k.fails ∧ r.1.lockEnd = k.lockEnd ∧ r.1.repeats = k.repeats)
      ∧ (∀ pre old, k.fails = pre ++ [old] → pre.length = 3 → ((t - old).toNat ≤ 120 * 50000000 → r.2 = true ∧ r.1.fails = [] ∧ r.1.repeats = k.repeats + 1 ∧ r.1.lockEnd = some (t + secTicks r.1.dur)
            ∧ (k.repeats = 0 → r.1.dur = 180) ∧ (k.repeats ≠ 0 → r.1.dur = min 2880 (2 * k.dur)))
          ∧ (120 * 50000000 < (t - old).toNat → r.2 = false ∧ r.1.fails = t :: k.fails ∧ r.1.lockEnd = k.lockEnd)) := by
  refine ⟨fun few => ?_, fun pre old fails three => ⟨fun near => ?_, fun far => ?_⟩⟩
  · rw [failStep_few free few]
    exact ⟨rfl, rfl, rfl, rfl⟩
  · rw [failStep_fifth free fails three, if_pos near]
    exact ⟨rfl, rfl, rfl, rfl, fun first => if_pos first, fun again => if_neg again⟩
  · rw [failStep_fifth free fails three, if_neg (Nat.not_le.mpr far)]
    exact ⟨rfl, rfl, rfl⟩

theorem lockRepeat_ends {kind id : Nat} {f : Tb} (failed : (s.lock kind id).lastFail = some f) (identity : 2 ≤ kind) (repeats : (s.lock kind id).repeats ≠ 0) :
    ∃ u, exec (.lockRepeatReset kind id) s = .next u ∧ u.lock kind id = { s.lock kind id with repeats := 0 }
      ∧ (∀ k, k ≠ lockKey kind id → tget lockDef u.acc.locks k = tget lockDef s.acc.locks k) ∧ Only [.time, .qf, .acc] s u :=
  ⟨_, lockRepeatReset_ends failed identity repeats, lockTouched kind id _ _⟩

theorem lock_ends {kind id : Nat} {e : Tb} (locked : (s.lock kind id).lockEnd = some e) :
    ∃ u, exec (.lockExpiry kind id) s = .next u ∧ u.lock kind id = { s.lock kind id with lockEnd := none }
      ∧ (∀ k, k ≠ lockKey kind id → tget lockDef u.acc.locks k = tget lockDef s.acc.locks k) ∧ Only [.time, .qf, .acc] s u :=
  ⟨_, lockExpiry_ends locked, lockTouched kind id _ _⟩

theorem phoneExchangeTimeout_none {e : Nat} (free : s.exch e = none) : exec (.phoneExchangeTimeout e) s = .next s := by
  show execPhoneExchangeTimeout e s = _
  unfold execPhoneExchangeTimeout
  rw [free]

theorem phoneExchangeTimeout_denies {e : Nat} {x : Exch} (exchange : s.exch e = some x) : exec (.phoneExchangeTimeout e) s =
    .next (phoneDecide e x 2 0 7 x.reqSeq (accFail 1 (some (3, x.cred)) (advTo (x.chalTb + msTicks 30) s))).1 := by
  show execPhoneExchangeTimeout e s = _
  unfold execPhoneExchangeTimeout
  rw [exchange]

/-- A reply of a known token in its slot, under a key it may use (R513): the right MAC makes it valid, any other a failure. -/
theorem judge_judges {a : Attempt} {k : Nat} {p e : Rec} (inSlot : (slotDelta s.acc.cfg a.tEnd t k (s.acc.cal.getD 0)).natAbs ≤ 100)
    (known : (tokens s).find? (fun e => tkTid e = rd p 0 4) = some e) (free : lockedFor s (rd p 0 4) a.first = false) (own : k = (if a.sweep = 0 then tkIndex e % 8 else 0))
    (usable : keyOk s (tkSlot e) [1, 2] 4 = true) :
    let ok := sub p 20 8 = (cmac (replyKey a p e s) (le 4 (afVid s.acc.cfg) ++ le 4 (rd p 0 4) ++ a.nv ++ sub p 4 8 ++ sub p 12 8)).take 8
    (ok → ∃ v w, judge a t k p s = onAtt (fun a => { a with valid := a.valid ++ [v] }) (accValid 2 (rd p 0 4) w) ∧ v.index = tkIndex e ∧ v.immo = tkImmo e ∧ v.zone = zoneOf w a.void (sub p 12 8)
        ∧ v.score = driverScore w a.void (sub p 12 8) ∧ Only [.qf, .keys] s w)
      ∧ (¬ok → ∃ w, judge a t k p s = accFail 0 (some (2, rd p 0 4)) w ∧ Only [.qf, .keys] s w) := by
  have judged := judge_key inSlot known free own usable
  refine ⟨fun ok => ?_, fun bad => ?_⟩
  · exact ⟨replyToken a k p e (replyKey a p e s) (takeUse (tkSlot e) s), takeUse (tkSlot e) s, judged.trans (if_pos ok), rfl, rfl, rfl, rfl, takeUse_frame _ s⟩
  · exact ⟨takeUse (tkSlot e) s, judged.trans (if_neg bad), takeUse_frame _ s⟩

end

/-- Settles O57: Newt's opcodes, LF plans, replies, decisions, the phone path, locks and the immobiliser, each part by the lemma of its own command. -/
theorem accessAndImmobiliser : Obligations.AccessAndImmobiliser := by
  unfold Obligations.AccessAndImmobiliser
  obtain ⟨config, start, calibrate, hello, response, presence, immoStart, immoRevoke, status, clear, lockClear, lockStatus⟩ := newtOpcodes
  refine ⟨config, start, calibrate, hello, response, presence, immoStart, immoRevoke, status, clear, lockClear, lockStatus, ?_, accLockClear_clears, fun r s => accStart_places r, accHello_opens,
    fun r s x => accResponse_allows, fun e dec cause zone x q s => phoneDecide_decides e dec cause zone x q, fun e s => ⟨phoneExchangeTimeout_none, fun x => phoneExchangeTimeout_denies⟩,
    fun r s p => accPresence_refreshes, fun t k => failStep_locked, fun t k => failStep_counts, ?_, ?_, ?_, ?_, ?_, ?_, ?_, ?_, ?_, ?_⟩
  · exact fun r s => ⟨rfl, accConfigSpec_frame r s, rfl, accClearSpec_frame r s, immoEnd_immo 2 s, immoStart_authorised r, immoRevokeSpec_frame r s⟩
  · exact fun kind id s => ⟨lockExpiry_none, lockRepeatReset_none, fun e => lock_ends, fun f => lockRepeat_ends⟩
  · intro a s attempt up f waits due ok
    have starts := lfPlanStart_starts attempt up waits due
    refine ⟨fun usable => ⟨_, starts.trans (congrArg _ (if_pos usable)), ?_, rfl, onAtt_frame _ s⟩, fun unusable => starts.trans (congrArg _ (if_neg (Bool.eq_false_iff.mp unusable)))⟩
    rw [onAtt_att, attempt]
    rfl
  · exact fun a f k x s attempt plan next => ⟨lfStepStart_aborts attempt plan, lfStepStart_takes attempt plan next⟩
  · exact fun n short s => ⟨lfAerialFault_quiet short, lfAerialFault_stops short⟩
  · exact fun a t p s attempt => ⟨uhfReply_deaf t p attempt, uhfReply_open t p attempt⟩
  · exact fun a t k p e s => judge_judges
  · intro a s attempt step open_ up q
    refine ⟨accessDecision_aborts attempt step open_ up, accessDecision_polls attempt step open_ up, fun running kind due => ?_, accessDecision_decides attempt step open_ up⟩
    exact (accessDecision_attempt attempt step open_ up running kind).trans (congrArg _ (if_pos due))
  · exact fun a i s attempt up => ⟨resweepStart_none attempt, resweepStart_starts attempt up⟩
  · exact fun d s => ⟨calRepeat_idle, calRepeat_starts, fun r => loopbackMeasurement_measures d⟩
  · exact fun s up => ⟨immoReqRetry_again up, immoReqRetry_givesUp up, immoReqRetry_idle, immoReleasePeriod_counts up, immoReleasePeriod_wraps up, immoReleasePeriod_idle, presencePoll_idle,
      presencePoll_polls up, fun t => immoAbsentTimeout_ends up, immoAbsentTimeout_idle⟩

end Sys2Proof.Machine

namespace Sys2Proof.Machine

/-! ### What keeps the table of owners and generations well formed (R164, R165) -/

/-- A table of roles in its canonical form in which no unit has generation 0000h (R164). -/
def RolesOk (t : Tab Role) : Prop := twf roleDef t = true ∧ ∀ k, (tget roleDef t k).gen ≠ 0

theorem rolesOk_iff (s : State) : RolesOk s.roles ↔ twf roleDef s.roles = true ∧ GensOk s := Iff.rfl

theorem rolesOk_nil : RolesOk [] := ⟨rfl, fun _ => (by decide : Role.initial.gen ≠ 0)⟩

theorem RolesOk.tput {t : Tab Role} (h : RolesOk t) (k : Nat) {r : Role} (hr : r.gen ≠ 0) : RolesOk (tput roleDef t k r) := by
  refine ⟨twf_tput roleDef k r h.1, fun j => ?_⟩
  by_cases hj : j = k
  · rw [hj, tget_tput_same]
    exact hr
  · rw [tget_tput_other roleDef t r hj]
    exact h.2 j

/-- The table of roles of `t` is well formed where that of `s` is. -/
structure RolesKept (s t : State) : Prop where
  ok : RolesOk s.roles → RolesOk t.roles

theorem RolesKept.refl (s : State) : RolesKept s s := ⟨id⟩

theorem RolesKept.trans {s t u : State} (h : RolesKept s t) (k : RolesKept t u) : RolesKept s u := ⟨k.ok ∘ h.ok⟩

theorem RolesKept.of_eq {s t : State} (h : t.roles = s.roles) : RolesKept s t := ⟨fun k => h ▸ k⟩

theorem RolesKept.of_frame {l : List Part} {s t : State} (h : Only l s t) (n : Part.roles ∉ l) : RolesKept s t := .of_eq (h .roles n)

/-- An operation that leaves the roles alone keeps their table. -/
theorem RolesKept.next {s t u : State} {l : List Part} (h : RolesKept s t) (k : Only l t u) (n : Part.roles ∉ l) : RolesKept s u :=
  h.trans (.of_frame k n)

theorem RolesKept.ite {s a b : State} {c : Prop} {_ : Decidable c} (h : RolesKept s a) (k : RolesKept s b) : RolesKept s (if c then a else b) := by
  split <;> assumption

theorem RolesKept.maybe {s t u : State} {l : List Part} {p : Prop} {_ : Decidable p} (h : RolesKept s t) (k : Only l t u) (n : Part.roles ∉ l) :
    RolesKept s (if p then u else t) := .ite (h.next k n) h

theorem RolesKept.foldl {α : Type} {s t : State} {f : State → α → State} (h : RolesKept s t) (hf : ∀ u a, RolesKept u (f u a)) (l : List α) : RolesKept s (l.foldl f t) :=
  foldl_keeps (RolesKept s) f (fun u a k => k.trans (hf u a)) l t h

/-! ### Reassignments and changes of owner -/

theorem reassign_rolesKept (t i : Nat) (s : State) : RolesKept s (reassign t i s) := ⟨fun h => h.tput _ (nextGen_ne_zero _)⟩

theorem giveUnit_rolesKept (t i o : Nat) (s : State) : RolesKept s (giveUnit t i o s) := ⟨fun h => h.tput _ (nextGen_ne_zero _)⟩

theorem RolesKept.reassignUnless {s u : State} {p : Prop} {_ : Decidable p} (h : RolesKept s u) (t i : Nat) : RolesKept s (if p then u else reassign t i u) :=
  .ite h (h.trans (reassign_rolesKept t i u))

theorem RolesKept.reassignWhere {s u : State} {p : Prop} {_ : Decidable p} (h : RolesKept s u) (t i : Nat) : RolesKept s (if p then reassign t i u else u) :=
  .ite (h.trans (reassign_rolesKept t i u)) h

theorem handQueue_rolesKept (q o : Nat) (s : State) : RolesKept s (handQueue q o s) := by
  unfold handQueue
  refine RolesKept.trans ?_ (giveUnit_rolesKept 3 q o _)
  exact ((RolesKept.refl s).maybe (gwUnbind_frame q s) (by decide)).next (onQueue_frame q _ _) (by decide)

theorem transferUnit_rolesKept (t i o : Nat) (s : State) : RolesKept s (transferUnit t i o s) := by
  have given : RolesKept s (if t = 3 then handQueue i o s else giveUnit t i o s) := .ite (handQueue_rolesKept i o s) (giveUnit_rolesKept t i o s)
  unfold transferUnit
  refine RolesKept.ite (.refl s) ?_
  dsimp only
  split
  · exact given.trans (giveUnit_rolesKept t _ o _)
  · exact given

/-! ### The opcodes that reassign units (R165) -/

/-- An execution of the opcode keeps the table of roles. -/
def OpSpec.KeepsRoles (o : OpSpec) : Prop := ∀ r s, RolesKept s (o.run r s).st

theorem OpSpec.KeepsRoles.of_frame {o : OpSpec} {l : List Part} (h : ∀ r s, Only l s (o.run r s).st) (n : Part.roles ∉ l) : o.KeepsRoles :=
  fun r s => RolesKept.of_frame (h r s) n

theorem unitClaimSpec_keepsRoles : unitClaimSpec.KeepsRoles := fun r s => transferUnit_rolesKept (rd r.b 0 1) (unitIx r.b) (rd r.b 6 1) s

theorem qConfigSpec_keepsRoles : qConfigSpec.KeepsRoles := fun _ s => ((RolesKept.of_frame (onQueue_frame _ _ s) (by decide)).reassignWhere 3 _).next (qNotices_frame _ _ _) (by decide)

theorem cmpSetSpec_keepsRoles : cmpSetSpec.KeepsRoles := fun _ s => (RolesKept.of_frame (onCom_frame _ s) (by decide)).reassignWhere 7 _

theorem chConfigSpec_keepsRoles : chConfigSpec.KeepsRoles := fun r s => by
  show RolesKept s (chConfigRun r s).st
  unfold chConfigRun
  have own (f : Com → Com) : RolesKept s (if cfMode (sub r.b 8 16) ≠ cfMode (s.com.chCfgOf (unitIx r.b)) then reassign 1 (unitIx r.b) (onCom f s) else s) :=
    .ite ((RolesKept.of_frame (onCom_frame f s) (by decide)).trans (reassign_rolesKept 1 _ _)) (.refl s)
  have stored (f : Com → Com) := (own f).next (putChCfg_frame (unitIx r.b) (sub r.b 8 16) _) (by decide)
  exact RolesKept.ite ((((stored _).next (onCom_frame _ _) (by decide)).next (putChCfg_frame _ _ _) (by decide)).trans (reassign_rolesKept 1 _ _)) (stored _)

theorem lsConfigSpec_keepsRoles : lsConfigSpec.KeepsRoles := fun _ s => ((RolesKept.refl s).reassignUnless 2 _).next (onCom_frame _ _) (by decide)

theorem canConfigSpec_keepsRoles : canConfigSpec.KeepsRoles := fun _ s => ((RolesKept.refl s).reassignUnless 4 _).next (onCan_frame _ _ _) (by decide)

theorem linConfigSpec_keepsRoles : linConfigSpec.KeepsRoles := fun _ s => ((RolesKept.refl s).reassignUnless 4 _).next (onLin_frame _ _ _) (by decide)

theorem ethConfigSpec_keepsRoles : ethConfigSpec.KeepsRoles := fun _ s =>
  ((RolesKept.of_frame (ethInstall_frame _ _ _ s) (by decide)).maybe (ethDown_frame _ _) (by decide)).reassignUnless 4 _

theorem storeKey_rolesKept (n : Nat) (c : Rec) (s : State) : RolesKept s (storeKey n c s) :=
  (RolesKept.of_frame (onKey_frame n _ s) (by decide)).trans (reassign_rolesKept 6 n _)

theorem keyWriteSpec_keepsRoles : keyWriteSpec.KeepsRoles := fun _ s => storeKey_rolesKept _ _ s

theorem keyGenkeySpec_keepsRoles : keyGenkeySpec.KeepsRoles := fun _ s => (RolesKept.of_frame (useFree_frame s) (by decide)).trans (storeKey_rolesKept _ _ _)

end Sys2Proof.Machine

namespace Sys2Proof.Machine

/-! ### Every opcode keeps the table of roles -/

/-- Every opcode of a list keeps the table of roles. -/
def OpsKeepRoles (l : List OpSpec) : Prop := ∀ o ∈ l, o.KeepsRoles

theorem OpsKeepRoles.append {l m : List OpSpec} (h : OpsKeepRoles l) (k : OpsKeepRoles m) : OpsKeepRoles (l ++ m) := List.forall_mem_append.2 ⟨h, k⟩

theorem specsSysCmds_keepRoles : OpsKeepRoles specsSysCmds := by
  simp only [OpsKeepRoles, specsSysCmds, List.forall_mem_cons]
  exact ⟨.of_frame pingSpec_frame (by decide), .of_frame getInfoSpec_frame (by decide), .of_frame ctxResetSpec_frame (by decide), unitClaimSpec_keepsRoles, .of_frame ctxConfigSpec_frame (by decide),
    List.forall_mem_nil _⟩

theorem specsMemory_keepRoles : OpsKeepRoles specsMemory := by
  simp only [OpsKeepRoles, specsMemory, List.forall_mem_cons]
  exact ⟨.of_frame memReadSpec_frame (by decide), .of_frame memWriteSpec_frame (by decide), List.forall_mem_nil _⟩

theorem specsSchedCmds_keepRoles : OpsKeepRoles specsSchedCmds := by
  simp only [OpsKeepRoles, specsSchedCmds, List.forall_mem_cons]
  exact ⟨.of_frame modeSelectSpec_frame (by decide), .of_frame schedStatusSpec_frame (by decide), .of_frame schedUnitSpec_frame (by decide), List.forall_mem_nil _⟩

theorem specsQueueCmds_keepRoles : OpsKeepRoles specsQueueCmds := by
  simp only [OpsKeepRoles, specsQueueCmds, List.forall_mem_cons]
  exact ⟨qConfigSpec_keepsRoles, .of_frame qPushSpec_frame (by decide), .of_frame qReadSpec_frame (by decide), .of_frame qMarkSpec_frame (by decide), .of_frame qRewindSpec_frame (by decide),
    .of_frame qReleaseSpec_frame (by decide), .of_frame qStatusSpec_frame (by decide), .of_frame qAuditSpec_frame (by decide), List.forall_mem_nil _⟩

theorem specsChannels_keepRoles : OpsKeepRoles specsChannels := by
  simp only [OpsKeepRoles, specsChannels, List.forall_mem_cons]
  exact ⟨chConfigSpec_keepsRoles, .of_frame chSetSpec_frame (by decide), .of_frame chStatusSpec_frame (by decide), .of_frame chClearDiagSpec_frame (by decide), .of_frame lhConfigSpec_frame (by decide),
    .of_frame lhStatusSpec_frame (by decide), List.forall_mem_nil _⟩

theorem specsProtection_keepRoles : OpsKeepRoles specsProtection := by
  simp only [OpsKeepRoles, specsProtection, List.forall_mem_cons]
  exact ⟨.of_frame chProtConfigSpec_frame (by decide), .of_frame chClearProtSpec_frame (by decide), .of_frame chProtStatusSpec_frame (by decide), .of_frame supplyStatusSpec_frame (by decide),
    List.forall_mem_nil _⟩

theorem specsInductive_keepRoles : OpsKeepRoles specsInductive := by
  simp only [OpsKeepRoles, specsInductive, List.forall_mem_cons]
  exact ⟨.of_frame indConfigSpec_frame (by decide), .of_frame indSetSpec_frame (by decide), .of_frame indStatusSpec_frame (by decide), .of_frame indClearSpec_frame (by decide), List.forall_mem_nil _⟩

theorem specsBridges_keepRoles : OpsKeepRoles specsBridges := by
  simp only [OpsKeepRoles, specsBridges, List.forall_mem_cons]
  exact ⟨.of_frame brConfigSpec_frame (by decide), .of_frame brSetSpec_frame (by decide), .of_frame brStatusSpec_frame (by decide), .of_frame brClearSpec_frame (by decide), .of_frame brPosSetSpec_frame (by decide),
    List.forall_mem_nil _⟩

theorem specsLighting_keepRoles : OpsKeepRoles specsLighting := by
  simp only [OpsKeepRoles, specsLighting, List.forall_mem_cons]
  exact ⟨lsConfigSpec_keepsRoles, .of_frame lsSetSpec_frame (by decide), .of_frame lsStatusSpec_frame (by decide), .of_frame lsClearSpec_frame (by decide), .of_frame lightConfigSpec_frame (by decide),
    .of_frame lightStageSpec_frame (by decide), .of_frame lightDiscardSpec_frame (by decide), .of_frame lightCommitSpec_frame (by decide), .of_frame lightStatusSpec_frame (by decide), List.forall_mem_nil _⟩

theorem specsTasks_keepRoles : OpsKeepRoles specsTasks := by
  simp only [OpsKeepRoles, specsTasks, List.forall_mem_cons]
  exact ⟨.of_frame taskControlSpec_frame (by decide), .of_frame taskStatusSpec_frame (by decide), .of_frame taskParamSpec_frame (by decide), .of_frame coreStatusSpec_frame (by decide), List.forall_mem_nil _⟩

theorem specsCan_keepRoles : OpsKeepRoles specsCan := by
  simp only [OpsKeepRoles, specsCan, List.forall_mem_cons]
  exact ⟨canConfigSpec_keepsRoles, .of_frame canWakeConfigSpec_frame (by decide), .of_frame canFiltWriteSpec_frame (by decide), .of_frame canFiltApplySpec_frame (by decide),
    .of_frame canControlSpec_frame (by decide), .of_frame canStatusSpec_frame (by decide), List.forall_mem_nil _⟩

theorem specsLin_keepRoles : OpsKeepRoles specsLin := by
  simp only [OpsKeepRoles, specsLin, List.forall_mem_cons]
  exact ⟨linConfigSpec_keepsRoles, .of_frame linSetSpec_frame (by decide), .of_frame linControlSpec_frame (by decide), .of_frame linStatusSpec_frame (by decide), .of_frame gwBindSpec_frame (by decide),
    .of_frame gwStatusSpec_frame (by decide), List.forall_mem_nil _⟩

theorem specsEth_keepRoles : OpsKeepRoles specsEth := by
  simp only [OpsKeepRoles, specsEth, List.forall_mem_cons]
  exact ⟨ethConfigSpec_keepsRoles, .of_frame ethStatusSpec_frame (by decide), List.forall_mem_nil _⟩

theorem specsAccessCmds_keepRoles : OpsKeepRoles specsAccessCmds := by
  simp only [OpsKeepRoles, specsAccessCmds, List.forall_mem_cons]
  exact ⟨.of_frame accConfigSpec_frame (by decide), .of_frame accStartSpec_frame (by decide), .of_frame accCalibrateSpec_frame (by decide), .of_frame accHelloSpec_frame (by decide),
    .of_frame accResponseSpec_frame (by decide), .of_frame accPresenceSpec_frame (by decide), .of_frame immoStartSpec_frame (by decide), .of_frame immoRevokeSpec_frame (by decide),
    .of_frame accStatusSpec_frame (by decide), .of_frame accClearSpec_frame (by decide), .of_frame accLockClearSpec_frame (by decide), .of_frame accLockStatusSpec_frame (by decide), List.forall_mem_nil _⟩

theorem specsKeys_keepRoles : OpsKeepRoles specsKeys := by
  simp only [OpsKeepRoles, specsKeys, List.forall_mem_cons]
  exact ⟨keyWriteSpec_keepsRoles, keyGenkeySpec_keepsRoles, .of_frame keyInfoSpec_frame (by decide), .of_frame keyMacSpec_frame (by decide), .of_frame keyCipherSpec_frame (by decide),
    .of_frame keySignSpec_frame (by decide), .of_frame keyEcdhSpec_frame (by decide), .of_frame keyAttestSpec_frame (by decide), List.forall_mem_nil _⟩

theorem specsFaults_keepRoles : OpsKeepRoles specsFaults := by
  simp only [OpsKeepRoles, specsFaults, List.forall_mem_cons]
  exact ⟨.of_frame fltConfigSpec_frame (by decide), .of_frame fltStatusSpec_frame (by decide), .of_frame fltHistorySpec_frame (by decide), .of_frame fltStickySpec_frame (by decide),
    .of_frame fltClearSpec_frame (by decide), .of_frame fltGlobalSpec_frame (by decide), List.forall_mem_nil _⟩

theorem specsPower_keepRoles : OpsKeepRoles specsPower := by
  simp only [OpsKeepRoles, specsPower, List.forall_mem_cons]
  exact ⟨.of_frame pwrConfigSpec_frame (by decide), .of_frame pwrSetSpec_frame (by decide), .of_frame pwrStatusSpec_frame (by decide), .of_frame padReleaseSpec_frame (by decide),
    .of_frame pwrWakeListSpec_frame (by decide), .of_frame hearthRestartSpec_frame (by decide), List.forall_mem_nil _⟩

theorem specsUpdate_keepRoles : OpsKeepRoles specsUpdate := by
  simp only [OpsKeepRoles, specsUpdate, List.forall_mem_cons]
  exact ⟨.of_frame updBeginSpec_frame (by decide), .of_frame updWriteSpec_frame (by decide), .of_frame updFinishSpec_frame (by decide), .of_frame updVerifySpec_frame (by decide),
    .of_frame updActivateSpec_frame (by decide), .of_frame updCancelSpec_frame (by decide), .of_frame updConfirmSpec_frame (by decide), .of_frame updRollbackSpec_frame (by decide),
    .of_frame updServiceSpec_frame (by decide), .of_frame updStatusSpec_frame (by decide), .of_frame schedCheckSpec_frame (by decide), List.forall_mem_nil _⟩

theorem specsInputs_keepRoles : OpsKeepRoles specsInputs := by
  simp only [OpsKeepRoles, specsInputs, List.forall_mem_cons]
  exact ⟨.of_frame inConfigSpec_frame (by decide), .of_frame inGlobalSpec_frame (by decide), .of_frame inStatusSpec_frame (by decide), .of_frame inCfgReadSpec_frame (by decide), .of_frame monReadSpec_frame (by decide),
    List.forall_mem_nil _⟩

theorem specsTimeBase_keepRoles : OpsKeepRoles specsTimeBase := by
  simp only [OpsKeepRoles, specsTimeBase, List.forall_mem_cons]
  exact ⟨.of_frame tbReadSpec_frame (by decide), .of_frame timeAnchorSpec_frame (by decide), cmpSetSpec_keepsRoles, .of_frame cmpStatusSpec_frame (by decide), .of_frame tmrConfigSpec_frame (by decide),
    .of_frame tmrStatusSpec_frame (by decide), List.forall_mem_nil _⟩

theorem allSpecs_keepRoles : OpsKeepRoles allSpecs :=
  specsSysCmds_keepRoles.append specsMemory_keepRoles |>.append specsSchedCmds_keepRoles |>.append specsQueueCmds_keepRoles |>.append specsChannels_keepRoles
    |>.append specsProtection_keepRoles |>.append specsInductive_keepRoles |>.append specsBridges_keepRoles |>.append specsLighting_keepRoles
    |>.append specsTasks_keepRoles |>.append specsCan_keepRoles |>.append specsLin_keepRoles |>.append specsEth_keepRoles |>.append specsAccessCmds_keepRoles
    |>.append specsKeys_keepRoles |>.append specsFaults_keepRoles |>.append specsPower_keepRoles |>.append specsUpdate_keepRoles |>.append specsInputs_keepRoles
    |>.append specsTimeBase_keepRoles

/-- Every opcode that a table answers keeps the table of roles. -/
def TabKeepsRoles (tab : Nat → Option OpSpec) : Prop := ∀ c o, tab c = some o → o.KeepsRoles

theorem opSpec_keepsRoles : TabKeepsRoles opSpec := fun _ o h => allSpecs_keepRoles o (List.mem_of_find?_eq_some h)

end Sys2Proof.Machine

namespace Sys2Proof.Machine

/-! ### Packets and batches keep the table of roles -/

theorem acceptOne_rolesKept {o : OpSpec} (h : o.KeepsRoles) (p : Pkt) (s : State) : RolesKept s (acceptOne o p s) := by
  have woken := RolesKept.of_frame (hostWake_frame o p.h.ctx s) (by decide)
  unfold acceptOne
  dsimp only
  split
  · exact .of_frame (respond_frame _ _ _ _ _ _ s) (by decide)
  · split
    · exact .of_frame (respond_frame _ _ _ _ _ _ s) (by decide)
    · exact .of_frame (respond_frame _ _ _ _ _ _ s) (by decide)
    · exact (woken.trans (h _ _)).next (respond_frame _ _ _ _ _ _ _) (by decide)
    · exact woken.trans (.of_eq rfl)

section
variable {tab : Nat → Option OpSpec} (hk : TabKeepsRoles tab)
include hk

theorem acceptPkt_rolesKept (p : Pkt) (s : State) : RolesKept s (acceptPkt tab p s) := by
  unfold acceptPkt
  dsimp only
  split
  · refine RolesKept.next ?_ (onCtx_frame _ _ _) (by decide)
    exact ((RolesKept.of_frame (refuseEarly_frame p .busy 0 s) (by decide)).next (onCtx_frame _ _ _) (by decide)).foldl (fun t q => .of_frame (refuseEarly_frame q .busy 0 t) (by decide)) _
  · have noted (f : Ctx → Ctx) := RolesKept.of_frame (onCtx_frame p.h.ctx f s) (by decide)
    split
    · exact ((noted _).next (onCtx_frame _ _ _) (by decide)).next (acceptMember_frame tab p _) (by decide)
    · split
      · exact (noted _).next (respond_frame _ _ _ _ _ _ _) (by decide)
      · exact (noted _).trans (acceptOne_rolesKept (hk _ _ ‹_›) p _)

theorem tryAccept_rolesKept (c : Nat) (s : State) : RolesKept s (tryAccept tab c s) := by
  unfold tryAccept
  dsimp only
  split
  · exact .refl s
  · have taken (f : Ctx → Ctx) := RolesKept.of_frame (onCtx_frame c f s) (by decide)
    refine .ite ((taken _).trans (acceptPkt_rolesKept hk _ _)) (.ite ?_ (.refl s))
    exact ((taken _).next (chargeShare_frame c _ _) (by decide)).trans (acceptPkt_rolesKept hk _ _)

theorem deliver_rolesKept (p : Pkt) (s : State) : RolesKept s (deliver tab p s) := by
  have arrived := RolesKept.of_frame (arrive_frame p s) (by decide)
  unfold deliver
  refine .ite (.of_frame (refuseEarly_frame _ _ _ s) (by decide)) (.ite (.of_frame (refuseEarly_frame _ _ _ s) (by decide)) ?_)
  split
  · rename_i e
    rw [e] at arrived
    exact arrived
  · rename_i t e
    rw [e] at arrived
    have waits := arrived.next (onCtx_frame p.h.ctx (fun x => { x with waiting := x.waiting ++ [p] }) t) (by decide)
    exact .ite ((RolesKept.ite waits (waits.next (onCtx_frame _ _ _) (by decide))).trans (tryAccept_rolesKept hk _ _)) (waits.next (onCtx_frame _ _ _) (by decide))

theorem submit_rolesKept (o : OpSpec) (h : Hdr) (b : Rec) (s : State) : RolesKept s (submit o h b tab s) := by
  unfold submit
  exact .ite (.refl s) (.ite (.of_frame (unboundPacket_frame s) (by decide)) (deliver_rolesKept hk _ s))

/-! Packets back to back, from HSPI and Ethernet. -/

section
variable {unbound : State → State} (hu : ∀ s, RolesKept s (unbound s))
include hu

theorem takePacket_rolesKept (bound : Option Nat) (b : Rec) (s : State) : RolesKept s (takePacket tab bound b unbound s) := by
  unfold takePacket
  dsimp only
  split
  · exact .ite (.refl s) (hu s)
  · refine .ite (.of_frame (refuseEarly_frame _ _ _ s) (by decide)) ?_
    split
    · exact .ite (.of_frame (refuseEarly_frame _ _ _ s) (by decide)) (hu s)
    · exact .ite (hu s) (deliver_rolesKept hk _ s)

theorem takePackets_rolesKept (bound : Option Nat) (pad : Bool) (cause n : Nat) (b : Rec) (s : State) : RolesKept s (takePackets tab bound unbound pad cause n b s) := by
  induction n generalizing b s with
  | zero => exact .refl s
  | succ n ih =>
    unfold takePackets
    refine .ite (.refl s) (.ite ?_ ((takePacket_rolesKept hk hu bound _ s).trans (ih _ _)))
    split
    · exact .of_frame (linkRestart_frame _ _ s) (by decide)
    · exact .refl s

end

theorem ethReceive_rolesKept (p : Nat) (f : EthFrame) (s : State) : RolesKept s (ethReceive tab p f s) := by
  have port (g : EthPort → EthPort) (t : State) := RolesKept.of_frame (onEth_frame p g t) (by decide)
  unfold ethReceive
  refine .ite (.refl s) (.ite (port _ s) ?_)
  split
  · dsimp only
    split
    · exact (port _ s).next (raise_frame _ _ _) (by decide)
    · exact port _ s
  · have unbound (t : State) := (port (fun k => { k with bindCount := k.bindCount + 1 }) t).next (raise_frame 5 0 _) (by decide)
    refine RolesKept.trans ?_ (.ite (port _ _) ((port _ _).trans (takePackets_rolesKept hk unbound _ _ _ _ _ _)))
    split
    · exact port _ s
    · exact port _ s
    · exact .refl s

/-! Batches at their commit point. -/

theorem commitMembers_rolesKept {e : Fn} {m : Option Nat} {cf : List Nat} {tg : Bool} {ps : List Pkt} {s t : State} {acc rs : List (Pkt × Status × Nat × Rec)}
    (h : commitMembers tab e m cf tg ps s acc = .ok (t, rs)) : RolesKept s t := by
  induction ps generalizing s acc with
  | nil =>
    unfold commitMembers at h
    cases h
    exact .refl _
  | cons p ps ih =>
    unfold commitMembers at h
    dsimp only at h
    split at h
    · cases h
    · rename_i o ho
      split at h
      · cases h
      · exact ((hk _ o ho _ s).next (onCom_frame _ _) (by decide)).trans (ih h)

theorem commitBatch_rolesKept (b : ClosedBatch) (s : State) : RolesKept s (commitBatch tab b s) := by
  unfold commitBatch
  dsimp only
  split
  · rename_i h
    exact ((commitMembers_rolesKept hk h).maybe (releaseRoom_frame _ _ _ _) (by decide)).next (commitReplies_frame _ _ _ _ _) (by decide)
  · exact ((RolesKept.refl s).maybe (releaseRoom_frame _ _ _ _) (by decide)).next (failReplies_frame _ _ _ _) (by decide)

end

theorem hostPacket_rolesKept (o : OpSpec) (h : Hdr) (b : Rec) (s : State) : RolesKept s (hostPacket o h b s) :=
  (submit_rolesKept opSpec_keepsRoles o h b s).next (ethDrain_frame _) (by decide)

theorem commitDue_rolesKept (n : Nat) (s : State) : RolesKept s (commitDue n s) := by
  induction n generalizing s with
  | zero => exact .refl s
  | succ n ih =>
    unfold commitDue
    split
    · exact .refl s
    · rename_i b _
      have erased : RolesKept s { s with closed := s.closed.erase b } := .of_eq rfl
      exact (erased.trans (commitBatch_rolesKept opSpec_keepsRoles b _)).trans (ih _)

end Sys2Proof.Machine

namespace Sys2Proof.Machine

/-! ### The settings areas that come back at a boot or a fall-back (R103, R627, R630) -/

/-- Generations after a fall-back: kept or passed on, never 0000h (R630). -/
theorem mergeRoles_ok {old : Tab Role} (h : RolesOk old) (new : Tab Role) : RolesOk (mergeRoles old new) := by
  refine foldl_keeps RolesOk _ (fun t k ht => ht.tput k ?_) _ _ rolesOk_nil
  dsimp only
  split
  · exact h.2 k
  · exact nextGen_ne_zero _

theorem restoreSettings_rolesKept (p : Settings) (s : State) : RolesKept s (restoreSettings p s) := by
  have merged : RolesKept s { s with roles := mergeRoles s.roles p.roles, com := p.com } := ⟨fun h => mergeRoles_ok h p.roles⟩
  unfold restoreSettings
  refine RolesKept.foldl ?_ (fun t q => .of_frame (onQueue_frame q _ t) (by decide)) _
  exact ((((merged.next (restorePorts_frame _ _) (by decide)).next (bindCtxs_frame _) (by decide)).next (onAcc_frame _ _) (by decide)).next (onPwr_frame _ _) (by decide)).next (onCes_frame _ _) (by decide)

theorem migrate_rolesKept (s : State) : RolesKept s (migrate s) := by
  have reassigned : RolesKept s ((convLost (ceSha s.activeImg 6) s ++ progTasks s).foldl (fun t u => reassign u.1 u.2 t) s) :=
    (RolesKept.refl s).foldl (fun t (u : Nat × Nat) => reassign_rolesKept u.1 u.2 t) _
  have converted (f : Com → Com) := reassigned.next (onCom_frame f _) (by decide)
  unfold migrate
  refine (((RolesKept.next ?_ (onPwr_frame _ _) (by decide)).next (onAcc_frame _ _) (by decide)).next (onUpd_frame _ _) (by decide))
  refine RolesKept.foldl (.foldl (.foldl (.foldl (.ite (converted _) ((converted _).next (bindCtxs_frame _) (by decide))) ?_ _) ?_ _) ?_ _) ?_ _
  · exact fun t e => .of_frame (onQueue_frame e.1 _ t) (by decide)
  · exact fun t e => .of_frame (onCan_frame e.1 _ t) (by decide)
  · exact fun t e => .of_frame (onLin_frame e.1 _ t) (by decide)
  · exact fun t e => .of_frame (onEth_frame e.1 _ t) (by decide)

/-- A stored generation of 0000h is not taken. -/
theorem rereadRoles_rolesKept (w : Tab (Option Octet)) (s : State) : RolesKept s (rereadRoles w s) := by
  unfold rereadRoles
  refine ⟨fun h => ?_⟩
  dsimp only
  refine foldl_keeps RolesOk _ (fun t k ht => ht.tput k ?_) _ _ h
  dsimp only
  split
  · exact ht.2 k
  · assumption

theorem rereadStore_rolesKept (s : State) : RolesKept s (rereadStore s) := by
  unfold rereadStore
  refine .ite (.refl s) (RolesKept.trans ?_ (rereadRoles_rolesKept _ _))
  exact (((((RolesKept.of_frame (onUpd_frame _ s) (by decide)).next (rereadCom_frame _ _) (by decide)).next (rereadQueues_frame _ _) (by decide)).next (rereadPorts_frame _ _) (by decide)).next (onAcc_frame _ _) (by decide)).next
    (onPwr_frame _ _) (by decide)

/-! ### Restarts, starts and activations of Hearth (R594, R600, R622 to R629) -/

theorem fallBack_rolesKept (s : State) : RolesKept s (fallBack s) := by
  have returned (m : Nat) (f : Upd → Upd) := (RolesKept.of_frame (onUpd_frame f s) (by decide)).next (setMark_frame m 3 _) (by decide)
  unfold fallBack
  refine .ite ((RolesKept.of_frame (onUpd_frame _ s) (by decide)).next (raise_frame _ _ _) (by decide)) ?_
  refine ((RolesKept.next ?_ (raise_frame _ _ _) (by decide)).next (hearthHalt_frame _) (by decide)).next (restartNote_frame _ _) (by decide)
  split
  · exact (returned _ _).trans (restoreSettings_rolesKept _ _)
  · exact returned _ _

theorem bootFailed_rolesKept (s : State) : RolesKept s (bootFailed s) := by
  have counted := RolesKept.of_frame (onUpd_frame (fun u => { u with failed := u.failed + 1 }) s) (by decide)
  exact .ite (.refl s) (.ite (counted.trans (fallBack_rolesKept _)) counted)

theorem hearthRestart_rolesKept (cause : Nat) (s : State) : RolesKept s (hearthRestart cause s) := by
  have noted := (RolesKept.of_frame (hearthHalt_frame s) (by decide)).next (restartNote_frame cause _) (by decide)
  exact .ite (noted.trans (bootFailed_rolesKept _)) noted

theorem activate_rolesKept (s : State) : RolesKept s (activate_ s) := (hearthRestart_rolesKept 5 s).next (onUpd_frame _ _) (by decide)

theorem activationDue_rolesKept (s : State) : RolesKept s (activationDue s) := .ite (activate_rolesKept s) (.refl s)

theorem startedUp_rolesKept (s : State) : RolesKept s (startedUp s) := .of_eq rfl

theorem hearthStart_rolesKept (bad : List Nat) (s : State) : RolesKept s (hearthStart bad s) := by
  unfold hearthStart
  extract_lets reread migrated ended passed noted scheduled suspended queues filters slept started unlit dark trained waits sns read
  have hr : RolesKept s reread := (RolesKept.of_frame (bootService_frame s) (by decide)).trans (rereadStore_rolesKept _)
  have hm : RolesKept s migrated := .ite (hr.trans (migrate_rolesKept _)) hr
  have hs : RolesKept s scheduled := ((hm.maybe (endSession_frame _) (by decide)).next (onUpd_frame _ ended) (by decide)).next (bootSchedule_frame noted) (by decide)
  have hl : RolesKept s suspended := .ite ((hs.next (canSuspend_frame false _) (by decide)).next (linSuspend_frame false _) (by decide)) hs
  have hf : RolesKept s filters := (hl.next (busQueuesStart_frame suspended) (by decide)).next (onBus_frame _ queues) (by decide)
  have hw : RolesKept s slept := hf.foldl (fun t n => .ite (.refl t) (.of_frame (onLin_frame _ _ t) (by decide))) _
  have hk : RolesKept s (fltStart (keysVerify bad (keysStart slept))) := ((hw.next (keysStart_frame _) (by decide)).next (keysVerify_frame bad _) (by decide)).next (fltStart_frame _) (by decide)
  have hp : RolesKept s started :=
    ((((hk.next (cesynStart_frame _) (by decide)).next (canStart_frame _) (by decide)).next (linStart_frame _) (by decide)).next (ethStart_frame _) (by decide)).next (accStart_frame _) (by decide)
  have ht : RolesKept s waits := ((hp.next (onLight_frame _ _) (by decide)).next (onLink_frame _ dark) (by decide)).next (onLink_frame _ trained) (by decide)
  have hq : RolesKept s read := ht.next (onMon_frame _ waits) (by decide)
  exact (((hq.trans (startedUp_rolesKept read)).next (clockSource_frame _) (by decide)).next (serviceBind_frame _) (by decide)).next (restartDone_frame _) (by decide)

end Sys2Proof.Machine

namespace Sys2Proof.Machine

/-! ### The commit point and the frame start keep the table of roles (R104, R152, R157, R159) -/

theorem batchTimeout_rolesKept (c : Nat) (s : State) : RolesKept s (batchTimeout c s) := by
  unfold batchTimeout
  split
  · exact .refl s
  · refine .ite (.refl s) (RolesKept.foldl ((RolesKept.of_frame (onCtx_frame c _ s) (by decide)).next (releaseRoom_frame _ _ _ _) (by decide)) (fun t p => ?_) _)
    split
    · exact .ite (.of_frame (respond_frame _ _ _ _ _ _ t) (by decide)) (.of_frame (respond_frame _ _ _ _ _ _ t) (by decide))
    · exact .of_frame (respond_frame _ _ _ _ _ _ t) (by decide)

/-- A context reset hands the units of its context to context 0, each with its reassignment (R104). -/
theorem resetUnit_rolesKept (k : Nat) (s : State) : RolesKept s (resetUnit k s) := by
  have given : RolesKept s (if k / 65536 = 3 then handQueue (k % 65536) 0 s else giveUnit (k / 65536) (k % 65536) 0 s) :=
    .ite (handQueue_rolesKept _ 0 s) (giveUnit_rolesKept _ _ 0 s)
  unfold resetUnit
  dsimp only
  generalize (if k / 65536 = 3 then handQueue (k % 65536) 0 s else giveUnit (k / 65536) (k % 65536) 0 s) = t at given ⊢
  have held (f : Com → Com) := (given.next (onCom_frame f t) (by decide)).next (holdStart_frame (k % 65536) _) (by decide)
  refine .ite (.ite given (.ite (.ite given ?_) (.ite ((held _).next (holdExpire_frame _ _) (by decide)) (held _)))) (.ite (given.next (sinkOrphan_frame _ t) (by decide)) given)
  exact (given.next (onCom_frame _ t) (by decide)).next (bridgeRampDown_frame _ _) (by decide)

theorem resetStart_rolesKept (c : Nat) (s : State) : RolesKept s (resetStart c s) := by
  unfold resetStart
  split
  · exact .refl s
  · refine .ite (.refl s) ?_
    have dropped : RolesKept s { s with closed := s.closed.filter (fun q => q.ctx ≠ c) } := .of_eq rfl
    have drained (f : Ctx → Ctx) (qs : List Nat) := (dropped.next (onCtx_frame c f _) (by decide)).foldl (fun t q => .of_frame (resetQueue_frame c q t) (by decide)) qs
    refine (((RolesKept.foldl (RolesKept.next ?_ (linToLimbo_frame c _) (by decide)) (fun t k => resetUnit_rolesKept k t) _).next (lightDiscard_frame c _) (by decide)).maybe
      (accCtxReset_frame _) (by decide)).maybe (endSession_frame _) (by decide) |>.maybe (onBus_frame _ _) (by decide)
    split
    · exact drained _ _
    · exact ((drained _ _).next (onCtx_frame c _ _) (by decide)).foldl (fun t q => .of_frame (refuseEarly_frame q .busy 0 t) (by decide)) _

theorem resetStarts_rolesKept (s : State) : RolesKept s (resetStarts s) := (RolesKept.refl s).foldl (fun t c => resetStart_rolesKept c t) _

theorem versionBegun_rolesKept (s : State) : RolesKept s (versionBegun s) := by
  have reset (f : Com → Com) := (RolesKept.of_frame (onCom_frame f s) (by decide)).trans (resetStarts_rolesKept _)
  have timedOut (f : Com → Com) := (reset f).foldl (fun t (c : Nat) => batchTimeout_rolesKept c t) (List.range 16)
  exact (((((timedOut _).next (adoptLimp_frame _) (by decide)).next (adoptHeld_frame _) (by decide)).next (adoptCoils_frame _) (by decide)).next (adoptBridges_frame _) (by decide)).next (adoptSinks_frame _) (by decide)

theorem versionEnded_rolesKept (s : State) : RolesKept s (versionEnded s) := by
  have landed := (((resetStarts_rolesKept s).next (onCom_frame (fun c => { c with degrade := degradeDue (resetStarts s) }) _) (by decide)).next (idleEnd_frame _) (by decide)).next (lightLand_frame _) (by decide)
  exact ((landed.next (autoGens_frame _) (by decide)).next (applyTasks_frame _) (by decide)).next (onCom_frame (fun c => { c with chCfgNow := [] }) _) (by decide)

theorem buildVersion_rolesKept (s : State) : RolesKept s (buildVersion s) := by
  rw [buildVersion_eq]
  exact ((versionBegun_rolesKept s).trans (commitDue_rolesKept _ _)).trans (versionEnded_rolesKept _)

theorem commitVersion_rolesKept (s : State) : RolesKept s (commitVersion s) := by
  have sent := ((RolesKept.of_frame (commitBegun_frame s) (by decide)).trans (buildVersion_rolesKept _)).next (commitSent_frame _) (by decide)
  have restarted : RolesKept s (if (commitSent (buildVersion (commitBegun s))).pwr.restart.isSome then hearthRestart 6 (commitSent (buildVersion (commitBegun s)))
      else commitSent (buildVersion (commitBegun s))) := .ite (sent.trans (hearthRestart_rolesKept 6 _)) sent
  exact .ite (restarted.trans (fallBack_rolesKept _)) restarted

/-! ### The events at which units change owner or generation -/

theorem Answers.imp {x : Host.Outcome State Fault Refusal} {P Q : State → Prop} (h : Answers x P) (k : ∀ t, P t → Q t) : Answers x Q := by
  obtain ⟨t, e, ht⟩ := h
  exact ⟨t, e, k t ht⟩

theorem Answers.cases {a b : Host.Outcome State Fault Refusal} {P : State → Prop} {c : Prop} {_ : Decidable c} (h : Answers a P) (k : Answers b P) :
    Answers (if c then a else b) P := by
  split <;> assumption

theorem execUpdActivationTick_rolesKept (s : State) : Answers (execUpdActivationTick s) (RolesKept s) := by
  have due := RolesKept.of_frame (advTo_frame s.upd.v s) (by decide)
  exact .cases (.next (.refl s)) (.next (.ite (due.next (onUpd_frame _ _) (by decide)) (due.trans (activate_rolesKept _))))

theorem execFailedBootTimeout_rolesKept (s : State) : Answers (execFailedBootTimeout s) (RolesKept s) :=
  .cases (.next (((RolesKept.of_frame (advTo_frame _ s) (by decide)).next (onUpd_frame _ _) (by decide)).trans (bootFailed_rolesKept _))) (.next (.refl s))

theorem execUpdBootVerifyDone_rolesKept (bad : List Nat) (s : State) : Answers (execUpdBootVerifyDone bad s) (RolesKept s) := by
  have marked (b m : Nat) (f : Upd → Upd) := (RolesKept.of_frame (onUpd_frame f s) (by decide)).next (setMark_frame b m _) (by decide)
  refine .cases (.next (.refl s)) (.cases (.next ?_) (.next ?_))
  · exact ((marked _ _ _).next (onCes_frame _ _) (by decide)).trans (hearthStart_rolesKept bad _)
  · exact ((marked _ _ _).next (raise_frame _ _ _) (by decide)).trans (hearthStart_rolesKept bad _)

theorem execUpdDeferTimeout_rolesKept (s : State) : Answers (execUpdDeferTimeout s) (RolesKept s) := by
  unfold execUpdDeferTimeout
  split
  · exact .next (.refl s)
  · exact .cases (.next (activate_rolesKept s)) (.next (.refl s))

theorem execRailFault_rolesKept (r mv : Nat) (s : State) : Answers (execRailFault r mv s) (RolesKept s) :=
  .cases (.next (((RolesKept.of_frame (onMon_frame _ s) (by decide)).next (raise_frame _ _ _) (by decide)).trans (hearthRestart_rolesKept 3 _))) (.next (.refl s))

theorem execBellowsWatchdog_rolesKept (s : State) : Answers (execBellowsWatchdog s) (RolesKept s) :=
  .next (.ite ((hearthRestart_rolesKept 2 s).next (onAnvil_frame _ _) (by decide)) (.refl s))

theorem execMgmtWatchdog_rolesKept (s : State) : Answers (execMgmtWatchdog s) (RolesKept s) := .next (.ite (hearthRestart_rolesKept 1 s) (.refl s))

theorem execHearthResetRelease_rolesKept (pt enc : Nat) (bad : List Nat) (s : State) : Answers (execHearthResetRelease pt enc bad s) (RolesKept s) := by
  have woken := ((RolesKept.of_frame (restoreTb_frame (max pt s.time.parkSeen) s) (by decide)).next (restoreSave_frame _) (by decide)).next (inputsWake_frame _) (by decide)
  exact .cases (.next (.refl s)) (.cases (.next ((woken.trans (hearthStart_rolesKept bad _)).next (encWake_frame enc _) (by decide))) (.next (hearthStart_rolesKept bad s)))

theorem execBatchTimeout_rolesKept (c : Nat) (s : State) : Answers (execBatchTimeout c s) (RolesKept s) := by
  unfold execBatchTimeout
  split
  · exact .next (.refl s)
  · exact .cases (.next (.refl s)) (.next (((RolesKept.of_frame (atTick_frame 40000 s) (by decide)).trans (batchTimeout_rolesKept c _)).next (ethDrain_frame _) (by decide)))

theorem execCommitPoint_rolesKept (s : State) : Answers (execCommitPoint s) (RolesKept s) :=
  .cases (.next (.refl s)) (.next (((commitVersion_rolesKept s).next (handBlock_frame _) (by decide)).next (ethDrain_frame _) (by decide)))

theorem execPacketAccept_rolesKept (c : Nat) (s : State) : Answers (execPacketAccept c s) (RolesKept s) :=
  .next (.ite (.refl s) ((tryAccept_rolesKept opSpec_keepsRoles c s).next (ethDrain_frame _) (by decide)))

theorem execHspiWrite_rolesKept (n len : Nat) (b : Rec) (s : State) : Answers (execHspiWrite n len b s) (RolesKept s) := by
  have taken (y : Rec) : RolesKept s (takePackets opSpec (hspiBound n (csRise n s)) (hspiUnbound n) false 4 (y.length + 1) y (csRise n s)) :=
    (RolesKept.of_frame (csRise_frame n s) (by decide)).trans (takePackets_rolesKept opSpec_keepsRoles (fun t => .of_frame (hspiUnbound_frame n t) (by decide)) _ _ _ _ _ _)
  exact .cases (.next (.refl s)) (.next (((taken _).next (onHspi_frame n _ _) (by decide)).next (ethDrain_frame _) (by decide)))

theorem execEthFrameReceived_rolesKept (p : Nat) (f : EthFrame) (s : State) : Answers (execEthFrameReceived p f s) (RolesKept s) :=
  .next ((ethReceive_rolesKept opSpec_keepsRoles p f s).next (ethDrain_frame _) (by decide))

end Sys2Proof.Machine

namespace Sys2Proof.Machine

theorem execHearthFrameStart_rolesKept (temps : List Int) (proc : List Nat) (bad : Nat) (s : State) : Answers (execHearthFrameStart temps proc bad s) (RolesKept s) := by
  have begun := ((RolesKept.of_frame (frameBegun_frame temps proc bad s) (by decide)).next (frameIslands_kept _) (by decide)).next (renewSnap_frame _) (by decide)
  exact .cases (.next (.refl s)) (.next ((begun.trans (activationDue_rolesKept _)).next (ethDrain_frame _) (by decide)))

/-! ### Every command keeps the table of roles and the command queue -/

/-- The commands that wait are as they were, and the table of roles is well formed where it was. -/
structure QueueAndRolesKept (s t : State) : Prop where
  pending : t.pending = s.pending
  roles : RolesKept s t

theorem Answers.kept {x : Host.Outcome State Fault Refusal} {l : List Part} {s : State} (h : Answers x (Only l s)) (n : ∀ p ∈ [Part.pending, .roles], p ∉ l) :
    Answers x (QueueAndRolesKept s) :=
  h.imp fun _ k => ⟨k .pending (n _ (by decide)), .of_frame k (n _ (by decide))⟩

/-- A command answers one state: what is known of its frame and of its roles is known of that state. -/
theorem Answers.kept_with {x : Host.Outcome State Fault Refusal} {l : List Part} {s : State} (h : Answers x (Only l s)) (k : Answers x (RolesKept s))
    (hp : Part.pending ∉ l) : Answers x (QueueAndRolesKept s) := by
  obtain ⟨t, ht, only⟩ := h
  obtain ⟨u, hu, kept⟩ := k
  obtain rfl : t = u := Host.Outcome.next.inj (ht.symm.trans hu)
  exact ⟨t, ht, only .pending hp, kept⟩

theorem hostPacket_kept (o : OpSpec) (h : Hdr) (b : Rec) (s : State) : QueueAndRolesKept s (hostPacket o h b s) :=
  ⟨hostPacket_frame o h b s .pending (by decide), hostPacket_rolesKept o h b s⟩

/-- A command answers a state with the table of roles well formed and the queue as it was: the packets of hosts, the events at which units change owner or generation,
and the instructions and events that leave the roles alone. -/
theorem exec_kept (i : Instr) (s : State) : Answers (exec i s) (QueueAndRolesKept s) := by
  cases i
  case ping | getInfo | memRead | memWrite | ctxReset | unitClaim | ctxConfig | modeSelect | qConfig | qPush | qRead | qMarkSet | qMarkClear | qRewind |
    qRelease | qReleaseToLimit | qStatus | qAudit | chConfig | chSet | chStatus | chClearDiag | lhConfig | lhStatus | chProtConfig | chClearProt |
    chProtStatus | supplyStatus | indConfig | indSet | indStatus | indClear | brConfig | brSet | brStatus | brClear | brPosSet | lsConfig | lsSet | lsStatus |
    lsClear | lightConfig | lightStage | lightCommit | lightDiscard | lightStatus | taskControl | taskStatus | taskParam | coreStatus | canConfig |
    canWakeConfig | canControlStart | canControlListen | canControlStop | canControlSleep | canControlWake | canControlRecover | canControlFlush | canStatus |
    canFiltWrite | canFiltApply | linConfig | linSet | linControlStart | linControlStop | linControlSleep | linControlWake | linStatus | gwBind | ethConfig |
    ethStatus | gwStatus | accConfig | accStart | accCalibrate | accPhHello | accPhResponse | accPhPresence | immoStart | immoRevoke | accStatus | accClear |
    accLockClear | accLockStatus | keyWrite | keyInfo | keyMacGen | keyMacVer | keyCipherEnc | keyCipherDec | keySign | keySignVerify | keyEcdh | keyGenkey |
    keyAttest | fltConfig | fltStatus | fltHistory | fltClear | fltSticky | fltGlobal | pwrConfig | pwrSetRun | pwrSetIdle | pwrSetPark | pwrStatus |
    padRelease | pwrWakeList | hearthRestart | updBegin | updWrite | updFinish | updVerify | updActivateAt | updActivateNow | updCancel | updConfirm |
    updRollback | updStatus | updService | inConfig | inStatus | inGlobal | monRead | inCfgRead | schedStatus | schedUnit | schedCheck | tbRead |
    timeAnchorSet | timeAnchorClear | cmpSetKeep | cmpSetArm | cmpSetDisarm | cmpStatus | tmrConfig | tmrStatus =>
    exact ⟨_, rfl, hostPacket_kept _ _ _ _⟩
  case hspiWrite => exact Answers.kept_with (execHspiWrite_frame ..) (execHspiWrite_rolesKept ..) (by decide)
  case ethFrameReceived => exact Answers.kept_with (execEthFrameReceived_frame ..) (execEthFrameReceived_rolesKept ..) (by decide)
  case packetAccept => exact Answers.kept_with (execPacketAccept_frame ..) (execPacketAccept_rolesKept ..) (by decide)
  case hearthFrameStart => exact Answers.kept_with (execHearthFrameStart_frame ..) (execHearthFrameStart_rolesKept ..) (by decide)
  case commitPoint => exact Answers.kept_with (execCommitPoint_frame ..) (execCommitPoint_rolesKept ..) (by decide)
  case batchTimeout => exact Answers.kept_with (execBatchTimeout_frame ..) (execBatchTimeout_rolesKept ..) (by decide)
  case hearthResetRelease => exact Answers.kept_with (execHearthResetRelease_frame ..) (execHearthResetRelease_rolesKept ..) (by decide)
  case mgmtWatchdog => exact Answers.kept_with (execMgmtWatchdog_frame ..) (execMgmtWatchdog_rolesKept ..) (by decide)
  case bellowsWatchdog => exact Answers.kept_with (execBellowsWatchdog_frame ..) (execBellowsWatchdog_rolesKept ..) (by decide)
  case railFault => exact Answers.kept_with (execRailFault_frame ..) (execRailFault_rolesKept ..) (by decide)
  case updActivationTick => exact Answers.kept_with (execUpdActivationTick_frame ..) (execUpdActivationTick_rolesKept ..) (by decide)
  case updDeferTimeout => exact Answers.kept_with (execUpdDeferTimeout_frame ..) (execUpdDeferTimeout_rolesKept ..) (by decide)
  case updBootVerifyDone => exact Answers.kept_with (execUpdBootVerifyDone_frame ..) (execUpdBootVerifyDone_rolesKept ..) (by decide)
  case failedBootTimeout => exact Answers.kept_with (execFailedBootTimeout_frame ..) (execFailedBootTimeout_rolesKept ..) (by decide)
  case ctxResetDone => exact (execCtxResetDone_frame ..).kept (by decide)
  case lightSync => exact (execLightSync_frame ..).kept (by decide)
  case nop => exact (execNop_frame ..).kept (by decide)
  case tend => exact (execTend_frame ..).kept (by decide)
  case ret => exact (execRet_frame ..).kept (by decide)
  case rett => exact (execRett_frame ..).kept (by decide)
  case br => exact (execBr_frame ..).kept (by decide)
  case jmp => exact (execJmp_frame ..).kept (by decide)
  case call => exact (execCall_frame ..).kept (by decide)
  case loopDo => exact (execDo_frame ..).kept (by decide)
  case rep => exact (execRep_frame ..).kept (by decide)
  case bmov => exact (execBmov_frame ..).kept (by decide)
  case bfly => exact (execBfly_frame ..).kept (by decide)
  case ld => exact (execLd_frame ..).kept (by decide)
  case st => exact (execSt_frame ..).kept (by decide)
  case mov => exact (execMov_frame ..).kept (by decide)
  case add => exact (execAdd_frame ..).kept (by decide)
  case sub => exact (execSub_frame ..).kept (by decide)
  case andC => exact (execAnd_frame ..).kept (by decide)
  case orC => exact (execOr_frame ..).kept (by decide)
  case xor => exact (execXor_frame ..).kept (by decide)
  case cmp => exact (execCmp_frame ..).kept (by decide)
  case adc => exact (execAdc_frame ..).kept (by decide)
  case sbc => exact (execSbc_frame ..).kept (by decide)
  case padd => exact (execPadd_frame ..).kept (by decide)
  case psub => exact (execPsub_frame ..).kept (by decide)
  case shl => exact (execShl_frame ..).kept (by decide)
  case shr => exact (execShr_frame ..).kept (by decide)
  case asr => exact (execAsr_frame ..).kept (by decide)
  case rol => exact (execRol_frame ..).kept (by decide)
  case mpy => exact (execMpy_frame ..).kept (by decide)
  case mac => exact (execMac_frame ..).kept (by decide)
  case msu => exact (execMsu_frame ..).kept (by decide)
  case mpyf => exact (execMpyf_frame ..).kept (by decide)
  case macf => exact (execMacf_frame ..).kept (by decide)
  case msuf => exact (execMsuf_frame ..).kept (by decide)
  case pmacu => exact (execPmacu_frame ..).kept (by decide)
  case pmacs => exact (execPmacs_frame ..).kept (by decide)
  case clr => exact (execClr_frame ..).kept (by decide)
  case neg => exact (execNeg_frame ..).kept (by decide)
  case abs => exact (execAbs_frame ..).kept (by decide)
  case rnd => exact (execRnd_frame ..).kept (by decide)
  case adda => exact (execAdda_frame ..).kept (by decide)
  case suba => exact (execSuba_frame ..).kept (by decide)
  case asha => exact (execAsha_frame ..).kept (by decide)
  case tfra => exact (execTfra_frame ..).kept (by decide)
  case macx => exact (execMacx_frame ..).kept (by decide)
  case tblRead => exact (execTblRead_frame ..).kept (by decide)
  case queuePortRead => exact (execQueuePortRead_frame ..).kept (by decide)
  case queuePortPush => exact (execQueuePortPush_frame ..).kept (by decide)
  case queuePortMark => exact (execQueuePortMark_frame ..).kept (by decide)
  case queuePortClearMark => exact (execQueuePortClearMark_frame ..).kept (by decide)
  case queuePortRewind => exact (execQueuePortRewind_frame ..).kept (by decide)
  case queuePortRelease => exact (execQueuePortRelease_frame ..).kept (by decide)
  case queuePortWordWrite => exact (execQueuePortWordWrite_frame ..).kept (by decide)
  case safeTrap => exact (execSafeTrap_frame ..).kept (by decide)
  case taskActivation => exact (execTaskActivation_frame ..).kept (by decide)
  case budgetTrap => exact (execBudgetTrap_frame ..).kept (by decide)
  case taskEndGuard => exact (execTaskEndGuard_frame ..).kept (by decide)
  case hspiRead => exact (execHspiRead_frame ..).kept (by decide)
  case hspiStatus => exact (execHspiStatus_frame ..).kept (by decide)
  case hspiCsRise => exact (execHspiCsRise_frame ..).kept (by decide)
  case ethLinkUp => exact (execEthLinkUp_frame ..).kept (by decide)
  case ethLinkDown => exact (execEthLinkDown_frame ..).kept (by decide)
  case blockFlit => exact (execBlockFlit_frame ..).kept (by decide)
  case reportFlit => exact (execReportFlit_frame ..).kept (by decide)
  case sampleFlit => exact (execSampleFlit_frame ..).kept (by decide)
  case eventFlit => exact (execEventFlit_frame ..).kept (by decide)
  case msgFlit => exact (execMsgFlit_frame ..).kept (by decide)
  case busFlit => exact (execBusFlit_frame ..).kept (by decide)
  case busFlitTimeout => exact (execBusFlitTimeout_frame ..).kept (by decide)
  case rejoinFlit => exact (execRejoinFlit_frame ..).kept (by decide)
  case epochRejectFlit => exact (execEpochRejectFlit_frame ..).kept (by decide)
  case dumpReqFlit => exact (execDumpReqFlit_frame ..).kept (by decide)
  case dumpFlit => exact (execDumpFlit_frame ..).kept (by decide)
  case nakFlit => exact (execNakFlit_frame ..).kept (by decide)
  case trainFlit => exact (execTrainFlit_frame ..).kept (by decide)
  case quenchReqFlit => exact (execQuenchReqFlit_frame ..).kept (by decide)
  case flitCrcError => exact (execFlitCrcError_frame ..).kept (by decide)
  case laneRetrain => exact (execLaneRetrain_frame ..).kept (by decide)
  case reportTimeout => exact (execReportTimeout_frame ..).kept (by decide)
  case frameBoundary => exact (execFrameBoundary_frame ..).kept (by decide)
  case orphanHoldExpiry => exact (execOrphanHoldExpiry_frame ..).kept (by decide)
  case sinkHoldExpiry => exact (execSinkHoldExpiry_frame ..).kept (by decide)
  case actHoldLapse => exact (execActHoldLapse_frame ..).kept (by decide)
  case channelStartEdge => exact (execChannelStartEdge_frame ..).kept (by decide)
  case lampPeriodStart => exact (execLampPeriodStart_frame ..).kept (by decide)
  case offDiagStepB => exact (execOffDiagStepB_frame ..).kept (by decide)
  case dirEdge => exact (execDirEdge_frame ..).kept (by decide)
  case pinEdgeDeferred => exact (execPinEdgeDeferred_frame ..).kept (by decide)
  case lhNChange => exact (execLhNChange_frame ..).kept (by decide)
  case lhinChange => exact (execLhinChange_frame ..).kept (by decide)
  case flashToggle => exact (execFlashToggle_frame ..).kept (by decide)
  case ocTrip => exact (execOcTrip_frame ..).kept (by decide)
  case vdsTrip => exact (execVdsTrip_frame ..).kept (by decide)
  case coolDownExpiry => exact (execCoolDownExpiry_frame ..).kept (by decide)
  case retryRestore => exact (execRetryRestore_frame ..).kept (by decide)
  case tsdTrip => exact (execTsdTrip_frame ..).kept (by decide)
  case tsdClear => exact (execTsdClear_frame ..).kept (by decide)
  case dtjEvaluation => exact (execDtjEvaluation_frame ..).kept (by decide)
  case vbatsLow => exact (execVbatsLow_frame ..).kept (by decide)
  case vbatsRecover => exact (execVbatsRecover_frame ..).kept (by decide)
  case crankTimeout => exact (execCrankTimeout_frame ..).kept (by decide)
  case crankRelease => exact (execCrankRelease_frame ..).kept (by decide)
  case vbatsOv => exact (execVbatsOv_frame ..).kept (by decide)
  case vbatsOvEnd => exact (execVbatsOvEnd_frame ..).kept (by decide)
  case reverseBattery => exact (execReverseBattery_frame ..).kept (by decide)
  case indIpReached => exact (execIndIpReached_frame ..).kept (by decide)
  case pullInEnd => exact (execPullInEnd_frame ..).kept (by decide)
  case closingDetectionWindow => exact (execClosingDetectionWindow_frame ..).kept (by decide)
  case coilOpenCheck => exact (execCoilOpenCheck_frame ..).kept (by decide)
  case oneShotEnd => exact (execOneShotEnd_frame ..).kept (by decide)
  case indReleaseEnd => exact (execIndReleaseEnd_frame ..).kept (by decide)
  case encoderStep => exact (execEncoderStep_frame ..).kept (by decide)
  case bridgeStandstill => exact (execBridgeStandstill_frame ..).kept (by decide)
  case dwellEnd => exact (execDwellEnd_frame ..).kept (by decide)
  case bridgeStall => exact (execBridgeStall_frame ..).kept (by decide)
  case bridgeOpenPhase => exact (execBridgeOpenPhase_frame ..).kept (by decide)
  case compareFire => exact (execCompareFire_frame ..).kept (by decide)
  case timerOverflow => exact (execTimerOverflow_frame ..).kept (by decide)
  case timerMatch => exact (execTimerMatch_frame ..).kept (by decide)
  case timerMasterEvent => exact (execTimerMasterEvent_frame ..).kept (by decide)
  case debouncedEdge => exact (execDebouncedEdge_frame ..).kept (by decide)
  case canFrameReceived => exact (execCanFrameReceived_frame ..).kept (by decide)
  case canTxAttemptEnd => exact (execCanTxAttemptEnd_frame ..).kept (by decide)
  case canBusError => exact (execCanBusError_frame ..).kept (by decide)
  case canIntegrationDone => exact (execCanIntegrationDone_frame ..).kept (by decide)
  case canBusoffRecovery => exact (execCanBusoffRecovery_frame ..).kept (by decide)
  case canTxdDom => exact (execCanTxdDom_frame ..).kept (by decide)
  case canBusDom => exact (execCanBusDom_frame ..).kept (by decide)
  case canWakePattern => exact (execCanWakePattern_frame ..).kept (by decide)
  case canWakeFrame => exact (execCanWakeFrame_frame ..).kept (by decide)
  case linHeaderStart => exact (execLinHeaderStart_frame ..).kept (by decide)
  case linFrameEnd => exact (execLinFrameEnd_frame ..).kept (by decide)
  case linBusDom => exact (execLinBusDom_frame ..).kept (by decide)
  case linBusWake => exact (execLinBusWake_frame ..).kept (by decide)
  case lfPlanStart => exact (execLfPlanStart_frame ..).kept (by decide)
  case lfStepStart => exact (execLfStepStart_frame ..).kept (by decide)
  case lfAerialFault => exact (execLfAerialFault_frame ..).kept (by decide)
  case uhfReply => exact (execUhfReply_frame ..).kept (by decide)
  case accessDecision => exact (execAccessDecision_frame ..).kept (by decide)
  case resweepStart => exact (execResweepStart_frame ..).kept (by decide)
  case phoneExchangeTimeout => exact (execPhoneExchangeTimeout_frame ..).kept (by decide)
  case calRepeat => exact (execCalRepeat_frame ..).kept (by decide)
  case lockExpiry => exact (execLockExpiry_frame ..).kept (by decide)
  case lockRepeatReset => exact (execLockRepeatReset_frame ..).kept (by decide)
  case immoReqRetry => exact (execImmoReqRetry_frame ..).kept (by decide)
  case immoReleasePeriod => exact (execImmoReleasePeriod_frame ..).kept (by decide)
  case presencePoll => exact (execPresencePoll_frame ..).kept (by decide)
  case immoAbsentTimeout => exact (execImmoAbsentTimeout_frame ..).kept (by decide)
  case parkEntryBegin => exact (execParkEntryBegin_frame ..).kept (by decide)
  case parkAp1 => exact (execParkAp1_frame ..).kept (by decide)
  case parkAp2 => exact (execParkAp2_frame ..).kept (by decide)
  case parkAp3 => exact (execParkAp3_frame ..).kept (by decide)
  case parkEntryTimeout => exact (execParkEntryTimeout_frame ..).kept (by decide)
  case parkDeepen => exact (execParkDeepen_frame ..).kept (by decide)
  case parkTimerExpiry => exact (execParkTimerExpiry_frame ..).kept (by decide)
  case parkModelUpdate => exact (execParkModelUpdate_frame ..).kept (by decide)
  case wakeEvent => exact (execWakeEvent_frame ..).kept (by decide)
  case sequencerWatchdog => exact (execSequencerWatchdog_frame ..).kept (by decide)
  case snsFault => exact (execSnsFault_frame ..).kept (by decide)
  case snsRetry => exact (execSnsRetry_frame ..).kept (by decide)
  case anvilPorAssert => exact (execAnvilPorAssert_frame ..).kept (by decide)
  case anvilPorRelease => exact (execAnvilPorRelease_frame ..).kept (by decide)
  case xtal25Stop => exact (execXtal25Stop_frame ..).kept (by decide)
  case xtal25Restored => exact (execXtal25Restored_frame ..).kept (by decide)
  case xtal32Stop => exact (execXtal32Stop_frame ..).kept (by decide)
  case resetNAssert => exact (execResetNAssert_frame ..).kept (by decide)
  case resetNRelease => exact (execResetNRelease_frame ..).kept (by decide)
  case resetStuck => exact (execResetStuck_frame ..).kept (by decide)
  case inrushWindowEnd => exact (execInrushWindowEnd_frame ..).kept (by decide)
  case ledPulsePeriodStart => exact (execLedPulsePeriodStart_frame ..).kept (by decide)
  case canTxdReenable => exact (execCanTxdReenable_frame ..).kept (by decide)
  case droopDetectorTrip => exact (execDroopDetectorTrip_frame ..).kept (by decide)
  case droopClear => exact (execDroopClear_frame ..).kept (by decide)
  case loopbackMeasurement => exact (execLoopbackMeasurement_frame ..).kept (by decide)

/-! ### The step (R164, R165) -/

/-- Settles O59: the tick leaves the roles alone, a command keeps them by exec_kept. -/
theorem rolesStayWellFormed : Obligations.RolesStayWellFormed := by
  intro s wf gens
  have ok : RolesOk s.roles := ⟨wf, gens⟩
  cases hp : s.pending with
  | nil =>
    have pending : (tickOnce s).pending = s.pending := tickOnce_frame s .pending (by decide)
    obtain ⟨wf', gens'⟩ := (RolesKept.of_frame (tickOnce_frame s) (by decide)).ok ok
    exact ⟨tickOnce s, step_idle hp, wf', gens', pending.trans hp⟩
  | cons c rest =>
    obtain ⟨t, ht, kept⟩ := exec_kept c { s with pending := rest }
    obtain ⟨wf', gens'⟩ := kept.roles.ok ok
    refine ⟨t, ?_, wf', gens', kept.pending⟩
    unfold step
    rw [hp]
    exact ht

end Sys2Proof.Machine

namespace Sys2Proof.Machine

/-! ### MARK and REWIND (R131) -/

/-- What Q_MARK makes of its queue. -/
def queueMarked (set : Prop) [Decidable set] (q : Queue) : Queue :=
  if set then { q with mark := q.read, markSet := true } else { q with mark := 0, markSet := false }

theorem qMarkSpec_st (r : Req) (s : State) :
    (qMarkSpec.run r s).st = onQueue (unitIx r.b) (queueMarked (rd r.b 6 1 = 0)) s := rfl

theorem qRewindSpec_st (r : Req) (s : State) :
    (qRewindSpec.run r s).st = onQueue (unitIx r.b) (fun q => { q with read := q.mark }) s := rfl

theorem qRewindSpec_check (r : Req) (s : State) :
    qRewindSpec.check r s = if (s.queue (unitIx r.b)).markSet then none else some (.state, 0) := rfl

section
variable (set : Prop) [Decidable set] (q : Queue)

@[simp] theorem queueMarked_read : (queueMarked set q).read = q.read := by unfold queueMarked; split <;> rfl
@[simp] theorem queueMarked_cells : (queueMarked set q).cells = q.cells := by unfold queueMarked; split <;> rfl
@[simp] theorem queueMarked_rel : (queueMarked set q).rel = q.rel := by unfold queueMarked; split <;> rfl
@[simp] theorem queueMarked_put : (queueMarked set q).put = q.put := by unfold queueMarked; split <;> rfl

theorem queueMarked_set (h : set) : (queueMarked set q).mark = q.read ∧ (queueMarked set q).markSet = true := by
  simp [queueMarked, h]

theorem queueMarked_clear (h : ¬ set) : (queueMarked set q).markSet = false := by simp [queueMarked, h]

end

/-- Settles O20: both opcodes are one write of their queue. -/
theorem markAndRewind : Obligations.MarkAndRewind := by
  unfold Obligations.MarkAndRewind
  intro r s
  have other (f : Queue → Queue) : ∀ p, p ≠ unitIx r.b → (onQueue (unitIx r.b) f s).queue p = s.queue p :=
    fun _ hp => onQueue_other f s hp
  simp only [qMarkSpec_st, qRewindSpec_st, qRewindSpec_check, onQueue_same, queueMarked_read, queueMarked_cells, queueMarked_rel, queueMarked_put]
  refine ⟨fun h => ?set, fun h => ?clear, trivial, trivial, trivial, fun h => by simp [h], fun h => by simp [h], trivial, trivial, trivial, trivial, trivial, trivial,
    fun p hp => ⟨other _ p hp, other _ p hp⟩, onQueue_frame _ _ s, onQueue_frame _ _ s⟩
  case set => exact ⟨(queueMarked_set _ _ h).1, (queueMarked_set _ _ h).2, trivial⟩
  case clear => exact ⟨queueMarked_clear _ _ (by omega), trivial⟩

end Sys2Proof.Machine

namespace Sys2Proof.Machine

/-! ### Distances between positions (R111) -/

/-- A position `n` cells further on is `n` further from one behind it. -/
theorem pos_add_sub {a b : BitVec 32} {n : Nat} (h : (a - b).toNat + n < 2 ^ 32) : (a + BitVec.ofNat 32 n - b).toNat = (a - b).toNat + n := by
  rw [add_sub_right_comm, BitVec.toNat_add, BitVec.toNat_ofNat, Nat.add_mod_mod, Nat.mod_eq_of_lt h]

/-- Seen from `n` cells further on, a position at least as far ahead is `n` nearer. -/
theorem pos_sub_add {a b : BitVec 32} {n : Nat} (h : n ≤ (a - b).toNat) : (a - (b + BitVec.ofNat 32 n)).toNat = (a - b).toNat - n := by
  have hlt := (a - b).isLt
  rw [sub_add_eq_sub_sub, BitVec.toNat_sub_of_le, BitVec.toNat_ofNat, Nat.mod_eq_of_lt (by omega)]
  simpa [BitVec.le_def, Nat.mod_eq_of_lt (show n < 4294967296 by omega)] using h

theorem pos_add_distance (a b : BitVec 32) : b + BitVec.ofNat 32 (a - b).toNat = a := by
  rw [BitVec.ofNat_toNat, BitVec.setWidth_eq, BitVec.add_comm, BitVec.sub_add_cancel]

/-! ### A queue whose positions are in order -/

theorem Queue.posOk_iff {q : Queue} :
    q.posOk = true ↔ (q.put - q.rel).toNat = q.cells.length ∧ (q.read - q.rel).toNat ≤ q.cells.length
      ∧ (q.markSet = true → (q.mark - q.rel).toNat ≤ (q.read - q.rel).toNat) := by
  cases h : q.markSet <;> simp [Queue.posOk, h, and_assoc]

theorem qLimitCells_le_read {q : Queue} (h : q.posOk = true) : qLimitCells q ≤ (q.read - q.rel).toNat := by
  obtain ⟨_, _, hmark⟩ := Queue.posOk_iff.1 h
  unfold qLimitCells
  split
  · exact hmark ‹_›
  · exact le_refl _

theorem qLimitCells_le_mark {q : Queue} (h : q.markSet = true) : qLimitCells q ≤ (q.mark - q.rel).toNat := by
  rw [qLimitCells, if_pos h]

theorem qVisible_le (q : Queue) (cut : Nat) : qVisible q cut ≤ q.cells.length := by
  unfold qVisible
  split
  · exact le_refl _
  · dsimp only
    split <;> omega

/-- What may be read lies before PUT. -/
theorem read_add_readable_le {q : Queue} (h : q.posOk = true) (cut : Nat) :
    (q.read - q.rel).toNat + qReadable q cut ≤ q.cells.length := by
  have := (Queue.posOk_iff.1 h).2.1
  have := qVisible_le q cut
  unfold qReadable
  omega

/-- READ moves on over cells that are there. -/
theorem posOk_of_read {q : Queue} (h : q.posOk = true) {k : Nat} (hk : (q.read - q.rel).toNat + k ≤ q.cells.length) :
    ({ q with read := q.read + BitVec.ofNat 32 k } : Queue).posOk = true := by
  obtain ⟨hput, _, hmark⟩ := Queue.posOk_iff.1 h
  have hlt := (q.put - q.rel).isLt
  have hread := pos_add_sub (a := q.read) (b := q.rel) (n := k) (by omega)
  exact Queue.posOk_iff.2 ⟨hput, by dsimp only; omega, fun hm => by have := hmark hm; dsimp only; omega⟩

/-! ### A release (R132) -/

section
variable (n w : Nat) (q : Queue)

/-- A release but for the watermark mark. -/
def queueReleased : Queue :=
  { q with cells := q.cells.drop n, rel := q.rel + BitVec.ofNat 32 n, gapOpen := q.gapOpen && decide (n < q.cells.length) }

theorem qRelease_eq : qRelease n w q = { queueReleased n q with wm := (qRelease n w q).wm } := by
  unfold qRelease qRearm
  dsimp only
  split <;> rfl

@[simp] theorem qRelease_cells : (qRelease n w q).cells = q.cells.drop n := by rw [qRelease_eq, queueReleased]
@[simp] theorem qRelease_rel : (qRelease n w q).rel = q.rel + BitVec.ofNat 32 n := by rw [qRelease_eq, queueReleased]
@[simp] theorem qRelease_read : (qRelease n w q).read = q.read := by rw [qRelease_eq, queueReleased]
@[simp] theorem qRelease_put : (qRelease n w q).put = q.put := by rw [qRelease_eq, queueReleased]
@[simp] theorem qRelease_mark : (qRelease n w q).mark = q.mark := by rw [qRelease_eq, queueReleased]
@[simp] theorem qRelease_markSet : (qRelease n w q).markSet = q.markSet := by rw [qRelease_eq, queueReleased]

end

/-- A release within READ and the mark keeps the positions in order. -/
theorem posOk_of_release {q : Queue} (h : q.posOk = true) {n : Nat} (hn : n ≤ qLimitCells q) (w : Nat) : (qRelease n w q).posOk = true := by
  obtain ⟨hput, hread, hmark⟩ := Queue.posOk_iff.1 h
  have hnr := hn.trans (qLimitCells_le_read h)
  rw [Queue.posOk_iff]
  simp only [qRelease_cells, qRelease_rel, qRelease_read, qRelease_put, qRelease_mark, qRelease_markSet, List.length_drop]
  rw [pos_sub_add hnr, pos_sub_add (by omega)]
  refine ⟨by omega, by omega, fun hm => ?_⟩
  rw [pos_sub_add (hn.trans (qLimitCells_le_mark hm))]
  have := hmark hm
  omega

/-! ### The last entry boundary within a release -/

theorem qBoundary_le (q : Queue) (n : Nat) : qBoundary q n ≤ n := by
  calc qBoundary q n ≤ (q.cells.take n).reverse.length := (List.dropWhile_sublist _).length_le
    _ ≤ n := by rw [List.length_reverse]; exact List.length_take_le n q.cells

/-- The cells up to the boundary are first in the queue, and the last of them ends an entry. -/
theorem qIsBoundary_qBoundary (q : Queue) (n : Nat) : qIsBoundary q (qBoundary q n) = true := by
  obtain ⟨d, hd⟩ : ∃ d, (q.cells.take n).reverse.dropWhile (fun x => !x.last) = d := ⟨_, rfl⟩
  rw [show qBoundary q n = d.length by rw [← hd, qBoundary]]
  cases d with
  | nil => rfl
  | cons c rest =>
    have hlast : c.last = true := by
      have := List.head?_dropWhile_not (fun x : Cell => !x.last) (q.cells.take n).reverse
      simpa [hd] using this
    have hpre : (c :: rest).reverse <+: q.cells := by
      have := (List.reverse_prefix).2 (hd ▸ List.dropWhile_suffix (fun x : Cell => !x.last))
      rw [List.reverse_reverse] at this
      exact this.trans (List.take_prefix n q.cells)
    have hat : q.cells[rest.length]? = some c := by
      obtain ⟨t, ht⟩ := hpre
      rw [← ht]
      simp
    simp [qIsBoundary, hat, hlast]

/-! ### The opcodes -/

/-- The cells a Q_READ takes. -/
def qReadCount (r : Req) (s : State) : Nat :=
  min (rd r.b 6 1) (qReadable (s.queue (unitIx r.b)) (qCut (s.qcfg (unitIx r.b))))

theorem qReadSpec_st (r : Req) (s : State) :
    (qReadSpec.run r s).st = onQueue (unitIx r.b) (fun q => { q with read := q.read + BitVec.ofNat 32 (qReadCount r s) }) s := rfl

/-- The octets of the answer between READ and the cells: how many, and the flags. -/
theorem qReadSpec_data (r : Req) (s : State) : ∃ flags, (qReadSpec.run r s).data =
    le 4 (s.queue (unitIx r.b)).read.toNat ++ ([BitVec.ofNat 8 (qReadCount r s), flags, 0, 0]
      ++ (((s.queue (unitIx r.b)).cells.drop ((s.queue (unitIx r.b)).read - (s.queue (unitIx r.b)).rel).toNat).take (qReadCount r s)).flatMap cellOctets) :=
  ⟨_, List.append_assoc _ _ _⟩

theorem qReleaseSpec_st (r : Req) (s : State) : (qReleaseSpec.run r s).st =
    onQueue (unitIx r.b) (qRelease (if bit (rd r.b 10 1) 0 then qBoundary (s.queue (unitIx r.b)) (qLimitCells (s.queue (unitIx r.b)))
      else (BitVec.ofNat 32 (rd r.b 6 4) - (s.queue (unitIx r.b)).rel).toNat) (qWatermark (s.qcfg (unitIx r.b)))) s := rfl

/-- A release to a position passes its check within READ and the mark only. -/
theorem le_limit_of_qReleaseSpec_check {r : Req} {s : State} (hb : bit (rd r.b 10 1) 0 = false) (h : qReleaseSpec.check r s = none) :
    (BitVec.ofNat 32 (rd r.b 6 4) - (s.queue (unitIx r.b)).rel).toNat ≤ qLimitCells (s.queue (unitIx r.b)) := by
  simp only [qReleaseSpec, hb, Bool.false_eq_true, if_false] at h
  split at h
  · next hc => simp only [Bool.and_eq_true, decide_eq_true_eq] at hc; exact hc.1.2
  · cases h

/-- Settles O21: READ moves over cells that are there, a release stays within READ and the mark. -/
theorem readAndRelease : Obligations.ReadAndRelease := by
  unfold Obligations.ReadAndRelease
  intro r s
  dsimp only
  intro hpos
  refine ⟨?read, fun hb hc => ?position, fun hb => ?limit⟩
  case read =>
    obtain ⟨flags, hdata⟩ := qReadSpec_data r s
    have hk := (Nat.add_le_add_left (min_le_right (rd r.b 6 1) _) _).trans (read_add_readable_le hpos (qCut (s.qcfg (unitIx r.b))))
    rw [hdata, qReadSpec_st, onQueue_same]
    refine ⟨rfl, rfl, rfl, ?_, rfl, posOk_of_read hpos hk⟩
    rw [rd_le 4 _ 4 _ rfl]
    exact Nat.mod_eq_of_lt (BitVec.isLt _)
  case position =>
    have hn := le_limit_of_qReleaseSpec_check hb hc
    rw [qReleaseSpec_st, onQueue_same, hb, if_neg (by decide)]
    exact ⟨by rw [qRelease_rel, pos_add_distance], qRelease_cells _ _ _, qRelease_read _ _ _, qRelease_put _ _ _, posOk_of_release hpos hn _⟩
  case limit =>
    have hn := qBoundary_le (s.queue (unitIx r.b)) (qLimitCells (s.queue (unitIx r.b)))
    rw [qReleaseSpec_st, onQueue_same, if_pos hb]
    exact ⟨hn, qRelease_cells _ _ _, qRelease_rel _ _ _, qIsBoundary_qBoundary _ _, posOk_of_release hpos hn _⟩

end Sys2Proof.Machine

namespace Sys2Proof.Machine

/-! ### The notices of a queue (R135) -/

theorem qcfg_congr {s t : State} {q : Nat} (hc : t.ctxs = s.ctxs) (hq : (t.queue q).cfg = (s.queue q).cfg) : t.qcfg q = s.qcfg q := by
  unfold State.qcfg State.cx
  rw [hc, hq]

/-- Every queue keeps its Q_CFG, and every queue but `q` and the notification queue of host `h` stays as it is. -/
structure Noticed (q h : Nat) (s t : State) : Prop where
  cfg : ∀ p, (t.queue p).cfg = (s.queue p).cfg
  other : ∀ p, p ≠ q → p ≠ 32 + h → t.queue p = s.queue p

section
variable {q h : Nat} {s t u : State}

theorem Noticed.refl (q h : Nat) (s : State) : Noticed q h s s := ⟨fun _ => rfl, fun _ _ _ => rfl⟩

theorem Noticed.trans (a : Noticed q h s t) (b : Noticed q h t u) : Noticed q h s u :=
  ⟨fun p => (b.cfg p).trans (a.cfg p), fun p hq hn => (b.other p hq hn).trans (a.other p hq hn)⟩

theorem Noticed.ite {c : Prop} [Decidable c] (a : Noticed q h s t) (b : Noticed q h s u) : Noticed q h s (if c then t else u) := by
  split <;> assumption

theorem Noticed.marked (a : Noticed q h s t) : Noticed q h s (onQueue q (fun x => { x with wm := true }) t) :=
  a.trans ⟨onQueue_cfg q _ t (fun _ => rfl), fun _ hq _ => onQueue_other _ t hq⟩

theorem Noticed.notify (a : Noticed q h s t) (kind : Nat) (data : Rec) : Noticed q h s (notify h kind data t) := by
  refine a.trans ⟨notify_cfg h kind data t, fun p _ hn => ?_⟩
  unfold Machine.notify notifyAt
  split
  · rfl
  · exact onQueue_other _ _ hn

end

theorem qNotices_noticed (q : Nat) (gap : Bool) (s : State) :
    qNotices q gap s = s ∨ ∃ h, qHost (s.qcfg q) = some h ∧ Noticed q h s (qNotices q gap s) := by
  unfold qNotices
  dsimp only
  split
  · exact .inl rfl
  · next h hh =>
    refine .inr ⟨h, hh, ?_⟩
    have gapTold := Noticed.ite (c := ((s.queue q).gapOpen && !gap) = true) ((Noticed.refl q h s).notify 0x1002 (le 2 q ++ zeros 2)) (.refl q h s)
    exact .ite (gapTold.marked.notify _ _) gapTold

theorem qNotices_cfg (q : Nat) (gap : Bool) (s : State) (p : Nat) : ((qNotices q gap s).queue p).cfg = (s.queue p).cfg := by
  obtain e | ⟨h, -, n⟩ := qNotices_noticed q gap s
  · rw [e]
  · exact n.cfg p

theorem qNotices_queue_other {q : Nat} {gap : Bool} {s : State} {p : Nat} (hp : p ≠ q) (hn : ∀ h, qHost (s.qcfg q) = some h → p ≠ 32 + h) :
    (qNotices q gap s).queue p = s.queue p := by
  obtain e | ⟨h, hh, n⟩ := qNotices_noticed q gap s
  · rw [e]
  · exact n.other p hp (hn h hh)

/-! ### Q_PUSH: an admission (R121) -/

/-- An admission is one write of the queue, which keeps its Q_CFG, and the notices of it. -/
theorem admitCells_cases (q : Nat) (data : Rec) (s : State) :
    (admitCells q data s).1 = s ∨ ∃ x : Queue, x.cfg = (s.queue q).cfg ∧ (admitCells q data s).1 = qNotices q (s.queue q).gapOpen (onQueue q (fun _ => x) s) := by
  unfold admitCells
  dsimp only
  split
  · exact .inl rfl
  · exact .inr ⟨_, qPush_cfg _ _ _ _ _ _, rfl⟩

theorem admitCells_cfg (q : Nat) (data : Rec) (s : State) : ((admitCells q data s).1.queue q).cfg = (s.queue q).cfg := by
  obtain e | ⟨x, hx, e⟩ := admitCells_cases q data s
  · rw [e]
  · rw [e, qNotices_cfg, onQueue_same, hx]

theorem admitCells_queue_other {q : Nat} {data : Rec} {s : State} {p : Nat} (hp : p ≠ q) (hn : ∀ h, qHost (s.qcfg q) = some h → p ≠ 32 + h) :
    (admitCells q data s).1.queue p = s.queue p := by
  obtain e | ⟨x, hx, e⟩ := admitCells_cases q data s
  · rw [e]
  · have hc : (onQueue q (fun _ => x) s).qcfg q = s.qcfg q := qcfg_congr rfl (by rw [onQueue_same, hx])
    rw [e, qNotices_queue_other hp (by rwa [hc]), onQueue_other _ _ hp]

/-! ### Q_CONFIG (R119) -/

/-- The queue with a record put in force: empty again where the record enables it. -/
def configuredQueue (enabling : Bool) (new : Rec) (x : Queue) : Queue :=
  if enabling then { Queue.initial with cfg := new } else { x with cfg := new, wm := x.wm && decide (qWatermark new ≤ qOcc x) }

@[simp] theorem configuredQueue_cfg (enabling : Bool) (new : Rec) (x : Queue) : (configuredQueue enabling new x).cfg = new := by
  unfold configuredQueue
  split <;> rfl

/-- The state with the record in force and the queue reassigned where MODE or an endpoint changes, before the notices. -/
def queueConfigured (q : Nat) (new : Rec) (s : State) : State :=
  let old := (s.queue q).cfg
  reassignedUnless (¬ (qMode old ≠ qMode new ∨ qProducer old ≠ qProducer new ∨ qConsumer old ≠ qConsumer new)) 3 q
    (onQueue q (configuredQueue (qMode old = 0 && qMode new ≠ 0) new) s)

theorem qConfigSpec_st (r : Req) (s : State) : ∃ gap, (qConfigSpec.run r s).st = qNotices (unitIx r.b) gap (queueConfigured (unitIx r.b) (sub r.b 8 16) s) := by
  refine ⟨_, congrArg (qNotices _ _) ?_⟩
  simp only [queueConfigured, reassignedUnless, ite_not, Bool.or_eq_true, decide_eq_true_eq, or_assoc]
  rfl

section
variable (q : Nat) (new : Rec) (s : State)

theorem queueConfigured_queue (p : Nat) : (queueConfigured q new s).queue p =
    (onQueue q (configuredQueue (qMode (s.queue q).cfg = 0 && qMode new ≠ 0) new) s).queue p := by
  exact congrArg (fun x : Qf => tget queueDef x.queues p) (reassignedUnless_frame _ 3 q _ .qf (by decide))

theorem queueConfigured_cfg : ((queueConfigured q new s).queue q).cfg = new := by
  rw [queueConfigured_queue, onQueue_same, configuredQueue_cfg]

theorem queueConfigured_other {p : Nat} (hp : p ≠ q) : (queueConfigured q new s).queue p = s.queue p := by
  rw [queueConfigured_queue, onQueue_other _ _ hp]

theorem queueConfigured_role :
    let old := (s.queue q).cfg
    let changed := qMode old ≠ qMode new ∨ qProducer old ≠ qProducer new ∨ qConsumer old ≠ qConsumer new
    (queueConfigured q new s).role (ukey 3 q) = { s.role (ukey 3 q) with gen := if changed then nextGen (s.gen 3 q) else s.gen 3 q } := by
  unfold queueConfigured
  dsimp only
  rw [reassignedUnless_same, ite_not]
  rfl

end

/-! ### The opcodes -/

theorem qConfigSpec_configures (r : Req) (s : State) (hq : 48 ≤ unitIx r.b) :
    let q := unitIx r.b
    let new := sub r.b 8 16
    let old := (s.queue q).cfg
    let t := (qConfigSpec.run r s).st
    (t.queue q).cfg = new
      ∧ t.gen 3 q = (if qMode old ≠ qMode new ∨ qProducer old ≠ qProducer new ∨ qConsumer old ≠ qConsumer new then nextGen (s.gen 3 q) else s.gen 3 q)
      ∧ t.owner 3 q = s.owner 3 q ∧ (∀ p, p ≠ q → (∀ h, qHost new = some h → p ≠ 32 + h) → t.queue p = s.queue p) ∧ Only [.roles, .qf] s t := by
  dsimp only
  refine ⟨?cfg, ?gen, ?owner, fun p hp hn => ?other, qConfigSpec_frame r s⟩ <;> obtain ⟨gap, e⟩ := qConfigSpec_st r s
  case cfg => rw [e, qNotices_cfg, queueConfigured_cfg]
  case other =>
    have hcfg := (qcfg_eq_cfg (queueConfigured (unitIx r.b) (sub r.b 8 16) s) hq).trans (queueConfigured_cfg _ _ _)
    rw [e, qNotices_queue_other hp (by rwa [hcfg]), queueConfigured_other _ _ _ hp]
  all_goals
    have hrole : (qConfigSpec.run r s).st.role (ukey 3 (unitIx r.b)) = (queueConfigured (unitIx r.b) (sub r.b 8 16) s).role (ukey 3 (unitIx r.b)) := by
      rw [e, State.role, State.role, qNotices_frame _ _ _ .roles (by decide)]
    rw [queueConfigured_role] at hrole
  case gen => exact (congrArg Role.gen hrole :)
  case owner => exact (congrArg Role.owner hrole :)

theorem qStatusSpec_data (r : Req) (s : State) (h : (s.qcfg (unitIx r.b)).length = 16) :
    (qStatusSpec.run r s).data.length = 52 ∧ (qStatusSpec.run r s).data.take 16 = s.qcfg (unitIx r.b) := by
  have hd : ∃ rest : Rec, rest.length = 36 ∧ (qStatusSpec.run r s).data = s.qcfg (unitIx r.b) ++ rest := by
    refine ⟨_, ?_, by simp only [qStatusSpec, readSpec, answer, List.append_assoc]; rfl⟩
    simp [genOct, le_length, zeros]
  obtain ⟨rest, hr, e⟩ := hd
  rw [e, List.length_append, h, hr]
  exact ⟨rfl, List.take_left' h⟩

/-- Settles O19: the laws of acceptance, and what Q_CONFIG and Q_PUSH write. -/
theorem queueOpcodes : Obligations.QueueOpcodes :=
  ⟨waits_of _ _ _ rfl rfl (fun _ _ _ => rfl),
    acts_of _ _ _ rfl rfl (fun r s => qPushSpec_frame r s .ctxs (by decide)) (fun _ _ _ => rfl),
    acts_of _ _ _ rfl rfl (fun r s => qReadSpec_frame r s .ctxs (by decide)) (fun _ _ _ => rfl),
    acts_of _ _ _ rfl rfl (fun r s => qMarkSpec_frame r s .ctxs (by decide)) (fun _ _ _ => rfl),
    acts_of _ _ _ rfl rfl (fun r s => qMarkSpec_frame r s .ctxs (by decide)) (fun _ _ _ => rfl),
    acts_of _ _ _ rfl rfl (fun r s => qRewindSpec_frame r s .ctxs (by decide)) (fun _ _ _ => rfl),
    acts_of _ _ _ rfl rfl (fun r s => qReleaseSpec_frame r s .ctxs (by decide)) (fun _ _ _ => rfl),
    acts_of _ _ _ rfl rfl (fun r s => qReleaseSpec_frame r s .ctxs (by decide)) (fun _ _ _ => rfl),
    tells_of _ _ _ rfl (.inr rfl) rfl (fun _ _ _ => rfl), tells_of _ _ _ rfl (.inr rfl) rfl (fun _ _ _ => rfl),
    fun r s hq => qConfigSpec_configures r s hq,
    fun r s => ⟨fun _ hp hn => admitCells_queue_other hp hn, qPushSpec_frame r s, admitCells_cfg _ _ s⟩, qStatusSpec_data⟩

end Sys2Proof.Machine

namespace Sys2Proof.Machine

/-! ### Cores and tasks -/

theorem onTask_same (t : Nat) (f : Task → Task) (s : State) : (onTask t f s).task t = f (s.task t) := tget_tmod_same taskDef _ t f

theorem onTask_other {t n : Nat} (f : Task → Task) (s : State) (h : n ≠ t) : (onTask t f s).task n = s.task n := tget_tmod_other taskDef s.ces.tasks f h

theorem onCore_task (c : Nat) (f : Core → Core) (s : State) (t : Nat) : (onCore c f s).task t = s.task t := rfl

theorem useFree_task (s : State) (t : Nat) : (useFree s).task t = s.task t := rfl

section
variable {l : List Part} {s t : State}

theorem core_of_frame (h : Only l s t) (n : Part.ces ∉ l) (c : Nat) : t.core c = s.core c :=
  congrArg (fun x : Cesyn => tget coreDef x.cores c) (h .ces n)

theorem task_of_frame (h : Only l s t) (n : Part.ces ∉ l) (i : Nat) : t.task i = s.task i :=
  congrArg (fun x : Cesyn => tget taskDef x.tasks i) (h .ces n)

theorem staged_of_frame (h : Only l s t) (n : Part.ces ∉ l) : t.ces.staged = s.ces.staged := congrArg Cesyn.staged (h .ces n)

end

/-! ### TASK_CONTROL and TASK_PARAM (R433) -/

/-- The state with ENABLE stored, and with the generations of the task's output units recorded where it goes from 0 to 1. -/
def enableStored (t : Nat) (on : Bool) (s : State) : State :=
  let u := onTask t (fun x => { x with stored := some on }) s
  if on && !s.taskOn t then recordGens t u else u

theorem taskControlSpec_st (r : Req) (s : State) : (taskControlSpec.run r s).st =
    let on := bit (rd r.b 6 1) 0
    if on then enableStored (unitIx r.b) on s else closeProducer (taskPort (unitIx r.b)) 4 (enableStored (unitIx r.b) on s) := rfl

section
variable (t : Nat) (on : Bool) (s : State)

theorem enableStored_frame : Only [.ces] s (enableStored t on s) := by
  unfold enableStored
  exact .ite ((recordGens_frame t _).after (by decide) (onTask_frame t _ s)) (onTask_frame t _ s)

theorem enableStored_cores : (enableStored t on s).ces.cores = s.ces.cores := by
  unfold enableStored
  dsimp only
  split <;> rfl

theorem enableStored_task : ((enableStored t on s).task t).stored = some on ∧ ((enableStored t on s).task t).acts = (s.task t).acts := by
  unfold enableStored recordGens
  dsimp only
  split <;> simp only [onTask_same, and_self]

theorem enableStored_other {n : Nat} (h : n ≠ t) : (enableStored t on s).task n = s.task n := by
  unfold enableStored recordGens
  dsimp only
  split <;> simp only [onTask_other _ _ h]

end

theorem taskOn_of_stored {s : State} {t : Nat} {on : Bool} (h : (s.task t).stored = some on) : s.taskOn t = on := by
  rw [State.taskOn, h]

theorem taskControl_sets (r : Req) (s : State) : let t := unitIx r.b
    let u := (taskControlSpec.run r s).st
    (u.task t).stored = some (bit (rd r.b 6 1) 0) ∧ u.taskOn t = bit (rd r.b 6 1) 0 ∧ (u.task t).acts = (s.task t).acts ∧ (∀ n, n ≠ t → u.task n = s.task n) ∧ u.ces.cores = s.ces.cores
      ∧ (bit (rd r.b 6 1) 0 = true → Only [.ces] s u)
      ∧ (bit (rd r.b 6 1) 0 = false → u = closeProducer (taskPort t) 4 (onTask t (fun x => { x with stored := some false }) s)) ∧ Only [.qf, .ces] s u := by
  dsimp only
  have set := taskControlSpec_st r s
  have only := taskControlSpec_frame r s
  generalize (taskControlSpec.run r s).st = u at set only ⊢
  generalize bit (rd r.b 6 1) 0 = on at set ⊢
  generalize unitIx r.b = t at set ⊢
  obtain ⟨stored, acts⟩ := enableStored_task t on s
  have closed : Only [.qf] (enableStored t on s) u := by
    rw [set]
    exact .ite (.refl _ _) (closeProducer_frame _ _ _)
  have kept := task_of_frame closed (by decide)
  refine ⟨by rw [kept, stored], taskOn_of_stored (by rw [kept, stored]), by rw [kept, acts], fun n hn => by rw [kept, enableStored_other t on s hn],
    (congrArg Cesyn.cores (closed .ces (by decide))).trans (enableStored_cores t on s), ?on, ?off, only⟩
  case on => rintro rfl; rw [set]; exact enableStored_frame t true s
  case off => rintro rfl; rw [set]; rfl

theorem putWords_other (ws : List W24) {o a : Nat} (m : Tab W24) (h : a < o ∨ o + ws.length ≤ a) : tget wordDef (putWords o ws m) a = tget wordDef m a := by
  induction ws generalizing o m with
  | nil => rfl
  | cons v ws ih =>
    rw [List.length_cons] at h
    rw [putWords, ih _ (by omega), tget_tput_other wordDef m v (by omega)]

theorem putWords_get (ws : List W24) (o : Nat) (m : Tab W24) {i : Nat} (h : i < ws.length) : tget wordDef (putWords o ws m) (o + i) = ws[i] := by
  induction ws generalizing o m i with
  | nil => cases h
  | cons v ws ih =>
    rw [putWords]
    cases i with
    | zero => rw [putWords_other _ _ (by omega), Nat.add_zero, tget_tput_same]; rfl
    | succ i => rw [show o + (i + 1) = o + 1 + i by omega, ih _ _ (Nat.lt_of_succ_lt_succ h)]; rfl

/-- The words of a TASK_PARAM. -/
def paramWords (b : Rec) : List W24 := (List.range (rd b 7 1)).map (fun i => BitVec.ofNat 24 (rd b (8 + 3 * i) 3))

theorem taskParamSpec_st {r : Req} {s : State} {d : Rec} (h : s.taskDesc (unitIx r.b) = some d) :
    (taskParamSpec.run r s).st = onCore (tdCore d) (fun k => { k with data := putWords (tdPBase d + rd r.b 6 1) (paramWords r.b) k.data }) s := by
  unfold taskParamSpec
  dsimp only
  rw [h]
  rfl

theorem taskParam_writes (r : Req) (s : State) (d : Rec) (h : s.taskDesc (unitIx r.b) = some d) : let u := (taskParamSpec.run r s).st
    let base := tdPBase d + rd r.b 6 1
    (∀ i, i < rd r.b 7 1 → tget wordDef (u.core (tdCore d)).data (base + i) = BitVec.ofNat 24 (rd r.b (8 + 3 * i) 3))
      ∧ (∀ a, (a < base ∨ base + rd r.b 7 1 ≤ a) → tget wordDef (u.core (tdCore d)).data a = tget wordDef (s.core (tdCore d)).data a)
      ∧ (∀ c, c ≠ tdCore d → u.core c = s.core c) ∧ u.ces.tasks = s.ces.tasks ∧ Only [.ces] s u := by
  dsimp only
  have hlen : (paramWords r.b).length = rd r.b 7 1 := by rw [paramWords, List.length_map, List.length_range]
  rw [taskParamSpec_st h, onCore_same]
  refine ⟨fun i hi => ?_, fun a ha => putWords_other _ _ (by rwa [hlen]), fun c hc => onCore_other _ s hc, rfl, onCore_frame _ _ s⟩
  rw [putWords_get _ _ _ (by rwa [hlen])]
  simp [paramWords]

end Sys2Proof.Machine

namespace Sys2Proof.Machine

/-! ### TASK_ACTIVATION (R402, R425) -/

section
variable {t o : Nat} {i : Tab Octet} {d : Rec} {s : State} (adc : List (Bool × Bool × List Nat)) (entry : taskEnt s.sched.img s.modeNow t = some (i, o)) (desc : s.taskDesc t = some d)

include entry desc in
theorem exec_taskActivation : exec (.taskActivation t adc) s =
    if s.hearthUp = true ∧ startFrame (ird i (o + 3) 1) (ird i (o + 4) 1) s.fn = true ∧ s.taskOn t = true ∧ s.taskHeld t = false ∧ (s.core (tdCore d)).run = none
    then .next (activate t s.modeNow d adc (atTick (200 * ird i (o + 2) 1) s)) else .next s := by
  show execTaskActivation t adc s = _
  unfold execTaskActivation
  rw [entry, desc]
  simp only [Bool.and_eq_true, Bool.not_eq_true', Option.isNone_iff_eq_none, and_assoc]

include entry desc in
theorem taskActivation_idle (h : s.taskOn t = false ∨ s.taskHeld t = true ∨ (s.core (tdCore d)).run ≠ none ∨ startFrame (ird i (o + 3) 1) (ird i (o + 4) 1) s.fn = false) :
    exec (.taskActivation t adc) s = .next s := by
  rw [exec_taskActivation adc entry desc, if_neg]
  rintro ⟨-, start, on, free, idle⟩
  rcases h with h | h | h | h
  · exact absurd (on.symm.trans h) (by decide)
  · exact absurd (free.symm.trans h) (by decide)
  · exact h idle
  · exact absurd (start.symm.trans h) (by decide)

end

/-- ACT_INFO of an activation (R400). -/
def actInfo (t c : Nat) (fresh safe new : Bool) (m : Nat) : Nat := t + 64 * c + 256 * b2n fresh + 512 * b2n safe + 1024 * b2n new + 2048 * (m % 8)

theorem b2n_le_one (b : Bool) : b2n b ≤ 1 := by cases b <;> decide

theorem b2n_mod_two (b : Bool) : decide (b2n b % 2 = 1) = b := by cases b <;> decide

theorem actInfo_parts {t c : Nat} (ht : t < 64) (hc : c < 4) (fresh safe new : Bool) (m : Nat) : let w := BitVec.ofNat 24 (actInfo t c fresh safe new m)
    w.toNat % 64 = t ∧ w.getLsbD 8 = fresh ∧ w.getLsbD 9 = safe ∧ w.getLsbD 10 = new := by
  have hf := b2n_le_one fresh
  have hs := b2n_le_one safe
  have hn := b2n_le_one new
  have digits : actInfo t c fresh safe new m % 64 = t ∧ actInfo t c fresh safe new m / 2 ^ 8 % 2 = b2n fresh % 2
      ∧ actInfo t c fresh safe new m / 2 ^ 9 % 2 = b2n safe % 2 ∧ actInfo t c fresh safe new m / 2 ^ 10 % 2 = b2n new % 2 := by
    unfold actInfo
    omega
  obtain ⟨dt, df, ds, dn⟩ := digits
  simp only [BitVec.toNat_ofNat, BitVec.getLsbD_ofNat, Nat.testBit_eq_decide_div_mod_eq, df, ds, dn, b2n_mod_two]
  exact ⟨by omega, rfl, rfl, rfl⟩

theorem tdCore_lt (d : Rec) : tdCore d < 4 := Nat.mod_lt _ (by decide)

/-- The core an activation leaves: what it changes of the core before. -/
structure Activated (t : Nat) (d : Rec) (fn : Fn) (fresh safe new : Bool) (k0 k : Core) : Prop where
  run : k.run = some t
  pc : k.pc = BitVec.ofNat 16 (tdEntry d)
  sp : k.sp = BitVec.ofNat 17 (tdTop d)
  sb : k.sb = BitVec.ofNat 17 (tdBound d)
  flow : k.st = 0 ∧ k.amc = 0 ∧ k.lc = 0 ∧ k.ls = 0 ∧ k.le_ = 0 ∧ k.rc = 0
  registers : k.a = [] ∧ k.d = [] ∧ k.p = [] ∧ k.n = [] ∧ k.m = []
  marks : k.marks = []
  cycles : k.cycles = 0
  memories : k.prog = k0.prog ∧ k.data = k0.data ∧ k.stag = k0.stag
  actFn : k.actFn = fn
  info : ∃ m, k.info = BitVec.ofNat 24 (actInfo t (tdCore d) fresh safe new m)

theorem Activated.info_parts {t : Nat} {d : Rec} {fn : Fn} {fresh safe new : Bool} {k0 k : Core} (h : Activated t d fn fresh safe new k0 k) (ht : t < 64) :
    k.info.toNat % 64 = t ∧ k.info.getLsbD 8 = fresh ∧ k.info.getLsbD 9 = safe ∧ k.info.getLsbD 10 = new := by
  obtain ⟨m, e⟩ := h.info
  rw [e]
  exact actInfo_parts ht (tdCore_lt d) fresh safe new m

section
variable (t m : Nat) (d : Rec) (adc : List (Bool × Bool × List Nat)) (s : State)

theorem activate_core : Activated t d s.fn (s.task t).fresh (s.task t).safeReq (decide ((s.task t).mode ≠ some m)) (s.core (tdCore d)) ((activate t m d adc s).core (tdCore d)) := by
  unfold activate
  dsimp only
  rw [useFree_core, onTask_core, onCore_same]
  exact ⟨rfl, rfl, rfl, rfl, ⟨rfl, rfl, rfl, rfl, rfl, rfl⟩, ⟨rfl, rfl, rfl, rfl, rfl⟩, rfl, rfl, ⟨rfl, rfl, rfl⟩, rfl, m, rfl⟩

theorem activate_core_other {c : Nat} (h : c ≠ tdCore d) : (activate t m d adc s).core c = s.core c := by
  unfold activate
  dsimp only
  rw [useFree_core, onTask_core, onCore_other _ _ h]

theorem activate_task : (activate t m d adc s).task t = { s.task t with acts := (s.task t).acts + 1, fresh := false, mode := some m, safeReq := false } := by
  unfold activate
  dsimp only
  rw [useFree_task, onTask_same, onCore_task]

theorem activate_task_other {n : Nat} (h : n ≠ t) : (activate t m d adc s).task n = s.task n := by
  unfold activate
  dsimp only
  rw [useFree_task, onTask_other _ _ h, onCore_task]

end

theorem taskActivation_begins (t o : Nat) (i : Tab Octet) (d : Rec) (adc : List (Bool × Bool × List Nat)) (s : State) (entry : taskEnt s.sched.img s.modeNow t = some (i, o))
    (desc : s.taskDesc t = some d) (up : s.hearthUp = true) (on : s.taskOn t = true) (free : s.taskHeld t = false) (idle : (s.core (tdCore d)).run = none)
    (start : startFrame (ird i (o + 3) 1) (ird i (o + 4) 1) s.fn = true) (ht : t < 64) :
    ∃ u, exec (.taskActivation t adc) s = .next u ∧ let k := u.core (tdCore d)
      let k0 := s.core (tdCore d)
      k.run = some t ∧ k.pc = BitVec.ofNat 16 (tdEntry d) ∧ k.sp = BitVec.ofNat 17 (tdTop d) ∧ k.sb = BitVec.ofNat 17 (tdBound d) ∧ k.st = 0 ∧ k.amc = 0 ∧ k.lc = 0 ∧ k.ls = 0 ∧ k.le_ = 0 ∧ k.rc = 0
        ∧ (∀ n, k.acc n = 0 ∧ k.dr n = 0 ∧ k.ptr n = 0 ∧ k.modr n = 0 ∧ k.lenr n = 0) ∧ k.marks = [] ∧ k.cycles = 0 ∧ k.prog = k0.prog ∧ k.data = k0.data ∧ k.stag = k0.stag ∧ k.actFn = s.fn
        ∧ k.info.toNat % 64 = t ∧ k.info.getLsbD 8 = (s.task t).fresh ∧ k.info.getLsbD 9 = (s.task t).safeReq ∧ k.info.getLsbD 10 = decide ((s.task t).mode ≠ some s.modeNow)
        ∧ (u.task t).acts = (s.task t).acts + 1 ∧ (u.task t).fresh = false ∧ (u.task t).safeReq = false ∧ (u.task t).stored = (s.task t).stored ∧ (∀ n, n ≠ t → u.task n = s.task n)
        ∧ (∀ c, c ≠ tdCore d → u.core c = s.core c) ∧ Only [.time, .qf, .ces, .free] s u := by
  have run := (exec_taskActivation adc entry desc).trans (if_pos ⟨up, start, on, free, idle⟩)
  have later := atTick_frame (200 * ird i (o + 2) 1) s
  obtain ⟨u, run', only⟩ := execTaskActivation_frame t adc s
  cases (show Host.Outcome.next u = _ from run'.symm.trans run)
  generalize atTick (200 * ird i (o + 2) 1) s = a at run later only ⊢
  have core := core_of_frame later (by decide)
  have task := task_of_frame later (by decide)
  have hfn : a.fn = s.fn := congrArg Clk.fn (later .clk (by decide))
  have k := activate_core t s.modeNow d adc a
  rw [core, task, hfn] at k
  obtain ⟨hst, hamc, hlc, hls, hle, hrc⟩ := k.flow
  obtain ⟨ha, hd, hp, hn, hm⟩ := k.registers
  obtain ⟨hprog, hdata, hstag⟩ := k.memories
  obtain ⟨hnumber, hfresh, hsafe, hnew⟩ := k.info_parts ht
  have ended := activate_task t s.modeNow d adc a
  rw [task] at ended
  refine ⟨_, run, k.run, k.pc, k.sp, k.sb, hst, hamc, hlc, hls, hle, hrc, fun n => ?registers, k.marks, k.cycles, hprog, hdata, hstag, k.actFn,
    hnumber, hfresh, hsafe, hnew, by rw [ended], by rw [ended], by rw [ended], by rw [ended],
    fun n hn => (activate_task_other t _ d adc a hn).trans (task n), fun c hc => (activate_core_other t _ d adc a hc).trans (core c), only⟩
  case registers =>
    unfold Core.acc Core.dr Core.ptr Core.modr Core.lenr
    rw [ha, hd, hp, hn, hm]
    exact ⟨rfl, rfl, rfl, rfl, rfl⟩

end Sys2Proof.Machine

namespace Sys2Proof.Machine

/-! ### TEND (R134, R425) -/

/-- The words written, each with the value it has in the staging area. -/
def stagedWords (k : Core) : Tab W24 := k.marks.foldl (fun w o => tins o (tget wordDef k.stag o) w) []

theorem mem_tins_self (i : Nat) (v : W24) (t : Tab W24) : (i, v) ∈ tins i v t := by
  induction t with
  | nil => exact List.mem_singleton.2 rfl
  | cons e r ih =>
    unfold tins
    split
    · exact List.mem_cons_self
    · split
      · exact List.mem_cons_self
      · exact List.mem_cons_of_mem _ ih

theorem mem_tins_of_mem {i : Nat} {v : W24} {t : Tab W24} {e : Nat × W24} (h : e ∈ t) (ne : e.1 ≠ i) : e ∈ tins i v t := by
  induction t with
  | nil => cases h
  | cons a r ih =>
    unfold tins
    split
    · exact List.mem_cons_of_mem _ h
    · rcases List.mem_cons.1 h with rfl | h
      · rw [if_neg (Ne.symm ne)]
        exact List.mem_cons_self
      · split
        · exact List.mem_cons_of_mem _ h
        · exact List.mem_cons_of_mem _ (ih h)

/-- Words collected at their offsets: those of the offsets listed, and no others. -/
theorem mem_foldl_tins (v : Nat → W24) (l : List Nat) (t : Tab W24) (ht : ∀ e ∈ t, e.2 = v e.1) (e : Nat × W24) :
    e ∈ l.foldl (fun w o => tins o (v o) w) t ↔ (e ∈ t ∨ (e.1 ∈ l ∧ e.2 = v e.1)) := by
  induction l generalizing t with
  | nil => simp
  | cons o l ih =>
    have step : ∀ x, x ∈ tins o (v o) t ↔ (x ∈ t ∨ x = (o, v o)) := fun x => by
      refine ⟨fun h => (mem_tins h).symm, fun h => ?_⟩
      by_cases hx : x.1 = o
      · have hv : x.2 = v o := by
          rcases h with h | rfl
          · rw [ht x h, hx]
          · rfl
        exact (Prod.ext hx hv : x = (o, v o)) ▸ mem_tins_self o (v o) t
      · rcases h with h | rfl
        · exact mem_tins_of_mem h hx
        · exact absurd rfl hx
    rw [List.foldl_cons, ih _ (fun x hx => by rcases (step x).1 hx with h | rfl; exacts [ht x h, rfl]), step, List.mem_cons]
    constructor
    · rintro ((h | rfl) | ⟨h, k⟩)
      exacts [.inl h, .inr ⟨.inl rfl, rfl⟩, .inr ⟨.inr h, k⟩]
    · rintro (h | ⟨h | h, k⟩)
      exacts [.inl (.inl h), .inl (.inr (Prod.ext h (by rw [k, h]))), .inr ⟨h, k⟩]

theorem mem_stagedWords (k : Core) (e : Nat × W24) : e ∈ stagedWords k ↔ e.1 ∈ k.marks ∧ e.2 = tget wordDef k.stag e.1 := by
  rw [stagedWords, mem_foldl_tins (fun o => tget wordDef k.stag o) _ _ (fun _ h => by cases h)]
  simp

/-- The queue operations of a core's ports. -/
def portsApplied (k : Core) (s : State) : State := (List.range 8).foldl (fun s p => applyPort (k.port p) s) s

theorem portsApplied_frame (k : Core) (s : State) : Only [.qf] s (portsApplied k s) := Only.foldl _ (fun u p => applyPort_frame (k.port p) u) _ (.refl _ s)

/-- The cycles of an activation recorded. -/
def cyclesRecorded (n : Nat) (x : Task) : Task := { x with last := n, max := max x.max n }

/-- The core that an activation has left. -/
def Core.ended (d : Rec) (k : Core) : Core := { k with run := none, marks := [], ports := [], safe := 0, nest := [], nestKept := [], busy := k.busy + 16 + tdOutWords d }

theorem endTask_eq (c t : Nat) (s : State) : ∃ pushes d, endTask c t s = onCes (fun x => { x with staged := x.staged ++ [{ task := t, words := stagedWords (s.core c), pushes := pushes }] })
    (onCore c (Core.ended d) (portsApplied (s.core c) (onTask t (cyclesRecorded (s.core c).cycles) s))) := ⟨_, _, rfl⟩

/-- What TEND leaves. -/
structure TaskEnded (c t : Nat) (s u : State) : Prop where
  core : ∃ d, u.core c = (s.core c).ended d
  otherCore : ∀ n, n ≠ c → u.core n = s.core n
  task : u.task t = cyclesRecorded (s.core c).cycles (s.task t)
  otherTask : ∀ n, n ≠ t → u.task n = s.task n
  staged : ∃ pushes, u.ces.staged = s.ces.staged ++ [{ task := t, words := stagedWords (s.core c), pushes := pushes }]

theorem endTask_ends (c t : Nat) (s : State) : TaskEnded c t s (endTask c t s) := by
  obtain ⟨pushes, d, e⟩ := endTask_eq c t s
  have applied := portsApplied_frame (s.core c) (onTask t (cyclesRecorded (s.core c).cycles) s)
  have core := core_of_frame applied (by decide)
  have task := task_of_frame applied (by decide)
  have staged := staged_of_frame applied (by decide)
  rw [e]
  generalize portsApplied (s.core c) (onTask t (cyclesRecorded (s.core c).cycles) s) = a at core task staged ⊢
  refine ⟨⟨d, (onCore_same c _ a).trans (by rw [core]; rfl)⟩, fun m hm => (onCore_other _ a hm).trans (core m), ?_, fun m hm => ?_, ⟨pushes, ?_⟩⟩
  · exact (task t).trans (onTask_same t _ s)
  · exact (task m).trans (onTask_other _ s hm)
  · exact congrArg (· ++ _) staged

theorem exec_tend {op : CoreOp} {s : State} {t : Nat} (ready : CoreReady op s) (run : (s.core op.core).run = some t) : exec (.tend op) s = .next (endTask op.core t s) := by
  obtain ⟨four, ecc, rep, budget, t', run', safe⟩ := ready
  cases run'.symm.trans run
  have noSafe : ¬ ((decide ((s.core op.core).safe = 1) && decide (((s.taskDesc t).map tdSafe).getD 65535 ≠ 65535)) = true) := by simpa using safe
  show execTend op s = _
  unfold execTend
  dsimp only
  rw [run]
  dsimp only
  rw [if_neg (by omega), if_neg noSafe, if_neg (by omega), ecc, if_neg (by decide), if_neg (by simp [rep])]
  rfl

theorem tend_ends (op : CoreOp) (s : State) (t : Nat) (ready : CoreReady op s) (run : (s.core op.core).run = some t) : let k := s.core op.core
    ∃ u a, exec (.tend op) s = .next u ∧ (u.core op.core).run = none ∧ (u.core op.core).marks = [] ∧ (u.core op.core).ports = [] ∧ (u.core op.core).data = k.data ∧ (u.core op.core).stag = k.stag
      ∧ (u.task t).last = k.cycles ∧ (u.task t).max = max (s.task t).max k.cycles ∧ u.ces.staged = s.ces.staged ++ [a] ∧ a.task = t
      ∧ (∀ x ∈ k.marks, (x, tget wordDef k.stag x) ∈ a.words) ∧ (∀ e ∈ a.words, e.1 ∈ k.marks) ∧ (∀ n, n ≠ t → u.task n = s.task n) ∧ (∀ c, c ≠ op.core → u.core c = s.core c) ∧ Only [.qf, .ces] s u := by
  have ended := endTask_ends op.core t s
  obtain ⟨d, core⟩ := ended.core
  obtain ⟨pushes, staged⟩ := ended.staged
  refine ⟨_, _, exec_tend ready run, by rw [core]; rfl, by rw [core]; rfl, by rw [core]; rfl, by rw [core]; rfl, by rw [core]; rfl, by rw [ended.task]; rfl, by rw [ended.task]; rfl, staged, rfl,
    fun x hx => (mem_stagedWords _ _).2 ⟨hx, rfl⟩, fun e he => ((mem_stagedWords _ _).1 he).1, ended.otherTask, ended.otherCore, endTask_frame op.core t s⟩

/-! ### Ending traps (R420) -/

/-- The core and the task as an ending trap leaves them. -/
def Core.trapped (k : Core) : Core := { k with run := none, marks := [], ports := [], rep := none, cut := false, nest := [], nestKept := [], safe := 0, busy := k.busy + 8 }

def trapRecorded (cause : Nat) (k : Core) (tb : Tb) (x : Task) : Task :=
  { x with traps := x.traps + 1, cause := cause, trapPc := savedPc k, trapRc := k.rc, trapSt := savedSt k, trapTb := tb }

/-- An ending trap but for its fault source: the record stored and the owner told. -/
def trapTold (c cause t : Nat) (s : State) : State :=
  let k := s.core c
  let u := onTask t (trapRecorded cause k s.tbNow) (onCore c Core.trapped s)
  let u := notify (u.owner 5 t) 0x6001 ([BitVec.ofNat 8 t, BitVec.ofNat 8 cause] ++ genOct u 5 t ++ le 2 (savedPc k).toNat ++ le 3 k.rc.toNat ++ le 3 (savedSt k).toNat) u
  if cause = 1 then onSched (fun x => { x with budgetTraps := x.budgetTraps + 1 }) u else u

theorem trapTold_frame (c cause t : Nat) (s : State) : Only [.sched, .qf] (onTask t (trapRecorded cause (s.core c) s.tbNow) (onCore c Core.trapped s)) (trapTold c cause t s) := by
  unfold trapTold
  exact .ite ((onSched_frame _ _).after (by decide) ((notify_frame _ _ _ _).sub (by decide))) ((notify_frame _ _ _ _).sub (by decide))

theorem endTrap_eq {c t : Nat} (cause : Nat) {s : State} (run : (s.core c).run = some t) : endTrap c cause s = raise (0xDF + cause) t (trapTold c cause t s) := by
  unfold endTrap
  dsimp only
  rw [run]
  rfl

theorem endTrap_ends (c cause t : Nat) (s : State) (run : (s.core c).run = some t) : let k := s.core c
    ∃ v, endTrap c cause s = raise (0xDF + cause) t v ∧ (v.core c).run = none ∧ (v.core c).marks = [] ∧ (v.core c).ports = [] ∧ (v.core c).data = k.data ∧ (v.core c).prog = k.prog
      ∧ (v.core c).busy = k.busy + 8 ∧ v.ces.staged = s.ces.staged ∧ (v.task t).traps = (s.task t).traps + 1 ∧ (v.task t).cause = cause ∧ (v.task t).trapPc = savedPc k ∧ (v.task t).trapRc = k.rc ∧ (v.task t).trapSt = savedSt k
      ∧ (v.task t).trapTb = s.tbNow ∧ (v.task t).stored = (s.task t).stored ∧ (∀ n, n ≠ t → v.task n = s.task n) ∧ (∀ n, n ≠ c → v.core n = s.core n) ∧ Only [.sched, .qf, .ces] s v := by
  have later := trapTold_frame c cause t s
  have core : (trapTold c cause t s).core c = (s.core c).trapped := (core_of_frame later (by decide) c).trans (onCore_same c _ s)
  have task : (trapTold c cause t s).task t = trapRecorded cause (s.core c) s.tbNow (s.task t) := (task_of_frame later (by decide) t).trans (onTask_same t _ _)
  have staged : (trapTold c cause t s).ces.staged = s.ces.staged := (staged_of_frame later (by decide)).trans rfl
  refine ⟨_, endTrap_eq cause run, by rw [core]; rfl, by rw [core]; rfl, by rw [core]; rfl, by rw [core]; rfl, by rw [core]; rfl, by rw [core]; rfl, staged, by rw [task]; rfl, by rw [task]; rfl,
    by rw [task]; rfl, by rw [task]; rfl, by rw [task]; rfl, by rw [task]; rfl, by rw [task]; rfl, fun n hn => (task_of_frame later (by decide) n).trans (onTask_other _ _ hn),
    fun n hn => (core_of_frame later (by decide) n).trans (onCore_other _ s hn), ?_⟩
  exact later.after (by decide) ((onTask_frame t _ _).after (by decide) ((onCore_frame c _ s).sub (by decide)))

end Sys2Proof.Machine

namespace Sys2Proof.Machine

/-! ### Words pushed (R410) -/

/-- The core after words pushed in order. -/
def Core.pushes (vs : List W24) (k : Core) : Core := vs.foldl (fun k v => k.pushed v) k

theorem pushes_eq (vs : List W24) (k : Core) : k.pushes vs = { k with sp := k.sp - BitVec.ofNat 17 vs.length, data := (k.pushes vs).data } := by
  induction vs generalizing k with
  | nil => simp [Core.pushes]
  | cons v vs ih =>
    have next : k.pushes (v :: vs) = (k.pushed v).pushes vs := rfl
    have sp : (k.pushed v).sp - BitVec.ofNat 17 vs.length = k.sp - BitVec.ofNat 17 (v :: vs).length := by
      show k.sp - 1 - _ = _
      rw [List.length_cons]
      bv_omega
    rw [next, ih, sp]
    rfl

theorem pushAll_fits (vs : List W24) (k : Core) (room : k.room vs.length) : pushAll k vs = .ok (k.pushes vs) := by
  induction vs generalizing k with
  | nil => rfl
  | cons v vs ih =>
    obtain ⟨fits, inData⟩ := room
    rw [List.length_cons] at fits
    rw [pushAll_pushed v vs ⟨by omega, inData⟩, ih]
    · rfl
    · show k.sb.toNat + vs.length ≤ (k.sp - 1).toNat ∧ (k.sp - 1).toNat ≤ 0x18000
      have below : (k.sp - 1).toNat = k.sp.toNat - 1 := by bv_omega
      omega

/-- Word `i` pushed stands `i + 1` words below where the stack pointer stood; no other word of data memory has changed. -/
theorem pushes_data (vs : List W24) (k : Core) (room : vs.length ≤ k.sp.toNat) :
    (∀ i (h : i < vs.length), tget wordDef (k.pushes vs).data (k.below (i + 1)) = vs[i])
      ∧ ∀ b, (∀ i < vs.length, b ≠ k.below (i + 1)) → tget wordDef (k.pushes vs).data b = tget wordDef k.data b := by
  induction vs generalizing k with
  | nil => exact ⟨fun i h => (by cases h), fun b _ => rfl⟩
  | cons v vs ih =>
    rw [List.length_cons] at room
    have lower : vs.length ≤ (k.pushed v).sp.toNat := by
      show vs.length ≤ (k.sp - 1).toNat
      bv_omega
    obtain ⟨reads, keeps⟩ := ih (k.pushed v) lower
    simp only [below_pushed] at reads keeps
    refine ⟨fun i h => ?_, fun b hb => ?_⟩
    · cases i with
      | zero =>
        refine (keeps (k.below 1) fun j hj => ?_).trans (pushed_same k v)
        unfold Core.below
        bv_omega
      | succ i => exact reads i (Nat.lt_of_succ_lt_succ h)
    · exact (keeps b fun j hj => hb (j + 1) (Nat.succ_lt_succ hj)).trans (pushed_other k v (hb 0 (Nat.zero_lt_succ _)))

/-! ### The SAFE trap (R421) -/

/-- The six registers a SAFE trap pushes. -/
def safeSaved (k : Core) : List W24 := [(savedPc k).zeroExtend 24, savedSt k, k.rc, k.lc.zeroExtend 24, k.ls.zeroExtend 24, k.le_.zeroExtend 24]

/-- The core with its registers saved as the SAFE trap leaves it. -/
def Core.safeTrapped (entry : Nat) (k : Core) : Core :=
  setSt fLoop false (setSt fRes false { k with pc := BitVec.ofNat 16 entry, safe := 2, info := k.info ||| 512, rep := none, cut := false, nestKept := k.nest, nest := [],
                                               cycles := k.cycles + 8, busy := k.busy + 8 })

/-- The safe-trapped core: the registers that change, the rest as it was. -/
theorem safeTrapped_eq (entry : Nat) (k : Core) : k.safeTrapped entry =
    { k with st := (k.safeTrapped entry).st, pc := BitVec.ofNat 16 entry, safe := 2, info := k.info ||| 512, rep := none, cut := false, nestKept := k.nest, nest := [],
             cycles := k.cycles + 8, busy := k.busy + 8 } := rfl

theorem safeTrapped_status (entry : Nat) (k : Core) : stBit (k.safeTrapped entry) fLoop = false ∧ stBit (k.safeTrapped entry) fRes = false :=
  ⟨stBit_setSt_same (by decide) _ _, (stBit_setSt_other (by decide) (by decide) _ _).trans (stBit_setSt_same (by decide) _ _)⟩

/-- One more SAFE trap counted. -/
def safeTrapCounted (x : Task) : Task := { x with safeTraps := x.safeTraps + 1 }

section
variable {c t : Nat} {d : Rec} {s : State} (four : c < 4) (run : (s.core c).run = some t) (desc : s.taskDesc t = some d) (safe : (s.core c).safe = 1) (entry : tdSafe d ≠ 65535)
include four run desc safe entry

theorem exec_safeTrap : exec (.safeTrap c) s = .next (match pushAll (s.core c) (safeSaved (s.core c)) with
    | .error x => endTrap c x s
    | .ok k => onTask t safeTrapCounted (onCore c (fun _ => k.safeTrapped (tdSafe d)) s)) := by
  have waits : ¬ ((decide ((s.core c).safe ≠ 1) || decide (tdSafe d = 65535)) = true) := by simp [safe, entry]
  show execSafeTrap c s = _
  unfold execSafeTrap safeTrap
  rw [if_neg (by omega)]
  dsimp only
  rw [run]
  dsimp only
  rw [desc]
  exact congrArg _ (if_neg waits)

theorem safeTrap_stack (h : (s.core c).sp.toNat < (s.core c).sb.toNat + 1) : exec (.safeTrap c) s = .next (endTrap c trapStack s) := by
  rw [exec_safeTrap four run desc safe entry, safeSaved, pushAll_underBound _ _ h]

theorem safeTrap_taken (inData : (s.core c).sp.toNat ≤ 0x18000) (room : (s.core c).sb.toNat + 6 ≤ (s.core c).sp.toNat) :
    exec (.safeTrap c) s = .next (onTask t safeTrapCounted (onCore c (fun _ => ((s.core c).pushes (safeSaved (s.core c))).safeTrapped (tdSafe d)) s)) := by
  rw [exec_safeTrap four run desc safe entry, pushAll_fits (safeSaved (s.core c)) (s.core c) ⟨room, inData⟩]

end

theorem safeTrap_saves (c t : Nat) (d : Rec) (s : State) (four : c < 4) (run : (s.core c).run = some t) (desc : s.taskDesc t = some d) (safe : (s.core c).safe = 1) (entry : tdSafe d ≠ 65535)
    (inData : (s.core c).sp.toNat ≤ 0x18000) (room : (s.core c).sb.toNat + 6 ≤ (s.core c).sp.toNat) : let k := s.core c
    ∃ u, exec (.safeTrap c) s = .next u ∧ let j := u.core c
      let at_ (n : Nat) : W24 := tget wordDef j.data (k.sp - BitVec.ofNat 17 n).toNat
      j.pc = BitVec.ofNat 16 (tdSafe d) ∧ j.sp = k.sp - 6 ∧ at_ 1 = (savedPc k).zeroExtend 24 ∧ at_ 2 = savedSt k ∧ at_ 3 = k.rc ∧ at_ 4 = k.lc.zeroExtend 24 ∧ at_ 5 = k.ls.zeroExtend 24
        ∧ at_ 6 = k.le_.zeroExtend 24 ∧ stBit j fLoop = false ∧ stBit j fRes = false ∧ j.info = k.info ||| 512 ∧ j.cycles = k.cycles + 8 ∧ j.safe = 2 ∧ j.a = k.a ∧ j.d = k.d ∧ j.p = k.p ∧ j.stag = k.stag
        ∧ (u.task t).safeTraps = (s.task t).safeTraps + 1 ∧ (∀ n, n ≠ c → u.core n = s.core n) ∧ (∀ n, n ≠ t → u.task n = s.task n) ∧ Only [.ces] s u := by
  dsimp only
  have core : (onTask t safeTrapCounted (onCore c (fun _ => ((s.core c).pushes (safeSaved (s.core c))).safeTrapped (tdSafe d)) s)).core c
      = ((s.core c).pushes (safeSaved (s.core c))).safeTrapped (tdSafe d) := (onTask_core t _ _ c).trans (onCore_same c _ s)
  have reads (i : Nat) (h : i < 6) := (pushes_data (safeSaved (s.core c)) (s.core c) (by show 6 ≤ _; omega)).1 i h
  have saved := pushes_eq (safeSaved (s.core c)) (s.core c)
  generalize hp : (s.core c).pushes (safeSaved (s.core c)) = p at core reads saved
  obtain ⟨loop, res⟩ := safeTrapped_status (tdSafe d) p
  refine ⟨_, hp ▸ safeTrap_taken four run desc safe entry inData room, ?_⟩
  rw [core]
  refine ⟨rfl, by rw [safeTrapped_eq, saved]; rfl, reads 0 (by decide), reads 1 (by decide), reads 2 (by decide), reads 3 (by decide), reads 4 (by decide), reads 5 (by decide), loop, res,
    by rw [safeTrapped_eq, saved], by rw [safeTrapped_eq, saved], rfl, by rw [safeTrapped_eq, saved], by rw [safeTrapped_eq, saved], by rw [safeTrapped_eq, saved],
    by rw [safeTrapped_eq, saved], by rw [onTask_same]; rfl, fun n hn => (onTask_core t _ _ n).trans (onCore_other _ s hn), fun n hn => onTask_other _ _ hn,
    (onTask_frame t _ _).after (by decide) (onCore_frame c _ s)⟩

/-! ### The guards (R193) -/

theorem safeTrap_idle {c : Nat} {s : State} (h : (s.core c).safe ≠ 1) : exec (.safeTrap c) s = .next s := by
  show execSafeTrap c s = _
  unfold execSafeTrap safeTrap
  dsimp only
  congr 1
  split
  · rfl
  · split
    · rfl
    · exact if_pos (by simp [h])

theorem guards_trap (c : Nat) (s : State) : ((s.core c).safe ≠ 1 → exec (.safeTrap c) s = .next s)
    ∧ ((coreEnv s c).budget ≤ (s.core c).cycles → exec (.budgetTrap c) s = .next (endTrap c trapBudget s)) ∧ ((s.core c).cycles < (coreEnv s c).budget → exec (.budgetTrap c) s = .next s)
    ∧ ((s.core c).run ≠ none → exec (.taskEndGuard c) s = .next (endTrap c trapBudget (atTick 40000 s))) ∧ ((s.core c).run = none → exec (.taskEndGuard c) s = .next s) :=
  ⟨safeTrap_idle, fun h => congrArg _ (if_pos h), fun h => congrArg _ (if_neg (Nat.not_le.2 h)), fun h => congrArg _ (if_pos (Option.isSome_iff_ne_none.2 h)),
    fun h => congrArg _ (if_neg (by simp [h]))⟩

/-- Settles O56: the laws of acceptance, and what the task commands, the activation, TEND, the traps and the guards leave. -/
theorem cesynTasks : Obligations.CesynTasks :=
  ⟨waits_of _ _ _ rfl rfl (fun _ _ _ => rfl), tells_of _ _ _ rfl (.inl rfl) rfl (fun _ _ _ => rfl), waits_of _ _ _ rfl rfl (fun _ _ _ => rfl),
    tells_of _ _ _ rfl (.inl rfl) rfl (fun _ _ _ => rfl), taskControl_sets, taskParam_writes,
    fun t o i d adc s entry desc => ⟨taskActivation_idle adc entry desc, fun up on free idle start ht => taskActivation_begins t o i d adc s entry desc up on free idle start ht⟩,
    tend_ends, endTrap_ends,
    fun c t d s four run desc safe entry => ⟨safeTrap_saves c t d s four run desc safe entry, safeTrap_stack four run desc safe entry⟩, guards_trap⟩

end Sys2Proof.Machine
